-- ==== Sys2Proof/Word.lean ====
section
/-! DEFINITION. The word types of the hub and the two container types its state is written in. -/

namespace Sys2Proof

/-- A byte on a wire or in a memory. -/
abbrev Byte := BitVec 8
/-- A 16-bit quantity. -/
abbrev Half := BitVec 16
/-- A register word: registers are 32 bits wide (R2). -/
abbrev Word := BitVec 32
/-- A 64-bit quantity, such as record words 2 and 3 taken together (R39). -/
abbrev Dword := BitVec 64

/-- A bank of like things, by index: the entries that differ from the bank's default, in rising order of index. -/
abbrev Table (α : Type) := List (Nat × α)

/-- An addressed RAM: the bytes that differ from what an unwritten byte reads as, in rising order of address. -/
abbrev Memory := List Host.Cell

end Sys2Proof
end

