-- ==== Sys2Proof/Syntax.lean ====
section
/-! DEFINITION. The commands of the hub and what their operands are made of. -/

namespace Sys2Proof

/-- Where a host command comes from: a command queue (R447), a boot script (R486), or the journal, which carries what the acting hub took
from its queue `q` (R369). -/
inductive CmdSrc where
  | queue (q : Fin 4)
  | script
  | journal (q : Fin 4)
  deriving DecidableEq, Repr
/-- An input of a servo (R347): a Sync (origin timestamp in ns, the sum of its correctionFields in 2^-16 ns, ingress stamp in ns,
port), an IRIG-B frame (its second and on-time stamp), or a rising edge of `PPSI0` or `PPSI1` (the second that the IRIG-B
lane gave, its stamp). -/
inductive ServoIn where
  | ptp (port : Fin 3) (origin : Nat) (corr : Int) (ingress : Nat)
  | irig (sec stamp : Nat)
  | pps (pin : Fin 2) (sec stamp : Nat)
  deriving DecidableEq, Repr

/-- How a transmit attempt of a CAN controller ended, as the bus showed it: sent, arbitration lost, no acknowledgement (with or
without a dominant bit during the error flag), a check error, or another error (with the exception that ISO 11898-1 makes for
a stuff error during arbitration). -/
inductive CanEnd where
  | ok | arbLost
  | ack (dominant : Bool)
  | crc
  | other (exempt : Bool)
  deriving DecidableEq, Repr

/-- What has come of a frame on a CAN bus (R145): its start of frame, or all of it, with the `CLK_CAN` cycles since its start of frame passed
the synchroniser (R151). The frame itself is its header word, `DLC`, `FDF`, `BRS` and `ESI` in `w1` bits 6:0, and its data, none of which
anything looks at before all of it has come. -/
inductive CanIn where
  | start
  | whole (ago : Nat)
  deriving DecidableEq, Repr

/-- What a lane's line has shown when a mode's frame end comes (R85): the word of an `SSI` read, the pulses of an IRIG-B frame, 0, 1, or 2
for a marker, and how long ago the frame began, where no byte or edge has opened it. -/
structure LineEnd where
  word : Word := 0
  pulses : List (BitVec 2) := []
  ago : Nat := 0
  deriving DecidableEq, Repr

/-- A new level of a lane's pin, and for how many `CLK_SYS` cycles it has stood (R94). -/
structure PinChange where
  level : Bool
  held : Nat
  deriving DecidableEq, Repr

/-- What a standby finds in itself at an edge: its die temperature, and the signatures that failed since the last one (R179, R385). -/
structure OwnHealth where
  temp : Half
  sig : BitVec 2
  deriving DecidableEq, Repr

/-- How the flash's part of a staged block ended (R492): well, with a read-back that differs, or not within 3 s. -/
inductive FlashEnd where
  | ok | differs | timeout
  deriving DecidableEq, Repr

/-- The path that a heartbeat arrives on (R361): `HBI`, or `P3` with what the serial heartbeat carries besides: the sender's MAC address,
the image CRC, the sequence number of the last journal record applied, and `DIGEST_RUN`. -/
inductive HbRx where
  | lvds
  | serial (mac : BitVec 48) (img : Word) (jseq : Half) (run : BitVec 2)
  deriving DecidableEq, Repr

/-- What a `STATE` block carries (R376), by region: the specification names the regions and not their layout, so that a block stands
for its contents. Records and tags are given in words, from an index or address on. -/
inductive StateBlk where
  | points (first : Half) (ws : List Word)
  | mirror (first : BitVec 14) (ws : List Word)
  | subs (first : BitVec 12) (codes : List (BitVec 2))
  | tags (first : Byte) (ws : List Word)
  | data (addr : BitVec 16) (ws : List Word)
  | scratch (addr : BitVec 15) (ws : List Word)
  | regs (c : Fin 252) (cur saved : List Word)
  | ctx (c : Fin 252) (st : BitVec 3) (pc : Half) (cause : Byte)
  | laneQ (n : Fin 96) (tx : Bool) (items : List Word)
  | fretQ (e : Fin 32) (tx : Bool) (items : List Word)
  | fret (e : Fin 32) (run : Bool) (txs rxs a b : Word) (txc rxc : BitVec 6) (pc : BitVec 7)
  | fretFlags (flags : BitVec 160)
  | canQ (n : Fin 16) (tx : Bool) (entries : List (List Word))
  | can (n : Fin 16) (st : BitVec 3) (tec : BitVec 9) (rec_ : Byte)
  | source (node : Byte) (known : Bool) (max : Half)
  | discard (p1 : Bool) (ents : List (Byte × Half))
  | pairs (ents : List (Byte × Byte × Byte))
  | alive (flow : Byte) (count : BitVec 8)
  | seqs (nrp hsr : Half)
  | frames (q : Byte) (fs : List (Half × List Byte))
  deriving DecidableEq, Repr

/-- What enters Midway (R262): the next frame passed on by a SerDes port, a whole frame from `P2`, or the first bytes of one from a SerDes port. -/
inductive MidwayIn where
  | next
  | p2 (bs : List Byte)
  | head (p : Fin 3) (bs : List Byte)
  deriving DecidableEq, Repr

/-- Who makes a register access: a host path (R29), or the control core (R441). -/
inductive HostPath where
  | pcie | qspi | core
  deriving DecidableEq, Repr

/-- The commands of the block: one constructor for each row of the opcode table, with what the row's sender gives. A row that the hub or its
surroundings bring about by themselves (an edge, a timer's end, a frame's arrival) is a command too: its operands are what the
surroundings alone know, and it has its effect only where its condition holds (log entry 3). -/
inductive Instr where
  /-- `REGISTER_WRITE` (R533): A host or control-core write to a register word that has no row of its own is applied field by field under its access codes. -/
  | registerWrite (p : HostPath) (a : BitVec 20) (be : BitVec 4) (w : Word)
  /-- `BASE_STRUM_EDGE` (R25): At a base Strum edge the hub writes house points, freezes the inputs of the groups whose edge it is, and starts their jobs. -/
  | baseStrumEdge (temp : Half) (sig : BitVec 2)
  /-- `SSI_AUTO_READ` (R88): An SSI lane with SSI_AUTO starts a read 1 µs after the freeze of its group's edge. -/
  | ssiAutoRead (n : Fin 96)
  /-- `CONTEXT_READY` (R173): 256 CLK_CORE cycles after its group edge an IDLE context, or a FAULTED one with FAULT_RESTART and VALID, becomes READY. -/
  | contextReady (c : Fin 252)
  /-- `JOB_ENTRY` (R173): At its first slot after READY the context saves w8-w15, clears scratch registers and flags, and starts at ENTRY. -/
  | jobEntry (c : Fin 252)
  /-- `JOB_DEADLINE` (R176): A job that reaches its deadline is aborted as LATE: its stage buffer is discarded and w8-w15 are restored. -/
  | jobDeadline (c : Fin 252)
  /-- `COMMIT_APPLY` (R175): 16 + n cycles after DONE the staged entries of the job are applied as one step in staging order. -/
  | commitApply
  /-- `PT_READ` (R70): Host command that issues a remote READ landing in mirror entries. -/
  | ptRead (src : CmdSrc) (tag : Byte) (addr count landing : Word)
  /-- `PT_WRITE` (R70): Host command that writes a local slot or issues a remote WRITE. -/
  | ptWrite (src : CmdSrc) (tag : Byte) (addr value quality tsx tsLo tsHi : Word)
  /-- `PT_EVENT` (R70): Host command that writes an EVENT point locally or issues a remote or group EVENT. -/
  | ptEvent (src : CmdSrc) (tag : Byte) (addr value quality tsx tsLo tsHi : Word)
  /-- `PT_SUB_OPEN` (R56): Host command that checks a subscription entry, defines its mirror entries and sends a SUBSCRIBE. -/
  | ptSubOpen (src : CmdSrc) (tag : Byte) (entry : Word)
  /-- `PT_SUB_CLOSE` (R63): Host command that sets a subscription OFF, zeros its mirror entries and abandons a pending SUBSCRIBE. -/
  | ptSubClose (src : CmdSrc) (tag : Byte) (entry : Word)
  /-- `PT_MAP_SET` (R37): Host or script command that defines or undefines a range of user slots. -/
  | ptMapSet (src : CmdSrc) (tag : Byte) (first count what : Word)
  /-- `BUNDLE_RX` (R58): The point port takes a received bundle, judges it and writes its records into matching mirror entries. -/
  | bundleRx
  /-- `TXN_READ_REQ_RX` (R62): A received READ request is answered with the records of its range. -/
  | txnReadReqRx
  /-- `TXN_WRITE_REQ_RX` (R65): A received WRITE request is applied whole or refused with EARG or EDENIED and answered. -/
  | txnWriteReqRx
  /-- `TXN_SUBSCRIBE_REQ_RX` (R57): A received SUBSCRIBE request is answered with the range's current records in ceil(count/122) bundles. -/
  | txnSubscribeReqRx
  /-- `TXN_EVENT_REQ_RX` (R66): A received EVENT request is applied to an EVENT slot with WR_REMOTE, or ignored by a group member without it. -/
  | txnEventReqRx
  /-- `TXN_RSP_RX` (R63): A transaction response completes its PENDING tag, or is dropped as stray. -/
  | txnRspRx
  /-- `TXN_TIMEOUT` (R64): A transaction without a response within TIMEOUT_US is sent again or completes with ETIMEOUT. -/
  | txnTimeout (t : Byte)
  /-- `TAG_QUARANTINE_END` (R63): A tag in QUARANTINE becomes FREE one transaction timeout after its last transmission. -/
  | tagQuarantineEnd (t : Byte)
  /-- `W2_READ` (R72): A W2 read returns a whole record, and a 4-byte read of word 0 latches words 1-3. -/
  | w2Read (off : BitVec 20) (len : Nat)
  /-- `W2_WRITE` (R73): A W2 write of word 0 is applied to a WR_HOST local slot or ignored and counted. -/
  | w2Write (off : BitVec 20) (len : Nat) (w : Word)
  /-- `LANE_START` (R83): Command that checks a lane's configuration, bank supply and pins and sets it RUNNING. -/
  | laneStart (src : CmdSrc) (tag : Byte) (n : Word)
  /-- `LANE_STOP` (R83): Command that takes a lane to STOPPING in mode 0 or 1. -/
  | laneStop (src : CmdSrc) (tag : Byte) (n mode : Word)
  /-- `LANE_FLUSH` (R83): Command that empties the named queues of a stopped lane and returns their credits. -/
  | laneFlush (src : CmdSrc) (tag : Byte) (n mask : Word)
  /-- `LANE_DOUT` (R83): Command that sets levels of a lane's discrete output pins. -/
  | laneDout (src : CmdSrc) (tag : Byte) (n mask levels : Word)
  /-- `LANE_STOP_COMPLETE` (R83): A STOPPING lane meets its stop condition, becomes STOPPED and its pins revert. -/
  | laneStopComplete (n : Fin 96)
  /-- `LANE_STOP_TIMEOUT` (R83): A mode-1 stop that has not reached the next EOF within 10 ms ends transmission. -/
  | laneStopTimeout (n : Fin 96)
  /-- `BANK_VIO_CHANGE` (R75): A change of a bank's measured supply class stops the bank's lanes and troupe engines and makes their pins inputs. -/
  | bankVioChange (k : Fin 8) (v : Fin 4)
  /-- `LANE_RX_CHAR` (R80): A received character or byte is pushed as a DATA item, or held for checking. -/
  | laneRxChar (n : Fin 96) (start data par stop : List (BitVec 3)) (ago : Nat)
  /-- `LANE_RX_BREAK` (R85): A break ends the frame and pushes its EOF then a BREAK item. -/
  | laneRxBreak (n : Fin 96)
  /-- `LANE_EOF_IDLE_EXPIRY` (R85): EOF_IDLE of idle line after a stop bit ends a UART or RS-485 frame. -/
  | laneEofIdleExpiry (n : Fin 96)
  /-- `LANE_RX_FRAME_END` (R85): A mode's frame end condition closes the received frame and pushes its EOF. -/
  | laneRxFrameEnd (n : Fin 96) (status : Fin 8) (x : LineEnd)
  /-- `LANE_PIN_EDGE` (R96): An accepted level change of a discrete pin with EDGE_EV pushes EDGE, TS_HI and TS_LO. -/
  | lanePinEdge (n : Fin 96) (ix : Fin 3) (x : PinChange)
  /-- `LANE_TX_DATA` (R87): A DATA transmit item at the head sends one character or byte. -/
  | laneTxData (n : Fin 96) (inp : Byte)
  /-- `LANE_TX_BRK` (R87): A BRK item sends a break of the given bit times. -/
  | laneTxBrk (n : Fin 96)
  /-- `LANE_TX_EOF` (R98): An EOF item appends the check value, ends the frame and releases DE, CS or the bus. -/
  | laneTxEof (n : Fin 96)
  /-- `LANE_TX_GAP` (R87): A GAP item holds the line idle for the given time. -/
  | laneTxGap (n : Fin 96)
  /-- `LANE_TX_DOUT` (R87): A DOUT item sets levels of the lane's discrete output pins. -/
  | laneTxDout (n : Fin 96)
  /-- `LANE_TX_I2C_START` (R87): An I2C_START item sends a START or repeated START with the address byte. -/
  | laneTxI2cStart (n : Fin 96)
  /-- `LANE_TX_I2C_READ` (R87): An I2C_READ item reads 1-255 bytes, not acknowledging the last. -/
  | laneTxI2cRead (n : Fin 96) (bs : List Byte)
  /-- `LANE_TX_SSI_READ` (R88): An SSI_READ item starts one SSI word read. -/
  | laneTxSsiRead (n : Fin 96)
  /-- `LANE_TX_UNDERRUN` (R91): A transmit pop returns the idle item inside a frame and the lane acts per mode. -/
  | laneTxUnderrun (n : Fin 96)
  /-- `LANE_DE_LEAD_END` (R100): DE_LEAD after DE assertion the first start bit is sent. -/
  | laneDeLeadEnd (n : Fin 96)
  /-- `LANE_DE_RELEASE` (R100): DE_TAIL after the last stop bit DE is released. -/
  | laneDeRelease (n : Fin 96)
  /-- `LANE_RX_HOLDOFF_END` (R100): RX_HOLDOFF after DE release the receiver listens again. -/
  | laneRxHoldoffEnd (n : Fin 96)
  /-- `I2C_STRETCH_TIMEOUT` (R81): SCL held low beyond STRETCH_MS makes the controller release the bus and end the frame with TIMEOUT. -/
  | i2cStretchTimeout (n : Fin 96)
  /-- `WM_CROSS_CLEAR` (R236): A write of CROSS_CLR clears a queue's WM_CROSS counter. -/
  | wmCrossClear (kind : Fin 8) (n : Byte)
  /-- `FRET_LOAD` (R122): Command that checks a program range and loads an engine with it. -/
  | fretLoad (src : CmdSrc) (tag : Byte) (e lo hi entry : Word)
  /-- `FRET_START` (R125): Command that starts every engine of a mask in one CLK_FRET cycle. -/
  | fretStart (src : CmdSrc) (tag : Byte) (k m : Word)
  /-- `FRET_STOP` (R121): Command that stops the named engines in the next CLK_FRET cycle. -/
  | fretStop (src : CmdSrc) (tag : Byte) (k m : Word)
  /-- `FRET_FLUSH` (R124): Command that empties a stopped engine's named queues. -/
  | fretFlush (src : CmdSrc) (tag : Byte) (e m : Word)
  /-- `HOLD` (R118): Fret instruction that does nothing for n + 1 cycles. -/
  | hold (e : Fin 32)
  /-- `JMP` (R118): Fret instruction that jumps when its condition holds, decrementing A or B when taken on those. -/
  | jmp (e : Fin 32) (levels : BitVec 36)
  /-- `WAITP` (R118): Fret instruction that waits until a pin reads a level, optionally after the opposite level. -/
  | waitp (e : Fin 32) (levels : BitVec 36)
  /-- `WAITF` (R118): Fret instruction that waits until a flag reads a level, optionally clearing it. -/
  | waitf (e : Fin 32)
  /-- `SHO` (R119): Fret instruction that shifts 1-8 bits out of TXS to output pins. -/
  | sho (e : Fin 32)
  /-- `SHI` (R119): Fret instruction that shifts 1-8 bits from input pins into RXS. -/
  | shi (e : Fin 32) (levels : BitVec 36)
  /-- `FETCH` (R119): Fret instruction that pops the transmit queue into TXS. -/
  | fetch (e : Fin 32)
  /-- `POST` (R119): Fret instruction that pushes RXS to the receive queue. -/
  | post (e : Fin 32)
  /-- `SETP` (R118): Fret instruction that sets levels or directions of the output pins. -/
  | setp (e : Fin 32)
  /-- `LDI` (R118): Fret instruction that loads an immediate into A or B. -/
  | ldi (e : Fin 32)
  /-- `MOV` (R118): Fret instruction that moves a source through an operation to a destination. -/
  | mov (e : Fin 32) (levels : BitVec 36)
  /-- `FLAG` (R107): Fret instruction that sets, clears or toggles a flag, optionally raising FLAG_EVT. -/
  | flag (e : Fin 32)
  /-- `HALT` (R118): Fret instruction that stops the engine with cause HALT. -/
  | halt (e : Fin 32)
  /-- `FRET_WAIT_MET` (R111): A stalled Fret instruction's condition is met and it completes with all its effects. -/
  | fretWaitMet (e : Fin 32) (levels : BitVec 36)
  /-- `FR_TXQ_PUSH` (R116): A host write pushes one item into a Fret transmit queue with PEER 1, or is refused. -/
  | frTxqPush (e : Fin 32) (x : Word)
  /-- `FR_RXQ_POP` (R116): A host read pops one item from a Fret receive queue with PEER 1, or returns the idle item. -/
  | frRxqPop (e : Fin 32)
  /-- `FRET_JOIN_WRITE` (R113): A write that changes JOIN empties both queues of the engine and returns their credits. -/
  | fretJoinWrite (e : Fin 32) (w : Word)
  /-- `FRET_PROG_WRITE` (R123): A program-store word write clears VALID of covering engines, or is ignored while one runs. -/
  | fretProgWrite (k : Fin 8) (ix : Fin 128) (w : Word)
  /-- `FLAG_HOST_SET` (R107): A host write of GFLAG_SET or TFLAG_SET sets flags after the engines' flag instructions of the cycle. -/
  | flagHostSet (k : Fin 9) (w : Word)
  /-- `FLAG_HOST_CLEAR` (R107): A host write of GFLAG_CLR or TFLAG_CLR clears flags after the engines' flag instructions of the cycle. -/
  | flagHostClear (k : Fin 9) (w : Word)
  /-- `CAN_START` (R131): Command that checks bit timing and takes a controller to SYNCING. -/
  | canStart (src : CmdSrc) (tag : Byte) (n : Word)
  /-- `CAN_STOP` (R134): Command that stops a controller, at once from BUS_OFF or RECOVERING, otherwise after the frame on the bus. -/
  | canStop (src : CmdSrc) (tag : Byte) (n : Word)
  /-- `CAN_FLUSH` (R135): Command that discards whole entries from the named queues. -/
  | canFlush (src : CmdSrc) (tag : Byte) (n mask : Word)
  /-- `CAN_RECOVER` (R135): Command that takes a BUS_OFF controller to RECOVERING. -/
  | canRecover (src : CmdSrc) (tag : Byte) (n : Word)
  /-- `CAN_BUS_INTEGRATED` (R133): 11 consecutive recessive bits take a SYNCING controller to ERROR_ACTIVE. -/
  | canBusIntegrated (n : Fin 16)
  /-- `CAN_RECOVERY_DONE` (R133): 128 occurrences of 11 recessive bits return a RECOVERING controller to ERROR_ACTIVE with TEC and REC 0. -/
  | canRecoveryDone (n : Fin 16)
  /-- `CAN_STOP_COMPLETE` (R134): The frame on the bus ends and a STOPPING controller becomes STOPPED. -/
  | canStopComplete (n : Fin 16)
  /-- `CAN_TX_START` (R143): At the start of arbitration the controller chooses the eligible entry to offer. -/
  | canTxStart (n : Fin 16)
  /-- `CAN_TX_ATTEMPT_END` (R138): A transmit attempt ends in success, error with retry, or abandonment with a completion. -/
  | canTxAttemptEnd (n : Fin 16) (how : CanEnd) (tdcv : Option Nat) (more : Nat)
  /-- `CAN_FRAME_RX` (R145): A frame received without error is judged by the filters and pushed, or lost without credit. -/
  | canFrameRx (n : Fin 16) (w0 w1 : Word) (data : List Byte) (x : CanIn)
  /-- `CAN_TXQ_PUSH` (R142): A host write pushes one word of a transmit entry, framed by position. -/
  | canTxqPush (n : Fin 16) (x : Word)
  /-- `CAN_TX_ENTRY_TIMEOUT` (R142): A host entry with no word pushed for 10 ms is discarded as malformed. -/
  | canTxEntryTimeout (n : Fin 16)
  /-- `CAN_RXQ_POP` (R146): A host read pops one word of a receive entry, or the idle item at an empty boundary. -/
  | canRxqPop (n : Fin 16)
  /-- `CTX_LOAD` (R163): Command that checks a program range and loads a stopped context. -/
  | ctxLoad (src : CmdSrc) (tag : Byte) (c lo hi entry : Word)
  /-- `CTX_START` (R164): Command that checks a context and its bindings and sets it IDLE. -/
  | ctxStart (src : CmdSrc) (tag : Byte) (c : Word)
  /-- `CTX_STOP` (R165): Command that parks a context at its next instruction boundary. -/
  | ctxStop (src : CmdSrc) (tag : Byte) (c : Word)
  /-- `CTX_STOP_APPLY` (R165): In a slot of context 254 at an instruction boundary, the named context becomes PARKED, abandoning its job. -/
  | ctxStopApply (c : Fin 252)
  /-- `CAL_SWAP` (R181): Command that checks the inactive calendar bank and makes a swap pending. -/
  | calSwap (src : CmdSrc) (tag : Byte)
  /-- `CAL_SWAP_APPLY` (R181): At the next slot 0 the checked bank becomes active. -/
  | calSwapApply
  /-- `STRUM_START` (R172): Command that starts edge production at the first k x base at least 10 µs later. -/
  | strumStart (src : CmdSrc) (tag : Byte)
  /-- `STRUM_STOP` (R172): Command that ends edge production at once. -/
  | strumStop (src : CmdSrc) (tag : Byte)
  /-- `CAR_PROG_WRITE` (R159): A program-store word write clears VALID of covering contexts, or is ignored while one is not stopped. -/
  | carProgWrite (ix : Half) (w : Word)
  /-- `CAR_CTX_DATA_WRITE` (R160): A host write to context data takes effect only while the context is PARKED or FAULTED. -/
  | carCtxDataWrite (c ix : Byte) (w : Word)
  /-- `CAL_BANK_WRITE` (R181): A write to a calendar bank is applied only to the inactive bank with no swap pending. -/
  | calBankWrite (bankB : Bool) (j : Fin 256) (w : Word)
  /-- `SCR_DATA_READ` (R162): A read of CAR_SCR_DATA completes when context 254 reads the scratch word in its slot. -/
  | scrDataRead
  /-- `SCR_DATA_WRITE` (R162): A write of CAR_SCR_DATA is performed by context 254 in its slot. -/
  | scrDataWrite (w : Word)
  /-- `ADD` (R190): rd := rs1 + rs2. -/
  | add (c : Byte)
  /-- `SUB` (R190): rd := rs1 - rs2; CMP with rd w0. -/
  | sub (c : Byte)
  /-- `ADC` (R190): rd := rs1 + rs2 + C. -/
  | adc (c : Byte)
  /-- `SBC` (R190): rd := rs1 - rs2 - (1 - C). -/
  | sbc (c : Byte)
  /-- `AND` (R190): Bitwise and. -/
  | and (c : Byte)
  /-- `OR` (R190): Bitwise or. -/
  | or (c : Byte)
  /-- `XOR` (R190): Bitwise exclusive or. -/
  | xor (c : Byte)
  /-- `SHL` (R190): Shift left by register or immediate. -/
  | shl (c : Byte)
  /-- `SHR` (R190): Shift right with zero fill. -/
  | shr (c : Byte)
  /-- `SAR` (R190): Shift right with sign fill. -/
  | sar (c : Byte)
  /-- `MULU` (R190): Unsigned 16 x 16 multiply. -/
  | mulu (c : Byte)
  /-- `MULS` (R190): Signed 16 x 16 multiply. -/
  | muls (c : Byte)
  /-- `CLZ` (R190): Count leading zeros. -/
  | clz (c : Byte)
  /-- `BFX` (R190): Bit-field extract, zero-extended. -/
  | bfx (c : Byte)
  /-- `BFXS` (R190): Bit-field extract, sign-extended. -/
  | bfxs (c : Byte)
  /-- `BFI` (R190): Bit-field insert. -/
  | bfi (c : Byte)
  /-- `ADDI` (R191): rd := rs1 + sext(imm). -/
  | addi (c : Byte)
  /-- `ANDI` (R191): And with zero-extended immediate. -/
  | andi (c : Byte)
  /-- `ORI` (R191): Or with zero-extended immediate. -/
  | ori (c : Byte)
  /-- `XORI` (R191): Exclusive or with zero-extended immediate. -/
  | xori (c : Byte)
  /-- `LUI` (R191): rd := imm << 16. -/
  | lui (c : Byte)
  /-- `CMPI` (R191): Set flags for rs1 - sext(imm). -/
  | cmpi (c : Byte)
  /-- `B` (R192): Branch to imm when the condition holds. -/
  | b (c : Byte)
  /-- `JAL` (R193): Link PC + 1 and jump to imm. -/
  | jal (c : Byte)
  /-- `JR` (R193): Link PC + 1 and jump to rs1, faulting PC_RANGE outside the range. -/
  | jr (c : Byte)
  /-- `LDL` (R194): Load from the context's own data. -/
  | ldl (c : Byte)
  /-- `STL` (R194): Store to the context's own data. -/
  | stl (c : Byte)
  /-- `LDS` (R194): Load from the shared address space, costing 2 slots. -/
  | lds (c : Byte)
  /-- `STS` (R194): Store to shared scratch. -/
  | sts (c : Byte)
  /-- `QPOP` (R197): Pop an item before the freeze mark of a receive handle, or the idle item. -/
  | qpop (c : Byte)
  /-- `QPEEK` (R197): Read the next item of a receive handle without removing it. -/
  | qpeek (c : Byte)
  /-- `QPUSH` (R198): Push an item into a transmit handle, or set C when there is no credit. -/
  | qpush (c : Byte)
  /-- `QCRED` (R197): Read a transmit handle's credit or items before a receive handle's mark. -/
  | qcred (c : Byte)
  /-- `PRD` (R199): Read a local record or frozen mirror entry, optionally copying it to context data. -/
  | prd (c : Byte)
  /-- `PWR` (R200): Stage a local write or remote WRITE of one point. -/
  | pwr (c : Byte)
  /-- `PSUB` (R201): Stage the opening of a subscription entry. -/
  | psub (c : Byte)
  /-- `FEMIT` (R202): Stage a publication or frame emission on a flow. -/
  | femit (c : Byte)
  /-- `CRCB` (R204): Feed one byte to a snoop unit attached to the context. -/
  | crcb (c : Byte)
  /-- `CRCW` (R204): Feed four bytes to a snoop unit attached to the context. -/
  | crcw (c : Byte)
  /-- `CRCR` (R204): Read a snoop unit's result, optionally initialising it. -/
  | crcr (c : Byte)
  /-- `TNOW` (R205): Read the 40-bit short time of a base into two registers. -/
  | tnow (c : Byte)
  /-- `TCMP` (R206): Compare now with a 40-bit target and set flags. -/
  | tcmp (c : Byte)
  /-- `WAITQ` (R209): Wait for an item beyond the mark or a credit, up to a limit. -/
  | waitq (c : Byte)
  /-- `WAITT` (R210): Wait until a time target is reached. -/
  | waitt (c : Byte)
  /-- `YIELD` (R211): Let n of the context's own slots pass without issue. -/
  | yield (c : Byte)
  /-- `WAIT_END` (R208): A WAITING context's condition or limit is met and it returns to RUNNING. -/
  | waitEnd (c : Fin 252)
  /-- `DONE` (R212): End the job and commit it under R175. -/
  | done (c : Byte)
  /-- `TRAP` (R212): Fault the context with cause 0x80 + code. -/
  | trap (c : Byte)
  /-- `SNOOP_ENABLE` (R219): A write that sets a snoop unit's EN checks its fields and initialises it, or is ignored. -/
  | snoopEnable (u : Fin 16) (w : Word)
  /-- `SNOOP_INIT` (R221): A host write of SNP_CMD.INIT latches the result into SNP_LAST and initialises the unit. -/
  | snoopInit (u : Fin 16)
  /-- `TM_QUEUE_ENABLE` (R241): A write that sets a traffic queue's EN checks its settings and clears its rate debt, or is ignored. -/
  | tmQueueEnable (q : Fin 256) (w : Word)
  /-- `POLICER_ENABLE` (R249): A write that sets a policer's EN fills its bucket to CBS. -/
  | policerEnable (ix : Fin 256) (w : Word)
  /-- `TM_Q_FLUSH` (R258): Command that discards every frame of a disabled traffic queue. -/
  | tmQFlush (src : CmdSrc) (tag : Byte) (q : Word)
  /-- `TM_POL_FILL` (R258): Command that sets a policer's tokens to CBS. -/
  | tmPolFill (src : CmdSrc) (tag : Byte) (ix : Word)
  /-- `PORT_FRAME_CHOICE` (R243): An output port able to begin a frame chooses a due launch-time head, or by class and WFQ. -/
  | portFrameChoice (p : Fin 7)
  /-- `WHEEL_SLOT` (R247): Reaching a timing-wheel slot makes its queues eligible. -/
  | wheelSlot (j : Fin 4096)
  /-- `LAUNCH_DUE` (R251): A launch-time head becomes due and its preamble begins. -/
  | launchDue (p : Fin 3)
  /-- `LAUNCH_WINDOW_EXPIRY` (R251): A launch-time copy that cannot cross by T + WINDOW is dropped as late. -/
  | launchWindowExpiry (p : Fin 3)
  /-- `MIDWAY_FRAME_IN` (R262): A frame entering Midway is buffered, looked up, policed and placed in VOQs or its queue. -/
  | midwayFrameIn (x : MidwayIn)
  /-- `CROSSBAR_MATCH` (R266): A scheduler round grants and accepts input-output matches by class and pointers. -/
  | crossbarMatch
  /-- `FENCE` (R279): Command that advances the named tables' generations and waits for old frames to leave. -/
  | fence (src : CmdSrc) (tag : Byte) (mask timeout : Word)
  /-- `FENCE_DONE` (R279): Every other generation of the named tables counts 0 and FENCE completes OK. -/
  | fenceDone
  /-- `FENCE_TIMEOUT` (R279): FENCE's timeout passes and it completes ETIMEOUT. -/
  | fenceTimeout
  /-- `MAC_FLUSH` (R283): Command that removes non-static MAC entries on the masked ports. -/
  | macFlush (src : CmdSrc) (tag : Byte) (mask : Word)
  /-- `MAC_AGE_OUT` (R272): A learned MAC entry not refreshed for AGE_S to 2 x AGE_S is removed. -/
  | macAgeOut (ix : Fin 4096)
  /-- `MAC_READ` (R287): GO with OP 1 reads the pair's entry into SWC_MAC_DATA. -/
  | macRead
  /-- `MAC_WRITE` (R287): GO with OP 2 updates the pair's entry or takes the lowest free way. -/
  | macWrite
  /-- `MAC_DELETE` (R287): GO with OP 3 clears the pair's VALID. -/
  | macDelete
  /-- `AUDIT_PASS_START` (R281): Every PERIOD_MS, or on request, the auditor starts a pass with a new epoch. -/
  | auditPassStart
  /-- `AUDIT_PASS_END` (R282): At the end of a pass miss counts are updated and cells missed twice are reclaimed. -/
  | auditPassEnd
  /-- `MAINT_LEAK_AUDIT_NOW` (R281): Command that starts an audit pass at once or after the one in progress. -/
  | maintLeakAuditNow (src : CmdSrc) (tag : Byte)
  /-- `RING_FRAME_RX` (R301): A frame received on an UP ring port is judged, taken, removed, delivered or forwarded. -/
  | ringFrameRx (p : Fin 2) (bs fcs : List Byte)
  /-- `PAUSE_FRAME_RX` (R289): A pause frame is honoured on P2 when resolved, or discarded on a ring port. -/
  | pauseFrameRx (p : Fin 3) (quanta : Half)
  /-- `LINK_LOCK` (R290): PCS lock and negotiation take a port from DOWN to LOCKED. -/
  | linkLock (p : Fin 4) (pause asm : Bool)
  /-- `LINK_LOSS` (R290): Loss of signal or lock, restarted negotiation or MODE 0 takes a port DOWN. -/
  | linkLoss (p : Fin 4)
  /-- `HELLO_TX` (R292): Every 1 ms the control core sends a HELLO on each LOCKED, UP or INCOMPAT ring port. -/
  | helloTx
  /-- `HELLO_RX` (R293): A received HELLO sets the link version and takes the link UP or INCOMPAT. -/
  | helloRx (p : Fin 2) (bs : List Byte)
  /-- `HELLO_TIMEOUT` (R290): No HELLO for 3 ms returns an UP or INCOMPAT link to LOCKED. -/
  | helloTimeout (p : Fin 2)
  /-- `RING_CHECK_TX` (R311): Every 1 ms the control core originates a RING_CHECK on both ring ports. -/
  | ringCheckTx
  /-- `RING_STATE_TIMEOUT` (R312): 3 ms without a returned check or without hearing a listed node changes the ring state. -/
  | ringStateTimeout
  /-- `HOLDOFF_END` (R305): SRC_AGE_MS + 1 ms after the first link UP with an address the node may originate. -/
  | holdoffEnd
  /-- `SOURCE_AGE_OUT` (R305): A source not heard for SRC_AGE_MS becomes unknown. -/
  | sourceAgeOut (n : Byte)
  /-- `DD_ENTRY_AGE_OUT` (R308): A discard-table entry older than DD_AGE_US leaves and counts in DD_SINGLE. -/
  | ddEntryAgeOut (p : Fin 2)
  /-- `PARADE_WAIT_EXPIRY` (R314): PARADE_WAIT_MS after the first link UP without a Parade or generation, the node launches a survey. -/
  | paradeWaitExpiry
  /-- `PARADE_SURVEY_RX` (R316): A received survey is compared by key, joined and passed on, turned, or taken by its launcher as returned. -/
  | paradeSurveyRx (p : Fin 2) (bs : List Byte)
  /-- `PARADE_ASSIGNMENT_RX` (R317): A node reads its entry of an assignment and takes its address, node table and generation. -/
  | paradeAssignmentRx (p : Fin 2) (bs : List Byte)
  /-- `LATE_REQ_RX` (R319): The leader receiving a LATE_REQ runs a Parade within 1 ms. -/
  | lateReqRx (p : Fin 2) (bs : List Byte)
  /-- `PARADE_TIMEOUT` (R320): A survey not returned within PARADE_TMO_MS is relaunched, and after three launches PARADE_FAIL is set. -/
  | paradeTimeout
  /-- `RING_PARADE` (R326): Command that launches a Parade at the leader or sends LATE_REQ elsewhere. -/
  | ringParade (src : CmdSrc) (tag : Byte)
  /-- `RING_PARADE_TIMEOUT` (R326): RING_PARADE without completion after four PARADE_TMO_MS completes ETIMEOUT. -/
  | ringParadeTimeout
  /-- `RING_LINK_RESTART` (R326): Command that takes a port DOWN and restarts negotiation and HELLO. -/
  | ringLinkRestart (src : CmdSrc) (tag : Byte) (p : Word)
  /-- `RING_ENABLE` (R327): A write that sets RING_CTL.EN is ignored when the versions are invalid. -/
  | ringEnable (w : Word)
  /-- `HSR_SUPERVISION_TX` (R323): Every 2 s the control core sends HSR supervision frames. -/
  | hsrSupervisionTx
  /-- `TIME_SET` (R353): Command that sets a base's time, judged as a step. -/
  | timeSet (src : CmdSrc) (tag : Byte) (base secLo secHi ns : Word)
  /-- `TIME_STEP` (R335): Command that steps a base by an offset, judged against JUMP_NS and the permit. -/
  | timeStep (src : CmdSrc) (tag : Byte) (base ofsLo ofsHi : Word)
  /-- `TIME_STEP_PERMIT` (R336): Command that arms or cancels a one-shot step permit. -/
  | timeStepPermit (src : CmdSrc) (tag : Byte) (base arm : Word)
  /-- `TIME_SLEW` (R334): Command that slews a base by an offset at a rate. -/
  | timeSlew (src : CmdSrc) (tag : Byte) (base ofs rate : Word)
  /-- `PERMIT_EXPIRY` (R336): A permit unused for 60 s is disarmed and PERMIT_EXPIRED set. -/
  | permitExpiry (b : Fin 3)
  /-- `SLEW_COMPLETE` (R334): A slew has worked off its offset and ends. -/
  | slewComplete (b : Fin 3)
  /-- `SERVO_INPUT` (R347): A Sync, IRIG-B frame or PPS edge gives the servo an offset that adjusts frequency or asks a step. -/
  | servoInput (b : Fin 3) (ix : ServoIn)
  /-- `SERVO_SOURCE_LOST` (R347): Announce timeout or 3 s without a PPS or IRIG input puts the servo in HOLDOVER. -/
  | servoSourceLost (b : Fin 3)
  /-- `SERVO_SRC_WRITE` (R347): A write of SRC starts or stops the servo, or is refused for a disallowed source. -/
  | servoSrcWrite (b : Fin 4) (w : Word)
  /-- `PTP_EVENT_TX` (R346): The control core sends a one-step PTP event message with the egress stamp written in. -/
  | ptpEventTx (p : Fin 3) (bs : List Byte) (reqAt : Nat)
  /-- `EVENT_PIN_EDGE` (R341): A filtered edge at an event or PPS input is stamped and pushed into the event FIFO. -/
  | eventPinEdge (ix : Fin 66) (level pulse : Bool) (ago : Nat)
  /-- `EVQ_POP` (R342): A host read pops one word of the event FIFO, or the idle item. -/
  | evqPop
  /-- `EVQ_FLUSH` (R356): A write of FLUSH empties the event FIFO and clears WM_CROSS. -/
  | evqFlush
  /-- `TIME_NOW_READ` (R355): A read of NOW_NS latches the seconds. -/
  | timeNowRead (b : Fin 4)
  /-- `PPO_ENABLE` (R351): A write that sets a pulse output's EN checks it and arms it, or marks a passed one-shot MISSED. -/
  | ppoEnable (k : Fin 16) (w : Word)
  /-- `PPO_FIRE` (R350): The base reaches a pulse output's target and the pulse begins. -/
  | ppoFire (k : Fin 16)
  /-- `PPO_PULSE_END` (R350): WIDTH_NS after its start the pulse ends and a periodic target advances. -/
  | ppoPulseEnd (k : Fin 16)
  /-- `PPSO_PULSE` (R352): At every whole second a 1PPS output drives a pulse of WIDTH_US. -/
  | ppsoPulse (j : Fin 2)
  /-- `HEARTBEAT_TX` (R361): Every 1 µs each twin hub sends a heartbeat on P3 and HBO. -/
  | heartbeatTx
  /-- `HEARTBEAT_RX` (R361): A valid heartbeat updates peer role, path liveness and revert, fail and take state. -/
  | heartbeatRx (rx : HbRx) (w : Word)
  /-- `HEARTBEAT_PATH_SILENT` (R362): A path silent for T_MISS_US sets DEGRADED; both silent declares the peer failed. -/
  | heartbeatPathSilent (serial : Bool)
  /-- `JOIN_TIMEOUT` (R358): No valid heartbeat within JOIN_MS makes a JOINING hub ACTIVE. -/
  | joinTimeout
  /-- `FATAL_HANDOVER` (R363): An ACTIVE hub with a fatal health bit stops acting and hands over to its STANDBY. -/
  | fatalHandover
  /-- `FATAL_RESET_DELAY` (R363): 1 ms after a fatal hand-over the hub makes a warm reset. -/
  | fatalResetDelay
  /-- `JOURNAL_FRAME_TX` (R366): A journal frame is sent when 1,024 bytes wait or 200 ns after its oldest record. -/
  | journalFrameTx
  /-- `JNL_EDGE` (R369): The standby applies an EDGE record as the freeze of the named groups. -/
  | jnlEdge (jseq : Half) (act : Word) (k : Dword) (groups : Byte) (t : BitVec 40) (own : OwnHealth) (complete : Bool)
  /-- `JNL_LANE_RX` (R369): The standby feeds journaled lane items into the bound queue. -/
  | jnlLaneRx (jseq : Half) (act : Word) (n : Fin 96) (count : Word) (items : List Word)
  /-- `JNL_FRET_RX` (R369): The standby feeds journaled Fret words into the bound queue. -/
  | jnlFretRx (jseq : Half) (act : Word) (e : Fin 32) (count : Word) (words : List Word)
  /-- `JNL_CAN_RX` (R369): The standby feeds a journaled CAN entry into the bound queue. -/
  | jnlCanRx (jseq : Half) (act : Word) (n : Fin 16) (count : Word) (entry : List Word)
  /-- `JNL_DSNAP` (R369): The standby fills the frozen snapshot words from a DSNAP record. -/
  | jnlDsnap (jseq : Half) (act : Word) (g : Fin 8) (ws : List Word)
  /-- `JNL_EVENT` (R343): The standby pushes a journaled event entry. -/
  | jnlEvent (jseq : Half) (act count w0 w1 : Word)
  /-- `JNL_RING_RX` (R370): The standby delivers the named frame from its store or from the record. -/
  | jnlRingRx (jseq : Half) (act : Word) (port src : Byte) (seq : Half) (fcs : Word) (frame : List Byte)
  /-- `JNL_RING_MISS` (R370): A named frame not found within 4 µs counts in RING_MISS. -/
  | jnlRingMiss
  /-- `JNL_HOST_CMD` (R369): The standby executes a journaled command without posting a response. -/
  | jnlHostCmd (jseq : Half) (act : Word) (q : Fin 4) (ws : List Word)
  /-- `JNL_TIMED` (R207): The standby records a timing-dependent instruction result for its job. -/
  | jnlTimed (jseq : Half) (act : Word) (c : Fin 252) (op : Byte) (value : BitVec 40)
  /-- `JNL_MARK` (R170): The standby moves a freeze mark as the record states. -/
  | jnlMark (jseq : Half) (act : Word) (c : Fin 252) (handle : Fin 16) (mark : Half)
  /-- `JNL_JOB` (R369): The standby commits, aborts or faults the job as the active's outcome says. -/
  | jnlJob (jseq : Half) (act : Word) (c : Fin 252) (outcome : BitVec 2) (cause : Byte)
  /-- `JNL_TX_DONE` (R371): The standby releases its copy of the originated frame with that SEQ. -/
  | jnlTxDone (jseq : Half) (act : Word) (seq : Half) (ports : Byte)
  /-- `JNL_TIME` (R372): The standby sets its time bases from a TIME record corrected by the P3 delay. -/
  | jnlTime (jseq : Half) (act : Word) (b : Fin 4) (sec : BitVec 48) (ns freq : Word) (servo : BitVec 3) (delay : Word)
  /-- `JNL_DIGEST` (R374): The standby compares its digest with the active's and updates DIGEST_RUN. -/
  | jnlDigest (jseq : Half) (act : Word) (g : Fin 8) (strum : Half) (crc : Word)
  /-- `JNL_SWITCH` (R382): The standby applying SWITCH sends TAKE, injects rewind items and runs the edge's jobs. -/
  | jnlSwitch (jseq : Half) (act : Word) (k : Dword)
  /-- `JNL_STATE` (R376): The standby writes a block of computed state during a transfer. -/
  | jnlState (jseq : Half) (act : Word) (b : StateBlk)
  /-- `SYNC_TIMEOUT` (R376): A state transfer not complete within SYNC_TMO_MS is abandoned and restarted. -/
  | syncTimeout
  /-- `REVERT_REQUEST` (R381): Conditions held for T_REVERT_S make a preferred STANDBY set REVERT_REQ. -/
  | revertRequest
  /-- `TWIN_RESYNC` (R387): Command that starts a state transfer to the STANDBY peer. -/
  | twinResync (src : CmdSrc) (tag : Byte)
  /-- `TWIN_REVERT_HOLD` (R387): Command that sets or clears REVERT_HOLD on both hubs. -/
  | twinRevertHold (src : CmdSrc) (tag : Byte) (hold : Word)
  /-- `SCRUB_PASS_END` (R384): The scrubber completes a pass over SECDED SRAM, correcting and counting errors. -/
  | scrubPassEnd (corr : Half) (bad : List (BitVec 20)) (other : Half)
  /-- `MAINT_SCRUB_NOW` (R384): Command that starts a scrub pass at once or after the pass in progress. -/
  | maintScrubNow (src : CmdSrc) (tag : Byte)
  /-- `LAG_CLEAR` (R388): A write of LAG_CLR clears LAG_MAX. -/
  | lagClear (w : Word)
  /-- `USB_VBUS_CHANGE` (R390): Upstream VBUS becoming invalid disconnects the pull-up and acts as a bus reset. -/
  | usbVbusChange (valid : Bool)
  /-- `USB_ATTACH` (R408): A write that sets ATTACH checks the endpoint table and connects the pull-up, or is refused. -/
  | usbAttach (w : Word)
  /-- `USB_BUS_RESET` (R413): An upstream bus reset resets the hub and function and powers off every port. -/
  | usbBusReset (high : Bool)
  /-- `USB_SUSPEND` (R399): 3 ms without upstream activity puts the hub in global suspend. -/
  | usbSuspend
  /-- `USB_WAKE_WINDOW_END` (R401): At the end of the wake decision window the hub drives K upstream and resumes its ports. -/
  | usbWakeWindowEnd
  /-- `USB_HOST_RESUME` (R402): Upstream K from the host resumes the hub and withdraws a pending function wake. -/
  | usbHostResume
  /-- `USB_PORT_CONNECT` (R392): A pull-up seen for the debounce time takes a port to DISABLED with a connection. -/
  | usbPortConnect (ix : Fin 7) (low : Bool)
  /-- `USB_PORT_DISCONNECT` (R392): A disconnect takes a port to DISCONNECTED. -/
  | usbPortDisconnect (ix : Fin 7)
  /-- `USB_PORT_RESET_END` (R393): The port reset time elapses and the port becomes ENABLED at its negotiated speed. -/
  | usbPortResetEnd (ix : Fin 8) (chirp : Bool)
  /-- `USB_PORT_BABBLE` (R392): Babble or loss of activity at EOF2 disables a port. -/
  | usbPortBabble (ix : Fin 8)
  /-- `USB_PORT_REMOTE_K` (R400): K from a device on a suspended port starts its resume. -/
  | usbPortRemoteK (ix : Fin 8)
  /-- `USB_PORT_RESUME_END` (R400): After 20 ms of K and an EOP the port returns to ENABLED. -/
  | usbPortResumeEnd (ix : Fin 8)
  /-- `GET_STATUS` (R404): Standard request returning device, interface or endpoint status. -/
  | getStatus (fn : Bool) (recip : Byte) (index : Half)
  /-- `CLEAR_FEATURE` (R404): Standard request clearing remote wake or an endpoint halt. -/
  | clearFeature (fn : Bool) (recip : Byte) (feature index : Half)
  /-- `SET_FEATURE` (R404): Standard request setting remote wake, an endpoint halt or a test mode. -/
  | setFeature (fn : Bool) (recip : Byte) (feature index : Half)
  /-- `SET_ADDRESS` (R404): Standard request setting the device address. -/
  | setAddress (fn : Bool) (a : Half)
  /-- `GET_DESCRIPTOR` (R406): Standard request returning a descriptor from the directory or the hub descriptor. -/
  | getDescriptor (fn : Bool) (typ idx : Byte) (len : Half)
  /-- `GET_CONFIGURATION` (R404): Standard request returning the configuration. -/
  | getConfiguration (fn : Bool)
  /-- `SET_CONFIGURATION` (R404): Standard request setting configuration 0 or 1. -/
  | setConfiguration (fn : Bool) (v : Byte)
  /-- `GET_INTERFACE` (R404): Standard request returning the alternate setting. -/
  | getInterface (fn : Bool) (index : Half)
  /-- `SET_INTERFACE` (R394): Standard request selecting the alternate setting and thus the translator arrangement. -/
  | setInterface (fn : Bool) (alt index : Half)
  /-- `UNSUPPORTED_REQUEST` (R404): A request not listed, or with values outside those given, is answered with STALL. -/
  | unsupportedRequest (fn : Bool)
  /-- `GET_HUB_STATUS` (R405): Hub-class request returning local power good and no over-current. -/
  | getHubStatus
  /-- `CLEAR_HUB_FEATURE` (R405): Hub-class request that clears hub change features with no effect. -/
  | clearHubFeature (feature : Half)
  /-- `GET_PORT_STATUS` (R405): Hub-class request returning wPortStatus and wPortChange. -/
  | getPortStatus (n : Byte)
  /-- `SET_PORT_POWER` (R396): SetPortFeature(PORT_POWER) switches the port's channel on. -/
  | setPortPower (n : Byte)
  /-- `SET_PORT_RESET` (R393): SetPortFeature(PORT_RESET) drives SE0 and runs the chirp handshake. -/
  | setPortReset (n : Byte)
  /-- `SET_PORT_SUSPEND` (R392): SetPortFeature(PORT_SUSPEND) selectively suspends the port. -/
  | setPortSuspend (n : Byte)
  /-- `SET_PORT_TEST` (R392): SetPortFeature(PORT_TEST) enters a USB 2.0 test mode. -/
  | setPortTest (n sel : Byte)
  /-- `CLEAR_PORT_ENABLE` (R392): ClearPortFeature(PORT_ENABLE) disables the port. -/
  | clearPortEnable (n : Byte)
  /-- `CLEAR_PORT_SUSPEND` (R400): ClearPortFeature(PORT_SUSPEND) resumes the port. -/
  | clearPortSuspend (n : Byte)
  /-- `CLEAR_PORT_POWER` (R392): ClearPortFeature(PORT_POWER) powers the port off. -/
  | clearPortPower (n : Byte)
  /-- `CLEAR_PORT_CHANGE` (R405): ClearPortFeature of a C_PORT feature clears that change bit. -/
  | clearPortChange (n : Byte) (bit : Fin 5)
  /-- `CLEAR_TT_BUFFER` (R394): Hub-class request emptying an endpoint's non-periodic translator buffer. -/
  | clearTtBuffer (n : Byte) (info : Half)
  /-- `RESET_TT` (R394): Hub-class request discarding every transaction of a port's translator. -/
  | resetTt (n : Byte)
  /-- `USB_CMD_OUT` (R410): An OUT transfer to a command endpoint passes each complete 32-byte command to its queue. -/
  | usbCmdOut (e : Fin 16) (bs : List Byte)
  /-- `USB_RSP_IN` (R410): An IN transaction on a response endpoint returns 32-byte responses in queue order. -/
  | usbRspIn (e : Fin 16)
  /-- `USB_NOTIFY_IN` (R409): An IN transaction on the notification endpoint returns an 8-byte report or NAK. -/
  | usbNotifyIn (e : Fin 16)
  /-- `USB_POINT_READ_REQ` (R409): An 8-byte point-read request on the OUT endpoint starts a read, or halts the IN endpoint if malformed. -/
  | usbPointReadReq (e : Fin 16) (bs : List Byte)
  /-- `USB_POINT_READ_IN` (R409): IN transactions return the requested records whole. -/
  | usbPointReadIn (e : Fin 16)
  /-- `NET_ON` (R437): Command that switches the masked channels on from OFF or a trip latch. -/
  | netOn (src : CmdSrc) (tag : Byte) (mask : Word)
  /-- `NET_OFF` (R437): Command that switches the masked channels off. -/
  | netOff (src : CmdSrc) (tag : Byte) (mask : Word)
  /-- `NET_CLEAR` (R437): Command that takes LATCHED channels to OFF. -/
  | netClear (src : CmdSrc) (tag : Byte) (mask : Word)
  /-- `NET_CARD_PRESENT` (R428): The present level held for 5 ms takes a REMOVED channel to WAIT_WINDOW. -/
  | netCardPresent (n : Fin 16)
  /-- `NET_CARD_ABSENT` (R428): The absent level held for 20 µs takes the channel to REMOVED. -/
  | netCardAbsent (n : Fin 16)
  /-- `NET_VS_WINDOW_CHANGE` (R419): VS held 50 µs across a window bound is accepted, starting insertion or pulling the gate down for UV or OV. -/
  | netVsWindowChange (n : Fin 16) (mv : Half)
  /-- `NET_INSERT_DELAY_END` (R420): INSERT_MS elapsed starts the ramp. -/
  | netInsertDelayEnd (n : Fin 16)
  /-- `NET_RAMP_DONE` (R420): The output within 0.5 V of VS takes RAMP to GATE_RISE and arms the curve. -/
  | netRampDone (n : Fin 16) (vout : Half)
  /-- `NET_GATE_RISE_DONE` (R420): VGS at 8 V with the output at VS takes the channel ON and releases power-good. -/
  | netGateRiseDone (n : Fin 16) (vout : Half) (vgs : Byte)
  /-- `NET_HARD_SHORT` (R424): The hard-short comparator fires and the gate is pulled down within 300 ns. -/
  | netHardShort (n : Fin 16) (mv : Half)
  /-- `NET_SOA_TRIP` (R422): The SOA timer reaching SOA x 10 µs trips with RAMP_SOA. -/
  | netSoaTrip (n : Fin 16) (us : Half)
  /-- `NET_RAMP_TIMEOUT` (R423): The ramp timer reaching RAMP_TMO_MS trips with RAMP_TIMEOUT. -/
  | netRampTimeout (n : Fin 16)
  /-- `NET_CURVE_TRIP` (R425): A trip-curve point's count exceeding its time trips with CURVE. -/
  | netCurveTrip (n : Fin 16) (codes : List (BitVec 10))
  /-- `NET_GRISE_TIMEOUT` (R430): The gate not reaching VS + 4 V within GRISE latches FET_FAULT. -/
  | netGriseTimeout (n : Fin 16) (vgs : Byte)
  /-- `NET_GATE_LOW_FAULT` (R430): The gate below VS + 4 V for 100 µs in ON latches FET_FAULT. -/
  | netGateLowFault (n : Fin 16) (vgs : Byte) (us : Half)
  /-- `NET_PG_LOSS` (R420): A GATE_RISE condition failing in ON drives power-good low until restored. -/
  | netPgLoss (n : Fin 16) (vout : Half) (vgs : Byte)
  /-- `NET_DS_SHORT` (R431): The output at or above half VS for DS_MS with the gate down latches DS_SHORT. -/
  | netDsShort (n : Fin 16) (vout ms : Half)
  /-- `NET_RETRY_WAIT_END` (R420): RETRY_MS elapsed returns the channel to WAIT_WINDOW and counts a retry. -/
  | netRetryWaitEnd (n : Fin 16)
  /-- `NET_RETRIES_RESET` (R427): 10 s of ON with power-good returns RETRIES to 0. -/
  | netRetriesReset (n : Fin 16)
  /-- `NET_LINK_SILENT` (R20): The logic die silent for 10 ms leaves the Net die running its channels alone. -/
  | netLinkSilent
  /-- `NET_CLOCK_STOP` (R20): CLK_NET stopping switches the Net die to its own oscillator. -/
  | netClockStop
  /-- `NET_VIN_LOCKOUT` (R434): VIN_NET below 4.0 V pulls every gate down and resets the Net die. -/
  | netVinLockout (mv : Half)
  /-- `MAINT_NET_GATE_TEST` (R436): Command that pulses an ON channel's gate down and checks VGS. -/
  | maintNetGateTest (src : CmdSrc) (tag : Byte) (ch width : Word)
  /-- `NET_GATE_TEST_RESULT` (R436): The gate test ends and its result is written to NET_N_TEST. -/
  | netGateTestResult (fall rise : Half)
  /-- `HQ_TAIL_WRITE` (R447): A write of HQ_CMD.TAIL adds commands, or is refused when it overruns. -/
  | hqTailWrite (q : Fin 4) (p : HostPath) (w : Word)
  /-- `HQ_HEAD_WRITE` (R447): A write of HQ_RSP.HEAD frees response slots, or is refused past TAIL. -/
  | hqHeadWrite (q : Fin 4) (p : HostPath) (w : Word)
  /-- `HQ_DISABLE` (R450): A write that clears a queue's EN discards its commands not yet accepted. -/
  | hqDisable (q : Fin 4) (w : Word)
  /-- `COMMAND_TAKE` (R448): The hub serves the next queue in turn and takes, checks and starts one command. -/
  | commandTake
  /-- `QSPI_READ` (R445): A quad-SPI read transfer returns wait bytes, the token and window data. -/
  | qspiRead (addr : Word) (n : Nat)
  /-- `QSPI_WRITE` (R444): A quad-SPI write transfer writes window data word by word. -/
  | qspiWrite (op : Byte) (addr : Word) (bs : List Byte)
  /-- `QSPI_STATUS` (R446): A quad-SPI status transfer returns the status byte and clears the error flag. -/
  | qspiStatus
  /-- `PCIE_PERST` (R504): PCIE_PERST_N low holds the endpoint in fundamental reset and takes its link down. -/
  | pciePerst (low : Bool)
  /-- `MSIX_VECTOR_UNMASK` (R459): Unmasking an asserted vector sends its MSI-X message. -/
  | msixVectorUnmask (v : Fin 32)
  /-- `NODE_HELLO` (R453): Command that negotiates the queue's interface version. -/
  | nodeHello (src : CmdSrc) (tag : Byte) (versions : Word)
  /-- `NODE_INFO` (R465): Command that returns identity, node state, twin state and health. -/
  | nodeInfo (src : CmdSrc) (tag : Byte)
  /-- `NODE_RESET` (R465): Command that posts its response and resets the hub 1 ms later. -/
  | nodeReset (src : CmdSrc) (tag : Byte) (kind : Word)
  /-- `NODE_RESET_FIRE` (R465): 1 ms after NODE_RESET the warm or cold reset is made. -/
  | nodeResetFire
  /-- `MAINT_RING_LOOP` (R464): Command that loops a port inside its PCS and sends test frames. -/
  | maintRingLoop (src : CmdSrc) (tag : Byte) (p ms : Word)
  /-- `RING_LOOP_TEST_TX` (R464): Every 1 µs of a loop a 64-byte test frame is sent and counted. -/
  | ringLoopTestTx (back : Option Bool)
  /-- `RING_LOOP_END` (R464): The loop's duration passes and the port is restarted. -/
  | ringLoopEnd
  /-- `MAINT_END` (R463): Command that ends a running ring loop. -/
  | maintEnd (src : CmdSrc) (tag : Byte)
  /-- `MAINT_TWIN_DRILL` (R463): Command that switches the active to its standby. -/
  | maintTwinDrill (src : CmdSrc) (tag : Byte)
  /-- `MAINT_FLASH_STAGE` (R491): Code 0x0C06 from a host queue or script is refused with EDENIED. -/
  | maintFlashStage (src : CmdSrc) (tag : Byte)
  /-- `DMA_TX_TAIL_WRITE` (R460): A write of DMA_TX_TAIL posts transmit descriptors, or is refused when it fills the ring. -/
  | dmaTxTailWrite (p : HostPath) (w : Word)
  /-- `DMA_RX_TAIL_WRITE` (R460): A write of DMA_RX_TAIL posts receive descriptors. -/
  | dmaRxTailWrite (p : HostPath) (w : Word)
  /-- `DMA_TX_DESCRIPTOR` (R461): The hub reads a transmit descriptor, waits for credit and places its frame. -/
  | dmaTxDescriptor (w2 w3 w4 : Word) (buf : List Byte)
  /-- `DMA_RX_FRAME` (R462): A frame of an OUT 4 queue is written to a posted receive descriptor. -/
  | dmaRxFrame (addr : Dword)
  /-- `POWER_FAIL` (R517): A monitored rail below its falling threshold holds the hub in cold reset. -/
  | powerFail
  /-- `RST_N_LOW` (R472): RST_N low for at least 1 µs makes a cold reset. -/
  | rstNLow
  /-- `WATCHDOG_EXPIRY` (R472): 500 ms without a supervisor kick makes a warm reset. -/
  | watchdogExpiry
  /-- `COLD_RESET_END` (R484): The end of a cold reset samples straps and runs the boot steps. -/
  | coldResetEnd (straps : Half)
  /-- `WARM_RESET` (R473): A warm reset resets registers and engines, keeping clocks, time bases and Net channels, and runs the boot. -/
  | warmReset
  /-- `SCRIPT_WRITE` (R480): A WRITE record writes words to consecutive W0 addresses. -/
  | scriptWrite
  /-- `SCRIPT_COMMAND` (R486): A COMMAND record issues a command; a non-OK status stops the script. -/
  | scriptCommand
  /-- `SCRIPT_WAIT` (R480): A WAIT record waits N µs. -/
  | scriptWait
  /-- `SCRIPT_END` (R480): An END record ends the section; after the last, READY is set. -/
  | scriptEnd
  /-- `WD_RUN_CLEAR` (R482): 10 s of READY without a watchdog reset returns WD_RUN to 0. -/
  | wdRunClear
  /-- `REFCLK_LOST` (R468): A lost REFCLK moves the root PLL to a locked ring port's clock or into holdover. -/
  | refclkLost (edges : Bool) (ppm : Half)
  /-- `REFCLK_RETURN` (R470): REFCLK healthy for RETURN_S with AUTO_RETURN returns the PLL to it. -/
  | refclkReturn (ms : Word)
  /-- `RETURN_NOW` (R470): A write of RETURN_NOW returns the PLL to a healthy REFCLK, or is refused. -/
  | returnNow (w : Word)
  /-- `PLL_UNLOCK` (R471): The root PLL losing lock holds the logic die in warm reset. -/
  | pllUnlock
  /-- `PLL_RELOCK_END` (R471): The PLL locked for 1 ms releases the warm reset. -/
  | pllRelockEnd
  /-- `SVC_HELLO` (R490): Service request returning protocol version, identity, boot state and slot sequences. -/
  | svcHello (seq : Byte)
  /-- `SVC_BAUD` (R490): Service request changing the service rate after its response. -/
  | svcBaud (seq : Byte) (div : Word)
  /-- `SVC_READ` (R490): Service request returning flash bytes. -/
  | svcRead (seq : Byte) (addr : Word) (len : Half)
  /-- `SVC_STAGE_OPEN` (R491): Service request opening a staging session and erasing the slot's first sector. -/
  | svcStageOpen (seq : Byte) (wp : Bool) (sel : Byte) (len : Word)
  /-- `SVC_STAGE_WRITE` (R492): Service request writing and reading back one image block. -/
  | svcStageWrite (seq : Byte) (wp : Bool) (off : Word) (bs : List Byte) (out : FlashEnd)
  /-- `SVC_STAGE_CLOSE` (R493): Service request programming the manifest, reading the image back and ending the session. -/
  | svcStageClose (seq : Byte) (wp : Bool)
  /-- `SVC_STAGE_ABORT` (R494): Service request ending the session without a valid manifest. -/
  | svcStageAbort (seq : Byte)
  /-- `SVC_IDENT_WRITE` (R490): Service request writing the identity sector. -/
  | svcIdentWrite (seq : Byte) (wp : Bool) (bs : List Byte)
  /-- `SVC_FUSE_KEY` (R483): Service request programming the key-hash fuses once. -/
  | svcFuseKey (seq : Byte) (wp : Bool) (key : List Byte)
  /-- `SVC_STATUS` (R490): Service request returning reset cause, clock status and health word. -/
  | svcStatus (seq : Byte)
  /-- `SVC_RESET` (R490): Service request that answers and resets the hub 1 ms later. -/
  | svcReset (seq kind : Byte)
  /-- `SVC_RESET_FIRE` (R490): 1 ms after SVC_RESET the reset is made. -/
  | svcResetFire
  /-- `SVC_BAD_FRAME` (R490): A frame with bad CRC or LEN is discarded and the hub hunts for sync. -/
  | svcBadFrame (bs : List Byte)
  /-- `SVC_FRAME_TIMEOUT` (R490): Bytes stopping for 100 ms inside a frame discard it. -/
  | svcFrameTimeout
  /-- `SVC_BAUD_REVERT` (R490): 5 s without a good frame returns DIV to 2,604. -/
  | svcBaudRevert
  /-- `SVC_WP_DEASSERT` (R494): SVC_WP deasserted ends an open staging session. -/
  | svcWpDeassert
  /-- `STAGE_IDLE_TIMEOUT` (R494): 60 s without a staging request ends the session. -/
  | stageIdleTimeout
  /-- `CAN_RX_BUS_ERROR` (R137): An error detected on the bus while the controller receives raises REC, sets BUS_ERR and can move it to ERROR_PASSIVE. -/
  | canRxBusError (n : Fin 16) (crc dominant : Bool) (more : Nat)
  /-- `LANE_CTS_CHANGE` (R93): Pin C as CTS going low lets a waiting UART transmitter start its next character. -/
  | laneCtsChange (n : Fin 96) (level : Bool)
  /-- `LANE_TX_UNDERRUN_CLOSE` (R91): EOF_IDLE after a transmit underrun with no new item the UART or RS-485 frame is closed without a check value and DE released after DE_TAIL. -/
  | laneTxUnderrunClose (n : Fin 96)
  /-- `LANE_IRIG_OUT_FRAME` (R82): A lane in IRIG_OUT produces each second's DCLS B00x frame from its time base. -/
  | laneIrigOutFrame (n : Fin 96)
  /-- `PTP_ANNOUNCE_RX` (R347): A received Announce feeds the BMCA, which may select a new grandmaster and return the servo to ACQUIRING. -/
  | ptpAnnounceRx (b : Fin 2) (gm : Dword)
  /-- `PTP_PDELAY_RX` (R346): A received Pdelay message is answered or used to measure the peer delay written into LINK_DELAY. -/
  | ptpPdelayRx (p : Fin 3) (bs : List Byte)
  /-- `TAKE_TRANSMITTER_LIMIT` (R383): A transmitter mid-frame at TAKE hands its driver over after at most 10 ms. -/
  | takeTransmitterLimit
  /-- `NET_VIN_RESTORED` (R434): VIN_NET rising past its lock-out threshold ends the Net die's reset with every channel OFF. -/
  | netVinRestored (mv : Half)
  /-- `NET_CLOCK_RESTORED` (R530): CLK_NET returning moves the Net die off its own oscillator so Net times regain REFCLK accuracy. -/
  | netClockRestored
  /-- `PCIE_LINK_UP` (R442): The PCIe link completes training and PCIE_UP, PCIE_GEN and PCIE_WIDTH show it. -/
  | pcieLinkUp (gen2 x2 : Bool)
  deriving DecidableEq, Repr

end Sys2Proof
end

