-- ==== Sys2Proof/Decode.lean ====
section
/-! DEFINITION. Reading a command from a word: no row of the opcode table gives bits, since commands reach the hub as pin events, register
accesses, command-queue entries and frames, whose own decoding is part of the meanings (R444, R449, R490). -/

namespace Sys2Proof

/-- The command that a word of the opcode table spells: none, since no row of the table gives bits. -/
def decodeTableWord (_nbits _w : Nat) : Option Instr := none

end Sys2Proof
end

