-- ==== Sys2Proof/Config.lean ====
section
/-! DEFINITION. What the specification leaves open: constants without a body, so that nothing in Lean can evaluate them.
Each is applied to the state's counter of free values, or to the operands it depends on. -/

namespace Sys2Proof.Config

/-- A value the specification leaves open, one for each reading of the state's counter `freeCtr` (log entry 4). -/
opaque freeWord : Nat → Word

/-- Bytes of the flash beyond the 256 Mbit that R476 demands of it. -/
opaque flashExtra : Nat

end Sys2Proof.Config
end

