-- ==== Sys2Proof/Machine/Reg.lean ====
section
/-! DEFINITION. The W0 register map, one definition per register word and per field, taken from the register tables
of the chapters (each word cites its file and rule). -/

namespace Sys2Proof.Machine.Reg

/-- 16_host_and_commands.md R466. -/
def HOST_STAT : Nat := 0x4004
/-- 16_host_and_commands.md R535. -/
def HOST_EVT : Nat := 0x4010
/-- 16_host_and_commands.md R535. -/
def HOST_EVT_EN : Nat := 0x4014
/-- 16_host_and_commands.md R535. -/
def HOST_IRQ_MAP (i : Nat) : Nat := 0x4300 + 0x4 * i
/-- 16_host_and_commands.md R535. -/
def HQ_CFG (i : Nat) : Nat := 0x4080 + 0x10 * i
/-- 16_host_and_commands.md R535. -/
def HQ_CMD (i : Nat) : Nat := 0x4084 + 0x10 * i
/-- 16_host_and_commands.md R535. -/
def HQ_RSP (i : Nat) : Nat := 0x4088 + 0x10 * i
/-- 16_host_and_commands.md R535. -/
def HQ_INPROG (i : Nat) : Nat := 0x408C + 0x10 * i
/-- 16_host_and_commands.md R535. -/
def HOST_CNT_CMD : Nat := 0x40C0
/-- 16_host_and_commands.md R535. -/
def HOST_CNT_REFUSED : Nat := 0x40C4
/-- 16_host_and_commands.md R535. -/
def HOST_CNT_CREDIT_OVERRUN : Nat := 0x40C8
/-- 16_host_and_commands.md R535. -/
def HOST_CNT_BAD_ACCESS : Nat := 0x40CC
/-- 16_host_and_commands.md R535. -/
def HOST_CNT_DMA_TX : Nat := 0x40D0
/-- 16_host_and_commands.md R535. -/
def HOST_CNT_DMA_RX : Nat := 0x40D4
/-- 16_host_and_commands.md R535. -/
def HOST_CNT_DMA_DROP : Nat := 0x40D8
/-- 16_host_and_commands.md R535. -/
def HOST_RLOG_IDX : Nat := 0x40F0
/-- 16_host_and_commands.md R535. -/
def HOST_RLOG_RWORD0 (i : Nat) : Nat := 0x4100 + 0x10 * i
/-- 16_host_and_commands.md R535. -/
def HOST_RLOG_RWORD1 (i : Nat) : Nat := 0x4104 + 0x10 * i
/-- 16_host_and_commands.md R535. -/
def HOST_RLOG_RWHERE (i : Nat) : Nat := 0x4108 + 0x10 * i
/-- 16_host_and_commands.md R535. -/
def HOST_RLOG_EDGE_K (i : Nat) : Nat := 0x410C + 0x10 * i
/-- 16_host_and_commands.md R535. -/
def DMA_TX_BASE_LO : Nat := 0x4200
/-- 16_host_and_commands.md R535. -/
def DMA_RX_BASE_LO : Nat := 0x4220
/-- 16_host_and_commands.md R535. -/
def DMA_TX_BASE_HI : Nat := 0x4204
/-- 16_host_and_commands.md R535. -/
def DMA_RX_BASE_HI : Nat := 0x4224
/-- 16_host_and_commands.md R535. -/
def DMA_TX_SIZE : Nat := 0x4208
/-- 16_host_and_commands.md R535. -/
def DMA_RX_SIZE : Nat := 0x4228
/-- 16_host_and_commands.md R535. -/
def DMA_TX_TAIL : Nat := 0x420C
/-- 16_host_and_commands.md R535. -/
def DMA_RX_TAIL : Nat := 0x422C
/-- 16_host_and_commands.md R535. -/
def DMA_TX_HEAD : Nat := 0x4210
/-- 16_host_and_commands.md R535. -/
def DMA_RX_HEAD : Nat := 0x4230
/-- 16_host_and_commands.md R535. -/
def DMA_CTL : Nat := 0x4240
/-- 16_host_and_commands.md R447. -/
def HQ_CMD_SLOT (i : Nat) (j : Nat) : Nat := 0x5000 + 0x400 * i + 0x4 * j
/-- 16_host_and_commands.md R447. -/
def HQ_RSP_SLOT (i : Nat) (j : Nat) : Nat := 0x5200 + 0x400 * i + 0x4 * j
/-- 16_host_and_commands.md R442. -/
def MSIX_TABLE (i : Nat) : Nat := 0x6000 + 0x4 * i
/-- 16_host_and_commands.md R442. -/
def MSIX_PBA : Nat := 0x6200
/-- 02_points.md R69. -/
def PTM_CTL : Nat := 0x70000
/-- 02_points.md R69. -/
def PTM_STAT : Nat := 0x70004
/-- 02_points.md R69. -/
def PTM_TXN_CFG : Nat := 0x70008
/-- 02_points.md R69. -/
def PTM_EVT : Nat := 0x70010
/-- 02_points.md R69. -/
def PTM_EVT_EN : Nat := 0x70014
/-- 02_points.md R69. -/
def PTM_CNT_COMMIT : Nat := 0x70040
/-- 02_points.md R69. -/
def PTM_CNT_BUNDLE_RX : Nat := 0x70044
/-- 02_points.md R69. -/
def PTM_CNT_UNMATCHED : Nat := 0x70048
/-- 02_points.md R69. -/
def PTM_CNT_BAD_BUNDLE : Nat := 0x7004C
/-- 02_points.md R69. -/
def PTM_CNT_STALE : Nat := 0x70050
/-- 02_points.md R69. -/
def PTM_CNT_LATE_DROP : Nat := 0x70054
/-- 02_points.md R69. -/
def PTM_CNT_WR_DENIED : Nat := 0x70058
/-- 02_points.md R69. -/
def PTM_CNT_TXN_RETRY : Nat := 0x7005C
/-- 02_points.md R69. -/
def PTM_CNT_TXN_TIMEOUT : Nat := 0x70060
/-- 02_points.md R69. -/
def PTM_CNT_TXN_NORES : Nat := 0x70064
/-- 02_points.md R69. -/
def PTM_CNT_STRAY_RSP : Nat := 0x70068
/-- 02_points.md R69. -/
def PTM_TAG0 (i : Nat) : Nat := 0x71000 + 0x8 * i
/-- 02_points.md R69. -/
def PTM_TAG1 (i : Nat) : Nat := 0x71004 + 0x8 * i
/-- 02_points.md R55. -/
def PTM_SUB0 (i : Nat) : Nat := 0x78000 + 0x8 * i
/-- 02_points.md R55. -/
def PTM_SUB1 (i : Nat) : Nat := 0x78004 + 0x8 * i
/-- 03_lanes.md R102. -/
def LN_MODE (i : Nat) : Nat := 0x40000 + 0x100 * i
/-- 03_lanes.md R102. -/
def LN_STAT (i : Nat) : Nat := 0x40004 + 0x100 * i
/-- 03_lanes.md R102. -/
def LN_BAUD (i : Nat) : Nat := 0x40008 + 0x100 * i
/-- 03_lanes.md R102. -/
def LN_MCFG (i : Nat) : Nat := 0x4000C + 0x100 * i
/-- 03_lanes.md R102. -/
def LN_MCFG2 (i : Nat) : Nat := 0x40010 + 0x100 * i
/-- 03_lanes.md R102. -/
def LN_EOFI (i : Nat) : Nat := 0x40014 + 0x100 * i
/-- 03_lanes.md R102. -/
def LN_TIMERS (i : Nat) : Nat := 0x40018 + 0x100 * i
/-- 03_lanes.md R102. -/
def LN_RXHOLD (i : Nat) : Nat := 0x4001C + 0x100 * i
/-- 03_lanes.md R102. -/
def LN_CRC (i : Nat) : Nat := 0x40020 + 0x100 * i
/-- 03_lanes.md R102. -/
def LN_TS (i : Nat) : Nat := 0x40024 + 0x100 * i
/-- 03_lanes.md R102. -/
def LN_FILT (i : Nat) : Nat := 0x40028 + 0x100 * i
/-- 03_lanes.md R102. -/
def LN_PINCFG (i : Nat) : Nat := 0x4002C + 0x100 * i
/-- 03_lanes.md R102. -/
def LN_DOUT (i : Nat) : Nat := 0x40030 + 0x100 * i
/-- 03_lanes.md R102. -/
def LN_DIN (i : Nat) : Nat := 0x40034 + 0x100 * i
/-- 03_lanes.md R102. -/
def LN_RXQ_CFG (i : Nat) : Nat := 0x40038 + 0x100 * i
/-- 03_lanes.md R102. -/
def LN_RXQ_STAT (i : Nat) : Nat := 0x4003C + 0x100 * i
/-- 03_lanes.md R102. -/
def LN_RXQ_IDLE (i : Nat) : Nat := 0x40040 + 0x100 * i
/-- 03_lanes.md R102. -/
def LN_TXQ_CFG (i : Nat) : Nat := 0x40044 + 0x100 * i
/-- 03_lanes.md R102. -/
def LN_TXQ_STAT (i : Nat) : Nat := 0x40048 + 0x100 * i
/-- 03_lanes.md R102. -/
def LN_TXQ_IDLE (i : Nat) : Nat := 0x4004C + 0x100 * i
/-- 03_lanes.md R102. -/
def LN_EVT (i : Nat) : Nat := 0x40050 + 0x100 * i
/-- 03_lanes.md R102. -/
def LN_EVT_EN (i : Nat) : Nat := 0x40054 + 0x100 * i
/-- 03_lanes.md R102. -/
def LN_CNT_RX_FRAMES (i : Nat) : Nat := 0x40060 + 0x100 * i
/-- 03_lanes.md R102. -/
def LN_CNT_TX_FRAMES (i : Nat) : Nat := 0x40064 + 0x100 * i
/-- 03_lanes.md R102. -/
def LN_CNT_CRC_BAD (i : Nat) : Nat := 0x40068 + 0x100 * i
/-- 03_lanes.md R102. -/
def LN_CNT_RX_OVERRUN (i : Nat) : Nat := 0x4006C + 0x100 * i
/-- 03_lanes.md R102. -/
def LN_CNT_RX_ERR (i : Nat) : Nat := 0x40070 + 0x100 * i
/-- 03_lanes.md R102. -/
def LN_CNT_TX_UNDERRUN (i : Nat) : Nat := 0x40074 + 0x100 * i
/-- 03_lanes.md R102. -/
def LN_CNT_RX_WHILE_TX (i : Nat) : Nat := 0x40078 + 0x100 * i
/-- 03_lanes.md R102. -/
def LN_CNT_TX_BADITEM (i : Nat) : Nat := 0x4007C + 0x100 * i
/-- 03_lanes.md R102. -/
def LANE_BANK (i : Nat) : Nat := 0x46000 + 0x4 * i
/-- 03_lanes.md R102. -/
def LANE_DSNAP_LO (i : Nat) (j : Nat) : Nat := 0x46100 + 0x40 * i + 0x8 * j
/-- 03_lanes.md R102. -/
def LANE_DSNAP_HI (i : Nat) (j : Nat) : Nat := 0x46104 + 0x40 * i + 0x8 * j
/-- 03_lanes.md R102. -/
def LANE_EVT : Nat := 0x46300
/-- 03_lanes.md R102. -/
def LANE_EVT_EN : Nat := 0x46304
/-- 03_lanes.md R102. -/
def LANE_PEND (i : Nat) : Nat := 0x46310 + 0x4 * i
/-- 04_fret_engines.md R126. -/
def FR_CTL (i : Nat) : Nat := 0x48000 + 0x80 * i
/-- 04_fret_engines.md R126. -/
def FR_STAT (i : Nat) : Nat := 0x48004 + 0x80 * i
/-- 04_fret_engines.md R126. -/
def FR_DIV (i : Nat) : Nat := 0x48008 + 0x80 * i
/-- 04_fret_engines.md R126. -/
def FR_PINS (i : Nat) : Nat := 0x4800C + 0x80 * i
/-- 04_fret_engines.md R126. -/
def FR_PROG (i : Nat) : Nat := 0x48010 + 0x80 * i
/-- 04_fret_engines.md R126. -/
def FR_TXS (i : Nat) : Nat := 0x48014 + 0x80 * i
/-- 04_fret_engines.md R126. -/
def FR_RXS (i : Nat) : Nat := 0x48018 + 0x80 * i
/-- 04_fret_engines.md R126. -/
def FR_CNTS (i : Nat) : Nat := 0x4801C + 0x80 * i
/-- 04_fret_engines.md R126. -/
def FR_A (i : Nat) : Nat := 0x48020 + 0x80 * i
/-- 04_fret_engines.md R126. -/
def FR_B (i : Nat) : Nat := 0x48024 + 0x80 * i
/-- 04_fret_engines.md R126. -/
def FR_TXQ_CFG (i : Nat) : Nat := 0x48030 + 0x80 * i
/-- 04_fret_engines.md R126. -/
def FR_TXQ_STAT (i : Nat) : Nat := 0x48034 + 0x80 * i
/-- 04_fret_engines.md R126. -/
def FR_RXQ_CFG (i : Nat) : Nat := 0x48040 + 0x80 * i
/-- 04_fret_engines.md R126. -/
def FR_RXQ_STAT (i : Nat) : Nat := 0x48044 + 0x80 * i
/-- 04_fret_engines.md R126. -/
def FR_TXQ_IDLE (i : Nat) : Nat := 0x48038 + 0x80 * i
/-- 04_fret_engines.md R126. -/
def FR_TXQ_PUSH (i : Nat) : Nat := 0x4803C + 0x80 * i
/-- 04_fret_engines.md R126. -/
def FR_RXQ_IDLE (i : Nat) : Nat := 0x48048 + 0x80 * i
/-- 04_fret_engines.md R126. -/
def FR_RXQ_POP (i : Nat) : Nat := 0x4804C + 0x80 * i
/-- 04_fret_engines.md R126. -/
def FR_EVT (i : Nat) : Nat := 0x48050 + 0x80 * i
/-- 04_fret_engines.md R126. -/
def FR_EVT_EN (i : Nat) : Nat := 0x48054 + 0x80 * i
/-- 04_fret_engines.md R126. -/
def FR_CNT_TX_WORDS (i : Nat) : Nat := 0x48060 + 0x80 * i
/-- 04_fret_engines.md R126. -/
def FR_CNT_RX_WORDS (i : Nat) : Nat := 0x48064 + 0x80 * i
/-- 04_fret_engines.md R126. -/
def FR_CNT_RX_LOST (i : Nat) : Nat := 0x48068 + 0x80 * i
/-- 04_fret_engines.md R126. -/
def FR_CNT_PIN_CLASH (i : Nat) : Nat := 0x4806C + 0x80 * i
/-- 04_fret_engines.md R126. -/
def FR_CNT_IDLE_FETCH (i : Nat) : Nat := 0x48070 + 0x80 * i
/-- 04_fret_engines.md R127. -/
def FRET_EVT : Nat := 0x49000
/-- 04_fret_engines.md R127. -/
def FRET_EVT_EN : Nat := 0x49004
/-- 04_fret_engines.md R127. -/
def FRET_PEND : Nat := 0x49010
/-- 04_fret_engines.md R127. -/
def FRET_GFLAG : Nat := 0x49020
/-- 04_fret_engines.md R127. -/
def FRET_GFLAG_SET : Nat := 0x49024
/-- 04_fret_engines.md R127. -/
def FRET_GFLAG_CLR : Nat := 0x49028
/-- 04_fret_engines.md R127. -/
def FRET_INSTR (i : Nat) (j : Nat) : Nat := 0x4A000 + 0x400 * i + 0x4 * j
/-- 04_fret_engines.md R127. -/
def FRET_TFLAG (i : Nat) : Nat := 0x4A200 + 0x400 * i
/-- 04_fret_engines.md R127. -/
def FRET_TFLAG_SET (i : Nat) : Nat := 0x4A204 + 0x400 * i
/-- 04_fret_engines.md R127. -/
def FRET_TFLAG_CLR (i : Nat) : Nat := 0x4A208 + 0x400 * i
/-- 05_can_fd.md R152. -/
def CAN_CTL (i : Nat) : Nat := 0x50000 + 0x400 * i
/-- 05_can_fd.md R152. -/
def CAN_STAT (i : Nat) : Nat := 0x50004 + 0x400 * i
/-- 05_can_fd.md R152. -/
def CAN_NBT (i : Nat) : Nat := 0x50008 + 0x400 * i
/-- 05_can_fd.md R152. -/
def CAN_DBT (i : Nat) : Nat := 0x5000C + 0x400 * i
/-- 05_can_fd.md R152. -/
def CAN_TDC (i : Nat) : Nat := 0x50010 + 0x400 * i
/-- 05_can_fd.md R152. -/
def CAN_TS (i : Nat) : Nat := 0x50014 + 0x400 * i
/-- 05_can_fd.md R152. -/
def CAN_TXQ_CFG (i : Nat) : Nat := 0x50020 + 0x400 * i
/-- 05_can_fd.md R152. -/
def CAN_TXQ_STAT (i : Nat) : Nat := 0x50024 + 0x400 * i
/-- 05_can_fd.md R152. -/
def CAN_RXQ_CFG (i : Nat) : Nat := 0x50030 + 0x400 * i
/-- 05_can_fd.md R152. -/
def CAN_RXQ_STAT (i : Nat) : Nat := 0x50034 + 0x400 * i
/-- 05_can_fd.md R152. -/
def CAN_TXQ_IDLE (i : Nat) : Nat := 0x50028 + 0x400 * i
/-- 05_can_fd.md R152. -/
def CAN_TXQ_PUSH (i : Nat) : Nat := 0x5002C + 0x400 * i
/-- 05_can_fd.md R152. -/
def CAN_RXQ_IDLE (i : Nat) : Nat := 0x50038 + 0x400 * i
/-- 05_can_fd.md R152. -/
def CAN_RXQ_POP (i : Nat) : Nat := 0x5003C + 0x400 * i
/-- 05_can_fd.md R152. -/
def CAN_EVT (i : Nat) : Nat := 0x50040 + 0x400 * i
/-- 05_can_fd.md R152. -/
def CAN_EVT_EN (i : Nat) : Nat := 0x50044 + 0x400 * i
/-- 05_can_fd.md R152. -/
def CAN_CNT_TX_OK (i : Nat) : Nat := 0x50050 + 0x400 * i
/-- 05_can_fd.md R152. -/
def CAN_CNT_RX_OK (i : Nat) : Nat := 0x50054 + 0x400 * i
/-- 05_can_fd.md R152. -/
def CAN_CNT_RX_LOST (i : Nat) : Nat := 0x50058 + 0x400 * i
/-- 05_can_fd.md R152. -/
def CAN_CNT_RX_REJECTED (i : Nat) : Nat := 0x5005C + 0x400 * i
/-- 05_can_fd.md R152. -/
def CAN_CNT_TX_ABANDONED (i : Nat) : Nat := 0x50060 + 0x400 * i
/-- 05_can_fd.md R152. -/
def CAN_CNT_BUS_OFF (i : Nat) : Nat := 0x50064 + 0x400 * i
/-- 05_can_fd.md R152. -/
def CAN_CNT_ERR_ACK (i : Nat) : Nat := 0x50068 + 0x400 * i
/-- 05_can_fd.md R152. -/
def CAN_CNT_ERR_CRC (i : Nat) : Nat := 0x5006C + 0x400 * i
/-- 05_can_fd.md R152. -/
def CAN_CNT_ERR_OTHER (i : Nat) : Nat := 0x50070 + 0x400 * i
/-- 05_can_fd.md R152. -/
def CAN_FLT0 (i : Nat) (j : Nat) : Nat := 0x50100 + 0x400 * i + 0x8 * j
/-- 05_can_fd.md R152. -/
def CAN_FLT1 (i : Nat) (j : Nat) : Nat := 0x50104 + 0x400 * i + 0x8 * j
/-- 06_carousel_engine.md R182. -/
def CAR_STAT : Nat := 0x30000
/-- 06_carousel_engine.md R182. -/
def CAR_STRUM_BASE : Nat := 0x30004
/-- 06_carousel_engine.md R182. -/
def CAR_CAL_CHECK : Nat := 0x30008
/-- 06_carousel_engine.md R182. -/
def CAR_GRP_N (i : Nat) : Nat := 0x30010 + 0x4 * i
/-- 06_carousel_engine.md R182. -/
def CAR_EVT : Nat := 0x30040
/-- 06_carousel_engine.md R182. -/
def CAR_EVT_EN : Nat := 0x30044
/-- 06_carousel_engine.md R182. -/
def CAR_FAULT_PEND (i : Nat) : Nat := 0x30060 + 0x4 * i
/-- 06_carousel_engine.md R182. -/
def CAR_LATE_PEND (i : Nat) : Nat := 0x30080 + 0x4 * i
/-- 06_carousel_engine.md R182. -/
def CAR_CNT_COMMIT : Nat := 0x300C0
/-- 06_carousel_engine.md R182. -/
def CAR_CNT_LATE : Nat := 0x300C4
/-- 06_carousel_engine.md R182. -/
def CAR_CNT_FAULT : Nat := 0x300C8
/-- 06_carousel_engine.md R182. -/
def CAR_CNT_IDLE_SLOTS : Nat := 0x300CC
/-- 06_carousel_engine.md R182. -/
def CAR_CNT_EDGES : Nat := 0x300D0
/-- 06_carousel_engine.md R182. -/
def CAR_CNT_EDGES_SKIPPED : Nat := 0x300D4
/-- 06_carousel_engine.md R182. -/
def CAR_CNT_COMMIT_REFUSED : Nat := 0x300D8
/-- 06_carousel_engine.md R182. -/
def CAR_SCR_ADDR : Nat := 0x31000
/-- 06_carousel_engine.md R182. -/
def CAR_SCR_DATA : Nat := 0x31004
/-- 06_carousel_engine.md R183. -/
def CTX_CFG (i : Nat) : Nat := 0x32000 + 0x20 * i
/-- 06_carousel_engine.md R183. -/
def CTX_DEADLINE (i : Nat) : Nat := 0x32004 + 0x20 * i
/-- 06_carousel_engine.md R183. -/
def CTX_PROG (i : Nat) : Nat := 0x32008 + 0x20 * i
/-- 06_carousel_engine.md R183. -/
def CTX_ENTRY (i : Nat) : Nat := 0x3200C + 0x20 * i
/-- 06_carousel_engine.md R183. -/
def CTX_STAT (i : Nat) : Nat := 0x32010 + 0x20 * i
/-- 06_carousel_engine.md R183. -/
def CTX_PC (i : Nat) : Nat := 0x32014 + 0x20 * i
/-- 06_carousel_engine.md R183. -/
def CTX_CNT_JOBS (i : Nat) : Nat := 0x32018 + 0x20 * i
/-- 06_carousel_engine.md R183. -/
def CTX_CNT_LATE (i : Nat) : Nat := 0x3201C + 0x20 * i
/-- 06_carousel_engine.md R183. -/
def CTX_BIND (i : Nat) (j : Nat) : Nat := 0x34000 + 0x40 * i + 0x4 * j
/-- 06_carousel_engine.md R181. -/
def CAL_A (i : Nat) : Nat := 0x38000 + 0x4 * i
/-- 06_carousel_engine.md R181. -/
def CAL_B (i : Nat) : Nat := 0x38400 + 0x4 * i
/-- 08_check_values.md R230. -/
def CRC_EVT : Nat := 0x58000
/-- 08_check_values.md R230. -/
def CRC_EVT_EN : Nat := 0x58004
/-- 08_check_values.md R230. -/
def GRD_CFG : Nat := 0x58010
/-- 08_check_values.md R230. -/
def GRD_CNT_OK : Nat := 0x58040
/-- 08_check_values.md R230. -/
def GRD_CNT_CRC : Nat := 0x58044
/-- 08_check_values.md R230. -/
def GRD_CNT_REPEAT : Nat := 0x58048
/-- 08_check_values.md R230. -/
def GRD_CNT_SEQ : Nat := 0x5804C
/-- 08_check_values.md R230. -/
def GRD_CNT_GAP : Nat := 0x58050
/-- 08_check_values.md R230. -/
def GRD_CNT_RESYNC : Nat := 0x58054
/-- 08_check_values.md R230. -/
def GRD_CNT_EVICT : Nat := 0x58058
/-- 08_check_values.md R230. -/
def GRD_CNT_UNGUARDED : Nat := 0x5805C
/-- 08_check_values.md R230. -/
def CRC_UCFG (i : Nat) : Nat := 0x58100 + 0x10 * i
/-- 08_check_values.md R230. -/
def CRC_UPOLY (i : Nat) : Nat := 0x58104 + 0x10 * i
/-- 08_check_values.md R230. -/
def CRC_UINIT (i : Nat) : Nat := 0x58108 + 0x10 * i
/-- 08_check_values.md R230. -/
def CRC_UXOR (i : Nat) : Nat := 0x5810C + 0x10 * i
/-- 08_check_values.md R230. -/
def SNP_CFG (i : Nat) : Nat := 0x58400 + 0x20 * i
/-- 08_check_values.md R230. -/
def SNP_RESULT (i : Nat) : Nat := 0x58404 + 0x20 * i
/-- 08_check_values.md R230. -/
def SNP_LAST (i : Nat) : Nat := 0x58408 + 0x20 * i
/-- 08_check_values.md R230. -/
def SNP_FRAMES (i : Nat) : Nat := 0x5840C + 0x20 * i
/-- 08_check_values.md R230. -/
def SNP_COUNT (i : Nat) : Nat := 0x58410 + 0x20 * i
/-- 08_check_values.md R230. -/
def SNP_CMD (i : Nat) : Nat := 0x58414 + 0x20 * i
/-- 09_traffic_manager.md R259. -/
def TM_EVT : Nat := 0x20010
/-- 09_traffic_manager.md R259. -/
def TM_EVT_EN : Nat := 0x20014
/-- 09_traffic_manager.md R259. -/
def TM_FCO_CFG : Nat := 0x20020
/-- 09_traffic_manager.md R259. -/
def TM_FCO_STATE : Nat := 0x20024
/-- 09_traffic_manager.md R259. -/
def TM_WM_PEND (i : Nat) : Nat := 0x20040 + 0x4 * i
/-- 09_traffic_manager.md R259. -/
def TM_CNT_LATE_DROP : Nat := 0x20080
/-- 09_traffic_manager.md R259. -/
def TM_CNT_NOCREDIT_DROP : Nat := 0x20084
/-- 09_traffic_manager.md R259. -/
def TM_CNT_POL_DROP : Nat := 0x20088
/-- 09_traffic_manager.md R259. -/
def TM_CNT_MISROUTE : Nat := 0x2008C
/-- 09_traffic_manager.md R259. -/
def TM_CNT_NO_LAUNCH : Nat := 0x20090
/-- 09_traffic_manager.md R259. -/
def TM_CNT_NO_DELIVER : Nat := 0x20094
/-- 09_traffic_manager.md R259. -/
def TM_PORT (i : Nat) : Nat := 0x20100 + 0x4 * i
/-- 09_traffic_manager.md R260. -/
def TM_Q_CFG (i : Nat) : Nat := 0x21000 + 0x20 * i
/-- 09_traffic_manager.md R260. -/
def TM_Q_WEIGHT (i : Nat) : Nat := 0x21004 + 0x20 * i
/-- 09_traffic_manager.md R260. -/
def TM_Q_RATE (i : Nat) : Nat := 0x21008 + 0x20 * i
/-- 09_traffic_manager.md R260. -/
def TM_Q_LT (i : Nat) : Nat := 0x2100C + 0x20 * i
/-- 09_traffic_manager.md R260. -/
def TM_Q_WM (i : Nat) : Nat := 0x21010 + 0x20 * i
/-- 09_traffic_manager.md R260. -/
def TM_Q_STAT (i : Nat) : Nat := 0x21014 + 0x20 * i
/-- 09_traffic_manager.md R260. -/
def TM_Q_IDLE (i : Nat) : Nat := 0x21018 + 0x20 * i
/-- 09_traffic_manager.md R260. -/
def TM_Q_CNT_TX (i : Nat) : Nat := 0x24000 + 0x10 * i
/-- 09_traffic_manager.md R260. -/
def TM_Q_CNT_LATE (i : Nat) : Nat := 0x24004 + 0x10 * i
/-- 09_traffic_manager.md R260. -/
def TM_Q_CNT_NOCREDIT (i : Nat) : Nat := 0x24008 + 0x10 * i
/-- 09_traffic_manager.md R260. -/
def TM_Q_CNT_FLUSHED (i : Nat) : Nat := 0x2400C + 0x10 * i
/-- 09_traffic_manager.md R261. -/
def POL_CFG (i : Nat) : Nat := 0x25000 + 0x10 * i
/-- 09_traffic_manager.md R261. -/
def POL_CBS (i : Nat) : Nat := 0x25004 + 0x10 * i
/-- 09_traffic_manager.md R261. -/
def POL_TOKENS (i : Nat) : Nat := 0x25008 + 0x10 * i
/-- 09_traffic_manager.md R261. -/
def POL_CNT_DROP (i : Nat) : Nat := 0x2500C + 0x10 * i
/-- 09_traffic_manager.md R261. -/
def FLOW_CFG (i : Nat) : Nat := 0x26000 + 0x10 * i
/-- 09_traffic_manager.md R261. -/
def FLOW_LAUNCH (i : Nat) : Nat := 0x26004 + 0x10 * i
/-- 09_traffic_manager.md R261. -/
def FLOW_RX (i : Nat) : Nat := 0x26008 + 0x10 * i
/-- 10_midway_switch_core.md R284. -/
def SWC_CTL : Nat := 0x18000
/-- 10_midway_switch_core.md R284. -/
def SWC_STAT : Nat := 0x18004
/-- 10_midway_switch_core.md R284. -/
def SWC_GEN : Nat := 0x18008
/-- 10_midway_switch_core.md R284. -/
def SWC_BUF_CFG : Nat := 0x1800C
/-- 10_midway_switch_core.md R284. -/
def SWC_AUDIT_CFG : Nat := 0x18010
/-- 10_midway_switch_core.md R284. -/
def SWC_EVT : Nat := 0x18020
/-- 10_midway_switch_core.md R284. -/
def SWC_EVT_EN : Nat := 0x18024
/-- 10_midway_switch_core.md R284. -/
def SWC_CNT_NOBUF : Nat := 0x18040
/-- 10_midway_switch_core.md R284. -/
def SWC_CNT_LEAK_RECLAIM : Nat := 0x18044
/-- 10_midway_switch_core.md R284. -/
def SWC_CNT_AUDIT_PASSES : Nat := 0x18048
/-- 10_midway_switch_core.md R284. -/
def SWC_CNT_MAC_LEARN_FAIL : Nat := 0x1804C
/-- 10_midway_switch_core.md R284. -/
def SWC_CNT_OVERSIZE : Nat := 0x18050
/-- 10_midway_switch_core.md R284. -/
def SWC_CNT_INLIMIT_DROP : Nat := 0x18054
/-- 10_midway_switch_core.md R285. -/
def SWC_P_CFG (i : Nat) : Nat := 0x18100 + 0x20 * i
/-- 10_midway_switch_core.md R285. -/
def SWC_P_STAT (i : Nat) : Nat := 0x18104 + 0x20 * i
/-- 10_midway_switch_core.md R285. -/
def SWC_P_CNT_FCS_BAD (i : Nat) : Nat := 0x18108 + 0x20 * i
/-- 10_midway_switch_core.md R285. -/
def SWC_P_CNT_STOMP_RX (i : Nat) : Nat := 0x1810C + 0x20 * i
/-- 10_midway_switch_core.md R285. -/
def SWC_P_CNT_STOMP_TX (i : Nat) : Nat := 0x18110 + 0x20 * i
/-- 10_midway_switch_core.md R285. -/
def SWC_P_CNT_CT (i : Nat) : Nat := 0x18114 + 0x20 * i
/-- 10_midway_switch_core.md R285. -/
def SWC_GEN_CNT (i : Nat) (j : Nat) : Nat := 0x18200 + 0x40 * i + 0x4 * j
/-- 10_midway_switch_core.md R286. -/
def SWC_ROUTE (i : Nat) : Nat := 0x19000 + 0x4 * i
/-- 10_midway_switch_core.md R286. -/
def SWC_GROUP (i : Nat) : Nat := 0x19400 + 0x4 * i
/-- 10_midway_switch_core.md R287. -/
def SWC_MAC_LO : Nat := 0x18400
/-- 10_midway_switch_core.md R287. -/
def SWC_MAC_HI : Nat := 0x18404
/-- 10_midway_switch_core.md R287. -/
def SWC_MAC_DATA : Nat := 0x18408
/-- 10_midway_switch_core.md R287. -/
def SWC_MAC_CMD : Nat := 0x1840C
/-- 10_midway_switch_core.md R287. -/
def SWC_MAC_AGE : Nat := 0x18410
/-- 11_ring.md R327. -/
def RING_CTL : Nat := 0x10000
/-- 11_ring.md R327. -/
def RING_CFG : Nat := 0x10004
/-- 11_ring.md R327. -/
def RING_DD_CFG : Nat := 0x10008
/-- 11_ring.md R327. -/
def RING_PAR_CFG : Nat := 0x1000C
/-- 11_ring.md R327. -/
def RING_MAC_LO : Nat := 0x10010
/-- 11_ring.md R327. -/
def RING_MAC_HI : Nat := 0x10014
/-- 11_ring.md R327. -/
def RING_DA_HI : Nat := 0x10018
/-- 11_ring.md R327. -/
def RING_DA_LO : Nat := 0x1001C
/-- 11_ring.md R327. -/
def RING_STAT : Nat := 0x10020
/-- 11_ring.md R327. -/
def RING_EVT : Nat := 0x10040
/-- 11_ring.md R327. -/
def RING_EVT_EN : Nat := 0x10044
/-- 11_ring.md R327. -/
def RING_CNT_SRC_REMOVED : Nat := 0x10080
/-- 11_ring.md R327. -/
def RING_CNT_DD_DUP : Nat := 0x10084
/-- 11_ring.md R327. -/
def RING_CNT_DD_SINGLE : Nat := 0x10088
/-- 11_ring.md R327. -/
def RING_CNT_DD_OLD : Nat := 0x1008C
/-- 11_ring.md R327. -/
def RING_CNT_DD_EVICT : Nat := 0x10090
/-- 11_ring.md R327. -/
def RING_CNT_HOP_DROP : Nat := 0x10094
/-- 11_ring.md R327. -/
def RING_CNT_BAD_HDR : Nat := 0x10098
/-- 11_ring.md R327. -/
def RING_CNT_GEN_DROP : Nat := 0x1009C
/-- 11_ring.md R327. -/
def RING_CNT_PARADES : Nat := 0x100A0
/-- 11_ring.md R327. -/
def RING_CNT_HSR_DUP : Nat := 0x100A4
/-- 11_ring.md R327. -/
def RING_CNT_P2_NRP_DROP : Nat := 0x100A8
/-- 11_ring.md R328. -/
def RING_P_CFG (i : Nat) : Nat := 0x10100 + 0x40 * i
/-- 11_ring.md R328. -/
def RING_P_STAT (i : Nat) : Nat := 0x10104 + 0x40 * i
/-- 11_ring.md R328. -/
def RING_P_CNT_RUNT (i : Nat) : Nat := 0x10110 + 0x40 * i
/-- 11_ring.md R328. -/
def RING_P_CNT_DOWN_DROP (i : Nat) : Nat := 0x10114 + 0x40 * i
/-- 11_ring.md R328. -/
def RING_P_CNT_HELLO_MISS (i : Nat) : Nat := 0x10118 + 0x40 * i
/-- 11_ring.md R328. -/
def RING_P_CNT_UNTAGGED (i : Nat) : Nat := 0x1011C + 0x40 * i
/-- 11_ring.md R328. -/
def RING_P_CNT_LINK_DOWNS (i : Nat) : Nat := 0x10120 + 0x40 * i
/-- 11_ring.md R329. -/
def RING_GRP_VER (i : Nat) : Nat := 0x10400 + 0x4 * i
/-- 11_ring.md R329. -/
def RING_NODE (i : Nat) : Nat := 0x10800 + 0x4 * i
/-- 12_time.md R354. -/
def TIME_CTL : Nat := 0x8000
/-- 12_time.md R354. -/
def TIME_EVT : Nat := 0x8010
/-- 12_time.md R354. -/
def TIME_EVT_EN : Nat := 0x8014
/-- 12_time.md R355. -/
def TB_JUMP (i : Nat) : Nat := 0x8100 + 0x40 * i
/-- 12_time.md R355. -/
def TB_SRC (i : Nat) : Nat := 0x8104 + 0x40 * i
/-- 12_time.md R355. -/
def TB_FREQ (i : Nat) : Nat := 0x8108 + 0x40 * i
/-- 12_time.md R355. -/
def TB_SERVO (i : Nat) : Nat := 0x810C + 0x40 * i
/-- 12_time.md R355. -/
def TB_STAT (i : Nat) : Nat := 0x8110 + 0x40 * i
/-- 12_time.md R355. -/
def TB_OFS (i : Nat) : Nat := 0x8114 + 0x40 * i
/-- 12_time.md R355. -/
def TB_REFUSED_OFS (i : Nat) : Nat := 0x8118 + 0x40 * i
/-- 12_time.md R355. -/
def TB_NOW_NS (i : Nat) : Nat := 0x811C + 0x40 * i
/-- 12_time.md R355. -/
def TB_NOW_SEC_LO (i : Nat) : Nat := 0x8120 + 0x40 * i
/-- 12_time.md R355. -/
def TB_NOW_SEC_HI (i : Nat) : Nat := 0x8124 + 0x40 * i
/-- 12_time.md R355. -/
def TB_CNT_STEPS (i : Nat) : Nat := 0x8130 + 0x40 * i
/-- 12_time.md R355. -/
def TB_CNT_REFUSED (i : Nat) : Nat := 0x8134 + 0x40 * i
/-- 12_time.md R356. -/
def TIME_P_ADJ (i : Nat) : Nat := 0x8400 + 0x10 * i
/-- 12_time.md R356. -/
def TIME_P_DELAY (i : Nat) : Nat := 0x8404 + 0x10 * i
/-- 12_time.md R356. -/
def TIME_ETI (i : Nat) : Nat := 0x8800 + 0x4 * i
/-- 12_time.md R356. -/
def EVQ_CFG : Nat := 0x8A00
/-- 12_time.md R356. -/
def EVQ_STAT : Nat := 0x8A04
/-- 12_time.md R356. -/
def EVQ_POP : Nat := 0x8A08
/-- 12_time.md R356. -/
def EVQ_CMD : Nat := 0x8A0C
/-- 12_time.md R356. -/
def TIME_CNT_EVQ_LOST : Nat := 0x8A10
/-- 12_time.md R356. -/
def TIME_CNT_ETI_NARROW : Nat := 0x8A14
/-- 12_time.md R357. -/
def PPO_CFG (i : Nat) : Nat := 0x8C00 + 0x20 * i
/-- 12_time.md R357. -/
def PPO_START_LO (i : Nat) : Nat := 0x8C04 + 0x20 * i
/-- 12_time.md R357. -/
def PPO_START_HI (i : Nat) : Nat := 0x8C08 + 0x20 * i
/-- 12_time.md R357. -/
def PPO_PERIOD (i : Nat) : Nat := 0x8C0C + 0x20 * i
/-- 12_time.md R357. -/
def PPO_WIDTH (i : Nat) : Nat := 0x8C10 + 0x20 * i
/-- 12_time.md R357. -/
def PPO_ADJ (i : Nat) : Nat := 0x8C14 + 0x20 * i
/-- 12_time.md R357. -/
def PPO_STAT (i : Nat) : Nat := 0x8C18 + 0x20 * i
/-- 12_time.md R357. -/
def PPSO_CFG (i : Nat) : Nat := 0x8E00 + 0x10 * i
/-- 12_time.md R357. -/
def PPSO_ADJ (i : Nat) : Nat := 0x8E04 + 0x10 * i
/-- 13_twin.md R388. -/
def TWIN_CFG : Nat := 0xC000
/-- 13_twin.md R388. -/
def TWIN_TMO : Nat := 0xC004
/-- 13_twin.md R388. -/
def TWIN_STAT : Nat := 0xC008
/-- 13_twin.md R388. -/
def TWIN_LAG : Nat := 0xC00C
/-- 13_twin.md R388. -/
def TWIN_HEALTH_LO : Nat := 0xC010
/-- 13_twin.md R388. -/
def TWIN_HEALTH_HI : Nat := 0xC014
/-- 13_twin.md R388. -/
def TWIN_EVT : Nat := 0xC020
/-- 13_twin.md R388. -/
def TWIN_EVT_EN : Nat := 0xC024
/-- 13_twin.md R388. -/
def TWIN_CNT_TAKEOVER : Nat := 0xC040
/-- 13_twin.md R388. -/
def TWIN_CNT_SWITCH : Nat := 0xC044
/-- 13_twin.md R388. -/
def TWIN_CNT_DIGEST_MISS : Nat := 0xC048
/-- 13_twin.md R388. -/
def TWIN_CNT_PIN_MISMATCH : Nat := 0xC04C
/-- 13_twin.md R388. -/
def TWIN_CNT_RING_MISS : Nat := 0xC050
/-- 13_twin.md R388. -/
def TWIN_CNT_REWIND_LOST : Nat := 0xC054
/-- 13_twin.md R388. -/
def TWIN_CNT_JNL_OVERFLOW : Nat := 0xC058
/-- 13_twin.md R388. -/
def TWIN_CNT_SYNC_TMO : Nat := 0xC05C
/-- 13_twin.md R388. -/
def TWIN_CNT_ECC_CORR : Nat := 0xC060
/-- 13_twin.md R388. -/
def TWIN_CNT_ECC_UNCORR : Nat := 0xC064
/-- 13_twin.md R388. -/
def TWIN_CNT_HB_MISS_SER : Nat := 0xC068
/-- 13_twin.md R388. -/
def TWIN_CNT_HB_MISS_LVDS : Nat := 0xC06C
/-- 14_usb_hub.md R414. -/
def USB_CTL : Nat := 0x60000
/-- 14_usb_hub.md R414. -/
def USB_STAT : Nat := 0x60004
/-- 14_usb_hub.md R414. -/
def USB_EP_CHECK : Nat := 0x60008
/-- 14_usb_hub.md R414. -/
def USB_EVT : Nat := 0x60010
/-- 14_usb_hub.md R414. -/
def USB_EVT_EN : Nat := 0x60014
/-- 14_usb_hub.md R414. -/
def USB_CNT_BUS_RESET : Nat := 0x60040
/-- 14_usb_hub.md R414. -/
def USB_CNT_OVER_CURRENT : Nat := 0x60044
/-- 14_usb_hub.md R414. -/
def USB_CNT_WAKE_WITHDRAWN : Nat := 0x60048
/-- 14_usb_hub.md R414. -/
def USB_CNT_CMD_DISCARDED : Nat := 0x6004C
/-- 14_usb_hub.md R414. -/
def USB_CNT_RSP_DROPPED : Nat := 0x60050
/-- 14_usb_hub.md R414. -/
def USB_CNT_EP_HALT : Nat := 0x60054
/-- 14_usb_hub.md R415. -/
def USB_P_CFG (i : Nat) : Nat := 0x60100 + 0x10 * i
/-- 14_usb_hub.md R415. -/
def USB_P_STAT (i : Nat) : Nat := 0x60104 + 0x10 * i
/-- 14_usb_hub.md R416. -/
def USB_EP_CFG (i : Nat) (j : Nat) : Nat := 0x60400 + 0x10 * i + 0x8 * j
/-- 14_usb_hub.md R416. -/
def USB_EP_STAT (i : Nat) (j : Nat) : Nat := 0x60404 + 0x10 * i + 0x8 * j
/-- 14_usb_hub.md R416. -/
def USB_DESC (i : Nat) : Nat := 0x61000 + 0x4 * i
/-- 15_net_channels.md R438. -/
def NET_N_CFG (i : Nat) : Nat := 0x68000 + 0x80 * i
/-- 15_net_channels.md R438. -/
def NET_N_VWIN (i : Nat) : Nat := 0x68004 + 0x80 * i
/-- 15_net_channels.md R438. -/
def NET_N_TIME (i : Nat) : Nat := 0x68008 + 0x80 * i
/-- 15_net_channels.md R438. -/
def NET_N_RETRY (i : Nat) : Nat := 0x6800C + 0x80 * i
/-- 15_net_channels.md R438. -/
def NET_N_GATE (i : Nat) : Nat := 0x68010 + 0x80 * i
/-- 15_net_channels.md R438. -/
def NET_N_ILIM (i : Nat) : Nat := 0x68014 + 0x80 * i
/-- 15_net_channels.md R438. -/
def NET_N_STAT (i : Nat) : Nat := 0x68018 + 0x80 * i
/-- 15_net_channels.md R438. -/
def NET_N_I_MA (i : Nat) : Nat := 0x6801C + 0x80 * i
/-- 15_net_channels.md R438. -/
def NET_N_V (i : Nat) : Nat := 0x68020 + 0x80 * i
/-- 15_net_channels.md R438. -/
def NET_N_VGS (i : Nat) : Nat := 0x68024 + 0x80 * i
/-- 15_net_channels.md R438. -/
def NET_N_EVT (i : Nat) : Nat := 0x68028 + 0x80 * i
/-- 15_net_channels.md R438. -/
def NET_N_EVT_EN (i : Nat) : Nat := 0x6802C + 0x80 * i
/-- 15_net_channels.md R438. -/
def NET_N_CNT_TRIPS (i : Nat) : Nat := 0x68030 + 0x80 * i
/-- 15_net_channels.md R438. -/
def NET_N_CNT_SHORT (i : Nat) : Nat := 0x68034 + 0x80 * i
/-- 15_net_channels.md R438. -/
def NET_N_CNT_CURVE (i : Nat) : Nat := 0x68038 + 0x80 * i
/-- 15_net_channels.md R438. -/
def NET_N_CNT_INSERT (i : Nat) : Nat := 0x6803C + 0x80 * i
/-- 15_net_channels.md R425. -/
def NET_N_CURVE (i : Nat) (j : Nat) : Nat := 0x68040 + 0x80 * i + 0x4 * j
/-- 15_net_channels.md R438. -/
def NET_N_TEST (i : Nat) : Nat := 0x68060 + 0x80 * i
/-- 15_net_channels.md R439. -/
def NET_EVT : Nat := 0x68800
/-- 15_net_channels.md R439. -/
def NET_EVT_EN : Nat := 0x68804
/-- 15_net_channels.md R439. -/
def NET_PEND : Nat := 0x68808
/-- 15_net_channels.md R439. -/
def NET_STAT : Nat := 0x6880C
/-- 17_clocks_reset_boot.md R495. -/
def GLB_ID : Nat := 0x0
/-- 17_clocks_reset_boot.md R495. -/
def GLB_STRAPS : Nat := 0x4
/-- 17_clocks_reset_boot.md R495. -/
def GLB_BOOT : Nat := 0x8
/-- 17_clocks_reset_boot.md R495. -/
def GLB_SEQ_A : Nat := 0xC
/-- 17_clocks_reset_boot.md R495. -/
def GLB_SEQ_B : Nat := 0x10
/-- 17_clocks_reset_boot.md R495. -/
def GLB_SCRIPT_ERR : Nat := 0x14
/-- 17_clocks_reset_boot.md R495. -/
def GLB_RESET_CAUSE : Nat := 0x18
/-- 17_clocks_reset_boot.md R495. -/
def GLB_CLK_CTL : Nat := 0x20
/-- 17_clocks_reset_boot.md R495. -/
def GLB_CLK_STAT : Nat := 0x24
/-- 17_clocks_reset_boot.md R495. -/
def GLB_EVT : Nat := 0x30
/-- 17_clocks_reset_boot.md R495. -/
def GLB_EVT_EN : Nat := 0x34
/-- 17_clocks_reset_boot.md R495. -/
def GLB_KEY_HASH (i : Nat) : Nat := 0x40 + 0x4 * i
/-- 17_clocks_reset_boot.md R495. -/
def GLB_KEY_LOCKED : Nat := 0x60
/-- 17_clocks_reset_boot.md R495. -/
def GLB_CNT_REF_LOST : Nat := 0x80
/-- 17_clocks_reset_boot.md R495. -/
def GLB_CNT_WARM : Nat := 0x84

end Sys2Proof.Machine.Reg

/-! Fields of the words: (lowest bit, width). -/
namespace Sys2Proof.Machine.F

def HOST_STAT_PATHS : Nat × Nat := (0, 3)
def HOST_STAT_PCIE_GEN : Nat × Nat := (3, 2)
def HOST_STAT_PCIE_WIDTH : Nat × Nat := (5, 2)
def HOST_STAT_PCIE_UP : Nat × Nat := (7, 1)
def HOST_STAT_MAINT_ACT : Nat × Nat := (8, 8)
def HOST_EVT_RSP : Nat × Nat := (0, 4)
def HOST_EVT_REFUSED : Nat × Nat := (4, 1)
def HOST_EVT_CREDIT_OVERRUN : Nat × Nat := (5, 1)
def HOST_EVT_WRITE_REFUSED : Nat × Nat := (6, 1)
def HOST_EVT_BAD_ACCESS : Nat × Nat := (7, 1)
def HOST_EVT_DMA_TX_DONE : Nat × Nat := (8, 1)
def HOST_EVT_DMA_RX : Nat × Nat := (9, 1)
def HOST_EVT_DMA_ERR : Nat × Nat := (10, 1)
def HOST_EVT_MAINT_DONE : Nat × Nat := (11, 1)
def HOST_IRQ_MAP_VEC : Nat × Nat := (0, 5)
def HOST_IRQ_MAP_EN : Nat × Nat := (5, 1)
def HOST_IRQ_MAP_QSPI : Nat × Nat := (6, 1)
def HQ_CFG_EN : Nat × Nat := (0, 1)
def HQ_CFG_PATH : Nat × Nat := (1, 2)
def HQ_CFG_VERSION : Nat × Nat := (8, 3)
def HQ_CMD_TAIL : Nat × Nat := (0, 5)
def HQ_CMD_HEAD : Nat × Nat := (8, 5)
def HQ_RSP_TAIL : Nat × Nat := (0, 5)
def HQ_RSP_HEAD : Nat × Nat := (8, 5)
def HQ_INPROG : Nat × Nat := (0, 5)
def HOST_RLOG_IDX_NEXT : Nat × Nat := (0, 4)
def HOST_RLOG_RWHERE_QUEUE : Nat × Nat := (0, 2)
def HOST_RLOG_RWHERE_PATH : Nat × Nat := (2, 2)
def DMA_TX_SIZE_TX_SIZE_LOG2 : Nat × Nat := (0, 4)
def DMA_RX_SIZE_TX_SIZE_LOG2 : Nat × Nat := (0, 4)
def DMA_TX_TAIL : Nat × Nat := (0, 12)
def DMA_RX_TAIL_DMA_TX_TAIL : Nat × Nat := (0, 12)
def DMA_TX_HEAD : Nat × Nat := (0, 12)
def DMA_RX_HEAD_DMA_TX_HEAD : Nat × Nat := (0, 12)
def DMA_CTL_TX_EN : Nat × Nat := (0, 1)
def DMA_CTL_RX_EN : Nat × Nat := (1, 1)
def DMA_CTL_TS_TB : Nat × Nat := (2, 2)
def PTM_CTL_EN : Nat × Nat := (0, 1)
def PTM_CTL_W2_PAGE : Nat × Nat := (1, 1)
def PTM_CTL_W2_WR_EN : Nat × Nat := (2, 1)
def PTM_STAT_MAP_LOADED : Nat × Nat := (0, 1)
def PTM_STAT_TAGS_IN_USE : Nat × Nat := (16, 9)
def PTM_TXN_CFG_TIMEOUT_US : Nat × Nat := (0, 24)
def PTM_TXN_CFG_RETRIES : Nat × Nat := (24, 2)
def PTM_EVT_WR_DENIED : Nat × Nat := (0, 1)
def PTM_EVT_MIRROR_STALE : Nat × Nat := (1, 1)
def PTM_EVT_TXN_DONE : Nat × Nat := (2, 1)
def PTM_EVT_TXN_FAIL : Nat × Nat := (3, 1)
def PTM_EVT_EVENT_RX : Nat × Nat := (4, 1)
def PTM_EVT_WRITE_REFUSED : Nat × Nat := (5, 1)
def PTM_EVT_W2_WR_IGNORED : Nat × Nat := (6, 1)
def PTM_TAG0_STATE : Nat × Nat := (0, 2)
def PTM_TAG0_KIND : Nat × Nat := (2, 3)
def PTM_TAG0_ORIGIN : Nat × Nat := (5, 2)
def PTM_TAG0_NODE : Nat × Nat := (8, 8)
def PTM_TAG0_POINT : Nat × Nat := (16, 16)
def PTM_TAG1_STATUS : Nat × Nat := (0, 8)
def PTM_TAG1_TRIES : Nat × Nat := (8, 2)
def PTM_SUB0_SRC_NODE : Nat × Nat := (0, 8)
def PTM_SUB0_SRC_START : Nat × Nat := (8, 16)
def PTM_SUB0_STALE_GROUP : Nat × Nat := (24, 3)
def PTM_SUB0_STRUM_CHECK : Nat × Nat := (27, 1)
def PTM_SUB0_STATE : Nat × Nat := (30, 2)
def PTM_SUB1_COUNT_M1 : Nat × Nat := (0, 10)
def PTM_SUB1_MIRROR_BASE : Nat × Nat := (16, 14)
def LN_MODE_MODE : Nat × Nat := (0, 4)
def LN_MODE_C_FUNC : Nat × Nat := (4, 2)
def LN_MODE_TS_TB : Nat × Nat := (6, 2)
def LN_MODE_LOOP : Nat × Nat := (8, 1)
def LN_STAT_STATE : Nat × Nat := (0, 2)
def LN_STAT_RX_BUSY : Nat × Nat := (2, 1)
def LN_STAT_TX_BUSY : Nat × Nat := (3, 1)
def LN_STAT_DE : Nat × Nat := (4, 1)
def LN_BAUD_DIV_INT : Nat × Nat := (0, 16)
def LN_BAUD_DIV_FRAC : Nat × Nat := (16, 4)
def LN_BAUD_OVS : Nat × Nat := (20, 4)
def LN_MCFG_DATA_BITS : Nat × Nat := (0, 4)
def LN_MCFG_PARITY : Nat × Nat := (4, 2)
def LN_MCFG_STOP2 : Nat × Nat := (6, 1)
def LN_MCFG_MSB_FIRST : Nat × Nat := (7, 1)
def LN_MCFG_INV_RX : Nat × Nat := (8, 1)
def LN_MCFG_INV_TX : Nat × Nat := (9, 1)
def LN_MCFG_ECHO_SUPPRESS : Nat × Nat := (10, 1)
def LN_MCFG_CPOL : Nat × Nat := (11, 1)
def LN_MCFG_CPHA : Nat × Nat := (12, 1)
def LN_MCFG_HDLC_CLK_OUT : Nat × Nat := (13, 1)
def LN_MCFG_GRAY : Nat × Nat := (14, 1)
def LN_MCFG_SSI_AUTO : Nat × Nat := (15, 1)
def LN_MCFG_SCK_DIV : Nat × Nat := (16, 8)
def LN_MCFG_CS_PIN : Nat × Nat := (24, 6)
def LN_MCFG_CS_HIGH : Nat × Nat := (30, 1)
def LN_MCFG2_OWN_ADDR : Nat × Nat := (0, 7)
def LN_MCFG2_I2C_SPEED : Nat × Nat := (7, 2)
def LN_MCFG2_HS_CODE : Nat × Nat := (9, 3)
def LN_MCFG2_STRETCH_MS : Nat × Nat := (12, 8)
def LN_MCFG2_SSI_BITS : Nat × Nat := (20, 6)
def LN_MCFG2_SSI_GROUP : Nat × Nat := (26, 3)
def LN_EOFI_EOF_IDLE : Nat × Nat := (0, 20)
def LN_TIMERS_DE_LEAD : Nat × Nat := (0, 16)
def LN_TIMERS_DE_TAIL : Nat × Nat := (16, 16)
def LN_RXHOLD_RX_HOLDOFF : Nat × Nat := (0, 16)
def LN_CRC_POLY : Nat × Nat := (0, 4)
def LN_CRC_TX_APPEND : Nat × Nat := (4, 1)
def LN_CRC_RX_CHECK : Nat × Nat := (5, 1)
def LN_CRC_RX_STRIP : Nat × Nat := (6, 1)
def LN_CRC_FAIL_DELIVER : Nat × Nat := (7, 1)
def LN_TS_TS_ADJ : Nat × Nat := (0, 16)
def LN_FILT_FILT_A : Nat × Nat := (0, 8)
def LN_FILT_FILT_B : Nat × Nat := (8, 8)
def LN_FILT_FILT_C : Nat × Nat := (16, 8)
def LN_PINCFG_OWNER_A : Nat × Nat := (0, 1)
def LN_PINCFG_PULL_A : Nat × Nat := (1, 2)
def LN_PINCFG_DRIVE_A : Nat × Nat := (3, 2)
def LN_PINCFG_OD_A : Nat × Nat := (5, 1)
def LN_PINCFG_DIR_A : Nat × Nat := (6, 1)
def LN_PINCFG_EDGE_EV_A : Nat × Nat := (7, 1)
def LN_PINCFG_OWNER_B : Nat × Nat := (8, 1)
def LN_PINCFG_PULL_B : Nat × Nat := (9, 2)
def LN_PINCFG_DRIVE_B : Nat × Nat := (11, 2)
def LN_PINCFG_OD_B : Nat × Nat := (13, 1)
def LN_PINCFG_DIR_B : Nat × Nat := (14, 1)
def LN_PINCFG_EDGE_EV_B : Nat × Nat := (15, 1)
def LN_PINCFG_OWNER_C : Nat × Nat := (16, 1)
def LN_PINCFG_PULL_C : Nat × Nat := (17, 2)
def LN_PINCFG_DRIVE_C : Nat × Nat := (19, 2)
def LN_PINCFG_OD_C : Nat × Nat := (21, 1)
def LN_PINCFG_DIR_C : Nat × Nat := (22, 1)
def LN_PINCFG_EDGE_EV_C : Nat × Nat := (23, 1)
def LN_DOUT_LEVEL : Nat × Nat := (0, 3)
def LN_DIN_LEVEL : Nat × Nat := (0, 3)
def LN_RXQ_CFG_WM_HI : Nat × Nat := (0, 7)
def LN_RXQ_CFG_WM_LO : Nat × Nat := (8, 7)
def LN_RXQ_CFG_FCO_SEL : Nat × Nat := (16, 3)
def LN_RXQ_CFG_FCO_EN : Nat × Nat := (19, 1)
def LN_RXQ_CFG_RTS_EN : Nat × Nat := (20, 1)
def LN_RXQ_STAT_DEPTH : Nat × Nat := (0, 7)
def LN_RXQ_STAT_WM_STATE : Nat × Nat := (7, 1)
def LN_RXQ_STAT_WM_HI_SEEN : Nat × Nat := (8, 1)
def LN_RXQ_STAT_WM_LO_SEEN : Nat × Nat := (9, 1)
def LN_RXQ_STAT_CROSS_CLR : Nat × Nat := (10, 1)
def LN_RXQ_STAT_WM_CROSS : Nat × Nat := (16, 16)
def LN_TXQ_CFG_WM_HI : Nat × Nat := (0, 7)
def LN_TXQ_CFG_WM_LO : Nat × Nat := (8, 7)
def LN_TXQ_CFG_FCO_SEL : Nat × Nat := (16, 3)
def LN_TXQ_CFG_FCO_EN : Nat × Nat := (19, 1)
def LN_TXQ_CFG_RTS_EN : Nat × Nat := (20, 1)
def LN_TXQ_STAT_DEPTH : Nat × Nat := (0, 7)
def LN_TXQ_STAT_WM_STATE : Nat × Nat := (7, 1)
def LN_TXQ_STAT_WM_HI_SEEN : Nat × Nat := (8, 1)
def LN_TXQ_STAT_WM_LO_SEEN : Nat × Nat := (9, 1)
def LN_TXQ_STAT_CROSS_CLR : Nat × Nat := (10, 1)
def LN_TXQ_STAT_WM_CROSS : Nat × Nat := (16, 16)
def LN_EVT_RX_FRAME : Nat × Nat := (0, 1)
def LN_EVT_RX_OVERRUN : Nat × Nat := (1, 1)
def LN_EVT_CRC_BAD : Nat × Nat := (2, 1)
def LN_EVT_TX_UNDERRUN : Nat × Nat := (3, 1)
def LN_EVT_RXQ_WM : Nat × Nat := (4, 1)
def LN_EVT_TXQ_WM : Nat × Nat := (5, 1)
def LN_EVT_BADITEM : Nat × Nat := (6, 1)
def LN_EVT_RX_WHILE_TX : Nat × Nat := (7, 1)
def LN_EVT_CREDIT_OVERRUN : Nat × Nat := (8, 1)
def LN_EVT_EDGE : Nat × Nat := (9, 1)
def LN_EVT_STOPPED : Nat × Nat := (10, 1)
def LN_EVT_WRITE_REFUSED : Nat × Nat := (11, 1)
def LANE_BANK_VIO : Nat × Nat := (0, 2)
def LANE_BANK_VIO_MEAS : Nat × Nat := (2, 2)
def LANE_DSNAP_HI_DSNAP_HI : Nat × Nat := (0, 4)
def LANE_EVT_BANK_VIO : Nat × Nat := (0, 8)
def FR_CTL_JOIN : Nat × Nat := (0, 2)
def FR_CTL_AUTOFETCH : Nat × Nat := (2, 1)
def FR_CTL_AUTOPOST : Nat × Nat := (3, 1)
def FR_CTL_TX_MSB : Nat × Nat := (4, 1)
def FR_CTL_RX_MSB : Nat × Nat := (5, 1)
def FR_CTL_PULL_BITS : Nat × Nat := (6, 5)
def FR_CTL_POST_AT : Nat × Nat := (11, 5)
def FR_CTL_JPIN : Nat × Nat := (16, 6)
def FR_CTL_STROBE_PIN : Nat × Nat := (22, 6)
def FR_CTL_STROBE_EN : Nat × Nat := (28, 1)
def FR_CTL_STROBE_IDLE : Nat × Nat := (29, 1)
def FR_STAT_STATE : Nat × Nat := (0, 1)
def FR_STAT_STALLED : Nat × Nat := (1, 1)
def FR_STAT_STALL_ON : Nat × Nat := (2, 3)
def FR_STAT_I : Nat × Nat := (5, 1)
def FR_STAT_STOP_CAUSE : Nat × Nat := (8, 3)
def FR_STAT_PC : Nat × Nat := (16, 7)
def FR_DIV_DIV_FRAC : Nat × Nat := (0, 8)
def FR_DIV_DIV_INT : Nat × Nat := (8, 16)
def FR_PINS_OUT_BASE : Nat × Nat := (0, 6)
def FR_PINS_OUT_COUNT : Nat × Nat := (8, 4)
def FR_PINS_IN_BASE : Nat × Nat := (16, 6)
def FR_PINS_IN_COUNT : Nat × Nat := (24, 4)
def FR_PROG_PROG_LO : Nat × Nat := (0, 7)
def FR_PROG_PROG_HI : Nat × Nat := (8, 7)
def FR_PROG_ENTRY : Nat × Nat := (16, 7)
def FR_PROG_VALID : Nat × Nat := (31, 1)
def FR_CNTS_TXC : Nat × Nat := (0, 6)
def FR_CNTS_RXC : Nat × Nat := (8, 6)
def FR_TXQ_CFG_WM_HI : Nat × Nat := (0, 7)
def FR_TXQ_CFG_WM_LO : Nat × Nat := (8, 7)
def FR_TXQ_CFG_FCO_SEL : Nat × Nat := (16, 3)
def FR_TXQ_CFG_FCO_EN : Nat × Nat := (19, 1)
def FR_TXQ_CFG_PEER : Nat × Nat := (21, 1)
def FR_TXQ_STAT_DEPTH : Nat × Nat := (0, 5)
def FR_TXQ_STAT_WM_STATE : Nat × Nat := (7, 1)
def FR_TXQ_STAT_WM_HI_SEEN : Nat × Nat := (8, 1)
def FR_TXQ_STAT_WM_LO_SEEN : Nat × Nat := (9, 1)
def FR_TXQ_STAT_CROSS_CLR : Nat × Nat := (10, 1)
def FR_TXQ_STAT_WM_CROSS : Nat × Nat := (16, 16)
def FR_RXQ_CFG_WM_HI : Nat × Nat := (0, 7)
def FR_RXQ_CFG_WM_LO : Nat × Nat := (8, 7)
def FR_RXQ_CFG_FCO_SEL : Nat × Nat := (16, 3)
def FR_RXQ_CFG_FCO_EN : Nat × Nat := (19, 1)
def FR_RXQ_CFG_PEER : Nat × Nat := (21, 1)
def FR_RXQ_STAT_DEPTH : Nat × Nat := (0, 5)
def FR_RXQ_STAT_WM_STATE : Nat × Nat := (7, 1)
def FR_RXQ_STAT_WM_HI_SEEN : Nat × Nat := (8, 1)
def FR_RXQ_STAT_WM_LO_SEEN : Nat × Nat := (9, 1)
def FR_RXQ_STAT_CROSS_CLR : Nat × Nat := (10, 1)
def FR_RXQ_STAT_WM_CROSS : Nat × Nat := (16, 16)
def FR_EVT_STOPPED : Nat × Nat := (0, 1)
def FR_EVT_FLAG_EVT : Nat × Nat := (1, 1)
def FR_EVT_RX_LOST : Nat × Nat := (2, 1)
def FR_EVT_CREDIT_OVERRUN : Nat × Nat := (3, 1)
def FR_EVT_TXQ_WM : Nat × Nat := (4, 1)
def FR_EVT_RXQ_WM : Nat × Nat := (5, 1)
def FR_EVT_WRITE_REFUSED : Nat × Nat := (6, 1)
def FR_EVT_PIN_CLASH : Nat × Nat := (7, 1)
def FRET_EVT_TROUPE_VIO : Nat × Nat := (0, 8)
def FRET_GFLAG_GFLAG : Nat × Nat := (0, 16)
def FRET_GFLAG_SET_GFLAG_SET : Nat × Nat := (0, 16)
def FRET_GFLAG_CLR_GFLAG_CLR : Nat × Nat := (0, 16)
def FRET_INSTR_INSTR : Nat × Nat := (0, 16)
def FRET_TFLAG_TFLAG : Nat × Nat := (0, 16)
def FRET_TFLAG_SET_TFLAG_SET : Nat × Nat := (0, 16)
def FRET_TFLAG_CLR_TFLAG_CLR : Nat × Nat := (0, 16)
def CAN_CTL_OPMODE : Nat × Nat := (0, 2)
def CAN_CTL_FD_EN : Nat × Nat := (2, 1)
def CAN_CTL_TRIPLE : Nat × Nat := (3, 1)
def CAN_CTL_TS_TB : Nat × Nat := (4, 2)
def CAN_CTL_TXQ_PRIO : Nat × Nat := (6, 1)
def CAN_CTL_AUTO_RECOVER : Nat × Nat := (7, 1)
def CAN_CTL_RETRY_LIM : Nat × Nat := (8, 8)
def CAN_CTL_DEFAULT_ACCEPT : Nat × Nat := (16, 1)
def CAN_STAT_STATE : Nat × Nat := (0, 3)
def CAN_STAT_RX_BUSY : Nat × Nat := (3, 1)
def CAN_STAT_TX_BUSY : Nat × Nat := (4, 1)
def CAN_STAT_TEC : Nat × Nat := (8, 9)
def CAN_STAT_REC : Nat × Nat := (24, 8)
def CAN_NBT_NTSEG1 : Nat × Nat := (0, 8)
def CAN_NBT_NTSEG2 : Nat × Nat := (8, 7)
def CAN_NBT_NSJW : Nat × Nat := (16, 7)
def CAN_NBT_NBRP : Nat × Nat := (23, 5)
def CAN_DBT_DTSEG1 : Nat × Nat := (0, 5)
def CAN_DBT_DTSEG2 : Nat × Nat := (8, 4)
def CAN_DBT_DSJW : Nat × Nat := (12, 4)
def CAN_DBT_DBRP : Nat × Nat := (16, 5)
def CAN_TDC_TDCO : Nat × Nat := (0, 7)
def CAN_TDC_TDC_EN : Nat × Nat := (7, 1)
def CAN_TDC_TDCV : Nat × Nat := (16, 7)
def CAN_TS_TS_ADJ : Nat × Nat := (0, 16)
def CAN_TXQ_CFG_WM_HI : Nat × Nat := (0, 7)
def CAN_TXQ_CFG_WM_LO : Nat × Nat := (8, 7)
def CAN_TXQ_CFG_FCO_SEL : Nat × Nat := (16, 3)
def CAN_TXQ_CFG_FCO_EN : Nat × Nat := (19, 1)
def CAN_TXQ_CFG_PEER : Nat × Nat := (21, 1)
def CAN_TXQ_STAT_DEPTH : Nat × Nat := (0, 7)
def CAN_TXQ_STAT_WM_STATE : Nat × Nat := (7, 1)
def CAN_TXQ_STAT_WM_HI_SEEN : Nat × Nat := (8, 1)
def CAN_TXQ_STAT_WM_LO_SEEN : Nat × Nat := (9, 1)
def CAN_TXQ_STAT_CROSS_CLR : Nat × Nat := (10, 1)
def CAN_TXQ_STAT_WM_CROSS : Nat × Nat := (16, 16)
def CAN_RXQ_CFG_WM_HI : Nat × Nat := (0, 7)
def CAN_RXQ_CFG_WM_LO : Nat × Nat := (8, 7)
def CAN_RXQ_CFG_FCO_SEL : Nat × Nat := (16, 3)
def CAN_RXQ_CFG_FCO_EN : Nat × Nat := (19, 1)
def CAN_RXQ_CFG_PEER : Nat × Nat := (21, 1)
def CAN_RXQ_STAT_DEPTH : Nat × Nat := (0, 7)
def CAN_RXQ_STAT_WM_STATE : Nat × Nat := (7, 1)
def CAN_RXQ_STAT_WM_HI_SEEN : Nat × Nat := (8, 1)
def CAN_RXQ_STAT_WM_LO_SEEN : Nat × Nat := (9, 1)
def CAN_RXQ_STAT_CROSS_CLR : Nat × Nat := (10, 1)
def CAN_RXQ_STAT_WM_CROSS : Nat × Nat := (16, 16)
def CAN_EVT_RX_FRAME : Nat × Nat := (0, 1)
def CAN_EVT_TX_DONE : Nat × Nat := (1, 1)
def CAN_EVT_TX_ABANDON : Nat × Nat := (2, 1)
def CAN_EVT_STATE_CHANGE : Nat × Nat := (3, 1)
def CAN_EVT_RX_LOST : Nat × Nat := (4, 1)
def CAN_EVT_CREDIT_OVERRUN : Nat × Nat := (5, 1)
def CAN_EVT_TXQ_WM : Nat × Nat := (6, 1)
def CAN_EVT_RXQ_WM : Nat × Nat := (7, 1)
def CAN_EVT_WRITE_REFUSED : Nat × Nat := (8, 1)
def CAN_EVT_BUS_ERR : Nat × Nat := (9, 1)
def CAN_EVT_STOPPED : Nat × Nat := (10, 1)
def CAN_EVT_TX_MALFORMED : Nat × Nat := (11, 1)
def CAN_FLT0_ID : Nat × Nat := (0, 29)
def CAN_FLT0_IDE : Nat × Nat := (29, 1)
def CAN_FLT0_EN : Nat × Nat := (30, 1)
def CAN_FLT0_REJECT : Nat × Nat := (31, 1)
def CAN_FLT1_MASK : Nat × Nat := (0, 29)
def CAN_FLT1_FDF_MATCH : Nat × Nat := (29, 2)
def CAR_STAT_STRUM_RUN : Nat × Nat := (0, 1)
def CAR_STAT_CAL_BANK : Nat × Nat := (1, 1)
def CAR_STAT_SWAP_PENDING : Nat × Nat := (2, 1)
def CAR_STRUM_BASE_PERIOD : Nat × Nat := (0, 28)
def CAR_STRUM_BASE_TB : Nat × Nat := (28, 2)
def CAR_CAL_CHECK_SLOT : Nat × Nat := (0, 10)
def CAR_CAL_CHECK_REASON : Nat × Nat := (12, 2)
def CAR_GRP_N_N : Nat × Nat := (0, 16)
def CAR_EVT_FAULT : Nat × Nat := (0, 1)
def CAR_EVT_LATE : Nat × Nat := (1, 1)
def CAR_EVT_CAL_SWAPPED : Nat × Nat := (2, 1)
def CAR_EVT_CAL_REFUSED : Nat × Nat := (3, 1)
def CAR_EVT_WRITE_REFUSED : Nat × Nat := (4, 1)
def CAR_EVT_EDGE_SKIPPED : Nat × Nat := (5, 1)
def CAR_EVT_EDGE_HELD : Nat × Nat := (6, 1)
def CAR_EVT_CREDIT_OVERRUN : Nat × Nat := (7, 1)
def CAR_EVT_COMMIT_REFUSED : Nat × Nat := (8, 1)
def CAR_SCR_ADDR_ADDR : Nat × Nat := (2, 15)
def CAR_SCR_ADDR_AUTOINC : Nat × Nat := (31, 1)
def CTX_CFG_GROUP : Nat × Nat := (0, 3)
def CTX_CFG_FAULT_RESTART : Nat × Nat := (3, 1)
def CTX_PROG_PROG_LO : Nat × Nat := (0, 16)
def CTX_PROG_PROG_HI : Nat × Nat := (16, 16)
def CTX_ENTRY_ENTRY : Nat × Nat := (0, 16)
def CTX_ENTRY_VALID : Nat × Nat := (31, 1)
def CTX_STAT_STATE : Nat × Nat := (0, 3)
def CTX_STAT_LATE : Nat × Nat := (3, 1)
def CTX_STAT_LATE_SEEN : Nat × Nat := (4, 1)
def CTX_STAT_FAULT_SEEN : Nat × Nat := (5, 1)
def CTX_STAT_STAGED : Nat × Nat := (8, 7)
def CTX_STAT_FAULT_CAUSE : Nat × Nat := (16, 8)
def CTX_PC_PC : Nat × Nat := (0, 16)
def CTX_PC_FAULT_PC : Nat × Nat := (16, 16)
def CTX_BIND_ID : Nat × Nat := (0, 8)
def CTX_BIND_KIND : Nat × Nat := (8, 3)
def CTX_BIND_DIR : Nat × Nat := (11, 1)
def CRC_EVT_WRITE_REFUSED : Nat × Nat := (0, 1)
def CRC_EVT_SNP_FRAME : Nat × Nat := (1, 1)
def CRC_EVT_GUARD_CRC : Nat × Nat := (2, 1)
def CRC_EVT_GUARD_REPEAT : Nat × Nat := (3, 1)
def CRC_EVT_GUARD_SEQ : Nat × Nat := (4, 1)
def CRC_EVT_GUARD_RESYNC : Nat × Nat := (5, 1)
def CRC_EVT_UNGUARDED : Nat × Nat := (6, 1)
def GRD_CFG_ALIVE_K : Nat × Nat := (0, 3)
def GRD_CFG_ACCEPT_UNGUARDED : Nat × Nat := (3, 1)
def CRC_UCFG_WIDTH : Nat × Nat := (0, 6)
def CRC_UCFG_REFIN : Nat × Nat := (6, 1)
def CRC_UCFG_REFOUT : Nat × Nat := (7, 1)
def SNP_CFG_EN : Nat × Nat := (0, 1)
def SNP_CFG_FRAME_INIT : Nat × Nat := (1, 1)
def SNP_CFG_DIR : Nat × Nat := (2, 1)
def SNP_CFG_SRC : Nat × Nat := (3, 3)
def SNP_CFG_ID : Nat × Nat := (8, 8)
def SNP_CFG_POLY : Nat × Nat := (16, 4)
def SNP_FRAMES_FRAMES : Nat × Nat := (0, 8)
def SNP_FRAMES_LAST_VALID : Nat × Nat := (8, 1)
def SNP_CMD_INIT : Nat × Nat := (0, 1)
def TM_EVT_LATE_DROP : Nat × Nat := (0, 1)
def TM_EVT_NOCREDIT_DROP : Nat × Nat := (1, 1)
def TM_EVT_CREDIT_OVERRUN : Nat × Nat := (2, 1)
def TM_EVT_Q_WM : Nat × Nat := (3, 1)
def TM_EVT_POL_DROP : Nat × Nat := (4, 1)
def TM_EVT_MISROUTE : Nat × Nat := (5, 1)
def TM_EVT_NO_LAUNCH : Nat × Nat := (6, 1)
def TM_EVT_NO_DELIVER : Nat × Nat := (7, 1)
def TM_EVT_WRITE_REFUSED : Nat × Nat := (8, 1)
def TM_FCO_CFG_INV : Nat × Nat := (0, 8)
def TM_FCO_STATE_ASSERTED : Nat × Nat := (0, 8)
def TM_PORT_FWD_BASE : Nat × Nat := (0, 8)
def TM_PORT_DEF_CLASS : Nat × Nat := (8, 3)
def TM_PORT_DEF_POL : Nat × Nat := (11, 8)
def TM_PORT_DEF_POL_EN : Nat × Nat := (19, 1)
def TM_Q_CFG_EN : Nat × Nat := (0, 1)
def TM_Q_CFG_MODE : Nat × Nat := (1, 1)
def TM_Q_CFG_CLASS : Nat × Nat := (2, 3)
def TM_Q_CFG_OUT : Nat × Nat := (5, 3)
def TM_Q_CFG_CAP : Nat × Nat := (8, 10)
def TM_Q_WEIGHT_WEIGHT : Nat × Nat := (0, 16)
def TM_Q_WEIGHT_BURST_US : Nat × Nat := (16, 8)
def TM_Q_RATE_RATE_KBPS : Nat × Nat := (0, 24)
def TM_Q_LT_WINDOW : Nat × Nat := (0, 16)
def TM_Q_LT_TB : Nat × Nat := (16, 2)
def TM_Q_WM_WM_HI : Nat × Nat := (0, 10)
def TM_Q_WM_WM_LO : Nat × Nat := (16, 10)
def TM_Q_WM_FCO_SEL : Nat × Nat := (26, 3)
def TM_Q_WM_FCO_EN : Nat × Nat := (29, 1)
def TM_Q_STAT_DEPTH : Nat × Nat := (0, 10)
def TM_Q_STAT_WM_STATE : Nat × Nat := (10, 1)
def TM_Q_STAT_WM_HI_SEEN : Nat × Nat := (11, 1)
def TM_Q_STAT_WM_LO_SEEN : Nat × Nat := (12, 1)
def TM_Q_STAT_CROSS_CLR : Nat × Nat := (13, 1)
def TM_Q_STAT_WM_CROSS : Nat × Nat := (16, 16)
def POL_CFG_CIR_KBPS : Nat × Nat := (0, 24)
def POL_CFG_EN : Nat × Nat := (31, 1)
def POL_CBS_CBS : Nat × Nat := (0, 24)
def POL_TOKENS : Nat × Nat := (0, 24)
def FLOW_CFG_DEST : Nat × Nat := (0, 8)
def FLOW_CFG_GROUP : Nat × Nat := (8, 1)
def FLOW_CFG_KIND : Nat × Nat := (9, 2)
def FLOW_CFG_QUEUE : Nat × Nat := (16, 8)
def FLOW_RX_RX_QUEUE : Nat × Nat := (0, 8)
def FLOW_RX_RX_EN : Nat × Nat := (8, 1)
def SWC_CTL_EN : Nat × Nat := (0, 1)
def SWC_CTL_AUDIT_EN : Nat × Nat := (1, 1)
def SWC_STAT_FREE_CELLS : Nat × Nat := (0, 14)
def SWC_STAT_AUDIT_BUSY : Nat × Nat := (16, 1)
def SWC_STAT_AUDIT_EPOCH : Nat × Nat := (17, 1)
def SWC_STAT_FENCE_PEND : Nat × Nat := (18, 3)
def SWC_GEN_GEN_ROUTE : Nat × Nat := (0, 4)
def SWC_GEN_GEN_GROUP : Nat × Nat := (4, 4)
def SWC_GEN_GEN_MAC : Nat × Nat := (8, 4)
def SWC_BUF_CFG_LOW_CELLS : Nat × Nat := (0, 14)
def SWC_AUDIT_CFG_PERIOD_MS : Nat × Nat := (0, 10)
def SWC_EVT_STOMP_RX : Nat × Nat := (0, 1)
def SWC_EVT_STOMP_TX : Nat × Nat := (1, 1)
def SWC_EVT_FCS_BAD : Nat × Nat := (2, 1)
def SWC_EVT_NOBUF : Nat × Nat := (3, 1)
def SWC_EVT_BUF_LOW : Nat × Nat := (4, 1)
def SWC_EVT_LEAK : Nat × Nat := (5, 1)
def SWC_EVT_FENCE_DONE : Nat × Nat := (6, 1)
def SWC_EVT_MAC_FULL : Nat × Nat := (7, 1)
def SWC_EVT_OVERSIZE : Nat × Nat := (8, 1)
def SWC_EVT_WRITE_REFUSED : Nat × Nat := (9, 1)
def SWC_P_CFG_CT_EN : Nat × Nat := (0, 1)
def SWC_P_CFG_LEARN_EN : Nat × Nat := (1, 1)
def SWC_P_CFG_FLOOD_MASK : Nat × Nat := (4, 7)
def SWC_P_CFG_IN_LIMIT : Nat × Nat := (12, 14)
def SWC_P_STAT_IN_CELLS : Nat × Nat := (0, 14)
def SWC_GEN_CNT_COUNT : Nat × Nat := (0, 14)
def SWC_ROUTE_EN : Nat × Nat := (0, 1)
def SWC_ROUTE_P2_COPY : Nat × Nat := (1, 1)
def SWC_ROUTE_POL_EN : Nat × Nat := (2, 1)
def SWC_ROUTE_POL : Nat × Nat := (3, 8)
def SWC_GROUP_EN : Nat × Nat := (0, 1)
def SWC_GROUP_P2_COPY : Nat × Nat := (1, 1)
def SWC_GROUP_POL_EN : Nat × Nat := (2, 1)
def SWC_GROUP_POL : Nat × Nat := (3, 8)
def SWC_MAC_HI_MAC_HI : Nat × Nat := (0, 16)
def SWC_MAC_HI_VID : Nat × Nat := (16, 12)
def SWC_MAC_DATA_PORTS : Nat × Nat := (0, 7)
def SWC_MAC_DATA_STATIC : Nat × Nat := (7, 1)
def SWC_MAC_DATA_VALID : Nat × Nat := (8, 1)
def SWC_MAC_DATA_POL_EN : Nat × Nat := (9, 1)
def SWC_MAC_DATA_POL : Nat × Nat := (10, 8)
def SWC_MAC_CMD_OP : Nat × Nat := (0, 2)
def SWC_MAC_CMD_GO : Nat × Nat := (2, 1)
def SWC_MAC_CMD_FOUND : Nat × Nat := (3, 1)
def SWC_MAC_CMD_FULL : Nat × Nat := (4, 1)
def SWC_MAC_CMD_WAY : Nat × Nat := (12, 2)
def SWC_MAC_CMD_SET : Nat × Nat := (16, 10)
def SWC_MAC_AGE_AGE_S : Nat × Nat := (0, 16)
def RING_CTL_EN : Nat × Nat := (0, 1)
def RING_CTL_HSR_EN : Nat × Nat := (1, 1)
def RING_CTL_P2_NRP_IN : Nat × Nat := (2, 1)
def RING_CFG_ETHERTYPE : Nat × Nat := (0, 16)
def RING_CFG_VER_MIN : Nat × Nat := (16, 2)
def RING_CFG_VER_MAX : Nat × Nat := (18, 2)
def RING_CFG_LT_TB : Nat × Nat := (20, 2)
def RING_CFG_HOPS_INIT : Nat × Nat := (22, 8)
def RING_DD_CFG_DD_WINDOW : Nat × Nat := (0, 15)
def RING_DD_CFG_DD_AGE_US : Nat × Nat := (16, 14)
def RING_PAR_CFG_SRC_AGE_MS : Nat × Nat := (0, 10)
def RING_PAR_CFG_PARADE_WAIT_MS : Nat × Nat := (10, 10)
def RING_PAR_CFG_PARADE_TMO_MS : Nat × Nat := (20, 10)
def RING_MAC_HI_MAC_HI : Nat × Nat := (0, 16)
def RING_DA_LO_DA_LO : Nat × Nat := (0, 8)
def RING_STAT_NODE_ADDR : Nat × Nat := (0, 8)
def RING_STAT_STRAPPED : Nat × Nat := (8, 1)
def RING_STAT_LEADER : Nat × Nat := (9, 1)
def RING_STAT_QUIET : Nat × Nat := (10, 1)
def RING_STAT_HOLDOFF : Nat × Nat := (11, 1)
def RING_STAT_PARADE_GEN : Nat × Nat := (12, 4)
def RING_STAT_STATE : Nat × Nat := (16, 2)
def RING_STAT_LEADER_ADDR : Nat × Nat := (24, 8)
def RING_EVT_LINK_CHANGE : Nat × Nat := (0, 1)
def RING_EVT_STATE_CHANGE : Nat × Nat := (1, 1)
def RING_EVT_PARADE_DONE : Nat × Nat := (2, 1)
def RING_EVT_PARADE_FAIL : Nat × Nat := (3, 1)
def RING_EVT_ADDR_CONFLICT : Nat × Nat := (4, 1)
def RING_EVT_VER_INCOMPAT : Nat × Nat := (5, 1)
def RING_EVT_DD_OLD : Nat × Nat := (6, 1)
def RING_EVT_HOP_DROP : Nat × Nat := (7, 1)
def RING_EVT_BAD_HDR : Nat × Nat := (8, 1)
def RING_EVT_GEN_DROP : Nat × Nat := (9, 1)
def RING_EVT_WRITE_REFUSED : Nat × Nat := (10, 1)
def RING_EVT_KEY_CLASH : Nat × Nat := (11, 1)
def RING_P_CFG_MODE : Nat × Nat := (0, 2)
def RING_P_CFG_AN_EN : Nat × Nat := (2, 1)
def RING_P_STAT_LINK : Nat × Nat := (0, 2)
def RING_P_STAT_VER : Nat × Nat := (2, 2)
def RING_P_STAT_PEER_ADDR : Nat × Nat := (4, 8)
def RING_P_STAT_PEER_VER_MIN : Nat × Nat := (12, 2)
def RING_P_STAT_PEER_VER_MAX : Nat × Nat := (14, 2)
def RING_P_STAT_PEER_TWIN : Nat × Nat := (16, 1)
def RING_P_STAT_PAUSE_RX : Nat × Nat := (17, 1)
def RING_NODE_VER_MAX : Nat × Nat := (0, 2)
def RING_NODE_PRESENT : Nat × Nat := (2, 1)
def RING_NODE_HEARD : Nat × Nat := (3, 1)
def RING_NODE_TWIN : Nat × Nat := (4, 1)
def RING_NODE_STRAPPED : Nat × Nat := (5, 1)
def TIME_CTL_TC_EN : Nat × Nat := (0, 1)
def TIME_EVT_TIME_JUMP_REFUSED : Nat × Nat := (0, 4)
def TIME_EVT_STEPPED : Nat × Nat := (4, 4)
def TIME_EVT_STATE_CHANGE : Nat × Nat := (8, 4)
def TIME_EVT_PERMIT_EXPIRED : Nat × Nat := (12, 4)
def TIME_EVT_GM_CHANGE : Nat × Nat := (16, 2)
def TIME_EVT_EVQ_WM : Nat × Nat := (18, 1)
def TIME_EVT_EVQ_LOST : Nat × Nat := (19, 1)
def TIME_EVT_PPO_MISSED : Nat × Nat := (20, 1)
def TIME_EVT_WRITE_REFUSED : Nat × Nat := (21, 1)
def TB_JUMP_JUMP_NS : Nat × Nat := (0, 30)
def TB_SRC_SRC : Nat × Nat := (0, 3)
def TB_SRC_IRIG_LANE : Nat × Nat := (3, 7)
def TB_SRC_AUTO_SLEW : Nat × Nat := (10, 1)
def TB_SRC_PROFILE : Nat × Nat := (11, 1)
def TB_SRC_PTP_DOMAIN : Nat × Nat := (16, 8)
def TB_SERVO_SLEW_MAX : Nat × Nat := (0, 10)
def TB_SERVO_LOCK_NS : Nat × Nat := (10, 16)
def TB_STAT_STATE : Nat × Nat := (0, 3)
def TB_STAT_SET : Nat × Nat := (3, 1)
def TB_STAT_PERMIT : Nat × Nat := (4, 1)
def TB_STAT_SLEWING : Nat × Nat := (5, 1)
def TB_STAT_REF_FALLBACK : Nat × Nat := (6, 1)
def TB_NOW_NS_NOW_NS : Nat × Nat := (0, 30)
def TB_NOW_SEC_HI_NOW_SEC_HI : Nat × Nat := (0, 16)
def TIME_P_ADJ_RX_ADJ_PS : Nat × Nat := (0, 16)
def TIME_P_ADJ_TX_ADJ_PS : Nat × Nat := (16, 16)
def TIME_ETI_TB : Nat × Nat := (0, 2)
def TIME_ETI_RISE : Nat × Nat := (2, 1)
def TIME_ETI_FALL : Nat × Nat := (3, 1)
def TIME_ETI_FILT : Nat × Nat := (4, 8)
def TIME_ETI_ADJ_PS : Nat × Nat := (12, 16)
def EVQ_CFG_WM_HI : Nat × Nat := (0, 13)
def EVQ_CFG_FCO_SEL : Nat × Nat := (13, 3)
def EVQ_CFG_WM_LO : Nat × Nat := (16, 13)
def EVQ_CFG_FCO_EN : Nat × Nat := (29, 1)
def EVQ_STAT_DEPTH : Nat × Nat := (0, 13)
def EVQ_STAT_WM_STATE : Nat × Nat := (13, 1)
def EVQ_STAT_WM_HI_SEEN : Nat × Nat := (14, 1)
def EVQ_STAT_WM_LO_SEEN : Nat × Nat := (15, 1)
def EVQ_STAT_WM_CROSS : Nat × Nat := (16, 16)
def EVQ_CMD_CROSS_CLR : Nat × Nat := (0, 1)
def EVQ_CMD_FLUSH : Nat × Nat := (1, 1)
def PPO_CFG_EN : Nat × Nat := (0, 1)
def PPO_CFG_PERIODIC : Nat × Nat := (1, 1)
def PPO_CFG_POL : Nat × Nat := (2, 1)
def PPO_CFG_TB : Nat × Nat := (3, 2)
def PPO_CFG_SQUELCH : Nat × Nat := (5, 1)
def PPO_START_HI_START_HI : Nat × Nat := (0, 8)
def PPO_START_HI_START_FRAC : Nat × Nat := (8, 8)
def PPO_ADJ_ADJ_PS : Nat × Nat := (0, 16)
def PPO_STAT_ARMED : Nat × Nat := (0, 1)
def PPO_STAT_ACTIVE : Nat × Nat := (1, 1)
def PPO_STAT_MISSED : Nat × Nat := (2, 1)
def PPO_STAT_COUNT : Nat × Nat := (16, 16)
def PPSO_CFG_EN : Nat × Nat := (0, 1)
def PPSO_CFG_TB : Nat × Nat := (1, 2)
def PPSO_CFG_SQUELCH : Nat × Nat := (3, 1)
def PPSO_CFG_WIDTH_US : Nat × Nat := (4, 20)
def PPSO_ADJ_ADJ_PS : Nat × Nat := (0, 16)
def TWIN_CFG_T_MISS_US : Nat × Nat := (0, 5)
def TWIN_CFG_T_REVERT_S : Nat × Nat := (8, 12)
def TWIN_CFG_AUTO_REVERT : Nat × Nat := (20, 1)
def TWIN_CFG_AUTO_RESYNC : Nat × Nat := (21, 1)
def TWIN_CFG_REVERT_HOLD : Nat × Nat := (22, 1)
def TWIN_TMO_JOIN_MS : Nat × Nat := (0, 10)
def TWIN_TMO_SYNC_TMO_MS : Nat × Nat := (16, 10)
def TWIN_STAT_ROLE : Nat × Nat := (0, 3)
def TWIN_STAT_PREF : Nat × Nat := (3, 1)
def TWIN_STAT_PEER_PRESENT : Nat × Nat := (4, 1)
def TWIN_STAT_HB_SER_OK : Nat × Nat := (5, 1)
def TWIN_STAT_HB_LVDS_OK : Nat × Nat := (6, 1)
def TWIN_STAT_DEGRADED : Nat × Nat := (7, 1)
def TWIN_STAT_NOT_IN_STEP : Nat × Nat := (8, 1)
def TWIN_STAT_REVERT_PEND : Nat × Nat := (9, 1)
def TWIN_STAT_DIGEST_RUN : Nat × Nat := (10, 2)
def TWIN_LAG_LAG_MAX : Nat × Nat := (0, 16)
def TWIN_LAG_LAG_CLR : Nat × Nat := (16, 1)
def TWIN_EVT_ROLE_CHANGE : Nat × Nat := (0, 1)
def TWIN_EVT_DEGRADED : Nat × Nat := (1, 1)
def TWIN_EVT_NOT_IN_STEP : Nat × Nat := (2, 1)
def TWIN_EVT_SYNC_DONE : Nat × Nat := (3, 1)
def TWIN_EVT_JNL_OVERFLOW : Nat × Nat := (4, 1)
def TWIN_EVT_PEER_FAIL : Nat × Nat := (5, 1)
def TWIN_EVT_DUAL_ACTIVE : Nat × Nat := (6, 1)
def TWIN_EVT_PREF_CLASH : Nat × Nat := (7, 1)
def TWIN_EVT_IMAGE_MISMATCH : Nat × Nat := (8, 1)
def TWIN_EVT_ECC_UNCORR : Nat × Nat := (9, 1)
def USB_CTL_EN : Nat × Nat := (0, 1)
def USB_CTL_ATTACH : Nat × Nat := (1, 1)
def USB_CTL_FN_EN : Nat × Nat := (2, 1)
def USB_CTL_PWRON2PG : Nat × Nat := (8, 8)
def USB_STAT_UP_VBUS : Nat × Nat := (0, 1)
def USB_STAT_UP_SPEED : Nat × Nat := (1, 2)
def USB_STAT_HUB_STATE : Nat × Nat := (3, 3)
def USB_STAT_HUB_RWAKE : Nat × Nat := (6, 1)
def USB_STAT_HUB_ADDR : Nat × Nat := (7, 7)
def USB_STAT_FN_STATE : Nat × Nat := (14, 3)
def USB_STAT_FN_RWAKE : Nat × Nat := (17, 1)
def USB_STAT_FN_ADDR : Nat × Nat := (18, 7)
def USB_STAT_HOST_PATH : Nat × Nat := (25, 1)
def USB_EP_CHECK_EP : Nat × Nat := (0, 4)
def USB_EP_CHECK_DIR : Nat × Nat := (4, 1)
def USB_EP_CHECK_REASON : Nat × Nat := (5, 3)
def USB_EVT_BUS_RESET : Nat × Nat := (0, 1)
def USB_EVT_SUSPEND : Nat × Nat := (1, 1)
def USB_EVT_RESUME : Nat × Nat := (2, 1)
def USB_EVT_WAKE_SENT : Nat × Nat := (3, 1)
def USB_EVT_WAKE_WITHDRAWN : Nat × Nat := (4, 1)
def USB_EVT_OVER_CURRENT : Nat × Nat := (5, 1)
def USB_EVT_PORT_CHANGE : Nat × Nat := (6, 1)
def USB_EVT_EP_HALT : Nat × Nat := (7, 1)
def USB_EVT_CMD_DISCARDED : Nat × Nat := (8, 1)
def USB_EVT_RSP_DROPPED : Nat × Nat := (9, 1)
def USB_EVT_VBUS_CHANGE : Nat × Nat := (10, 1)
def USB_EVT_WRITE_REFUSED : Nat × Nat := (11, 1)
def USB_P_CFG_PWR_NET : Nat × Nat := (0, 4)
def USB_P_CFG_PWR_NET_EN : Nat × Nat := (4, 1)
def USB_P_STAT_STATE : Nat × Nat := (0, 4)
def USB_P_STAT_SPEED : Nat × Nat := (4, 2)
def USB_P_STAT_OVER_CURRENT : Nat × Nat := (6, 1)
def USB_P_STAT_CHANGE : Nat × Nat := (16, 5)
def USB_EP_CFG_EN : Nat × Nat := (0, 1)
def USB_EP_CFG_TYPE : Nat × Nat := (1, 2)
def USB_EP_CFG_MPS : Nat × Nat := (3, 11)
def USB_EP_CFG_BASE : Nat × Nat := (14, 8)
def USB_EP_CFG_NBUF2 : Nat × Nat := (22, 1)
def USB_EP_CFG_SVC : Nat × Nat := (23, 3)
def USB_EP_CFG_QUEUE : Nat × Nat := (26, 2)
def USB_EP_STAT_HALTED : Nat × Nat := (0, 1)
def USB_EP_STAT_TOGGLE : Nat × Nat := (1, 1)
def USB_EP_STAT_FULL_BUFS : Nat × Nat := (2, 2)
def NET_N_CFG_PRES_EN : Nat × Nat := (0, 1)
def NET_N_CFG_PRES_INV : Nat × Nat := (1, 1)
def NET_N_CFG_RETRY_MAX : Nat × Nat := (2, 4)
def NET_N_CFG_SHORT_MV : Nat × Nat := (8, 8)
def NET_N_CFG_RAMP_UA : Nat × Nat := (16, 5)
def NET_N_VWIN_UV : Nat × Nat := (0, 8)
def NET_N_VWIN_OV : Nat × Nat := (8, 8)
def NET_N_TIME_INSERT_MS : Nat × Nat := (0, 10)
def NET_N_TIME_RAMP_TMO_MS : Nat × Nat := (16, 10)
def NET_N_RETRY_RETRY_MS : Nat × Nat := (0, 16)
def NET_N_RETRY_SOA : Nat × Nat := (16, 10)
def NET_N_GATE_GRISE : Nat × Nat := (0, 8)
def NET_N_GATE_DS_MS : Nat × Nat := (8, 10)
def NET_N_ILIM_ILIM : Nat × Nat := (0, 10)
def NET_N_ILIM_SHUNT_UOHM : Nat × Nat := (16, 16)
def NET_N_STAT_STATE : Nat × Nat := (0, 4)
def NET_N_STAT_CAUSE : Nat × Nat := (4, 4)
def NET_N_STAT_RETRIES : Nat × Nat := (8, 4)
def NET_N_STAT_PG : Nat × Nat := (12, 1)
def NET_N_STAT_PRESENT : Nat × Nat := (13, 1)
def NET_N_STAT_USB_OWNED : Nat × Nat := (14, 1)
def NET_N_STAT_CURVE_PT : Nat × Nat := (16, 3)
def NET_N_V_VOUT_MV : Nat × Nat := (0, 16)
def NET_N_V_VS_MV : Nat × Nat := (16, 16)
def NET_N_VGS_VGS : Nat × Nat := (0, 8)
def NET_N_EVT_STATE_CHANGE : Nat × Nat := (0, 1)
def NET_N_EVT_TRIP : Nat × Nat := (1, 1)
def NET_N_EVT_LATCHED : Nat × Nat := (2, 1)
def NET_N_EVT_PG_CHANGE : Nat × Nat := (3, 1)
def NET_N_EVT_PRES_CHANGE : Nat × Nat := (4, 1)
def NET_N_EVT_TEST_DONE : Nat × Nat := (5, 1)
def NET_N_EVT_WRITE_REFUSED : Nat × Nat := (6, 1)
def NET_N_CURVE_LEVEL : Nat × Nat := (0, 10)
def NET_N_CURVE_T_MANT : Nat × Nat := (10, 10)
def NET_N_CURVE_T_EXP : Nat × Nat := (20, 4)
def NET_N_CURVE_EN : Nat × Nat := (31, 1)
def NET_N_TEST_DONE : Nat × Nat := (0, 1)
def NET_N_TEST_PASS : Nat × Nat := (1, 1)
def NET_N_TEST_OFF_FAIL : Nat × Nat := (2, 1)
def NET_N_TEST_ON_FAIL : Nat × Nat := (3, 1)
def NET_N_TEST_FALL_10NS : Nat × Nat := (8, 8)
def NET_N_TEST_RISE_US : Nat × Nat := (16, 16)
def NET_EVT_LINK_LOST : Nat × Nat := (0, 1)
def NET_EVT_HELD_DIFF : Nat × Nat := (1, 1)
def NET_EVT_OSC_FALLBACK : Nat × Nat := (2, 1)
def NET_PEND : Nat × Nat := (0, 16)
def NET_STAT_VIN_MV : Nat × Nat := (0, 16)
def NET_STAT_OSC : Nat × Nat := (16, 1)
def NET_STAT_HOLD : Nat × Nat := (17, 1)
def NET_STAT_LINK_OK : Nat × Nat := (18, 1)
def GLB_ID_PART : Nat × Nat := (0, 16)
def GLB_ID_STEPPING : Nat × Nat := (16, 8)
def GLB_STRAPS_NODE_ADDR : Nat × Nat := (0, 8)
def GLB_STRAPS_PARADE_LEAD : Nat × Nat := (8, 1)
def GLB_STRAPS_TWIN_EN : Nat × Nat := (9, 1)
def GLB_STRAPS_TWIN_PREF : Nat × Nat := (10, 1)
def GLB_STRAPS_BOOT_MODE : Nat × Nat := (11, 2)
def GLB_STRAPS_NET_HOLD : Nat × Nat := (13, 1)
def GLB_STRAPS_HOST_SEL : Nat × Nat := (14, 2)
def GLB_BOOT_READY : Nat × Nat := (0, 1)
def GLB_BOOT_BOOT_SLOT : Nat × Nat := (1, 1)
def GLB_BOOT_FALLBACK : Nat × Nat := (2, 1)
def GLB_BOOT_RECOVERY : Nat × Nat := (3, 1)
def GLB_BOOT_UNSECURED : Nat × Nat := (4, 1)
def GLB_BOOT_IDENT_BAD : Nat × Nat := (5, 1)
def GLB_BOOT_SCRIPT_FAIL : Nat × Nat := (6, 1)
def GLB_BOOT_STAGE_OK : Nat × Nat := (7, 1)
def GLB_BOOT_RESULT_A : Nat × Nat := (8, 4)
def GLB_BOOT_RESULT_B : Nat × Nat := (12, 4)
def GLB_BOOT_FALLBACK_WHY : Nat × Nat := (16, 2)
def GLB_SCRIPT_ERR_SECTION : Nat × Nat := (0, 6)
def GLB_SCRIPT_ERR_STATUS : Nat × Nat := (8, 8)
def GLB_SCRIPT_ERR_RECORD : Nat × Nat := (16, 16)
def GLB_RESET_CAUSE_CAUSE : Nat × Nat := (0, 4)
def GLB_RESET_CAUSE_WARM : Nat × Nat := (4, 1)
def GLB_RESET_CAUSE_WD_RUN : Nat × Nat := (5, 2)
def GLB_CLK_CTL_REF_TOL_PPM : Nat × Nat := (0, 10)
def GLB_CLK_CTL_AUTO_RETURN : Nat × Nat := (10, 1)
def GLB_CLK_CTL_RETURN_NOW : Nat × Nat := (11, 1)
def GLB_CLK_CTL_RETURN_S : Nat × Nat := (16, 8)
def GLB_CLK_STAT_SRC : Nat × Nat := (0, 2)
def GLB_CLK_STAT_PLL_LOCK : Nat × Nat := (2, 1)
def GLB_CLK_STAT_REF_OK : Nat × Nat := (3, 1)
def GLB_EVT_REF_LOST : Nat × Nat := (0, 1)
def GLB_EVT_REF_RESTORED : Nat × Nat := (1, 1)
def GLB_EVT_HOLDOVER : Nat × Nat := (2, 1)
def GLB_EVT_PLL_UNLOCK : Nat × Nat := (3, 1)
def GLB_EVT_FALLBACK : Nat × Nat := (4, 1)
def GLB_EVT_SCRIPT_FAIL : Nat × Nat := (5, 1)
def GLB_EVT_STAGED : Nat × Nat := (6, 1)
def GLB_EVT_WRITE_REFUSED : Nat × Nat := (7, 1)
def GLB_KEY_LOCKED_KEY_LOCKED : Nat × Nat := (0, 1)

end Sys2Proof.Machine.F
end

