-- ==== Sys2Proof/Machine/RegMap.lean ====
section
/-! DEFINITION. Access map of the W0 register words: for each word its address range, and for each field its access
code (R4) and reset value, taken from the register tables of the chapters. -/

namespace Sys2Proof.Machine

/-- Register access codes (R4). -/
inductive Access where
  | rw | ro | wo | w1c | sc | rwl
  deriving DecidableEq, Repr
/-- One field: lowest bit, width, access code. -/
structure RegField where
  lo : Nat
  width : Nat
  acc : Access
  deriving DecidableEq, Repr
/-- One register word or array of words: first address, first stride and count, second stride and count, fields. -/
structure RegRow where
  base : Nat
  stride : Nat
  count : Nat
  stride2 : Nat
  count2 : Nat
  fields : List RegField
  deriving DecidableEq, Repr

def rowsAt0_0 : List RegRow := [
  ⟨0x4010, 0x4, 1, 0x4, 1, [⟨0, 4, .w1c⟩, ⟨4, 1, .w1c⟩, ⟨5, 1, .w1c⟩, ⟨6, 1, .w1c⟩, ⟨7, 1, .w1c⟩, ⟨8, 1, .w1c⟩, ⟨9, 1, .w1c⟩, ⟨10, 1, .w1c⟩, ⟨11, 1, .w1c⟩]⟩,
  ⟨0x4014, 0x4, 1, 0x4, 1, [⟨0, 4, .rw⟩, ⟨4, 1, .rw⟩, ⟨5, 1, .rw⟩, ⟨6, 1, .rw⟩, ⟨7, 1, .rw⟩, ⟨8, 1, .rw⟩, ⟨9, 1, .rw⟩, ⟨10, 1, .rw⟩, ⟨11, 1, .rw⟩]⟩,
  ⟨0x4300, 0x4, 32, 0x4, 1, [⟨0, 5, .rw⟩, ⟨5, 1, .rw⟩, ⟨6, 1, .rw⟩]⟩,
  ⟨0x4080, 0x10, 4, 0x4, 1, [⟨0, 1, .rw⟩, ⟨1, 2, .rwl⟩]⟩,
  ⟨0x4084, 0x10, 4, 0x4, 1, [⟨0, 5, .rw⟩]⟩,
  ⟨0x4088, 0x10, 4, 0x4, 1, [⟨8, 5, .rw⟩]⟩,
  ⟨0x4200, 0x4, 1, 0x4, 1, [⟨0, 32, .rwl⟩]⟩,
  ⟨0x4220, 0x4, 1, 0x4, 1, [⟨0, 32, .rwl⟩]⟩,
  ⟨0x4204, 0x4, 1, 0x4, 1, [⟨0, 32, .rwl⟩]⟩,
  ⟨0x4224, 0x4, 1, 0x4, 1, [⟨0, 32, .rwl⟩]⟩,
  ⟨0x4208, 0x4, 1, 0x4, 1, [⟨0, 4, .rwl⟩]⟩,
  ⟨0x4228, 0x4, 1, 0x4, 1, [⟨0, 4, .rwl⟩]⟩,
  ⟨0x420C, 0x4, 1, 0x4, 1, [⟨0, 12, .rw⟩]⟩,
  ⟨0x422C, 0x4, 1, 0x4, 1, [⟨0, 12, .rw⟩]⟩,
  ⟨0x4240, 0x4, 1, 0x4, 1, [⟨0, 1, .rw⟩, ⟨1, 1, .rw⟩, ⟨2, 2, .rwl⟩]⟩,
  ⟨0x5000, 0x400, 4, 0x4, 128, [⟨0, 32, .rw⟩]⟩,
  ⟨0x6000, 0x4, 128, 0x4, 1, [⟨0, 32, .rw⟩]⟩,
  ⟨0x20, 0x4, 1, 0x4, 1, [⟨0, 10, .rw⟩, ⟨10, 1, .rw⟩, ⟨11, 1, .sc⟩, ⟨16, 8, .rw⟩]⟩,
  ⟨0x30, 0x4, 1, 0x4, 1, [⟨0, 1, .w1c⟩, ⟨1, 1, .w1c⟩, ⟨2, 1, .w1c⟩, ⟨3, 1, .w1c⟩, ⟨4, 1, .w1c⟩, ⟨5, 1, .w1c⟩, ⟨6, 1, .w1c⟩, ⟨7, 1, .w1c⟩]⟩,
  ⟨0x34, 0x4, 1, 0x4, 1, [⟨0, 1, .rw⟩, ⟨1, 1, .rw⟩, ⟨2, 1, .rw⟩, ⟨3, 1, .rw⟩, ⟨4, 1, .rw⟩, ⟨5, 1, .rw⟩, ⟨6, 1, .rw⟩, ⟨7, 1, .rw⟩]⟩]
def resetsAt0_0 : List (Nat × Nat × Nat × Nat × Nat × Nat) := [
  (0x4208, 0x4, 1, 0x4, 1, 0x4),
  (0x4228, 0x4, 1, 0x4, 1, 0x4),
  (0x0, 0x4, 1, 0x4, 1, 0x109640),
  (0x600C, 0x10, 32, 0x4, 1, 0x1),
  (0x20, 0x4, 1, 0x4, 1, 0xA04C8)]
def rowsAt1_0 : List RegRow := [
  ⟨0x8000, 0x4, 1, 0x4, 1, [⟨0, 1, .rw⟩]⟩,
  ⟨0x8010, 0x4, 1, 0x4, 1, [⟨0, 4, .w1c⟩, ⟨4, 4, .w1c⟩, ⟨8, 4, .w1c⟩, ⟨12, 4, .w1c⟩, ⟨16, 2, .w1c⟩, ⟨18, 1, .w1c⟩, ⟨19, 1, .w1c⟩, ⟨20, 1, .w1c⟩, ⟨21, 1, .w1c⟩]⟩,
  ⟨0x8014, 0x4, 1, 0x4, 1, [⟨0, 4, .rw⟩, ⟨4, 4, .rw⟩, ⟨8, 4, .rw⟩, ⟨12, 4, .rw⟩, ⟨16, 2, .rw⟩, ⟨18, 1, .rw⟩, ⟨19, 1, .rw⟩, ⟨20, 1, .rw⟩, ⟨21, 1, .rw⟩]⟩,
  ⟨0x8100, 0x40, 4, 0x4, 1, [⟨0, 30, .rw⟩]⟩,
  ⟨0x8104, 0x40, 4, 0x4, 1, [⟨0, 3, .rw⟩, ⟨3, 7, .rw⟩, ⟨10, 1, .rw⟩, ⟨11, 1, .rw⟩, ⟨16, 8, .rw⟩]⟩,
  ⟨0x8108, 0x40, 4, 0x4, 1, [⟨0, 32, .rw⟩]⟩,
  ⟨0x810C, 0x40, 4, 0x4, 1, [⟨0, 10, .rw⟩, ⟨10, 16, .rw⟩]⟩,
  ⟨0x8400, 0x10, 4, 0x4, 1, [⟨0, 16, .rw⟩, ⟨16, 16, .rw⟩]⟩,
  ⟨0x8404, 0x10, 4, 0x4, 1, [⟨0, 32, .rw⟩]⟩,
  ⟨0x8800, 0x4, 66, 0x4, 1, [⟨0, 2, .rw⟩, ⟨2, 1, .rw⟩, ⟨3, 1, .rw⟩, ⟨4, 8, .rw⟩, ⟨12, 16, .rw⟩]⟩,
  ⟨0x8A00, 0x4, 1, 0x4, 1, [⟨0, 13, .rw⟩, ⟨13, 3, .rw⟩, ⟨16, 13, .rw⟩, ⟨29, 1, .rw⟩]⟩,
  ⟨0x8A04, 0x4, 1, 0x4, 1, [⟨14, 1, .w1c⟩, ⟨15, 1, .w1c⟩]⟩,
  ⟨0x8A0C, 0x4, 1, 0x4, 1, [⟨0, 1, .sc⟩, ⟨1, 1, .sc⟩]⟩,
  ⟨0x8C00, 0x20, 16, 0x4, 1, [⟨0, 1, .rw⟩, ⟨1, 1, .rwl⟩, ⟨2, 1, .rwl⟩, ⟨3, 2, .rwl⟩, ⟨5, 1, .rwl⟩]⟩,
  ⟨0x8C04, 0x20, 16, 0x4, 1, [⟨0, 32, .rwl⟩]⟩,
  ⟨0x8C08, 0x20, 16, 0x4, 1, [⟨0, 8, .rwl⟩, ⟨8, 8, .rwl⟩]⟩,
  ⟨0x8C0C, 0x20, 16, 0x4, 1, [⟨0, 32, .rwl⟩]⟩,
  ⟨0x8C10, 0x20, 16, 0x4, 1, [⟨0, 32, .rwl⟩]⟩,
  ⟨0x8C14, 0x20, 16, 0x4, 1, [⟨0, 16, .rwl⟩]⟩,
  ⟨0x8C18, 0x20, 16, 0x4, 1, [⟨2, 1, .w1c⟩]⟩,
  ⟨0x8E00, 0x10, 2, 0x4, 1, [⟨0, 1, .rw⟩, ⟨1, 2, .rwl⟩, ⟨3, 1, .rwl⟩, ⟨4, 20, .rwl⟩]⟩,
  ⟨0x8E04, 0x10, 2, 0x4, 1, [⟨0, 16, .rwl⟩]⟩,
  ⟨0xC000, 0x4, 1, 0x4, 1, [⟨0, 5, .rw⟩, ⟨8, 12, .rw⟩, ⟨20, 1, .rw⟩, ⟨21, 1, .rw⟩]⟩,
  ⟨0xC004, 0x4, 1, 0x4, 1, [⟨0, 10, .rw⟩, ⟨16, 10, .rw⟩]⟩]
def rowsAt1_1 : List RegRow := [
  ⟨0xC00C, 0x4, 1, 0x4, 1, [⟨16, 1, .sc⟩]⟩,
  ⟨0xC020, 0x4, 1, 0x4, 1, [⟨0, 1, .w1c⟩, ⟨1, 1, .w1c⟩, ⟨2, 1, .w1c⟩, ⟨3, 1, .w1c⟩, ⟨4, 1, .w1c⟩, ⟨5, 1, .w1c⟩, ⟨6, 1, .w1c⟩, ⟨7, 1, .w1c⟩, ⟨8, 1, .w1c⟩, ⟨9, 1, .w1c⟩]⟩,
  ⟨0xC024, 0x4, 1, 0x4, 1, [⟨0, 1, .rw⟩, ⟨1, 1, .rw⟩, ⟨2, 1, .rw⟩, ⟨3, 1, .rw⟩, ⟨4, 1, .rw⟩, ⟨5, 1, .rw⟩, ⟨6, 1, .rw⟩, ⟨7, 1, .rw⟩, ⟨8, 1, .rw⟩, ⟨9, 1, .rw⟩]⟩]
def resetsAt1_0 : List (Nat × Nat × Nat × Nat × Nat × Nat) := [
  (0x8100, 0x40, 4, 0x4, 1, 0x2710),
  (0x810C, 0x40, 4, 0x4, 1, 0x3E864),
  (0x8A00, 0x4, 1, 0x4, 1, 0x4000C00),
  (0x8E00, 0x10, 2, 0x4, 1, 0x186A00),
  (0xC000, 0x4, 1, 0x4, 1, 0x300A04),
  (0xC004, 0x4, 1, 0x4, 1, 0x1F400C8)]
def rowsAt2_0 : List RegRow := [
  ⟨0x10000, 0x4, 1, 0x4, 1, [⟨0, 1, .rw⟩, ⟨1, 1, .rwl⟩, ⟨2, 1, .rwl⟩]⟩,
  ⟨0x10004, 0x4, 1, 0x4, 1, [⟨0, 16, .rwl⟩, ⟨16, 2, .rwl⟩, ⟨18, 2, .rwl⟩, ⟨20, 2, .rwl⟩, ⟨22, 8, .rwl⟩]⟩,
  ⟨0x10008, 0x4, 1, 0x4, 1, [⟨0, 15, .rwl⟩, ⟨16, 14, .rwl⟩]⟩,
  ⟨0x1000C, 0x4, 1, 0x4, 1, [⟨0, 10, .rwl⟩, ⟨10, 10, .rwl⟩, ⟨20, 10, .rwl⟩]⟩,
  ⟨0x10010, 0x4, 1, 0x4, 1, [⟨0, 32, .rwl⟩]⟩,
  ⟨0x10014, 0x4, 1, 0x4, 1, [⟨0, 16, .rwl⟩]⟩,
  ⟨0x10018, 0x4, 1, 0x4, 1, [⟨0, 32, .rwl⟩]⟩,
  ⟨0x1001C, 0x4, 1, 0x4, 1, [⟨0, 8, .rwl⟩]⟩,
  ⟨0x10040, 0x4, 1, 0x4, 1, [⟨0, 1, .w1c⟩, ⟨1, 1, .w1c⟩, ⟨2, 1, .w1c⟩, ⟨3, 1, .w1c⟩, ⟨4, 1, .w1c⟩, ⟨5, 1, .w1c⟩, ⟨6, 1, .w1c⟩, ⟨7, 1, .w1c⟩, ⟨8, 1, .w1c⟩, ⟨9, 1, .w1c⟩, ⟨10, 1, .w1c⟩, ⟨11, 1, .w1c⟩]⟩,
  ⟨0x10044, 0x4, 1, 0x4, 1, [⟨0, 1, .rw⟩, ⟨1, 1, .rw⟩, ⟨2, 1, .rw⟩, ⟨3, 1, .rw⟩, ⟨4, 1, .rw⟩, ⟨5, 1, .rw⟩, ⟨6, 1, .rw⟩, ⟨7, 1, .rw⟩, ⟨8, 1, .rw⟩, ⟨9, 1, .rw⟩, ⟨10, 1, .rw⟩, ⟨11, 1, .rw⟩]⟩,
  ⟨0x10100, 0x40, 4, 0x4, 1, [⟨0, 2, .rwl⟩, ⟨2, 1, .rwl⟩]⟩,
  ⟨0x10400, 0x4, 16, 0x4, 1, [⟨0, 32, .rw⟩]⟩]
def resetsAt2_0 : List (Nat × Nat × Nat × Nat × Nat × Nat) := [
  (0x10004, 0x4, 1, 0x4, 1, 0x3FCD88B6),
  (0x10008, 0x4, 1, 0x4, 1, 0x7D01000),
  (0x1000C, 0x4, 1, 0x4, 1, 0x140C80A),
  (0x10018, 0x4, 1, 0x4, 1, 0x34E5250),
  (0x10100, 0x40, 4, 0x4, 1, 0x4),
  (0x10400, 0x4, 16, 0x4, 1, 0xFFFFFFFF)]
def rowsAt3_0 : List RegRow := [
  ⟨0x18000, 0x4, 1, 0x4, 1, [⟨0, 1, .rw⟩, ⟨1, 1, .rw⟩]⟩,
  ⟨0x1800C, 0x4, 1, 0x4, 1, [⟨0, 14, .rw⟩]⟩,
  ⟨0x18010, 0x4, 1, 0x4, 1, [⟨0, 10, .rw⟩]⟩,
  ⟨0x18020, 0x4, 1, 0x4, 1, [⟨0, 1, .w1c⟩, ⟨1, 1, .w1c⟩, ⟨2, 1, .w1c⟩, ⟨3, 1, .w1c⟩, ⟨4, 1, .w1c⟩, ⟨5, 1, .w1c⟩, ⟨6, 1, .w1c⟩, ⟨7, 1, .w1c⟩, ⟨8, 1, .w1c⟩, ⟨9, 1, .w1c⟩]⟩,
  ⟨0x18024, 0x4, 1, 0x4, 1, [⟨0, 1, .rw⟩, ⟨1, 1, .rw⟩, ⟨2, 1, .rw⟩, ⟨3, 1, .rw⟩, ⟨4, 1, .rw⟩, ⟨5, 1, .rw⟩, ⟨6, 1, .rw⟩, ⟨7, 1, .rw⟩, ⟨8, 1, .rw⟩, ⟨9, 1, .rw⟩]⟩,
  ⟨0x18100, 0x20, 7, 0x4, 1, [⟨0, 1, .rw⟩, ⟨1, 1, .rw⟩, ⟨4, 7, .rw⟩, ⟨12, 14, .rw⟩]⟩,
  ⟨0x19000, 0x4, 256, 0x4, 1, [⟨0, 1, .rw⟩, ⟨1, 1, .rw⟩, ⟨2, 1, .rw⟩, ⟨3, 8, .rw⟩]⟩,
  ⟨0x19400, 0x4, 256, 0x4, 1, [⟨0, 1, .rw⟩, ⟨1, 1, .rw⟩, ⟨2, 1, .rw⟩, ⟨3, 8, .rw⟩]⟩,
  ⟨0x18400, 0x4, 1, 0x4, 1, [⟨0, 32, .rw⟩]⟩,
  ⟨0x18404, 0x4, 1, 0x4, 1, [⟨0, 16, .rw⟩, ⟨16, 12, .rw⟩]⟩,
  ⟨0x18408, 0x4, 1, 0x4, 1, [⟨0, 7, .rw⟩, ⟨7, 1, .rw⟩, ⟨8, 1, .rw⟩, ⟨9, 1, .rw⟩, ⟨10, 8, .rw⟩]⟩,
  ⟨0x1840C, 0x4, 1, 0x4, 1, [⟨0, 2, .rw⟩, ⟨2, 1, .sc⟩]⟩,
  ⟨0x18410, 0x4, 1, 0x4, 1, [⟨0, 16, .rw⟩]⟩]
def resetsAt3_0 : List (Nat × Nat × Nat × Nat × Nat × Nat) := [
  (0x18000, 0x4, 1, 0x4, 1, 0x2),
  (0x18004, 0x4, 1, 0x4, 1, 0x2000),
  (0x1800C, 0x4, 1, 0x4, 1, 0x200),
  (0x18010, 0x4, 1, 0x4, 1, 0xA),
  (0x18100, 0x20, 7, 0x4, 1, 0x800001),
  (0x18410, 0x4, 1, 0x4, 1, 0x12C)]
def rowsAt4_0 : List RegRow := [
  ⟨0x20010, 0x4, 1, 0x4, 1, [⟨0, 1, .w1c⟩, ⟨1, 1, .w1c⟩, ⟨2, 1, .w1c⟩, ⟨3, 1, .w1c⟩, ⟨4, 1, .w1c⟩, ⟨5, 1, .w1c⟩, ⟨6, 1, .w1c⟩, ⟨7, 1, .w1c⟩, ⟨8, 1, .w1c⟩]⟩,
  ⟨0x20014, 0x4, 1, 0x4, 1, [⟨0, 1, .rw⟩, ⟨1, 1, .rw⟩, ⟨2, 1, .rw⟩, ⟨3, 1, .rw⟩, ⟨4, 1, .rw⟩, ⟨5, 1, .rw⟩, ⟨6, 1, .rw⟩, ⟨7, 1, .rw⟩, ⟨8, 1, .rw⟩]⟩,
  ⟨0x20020, 0x4, 1, 0x4, 1, [⟨0, 8, .rw⟩]⟩,
  ⟨0x20100, 0x4, 7, 0x4, 1, [⟨0, 8, .rw⟩, ⟨8, 3, .rw⟩, ⟨11, 8, .rw⟩, ⟨19, 1, .rw⟩]⟩,
  ⟨0x21000, 0x20, 256, 0x4, 1, [⟨0, 1, .rw⟩, ⟨1, 1, .rwl⟩, ⟨2, 3, .rwl⟩, ⟨5, 3, .rwl⟩, ⟨8, 10, .rwl⟩]⟩,
  ⟨0x21004, 0x20, 256, 0x4, 1, [⟨0, 16, .rw⟩, ⟨16, 8, .rw⟩]⟩,
  ⟨0x21008, 0x20, 256, 0x4, 1, [⟨0, 24, .rw⟩]⟩,
  ⟨0x2100C, 0x20, 256, 0x4, 1, [⟨0, 16, .rw⟩, ⟨16, 2, .rwl⟩]⟩,
  ⟨0x21010, 0x20, 256, 0x4, 1, [⟨0, 10, .rwl⟩, ⟨16, 10, .rwl⟩, ⟨26, 3, .rwl⟩, ⟨29, 1, .rwl⟩]⟩,
  ⟨0x21014, 0x20, 256, 0x4, 1, [⟨11, 1, .w1c⟩, ⟨12, 1, .w1c⟩, ⟨13, 1, .sc⟩]⟩,
  ⟨0x21018, 0x20, 256, 0x4, 1, [⟨0, 32, .rwl⟩]⟩,
  ⟨0x25000, 0x10, 256, 0x4, 1, [⟨0, 24, .rw⟩, ⟨31, 1, .rw⟩]⟩,
  ⟨0x25004, 0x10, 256, 0x4, 1, [⟨0, 24, .rw⟩]⟩,
  ⟨0x26000, 0x10, 256, 0x4, 1, [⟨0, 8, .rw⟩, ⟨8, 1, .rw⟩, ⟨9, 2, .rw⟩, ⟨16, 8, .rw⟩]⟩,
  ⟨0x26004, 0x10, 256, 0x4, 1, [⟨0, 32, .rw⟩]⟩,
  ⟨0x26008, 0x10, 256, 0x4, 1, [⟨0, 8, .rw⟩, ⟨8, 1, .rw⟩]⟩]
def resetsAt4_0 : List (Nat × Nat × Nat × Nat × Nat × Nat) := [
  (0x21000, 0x20, 256, 0x4, 1, 0x4000),
  (0x21004, 0x20, 256, 0x4, 1, 0x1),
  (0x2100C, 0x20, 256, 0x4, 1, 0xC8),
  (0x21010, 0x20, 256, 0x4, 1, 0x100030),
  (0x21018, 0x20, 256, 0x4, 1, 0xF0000000)]
def rowsAt6_0 : List RegRow := [
  ⟨0x30004, 0x4, 1, 0x4, 1, [⟨0, 28, .rwl⟩, ⟨28, 2, .rwl⟩]⟩,
  ⟨0x30010, 0x4, 8, 0x4, 1, [⟨0, 16, .rwl⟩]⟩,
  ⟨0x30040, 0x4, 1, 0x4, 1, [⟨0, 1, .w1c⟩, ⟨1, 1, .w1c⟩, ⟨2, 1, .w1c⟩, ⟨3, 1, .w1c⟩, ⟨4, 1, .w1c⟩, ⟨5, 1, .w1c⟩, ⟨6, 1, .w1c⟩, ⟨7, 1, .w1c⟩, ⟨8, 1, .w1c⟩]⟩,
  ⟨0x30044, 0x4, 1, 0x4, 1, [⟨0, 1, .rw⟩, ⟨1, 1, .rw⟩, ⟨2, 1, .rw⟩, ⟨3, 1, .rw⟩, ⟨4, 1, .rw⟩, ⟨5, 1, .rw⟩, ⟨6, 1, .rw⟩, ⟨7, 1, .rw⟩, ⟨8, 1, .rw⟩]⟩,
  ⟨0x31000, 0x4, 1, 0x4, 1, [⟨2, 15, .rw⟩, ⟨31, 1, .rw⟩]⟩,
  ⟨0x31004, 0x4, 1, 0x4, 1, [⟨0, 32, .rw⟩]⟩,
  ⟨0x32000, 0x20, 256, 0x4, 1, [⟨0, 3, .rwl⟩, ⟨3, 1, .rwl⟩]⟩,
  ⟨0x32004, 0x20, 256, 0x4, 1, [⟨0, 32, .rwl⟩]⟩,
  ⟨0x32010, 0x20, 256, 0x4, 1, [⟨4, 1, .w1c⟩, ⟨5, 1, .w1c⟩]⟩,
  ⟨0x34000, 0x40, 256, 0x4, 16, [⟨0, 8, .rwl⟩, ⟨8, 3, .rwl⟩, ⟨11, 1, .rwl⟩]⟩]
def resetsAt6_0 : List (Nat × Nat × Nat × Nat × Nat × Nat) := [
  (0x30010, 0x4, 8, 0x4, 1, 0x1)]
def rowsAt7_0 : List RegRow := [
  ⟨0x38000, 0x4, 256, 0x4, 1, [⟨0, 32, .rw⟩]⟩,
  ⟨0x38400, 0x4, 256, 0x4, 1, [⟨0, 32, .rw⟩]⟩]
def resetsAt7_0 : List (Nat × Nat × Nat × Nat × Nat × Nat) := [
  (0x38440, 0x80, 8, 0x4, 1, 0xFFFFFFFE),
  (0x38420, 0x80, 8, 0x4, 1, 0xFFFFFFFD),
  (0x38400, 0x80, 8, 0x4, 1, 0xFFFFFFFC),
  (0x38040, 0x80, 8, 0x4, 1, 0xFFFFFFFE),
  (0x38020, 0x80, 8, 0x4, 1, 0xFFFFFFFD),
  (0x38000, 0x80, 8, 0x4, 1, 0xFFFFFFFC),
  (0x38000, 0x4, 256, 0x4, 1, 0xFFFFFFFF),
  (0x38400, 0x4, 256, 0x4, 1, 0xFFFFFFFF)]
def rowsAt8_0 : List RegRow := [
  ⟨0x40000, 0x100, 96, 0x4, 1, [⟨0, 4, .rwl⟩, ⟨4, 2, .rwl⟩, ⟨6, 2, .rwl⟩, ⟨8, 1, .rwl⟩]⟩,
  ⟨0x40008, 0x100, 96, 0x4, 1, [⟨0, 16, .rwl⟩, ⟨16, 4, .rwl⟩, ⟨20, 4, .rwl⟩]⟩,
  ⟨0x4000C, 0x100, 96, 0x4, 1, [⟨0, 4, .rwl⟩, ⟨4, 2, .rwl⟩, ⟨6, 1, .rwl⟩, ⟨7, 1, .rwl⟩, ⟨8, 1, .rwl⟩, ⟨9, 1, .rwl⟩, ⟨10, 1, .rwl⟩, ⟨11, 1, .rwl⟩, ⟨12, 1, .rwl⟩, ⟨13, 1, .rwl⟩, ⟨14, 1, .rwl⟩, ⟨15, 1, .rwl⟩, ⟨16, 8, .rwl⟩, ⟨24, 6, .rwl⟩, ⟨30, 1, .rwl⟩]⟩,
  ⟨0x40010, 0x100, 96, 0x4, 1, [⟨0, 7, .rwl⟩, ⟨7, 2, .rwl⟩, ⟨9, 3, .rwl⟩, ⟨12, 8, .rwl⟩, ⟨20, 6, .rwl⟩, ⟨26, 3, .rwl⟩]⟩,
  ⟨0x40014, 0x100, 96, 0x4, 1, [⟨0, 20, .rwl⟩]⟩,
  ⟨0x40018, 0x100, 96, 0x4, 1, [⟨0, 16, .rwl⟩, ⟨16, 16, .rwl⟩]⟩,
  ⟨0x4001C, 0x100, 96, 0x4, 1, [⟨0, 16, .rwl⟩]⟩,
  ⟨0x40020, 0x100, 96, 0x4, 1, [⟨0, 4, .rwl⟩, ⟨4, 1, .rwl⟩, ⟨5, 1, .rwl⟩, ⟨6, 1, .rwl⟩, ⟨7, 1, .rwl⟩]⟩,
  ⟨0x40024, 0x100, 96, 0x4, 1, [⟨0, 16, .rwl⟩]⟩,
  ⟨0x40028, 0x100, 96, 0x4, 1, [⟨0, 8, .rwl⟩, ⟨8, 8, .rwl⟩, ⟨16, 8, .rwl⟩]⟩,
  ⟨0x4002C, 0x100, 96, 0x4, 1, [⟨0, 1, .rwl⟩, ⟨1, 2, .rwl⟩, ⟨3, 2, .rwl⟩, ⟨5, 1, .rwl⟩, ⟨6, 1, .rwl⟩, ⟨7, 1, .rwl⟩, ⟨8, 1, .rwl⟩, ⟨9, 2, .rwl⟩, ⟨11, 2, .rwl⟩, ⟨13, 1, .rwl⟩, ⟨14, 1, .rwl⟩, ⟨15, 1, .rwl⟩, ⟨16, 1, .rwl⟩, ⟨17, 2, .rwl⟩, ⟨19, 2, .rwl⟩, ⟨21, 1, .rwl⟩, ⟨22, 1, .rwl⟩, ⟨23, 1, .rwl⟩]⟩,
  ⟨0x40030, 0x100, 96, 0x4, 1, [⟨0, 3, .rw⟩]⟩,
  ⟨0x40038, 0x100, 96, 0x4, 1, [⟨0, 7, .rwl⟩, ⟨8, 7, .rwl⟩, ⟨16, 3, .rwl⟩, ⟨19, 1, .rwl⟩, ⟨20, 1, .rwl⟩]⟩,
  ⟨0x4003C, 0x100, 96, 0x4, 1, [⟨8, 1, .w1c⟩, ⟨9, 1, .w1c⟩, ⟨10, 1, .sc⟩]⟩,
  ⟨0x40040, 0x100, 96, 0x4, 1, [⟨0, 32, .rwl⟩]⟩,
  ⟨0x40044, 0x100, 96, 0x4, 1, [⟨0, 7, .rwl⟩, ⟨8, 7, .rwl⟩, ⟨16, 3, .rwl⟩, ⟨19, 1, .rwl⟩, ⟨20, 1, .rwl⟩]⟩,
  ⟨0x40048, 0x100, 96, 0x4, 1, [⟨8, 1, .w1c⟩, ⟨9, 1, .w1c⟩, ⟨10, 1, .sc⟩]⟩,
  ⟨0x4004C, 0x100, 96, 0x4, 1, [⟨0, 32, .rwl⟩]⟩,
  ⟨0x40050, 0x100, 96, 0x4, 1, [⟨0, 1, .w1c⟩, ⟨1, 1, .w1c⟩, ⟨2, 1, .w1c⟩, ⟨3, 1, .w1c⟩, ⟨4, 1, .w1c⟩, ⟨5, 1, .w1c⟩, ⟨6, 1, .w1c⟩, ⟨7, 1, .w1c⟩, ⟨8, 1, .w1c⟩, ⟨9, 1, .w1c⟩, ⟨10, 1, .w1c⟩, ⟨11, 1, .w1c⟩]⟩,
  ⟨0x40054, 0x100, 96, 0x4, 1, [⟨0, 1, .rw⟩, ⟨1, 1, .rw⟩, ⟨2, 1, .rw⟩, ⟨3, 1, .rw⟩, ⟨4, 1, .rw⟩, ⟨5, 1, .rw⟩, ⟨6, 1, .rw⟩, ⟨7, 1, .rw⟩, ⟨8, 1, .rw⟩, ⟨9, 1, .rw⟩, ⟨10, 1, .rw⟩, ⟨11, 1, .rw⟩]⟩,
  ⟨0x46000, 0x4, 8, 0x4, 1, [⟨0, 2, .rw⟩]⟩,
  ⟨0x46300, 0x4, 1, 0x4, 1, [⟨0, 8, .w1c⟩]⟩,
  ⟨0x46304, 0x4, 1, 0x4, 1, [⟨0, 8, .rw⟩]⟩]
def resetsAt8_0 : List (Nat × Nat × Nat × Nat × Nat × Nat) := [
  (0x40008, 0x100, 96, 0x4, 1, 0x60051),
  (0x4000C, 0x100, 96, 0x4, 1, 0x408),
  (0x4002C, 0x100, 96, 0x4, 1, 0xC0C0C),
  (0x40038, 0x100, 96, 0x4, 1, 0x1030),
  (0x40040, 0x100, 96, 0x4, 1, 0xF0000000),
  (0x40044, 0x100, 96, 0x4, 1, 0x1030),
  (0x4004C, 0x100, 96, 0x4, 1, 0xF0000000)]
def rowsAt9_0 : List RegRow := [
  ⟨0x48000, 0x80, 32, 0x4, 1, [⟨0, 2, .rwl⟩, ⟨2, 1, .rwl⟩, ⟨3, 1, .rwl⟩, ⟨4, 1, .rwl⟩, ⟨5, 1, .rwl⟩, ⟨6, 5, .rwl⟩, ⟨11, 5, .rwl⟩, ⟨16, 6, .rwl⟩, ⟨22, 6, .rwl⟩, ⟨28, 1, .rwl⟩, ⟨29, 1, .rwl⟩]⟩,
  ⟨0x48008, 0x80, 32, 0x4, 1, [⟨0, 8, .rwl⟩, ⟨8, 16, .rwl⟩]⟩,
  ⟨0x4800C, 0x80, 32, 0x4, 1, [⟨0, 6, .rwl⟩, ⟨8, 4, .rwl⟩, ⟨16, 6, .rwl⟩, ⟨24, 4, .rwl⟩]⟩,
  ⟨0x48030, 0x80, 32, 0x4, 1, [⟨0, 7, .rwl⟩, ⟨8, 7, .rwl⟩, ⟨16, 3, .rwl⟩, ⟨19, 1, .rwl⟩, ⟨21, 1, .rwl⟩]⟩,
  ⟨0x48034, 0x80, 32, 0x4, 1, [⟨8, 1, .w1c⟩, ⟨9, 1, .w1c⟩, ⟨10, 1, .sc⟩]⟩,
  ⟨0x48040, 0x80, 32, 0x4, 1, [⟨0, 7, .rwl⟩, ⟨8, 7, .rwl⟩, ⟨16, 3, .rwl⟩, ⟨19, 1, .rwl⟩, ⟨21, 1, .rwl⟩]⟩,
  ⟨0x48044, 0x80, 32, 0x4, 1, [⟨8, 1, .w1c⟩, ⟨9, 1, .w1c⟩, ⟨10, 1, .sc⟩]⟩,
  ⟨0x48038, 0x80, 32, 0x4, 1, [⟨0, 32, .rwl⟩]⟩,
  ⟨0x4803C, 0x80, 32, 0x4, 1, [⟨0, 32, .wo⟩]⟩,
  ⟨0x48048, 0x80, 32, 0x4, 1, [⟨0, 32, .rwl⟩]⟩,
  ⟨0x48050, 0x80, 32, 0x4, 1, [⟨0, 1, .w1c⟩, ⟨1, 1, .w1c⟩, ⟨2, 1, .w1c⟩, ⟨3, 1, .w1c⟩, ⟨4, 1, .w1c⟩, ⟨5, 1, .w1c⟩, ⟨6, 1, .w1c⟩, ⟨7, 1, .w1c⟩]⟩,
  ⟨0x48054, 0x80, 32, 0x4, 1, [⟨0, 1, .rw⟩, ⟨1, 1, .rw⟩, ⟨2, 1, .rw⟩, ⟨3, 1, .rw⟩, ⟨4, 1, .rw⟩, ⟨5, 1, .rw⟩, ⟨6, 1, .rw⟩, ⟨7, 1, .rw⟩]⟩,
  ⟨0x49000, 0x4, 1, 0x4, 1, [⟨0, 8, .w1c⟩]⟩,
  ⟨0x49004, 0x4, 1, 0x4, 1, [⟨0, 8, .rw⟩]⟩,
  ⟨0x49024, 0x4, 1, 0x4, 1, [⟨0, 16, .wo⟩]⟩,
  ⟨0x49028, 0x4, 1, 0x4, 1, [⟨0, 16, .wo⟩]⟩,
  ⟨0x4A000, 0x400, 8, 0x4, 128, [⟨0, 16, .rwl⟩]⟩,
  ⟨0x4A204, 0x400, 8, 0x4, 1, [⟨0, 16, .wo⟩]⟩,
  ⟨0x4A208, 0x400, 8, 0x4, 1, [⟨0, 16, .wo⟩]⟩]
def resetsAt9_0 : List (Nat × Nat × Nat × Nat × Nat × Nat) := [
  (0x48008, 0x80, 32, 0x4, 1, 0x100),
  (0x48030, 0x80, 32, 0x4, 1, 0x206),
  (0x48040, 0x80, 32, 0x4, 1, 0x206)]
def rowsAt10_0 : List RegRow := [
  ⟨0x50000, 0x400, 16, 0x4, 1, [⟨0, 2, .rwl⟩, ⟨2, 1, .rwl⟩, ⟨3, 1, .rwl⟩, ⟨4, 2, .rwl⟩, ⟨6, 1, .rwl⟩, ⟨7, 1, .rwl⟩, ⟨8, 8, .rwl⟩, ⟨16, 1, .rwl⟩]⟩,
  ⟨0x50008, 0x400, 16, 0x4, 1, [⟨0, 8, .rwl⟩, ⟨8, 7, .rwl⟩, ⟨16, 7, .rwl⟩, ⟨23, 5, .rwl⟩]⟩,
  ⟨0x5000C, 0x400, 16, 0x4, 1, [⟨0, 5, .rwl⟩, ⟨8, 4, .rwl⟩, ⟨12, 4, .rwl⟩, ⟨16, 5, .rwl⟩]⟩,
  ⟨0x50010, 0x400, 16, 0x4, 1, [⟨0, 7, .rwl⟩, ⟨7, 1, .rwl⟩]⟩,
  ⟨0x50014, 0x400, 16, 0x4, 1, [⟨0, 16, .rwl⟩]⟩,
  ⟨0x50020, 0x400, 16, 0x4, 1, [⟨0, 7, .rwl⟩, ⟨8, 7, .rwl⟩, ⟨16, 3, .rwl⟩, ⟨19, 1, .rwl⟩, ⟨21, 1, .rwl⟩]⟩,
  ⟨0x50024, 0x400, 16, 0x4, 1, [⟨8, 1, .w1c⟩, ⟨9, 1, .w1c⟩, ⟨10, 1, .sc⟩]⟩,
  ⟨0x50030, 0x400, 16, 0x4, 1, [⟨0, 7, .rwl⟩, ⟨8, 7, .rwl⟩, ⟨16, 3, .rwl⟩, ⟨19, 1, .rwl⟩, ⟨21, 1, .rwl⟩]⟩,
  ⟨0x50034, 0x400, 16, 0x4, 1, [⟨8, 1, .w1c⟩, ⟨9, 1, .w1c⟩, ⟨10, 1, .sc⟩]⟩,
  ⟨0x50028, 0x400, 16, 0x4, 1, [⟨0, 32, .rwl⟩]⟩,
  ⟨0x5002C, 0x400, 16, 0x4, 1, [⟨0, 32, .wo⟩]⟩,
  ⟨0x50038, 0x400, 16, 0x4, 1, [⟨0, 32, .rwl⟩]⟩,
  ⟨0x50040, 0x400, 16, 0x4, 1, [⟨0, 1, .w1c⟩, ⟨1, 1, .w1c⟩, ⟨2, 1, .w1c⟩, ⟨3, 1, .w1c⟩, ⟨4, 1, .w1c⟩, ⟨5, 1, .w1c⟩, ⟨6, 1, .w1c⟩, ⟨7, 1, .w1c⟩, ⟨8, 1, .w1c⟩, ⟨9, 1, .w1c⟩, ⟨10, 1, .w1c⟩, ⟨11, 1, .w1c⟩]⟩,
  ⟨0x50044, 0x400, 16, 0x4, 1, [⟨0, 1, .rw⟩, ⟨1, 1, .rw⟩, ⟨2, 1, .rw⟩, ⟨3, 1, .rw⟩, ⟨4, 1, .rw⟩, ⟨5, 1, .rw⟩, ⟨6, 1, .rw⟩, ⟨7, 1, .rw⟩, ⟨8, 1, .rw⟩, ⟨9, 1, .rw⟩, ⟨10, 1, .rw⟩, ⟨11, 1, .rw⟩]⟩,
  ⟨0x50100, 0x400, 16, 0x8, 64, [⟨0, 29, .rw⟩, ⟨29, 1, .rw⟩, ⟨30, 1, .rw⟩, ⟨31, 1, .rw⟩]⟩,
  ⟨0x50104, 0x400, 16, 0x8, 64, [⟨0, 29, .rw⟩, ⟨29, 2, .rw⟩]⟩]
def resetsAt10_0 : List (Nat × Nat × Nat × Nat × Nat × Nat) := [
  (0x50000, 0x400, 16, 0x4, 1, 0xFF00),
  (0x50008, 0x400, 16, 0x4, 1, 0x8F0F3E),
  (0x5000C, 0x400, 16, 0x4, 1, 0x440D),
  (0x50020, 0x400, 16, 0x4, 1, 0x818),
  (0x50030, 0x400, 16, 0x4, 1, 0x1030),
  (0x50028, 0x400, 16, 0x4, 1, 0xF0000000),
  (0x50038, 0x400, 16, 0x4, 1, 0xF0000000)]
def rowsAt11_0 : List RegRow := [
  ⟨0x58000, 0x4, 1, 0x4, 1, [⟨0, 1, .w1c⟩, ⟨1, 1, .w1c⟩, ⟨2, 1, .w1c⟩, ⟨3, 1, .w1c⟩, ⟨4, 1, .w1c⟩, ⟨5, 1, .w1c⟩, ⟨6, 1, .w1c⟩]⟩,
  ⟨0x58004, 0x4, 1, 0x4, 1, [⟨0, 1, .rw⟩, ⟨1, 1, .rw⟩, ⟨2, 1, .rw⟩, ⟨3, 1, .rw⟩, ⟨4, 1, .rw⟩, ⟨5, 1, .rw⟩, ⟨6, 1, .rw⟩]⟩,
  ⟨0x58010, 0x4, 1, 0x4, 1, [⟨0, 3, .rw⟩, ⟨3, 1, .rw⟩]⟩,
  ⟨0x58100, 0x10, 4, 0x4, 1, [⟨0, 6, .rw⟩, ⟨6, 1, .rw⟩, ⟨7, 1, .rw⟩]⟩,
  ⟨0x58104, 0x10, 4, 0x4, 1, [⟨0, 32, .rw⟩]⟩,
  ⟨0x58108, 0x10, 4, 0x4, 1, [⟨0, 32, .rw⟩]⟩,
  ⟨0x5810C, 0x10, 4, 0x4, 1, [⟨0, 32, .rw⟩]⟩,
  ⟨0x58400, 0x20, 16, 0x4, 1, [⟨0, 1, .rw⟩, ⟨1, 1, .rwl⟩, ⟨2, 1, .rwl⟩, ⟨3, 3, .rwl⟩, ⟨8, 8, .rwl⟩, ⟨16, 4, .rwl⟩]⟩,
  ⟨0x58414, 0x20, 16, 0x4, 1, [⟨0, 1, .sc⟩]⟩]
def resetsAt11_0 : List (Nat × Nat × Nat × Nat × Nat × Nat) := [
  (0x58010, 0x4, 1, 0x4, 1, 0x3)]
def rowsAt12_0 : List RegRow := [
  ⟨0x60000, 0x4, 1, 0x4, 1, [⟨0, 1, .rw⟩, ⟨1, 1, .rw⟩, ⟨2, 1, .rwl⟩, ⟨8, 8, .rwl⟩]⟩,
  ⟨0x60010, 0x4, 1, 0x4, 1, [⟨0, 1, .w1c⟩, ⟨1, 1, .w1c⟩, ⟨2, 1, .w1c⟩, ⟨3, 1, .w1c⟩, ⟨4, 1, .w1c⟩, ⟨5, 1, .w1c⟩, ⟨6, 1, .w1c⟩, ⟨7, 1, .w1c⟩, ⟨8, 1, .w1c⟩, ⟨9, 1, .w1c⟩, ⟨10, 1, .w1c⟩, ⟨11, 1, .w1c⟩]⟩,
  ⟨0x60014, 0x4, 1, 0x4, 1, [⟨0, 1, .rw⟩, ⟨1, 1, .rw⟩, ⟨2, 1, .rw⟩, ⟨3, 1, .rw⟩, ⟨4, 1, .rw⟩, ⟨5, 1, .rw⟩, ⟨6, 1, .rw⟩, ⟨7, 1, .rw⟩, ⟨8, 1, .rw⟩, ⟨9, 1, .rw⟩, ⟨10, 1, .rw⟩, ⟨11, 1, .rw⟩]⟩,
  ⟨0x60100, 0x10, 9, 0x4, 1, [⟨0, 4, .rwl⟩, ⟨4, 1, .rwl⟩]⟩,
  ⟨0x60400, 0x10, 16, 0x8, 2, [⟨0, 1, .rwl⟩, ⟨1, 2, .rwl⟩, ⟨3, 11, .rwl⟩, ⟨14, 8, .rwl⟩, ⟨22, 1, .rwl⟩, ⟨23, 3, .rwl⟩, ⟨26, 2, .rwl⟩]⟩,
  ⟨0x61000, 0x4, 512, 0x4, 1, [⟨0, 32, .rwl⟩]⟩]
def resetsAt12_0 : List (Nat × Nat × Nat × Nat × Nat × Nat) := [
  (0x60000, 0x4, 1, 0x4, 1, 0xA00)]
def rowsAt13_0 : List RegRow := [
  ⟨0x68000, 0x80, 16, 0x4, 1, [⟨0, 1, .rwl⟩, ⟨1, 1, .rwl⟩, ⟨2, 4, .rwl⟩, ⟨8, 8, .rwl⟩, ⟨16, 5, .rwl⟩]⟩,
  ⟨0x68004, 0x80, 16, 0x4, 1, [⟨0, 8, .rwl⟩, ⟨8, 8, .rwl⟩]⟩,
  ⟨0x68008, 0x80, 16, 0x4, 1, [⟨0, 10, .rwl⟩, ⟨16, 10, .rwl⟩]⟩,
  ⟨0x6800C, 0x80, 16, 0x4, 1, [⟨0, 16, .rwl⟩, ⟨16, 10, .rwl⟩]⟩,
  ⟨0x68010, 0x80, 16, 0x4, 1, [⟨0, 8, .rwl⟩, ⟨8, 10, .rwl⟩]⟩,
  ⟨0x68014, 0x80, 16, 0x4, 1, [⟨0, 10, .rwl⟩, ⟨16, 16, .rwl⟩]⟩,
  ⟨0x68028, 0x80, 16, 0x4, 1, [⟨0, 1, .w1c⟩, ⟨1, 1, .w1c⟩, ⟨2, 1, .w1c⟩, ⟨3, 1, .w1c⟩, ⟨4, 1, .w1c⟩, ⟨5, 1, .w1c⟩, ⟨6, 1, .w1c⟩]⟩,
  ⟨0x6802C, 0x80, 16, 0x4, 1, [⟨0, 1, .rw⟩, ⟨1, 1, .rw⟩, ⟨2, 1, .rw⟩, ⟨3, 1, .rw⟩, ⟨4, 1, .rw⟩, ⟨5, 1, .rw⟩, ⟨6, 1, .rw⟩]⟩,
  ⟨0x68040, 0x80, 16, 0x4, 8, [⟨0, 10, .rwl⟩, ⟨10, 10, .rwl⟩, ⟨20, 4, .rwl⟩, ⟨31, 1, .rwl⟩]⟩,
  ⟨0x68800, 0x4, 1, 0x4, 1, [⟨0, 1, .w1c⟩, ⟨1, 1, .w1c⟩, ⟨2, 1, .w1c⟩]⟩,
  ⟨0x68804, 0x4, 1, 0x4, 1, [⟨0, 1, .rw⟩, ⟨1, 1, .rw⟩, ⟨2, 1, .rw⟩]⟩]
def resetsAt13_0 : List (Nat × Nat × Nat × Nat × Nat × Nat) := [
  (0x68000, 0x80, 16, 0x4, 1, 0x26400),
  (0x68004, 0x80, 16, 0x4, 1, 0xF012),
  (0x68008, 0x80, 16, 0x4, 1, 0x320064),
  (0x6800C, 0x80, 16, 0x4, 1, 0x6403E8),
  (0x68010, 0x80, 16, 0x4, 1, 0x6414),
  (0x68014, 0x80, 16, 0x4, 1, 0x27100200)]
def rowsAt14_0 : List RegRow := [
  ⟨0x70000, 0x4, 1, 0x4, 1, [⟨0, 1, .rw⟩, ⟨1, 1, .rw⟩, ⟨2, 1, .rw⟩]⟩,
  ⟨0x70008, 0x4, 1, 0x4, 1, [⟨0, 24, .rw⟩, ⟨24, 2, .rw⟩]⟩,
  ⟨0x70010, 0x4, 1, 0x4, 1, [⟨0, 1, .w1c⟩, ⟨1, 1, .w1c⟩, ⟨2, 1, .w1c⟩, ⟨3, 1, .w1c⟩, ⟨4, 1, .w1c⟩, ⟨5, 1, .w1c⟩, ⟨6, 1, .w1c⟩]⟩,
  ⟨0x70014, 0x4, 1, 0x4, 1, [⟨0, 1, .rw⟩, ⟨1, 1, .rw⟩, ⟨2, 1, .rw⟩, ⟨3, 1, .rw⟩, ⟨4, 1, .rw⟩, ⟨5, 1, .rw⟩, ⟨6, 1, .rw⟩]⟩]
def resetsAt14_0 : List (Nat × Nat × Nat × Nat × Nat × Nat) := [
  (0x70008, 0x4, 1, 0x4, 1, 0x2002710)]
def rowsAt15_0 : List RegRow := [
  ⟨0x78000, 0x8, 4096, 0x4, 1, [⟨0, 8, .rwl⟩, ⟨8, 16, .rwl⟩, ⟨24, 3, .rwl⟩, ⟨27, 1, .rwl⟩]⟩,
  ⟨0x78004, 0x8, 4096, 0x4, 1, [⟨0, 10, .rwl⟩, ⟨16, 14, .rwl⟩]⟩]

/-- The writable words of the 32 KiB page of W0 that holds an address. -/
def regRows (page : Nat) : List RegRow :=
  match page with
  | 0 => rowsAt0_0
  | 1 => rowsAt1_0 ++ rowsAt1_1
  | 2 => rowsAt2_0
  | 3 => rowsAt3_0
  | 4 => rowsAt4_0
  | 6 => rowsAt6_0
  | 7 => rowsAt7_0
  | 8 => rowsAt8_0
  | 9 => rowsAt9_0
  | 10 => rowsAt10_0
  | 11 => rowsAt11_0
  | 12 => rowsAt12_0
  | 13 => rowsAt13_0
  | 14 => rowsAt14_0
  | 15 => rowsAt15_0
  | _ => []

/-- The words of a 32 KiB page whose reset value is not 0: first address, strides and counts, value. -/
def resetRows (page : Nat) : List (Nat × Nat × Nat × Nat × Nat × Nat) :=
  match page with
  | 0 => resetsAt0_0
  | 1 => resetsAt1_0
  | 2 => resetsAt2_0
  | 3 => resetsAt3_0
  | 4 => resetsAt4_0
  | 6 => resetsAt6_0
  | 7 => resetsAt7_0
  | 8 => resetsAt8_0
  | 9 => resetsAt9_0
  | 10 => resetsAt10_0
  | 11 => resetsAt11_0
  | 12 => resetsAt12_0
  | 13 => resetsAt13_0
  | 14 => resetsAt14_0
  | 15 => []
  | _ => []

/-- Address `a` is a word of the two-dimensional array at `base`. -/
def inArray (a base s1 c1 s2 c2 : Nat) : Bool :=
  decide (base ≤ a) &&
    (let o := a - base
     (decide (o % s1 % s2 = 0) && decide (o % s1 / s2 < c2) && decide (o / s1 < c1)))

def findRow (a : Nat) : List RegRow → Option RegRow
  | [] => none
  | r :: rs => if inArray a r.base r.stride r.count r.stride2 r.count2 then some r else findRow a rs

def findReset (a : Nat) : List (Nat × Nat × Nat × Nat × Nat × Nat) → Nat
  | [] => 0
  | (b, s1, c1, s2, c2, v) :: rs => if inArray a b s1 c1 s2 c2 then v else findReset a rs

/-- Reset value of the W0 word at byte address `a` (the `Reset` columns of the register tables; 0 where no word is). -/
def resetWord (a : Nat) : Word := BitVec.ofNat 32 (findReset a (resetRows (a / 0x8000)))

end Sys2Proof.Machine
end

