-- ==== Sys2Proof/Machine/State.lean ====
section
/-! DEFINITION. The state of the NH9640 as plain data, block by block, and its value right after a cold reset.

Conventions. Time is counted in units of 1/60 ns since power-on (`now`): every derived clock of R31's table and every
block time of R251 is a whole number of units (log entry 1). Register words with the access codes of R4 stand in one
register file, by W0 byte address (`regs`); a word that is not listed holds the reset value its register table gives. State
that the tables only show through read-only fields, or do not show at all, stands in the block's own structure. Banks of
like things are `Table`s. -/

namespace Sys2Proof.Machine

/-- Reasons a step stops with a fault. -/
inductive Fault where
  /-- Raised by no meaning: the block has no access that the specification says does not exist. Safe. -/
  | noSuchAccess
  deriving DecidableEq, Repr

/-- Reasons a step is refused. -/
inductive Refusal where
  /-- Raised by the dispatcher for a command that has no meaning yet. Safe. -/
  | notModelled (mnemonic : String)
  deriving DecidableEq, Repr

/-- The source of a command in progress, with what its answer needs (R449). -/
structure CmdRef where
  src : CmdSrc
  code : Nat
  tag : Nat
  deriving DecidableEq, Repr

/-- What a lane drives on its line (R79, R87): the levels of its data output in order of time, a character with its start, parity and stop
bits, a byte of another mode, in `HDLC` with flags and stuffed zeros; the same with the clock polarity and phase of an SPI lane; a break of so
many bit times; an I2C-bus START with its address byte, STOP, clocks for so many bytes, or acknowledgement; the clocks of an SSI word; levels of
discrete outputs under a mask; and the pulses of an IRIG-B frame: 0, 1, or 2 for a position marker. -/
inductive LineOut where
  | bits (bs : List Bool)
  | clocked (cpol cpha : Bool) (bs : List Bool)
  | brk (n : Nat)
  | start (addr : Byte)
  | stop
  | read (n : Nat)
  | ack
  | clocks (n : Nat)
  | dout (mask levels : Nat)
  | code (pulses : List Nat)
  deriving DecidableEq, Repr

/-- What the hub has put out, oldest first: the model's own record of outputs. -/
inductive Output where
  /-- A frame left on a SerDes or host port: destination address to FCS. -/
  | frame (port : Nat) (bytes : List Byte) (fcs : Word)
  /-- Words returned to a reader (a register, queue or point read). -/
  | words (ws : List Word)
  /-- Bytes returned on a serial interface (quad-SPI, service port, USB). -/
  | bytes (bs : List Byte)
  /-- An MSI-X message of a vector (R459). -/
  | msix (vec : Nat)
  /-- A DMA write of a descriptor or buffer in host memory (R461, R462). -/
  | dma (addr : Nat) (bs : List Byte)
  /-- A heartbeat (R361): the word sent on `HBO`, and on `P3` where that port runs, and what the serial one carries besides: image CRC, sequence
  number of the last journal record applied, `DIGEST_RUN`. -/
  | heartbeat (serial : Bool) (w img : Word) (jseq run : Nat)
  /-- A `STATE` record sent on `P3` (R376): its sequence number, `ACT` and block. -/
  | state (jseq act : Nat) (b : StateBlk)
  /-- `TAKE` sent on `HBO` (R382). -/
  | take (w : Word)
  /-- A USB handshake or answer: 0 ACK, 1 NAK, 2 STALL. -/
  | usb (handshake : Nat) (bs : List Byte)
  /-- A pulse edge of a pulse output (R350, R352): output, level. -/
  | pulse (output : Nat) (level : Bool)
  /-- What a lane drives on its line (R79). -/
  | line (lane : Nat) (o : LineOut)
  /-- Levels and directions of the pins of a bank that its troupe drives (R104, R106). -/
  | pins (bank : Nat) (levels dirs : Nat)
  /-- Start of a CAN frame on a controller's bus. -/
  | can (ctl : Nat) (ws : List Word)
  deriving DecidableEq, Repr

/-! ## Points (chapter 02) -/

/-- A point record (R39): the 16 bytes of words 0 to 3. -/
structure Rec where
  value : Word := 0
  quality : Half := 0
  typ : BitVec 4 := 0
  alive : BitVec 4 := 0
  flags : BitVec 8 := 0
  ts : Dword := 0
  deriving DecidableEq, Repr


/-! ## Check values and the Guard (chapter 08) -/

/-- A polynomial of the check-value table (R215): width, polynomial, initial value, reflections, final XOR. -/
structure Poly where
  w : Nat
  poly : Nat
  init : Nat
  refin : Bool
  refout : Bool
  xor : Nat
  deriving DecidableEq, Repr

/-- A computation that ended in the cycle `at_` (R221): its register, which takes the bytes of that whole cycle when an `INIT` ended it, and
whether `SNP_LAST` takes its result. -/
structure SnoopEnd where
  at_ : Nat
  reg : Nat
  init : Bool
  last : Bool
  deriving DecidableEq, Repr

/-- A snoop unit's running computation (R216, R219, R220): polynomial taken when `EN` was set, register, byte count; when `EN` was set; the
computation that ended last; time, context and register of the last `CRCR`. -/
structure Snoop where
  poly : Option Poly := none
  reg : Nat := 0
  count : Nat := 0
  since : Option Nat := none
  done : Option SnoopEnd := none
  read : Option (Nat × Nat × Nat) := none
  deriving DecidableEq, Repr

/-- One entry of the Guard tracking table (R226, R227). -/
structure Pair where
  node : Nat
  flow : Nat
  last : Nat
  cand : Option Nat
  deriving DecidableEq, Repr

/-- The check-value block: snoop units, tracking table (least recently accepted pair first) and alive counters by flow. -/
structure ChkBlk where
  snoop : Table Snoop := []
  pairs : List Pair := []
  alive : Table Nat := []
  deriving DecidableEq, Repr

/-! ## Queues, frames and the traffic manager (chapters 09 and 10) -/

/-- What is common to every queue under R231: watermark state (R235) and the credits returned by pops of the present
`CLK_CORE` cycle, which are not usable before the next one (R232, R234). -/
structure QCommon where
  high : Bool := false
  popAt : Nat := 0
  popN : Nat := 0
  /-- Items pushed in the present cycle: no pop of that cycle sees them (R234). -/
  putAt : Nat := 0
  putN : Nat := 0
  deriving DecidableEq, Repr

/-- A queue of 32-bit items: lane and Fret queues. `mark` is the number of items before the freeze mark (R169). -/
structure ItemQ where
  items : List Word := []
  mark : Nat := 0
  /-- Items pushed since twin synchronisation, for the journal's item count (R367). -/
  pushed : Nat := 0
  c : QCommon := {}
  deriving DecidableEq, Repr

/-- The parts of a bundle whose ages and Guard are fixed at the first copy's launch (R53, R222). -/
structure Draft where
  /-- Transaction header, empty for a publication (R298). -/
  txn : List Byte
  alive : Nat
  src : Nat
  dst : Nat
  group : Bool
  flow : Nat
  start : Nat
  count : Nat
  recs : List Rec
  ver : Nat
  /-- Bytes before the payload: Ethernet and NRP header. -/
  head : List Byte
  deriving DecidableEq, Repr

/-- What a lookup gives (R270, R271, R273, R274): the outputs of the copies, whether the ring copy is one of them, the policer, and the
table consulted with its generation (R278). -/
structure Look where
  ring : Bool := false
  outs : List Nat := []
  pol : Option Nat := none
  table : Nat := 0
  gen : Nat := 0
  deriving DecidableEq, Repr

/-- A frame in the packet buffer. `bytes` run from the destination address up to the FCS field, which is not held. -/
structure Frame where
  bytes : List Byte := []
  inPort : Nat := 0
  /-- Originated by the node as an NRP frame: the sending port writes `LAUNCH_TS` (R299). -/
  own : Bool := false
  draft : Option Draft := none
  /-- Launch time, 40-bit short time, for a launch-time queue (R250). -/
  launch : Option Nat := none
  /-- Sequence number of an originated counted frame. -/
  seq : Option Nat := none
  /-- Transaction tag that completes when the frame has been transmitted (group EVENT, R66). -/
  doneTag : Option Nat := none
  /-- Receive stamps on TB0 to TB3, in 2^-16 ns (R340). -/
  stamps : List Nat := []
  /-- Table and generation recorded by the lookup (R278). -/
  gen : Option (Nat × Nat) := none
  cls : Nat := 0
  /-- The numbers of its cells (R267). -/
  cells : List Nat := []
  /-- Copies not yet released (R269); a frame that has not yet entered Midway whole counts as one more. -/
  uses : Nat := 0
  /-- Its last byte has not arrived (R276). -/
  arriving : Bool := false
  /-- The result of its lookup, which stays with it (R274). -/
  look : Option Look := none
  /-- Its ring copy has entered a VOQ before the frame was judged (R276). -/
  cut : Bool := false
  /-- The output code that its queue must have, for a frame that waits for credit (R232, R240). -/
  need : Option Nat := none
  /-- The buffered frame of which the point port still holds the local copy (R269, R278). -/
  held : Option Nat := none
  /-- Cells still charged to the forwarding input (R268). -/
  charged : Bool := false
  /-- Ports in the order of release, for TX_DONE (R367). -/
  sentOn : Nat := 0
  /-- HSR sequence number of a standard frame that the hub tags (R321). -/
  hsr : Option Nat := none
  /-- Ingress stamp of the request that a Pdelay_Resp of the control core answers, in 2^-16 ns (R346). -/
  reqAt : Nat := 0
  /-- Time at which the frame crossed to the point port (R370). -/
  at_ : Nat := 0
  deriving DecidableEq, Repr

/-- One frame held by a traffic queue: `a` and `b` are the copies still to be sent (`b` is the `P1` copy of `OUT` 2). -/
structure QEnt where
  id : Nat
  a : Bool
  b : Bool
  /-- The cycle in which it entered: no choice of that cycle considers it (R234, R243). -/
  at_ : Nat := 0
  deriving DecidableEq, Repr

/-- Where a rate-limited queue waits on one port (R246). -/
inductive Hold where
  | none
  /-- On the timing wheel until `TB3` reaches 50 ns times `n`: in slot n mod 4,096 (R247). -/
  | wheel (n : Nat)
  | far
  deriving DecidableEq, Repr

/-- The scheduling state of a traffic queue on one of its ports (R244, R246). -/
structure QPort where
  tag : Option Nat := none
  /-- `e` of R246 in 1/256 ns. -/
  e : Nat := 0
  hold : Hold := .none
  deriving DecidableEq, Repr

/-- A traffic queue (R238 to R257). -/
structure TQueue where
  ents : List QEnt := []
  /-- Words of the head frame already popped (delivery queues, R257). -/
  popped : Nat := 0
  /-- Frames before the freeze mark. -/
  mark : Nat := 0
  pa : QPort := {}
  pb : QPort := {}
  /-- Frames that wait for credit, in the order in which they began to wait (R232). -/
  waiting : List Nat := []
  c : QCommon := {}
  deriving DecidableEq, Repr

/-- A policer's bucket (R249): tokens in units of 1/8,000,000 byte, and when they were last refilled (TB3 ns). -/
structure Bucket where
  tokens : Nat := 0
  at_ : Nat := 0
  deriving DecidableEq, Repr

/-- A copy being sent on a port. -/
structure TxNow where
  id : Nat
  queue : Nat
  second : Bool
  beginAt : Nat
  /-- The end of the frame on the line; none while a cut-through copy's tail has not come. -/
  endAt : Option Nat
  /-- The first bytes of a cut-through copy as they were sent, and the start tag to be advanced when its length is known. -/
  head : List Byte := []
  tagged : Option Nat := none
  deriving DecidableEq, Repr

structure TmBlk where
  q : Table TQueue := []
  /-- Virtual time of port p and class c, at 8p + c (R244). -/
  v : Table Nat := []
  pol : Table Bucket := []
  tx : Table (Option TxNow) := []
  /-- When the last frame of a port leaves its line free, interframe gap included. -/
  lineEnd : Table Nat := []
  deriving DecidableEq, Repr

/-- A MAC table entry, by 4 * set + way (R271, R287). -/
structure MacEnt where
  valid : Bool := false
  mac : Nat := 0
  vid : Nat := 0
  ports : Nat := 0
  static : Bool := false
  polEn : Bool := false
  pol : Nat := 0
  /-- Time of the last refresh (R272). -/
  at_ : Nat := 0
  deriving DecidableEq, Repr

/-- A matched crossbar transfer (R263, R266) of class `cls`. `id` is the frame it carries once it has begun, `endAt` its end; a cut-through
transfer has none until the frame's tail has come. -/
structure Xfer where
  inp : Nat
  outp : Nat
  cls : Nat
  id : Option Nat := none
  beginAt : Nat := 0
  endAt : Option Nat := none
  deriving DecidableEq, Repr

/-- A copy in a VOQ, and the cycle in which it entered: no round of that cycle requests it (R266). -/
structure VEnt where
  id : Nat
  at_ : Nat
  deriving DecidableEq, Repr

/-- A cell of the packet buffer (R267, R282): off the free list, stamped by the pass in progress, miss count. -/
structure Cell where
  used : Bool := false
  stamp : Bool := false
  miss : Nat := 0
  deriving DecidableEq, Repr

/-- An operation on the MAC table in progress (R287), with the values that it started with. -/
structure MacOp where
  op : Nat
  mac : Nat
  vid : Nat
  data : Word
  due : Nat
  deriving DecidableEq, Repr

/-- A frame entering on `P4`, `P5` or `P6`, to be placed in the queue that it names (R262): its number in the packet buffer, and whether
its producer loses frames that find no credit (R232). -/
structure OwnIn where
  port : Nat
  id : Nat
  queue : Nat
  lossy : Bool
  frame : Frame
  at_ : Nat
  deriving DecidableEq, Repr

/-- A `FENCE` in progress (R279): table mask, time of its timeout, and the command to answer. -/
structure Fence where
  mask : Nat
  due : Option Nat
  ref : CmdRef
  /-- When it was accepted. -/
  at_ : Nat := 0
  deriving DecidableEq, Repr

/-- A frame that has come through its port and waits to enter Midway: input port, number in the packet buffer, whether the local copy
survives (R301), whether it has arrived whole, and when it came. -/
structure Arrival where
  port : Nat
  id : Nat
  keepLocal : Bool
  whole : Bool
  at_ : Nat
  deriving DecidableEq, Repr

/-- Midway. -/
structure SwcBlk where
  /-- The packet buffer, by frame number. -/
  buf : Table (Option Frame) := []
  nextId : Nat := 0
  /-- Frames that wait to enter Midway, by rising input port. -/
  arrivals : List Arrival := []
  /-- The frame whose first bytes have come on a port (R276). -/
  coming : Table (Option Nat) := []
  /-- Frames of `P4`, `P5` and `P6` not yet placed. -/
  own : List OwnIn := []
  /-- The cells that are off the free list or carry an auditor's mark. -/
  cell : Table Cell := []
  /-- `BUF_LOW` may be set again (R269). -/
  lowArmed : Bool := true
  /-- Cells held by a forwarding input (R268). -/
  inCells : Table Nat := []
  /-- VOQ of input i, output o, class c at 56i + 8o + c. -/
  voq : Table (List VEnt) := []
  gp : Table Nat := []
  ap : Table Nat := []
  /-- When the scheduler last made a round. -/
  roundAt : Option Nat := none
  xfers : List Xfer := []
  /-- Generation of table 0 route, 1 group, 2 MAC (R278). -/
  gen : Table Nat := []
  genCnt : Table Nat := []
  fences : List Fence := []
  mac : Table MacEnt := []
  macOp : Option MacOp := none
  /-- Auditor: a pass is in progress; its epoch; another pass follows at once. -/
  auditBusy : Bool := false
  auditEpoch : Bool := false
  auditAgain : Bool := false
  auditFrom : Nat := 0
  /-- `MAINT_LEAK_AUDIT_NOW` commands answered at the end of this pass, and of the next. -/
  auditRefs : List CmdRef := []
  auditNext : List CmdRef := []
  deriving DecidableEq, Repr

/-- State of a subscription entry (R55). -/
inductive SubState where
  | off | opening | active | failed
  deriving DecidableEq, Repr

/-- State of a transaction tag (R63). -/
inductive TagState where
  | free | pending | quarantine
  deriving DecidableEq, Repr

/-- Kind of a transaction (R62). -/
inductive TxnKind where
  | read | write | subscribe | event
  deriving DecidableEq, Repr

/-- A transaction tag (R62 to R64, R69). -/
structure Tag where
  st : TagState := .free
  kind : TxnKind := .read
  origin : Nat := 0
  node : Nat := 0
  point : Nat := 0
  status : Nat := 0
  tries : Nat := 0
  /-- Time of the last transmission (R63). -/
  lastTx : Nat := 0
  /-- The host command that answers on completion. -/
  ref : Option CmdRef := none
  count : Nat := 0
  /-- First mirror entry of a READ; subscription entry of a SUBSCRIBE. -/
  landing : Nat := 0
  /-- Records of a WRITE or EVENT request, kept for sending again. -/
  recs : List Rec := []
  /-- Parts of a SUBSCRIBE response received. -/
  parts : List Nat := []
  /-- Their records by mirror entry, written when the last part has come (R57). -/
  held : List (Nat × Rec) := []
  deriving DecidableEq, Repr

/-- An accepted change of the point map (R37, R451). -/
structure MapChange where
  first : Nat
  count : Nat
  define_ : Bool
  typ : BitVec 4
  flags : BitVec 8
  deriving DecidableEq, Repr

/-- One ACTIVE subscription as it stood at a freeze: source node, first slot, count, first mirror entry (R51). -/
structure Cover where
  node : Nat
  start : Nat
  count : Nat
  base : Nat
  deriving DecidableEq, Repr

/-- The mirror view frozen for one Strum group (R25, R50, R51). -/
structure MirrorView where
  mir : Table Rec := []
  cover : List Cover := []
  deriving DecidableEq, Repr

/-- Point Memory, mirror, subscriptions and point port. -/
structure PtBlk where
  /-- Local slots 0x0000-0xFFFF; an unlisted slot is undefined or a house slot never written. -/
  pts : Table Rec := []
  /-- Mirror entries 0x0000-0x3FFF. -/
  mir : Table Rec := []
  sub : Table SubState := []
  /-- The time of the last mirror write of an entry, plus 1; 0 for an entry not written since the last edge of its subscription's group
  (R59). -/
  fresh : Table Nat := []
  /-- Slots written in the cycle `wroteAt`, with the rank of the last writer: 1 commit, 2 remote, 3 host (R48). -/
  wrote : Table (Fin 4) := []
  wroteAt : Nat := 0
  tags : Table Tag := []
  /-- Accepted point-map changes waiting for the next base edge (R37). -/
  mapPend : List MapChange := []
  mapLoaded : Bool := false
  /-- The image's last point-map command is among the changes that wait. -/
  mapLast : Bool := false
  /-- The latch of R72: page, index, words 1 to 3. -/
  w2latch : Option (Nat × Nat × List Word) := none
  /-- Frozen mirror views by Strum group. -/
  view : Table MirrorView := []
  /-- Frames that have crossed `P5` to the point port and wait for it, oldest first. -/
  inbox : List Frame := []
  /-- House point `GUARD_FAILS` (R228). -/
  guardFails : Nat := 0
  deriving DecidableEq, Repr

/-! ## Lanes (chapter 03) -/

/-- Lane state (R83); a stopping lane knows its mode. -/
inductive LaneSt where
  | stopped | running
  | stopping (mode1 : Bool)
  deriving DecidableEq, Repr

/-- A frame being received (R85, R99). -/
structure RxFrame where
  on : Bool := false
  /-- Short time of the stamped instant. -/
  stamp : Nat := 0
  /-- `DATA` items held for checking, oldest first; more than 256 were received. -/
  held : List Word := []
  long : Bool := false
  /-- `DATA` items of the frame so far. -/
  count : Nat := 0
  /-- Items of the frame were lost (R90). -/
  lost : Bool := false
  /-- An I2C-bus target has not been addressed: it takes nothing until the next START (R81). -/
  mute : Bool := false
  deriving DecidableEq, Repr

/-- A frame being sent (R87, R91, R98). -/
structure TxFrame where
  on : Bool := false
  /-- Bytes of the frame's `DATA` items, for the check value. -/
  bytes : List Byte := []
  /-- When the underrun in progress began; an underrun of this frame has been counted. -/
  underrun : Option Nat := none
  counted : Bool := false
  /-- Bytes of the check value still to be sent, once the first of them has been (R93). -/
  tail : Option (List Byte) := none
  /-- Ones sent in a row, for the zeros that `HDLC` stuffs. -/
  ones : Nat := 0
  deriving DecidableEq, Repr

/-- A start seen on the line (R85, R101): the start bit of the character being received, or the START of an I2C-bus target: when, the short
time of the instant, and whether DE was asserted then. -/
structure LineSeen where
  at_ : Nat
  stamp : Nat
  de : Bool
  deriving DecidableEq, Repr

/-- The front end and queues of one lane. -/
structure Lane where
  st : LaneSt := .stopped
  /-- When the stop began, commands that answer at its end, and whether the `EOF` of a mode-1 stop has been sent. -/
  stopAt : Nat := 0
  stopRefs : List CmdRef := []
  stopEof : Bool := false
  rxq : ItemQ := {}
  txq : ItemQ := {}
  rx : RxFrame := {}
  /-- An `EOF` was lost; the next one carries `PRIOR_LOSS`. -/
  priorLoss : Bool := false
  /-- End of the last stop bit received. -/
  lastChar : Nat := 0
  tx : TxFrame := {}
  /-- The character or byte in progress ends at this time; a `GAP` ends at this time. -/
  busyUntil : Nat := 0
  gapUntil : Nat := 0
  /-- RS-485 driver enable, when it was asserted, the first start bit has been let go, and its release. -/
  de : Bool := false
  deAt : Nat := 0
  lead : Bool := false
  deOff : Option Nat := none
  /-- The receiver does not listen (R100), until this time once DE is released. -/
  deaf : Bool := false
  deafUntil : Nat := 0
  /-- Bits of the characters sent inside the lane with `LOOP` set, not yet received. -/
  loop : List (List Bool) := []
  seen : Option LineSeen := none
  /-- The characters of the frame sent last end at this time (R102). -/
  sentUntil : Nat := 0
  /-- The edge of the last read that `SSI_AUTO` started, plus 1 (R88); the last second that `IRIG_OUT` sent, plus 1 (R82). -/
  ssiEdge : Nat := 0
  irigSec : Nat := 0
  /-- Discrete outputs that a stopped lane keeps driving, bit per pin (R78). -/
  kept : Nat := 0
  /-- A read of `SSI_AUTO` or `SSI_READ` is in progress. -/
  ssi : Bool := false
  deriving DecidableEq, Repr

structure LaneBlk where
  lane : Table Lane := []
  /-- Filtered level of bank pin p of bank k at 36k + p (R94). -/
  pin : Table Bool := []
  /-- Time of the last change of that level. -/
  pinAt : Table Nat := []
  deriving DecidableEq, Repr
/-! ## Fret Engines (chapter 04) -/

/-- The machine state of an engine (R110) and of its run. -/
structure Eng where
  run : Bool := false
  /-- `STALL_ON` (0 when it is not stalled), and the other level has been seen in this `WAITP` (R118). -/
  stall : Nat := 0
  saw : Bool := false
  cause : Nat := 0
  /-- The divider was started at this time (R125); the next instruction begins at this engine cycle or later (R109). -/
  startAt : Nat := 0
  cyc : Nat := 0
  /-- A `HOLD` is in progress; it completes when cycle `cyc` begins (R111). -/
  holding : Bool := false
  /-- A `FRET_STOP` has been accepted, and the `CLK_FRET` cycle in which the last one takes effect (R121). -/
  stopping : Bool := false
  stopCyc : Nat := 0
  txs : Word := 0
  txc : Nat := 0
  rxs : Word := 0
  rxc : Nat := 0
  a : Word := 0
  b : Word := 0
  pc : Nat := 0
  i : Bool := false
  txq : ItemQ := {}
  rxq : ItemQ := {}
  deriving DecidableEq, Repr

/-- What a `CLK_FRET` cycle has done to a pin's level or direction (R105): the cycle and the engines. -/
structure PinWr where
  cyc : Nat := 0
  engs : List Nat := []
  deriving DecidableEq, Repr

/-- A change of a flag made in the present cycle: engine (32 for a host), flag bit, 0 set, 1 clear, 2 toggle (R107). -/
structure FlagOp where
  eng : Nat
  bit : Nat
  op : Nat
  deriving DecidableEq, Repr

structure FretBlk where
  eng : Table Eng := []
  /-- Flags at the start of cycle `flagCyc`, flag i of troupe k at bit 16k + i and global flag i at bit 128 + i, and the
  changes of that cycle in their order (R107). -/
  flags : Nat := 0
  flagCyc : Nat := 0
  flagOps : List FlagOp := []
  /-- Levels and directions that engines gave pin p of bank k, at 36k + p (R104). -/
  lvl : Table Bool := []
  dir : Table Bool := []
  /-- At 2g for the level and 2g + 1 for the direction of pin g. -/
  wrote : Table PinWr := []
  deriving DecidableEq, Repr

/-! ## CAN FD controllers (chapter 05) -/

/-- Controller state (R133). -/
inductive CanSt where
  | stopped | syncing | active | passive | busOff | recovering | stopping
  deriving DecidableEq, Repr

/-- A complete entry of the transmit queue and the attempts that have failed (R138, R141). -/
structure CanTx where
  words : List Word
  tries : Nat
  deriving DecidableEq, Repr

/-- The entry being pushed: its words so far, or those of a refused entry that are being discarded; the context that pushed its
word 0 (256 for a host) and the time of its last word (R142). -/
structure CanPart where
  words : List Word
  drop : Bool
  owner : Nat
  at_ : Nat
  deriving DecidableEq, Repr

structure CanCtl where
  st : CanSt := .stopped
  tec : Nat := 0
  rec_ : Nat := 0
  txq : List CanTx := []
  part : Option CanPart := none
  txc : QCommon := {}
  /-- Index in the queue of the frame on the bus, and the short time of its start of frame. -/
  cur : Option Nat := none
  /-- A frame is being received (R152). -/
  rxBusy : Bool := false
  stamp : Nat := 0
  rxq : List (List Word) := []
  /-- Words of the oldest entry already popped; entries before the freeze mark. -/
  popped : Nat := 0
  mark : Nat := 0
  rxc : QCommon := {}
  priorLoss : Bool := false
  stopRefs : List CmdRef := []
  deriving DecidableEq, Repr

structure CanBlk where
  ctl : Table CanCtl := []
  deriving DecidableEq, Repr

/-! ## The Carousel and the Strum (chapters 06 and 07) -/

/-- Context state (R163 to R166). -/
inductive CtxSt where
  | parked | idle | ready | running | waiting | faulted
  deriving DecidableEq, Repr

/-- A staged effect (R174, R200 to R203). -/
inductive StageEnt where
  /-- Address, value, quality word, supplied timestamp. -/
  | pwr (addr value qual : Word) (ts : Option Dword)
  | psub (entry : Nat)
  /-- `rs1`, `rs2`, frame or publication, flow. -/
  | femit (a b : Word) (frame : Bool) (flow : Nat)
  deriving DecidableEq, Repr

/-- What a job knows of its edge (R23, R50, R161, R173): count k, nominal edge time t_e and its base, Strum number, deadline, the
times of all bases at the edge, the frozen snapshot words, and the frozen mirror view. -/
structure JobPage where
  k : Nat := 0
  ns : Nat := 0
  tb : Nat := 0
  strum : Nat := 0
  deadline : Nat := 0
  bases : List Nat := []
  dsnap : List Word := []
  view : MirrorView := {}
  deriving DecidableEq, Repr

/-- What a WAITING context waits for (R208 to R211): a queue handle with the time of its limit, a time on a base, or a number of its
own slots. -/
inductive Wait where
  | queue (handle : Nat) (limit : Option Nat)
  | until_ (tb target : Nat)
  | slots (left : Nat)
  deriving DecidableEq, Repr

structure Ctx where
  st : CtxSt := .parked
  /-- Registers w1 to w15 by number, and the values of w8 to w15 at job entry. -/
  w : Table Word := []
  saved : Table Word := []
  z : Bool := false
  n : Bool := false
  c : Bool := false
  v : Bool := false
  i : Bool := false
  l : Bool := false
  pc : Nat := 0
  stage : List StageEnt := []
  late : Bool := false
  cause : Nat := 0
  faultPc : Nat := 0
  page : JobPage := {}
  /-- An edge has been taken; the context becomes READY 256 cycles after this time. -/
  next : Option (JobPage × Nat) := none
  wait : Option Wait := none
  /-- When the latest wait ended; nothing of the context issues in that cycle (R208). -/
  wokeAt : Option Nat := none
  /-- Own slots still taken by a multi-slot instruction (R156). -/
  skip : Nat := 0
  /-- On a standby: the job has reached `DONE` and its commit waits for the active's record (R369). -/
  held : Bool := false
  /-- On a standby: results of timed instructions, opcode and value, oldest first (R207). -/
  timed : List (Nat × Nat) := []
  deriving DecidableEq, Repr

/-- A commit that has been queued (R175): its context, entries, page, and the time at which it completes. -/
structure Commit where
  ctx : Nat
  ents : List StageEnt
  page : JobPage
  due : Nat
  deriving DecidableEq, Repr

/-- A quad-SPI burst whose word `CAR_SCR_DATA` waits for its slot (R162, R445): what goes out before it, the W0 address after it, and the
bytes still asked for, the waiting word's among them. -/
structure Burst where
  head : List Byte
  next : Nat
  left : Nat
  deriving DecidableEq, Repr

/-- A host access to shared scratch that waits for a slot of context 254 (R162): word address, the value of a write, the burst a quad-SPI
read belongs to. -/
structure ScrReq where
  addr : Nat
  val : Option Word
  burst : Option Burst := none
  /-- A write over quad-SPI (R446). -/
  qspi : Bool := false
  deriving DecidableEq, Repr

/-- A `CTX_START` or `CTX_STOP` that waits for a slot of context 254 (R165, R179), accepted at `at_`. -/
structure CtxReq where
  ctx : Nat
  start : Bool
  at_ : Nat
  ref : CmdRef
  deriving DecidableEq, Repr

structure CarBlk where
  ctx : Table Ctx := []
  prog : Table Word := []
  /-- Context data of context c at 0x400 c, and shared scratch. -/
  data : Memory := []
  scratch : Memory := []
  /-- Words marked as uncorrectable (R384): program word i at i, context data word at 0x10000 + 256 c + w, scratch word at 0x20000 + w. -/
  bad : List Nat := []
  /-- Bank B is active; a swap is pending; contexts withheld after a swap and the cycle from which they issue (R181). -/
  bankB : Bool := false
  swap : Bool := false
  withheld : List (Nat × Nat) := []
  /-- The `CLK_CORE` cycle in whose slot something was last issued (R153). -/
  issuedAt : Option Nat := none
  reqs : List CtxReq := []
  scr : List ScrReq := []
  commits : List Commit := []
  /-- The Strum runs (R172); base edge count k of its latest edge, and of the next one (R23, R178). -/
  strum : Bool := false
  k : Nat := 0
  kNext : Nat := 0
  /-- An edge has been produced since `STRUM_START`. -/
  produced : Bool := false
  /-- Time of the latest freeze of each group. -/
  edgeAt : Table (Option Nat) := []
  /-- LATE aborts by group (R44). -/
  late : Table Nat := []
  /-- Running digest of each group's commits in the present Strum, none without a commit (R374). -/
  digest : Table (Option Nat) := []
  /-- On a standby, in record order: contexts whose outcome-0 records wait for their jobs to reach `DONE` (R369), and 256 + g for a
  digest of group g that waits for the records before it; the active's digest by group (R374). -/
  jobOrder : List Nat := []
  digWant : Table Nat := []
  deriving DecidableEq, Repr


/-! ## The ring (chapter 11) -/

/-- Link state of a SerDes port (R290). -/
inductive Link where
  | down | locked | up | incompat
  deriving DecidableEq, Repr

/-- One SerDes port. -/
structure RPort where
  link : Link := .down
  ver : Nat := 0
  peerAddr : Nat := 0
  peerMin : Nat := 0
  peerMax : Nat := 0
  peerTwin : Bool := false
  pauseRx : Bool := false
  /-- Time at which the last HELLO arrived (R290). -/
  helloAt : Nat := 0
  /-- A MAINT_RING_LOOP holds the port in loopback (R290, R464). -/
  loop : Bool := false
  /-- Own RING_CHECK last returned here (R312). -/
  checkAt : Option Nat := none
  /-- Transmission paused until this time (R289). -/
  pauseUntil : Nat := 0
  deriving DecidableEq, Repr

/-- Ring state (R312). -/
inductive RingState where
  | forming | closed | open_ | split
  deriving DecidableEq, Repr

/-- Node-table entry (R329). -/
structure NodeEnt where
  verMax : Nat := 0
  present : Bool := false
  twin : Bool := false
  strapped : Bool := false
  deriving DecidableEq, Repr

/-- Per-source state (R305). -/
structure SrcState where
  known : Bool := false
  max : Nat := 0
  heard : Nat := 0
  /-- The source has been heard at all. -/
  ever : Bool := false
  deriving DecidableEq, Repr

/-- A discard-table entry (R306, R322): key of an NRP frame (source, sequence) or of an HSR frame (source MAC, sequence). -/
structure DdEnt where
  hsr : Bool
  src : Nat
  seq : Nat
  at_ : Nat
  deriving DecidableEq, Repr

/-- An entry of a survey (R316). -/
structure PEntry where
  strap : Byte
  held : Byte
  info : Byte
  given : Byte
  deriving DecidableEq, Repr

/-- A survey the node launched (R314, R315, R320). -/
structure Survey where
  token : Nat
  at_ : Nat
  tries : Nat
  /-- Launched on `P1` (East) and on `P0` (West), and what has come back of each. -/
  onEast : Bool
  onWest : Bool
  east : Option (List PEntry)
  west : Option (List PEntry)
  /-- The East survey came back on `P0` without `TURNED`. -/
  closedRing : Bool
  deriving DecidableEq, Repr

/-- A survey the node takes part in: its key and token, and the index recorded for each direction (R316). -/
structure Joined where
  key0 : Nat
  mac : Nat
  token : Nat
  at_ : Nat
  idxEast : Option Nat
  idxWest : Option Nat
  deriving DecidableEq, Repr

structure RingBlk where
  port : Table RPort := []
  addr : Nat := 0
  strapped : Bool := false
  leader : Bool := false
  quiet : Bool := false
  holdoff : Bool := true
  /-- Time of the first ring link UP while the node holds an address (R305). -/
  upAt : Option Nat := none
  /-- Time of the first ring link UP at all (R314). -/
  firstUp : Option Nat := none
  gen : Nat := 0
  leaderAddr : Nat := 0
  state : RingState := .forming
  nodes : Table NodeEnt := []
  src : Table SrcState := []
  /-- Discard tables of `P0` and `P1`, oldest entry first. -/
  dd0 : List DdEnt := []
  dd1 : List DdEnt := []
  seq : Nat := 0
  hsrSeq : Nat := 0
  survey : Option Survey := none
  /-- The node's own surveys that it has not yet seen return: token, and whether launched on `P0` (R315). -/
  away : List (Nat × Bool) := []
  /-- Token of the assignment the node last sent (R317). -/
  led : Option Nat := none
  joined : Option Joined := none
  /-- An equal key and token was seen: launch again after PARADE_WAIT_MS (R315). -/
  relaunchAt : Option Nat := none
  /-- A Parade or a HELLO with a generation has been received since the first link came UP (R314). -/
  paradeSeen : Bool := false
  /-- RING_PARADE commands in progress, with their acceptance (R326). -/
  cmds : List (CmdRef × Nat) := []
  deriving DecidableEq, Repr
/-! ## The Tuning block (chapter 12) -/

/-- Servo state of a base (R347); a base other than `UNSET` has `SET` 1. -/
inductive ServoSt where
  | unset | free | acquiring | locked | holdover | refused
  deriving DecidableEq, Repr

/-- A change of a base accepted in the present `CLK_TIME` cycle; it takes effect from the next one (R337). -/
inductive TimeOp where
  | step (ns : Int)
  | permit (on : Bool)
  | slew (ns : Int) (ppm : Nat)
  deriving DecidableEq, Repr

/-- A slew in progress (R334): what is still to be worked off, in 10^-12 ns, and its rate. -/
structure Slew where
  rem : Int
  ppm : Nat
  deriving DecidableEq, Repr

/-- The model's own record of how a base has run (log entry 44): from `CLK_TIME` tick `tick` on, at which it stood at `ns` and `sub` and steps of
`back` ns took effect, it has gained `inc` units of 10^-12 ns a tick. -/
structure TimePast where
  tick : Nat
  ns : Nat
  sub : Nat
  inc : Int
  back : Int
  deriving DecidableEq, Repr

/-- A time base (R331): nanoseconds since its epoch and the exact part below one nanosecond, in units of 10^-12 ns; its servo,
permit and slew. -/
structure TimeBase where
  ns : Nat := 0
  sub : Nat := 0
  servo : ServoSt := .unset
  /-- A permit is armed since this time (R336). -/
  permit : Option Nat := none
  slew : Option Slew := none
  ops : List TimeOp := []
  /-- Steps applied at the start of this cycle: its stamps carry the time before them (R337). -/
  back : Int := 0
  /-- Consecutive offsets within and above `LOCK_NS` (R347). -/
  ok : Nat := 0
  bad : Nat := 0
  /-- `FREQ_PPT` at the last 16 inputs, newest first. -/
  freqs : List Int := []
  /-- Grandmaster selected, and the time of the last input. -/
  gm : Nat := 0
  lastIn : Nat := 0
  /-- How it has run in the last second, newest first. -/
  past : List TimePast := []
  deriving DecidableEq, Repr

/-- An edge captured in the `CLK_TIME` cycle `cyc` that has not entered the event FIFO yet (R341, R343). -/
structure Caught where
  cyc : Nat
  pin : Nat
  w0 : Word
  w1 : Word
  deriving DecidableEq, Repr

structure TimBlk where
  base : Table TimeBase := []
  /-- Event FIFO (R342): entries oldest first; word 0 of the oldest has been popped; an entry was lost. -/
  evq : List (Word × Word) := []
  evHalf : Bool := false
  evLoss : Bool := false
  evc : QCommon := {}
  /-- Edges of the present `CLK_TIME` cycle, in the order in which they will enter the FIFO. -/
  caught : List Caught := []
  /-- End of the pulse in progress of pulse output k at k, of 1PPS output j at 16 + j. -/
  pulse : Table (Option Nat) := []
  /-- Egress stamp on TB3 of the last Pdelay_Req sent on a port, in 2^-16 ns. -/
  pdReq : Table Nat := []
  deriving DecidableEq, Repr


/-! ## Twin hubs (chapter 13) -/

/-- Role of the hub (R358, R361). -/
inductive Role where
  | solo | joining | syncing | standby | active
  deriving DecidableEq, Repr

/-- A journal record (R367): kind, sequence, ACT and the words of its body. -/
structure JRec where
  kind : Nat
  jseq : Nat
  act : Nat
  body : List Word
  at_ : Nat
  deriving DecidableEq, Repr

/-- An item that the hub's own front end produced (R378): source, count since synchronisation, words, time. -/
structure Rewind where
  key : Nat
  count : Nat
  words : List Word
  at_ : Nat
  deriving DecidableEq, Repr

/-- A snapshot that awaits its comparison (R373): time of the edge, own words and the active's. -/
structure SnapChk where
  edge : Nat
  own : List Word
  his : List Word
  deriving DecidableEq, Repr

/-- A heartbeat path (R361, R362): last valid heartbeat, counter of the last one, and whether the path is silent; `live` once a valid
heartbeat has come. -/
structure HbPath where
  at_ : Nat := 0
  cnt : Option Nat := none
  silent : Bool := false
  live : Bool := false
  deriving DecidableEq, Repr

/-- A `RING_RX` record whose frame is awaited (R370): source, sequence, FCS, and when the record was applied. -/
structure Named where
  src : Nat
  seq : Nat
  fcs : Nat
  at_ : Nat
  deriving DecidableEq, Repr

structure TwinBlk where
  role : Role := .solo
  /-- Sequence number of the next own journal record, and of the last record applied. -/
  jseq : Nat := 0
  jseqRx : Option Nat := none
  /-- Records built and not yet sent, oldest first (R366, R368). -/
  store : List JRec := []
  /-- Context 253 has built or replayed a record since its latest slot (R157, R179). -/
  worked : Bool := false
  /-- Rewind buffers of all sources, oldest item first (R378). -/
  rewind : List Rewind := []
  /-- Items produced by the own front end, and items journaled, since synchronisation, by source. -/
  made : Table Nat := []
  jnled : Table Nat := []
  /-- Own heartbeat: counter, and when the last one was sent. -/
  hb : Nat := 0
  hbAt : Nat := 0
  ser : HbPath := {}
  lvds : HbPath := {}
  /-- The peer as its heartbeats show it: role code, `FAIL`, `PREF`, `NOT_IN_STEP`, `REVERT_REQ`, and the MAC address and image CRC of the serial ones. -/
  peerRole : Nat := 0
  peerFail : Bool := false
  peerPref : Bool := false
  peerNis : Bool := false
  peerMac : Option Nat := none
  peerImg : Option Nat := none
  /-- The peer has been declared failed (R362). -/
  peerDead : Bool := false
  /-- CRC-32 of the image booted (R359). -/
  image : Nat := 0
  imgMis : Bool := false
  dual : Bool := false
  /-- Start of `JOINING`. -/
  joinAt : Nat := 0
  notInStep : Bool := false
  digestRun : Nat := 0
  /-- Revert (R381): conditions hold since; request made; answer given at. -/
  revertSince : Option Nat := none
  revertReq : Bool := false
  revertPend : Option Nat := none
  /-- `MAINT_TWIN_DRILL` or a fatal fault asks for a switch; the switch record has been journaled and the hub acts on no input (R382). -/
  halted : Bool := false
  fatal : Bool := false
  /-- Warm reset due after a fatal hand-over (R363). -/
  fatalAt : Option Nat := none
  /-- `TAKE` was received at this time, and the transmitters that keep their drivers: source keys (R383). -/
  takeAt : Nat := 0
  keep : List Nat := []
  /-- Lag at the last record applied, ns (R368). -/
  lag : Nat := 0
  /-- Health bits that occurred since the last word, by bit number (R385). -/
  since : Nat := 0
  /-- Scrubber (R384): passes, start of the pass in progress, another pass asked for, commands answered at the end of this and of the next. -/
  scrubs : Nat := 0
  scrubAt : Nat := 0
  scrubRefs : List CmdRef := []
  scrubNext : List CmdRef := []
  scrubLate : Bool := false
  eccCorr : Nat := 0
  /-- State transfer (R376): start of the present attempt; attempts abandoned; `TWIN_RESYNC` commands in progress. -/
  syncAt : Option Nat := none
  syncTries : Nat := 0
  syncRefs : List CmdRef := []
  /-- A `RING_RX` record's frame is being delivered (R370); records whose frames are awaited. -/
  replay : Bool := false
  named : List Named := []
  /-- Journaled items that the own front end has not produced yet, and snapshots to be compared (R373). -/
  awaited : List Rewind := []
  snaps : List SnapChk := []
  /-- Blocks of state, by number, as they were last sent in the present transfer (R376). -/
  sent : Table (Option StateBlk) := []
  deriving DecidableEq, Repr
/-! ## The USB hub and its function (chapter 14) -/

/-- State of a downstream port (R392). -/
inductive UpSt where
  | poweredOff | disconnected | disabled | resetting | enabled | suspended | resuming | testing
  deriving DecidableEq, Repr

/-- A downstream port; ports 1 to 8 stand at 0 to 7. -/
structure UPort where
  st : UpSt := .poweredOff
  power : Bool := false
  conn : Bool := false
  low : Bool := false
  high : Bool := false
  oc : Bool := false
  /-- `C_PORT_*` bits: connection, enable, suspend, over-current, reset. -/
  change : Nat := 0
  /-- When the reset or resume in progress began; a device chirp has been seen in the reset (R393). -/
  at_ : Nat := 0
  chirp : Bool := false
  /-- Test selector of a port in test mode. -/
  test : Nat := 0
  deriving DecidableEq, Repr

/-- A USB device of the compound device: the hub or the embedded function (R404, R407, R414). `state` is coded as `HUB_STATE`,
without suspension, which stands in `UsbBlk.suspAt`. -/
structure UDev where
  state : Nat := 0
  addr : Nat := 0
  rwake : Bool := false
  alt : Nat := 0
  /-- Endpoint 0 answers STALL until the next SETUP (R404). -/
  stall : Bool := false
  deriving DecidableEq, Repr

/-- An endpoint of the function, or the hub's endpoint 0x81. -/
structure UEp where
  halted : Bool := false
  toggle : Bool := false
  /-- Data held by the endpoint's buffers: bytes of a command half received, or bytes still to be sent. -/
  data : List Byte := []
  deriving DecidableEq, Repr

structure UsbBlk where
  port : Table UPort := []
  vbus : Bool := false
  /-- Upstream speed: 0 not attached, 1 full, 2 high. -/
  speed : Nat := 0
  hub : UDev := {}
  fn : UDev := {}
  /-- Endpoint e of direction d at 2e + d; the hub's 0x81 at 33. -/
  ep : Table UEp := []
  /-- Global suspend began (R399); the decision window was opened (R401); the function has asked for wake within it. -/
  suspAt : Option Nat := none
  wakeAt : Option Nat := none
  wakeFn : Bool := false
  /-- Since when the hub has driven K upstream (R401). -/
  kAt : Option Nat := none
  /-- Suspended ports whose devices have signalled K under global suspend (R401, R402). -/
  kPorts : List Nat := []
  /-- Ports whose bit is set in the next status-change report. -/
  report : Nat := 0
  /-- Non-periodic buffers of a port's translator, by endpoint (R394). -/
  tt : Table (List (Nat × List Byte)) := []
  /-- The notification bits as they last stood; a bit has risen since the last report (R409). -/
  notified : Nat := 0
  owes : Bool := false
  /-- Responses of a queue to be dropped, since a bus reset came before them (R413). -/
  dropRsp : Table Nat := []
  deriving DecidableEq, Repr

/-! ## The Net channels (chapter 15) -/

/-- State of a channel (R420). -/
inductive NetSt where
  | off | removed | waitWindow | insertDelay | ramp | gateRise | on | retryWait | latched
  deriving DecidableEq, Repr

/-- A Net channel as the Net die holds it. -/
structure NetCh where
  st : NetSt := .off
  /-- The latch was set by a board fault. -/
  board : Bool := false
  cause : Nat := 0
  retries : Nat := 0
  pg : Bool := false
  present : Bool := false
  /-- Supply voltage as accepted by the window filter (R419), output voltage in mV, gate voltage in 0.1 V. -/
  vs : Nat := 0
  vout : Nat := 0
  vgs : Nat := 0
  /-- `WAIT_WINDOW` was entered from `RETRY_WAIT`. -/
  again : Bool := false
  /-- Entry to the present state; entry to `RAMP` and to `GATE_RISE`. -/
  at_ : Nat := 0
  rampAt : Nat := 0
  riseAt : Nat := 0
  /-- SOA timer in µs (R422), and counts of the trip curve's points (R425). -/
  soa : Nat := 0
  counts : List Nat := []
  point : Nat := 0
  /-- `ON` with power-good without a break since this time (R427). -/
  pgAt : Nat := 0
  deriving DecidableEq, Repr

/-- A happening on a channel, or a command of the logic die (R432): its values are in mV, 0.1 V, µs or ms as its row says. -/
inductive NetHap where
  | ds (vout ms : Nat)
  | grise (vgs : Nat)
  | gateLow (vgs us : Nat)
  | testFault
  | short (mv : Nat)
  | vs (mv : Nat)
  | soa (us : Nat)
  | curve (codes : List (BitVec 10))
  | rampTmo
  | present
  | absent
  | insertEnd
  | retryEnd
  | retriesReset
  | rampDone (vout : Nat)
  | riseDone (vout vgs : Nat)
  | pgLoss (vout vgs : Nat)
  | cmdOn
  | cmdOff
  | cmdClear
  deriving DecidableEq, Repr

structure NetBlk where
  ch : Table NetCh := []
  /-- Happenings of the present `CLK_NET` cycle by channel, in the order in which they came (R432). -/
  inbox : List (Nat × NetHap) := []
  /-- The in-package link is live; it has been silent for 10 ms (R20, R385). -/
  linkOk : Bool := false
  silent : Bool := false
  /-- Running on the Net die's own oscillator. -/
  osc : Bool := false
  /-- `VIN_NET` is below its lock-out threshold, and its value in mV. -/
  locked : Bool := false
  /-- The Net die's own copy of `NET_HOLD` (R518). -/
  hold : Bool := false
  vin : Nat := 0
  deriving DecidableEq, Repr


/-! ## Host interfaces (chapter 16) -/

/-- A running ring loop (R464). -/
structure RingLoop where
  port : Nat
  at_ : Nat
  dur : Nat
  sent : Nat
  good : Nat
  bad : Nat
  /-- The loop has ended at this time and the port was restarted. -/
  ended : Option Nat
  ref : CmdRef
  deriving DecidableEq, Repr

/-- The running reducing maintenance activity (R463). -/
inductive Maint where
  | idle
  | loop (l : RingLoop)
  | drill (at_ : Nat) (ref : CmdRef)
  | gate (ch : Nat) (width : Nat) (at_ : Nat) (ref : CmdRef)
  deriving DecidableEq, Repr

structure HostBlk where
  /-- Queue served last (R448). -/
  lastQ : Nat := 3
  /-- Vectors asserted at the last tick, bit v (R459). -/
  asserted : Nat := 0
  /-- Quad-SPI error flag (R446). -/
  qspiErr : Bool := false
  /-- Words written over a path other than PCIe in the present cycle (R441): the control core, address, word. -/
  wrote : List (Bool × Nat × Word) := []
  pcieUp : Bool := false
  pcieGen : Nat := 0
  pcieWidth : Nat := 0
  /-- Vendor ID, Subsystem Vendor ID and Subsystem ID of the endpoint's configuration space (R442, R478). -/
  vendor : Nat := 0
  subVendor : Nat := 0
  subId : Nat := 0
  /-- PCIE_PERST_N is low (R504). -/
  perst : Bool := false
  maint : Maint := .idle
  /-- Queue and number of the frame whose placement the transmit engine waits for (R461). -/
  dma : Option (Nat × Nat) := none
  /-- A reset asked for by NODE_RESET: cold, due time (R465). -/
  resetDue : Option (Bool × Nat) := none
  deriving DecidableEq, Repr
/-! ## Global block (chapters 17 to 19) -/

/-- A setup script being applied (R480, R486): its sections still to come, the present one first (number, flash address, length), the
offset and number of its next record, the end of a `WAIT`, and the start of a `COMMAND`. -/
structure Script where
  secs : List (Nat × Nat × Nat)
  off : Nat
  rec_ : Nat
  wait : Option Nat
  cmdAt : Option Nat
  deriving DecidableEq, Repr

/-- A staging session (R491): slot 0 A or 1 B, image length, bytes written, the manifest held back, and the last staging request. -/
structure Stage where
  slot : Nat
  len : Nat
  written : Nat
  manifest : List Byte
  at_ : Nat
  deriving DecidableEq, Repr

structure GlbBlk where
  /-- The hub is held in cold reset (R472). -/
  inCold : Bool := true
  /-- The logic die is held in warm reset while the root PLL relocks (R471). -/
  pllHold : Bool := false
  pllLock : Bool := false
  /-- Root PLL reference: 0 `REFCLK`, 1 `P0`, 2 `P1`, 3 holdover (R468, R469). -/
  src : Nat := 0
  refOk : Bool := false
  /-- Causes of a warm reset that have occurred and not yet been served (R472). -/
  sources : List Nat := []
  /-- `READY` was set at this time. -/
  readyAt : Nat := 0
  /-- The slot booted: 0 A, 1 B; none in recovery. -/
  booted : Option Nat := none
  script : Option Script := none
  /-- Status with which the setup-script command in progress has answered (R485, R486). -/
  scriptAns : Option Nat := none
  /-- Script commands that had not answered after 100 ms (R485): code and tag; their answers go nowhere. -/
  scriptLate : List (Nat × Nat) := []
  /-- How the flash is read after boot step 2: opcode, dummy cycles, and divider of `FLASH_SCK`, 0 for 25 MHz (R478). -/
  flashOp : Nat := 0x13
  flashDummy : Nat := 0
  flashDiv : Nat := 0
  /-- Service port (R488 to R490): divider, previous request (type, sequence) and its response frame, last good frame, filtered `SVC_WP`. -/
  svcDiv : Nat := 2604
  svcPrev : Option (Nat × Nat × List Byte) := none
  svcGood : Nat := 0
  svcWp : Bool := false
  stage : Option Stage := none
  /-- A reset asked for by `SVC_RESET`: cold, due time. -/
  svcReset : Option (Bool × Nat) := none
  deriving DecidableEq, Repr

/-! ## The start of the cycle -/

/-- The model's own record of what stood at the start of the present cycle, for the rules that judge a cycle's events on it: registers,
points, packet buffer and traffic queues at the start of the `CLK_CORE` cycle, pin levels at that of the `CLK_SYS` cycle, and registers at
that of the `CLK_CAN` cycle (log entry 44). -/
structure Start where
  regs : Table Word := []
  pt : PtBlk := {}
  swc : SwcBlk := {}
  tm : TmBlk := {}
  /-- `TB3` in nanoseconds before the `CLK_TIME` edge of the cycle, if it has one. -/
  tb3 : Nat := 0
  pin : Table Bool := []
  canRegs : Table Word := []
  deriving DecidableEq, Repr

/-! ## The hub -/

/-- Everything the specification gives the hub but its non-volatile memories. -/
structure Hub where
  /-- Time since power-on in 1/60 ns. -/
  now : Nat := 0
  /-- W0 register words by byte address, where they differ from their reset value. -/
  regs : Table Word := []
  /-- The model's own counter of free values read so far. -/
  freeCtr : Nat := 0
  /-- The model's own record of outputs. -/
  out : List Output := []
  glb : GlbBlk := {}
  host : HostBlk := {}
  tim : TimBlk := {}
  twin : TwinBlk := {}
  ring : RingBlk := {}
  swc : SwcBlk := {}
  tm : TmBlk := {}
  chk : ChkBlk := {}
  pt : PtBlk := {}
  car : CarBlk := {}
  ln : LaneBlk := {}
  fret : FretBlk := {}
  can : CanBlk := {}
  usb : UsbBlk := {}
  net : NetBlk := {}
  start : Start := {}
  deriving DecidableEq, Repr

/-- What survives every reset: the flash, whose erased bytes read 0xFF, and the one-time fuses of the key hash, none while they are
unprogrammed (R473, R477, R483). -/
structure NonVol where
  flash : Memory := []
  fuse : Option (List Byte) := none
  deriving DecidableEq, Repr

/-- The machine: the hub, its non-volatile memories, and the queue of commands that wait, first in, first out. -/
structure State where
  hub : Hub := {}
  nv : NonVol := {}
  pending : List Instr := []
  deriving DecidableEq, Repr

/-- The machine right after reset. -/
def State.reset : State := {}

end Sys2Proof.Machine
end

