-- ==== Sys2Proof/Machine/Ops.lean ====
section
/-! DEFINITION. The named operations over the state: banks and memories, register words and their fields, events and
counters, free values, outputs, byte order, time, and the rules that every queue shares. -/

namespace Sys2Proof.Machine

/-! ## Banks and memories in canonical form -/

/-- Entry `k` of a bank whose unlisted entries are `d`. -/
def tget {α : Type} (d : α) : Table α → Nat → α
  | [], _ => d
  | (j, v) :: t, k => if j = k then v else tget d t k

/-- The bank without entry `k`. -/
def terase {α : Type} (k : Nat) : Table α → Table α
  | [] => []
  | (j, v) :: t => if j = k then terase k t else (j, v) :: terase k t

/-- The bank with `v` put in at index `k`, before the first greater index. -/
def tins {α : Type} (k : Nat) (v : α) : Table α → Table α
  | [] => [(k, v)]
  | (j, w) :: t => if k < j then (k, v) :: (j, w) :: t else (j, w) :: tins k v t

/-- The bank with entry `k` set to `v`; a value equal to the default is not listed. -/
def tset {α : Type} [DecidableEq α] (d : α) (t : Table α) (k : Nat) (v : α) : Table α :=
  if v = d then terase k t else tins k v (terase k t)

/-- Canonical form: indices strictly rising, every one at least `lo`, and no entry equal to the default. -/
def twfFrom {α : Type} [DecidableEq α] (d : α) : Nat → Table α → Bool
  | _, [] => true
  | lo, (k, v) :: t => decide (lo ≤ k) && decide (v ≠ d) && twfFrom d (k + 1) t

/-- The canonical form of a bank. -/
def twf {α : Type} [DecidableEq α] (d : α) (t : Table α) : Bool := twfFrom d 0 t

/-- A memory is canonical for the byte `d` that unwritten addresses read as. -/
def Memory.wf (d : Byte) (m : Memory) : Bool := twf d m

/-- The byte at an address. -/
def mget (d : Byte) (m : Memory) (a : Nat) : Byte := tget d m a

/-- The memory with one byte written. -/
def mset (d : Byte) (m : Memory) (a : Nat) (b : Byte) : Memory := tset d m a b

/-- `n` bytes from an address on. -/
def mread (d : Byte) (m : Memory) (a : Nat) : Nat → List Byte
  | 0 => []
  | n + 1 => mget d m a :: mread d m (a + 1) n

/-- A list of bytes written from an address on. -/
def mwrite (d : Byte) (m : Memory) (a : Nat) : List Byte → Memory
  | [] => m
  | b :: bs => mwrite d (mset d m a b) (a + 1) bs

/-! ## Bits and bytes -/

/-- Bits `lo` to `lo + w - 1` of a number. -/
def bitsN (n lo w : Nat) : Nat := n / 2 ^ lo % 2 ^ w

/-- Bits `lo` to `lo + w - 1` of a word. -/
def bits (x : Word) (f : Nat × Nat) : Nat := bitsN x.toNat f.1 f.2

/-- The word with field `f` replaced by the low bits of `v`. -/
def putBits (x : Word) (f : Nat × Nat) (v : Nat) : Word :=
  let m := BitVec.ofNat 32 ((2 ^ f.2 - 1) * 2 ^ f.1)
  (x &&& ~~~ m) ||| (BitVec.ofNat 32 (v % 2 ^ f.2 * 2 ^ f.1))

def bitB (b : Bool) : Nat := if b then 1 else 0

/-- A byte from a number. -/
def byte (n : Nat) : Byte := BitVec.ofNat 8 n

def word (n : Nat) : Word := BitVec.ofNat 32 n

/-- `n` as `k` bytes, most significant first (R2: wire formats are big-endian). -/
def beBytes : Nat → Nat → List Byte
  | 0, _ => []
  | k + 1, n => byte (n / 2 ^ (8 * k)) :: beBytes k n

/-- `n` as `k` bytes, least significant first (R2: registers are little-endian). -/
def leBytes : Nat → Nat → List Byte
  | 0, _ => []
  | k + 1, n => byte n :: leBytes k (n / 256)

/-- The number that bytes spell, most significant first. -/
def beNat (bs : List Byte) : Nat := bs.foldl (fun a b => a * 256 + b.toNat) 0

/-- The number that bytes spell, least significant first. -/
def leNat : List Byte → Nat
  | [] => 0
  | b :: bs => b.toNat + 256 * leNat bs

/-- Bytes `i` to `i + n - 1`. -/
def slice (bs : List Byte) (i n : Nat) : List Byte := (bs.drop i).take n

/-- The number that `n` bytes from index `i` spell, most significant first. -/
def beAt (bs : List Byte) (i n : Nat) : Nat := beNat (slice bs i n)

/-- A list padded with zero bytes to at least `n`. -/
def padTo (n : Nat) (bs : List Byte) : List Byte := bs ++ List.replicate (n - bs.length) 0

/-- The words that a byte list spells, little-endian, the last one padded with 0. -/
def leWords : Nat → List Byte → List Word
  | 0, _ => []
  | k + 1, bs => word (leNat (bs.take 4)) :: leWords k (bs.drop 4)

/-- Number of ones in the low `n` bits. -/
def popCount : Nat → Nat → Nat
  | 0, _ => 0
  | n + 1, x => x % 2 + popCount n (x / 2)

def testBit (n i : Nat) : Bool := n / 2 ^ i % 2 = 1

/-- The numbers below `n` that satisfy `p`, rising. -/
def below (n : Nat) (p : Nat → Bool) : List Nat := (List.range n).filter p

/-- The least number below `n` that satisfies `p`. -/
def leastBelow (n : Nat) (p : Nat → Bool) : Option Nat := (List.range n).find? p

/-- A number taken as a signed value of `w` bits. -/
def toSigned (w n : Nat) : Int :=
  let m := n % 2 ^ w
  if m < 2 ^ (w - 1) then (m : Int) else (m : Int) - (2 ^ w : Nat)

/-- A signed value as `w` bits in two's complement. -/
def ofSigned (w : Nat) (z : Int) : Nat := (z % (2 ^ w : Nat)).toNat

def ceilDiv (a b : Nat) : Nat := (a + b - 1) / b

/-! ## Register words -/

/-- The stored word at W0 byte address `a`. -/
def Hub.rd (h : Hub) (a : Nat) : Word := tget (resetWord a) h.regs a

/-- The hub with the stored word at `a` set. -/
def Hub.wr (h : Hub) (a : Nat) (w : Word) : Hub := { h with regs := tset (resetWord a) h.regs a w }

/-- The word that stood at `a` at the start of the present `CLK_CORE` cycle. -/
def Hub.rdStart (h : Hub) (a : Nat) : Word := tget (resetWord a) h.start.regs a

/-- Field `f` of the word that stood at `a` at the start of the present `CLK_CORE` cycle, and a one-bit field as a Bool. -/
def Hub.fldStart (h : Hub) (a : Nat) (f : Nat × Nat) : Nat := bits (h.rdStart a) f
def Hub.flagStart (h : Hub) (a : Nat) (f : Nat × Nat) : Bool := h.fldStart a f != 0

/-- The hub with its present contents noted as those at the start of the `CLK_CORE` cycle, and of the `CLK_SYS` and `CLK_CAN` cycles
where these begin with it. -/
def Hub.note (h : Hub) (sys can : Bool) : Hub :=
  { h with start := { regs := h.regs, pt := h.pt, swc := h.swc, tm := h.tm, tb3 := (tget ({} : TimeBase) h.tim.base 3).ns, pin := if sys then h.ln.pin else h.start.pin,
                      canRegs := if can then h.regs else h.start.canRegs } }

/-- Field `f` of the word at `a`. -/
def Hub.fld (h : Hub) (a : Nat) (f : Nat × Nat) : Nat := bits (h.rd a) f

/-- A one-bit field as a Bool. -/
def Hub.flag (h : Hub) (a : Nat) (f : Nat × Nat) : Bool := h.fld a f != 0

/-- The hub with field `f` of the word at `a` set to `v`. -/
def Hub.setFld (h : Hub) (a : Nat) (f : Nat × Nat) (v : Nat) : Hub := h.wr a (putBits (h.rd a) f v)

/-- Set a sticky event bit (R5): a bit is set whether or not it is enabled. -/
def Hub.evt (h : Hub) (a : Nat) (f : Nat × Nat) : Hub := h.wr a (h.rd a ||| BitVec.ofNat 32 (2 ^ f.1))

/-- Set bit `n` of a field of several sticky bits. -/
def Hub.evtN (h : Hub) (a : Nat) (f : Nat × Nat) (n : Nat) : Hub := h.wr a (h.rd a ||| BitVec.ofNat 32 (2 ^ (f.1 + n)))

/-- Add to a 32-bit statistics counter, which saturates (R6). -/
def Hub.countN (h : Hub) (a n : Nat) : Hub := h.wr a (word (min 0xFFFFFFFF ((h.rd a).toNat + n)))

/-- Add 1 to a statistics counter. -/
def Hub.count (h : Hub) (a : Nat) : Hub := h.countN a 1

/-- Add 1 to a counter that is a field of a word; it saturates (R6). -/
def Hub.countFld (h : Hub) (a : Nat) (f : Nat × Nat) : Hub :=
  h.setFld a f (min (2 ^ f.2 - 1) (h.fld a f + 1))

/-! ## Free values and outputs -/

/-- The free value the next reading takes. -/
def Hub.freeNow (h : Hub) : Word := Config.freeWord h.freeCtr

/-- The counter of free values advanced. -/
def Hub.tick (h : Hub) : Hub := { h with freeCtr := h.freeCtr + 1 }

/-- Something put out. -/
def Hub.emit (h : Hub) (o : Output) : Hub := { h with out := h.out ++ [o] }

/-! ## Time -/

/-- Model time units in one nanosecond, microsecond, millisecond and second. -/
def tuNs : Nat := 60
def tuUs : Nat := 60000
def tuMs : Nat := 60000000
def tuS : Nat := 60000000000

/-- One `CLK_CORE` cycle: 4 VCO periods of 25/60 ns. -/
def tuCore : Nat := 100

/-- Base `b` in nanoseconds since its epoch (R331). -/
def Hub.baseNs (h : Hub) (b : Nat) : Nat := (tget ({} : TimeBase) h.tim.base b).ns

/-- Base `b` as a stamp captured now carries it: in the cycle of a step, the time before the step (R337). -/
def Hub.capNs (h : Hub) (b : Nat) : Nat :=
  let t := tget ({} : TimeBase) h.tim.base b
  ((t.ns : Int) - t.back).toNat

/-- What a stamp of the instant `t` carries of base `b`, in 10^-12 ns: the base as it stood in the `CLK_TIME` cycle of that instant, in the cycle
of a step before the step (R331, R337). -/
def Hub.tbAt (h : Hub) (b t : Nat) : Int :=
  let x := tget ({} : TimeBase) h.tim.base b
  let k := t / 300
  match (x.past.find? fun s => decide (s.tick ≤ k)).or x.past.getLast? with
  | some s => ((s.ns * 10 ^ 12 + s.sub : Nat) : Int) + ((k : Int) - s.tick) * s.inc - (if k = s.tick then s.back * 10 ^ 12 else 0)
  | none => ((x.ns * 10 ^ 12 + x.sub : Nat) : Int) + ((k : Int) - (h.now / 300 : Nat)) * (5 * 10 ^ 12)

/-- Base `b` in whole nanoseconds as a stamp of the instant `t` carries it. -/
def Hub.nsAt (h : Hub) (b t : Nat) : Int := h.tbAt b t / 10 ^ 12

/-- The short time of base `b` (R332). -/
def Hub.short (h : Hub) (b : Nat) : Nat := h.baseNs b % 2 ^ 40

/-- Seconds * 2^30 + nanoseconds, as record words 2 and 3 and `LAUNCH_TS` hold a time (R39, R296). -/
def stampOf (ns : Nat) : Nat := (ns / 1000000000 % 2 ^ 34) * 2 ^ 30 + ns % 1000000000

/-- The nanoseconds that such a stamp stands for. -/
def stampNs (ts : Nat) : Nat := ts / 2 ^ 30 * 1000000000 + ts % 2 ^ 30

/-- The comparator rule of R339: target `t` is reached at short time `n`. -/
def reached (n t : Nat) : Bool := (n + 2 ^ 40 - t % 2 ^ 40) % 2 ^ 40 < 2 ^ 39

/-- The present time of base `b` as a stamp. -/
def Hub.stampNow (h : Hub) (b : Nat) : Nat := stampOf (h.baseNs b)

/-! ## The boot state -/

def Hub.ready (h : Hub) : Bool := h.flag Reg.GLB_BOOT F.GLB_BOOT_READY

/-- Host accesses beyond the `GLB` registers are served (R475, R487). -/
def Hub.hostOpen (h : Hub) : Bool := h.ready && !h.flag Reg.GLB_BOOT F.GLB_BOOT_RECOVERY

/-! ## Roles -/

/-- The hub acts for its node: a single hub, or the active hub of a twin (R365). -/
def Hub.acts (h : Hub) : Bool := h.twin.role == .solo || h.twin.role == .active

/-- The hub acts on no input of its own: a standby, a hub whose state is being transferred, and an active hub that has journaled
`SWITCH`; its front ends feed the rewind buffer, not the queues (R369, R376, R382). -/
def Hub.follows (h : Hub) : Bool := h.twin.role == .standby || h.twin.role == .syncing || h.twin.halted

/-- Frames from the ring are delivered: by the hub that acts, until it stops acting for a switch (R382), and on a standby while a
`RING_RX` record's frame is delivered (R370). -/
def Hub.delivers (h : Hub) : Bool := (h.acts && !h.twin.halted) || h.twin.replay

/-! ## The journal of a twin (R366, R367) -/

/-- Bytes a record takes: an 8-byte header and its body. -/
def JRec.size (r : JRec) : Nat := 8 + 4 * r.body.length

/-- Bytes of the records not yet sent. -/
def jstoreSize (l : List JRec) : Nat := l.foldl (fun n r => n + r.size) 0

/-- The Strum's time base (R171). -/
def Hub.strumTb (h : Hub) : Nat := h.fld Reg.CAR_STRUM_BASE F.CAR_STRUM_BASE_TB

/-- Build a journal record. A record that finds the 128 KiB store full is dropped and counted (R368); its sequence number is
spent, so that the standby finds the gap. -/
def Hub.jnl (h : Hub) (kind : Nat) (body : List Word) : Hub :=
  if h.twin.role != .active then h else
  let r : JRec := { kind := kind, jseq := h.twin.jseq, act := h.baseNs h.strumTb % 2 ^ 32, body := body, at_ := h.now }
  let h := { h with twin := { h.twin with jseq := (h.twin.jseq + 1) % 65536, worked := true } }
  if jstoreSize h.twin.store + r.size ≤ 131072 then { h with twin := { h.twin with store := h.twin.store ++ [r] } }
  else (h.count Reg.TWIN_CNT_JNL_OVERFLOW).evt Reg.TWIN_EVT F.TWIN_EVT_JNL_OVERFLOW

/-! ## The common queue rules (R231 to R237) -/

/-- Credits that pops of this very `CLK_CORE` cycle have returned; they are usable from the next one (R232). -/
def QCommon.fresh (c : QCommon) (now : Nat) : Nat := if c.popAt = now then c.popN else 0

/-- Note one pop. -/
def QCommon.pop (c : QCommon) (now : Nat) : QCommon := { c with popAt := now, popN := c.fresh now + 1 }

/-- A push finds credit: the depth at the start of this cycle, and what was pushed since, leave room (R232, R234). -/
def QCommon.credit (c : QCommon) (now cap depth : Nat) : Bool := depth + c.fresh now < cap

/-- Where a queue's watermark settings and marks stand. -/
structure WmLoc where
  hi : Nat
  lo : Nat
  stat : Nat
  hiSeen : Nat × Nat
  loSeen : Nat × Nat
  cross : Nat × Nat
  evt : Nat
  evtBit : Nat × Nat

/-- The watermark state on the depth at the end of a cycle (R235). -/
def wmNext (high : Bool) (depth hi lo : Nat) : Bool := if high then decide (lo < depth) else decide (hi ≤ depth)

/-- What a crossing does (R236): `SEEN` bit, block event, `WM_CROSS`. -/
def Hub.crossing (h : Hub) (w : WmLoc) (rise : Bool) : Hub :=
  let h := if rise then h.evt w.stat w.hiSeen else h.evt w.stat w.loSeen
  (h.evt w.evt w.evtBit).countFld w.stat w.cross

/-! ## Applying a function to the hub of a state -/

/-- The hub is held in reset: cold (R472), or warm while the root PLL relocks (R471). -/
def Hub.held (h : Hub) : Bool := h.glb.inCold || h.glb.pllHold

/-- The outcome of a command whose effect on the hub is `f`; a hub held in reset does nothing. -/
def State.on (s : State) (f : Hub → Hub) : Host.Outcome State Fault Refusal :=
  .next { s with hub := if s.hub.held then s.hub else f s.hub }

/-- The outcome for the Net die, which also runs on through a cold reset while it holds its channels (R20, R434). -/
def State.onNet (s : State) (f : Hub → Hub) : Host.Outcome State Fault Refusal :=
  .next { s with hub := if s.hub.glb.inCold && !s.hub.net.hold then s.hub else f s.hub }

/-- The outcome for what runs on through a warm reset: the clock monitor (R471, R473). -/
def State.onPowered (s : State) (f : Hub → Hub) : Host.Outcome State Fault Refusal :=
  .next { s with hub := if s.hub.glb.inCold then s.hub else f s.hub }

/-- The outcome of an input that acts whether or not the hub is held in reset. -/
def State.onAny (s : State) (f : Hub → Hub) : Host.Outcome State Fault Refusal := .next { s with hub := f s.hub }

/-- Apply `f` for every index below `n`, rising. -/
def Hub.each (h : Hub) (n : Nat) (f : Hub → Nat → Hub) : Hub := (List.range n).foldl f h

/-- Apply `f` when the condition holds. -/
def Hub.when (h : Hub) (c : Bool) (f : Hub → Hub) : Hub := if c then f h else h

end Sys2Proof.Machine
end

