-- ==== Sys2Proof/Machine/Crypto.lean ====
section
/-! DEFINITION. The digest and the signature of an image (R479): SHA-512 as FIPS 180-4 defines it and the verification of an
Ed25519 signature as RFC 8032 defines it. Both standards are named by the specification; their algorithms are taken from them
(PRESUMED, log entry 9). -/

namespace Sys2Proof.Machine

/-! ## SHA-512 -/

/-- The first 80 primes, up to 409: no number from 2 to 20 but the prime itself divides them. -/
def shaPrimes : List Nat := (List.range 410).filter fun n => decide (2 ≤ n) && (List.range 21).all fun d => decide (d < 2) || d == n || n % d != 0

/-- Floor of the `k`-th root of `n`, given `r` below it, by bits `b - 1` to 0. -/
def rootBits (k n : Nat) : Nat → Nat → Nat
  | 0, r => r
  | b + 1, r => rootBits k n b (if (r + 2 ^ b) ^ k ≤ n then r + 2 ^ b else r)

/-- The first 64 bits of the fraction of the `k`-th root of a number below 512. -/
def rootFraction (k n : Nat) : Nat := rootBits k (n * 2 ^ (64 * k)) 69 0 % 2 ^ 64

/-- The round constants: fractions of the cube roots of the primes. -/
def shaConsts : List Nat := shaPrimes.map (rootFraction 3)

/-- The initial hash value: fractions of the square roots of the first eight primes. -/
def shaInit : List Nat := (shaPrimes.take 8).map (rootFraction 2)

def mod64 (n : Nat) : Nat := n % 2 ^ 64

/-- Exclusive or of the rotations of a 64-bit value to the right by each of these amounts. -/
def rotSum (by_ : List Nat) (x : Nat) : Nat := by_.foldl (fun s n => Nat.xor s (mod64 (x / 2 ^ n + x * 2 ^ (64 - n)))) 0

/-- The message schedule: the words so far, newest first, extended by `n` words. -/
def shaSchedule : Nat → List Nat → List Nat
  | 0, ws => ws
  | n + 1, ws =>
    let small := fun (back : Nat) (by_ : List Nat) (shift : Nat) =>
      let w := ws.getD (back - 1) 0
      Nat.xor (rotSum by_ w) (w / 2 ^ shift)
    shaSchedule n (mod64 (small 2 [19, 61] 6 + ws.getD 6 0 + small 15 [1, 8] 7 + ws.getD 15 0) :: ws)

/-- One round on the eight working variables, with the sum of its constant and its schedule word. -/
def shaRound (v : List Nat) (kw : Nat) : List Nat :=
  match v with
  | [a, b, c, d, e, f, g, h] =>
    let choice := Nat.lor (Nat.land e f) (Nat.land (2 ^ 64 - 1 - e) g)
    let majority := Nat.lor (Nat.land a (Nat.lor b c)) (Nat.land b c)
    let t := rotSum [14, 18, 41] e + choice + h + kw
    [mod64 (t + rotSum [28, 34, 39] a + majority), a, b, c, mod64 (d + t), e, f, g]
  | _ => v

/-- The hash value after one block of 128 bytes. -/
def shaBlock (hs : List Nat) (blk : List Byte) : List Nat :=
  let first := (List.range 16).map fun i => beAt blk (8 * (15 - i)) 8
  let sums := List.zipWith (· + ·) shaConsts (shaSchedule 64 first).reverse
  List.zipWith (fun x y => mod64 (x + y)) hs (sums.foldl shaRound hs)

def shaBlocks : Nat → List Nat → List Byte → List Nat
  | 0, hs, _ => hs
  | n + 1, hs, bs => shaBlocks n (shaBlock hs (bs.take 128)) (bs.drop 128)

/-- SHA-512 of a byte string: 64 bytes. -/
def sha512 (bs : List Byte) : List Byte :=
  let zeros := (239 - bs.length % 128) % 128
  let msg := bs ++ 0x80 :: (List.replicate zeros 0 ++ beBytes 16 (8 * bs.length))
  (shaBlocks (msg.length / 128) shaInit msg).flatMap (beBytes 8)

/-! ## Ed25519 -/

/-- The field prime, and the order of the base point. -/
def edP : Nat := 2 ^ 255 - 19
def edL : Nat := 2 ^ 252 + 27742317777372353535851937790883648493

/-- `b ^ e mod p` over `n` bits of the exponent. -/
def edPow : Nat → Nat → Nat → Nat
  | 0, _, _ => 1
  | n + 1, b, e =>
    let r := edPow n (b * b % edP) (e / 2)
    if e % 2 = 1 then b * r % edP else r

def edInv (x : Nat) : Nat := edPow 256 x (edP - 2)
def edSub (a b : Nat) : Nat := (a + edP - b % edP) % edP

/-- The curve constant d = -121665 / 121666. -/
def edD : Nat := (edP - 121665) * edInv 121666 % edP

/-- A point in extended coordinates: x = X / Z, y = Y / Z, x y = T / Z. -/
structure EdPoint where
  x : Nat
  y : Nat
  z : Nat
  t : Nat
  deriving DecidableEq, Repr

def edZero : EdPoint := { x := 0, y := 1, z := 1, t := 0 }

def EdPoint.add (p q : EdPoint) : EdPoint :=
  let a := edSub p.y p.x * edSub q.y q.x % edP
  let b := (p.y + p.x) * (q.y + q.x) % edP
  let c := 2 * p.t * q.t * edD % edP
  let d := 2 * p.z * q.z % edP
  let e := edSub b a
  let f := edSub d c
  let g := (d + c) % edP
  let h := (b + a) % edP
  { x := e * f % edP, y := g * h % edP, z := f * g % edP, t := e * h % edP }

/-- A multiple of a point, over `n` bits of the factor. -/
def EdPoint.mul : Nat → EdPoint → Nat → EdPoint
  | 0, _, _ => edZero
  | n + 1, p, k =>
    let r := EdPoint.mul n (p.add p) (k / 2)
    if k % 2 = 1 then p.add r else r

/-- Equality of the points that two sets of coordinates stand for. -/
def EdPoint.same (p q : EdPoint) : Bool :=
  p.x * q.z % edP == q.x * p.z % edP && p.y * q.z % edP == q.y * p.z % edP

/-- The x coordinate of a y coordinate, with its sign; none where no point has it. -/
def edRecover (y sign : Nat) : Option Nat :=
  if edP ≤ y then none else
  let x2 := edSub (y * y) 1 * edInv ((edD * y * y + 1) % edP) % edP
  if x2 = 0 then (if sign = 1 then none else some 0) else
  let x := edPow 256 x2 ((edP + 3) / 8)
  let x := if x * x % edP = x2 then x else x * edPow 256 2 ((edP - 1) / 4) % edP
  if x * x % edP ≠ x2 then none
  else if x % 2 = sign then some x else some (edP - x)

/-- The base point: y = 4 / 5, x even. -/
def edBase : EdPoint :=
  let y := 4 * edInv 5 % edP
  let x := (edRecover y 0).getD 0
  { x := x, y := y, z := 1, t := x * y % edP }

/-- The point that 32 bytes encode. -/
def edDecode (bs : List Byte) : Option EdPoint :=
  let n := leNat bs
  let y := n % 2 ^ 255
  (edRecover y (n / 2 ^ 255 % 2)).map fun x => { x := x, y := y, z := 1, t := x * y % edP }

/-- The signature of a message under a public key is good: [8][S]B = [8]R + [8][k]A. -/
def edVerify (pub msg sig : List Byte) : Bool :=
  match edDecode (pub.take 32), edDecode (sig.take 32) with
  | some a, some r =>
    let s := leNat (slice sig 32 32)
    let k := leNat (sha512 (sig.take 32 ++ pub.take 32 ++ msg)) % edL
    let l := (edBase.mul 256 s).mul 4 8
    let q := (r.add (a.mul 256 k)).mul 4 8
    decide (s < edL) && l.same q
  | _, _ => false

end Sys2Proof.Machine
end

