-- ==== Sys2Proof/Machine/Check.lean ====
section
/-! DEFINITION. Check values (chapter 08): the polynomial table and its computation, the snoop units, and the Guard. -/

namespace Sys2Proof.Machine

/-- User entry `e` is valid: its width is 8 to 32 (R218). -/
def Hub.userPoly (h : Hub) (e : Nat) : Option Poly :=
  let i := e - 12
  let w := h.fld (Reg.CRC_UCFG i) F.CRC_UCFG_WIDTH
  if 8 ≤ w ∧ w ≤ 32 then
    some { w := w, poly := (h.rd (Reg.CRC_UPOLY i)).toNat % 2 ^ w, init := (h.rd (Reg.CRC_UINIT i)).toNat % 2 ^ w,
           refin := h.flag (Reg.CRC_UCFG i) F.CRC_UCFG_REFIN, refout := h.flag (Reg.CRC_UCFG i) F.CRC_UCFG_REFOUT,
           xor := (h.rd (Reg.CRC_UXOR i)).toNat % 2 ^ w }
  else none

/-- CRC-32 of IEEE 802.3, entry 0. -/
def poly0 : Poly := ⟨32, 0x04C11DB7, 0xFFFFFFFF, true, true, 0xFFFFFFFF⟩
/-- CRC-32C, entry 1. -/
def poly1 : Poly := ⟨32, 0x1EDC6F41, 0xFFFFFFFF, true, true, 0xFFFFFFFF⟩
/-- CRC-8, entry 6. -/
def poly6 : Poly := ⟨8, 0x07, 0, false, false, 0⟩

/-- The polynomial table (R215): CAN entries and reserved entries name nothing that R216 computes. -/
def Hub.polyOf (h : Hub) (e : Nat) : Option Poly :=
  match e with
  | 0 => some poly0
  | 1 => some poly1
  | 2 => some ⟨16, 0x1021, 0xFFFF, true, true, 0xFFFF⟩
  | 3 => some ⟨16, 0x8005, 0xFFFF, true, true, 0⟩
  | 4 => some ⟨16, 0x3D65, 0, true, true, 0xFFFF⟩
  | 5 => some ⟨16, 0x3D65, 0, false, false, 0xFFFF⟩
  | 6 => some poly6
  | 12 | 13 | 14 | 15 => h.userPoly e
  | _ => none

/-- The low `n` bits of a number in reverse order. -/
def reverseBits : Nat → Nat → Nat
  | 0, _ => 0
  | n + 1, x => x % 2 * 2 ^ n + reverseBits n (x / 2)

/-- One bit step of R216. -/
def crcBit (p : Poly) (r : Nat) : Nat :=
  if r / 2 ^ (p.w - 1) % 2 = 1 then (Nat.xor (2 * r) p.poly) % 2 ^ p.w else 2 * r % 2 ^ p.w

def crcBits (p : Poly) : Nat → Nat → Nat
  | 0, r => r
  | n + 1, r => crcBits p n (crcBit p r)

/-- `feed(b)` of R216. -/
def crcFeed (p : Poly) (r : Nat) (b : Byte) : Nat :=
  let b := if p.refin then reverseBits 8 b.toNat else b.toNat
  crcBits p 8 (Nat.xor r (b * 2 ^ (p.w - 8)))

/-- `result` of R216. -/
def crcResult (p : Poly) (r : Nat) : Nat := Nat.xor (if p.refout then reverseBits p.w r else r) p.xor

/-- The check value over a list of bytes. -/
def crc (p : Poly) (bs : List Byte) : Nat := crcResult p (bs.foldl (crcFeed p) p.init)

/-- A check value as the bytes a lane sends (R217). -/
def crcBytes (p : Poly) (v : Nat) : List Byte :=
  if p.refout then leBytes (p.w / 8) v else beBytes (p.w / 8) v

/-! ## Snoop units (R219 to R221) -/

def Hub.snoop (h : Hub) (u : Nat) : Snoop := tget ({} : Snoop) h.chk.snoop u
def Hub.setSnoop (h : Hub) (u : Nat) (x : Snoop) : Hub :=
  { h with chk := { h.chk with snoop := tset ({} : Snoop) h.chk.snoop u x } }

/-- The polynomial a unit computes with: the entry its configuration named when `EN` was set, so that results stay readable (R220). -/
def Hub.snoopPoly (h : Hub) (u : Nat) : Option Poly := (h.snoop u).poly

def Snoop.result (x : Snoop) (r : Nat) : Nat :=
  match x.poly with
  | some p => crcResult p r
  | none => 0

/-- The unit's current result (R216). -/
def Hub.snoopResult (h : Hub) (u : Nat) : Nat := (h.snoop u).result (h.snoop u).reg

/-- The computation that ended in the cycle `now`. -/
def Snoop.ended (x : Snoop) (now : Nat) : Option SnoopEnd := x.done.filter fun d => d.at_ == now

/-- The register that a read or a copy of this cycle takes: of the computation that ended in it, where one did (R221). -/
def Snoop.taken (x : Snoop) (now : Nat) : Nat :=
  match x.ended now with
  | some d => d.reg
  | none => x.reg

/-- The result that a read or a copy of this cycle takes. -/
def Hub.snoopOut (h : Hub) (u : Nat) : Nat := (h.snoop u).result ((h.snoop u).taken h.now)

/-- `EN` is set: the unit computes with polynomial `p` and is initialised; its first byte arrives in a later cycle (R220). -/
def Hub.snoopStart (h : Hub) (u : Nat) (p : Poly) : Hub :=
  h.setSnoop u { poly := some p, reg := p.init, since := some h.now }

/-- The computation ends, by an `INIT` or by a frame end, and a new one starts empty. What ends twice in one cycle ends once when one of the
two is an `INIT` (R221). -/
def Hub.snoopEnd (h : Hub) (u : Nat) (init last : Bool) : Hub :=
  let x := h.snoop u
  let d := x.ended h.now
  let again := d.any fun d => d.init || init
  h.setSnoop u { x with
    reg := match x.poly with | some p => p.init | none => 0
    count := 0
    done := some { at_ := h.now, reg := if again then x.taken h.now else x.reg, init := init || d.any (·.init),
                   last := last || (again && d.any (·.last)) } }

/-- A unit's computation with further bytes; the byte count saturates. The bytes of a cycle with an `INIT` belong to the computation that it
ended (R221). -/
def Snoop.feed (x : Snoop) (p : Poly) (now : Nat) (bs : List Byte) : Snoop :=
  let run := { x with reg := bs.foldl (crcFeed p) x.reg, count := min 0xFFFFFFFF (x.count + bs.length) }
  match x.ended now with
  | some d =>
    let d' := { d with reg := bs.foldl (crcFeed p) d.reg }
    if d.init then { x with done := some d' } else { run with done := some d' }
  | none => run

/-- Feed bytes to one unit. -/
def Hub.snoopFeed (h : Hub) (u : Nat) (bs : List Byte) : Hub :=
  match h.snoopPoly u with
  | some p => h.setSnoop u ((h.snoop u).feed p h.now bs)
  | none => h

/-- Copy the result into `SNP_LAST` and mark it valid. -/
def Hub.snoopLatch (h : Hub) (u : Nat) : Hub :=
  (h.wr (Reg.SNP_LAST u) (word (h.snoopOut u))).setFld (Reg.SNP_FRAMES u) F.SNP_FRAMES_LAST_VALID 1

/-- Unit `u` is enabled, since an earlier cycle (R220), and watches stream (`src`, `id`), in direction `dir` where the source has one (R219). -/
def Hub.snoopOn (h : Hub) (src id dir u : Nat) : Bool :=
  let a := Reg.SNP_CFG u
  h.flag a F.SNP_CFG_EN && (h.snoop u).since != some h.now && h.fld a F.SNP_CFG_SRC == src && h.fld a F.SNP_CFG_ID == id &&
    (!(src == 3 || src == 4 || src == 5) || h.fld a F.SNP_CFG_DIR == dir)

/-- Bytes pass on a stream: every unit that watches it is fed. -/
def Hub.snoopBytes (h : Hub) (src id dir : Nat) (bs : List Byte) : Hub :=
  h.each 16 fun h u => if h.snoopOn src id dir u then h.snoopFeed u bs else h

/-- A frame ends on a stream: every unit with `FRAME_INIT` that watches it latches its result and starts again (R220). -/
def Hub.snoopFrameEnd (h : Hub) (src id dir : Nat) : Hub :=
  h.each 16 fun h u =>
    if h.snoopOn src id dir u && h.flag (Reg.SNP_CFG u) F.SNP_CFG_FRAME_INIT then
      let h := (h.snoopEnd u false true).snoopLatch u
      let h := h.setFld (Reg.SNP_FRAMES u) F.SNP_FRAMES_FRAMES (h.fld (Reg.SNP_FRAMES u) F.SNP_FRAMES_FRAMES + 1)
      h.evt Reg.CRC_EVT F.CRC_EVT_SNP_FRAME
    else h

/-- The fields of a unit's configuration word pass the checks of R219. -/
def Hub.snoopCfgOk (h : Hub) (w : Word) : Bool :=
  let src := bits w F.SNP_CFG_SRC
  let id := bits w F.SNP_CFG_ID
  let poly := bits w F.SNP_CFG_POLY
  let range := match src with
    | 1 | 2 | 3 => decide (id < 96)
    | 4 => decide (id < 32)
    | 5 => decide (id < 16)
    | 6 => decide (id < 252)
    | _ => true
  (h.polyOf poly).isSome && !((src == 1 || src == 2 || src == 3) && poly == 1) && range

/-- A write of a snoop unit's configuration word (R219). While `EN` is 0 its other fields are writable; a write that sets
`EN` applies them first, and is ignored as a whole when they fail the checks. While `EN` is 1 the RWL fields stand. -/
def Hub.snoopCfgWrite (h : Hub) (u : Nat) (w : Word) : Hub :=
  let a := Reg.SNP_CFG u
  let mask : Word := 0x000FFF3F
  let w := w &&& mask
  let refuse := fun (h : Hub) => h.evt Reg.CRC_EVT F.CRC_EVT_WRITE_REFUSED
  if h.flag a F.SNP_CFG_EN then
    let kept := putBits (h.rd a) F.SNP_CFG_EN (bits w F.SNP_CFG_EN)
    let h' := h.wr a kept
    if putBits w F.SNP_CFG_EN 0 = putBits (h.rd a) F.SNP_CFG_EN 0 then h' else refuse h'
  else if bits w F.SNP_CFG_EN = 1 then
    match h.polyOf (bits w F.SNP_CFG_POLY) with
    | some p => if h.snoopCfgOk w then (h.wr a w).snoopStart u p else refuse h
    | none => refuse h
  else h.wr a w

/-- `SNOOP_ENABLE` (R219): a write that sets a unit's `EN`. -/
def execSnoopEnable (u : Fin 16) (w : Word) (s : State) : Host.Outcome State Fault Refusal :=
  s.on fun h => h.snoopCfgWrite u (w ||| 1)

/-- `SNOOP_INIT` (R221): a host write of `SNP_CMD.INIT` latches the result and starts the unit again. -/
def Hub.snoopInit (h : Hub) (u : Nat) : Hub := (h.snoopEnd u true true).snoopLatch u

def execSnoopInit (u : Fin 16) (s : State) : Host.Outcome State Fault Refusal := s.on fun h => h.snoopInit u

/-! ## The Guard (R222 to R229) -/

/-- The pseudo-header of R223. -/
def guardPseudo (alive src dst : Nat) (group : Bool) (flow start count : Nat) : List Byte :=
  [1, byte (alive % 16 * 16), byte src, if group then 0xFF else byte dst, if group then byte dst else 0, byte flow] ++
    beBytes 3 start ++ [byte count, 0, 0]

/-- The Guard of a bundle: CRC-32C over the pseudo-header and the record bytes (R222). -/
def guardOf (alive src dst : Nat) (group : Bool) (flow start count : Nat) (recs : List Byte) : Nat :=
  crc poly1 (guardPseudo alive src dst group flow start count ++ recs)

/-- Verdicts of the alive rule (R226). -/
inductive AliveVerdict where
  | new | ok | gap (missing : Nat) | repeat_ | seq | resync
  deriving DecidableEq, Repr

def Hub.findPair (h : Hub) (node flow : Nat) : Option Pair :=
  h.chk.pairs.find? fun p => p.node == node && p.flow == flow

/-- The alive rule (R226) on the pair's tracking entry. -/
def Hub.aliveRule (h : Hub) (node flow alive : Nat) : AliveVerdict :=
  let k := h.fld Reg.GRD_CFG F.GRD_CFG_ALIVE_K
  match h.findPair node flow with
  | none => .new
  | some p =>
    let d := (alive + 16 - p.last % 16) % 16
    if d = 1 then .ok
    else if d = 0 then .repeat_
    else if d ≤ k then .gap (d - 1)
    else match p.cand with
      | some c =>
        let e := (alive + 16 - c % 16) % 16
        if 1 ≤ e ∧ e ≤ k then .resync else .seq
      | none => .seq

/-- The pair is accepted with counter `alive`: it becomes the most recently accepted; a new pair takes the place of the least
recently accepted one when the table of 1,024 pairs is full (R226, R227). -/
def Hub.pairAccept (h : Hub) (node flow alive : Nat) : Hub :=
  let rest := h.chk.pairs.filter fun p => !(p.node == node && p.flow == flow)
  let isNew := (h.findPair node flow).isNone
  let full := isNew && decide (1024 ≤ rest.length)
  let h' := { h with chk := { h.chk with pairs := (if full then rest.drop 1 else rest) ++ [({ node := node, flow := flow, last := alive, cand := none } : Pair)] } }
  h'.when full (·.count Reg.GRD_CNT_EVICT)

/-- A `GUARD_SEQ` stores the received counter as the pair's candidate (R226). -/
def Hub.pairCandidate (h : Hub) (node flow alive : Nat) : Hub :=
  { h with chk := { h.chk with pairs := h.chk.pairs.map fun p =>
      if p.node == node && p.flow == flow then { p with cand := some alive } else p } }

/-- The alive counter of a flow (R224). -/
def Hub.aliveOf (h : Hub) (flow : Nat) : Nat := tget 0 h.chk.alive flow
def Hub.aliveNext (h : Hub) (flow : Nat) : Hub :=
  { h with chk := { h.chk with alive := tset 0 h.chk.alive flow ((h.aliveOf flow + 1) % 16) } }

/-- A user entry is written (R218): refused while a lane or an enabled snoop unit uses it. `inUse` says whether a lane does. -/
def Hub.userPolyWrite (h : Hub) (e : Nat) (a : Nat) (w : Word) (laneUses : Bool) : Hub :=
  let unitUses := (List.range 16).any fun u =>
    h.flag (Reg.SNP_CFG u) F.SNP_CFG_EN && h.fld (Reg.SNP_CFG u) F.SNP_CFG_POLY == e
  if laneUses || unitUses then h.evt Reg.CRC_EVT F.CRC_EVT_WRITE_REFUSED
  else h.wr a (if a = Reg.CRC_UCFG (e - 12) then w &&& 0xFF else w)

end Sys2Proof.Machine
end

