-- ==== Sys2Proof/Machine/Nrp.lean ====
section
/-! DEFINITION. Frames on the wire (chapters 02, 08 and 11): Ethernet and NRP headers, wire records with their ages, bundles. -/

namespace Sys2Proof.Machine

/-- The fields of an NRP header (R296). -/
structure Nrp where
  ver : Nat
  typ : Nat
  flags : Nat
  src : Nat
  dst : Nat
  seq : Nat
  flow : Nat
  cls : Nat
  strum : Nat
  len : Nat
  gen : Nat
  alive : Nat
  ltb : Nat
  hops : Nat
  launch : Nat
  deriving DecidableEq, Repr

/-- NRP types (R297). -/
def tHello : Nat := 1
def tParade : Nat := 2
def tCheck : Nat := 3
def tPub : Nat := 4
def tFrame : Nat := 5
def tReq : Nat := 6
def tRsp : Nat := 7
def tLate : Nat := 8

/-- Header length by version (R296). -/
def nrpHdrLen (ver : Nat) : Nat := if ver = 3 then 24 else if ver = 2 then 16 else 12

def Nrp.ltValid (n : Nrp) : Bool := testBit n.flags 0
def Nrp.turned (n : Nrp) : Bool := testBit n.flags 2
def Nrp.group (n : Nrp) : Bool := testBit n.flags 3

/-- The NRP header read from a frame's bytes, destination address first (R296). -/
def nrpParse (bs : List Byte) : Nrp :=
  let b := bs.drop 14
  let ver := beAt b 0 1 / 16
  let v1 := ver = 1
  { ver := ver, typ := beAt b 0 1 % 16, flags := beAt b 1 1, src := beAt b 2 1, dst := beAt b 3 1,
    seq := if v1 then beAt b 4 1 else beAt b 4 2, flow := if v1 then beAt b 5 1 else beAt b 6 1,
    cls := if v1 then 0 else beAt b 7 1 / 32, strum := if v1 then beAt b 6 2 else beAt b 8 2,
    len := if v1 then beAt b 8 2 else beAt b 10 2, gen := if ver = 3 then beAt b 12 1 / 16 else 0,
    alive := if ver = 3 then beAt b 12 1 % 16 else 0, ltb := if ver = 3 then beAt b 13 1 / 64 else 0,
    hops := if v1 then 0 else beAt b 14 1, launch := if ver = 3 then beAt b 16 8 else 0 }

/-- The header as bytes, in its version's layout (R296). -/
def nrpBytes (n : Nrp) : List Byte :=
  let first := [byte (n.ver * 16 + n.typ % 16), byte n.flags, byte n.src, byte n.dst]
  if n.ver = 1 then first ++ [byte n.seq, byte n.flow] ++ beBytes 2 n.strum ++ beBytes 2 n.len ++ [0, 0]
  else first ++ beBytes 2 n.seq ++ [byte n.flow, byte (n.cls % 8 * 32)] ++ beBytes 2 n.strum ++ beBytes 2 n.len ++
    (if n.ver = 3 then [byte (n.gen % 16 * 16 + n.alive % 16), byte (n.ltb % 4 * 64), byte n.hops, 0] ++ beBytes 8 n.launch
     else [0, 0, byte n.hops, 0])

/-- `RING_MAC` as a 48-bit number. -/
def Hub.ringMac (h : Hub) : Nat :=
  h.fld Reg.RING_MAC_HI F.RING_MAC_HI_MAC_HI * 2 ^ 32 + (h.rd Reg.RING_MAC_LO).toNat

def Hub.etherType (h : Hub) : Nat := h.fld Reg.RING_CFG F.RING_CFG_ETHERTYPE

/-- Bytes 0 to 13 of an NRP frame for destination `dst` (R295). -/
def Hub.ethHead (h : Hub) (dst : Nat) : List Byte :=
  beBytes 4 (h.rd Reg.RING_DA_HI).toNat ++ [byte (h.fld Reg.RING_DA_LO F.RING_DA_LO_DA_LO), byte dst] ++
    beBytes 6 h.ringMac ++ beBytes 2 h.etherType

/-- The frame carries NRP: its EtherType field, without an IEEE 802.1Q tag, is NRP's (R295). -/
def Hub.isNrp (h : Hub) (bs : List Byte) : Bool := beAt bs 12 2 == h.etherType

/-- A frame's length from destination address to FCS; the bytes held end before the FCS. -/
def frameLen (bs : List Byte) : Nat := max 64 (bs.length + 4)

/-- `lw` of R244. -/
def wireLen (bs : List Byte) : Nat := frameLen bs + 20

/-- The FCS of a frame's bytes, as the number sent (R213). -/
def fcsOf (bs : List Byte) : Nat := crc poly0 bs

/-- The FCS field of a received frame, as the number that `fcsOf` gives: it is sent least significant byte first. -/
def fcsField (bs : List Byte) : Nat := leNat (bs.drop (bs.length - 4))

/-- L of an NRP frame as its header states it (R296). -/
def nrpLength (n : Nrp) : Nat := max 64 (18 + nrpHdrLen n.ver + n.len)

/-- How a port judges a frame (R275). -/
inductive FcsJudge where
  | good | stomped | bad
  deriving DecidableEq, Repr

/-- Judgement of a whole frame, FCS field included (R275). -/
def judgeFcs (bs : List Byte) : FcsJudge :=
  let c := fcsOf (bs.take (bs.length - 4))
  let r := fcsField bs
  if r = c then .good else if r = Nat.xor c 0xFFFFFFFF then .stomped else .bad

/-- Bytes with `new` put over those at index `i`. -/
def setSlice (bs : List Byte) (i : Nat) (new : List Byte) : List Byte := bs.take i ++ new ++ bs.drop (i + new.length)

/-! ## Wire records and ages (R52, R53) -/

/-- `AGE` of a record whose launch instant on its own base is `launch` (ns since the epoch). -/
def ageOf (r : Rec) (launch : Int) : Nat :=
  if r.ts = 0 then 2 ^ 40 - 1
  else
    let age := (launch - (stampNs r.ts.toNat : Int)).toNat
    if age < 2 ^ 39 then age else 2 ^ 39 + min (2 ^ 39 - 2) ((age + 500000) / 1000000)

/-- The age in nanoseconds that an `AGE` field states; none when the record has no timestamp. -/
def ageNs (a : Nat) : Option Nat :=
  if a < 2 ^ 39 then some a else if a = 2 ^ 40 - 1 then none else some ((a - 2 ^ 39) * 1000000)

def Rec.tb (r : Rec) : Nat := bitsN r.flags.toNat 0 2

/-- The 12-byte wire record (R52); quality bits 14 and 15 are sent as 0. -/
def recWire (r : Rec) (age : Nat) : List Byte :=
  beBytes 4 r.value.toNat ++ beBytes 2 (r.quality.toNat % 2 ^ 14) ++ [byte (r.typ.toNat * 16 + r.tb)] ++ beBytes 5 age

/-- A record read from the wire: value, quality [13:0], type, base, age field. -/
structure WireRec where
  value : Word
  quality : Nat
  typ : Nat
  tb : Nat
  age : Nat
  deriving DecidableEq, Repr

def wireRec (bs : List Byte) : WireRec :=
  { value := word (beAt bs 0 4), quality := beAt bs 4 2 % 2 ^ 14, typ := beAt bs 6 1 / 16, tb := beAt bs 6 1 % 4, age := beAt bs 7 5 }

/-- The timestamp a receiver gives a record (R53, R299). `rx` are its receive stamps in ns by base. -/
def recvStamp (n : Nrp) (rx : Nat → Int) (w : WireRec) : Nat :=
  match ageNs w.age with
  | none => 0
  | some a =>
    let t : Int :=
      if n.ver = 3 ∧ n.ltValid = true then
        let l : Int := (stampNs n.launch : Int)
        if w.tb = n.ltb then l - a else rx w.tb - a - (rx n.ltb - l)
      else rx w.tb - a
    stampOf t.toNat

/-- A received bundle: start address, count, records, Guard where one is carried. -/
structure Bundle where
  start : Nat
  count : Nat
  recs : List WireRec
  raw : List Byte
  guard : Option Nat
  deriving DecidableEq, Repr

def chunks12 : Nat → List Byte → List (List Byte)
  | 0, _ => []
  | n + 1, bs => bs.take 12 :: chunks12 n (bs.drop 12)

/-- The bundle in payload bytes (R54), with a Guard for version 3; none when its count disagrees with the length. -/
def bundleParse (ver : Nat) (payload : List Byte) : Option Bundle :=
  let count := beAt payload 3 1
  let g := if ver = 3 then 4 else 0
  if payload.length = 4 + 12 * count + g ∧ count ≤ 122 then
    let raw := slice payload 4 (12 * count)
    some { start := beAt payload 0 3, count := count, recs := (chunks12 count raw).map wireRec, raw := raw,
           guard := if ver = 3 then some (beAt payload (4 + 12 * count) 4) else none }
  else none

/-! ## Drafts: bundles finished at the launch of their first copy -/

/-- Time of base `b` in units of 2^-16 ns at an instant `delta` units of 1/60 ns from now, captured to one VCO period of 25/60 ns and counted
on from the base's last tick (R31, R331, R340). -/
def Hub.stampAt (h : Hub) (b : Nat) (delta : Int) : Int :=
  let t := tget ({} : TimeBase) h.tim.base b
  let d := ((h.now : Int) + delta) / 25 * 25 - (h.now / 300 * 300 : Nat)
  ((t.ns * 65536 + t.sub * 65536 / 10 ^ 12 : Nat) : Int) + d * 65536 / 60

/-- Base `b` in 2^-16 ns as a receive stamp of the past instant `t` carries it; one VCO period of resolution. -/
def Hub.stampThen (h : Hub) (b t : Nat) : Int :=
  let t := t / 25 * 25
  h.tbAt b t * 65536 / 10 ^ 12 + (t % 300 * 65536 / 60 : Nat)

/-- The same in whole nanoseconds. -/
def Hub.baseAt (h : Hub) (b : Nat) (delta : Int) : Int := h.stampAt b delta / 65536

/-- Picoseconds in units of 2^-16 ns. -/
def psFine (ps : Int) : Int := ps * 65536 / 1000

/-- The payload of a draft launched `delta` units from now: ages on each record's own base (R53), then the Guard (R222). -/
def Hub.draftPayload (h : Hub) (d : Draft) (delta : Int) : List Byte :=
  let recs := d.recs.foldl (fun acc r => acc ++ recWire r (ageOf r (h.baseAt r.tb delta))) []
  let g := if d.ver = 3 then beBytes 4 (guardOf d.alive d.src d.dst d.group d.flow d.start d.count recs) else []
  d.txn ++ beBytes 3 d.start ++ [byte d.count] ++ recs ++ g

/-- The frame with its draft finished for a launch `delta` units from now. -/
def Hub.finishDraft (h : Hub) (f : Frame) (delta : Int) : Frame :=
  match f.draft with
  | none => f
  | some d => { f with bytes := padTo 60 (d.head ++ h.draftPayload d delta), draft := none }

/-- Write `LAUNCH_TS`, `LTB` and `LT_VALID` into an originated version-3 frame (R299). -/
def writeLaunch (bs : List Byte) (ltb ts : Nat) : List Byte :=
  if beAt bs 14 1 / 16 = 3 then
    let b1 := setSlice bs 15 [byte (beAt bs 15 1 / 2 * 2 + 1)]
    let b2 := setSlice b1 27 [byte (ltb % 4 * 64)]
    setSlice b2 30 (beBytes 8 ts)
  else bs

/-! ## Building frames the node originates (R294 to R296) -/

/-- Version of group `g` in `RING_GRP_VER`; 0 is taken as 3 (R329). -/
def Hub.groupVer (h : Hub) (g : Nat) : Nat :=
  let v := bitsN (h.rd (Reg.RING_GRP_VER (g / 16))).toNat (2 * (g % 16)) 2
  if v = 0 then 3 else v

def Hub.nodeEnt (h : Hub) (n : Nat) : NodeEnt := tget ({} : NodeEnt) h.ring.nodes n

/-- Version of a frame for a destination (R294). -/
def Hub.verFor (h : Hub) (dst : Nat) (group : Bool) : Nat :=
  let own := h.fld Reg.RING_CFG F.RING_CFG_VER_MAX
  if group then min own (h.groupVer dst)
  else let e := h.nodeEnt dst
       if e.present then min own e.verMax else own

/-- The header of a frame the node originates in the given version. -/
def Hub.ownHdr (h : Hub) (ver typ flags dst seq flow cls strum len alive : Nat) : Nrp :=
  { ver := ver, typ := typ, flags := flags, src := h.ring.addr, dst := dst, seq := if ver = 1 then seq % 256 else seq,
    flow := flow, cls := cls, strum := strum, len := len, gen := h.ring.gen, alive := alive, ltb := 0,
    hops := h.fld Reg.RING_CFG F.RING_CFG_HOPS_INIT, launch := 0 }

/-! ## Standard frames: IEEE 802.1Q and HSR tags (R271, R321) -/

/-- What the header of a standard frame says: VLAN ID (0 untagged), priority of a single 802.1Q tag, index of an HSR tag and its
sequence number, EtherType, and the index of the data after it. -/
structure Std where
  vid : Nat
  pcp : Option Nat
  hsr : Option (Nat × Nat)
  etype : Nat
  data : Nat
  deriving DecidableEq, Repr

/-- EtherTypes of the 802.1Q tag, the HSR tag, HSR supervision and PTP (log entry 30). -/
def etVlan : Nat := 0x8100
def etHsr : Nat := 0x892F
def etSuper : Nat := 0x88FB
def etPtp : Nat := 0x88F7

/-- An HSR tag at index `i`: where it lies, its sequence number, the EtherType after it and where the data begins. -/
def hsrAt (bs : List Byte) (i : Nat) : Option (Nat × Nat) × Nat × Nat :=
  if beAt bs i 2 = etHsr then (some (i, beAt bs (i + 4) 2), beAt bs (i + 6) 2, i + 8) else (none, beAt bs i 2, i + 2)

/-- The header of a standard frame; a VLAN tag stands before an HSR tag. -/
def stdParse (bs : List Byte) : Std :=
  if beAt bs 12 2 = etVlan then
    let r := hsrAt bs 16
    { vid := beAt bs 14 2 % 4096, pcp := if beAt bs 16 2 = etVlan then none else some (beAt bs 14 2 / 2 ^ 13),
      hsr := r.1, etype := r.2.1, data := r.2.2 }
  else
    let r := hsrAt bs 12
    { vid := 0, pcp := none, hsr := r.1, etype := r.2.1, data := r.2.2 }

/-- The frame without its HSR tag (R321). -/
def hsrStrip (bs : List Byte) : List Byte :=
  match (stdParse bs).hsr with
  | some (i, _) => padTo 60 (bs.take i ++ bs.drop (i + 6))
  | none => bs

/-- The frame with an HSR tag of sequence `seq` for ring port `p`: PathId is the port, LSDU size the bytes after the tag
(R321, log entry 30). -/
def hsrTag (p seq : Nat) (bs : List Byte) : List Byte :=
  let i := if beAt bs 12 2 = etVlan then 16 else 12
  bs.take i ++ beBytes 2 etHsr ++ beBytes 2 (p % 2 * 2 ^ 12 + (bs.length - i) % 2 ^ 12) ++ beBytes 2 seq ++ bs.drop i

/-- A group address: the first bit on the wire is 1. -/
def groupAddr (bs : List Byte) : Bool := testBit (beAt bs 0 1) 0

end Sys2Proof.Machine
end

