-- ==== Sys2Proof/Machine/Answer.lean ====
section
/-! DEFINITION. How a command is accepted, refused and answered (R447 to R458), and how a transaction tag completes (R63). -/

namespace Sys2Proof.Machine

/-- Status codes (R452). -/
def sOK : Nat := 0
def sESTATE : Nat := 1
def sEARG : Nat := 2
def sEBUSY : Nat := 3
def sENOTSUP : Nat := 4
def sEVERSION : Nat := 5
def sETIMEOUT : Nat := 7
def sENORES : Nat := 8
def sEPEER : Nat := 9
def sEDENIED : Nat := 10

/-- A command as it is taken: source, code, tag, reserved bits of word 0, words 1 to 7. -/
structure CmdIn where
  src : CmdSrc
  code : Nat
  tag : Nat
  rsv : Nat
  args : List Word
  deriving DecidableEq, Repr

/-- Argument word `i`, counted from 1 (R451). -/
def CmdIn.arg (c : CmdIn) (i : Nat) : Nat := (c.args.getD (i - 1) 0).toNat

/-- Argument words from `i` on are 0 (R451). -/
def CmdIn.zeroFrom (c : CmdIn) (i : Nat) : Bool := (c.args.drop (i - 1)).all (· == 0)

def CmdIn.ref (c : CmdIn) : CmdRef := ⟨c.src, c.code, c.tag⟩

/-- What a command's checks and effect come to. -/
inductive Ack where
  /-- Refused: status, `DETAIL`, `OBJECT`. -/
  | refuse (status detail obj : Nat)
  /-- Answered at once: status and result words. -/
  | done (h : Hub) (res : List Word)
  /-- Accepted; answers on completion. -/
  | later (h : Hub)

/-- Post a response on queue `q` (R449). -/
def Hub.post (h : Hub) (q code tag status detail obj : Nat) (res : List Word) : Hub :=
  let tail := h.fld (Reg.HQ_RSP q) F.HQ_RSP_TAIL
  let i := tail % 16 * 8
  let w0 := word (code % 65536 + tag % 256 * 65536 + status * 2 ^ 24)
  let w1 := if h.fld (Reg.HQ_CFG q) F.HQ_CFG_VERSION = 1 then 0 else word (detail % 65536 + obj % 256 * 65536)
  let ws := w0 :: w1 :: ((res ++ List.replicate 6 0).take 6)
  let h := (List.range 8).foldl (fun h j => h.wr (Reg.HQ_RSP_SLOT q (i + j)) (ws.getD j 0)) h
  (h.setFld (Reg.HQ_RSP q) F.HQ_RSP_TAIL ((tail + 1) % 32)).evtN Reg.HOST_EVT F.HOST_EVT_RSP q

/-- Where a response goes: to its queue; to the setup script that issued the command; nowhere on a standby (R369), but to the own queue of the
same number once it has taken over (R380). -/
def Hub.respond (h : Hub) (r : CmdRef) (status detail obj : Nat) (res : List Word) : Hub :=
  match r.src with
  | .queue q => h.post q r.code r.tag status detail obj res
  | .script => { h with glb := { h.glb with scriptAns := some status } }
  | .journal q => if h.acts then h.post q r.code r.tag status detail obj res else h

/-- Answer a command that was in progress. One that its setup script no longer waits for has no one to hear it (R485). -/
def Hub.answer (h : Hub) (r : CmdRef) (status : Nat) (res : List Word) : Hub :=
  match r.src with
  | .queue q => (h.setFld (Reg.HQ_INPROG q) F.HQ_INPROG (h.fld (Reg.HQ_INPROG q) F.HQ_INPROG - 1)).respond r status 0 0 res
  | .script =>
    if h.glb.scriptLate.contains (r.code, r.tag) then { h with glb := { h.glb with scriptLate := h.glb.scriptLate.erase (r.code, r.tag) } }
    else h.respond r status 0 0 res
  | .journal _ => h.respond r status 0 0 res

/-- Queue of a source, 0 for a setup script. -/
def srcQ : CmdSrc → Nat
  | .queue q => q
  | .script => 0
  | .journal q => q

/-- Write a refusal to the log and count it (R457). -/
def Hub.logRefusal (h : Hub) (r : CmdRef) (status detail obj : Nat) : Hub :=
  let i := h.fld Reg.HOST_RLOG_IDX F.HOST_RLOG_IDX_NEXT
  let q := srcQ r.src
  let path := match r.src with
    | .script => 3
    | _ => h.fld (Reg.HQ_CFG q) F.HQ_CFG_PATH
  let h := h.wr (Reg.HOST_RLOG_RWORD0 i) (word (r.code % 65536 + r.tag % 256 * 65536 + status * 2 ^ 24))
  let h := h.wr (Reg.HOST_RLOG_RWORD1 i) (word (detail % 65536 + obj % 256 * 65536))
  let h := h.wr (Reg.HOST_RLOG_RWHERE i) (word (q + path * 4))
  let h := h.wr (Reg.HOST_RLOG_EDGE_K i) (word h.car.k)
  let h := h.setFld Reg.HOST_RLOG_IDX F.HOST_RLOG_IDX_NEXT ((i + 1) % 16)
  (h.count Reg.HOST_CNT_REFUSED).evt Reg.HOST_EVT F.HOST_EVT_REFUSED

/-- The codes the hub defines (R465). -/
def codeDefined (c : Nat) : Bool :=
  let f := c / 256
  let n := c % 256
  match f with
  | 0x01 => decide (1 ≤ n ∧ n ≤ 3)
  | 0x02 => n == 1 || n == 2 || n == 0x81 || n == 0x82
  | 0x03 => n == 1 || n == 2
  | 0x04 => decide (1 ≤ n ∧ n ≤ 6)
  | 0x05 | 0x06 | 0x07 | 0x08 => decide (1 ≤ n ∧ n ≤ 4)
  | 0x09 => n == 1 || n == 2
  | 0x0B => decide (1 ≤ n ∧ n ≤ 3)
  | 0x0C => decide (1 ≤ n ∧ n ≤ 7)
  | 0x0D => decide (1 ≤ n ∧ n ≤ 6)
  | _ => false

/-- Families admitted by an interface version (R454). -/
def familyIn (ver f : Nat) : Bool :=
  f == 1 || f == 4 || f == 5 || f == 6 || f == 7 || f == 0x0D ||
    (decide (2 ≤ ver) && (f == 2 || f == 3 || f == 8 || f == 0x0B)) || (decide (3 ≤ ver) && (f == 9 || f == 0x0C))

/-- The interface version a command is held to (R454): a script's to none (R486); one that the journal carries, to its queue's, where this
hub knows it (log entry 50). -/
def Hub.cmdVersion (h : Hub) : CmdSrc → Nat
  | .queue q => h.fld (Reg.HQ_CFG q) F.HQ_CFG_VERSION
  | .journal q =>
    let v := h.fld (Reg.HQ_CFG q) F.HQ_CFG_VERSION
    if v = 0 then 3 else v
  | .script => 3

/-- Checks 1 to 3 of R455, and the reserved bits of word 0 (R451): the status, detail and object of a refusal. Commands of a script or of
the journal are not held to the role. -/
def Hub.precheck (h : Hub) (c : CmdIn) : Option (Nat × Nat × Nat) :=
  let ver := h.cmdVersion c.src
  if ver = 0 ∧ c.code ≠ 0x0101 then some (sEVERSION, 0, 0)
  else if codeDefined c.code = false ∨ familyIn (max 1 ver) (c.code / 256) = false then some (sENOTSUP, 0, 0)
  else if c.code = 0x0C06 then some (sEDENIED, 0, 0)
  else if h.acts = false ∧ c.code / 256 ≠ 9 ∧ c.code ≠ 0x0101 ∧ (match c.src with | .queue _ => true | _ => false) = true then
    some (sESTATE, match h.twin.role with | .solo => 0 | .joining => 1 | .syncing => 2 | .standby => 3 | .active => 4, 0)
  else if c.rsv ≠ 0 then some (sEARG, 0, 0)
  else none

/-- Answer a refusal made at acceptance. -/
def Hub.refuse (h : Hub) (c : CmdIn) (status detail obj : Nat) : Hub :=
  (h.logRefusal c.ref status detail obj).respond c.ref status detail obj []

/-- Commands waiting in a queue. -/
def Hub.hqWaiting (h : Hub) (q : Nat) : Nat :=
  (h.fld (Reg.HQ_CMD q) F.HQ_CMD_TAIL + 32 - h.fld (Reg.HQ_CMD q) F.HQ_CMD_HEAD) % 32

/-- Responses not yet read from a queue. -/
def Hub.hqUnread (h : Hub) (q : Nat) : Nat :=
  (h.fld (Reg.HQ_RSP q) F.HQ_RSP_TAIL + 32 - h.fld (Reg.HQ_RSP q) F.HQ_RSP_HEAD) % 32

/-- A queue may be served: it is enabled, fewer than 16 of its response slots are reserved, and the hub serves host accesses
(R448, R475, R487); a hub that has journaled `SWITCH` takes nothing more (R382). -/
def Hub.hqOpen (h : Hub) (q : Nat) : Bool :=
  h.hostOpen && !h.twin.halted && h.flag (Reg.HQ_CFG q) F.HQ_CFG_EN &&
    decide (h.fld (Reg.HQ_INPROG q) F.HQ_INPROG + h.hqUnread q < 16)

/-- The command has a source that may issue it now. -/
def Hub.served (h : Hub) (c : CmdIn) : Bool :=
  match c.src with
  | .queue q => h.hqOpen q
  | _ => true

/-- The active hub of a twin journals every command it takes from a queue (R458). -/
def Hub.jnlCmd (h : Hub) (c : CmdIn) : Hub :=
  match c.src with
  | .queue q => h.jnl 0x08 (word q.val :: word (c.code + c.tag * 65536 + c.rsv * 2 ^ 24) :: c.args)
  | _ => h

/-- The acceptance of a command (R448, R455, R458): it is journaled before its checks; these are made in their order; then come the
command's own checks and effect. -/
def Hub.accept (h : Hub) (c : CmdIn) (run : Hub → CmdIn → Ack) : Hub :=
  if h.served c = false then h else
  let h := h.jnlCmd c
  match h.precheck c with
  | some (st, d, o) => h.refuse c st d o
  | none =>
    match run h c with
    | .refuse st d o => h.refuse c st d o
    | .done h res => h.respond c.ref sOK 0 0 res
    | .later h =>
      match c.src with
      | .queue q => h.setFld (Reg.HQ_INPROG q) F.HQ_INPROG (min 31 (h.fld (Reg.HQ_INPROG q) F.HQ_INPROG + 1))
      | _ => h

/-- A command row: the command `code` arrives from `src` with these argument words. -/
def mkCmd (src : CmdSrc) (code : Nat) (tag : Byte) (args : List Word) : CmdIn :=
  { src := src, code := code, tag := tag.toNat, rsv := 0, args := (args ++ List.replicate 7 0).take 7 }

/-! ## Transaction tags (R63) -/

def Hub.tag (h : Hub) (t : Nat) : Tag := tget ({} : Tag) h.pt.tags t
def Hub.setTag (h : Hub) (t : Nat) (x : Tag) : Hub := { h with pt := { h.pt with tags := tset ({} : Tag) h.pt.tags t x } }

/-- A transaction completes with a status: its tag enters QUARANTINE, the point port's event is set, and a host command that
waits for it is answered. -/
def Hub.tagComplete (h : Hub) (t : Nat) (status : Nat) : Hub :=
  let g := h.tag t
  let h := h.setTag t { g with st := .quarantine, status := status, ref := none, recs := [] }
  let h := if status = sOK then h.evt Reg.PTM_EVT F.PTM_EVT_TXN_DONE else h.evt Reg.PTM_EVT F.PTM_EVT_TXN_FAIL
  match g.ref with
  | some r => h.answer r status []
  | none => h

end Sys2Proof.Machine
end

