-- ==== Sys2Proof/Machine/Tm.lean ====
section
/-! DEFINITION. The traffic manager (chapter 09): placement in queues, release, the choice of the next frame, rate limits,
launch times, policers, and its commands; with the packet-buffer accounting of R267 to R269. -/

namespace Sys2Proof.Machine

/-! ## Banks -/

def Hub.tq (h : Hub) (q : Nat) : TQueue := tget ({} : TQueue) h.tm.q q
def Hub.setTq (h : Hub) (q : Nat) (x : TQueue) : Hub := { h with tm := { h.tm with q := tset ({} : TQueue) h.tm.q q x } }
def Hub.frame (h : Hub) (id : Nat) : Frame := (tget none h.swc.buf id).getD {}
def Hub.setFrame (h : Hub) (id : Nat) (f : Frame) : Hub :=
  { h with swc := { h.swc with buf := tset none h.swc.buf id (some f) } }

def Hub.tqCfg (h : Hub) (q : Nat) (f : Nat × Nat) : Nat := h.fld (Reg.TM_Q_CFG q) f
def Hub.tqOut (h : Hub) (q : Nat) : Nat := h.tqCfg q F.TM_Q_CFG_OUT
def Hub.tqOn (h : Hub) (q : Nat) : Bool := h.tqCfg q F.TM_Q_CFG_EN == 1
def Hub.tqLaunch (h : Hub) (q : Nat) : Bool := h.tqCfg q F.TM_Q_CFG_MODE == 1
def Hub.tqClass (h : Hub) (q : Nat) : Nat := h.tqCfg q F.TM_Q_CFG_CLASS

/-- The queue counts as stopped (R241). -/
def Hub.tqStopped (h : Hub) (q : Nat) : Bool := !h.tqOn q && (h.tq q).ents.isEmpty

/-- A lossy producer finds credit: room by R232, and no frame waiting before it. -/
def Hub.tqCredit (h : Hub) (q : Nat) : Bool :=
  (h.tq q).waiting.isEmpty && (h.tq q).c.credit h.now (h.tqCfg q F.TM_Q_CFG_CAP) (h.tq q).ents.length

/-- Where the watermark settings of a traffic queue stand. -/
def Hub.tqWm (h : Hub) (q : Nat) : WmLoc :=
  { hi := h.fld (Reg.TM_Q_WM q) F.TM_Q_WM_WM_HI, lo := h.fld (Reg.TM_Q_WM q) F.TM_Q_WM_WM_LO, stat := Reg.TM_Q_STAT q,
    hiSeen := F.TM_Q_STAT_WM_HI_SEEN, loSeen := F.TM_Q_STAT_WM_LO_SEEN, cross := F.TM_Q_STAT_WM_CROSS,
    evt := Reg.TM_EVT, evtBit := F.TM_EVT_Q_WM }

/-! ## The packet buffer (R267 to R269) -/

/-- Cells that `n` bytes take. -/
def cellsOf (n : Nat) : Nat := ceilDiv n 256
def cellsFor (bs : List Byte) : Nat := cellsOf (frameLen bs)

def Hub.cell (h : Hub) (k : Nat) : Cell := tget ({} : Cell) h.swc.cell k

/-- Cells on the free list. -/
def Hub.freeCells (h : Hub) : Nat := 8192 - (h.swc.cell.filter fun x => x.2.used).length

/-- The `n` lowest free cells from cell `k` on, of which `m` are looked at. -/
def Hub.freeFrom (h : Hub) : Nat → Nat → Nat → List Nat
  | 0, _, _ => []
  | _, _, 0 => []
  | m + 1, k, n + 1 => if (h.cell k).used then h.freeFrom m (k + 1) (n + 1) else k :: h.freeFrom m (k + 1) n

/-- Cells change their owner; a pass in progress stamps them (R281). -/
def Hub.moveCells (h : Hub) (used : Bool) (l : List Nat) : Hub :=
  l.foldl (fun h k => { h with swc := { h.swc with cell := tset {} h.swc.cell k { used := used, stamp := h.swc.auditBusy } } }) h

/-- Take cells from the free list; `BUF_LOW` is set once the count falls below `LOW_CELLS` (R269). -/
def Hub.takeCells (h : Hub) (n : Nat) : Hub × List Nat :=
  let low := h.fld Reg.SWC_BUF_CFG F.SWC_BUF_CFG_LOW_CELLS
  let l := h.freeFrom 8192 0 n
  let h := h.moveCells true l
  if h.freeCells < low ∧ h.swc.lowArmed = true then
    ({ (h.evt Reg.SWC_EVT F.SWC_EVT_BUF_LOW) with swc := { h.swc with lowArmed := false } }, l)
  else (h, l)

/-- Return cells to the free list; the event can be set again once the count reaches `LOW_CELLS` + 256. -/
def Hub.giveCells (h : Hub) (l : List Nat) : Hub :=
  let low := h.fld Reg.SWC_BUF_CFG F.SWC_BUF_CFG_LOW_CELLS
  let h := h.moveCells false l
  { h with swc := { h.swc with lowArmed := h.swc.lowArmed || decide (low + 256 ≤ h.freeCells) } }

/-- A number for a frame. -/
def Hub.frameId (h : Hub) : Hub × Nat := ({ h with swc := { h.swc with nextId := h.swc.nextId + 1 } }, h.swc.nextId)

/-- Put frame `id` into the buffer, with cells for `n` bytes. -/
def Hub.bufferAs (h : Hub) (id : Nat) (f : Frame) (n : Nat) : Hub :=
  let r := h.takeCells (cellsOf n)
  r.1.setFrame id { f with cells := r.2 }

/-- Put a whole frame into the buffer; answers its number. -/
def Hub.newFrame (h : Hub) (f : Frame) : Hub × Nat :=
  let r := h.frameId
  (r.1.bufferAs r.2 f (frameLen f.bytes), r.2)

def Hub.genCntAdd (h : Hub) (t g : Nat) (d : Int) : Hub :=
  let i := 16 * t + g
  { h with swc := { h.swc with genCnt := tset 0 h.swc.genCnt i ((tget 0 h.swc.genCnt i : Nat) + d).toNat } }

/-- An originated frame has left the node: in a twin its departure is journaled (R366). -/
def Hub.departed (h : Hub) (f : Frame) : Hub :=
  match f.seq with
  | some s => h.jnl 0x0C [word s, word f.sentOn]
  | none => h

/-- A copy of a frame is released (R269). With the last one its cells return, its generation's count falls (R278), and in a
twin the departure of an originated frame is journaled (R366). -/
def Hub.release (h : Hub) (id : Nat) : Hub :=
  let f := h.frame id
  if f.uses ≤ 1 then
    let h := { h with swc := { h.swc with buf := tset none h.swc.buf id none } }
    let h := h.giveCells f.cells
    let h := if f.charged then
        { h with swc := { h.swc with inCells := tset 0 h.swc.inCells f.inPort (tget 0 h.swc.inCells f.inPort - f.cells.length) } }
      else h
    let h := match f.gen with
      | some (t, g) => h.genCntAdd t g (-1)
      | none => h
    h.departed f
  else h.setFrame id { f with uses := f.uses - 1 }

/-! ## Placement (R238 to R240, R250) -/

/-- The port of a queue's first copies, by `OUT` (R238); 7 for a delivery queue. -/
def outPort (out : Nat) : Nat :=
  match out with
  | 0 => 0 | 1 => 1 | 2 => 0 | 3 => 2 | 4 => 4 | 5 => 5 | 6 => 6 | _ => 7

/-- The virtual time of a class on a port as it stood at the start of the cycle (R244). -/
def Hub.vtime (h : Hub) (p c : Nat) : Nat := tget 0 h.start.tm.v (8 * p + c)

/-- Copies of a queue still to be sent on its first or second port. -/
def TQueue.backlog (t : TQueue) (second : Bool) : Bool := t.ents.any fun e => if second then e.b else e.a

/-- A frame enters a queue. On each port on which the queue was empty it takes the class's virtual time as its tag. -/
def Hub.tqPush (h : Hub) (q id : Nat) : Hub :=
  let t := h.tq q
  let out := h.tqOut q
  let c := h.tqClass q
  let pa := if t.backlog false then t.pa else { t.pa with tag := some (h.vtime (outPort out) c) }
  let pb := if t.backlog true || out != 2 then t.pb else { t.pb with tag := some (h.vtime 1 c) }
  h.setTq q { t with ents := t.ents ++ [⟨id, decide (out ≠ 7), out == 2, h.now⟩], pa := pa, pb := pb }

/-- What became of a placement. -/
inductive Placed where
  | placed | misroute | noLaunch | noCredit | waits
  deriving DecidableEq, Repr

/-- The judgement of R240 and R250 on placing a frame in queue `q`. `need` is the output code that the placement requires; a
producer that is not lossy waits for credit and for cells (R232, R268). -/
def Hub.judgePlace (h : Hub) (q id : Nat) (need : Option Nat) (lossy : Bool) : Placed :=
  if h.tqOn q = false ∨ (match need with | some o => decide (h.tqOut q ≠ o) | none => false) = true then .misroute
  else if h.tqLaunch q = true ∧ (h.frame id).launch = none then .noLaunch
  else if h.tqCredit q then .placed
  else if lossy then .noCredit
  else .waits

/-- Place a frame in queue `q`, or drop it as R240 and R250 say. -/
def Hub.place (h : Hub) (q id : Nat) (need : Option Nat) (lossy : Bool) : Hub :=
  match h.judgePlace q id need lossy with
  | .placed => h.tqPush q id
  | .misroute => ((h.count Reg.TM_CNT_MISROUTE).evt Reg.TM_EVT F.TM_EVT_MISROUTE).release id
  | .noLaunch => ((h.count Reg.TM_CNT_NO_LAUNCH).evt Reg.TM_EVT F.TM_EVT_NO_LAUNCH).release id
  | .noCredit =>
    (((h.count (Reg.TM_Q_CNT_NOCREDIT q)).count Reg.TM_CNT_NOCREDIT_DROP).evt Reg.TM_EVT F.TM_EVT_NOCREDIT_DROP).release id
  | .waits => (h.setTq q { h.tq q with waiting := (h.tq q).waiting ++ [id] }).setFrame id { h.frame id with need := need }

/-- Frames that still wait after one has been taken. -/
def Hub.keepWaiting (h : Hub) (q : Nat) (l : List Nat) : Hub := h.setTq q { h.tq q with waiting := l }

/-- The waiting frames take the credits that have become usable, oldest first (R232); each is placed under R240 as the queue stands
then. -/
def Hub.admitAll : Nat → Nat → Hub → Hub
  | 0, _, h => h
  | n + 1, q, h =>
    let t := h.tq q
    match t.waiting with
    | [] => h
    | id :: rest =>
      if t.c.credit h.now (h.tqCfg q F.TM_Q_CFG_CAP) t.ents.length then
        Hub.admitAll n q (((h.setTq q { t with waiting := [] }).place q id (h.frame id).need false).keepWaiting q rest)
      else h

def Hub.tqAdmit (h : Hub) (q : Nat) : Hub := Hub.admitAll (h.tq q).waiting.length q h

/-- A frame leaves queue `q`: its entry goes, its credit returns (usable from the next cycle). -/
def Hub.tqTake (h : Hub) (q id : Nat) : Hub :=
  let t := h.tq q
  h.setTq q { t with ents := t.ents.filter (fun e => e.id != id), mark := t.mark - 1, c := t.c.pop h.now }

/-- A frame leaves queue `q` altogether, and its copy is released. -/
def Hub.tqRemove (h : Hub) (q id : Nat) : Hub := (h.tqTake q id).release id

/-- Mark one copy of a frame as no longer to be sent. -/
def TQueue.clearCopy (t : TQueue) (id : Nat) (second : Bool) : TQueue :=
  let ents := t.ents.map fun e => if e.id = id then (if second then { e with b := false } else { e with a := false }) else e
  let t := { t with ents := ents }
  if second then (if t.backlog true then t else { t with pb := { t.pb with tag := none } })
  else (if t.backlog false then t else { t with pa := { t.pa with tag := none } })

/-- A copy of the frame is being sent from queue `q`. -/
def Hub.onLine (h : Hub) (q id : Nat) : Bool :=
  (List.range 7).any fun p => match tget none h.tm.tx p with
    | some t => t.id == id && t.queue == q
    | none => false

def TQueue.holds (t : TQueue) (id : Nat) : Bool := t.ents.any fun e => e.id == id

/-- No copy of the frame is still to be sent or being sent in queue `q`. -/
def Hub.tqDone (h : Hub) (q id : Nat) : Bool := !((h.tq q).ents.any fun e => e.id == id && (e.a || e.b)) && !h.onLine q id

/-- Remove the frame from the queue if both its copies are through (R242). One that was flushed while it was being sent is only released
(R258). -/
def Hub.tqFinish (h : Hub) (q id : Nat) : Hub :=
  if h.tqDone q id then (if (h.tq q).holds id then h.tqRemove q id else h.release id) else h

/-- A copy that is dropped, not sent. -/
def Hub.dropCopy (h : Hub) (q id : Nat) (second : Bool) : Hub := (h.setTq q ((h.tq q).clearCopy id second)).tqFinish q id

/-! ## Ports -/

/-- Bit time of an output port in units of 1/120 ns: SerDes ports by `MODE` (R288), internal ports by their line rate. -/
def Hub.bitTime2 (h : Hub) (p : Nat) : Nat :=
  match p with
  | 4 => 15
  | 5 => 12
  | 6 => 120
  | _ => match h.fld (Reg.RING_P_CFG p) F.RING_P_CFG_MODE with
    | 1 => 1200
    | 2 => 120
    | _ => 12

/-- Time that `n` bytes take on a port. -/
def Hub.byteTime (h : Hub) (p n : Nat) : Nat := n * 8 * h.bitTime2 p / 2

/-- Block time of a SerDes port (R251): 40 ns, 8 ns or 6.4 ns. -/
def Hub.blockTime (h : Hub) (p : Nat) : Nat :=
  match h.fld (Reg.RING_P_CFG p) F.RING_P_CFG_MODE with
  | 1 => 2400
  | 2 => 480
  | _ => 384

/-- Time from the start of the preamble to the start-of-frame delimiter: seven bytes. -/
def Hub.preTime (h : Hub) (p : Nat) : Nat := h.byteTime p 7

/-- The first block boundary at or after a time. -/
def Hub.boundary (h : Hub) (p t : Nat) : Nat := ceilDiv t (h.blockTime p) * h.blockTime p

/-- When a frame chosen in this cycle begins on port `p`: at once, or where the line becomes free or a launch falls due within the cycle. -/
def Hub.begins (h : Hub) (p : Nat) : Nat := max h.now (tget 0 h.tm.lineEnd p)

/-- From now to the instant at which the delimiter of a frame begun on port `p` in this cycle crosses, at a block boundary. -/
def Hub.crossIn (h : Hub) (p : Nat) : Int := ((h.boundary p (h.begins p + h.preTime p) - h.now : Nat) : Int)

/-- The instant, in model time, at which base `tb` reaches short time `t`; past instants, for which the signed difference now - T is at
least 0, lie before now (R254). -/
def Hub.launchAt (h : Hub) (tb t : Nat) : Int :=
  ((h.now / 300 * 300 : Nat) : Int) - toSigned 40 (h.short tb + 2 ^ 40 - t % 2 ^ 40) * 60

def Hub.tqTb (h : Hub) (q : Nat) : Nat := h.fld (Reg.TM_Q_LT q) F.TM_Q_LT_TB

/-- The instant at which a launch-time head becomes due on port `p` (R243, R251). -/
def Hub.dueAt (h : Hub) (p q t : Nat) : Int :=
  let l := h.launchAt (h.tqTb q) t
  (h.boundary p l.toNat : Int) - (h.preTime p : Int)

/-- A launch-time head can no longer cross by the end of its window (R251). -/
def Hub.tooLate (h : Hub) (p q t : Nat) : Bool :=
  let l := h.launchAt (h.tqTb q) t
  let cross := h.boundary p (h.begins p + h.preTime p)
  decide (l + (h.fld (Reg.TM_Q_LT q) F.TM_Q_LT_WINDOW * 600 : Nat) < (cross : Int))

/-- The queue sends on port `p`, and as which copy. -/
def Hub.tqOnPort (h : Hub) (q p : Nat) : Option Bool :=
  let out := h.tqOut q
  if out = 2 ∧ p = 1 then some true
  else if out ≠ 7 ∧ outPort out = p then some false
  else none

/-- The node originates frames of its own: it holds an address, its hold-off has ended, it is not quiet and its first Parade has completed
(R305, R318). -/
def Hub.originates (h : Hub) : Bool := h.ring.addr != 0 && !h.ring.holdoff && !h.ring.quiet && h.ring.state != .forming

/-- The NRP type of a frame; 0 for a standard frame. -/
def Hub.nrpType (h : Hub) (bs : List Byte) : Nat := if h.isNrp bs then (nrpParse bs).typ else 0

/-- A frame of the node's own that the hub may not send now on port `p`: on a ring port while the node originates nothing (R305, R318), or
while the hub does not act for its node (R16, R365, R371). `HELLO` always leaves; `PARADE` and `LATE_REQ` leave from a hub that acts. -/
def Hub.heldBack (h : Hub) (p : Nat) (f : Frame) : Bool :=
  let t := h.nrpType f.bytes
  if decide (f.inPort ≤ 2) || t == tHello then false
  else if t == tParade || t == tLate then !h.acts
  else if p ≤ 1 then !h.acts || !h.originates
  else f.own && !h.acts

/-- The head copy of queue `q` on port `p`: frame number, and which copy. A copy that entered in this cycle is not considered (R234, R243). A
launch-time queue is served in order (R250); a frame held back lets those behind it in a normal queue pass (log entry 37). -/
def Hub.headOn (h : Hub) (p q : Nat) : Option (Nat × Bool) :=
  match h.tqOnPort q p with
  | none => none
  | some second =>
    let l := (h.tq q).ents.filter fun e => if second then e.b else e.a
    ((if h.tqLaunch q then l.take 1 else l).find? fun e => decide (e.at_ < h.now) && !h.heldBack p (h.frame e.id)).map fun e => (e.id, second)

/-- The queues that hold anything. -/
def Hub.busyQueues (h : Hub) : List Nat := h.tm.q.map (·.1)

/-- Launch-time heads of a port: queue, frame, copy, launch time. -/
def Hub.launchHeads (h : Hub) (p : Nat) : List (Nat × Nat × Bool × Nat) :=
  h.busyQueues.filterMap fun q =>
    if h.tqLaunch q then
      match h.headOn p q with
      | some (id, second) => some (q, id, second, (h.frame id).launch.getD 0)
      | none => none
    else none

/-- A queue's port state on port `p`. -/
def TQueue.port (t : TQueue) (second : Bool) : QPort := if second then t.pb else t.pa
def TQueue.setPort (t : TQueue) (second : Bool) (x : QPort) : TQueue := if second then { t with pb := x } else { t with pa := x }

/-- `a` before `b` by the signed difference modulo 2^48 (R244). -/
def tagBefore (a b : Nat) : Bool := decide (2 ^ 47 ≤ (a + 2 ^ 48 - b % 2 ^ 48) % 2 ^ 48)

/-- The backlogged normal queue of class `c`, eligible since an earlier cycle, with the least tag on port `p` (R243, R244). -/
def Hub.wfqHead (h : Hub) (p c : Nat) : Option (Nat × Nat × Bool) :=
  let cand := h.busyQueues.filterMap fun q =>
    if !h.tqLaunch q && h.tqClass q == c then
      match h.headOn p q with
      | some (id, second) =>
        let s := (h.tq q).port second
        if s.hold = .none ∧ ((tget ({} : TQueue) h.start.tm.q q).port second).hold = .none then some (q, id, second, s.tag.getD 0) else none
      | none => none
    else none
  (cand.foldl (fun (best : Option (Nat × Nat × Bool × Nat)) x => match best with
    | none => some x
    | some b => if tagBefore x.2.2.2 b.2.2.2 then some x else best) none).map fun x => (x.1, x.2.1, x.2.2.1)

/-- The normal head a port takes: the highest class that has one (R243). -/
def Hub.normalHead (h : Hub) (p : Nat) : Option (Nat × Nat × Bool) :=
  [7, 6, 5, 4, 3, 2, 1, 0].findSome? fun c => h.wfqHead p c

/-- The launch-time heads that port `p` is to send by now, and those that wait for their T (R251, R252). -/
def Hub.dueHeads (h : Hub) (p : Nat) : List (Nat × Nat × Bool × Nat) :=
  (h.launchHeads p).filter fun (q, _, _, t) => decide (h.dueAt p q t < (h.now + tuCore : Nat)) && !h.tooLate p q t
def Hub.waitingHeads (h : Hub) (p : Nat) : List (Nat × Nat × Bool × Nat) :=
  (h.launchHeads p).filter fun (q, _, _, t) => !decide (h.dueAt p q t < (h.now + tuCore : Nat)) && !h.tooLate p q t

/-- Base `b` in 1/256 ns at an instant `delta` units of 1/60 ns from now. -/
def Hub.fineAt (h : Hub) (b : Nat) (delta : Int) : Int := (h.baseNs b * 256 : Nat) + (((h.now % 300 : Nat) : Int) + delta) * 256 / 60

/-- The rate pacing of a departure that starts at model time `at_` (R246): the new port state. -/
def Hub.paced (h : Hub) (q : Nat) (x : QPort) (lw at_ : Nat) : QPort :=
  let rate := h.fld (Reg.TM_Q_RATE q) F.TM_Q_RATE_RATE_KBPS
  if rate = 0 then x else
  let t := (h.fineAt 3 ((at_ : Int) - h.now)).toNat
  let cost := lw * 8000000 * 256 / rate
  let burst := h.fld (Reg.TM_Q_WEIGHT q) F.TM_Q_WEIGHT_BURST_US * 1000 * 256
  let e := max x.e (t - burst) + cost
  let hold := if e ≤ t then Hold.none
    else if e - t < 204800 * 256 then .wheel (ceilDiv e (50 * 256))
    else .far
  { x with e := e, hold := hold }

/-- The start tag after a frame of `lw` bytes (R244). -/
def Hub.nextTag (h : Hub) (q s lw : Nat) : Nat :=
  (s + ceilDiv (lw * 65536) (max 1 (h.fld (Reg.TM_Q_WEIGHT q) F.TM_Q_WEIGHT_WEIGHT))) % 2 ^ 48

/-- Choosing the head of a normal queue sets the class's virtual time to its tag (R244). -/
def Hub.setV (h : Hub) (p q s : Nat) : Hub := { h with tm := { h.tm with v := tset 0 h.tm.v (8 * p + h.tqClass q) s } }

/-- Tags and pacing when the head of a normal queue is sent (R244, R246). -/
def Hub.departNormal (h : Hub) (p q : Nat) (second : Bool) (lw : Nat) : Hub :=
  let t := h.tq q
  let x := t.port second
  let s := x.tag.getD 0
  let h := h.setV p q s
  h.setTq q (t.setPort second (h.paced q { x with tag := some (h.nextTag q s lw) } lw (h.begins p)))

/-- The base on which a PTP message's residence time is measured (R345). -/
def Hub.ptpBase (h : Hub) (dom : Nat) : Nat :=
  if h.fld (Reg.TB_SRC 0) F.TB_SRC_PTP_DOMAIN = dom then 0
  else if h.fld (Reg.TB_SRC 1) F.TB_SRC_PTP_DOMAIN = dom then 1 else 3

def Hub.txAdj (h : Hub) (p : Nat) : Int := toSigned 16 (h.fld (Reg.TIME_P_ADJ p) F.TIME_P_ADJ_TX_ADJ_PS)

/-- A Sync or Delay_Req forwarded between `P0`, `P1` and `P2` has its residence time and the ingress link delay added to its
correctionField, in 2^-16 ns (R345). `delta` is the time until the copy's start-of-frame delimiter leaves. -/
def Hub.tcCorrect (h : Hub) (p : Nat) (f : Frame) (delta : Int) : List Byte :=
  let bs := f.bytes
  let m := stdParse bs
  if h.flag Reg.TIME_CTL F.TIME_CTL_TC_EN && m.etype == etPtp && decide (f.inPort ≤ 2) && decide (p ≤ 2) &&
      decide (beAt bs m.data 1 % 16 ≤ 1) then
    let b := h.ptpBase (beAt bs (m.data + 4) 1)
    let res : Int := h.stampAt b delta + psFine (h.txAdj p) - (f.stamps.getD b 0 : Nat)
    let c := toSigned 64 (beAt bs (m.data + 8) 8) + res + toSigned 32 (h.rd (Reg.TIME_P_DELAY f.inPort)).toNat
    setSlice bs (m.data + 8) (beBytes 8 (ofSigned 64 c))
  else bs

/-- A PTP event message of the control core as port `p` sends it (R346): the egress stamp goes into the originTimestamp of a Sync, the turnaround
time into the correctionField of a Pdelay_Resp. -/
def Hub.ptpEgress (h : Hub) (p : Nat) (f : Frame) (bs : List Byte) (delta : Int) : List Byte :=
  let m := stdParse bs
  let e := h.stampAt (h.ptpBase (beAt bs (m.data + 4) 1)) delta + psFine (h.txAdj p)
  if f.inPort ≠ 6 ∨ m.etype ≠ etPtp then bs
  else if beAt bs m.data 1 % 16 = 0 then
    let ns := (e / 65536).toNat
    setSlice bs (m.data + 34) (beBytes 6 (ns / 1000000000) ++ beBytes 4 (ns % 1000000000))
  else if beAt bs m.data 1 % 16 = 3 then
    setSlice bs (m.data + 8) (beBytes 8 (ofSigned 64 (toSigned 64 (beAt bs (m.data + 8) 8) + e - (f.reqAt : Int))))
  else bs

/-- The egress stamp of a Pdelay_Req is noted (R346). -/
def Hub.pdelaySent (h : Hub) (p : Nat) (f : Frame) : Hub :=
  let m := stdParse f.bytes
  if f.inPort = 6 ∧ p ≤ 2 ∧ m.etype = etPtp ∧ beAt f.bytes m.data 1 % 16 = 2 then
    { h with tim := { h.tim with pdReq := tset 0 h.tim.pdReq p (h.stampAt 3 (h.crossIn p) + psFine (h.txAdj p)).toNat } }
  else h

/-- The frame is a standard frame that takes an HSR tag on ring port `p` (R321). -/
def Hub.needsTag (h : Hub) (p : Nat) (f : Frame) : Bool :=
  decide (p ≤ 1) && h.flag Reg.RING_CTL F.RING_CTL_HSR_EN && decide (2 ≤ f.inPort) && !f.own && !h.isNrp f.bytes &&
    (stdParse f.bytes).hsr.isNone

/-- The bytes of a copy as port `p` sends them: `LAUNCH_TS` written into an originated version-3 frame (R299), `HOPS` decremented
in a frame forwarded between ring ports (R300), HSR tags put in or taken out (R321), PTP corrected (R345). -/
def Hub.copyBytes (h : Hub) (p q : Nat) (f : Frame) : List Byte :=
  let delta := h.crossIn p
  if f.own then
    if p ≤ 2 then
      let ltb := if h.tqLaunch q then h.tqTb q else h.fld Reg.RING_CFG F.RING_CFG_LT_TB
      writeLaunch f.bytes ltb (stampOf (((h.stampAt ltb delta + psFine (h.txAdj p)) / 65536).toNat))
    else f.bytes
  else if h.isNrp f.bytes then
    if p ≤ 1 ∧ f.inPort ≤ 1 ∧ 2 ≤ (nrpParse f.bytes).ver then
      setSlice f.bytes 28 [byte ((nrpParse f.bytes).hops - 1)]
    else f.bytes
  else
    let bs := h.ptpEgress p f (h.tcCorrect p f delta) delta
    if h.needsTag p f then hsrTag p (f.hsr.getD 0) bs
    else if p = 2 ∨ p = 4 ∨ p = 6 then hsrStrip bs
    else bs

/-- From now to the launch instant of a frame's first copy (R53): its T on the queue's base, or the crossing. -/
def Hub.launchDelta (h : Hub) (p q : Nat) (f : Frame) : Int :=
  match f.launch with
  | some t => if h.tqLaunch q then h.launchAt (h.tqTb q) t - (h.now : Int) else 0
  | none => h.crossIn p

/-- Ring port `p` may send frames other than HELLO (R291). -/
def Hub.linkUp (h : Hub) (p : Nat) : Bool := (tget ({} : RPort) h.ring.port p).link == .up

/-- The outer ring port of a twin's hub (R18): `P0` of hub A, `P1` of hub B; none in a single node. Hub A is the one with
`TWIN_PREF` high (log entry 32). -/
def Hub.outerPort (h : Hub) : Option Nat :=
  if h.flag Reg.GLB_STRAPS F.GLB_STRAPS_TWIN_EN then some (1 - h.fld Reg.GLB_STRAPS F.GLB_STRAPS_TWIN_PREF) else none

/-- A standard frame takes the next HSR sequence number when its first copy is tagged; both copies carry it (R321). -/
def Hub.assignHsr (h : Hub) (p : Nat) (f : Frame) : Hub × Frame :=
  if h.needsTag p f && f.hsr.isNone then
    ({ h with ring := { h.ring with hsrSeq := (h.ring.hsrSeq + 1) % 65536 } }, { f with hsr := some h.ring.hsrSeq })
  else (h, f)

/-- A standard frame does not leave a ring port while `HSR_EN` is clear (R321). -/
def Hub.barred (h : Hub) (p : Nat) (f : Frame) : Bool :=
  decide (p ≤ 1) && !h.flag Reg.RING_CTL F.RING_CTL_HSR_EN && !f.own && !h.isNrp f.bytes

/-- The bytes of frame `id` leave port `p`: onto the line, or to the point port, which still holds the copy of a `FRAME` until it is
delivered (R269, R278); those of `P4` go out by DMA (R462). -/
def Hub.putOut (h : Hub) (p id : Nat) (f : Frame) (bs : List Byte) : Hub :=
  if p = 5 then
    let kept := h.nrpType f.bytes == tFrame
    let h := if kept then h.setFrame id { f with uses := f.uses + 1 } else h
    { h with pt := { h.pt with inbox := h.pt.inbox ++ [{ f with at_ := h.now, held := if kept then some id else none }] } }
  else if p = 4 then h
  else h.emit (.frame p bs (word (fcsOf bs)))

/-- A SerDes port does not send the frame: it is `DOWN`, or a ring port that is not `UP`, which sends only `HELLO` (R288, R291). -/
def Hub.lineBars (h : Hub) (p : Nat) (f : Frame) : Bool :=
  let l := (tget ({} : RPort) h.ring.port p).link
  decide (p ≤ 2) && (l == .down || (decide (p ≤ 1) && l != .up && h.nrpType f.bytes != tHello))

/-- Port `p` sends what `t` says. -/
def Hub.setTx (h : Hub) (p : Nat) (t : Option TxNow) : Hub := { h with tm := { h.tm with tx := tset none h.tm.tx p t } }
def Hub.setLineEnd (h : Hub) (p e : Nat) : Hub := { h with tm := { h.tm with lineEnd := tset 0 h.tm.lineEnd p e } }

/-- Begin a cut-through copy (R276): its first bytes leave; its length, and with it the queue's next tag and pacing, come with the tail. -/
def Hub.beginCut (h : Hub) (p q id : Nat) (second : Bool) (bs : List Byte) : Hub :=
  let s := ((h.tq q).port second).tag.getD 0
  let t := (h.tq q).clearCopy id second
  let h := ((h.setV p q s).setTq q t).count (Reg.TM_Q_CNT_TX q)
  (h.count (Reg.SWC_P_CNT_CT p)).setTx p
    (some { id := id, queue := q, second := second, beginAt := h.begins p, endAt := none, head := bs,
            tagged := if t.backlog second then some s else none })

/-- The tail of the cut-through copy that port `p` is sending (R277): `bs` are the frame's bytes, and `good` its judgement. The copy ends
with the FCS of the bytes sent, or with the stomp code. -/
def Hub.endCut (h : Hub) (p : Nat) (t : TxNow) (bs : List Byte) (good : Bool) : Hub :=
  let sent := t.head ++ bs.drop t.head.length
  let lw := wireLen sent
  let e := max h.now (t.beginAt + h.byteTime p lw)
  let x := (h.tq t.queue).port t.second
  let x := match t.tagged with
    | some s => { x with tag := some (h.nextTag t.queue s lw) }
    | none => x
  let h := h.setTq t.queue ((h.tq t.queue).setPort t.second (h.paced t.queue x lw t.beginAt))
  let h := (h.setTx p (some { t with endAt := some e })).setLineEnd p e
  if good then h.emit (.frame p sent (word (fcsOf sent)))
  else
    ((h.count (Reg.SWC_P_CNT_STOMP_TX p)).evt Reg.SWC_EVT F.SWC_EVT_STOMP_TX).emit
      (.frame p sent (word (Nat.xor (fcsOf sent) 0xFFFFFFFF)))

/-- Send the head copy of queue `q` on port `p`, or drop it where the port does not send it (R288, R291, R321). A `P2` that is `DOWN` counts
the drop as a ring port does (log entry 37). -/
def Hub.sendCopy (h : Hub) (p q id : Nat) (second : Bool) : Hub :=
  if h.lineBars p (h.frame id) then (h.count (Reg.RING_P_CNT_DOWN_DROP p)).dropCopy q id second
  else if h.barred p (h.frame id) then h.dropCopy q id second
  else
    let f := h.finishDraft (h.frame id) (h.launchDelta p q (h.frame id))
    let (h, f) := h.assignHsr p { f with sentOn := Nat.lor f.sentOn (2 ^ p) }
    let h := h.setFrame id f
    let bs := h.copyBytes p q f
    if f.arriving then h.beginCut p q id second bs else
    let lw := wireLen bs
    let h := (h.pdelaySent p f).when (!h.tqLaunch q) fun h => h.departNormal p q second lw
    let h := h.setTq q ((h.tq q).clearCopy id second)
    let h := h.count (Reg.TM_Q_CNT_TX q)
    let e := h.begins p + h.byteTime p lw
    let h := (h.setTx p (some { id := id, queue := q, second := second, beginAt := h.begins p, endAt := some e })).setLineEnd p e
    let h := h.putOut p id f bs
    match f.doneTag with
    | some t => if (h.tag t).st = .pending then h.tagComplete t sOK else h
    | none => h

/-- The frame being sent on port `p` ends by the end of this cycle: its copy is released if nothing more is to be sent of it. -/
def Hub.endTx (h : Hub) (p : Nat) : Hub :=
  match tget none h.tm.tx p with
  | some t =>
    match t.endAt with
    | some e => if e < h.now + tuCore then (h.setTx p none).tqFinish t.queue t.id else h
    | none => h
  | none => h

/-- `lw` of a copy on port `p`, tags put in or taken out; none for a standard frame whose end has not come. -/
def Hub.copyWire (h : Hub) (p q : Nat) (f : Frame) : Option Nat :=
  if f.arriving then (if h.isNrp f.bytes then some (nrpLength (nrpParse f.bytes) + 20) else none)
  else some (wireLen (h.copyBytes p q f))

/-- A frame of `lw` bytes would end before every launch-time head that waits on the port, but for queue `q`'s own, is due (R252). -/
def Hub.fitsBefore (h : Hub) (p q : Nat) (lw : Option Nat) : Bool :=
  (h.waitingHeads p).all fun x => x.1 == q || (match lw with
    | some n => decide ((h.begins p + h.byteTime p n : Nat) ≤ h.dueAt p x.1 x.2.2.2)
    | none => false)

/-- The due launch-time head a port takes: the queue of highest class, then the lowest number (R243, R252, R253). -/
def Hub.dueHead (h : Hub) (p : Nat) : Option (Nat × Nat × Bool × Nat) :=
  ((h.dueHeads p).filter fun x => h.fitsBefore p x.1 (h.copyWire p x.1 (h.frame x.2.1))).foldl (fun best x => match best with
    | none => some x
    | some b => if h.tqClass b.1 < h.tqClass x.1 then some x else best) none

/-- Port `p` can begin a frame: none is being sent, and `P2` is not paused (R289). -/
def Hub.portFree (h : Hub) (p : Nat) : Bool :=
  (tget none h.tm.tx p).isNone && !(p == 2 && decide (h.now < (tget ({} : RPort) h.ring.port 2).pauseUntil))

/-- Launch-time heads that can no longer be sent in time are dropped and counted (R251). -/
def Hub.expireHeads (h : Hub) (p : Nat) : Hub :=
  (h.launchHeads p).foldl (fun h (q, id, second, t) =>
    if h.tooLate p q t then
      (((h.count (Reg.TM_Q_CNT_LATE q)).count Reg.TM_CNT_LATE_DROP).evt Reg.TM_EVT F.TM_EVT_LATE_DROP).dropCopy q id second
    else h) h

/-- A launch-time head that falls due within this cycle begins when it is due. -/
def Hub.dueFrom (h : Hub) (p q t : Nat) : Hub :=
  h.setLineEnd p (max (tget 0 h.tm.lineEnd p) (h.dueAt p q t).toNat)

/-- The port's choice of its next frame (R243), of the seven Midway ports but `P3`; `P4` frames leave by DMA (R462). -/
def Hub.portChoice (h : Hub) (p : Nat) : Hub :=
  if p = 3 ∨ p = 4 then h else
  let h := h.endTx p
  if h.portFree p = false then h else
  let h := if p ≤ 2 then h.expireHeads p else h
  match (if p ≤ 2 then h.dueHead p else none) with
  | some (q, id, second, t) => (h.dueFrom p q t).sendCopy p q id second
  | none =>
    match h.normalHead p with
    | some (q, id, second) => if h.fitsBefore p q (h.copyWire p q (h.frame id)) then h.sendCopy p q id second else h
    | none => h

/-- `PORT_FRAME_CHOICE` (R243). A standby builds and queues frames but sends none of them (R371). -/
def execPortFrameChoice (p : Fin 7) (s : State) : Host.Outcome State Fault Refusal :=
  s.on fun h => h.portChoice p

/-- `LAUNCH_DUE` (R251): on a port that can begin a frame, the due launch-time head is sent. -/
def execLaunchDue (p : Fin 3) (s : State) : Host.Outcome State Fault Refusal :=
  s.on fun h =>
    let h := h.endTx p
    if h.portFree p then
      match h.dueHead p with
      | some (q, id, second, t) => (h.dueFrom p q t).sendCopy p q id second
      | none => h
    else h

/-- `LAUNCH_WINDOW_EXPIRY` (R251). -/
def execLaunchWindowExpiry (p : Fin 3) (s : State) : Host.Outcome State Fault Refusal := s.on fun h => h.expireHeads p

/-! ## The timing wheel (R247) -/

/-- A queue becomes eligible again on a port: a tag before the class's virtual time at the start of the cycle is brought up to it (R244). -/
def Hub.makeEligible (h : Hub) (q : Nat) (second : Bool) : Hub :=
  let t := h.tq q
  let x := t.port second
  let p := if second then 1 else outPort (h.tqOut q)
  let v := h.vtime p (h.tqClass q)
  let tag := match x.tag with
    | some s => some (if tagBefore s v then v else s)
    | none => none
  h.setTq q (t.setPort second { x with hold := .none, tag := tag })

/-- The scan of the far list at slot 0: entries less than 204,800 ns ahead move to their slots. -/
def Hub.farScan (h : Hub) : Hub :=
  let t := h.baseNs 3 * 256
  let move := fun (x : QPort) =>
    if x.hold = .far ∧ x.e < t + 204800 * 256 then { x with hold := .wheel (ceilDiv x.e (50 * 256)) } else x
  h.busyQueues.foldl (fun h q => let x := h.tq q; h.setTq q { x with pa := move x.pa, pb := move x.pb }) h

/-- A queue waits in the slot that is reached with the `k`th multiple of 50 ns; never early, it does not leave a rotation before its e
(log entry 37). -/
def Hold.reached (x : Hold) (k : Nat) : Bool :=
  match x with
  | .wheel n => n % 4096 == k % 4096 && decide (n ≤ k)
  | _ => false

/-- `WHEEL_SLOT` (R247): slot `j` is reached in the cycle in which TB3 comes to, or passes, a multiple of 50 ns that is congruent to 50 j modulo
204,800 ns. -/
def Hub.wheelSlot (h : Hub) (j : Nat) : Hub :=
  let k := h.baseNs 3 / 50
  if k % 4096 ≠ j ∨ k = h.start.tb3 / 50 then h else
  let h := if j = 0 then h.farScan else h
  h.busyQueues.foldl (fun h q =>
    let h := if (h.tq q).pa.hold.reached k then h.makeEligible q false else h
    if (h.tq q).pb.hold.reached k then h.makeEligible q true else h) h

def execWheelSlot (j : Fin 4096) (s : State) : Host.Outcome State Fault Refusal := s.on fun h => h.wheelSlot j

/-! ## Policers (R249) -/

def Hub.bucket (h : Hub) (i : Nat) : Bucket := tget ({} : Bucket) h.tm.pol i
def Hub.setBucket (h : Hub) (i : Nat) (b : Bucket) : Hub := { h with tm := { h.tm with pol := tset ({} : Bucket) h.tm.pol i b } }
def Hub.cbs (h : Hub) (i : Nat) : Nat := h.fld (Reg.POL_CBS i) F.POL_CBS_CBS * 8000000

/-- The bucket refilled for the time since it was last refilled, up to `CBS`. -/
def Hub.refill (h : Hub) (i : Nat) : Bucket :=
  let b := h.bucket i
  let dt := h.baseNs 3 - b.at_
  { tokens := min (h.cbs i) (b.tokens + dt * h.fld (Reg.POL_CFG i) F.POL_CFG_CIR_KBPS), at_ := h.baseNs 3 }

/-- Judge a frame of length `l` by policer `i`: whether it passes, and the hub after. A policer that is off passes all. -/
def Hub.police (h : Hub) (i l : Nat) : Bool × Hub :=
  if h.flag (Reg.POL_CFG i) F.POL_CFG_EN then
    let b := h.refill i
    if l * 8000000 ≤ b.tokens then (true, h.setBucket i { b with tokens := b.tokens - l * 8000000 })
    else (false, (((h.setBucket i b).count (Reg.POL_CNT_DROP i)).count Reg.TM_CNT_POL_DROP).evt Reg.TM_EVT F.TM_EVT_POL_DROP)
  else (true, h)

/-- The default policer of an input port (R248). -/
def Hub.defPol (h : Hub) (p : Nat) : Option Nat :=
  if h.flag (Reg.TM_PORT p) F.TM_PORT_DEF_POL_EN then some (h.fld (Reg.TM_PORT p) F.TM_PORT_DEF_POL) else none

/-- Judge a frame of length `l` by the policer named for it, if any. -/
def Hub.policeBy (h : Hub) (pol : Option Nat) (l : Nat) : Bool × Hub :=
  match pol with
  | some i => h.police i l
  | none => (true, h)

/-! ## Frames of the host, the point port and the control core (R239, R262, R268) -/

/-- A frame enters on `P4`, `P5` or `P6`, for queue `q` with output code `need`; answers its number. It is placed in the next cycle. -/
def Hub.enterOwn (h : Hub) (p : Nat) (f : Frame) (q : Nat) (need : Option Nat) (lossy : Bool) : Hub × Nat :=
  let r := h.frameId
  let x : OwnIn := ⟨p, r.2, q, lossy, { f with inPort := p, need := need, uses := 1 }, h.now⟩
  ({ r.1 with swc := { r.1.swc with own := r.1.swc.own ++ [x] } }, r.2)

/-- It is policed by its port's default (R248), takes its cells and is placed in its queue (R240). -/
def Hub.ownIn (h : Hub) (x : OwnIn) : Hub :=
  let l := frameLen x.frame.bytes
  match h.policeBy (h.defPol x.port) l with
  | (true, h) => (h.bufferAs x.id x.frame l).place x.queue x.id x.frame.need x.lossy
  | (false, h) => h.departed x.frame

/-- The frames of port `p` that came before this cycle, in order; the port waits until cells are free (R268). -/
def Hub.ownPort : Nat → Nat → Hub → Hub
  | 0, _, h => h
  | n + 1, p, h =>
    match h.swc.own.find? fun x => x.port == p with
    | some x =>
      if x.at_ < h.now ∧ cellsFor x.frame.bytes ≤ h.freeCells then
        Hub.ownPort n p (({ h with swc := { h.swc with own := h.swc.own.erase x } } : Hub).ownIn x)
      else h
    | none => h

/-- The ports in rising order, after the frames of `P0` to `P2` of the cycle (R249). -/
def Hub.ownAdmit (h : Hub) : Hub := [4, 5, 6].foldl (fun h p => Hub.ownPort h.swc.own.length p h) h

/-- The queue that the control core chooses for a frame to an output (R239): the lowest-numbered enabled normal queue with that `OUT`
(log entry 33). -/
def Hub.coreQueue (h : Hub) (out : Nat) : Option Nat := (List.range 256).find? fun q => h.tqOn q && !h.tqLaunch q && h.tqOut q == out

/-- The control core places a frame for output code `out`; where it finds no queue, it sends none (log entry 33). -/
def Hub.corePlace (h : Hub) (out : Nat) (f : Frame) : Hub :=
  match h.coreQueue out with
  | some q => (h.enterOwn 6 { f with cls := h.tqClass q } q (some out) false).1
  | none => h

/-- Set a policer's tokens to `CBS`. -/
def Hub.fillBucket (h : Hub) (i : Nat) : Hub := h.setBucket i { tokens := h.cbs i, at_ := h.baseNs 3 }

/-- A write of a policer's first word (R249, R261): setting `EN` fills the bucket. -/
def Hub.polCfgWrite (h : Hub) (i : Nat) (w : Word) : Hub :=
  let was := h.flag (Reg.POL_CFG i) F.POL_CFG_EN
  let h := { h.setBucket i (h.refill i) with regs := h.regs }
  let h := h.wr (Reg.POL_CFG i) (w &&& 0x80FFFFFF)
  if !was && h.flag (Reg.POL_CFG i) F.POL_CFG_EN then h.fillBucket i else h

/-- A write of `CBS` cuts the tokens to the new size (R249). -/
def Hub.polCbsWrite (h : Hub) (i : Nat) (w : Word) : Hub :=
  let b := h.refill i
  let h := h.wr (Reg.POL_CBS i) (w &&& 0x00FFFFFF)
  h.setBucket i { b with tokens := min b.tokens (h.cbs i) }

/-- `POLICER_ENABLE` (R249): a write that sets a policer's `EN`. -/
def execPolicerEnable (i : Fin 256) (w : Word) (s : State) : Host.Outcome State Fault Refusal :=
  s.on fun h => h.polCfgWrite i (w ||| 0x80000000)

/-! ## Enabling a queue (R241) and the commands (R258) -/

/-- The settings of a queue pass the checks of R241, as they stand in a configuration word. -/
def Hub.tqCfgOk (h : Hub) (q : Nat) (w : Word) : Bool :=
  let cap := bits w F.TM_Q_CFG_CAP
  let hi := h.fld (Reg.TM_Q_WM q) F.TM_Q_WM_WM_HI
  let lo := h.fld (Reg.TM_Q_WM q) F.TM_Q_WM_WM_LO
  decide (cap ≠ 0) && decide (hi ≠ 0) && decide (hi ≤ cap) && decide (lo < hi) &&
    decide (h.fld (Reg.TM_Q_WEIGHT q) F.TM_Q_WEIGHT_WEIGHT ≠ 0) &&
    !(bits w F.TM_Q_CFG_MODE == 1 && decide (3 < bits w F.TM_Q_CFG_OUT))

/-- A write of `TM_Q_CFG` (R241, R260, R246). -/
def Hub.tqCfgWrite (h : Hub) (q : Nat) (w : Word) : Hub :=
  let a := Reg.TM_Q_CFG q
  let w := w &&& 0x0003FFFF
  let refuse := fun (h : Hub) => h.evt Reg.TM_EVT F.TM_EVT_WRITE_REFUSED
  let en := bits w F.TM_Q_CFG_EN
  if h.tqStopped q then
    if en = 1 then
      if h.tqCfgOk q w then
        let h := h.wr a w
        let t := h.tq q
        h.setTq q { t with pa := { t.pa with e := 0, hold := .none }, pb := { t.pb with e := 0, hold := .none } }
      else refuse h
    else h.wr a w
  else
    let held := putBits (h.rd a) F.TM_Q_CFG_EN en
    let changed := decide (putBits w F.TM_Q_CFG_EN 0 ≠ putBits (h.rd a) F.TM_Q_CFG_EN 0)
    let starting := en == 1 && !h.tqOn q
    if starting && !h.tqCfgOk q held then refuse h
    else
      let h := (h.wr a held).when changed refuse
      let t := h.tq q
      if starting then
        h.setTq q { t with pa := { t.pa with e := 0, hold := .none }, pb := { t.pb with e := 0, hold := .none } }
      else h

/-- `TM_QUEUE_ENABLE` (R241): a write that sets a traffic queue's `EN`. -/
def execTmQueueEnable (q : Fin 256) (w : Word) (s : State) : Host.Outcome State Fault Refusal :=
  s.on fun h => h.tqCfgWrite q (w ||| 1)

/-- Discard every frame of a queue (R258). A frame being sent leaves the queue and returns its credit, and is released when it has ended,
since a frame once begun is never interrupted (R243). -/
def Hub.tqFlush (h : Hub) (q : Nat) : Hub :=
  let ids := (h.tq q).ents.map (·.id)
  let h := h.countN (Reg.TM_Q_CNT_FLUSHED q) ids.length
  let h := ids.foldl (fun h id => if h.onLine q id then h.tqTake q id else h.tqRemove q id) h
  let t := h.tq q
  (h.setTq q { t with c := { t.c with high := false }, popped := 0, mark := 0 }).setFld (Reg.TM_Q_STAT q) F.TM_Q_STAT_WM_CROSS 0

/-- `TM_Q_FLUSH` (R258). -/
def runTmQFlush (h : Hub) (c : CmdIn) : Ack :=
  let q := c.arg 1
  if 256 ≤ q ∨ c.zeroFrom 2 = false then .refuse sEARG 0 q
  else if h.tqOn q then .refuse sESTATE (h.tqCfg q F.TM_Q_CFG_EN) q
  else .done (h.tqFlush q) []

def execTmQFlush (src : CmdSrc) (tag : Byte) (q : Word) (s : State) : Host.Outcome State Fault Refusal :=
  s.on fun h => h.accept (mkCmd src 0x0301 tag [q]) runTmQFlush

/-- `TM_POL_FILL` (R258). -/
def runTmPolFill (h : Hub) (c : CmdIn) : Ack :=
  let i := c.arg 1
  if 256 ≤ i ∨ c.zeroFrom 2 = false then .refuse sEARG 0 i else .done (h.fillBucket i) []

def execTmPolFill (src : CmdSrc) (tag : Byte) (i : Word) (s : State) : Host.Outcome State Fault Refusal :=
  s.on fun h => h.accept (mkCmd src 0x0302 tag [i]) runTmPolFill

/-- The point port lets go of a frame that it held. -/
def Hub.letGo (h : Hub) (f : Frame) : Hub :=
  match f.held with
  | some id => h.release id
  | none => h

/-- Deliver a frame-type NRP frame to the node's delivery queue of its flow (R257). The copy stays in the cells that it holds (R269, R278); one
that a twin's journal brought takes cells of its own. -/
def Hub.deliver (h : Hub) (f : Frame) : Hub :=
  let n := nrpParse f.bytes
  let q := h.fld (Reg.FLOW_RX n.flow) F.FLOW_RX_RX_QUEUE
  if h.delivers = false then h.letGo f
  else if h.flag (Reg.FLOW_RX n.flow) F.FLOW_RX_RX_EN = false ∨ h.tqOut q ≠ 7 then
    ((h.count Reg.TM_CNT_NO_DELIVER).evt Reg.TM_EVT F.TM_EVT_NO_DELIVER).letGo f
  else
    match f.held with
    | some id => h.place q id (some 7) true
    | none =>
      let (h, id) := h.newFrame { f with uses := 1, own := false, draft := none, launch := none, seq := none, doneTag := none, gen := none, charged := false }
      h.place q id (some 7) true

/-- The words of a delivered frame (R257). -/
def deliveredWords (f : Frame) : List Word :=
  let n := nrpParse f.bytes
  let data := slice f.bytes (14 + nrpHdrLen n.ver) n.len
  let first := word (n.len % 2048 + n.flow * 2 ^ 12 + n.src * 2 ^ 20 + 2 ^ 28)
  first :: (List.range (ceilDiv n.len 4)).map fun i => word (beNat (padTo 4 (slice data (4 * i) 4)))

end Sys2Proof.Machine
end

