-- ==== Sys2Proof/Machine/Points.lean ====
section
/-! DEFINITION. Points (chapter 02): local records and their writers, the mirror and subscriptions, remote transactions, the
point port's reception of bundles and transactions (with the Guard, R225 to R229), the point commands, and the window W2. -/

namespace Sys2Proof.Machine

/-! ## Records -/

def Hub.slot (h : Hub) (i : Nat) : Rec := tget ({} : Rec) h.pt.pts i
def Hub.setSlot (h : Hub) (i : Nat) (r : Rec) : Hub := { h with pt := { h.pt with pts := tset ({} : Rec) h.pt.pts i r } }
def Hub.mirE (h : Hub) (i : Nat) : Rec := tget ({} : Rec) h.pt.mir i
def Hub.setMirE (h : Hub) (i : Nat) (r : Rec) : Hub := { h with pt := { h.pt with mir := tset ({} : Rec) h.pt.mir i r } }

def Rec.defined (r : Rec) : Bool := testBit r.flags.toNat 7
def Rec.wrCar (r : Rec) : Bool := testBit r.flags.toNat 2
def Rec.wrRemote (r : Rec) : Bool := testBit r.flags.toNat 3
def Rec.wrHost (r : Rec) : Bool := testBit r.flags.toNat 4

/-- Word 1 of a record (R39). -/
def Rec.word1 (r : Rec) : Word :=
  word (r.quality.toNat + r.typ.toNat * 2 ^ 16 + r.alive.toNat * 2 ^ 20 + r.flags.toNat * 2 ^ 24)

/-- The four words of a record (R39). -/
def Rec.words (r : Rec) : List Word := [r.value, r.word1, word r.ts.toNat, word (r.ts.toNat / 2 ^ 32)]

/-- A value as the hub stores it by type (R43). -/
def valueFor (typ : Nat) (v : Word) : Word :=
  match typ with
  | 0 => v &&& 1
  | 1 => v &&& 3
  | _ => v

/-- What a write does to a record (R46): `late` is the new quality bit 13. -/
def Rec.write (r : Rec) (value : Word) (quality : Nat) (late : Bool) (ts : Nat) : Rec :=
  { r with value := valueFor r.typ.toNat value,
           quality := BitVec.ofNat 16 (quality % 2 ^ 13 + bitB late * 2 ^ 13 + r.quality.toNat / 2 ^ 14 * 2 ^ 14),
           alive := r.alive + 1, ts := BitVec.ofNat 64 ts }

/-- A refused write: counted once, with its event (R36, R45). -/
def Hub.deny (h : Hub) : Hub := (h.count Reg.PTM_CNT_WR_DENIED).evt Reg.PTM_EVT F.PTM_EVT_WR_DENIED

/-- A local user slot (R35). -/
def userSlot (i : Nat) : Bool := decide (i < 0xFF00)

/-- The node field of a fabric address means this node (R33). -/
def Hub.ownNode (h : Hub) (n : Nat) : Bool := n == 0 || (h.ring.addr != 0 && n == h.ring.addr)

/-- Rank of the writers of a slot in one cycle: a commit, a remote write, a host write (R48). -/
def rkCar : Fin 4 := 1
def rkRemote : Fin 4 := 2
def rkHost : Fin 4 := 3

/-- The highest rank that has written a slot in the present cycle; 0 for none. -/
def Hub.slotRank (h : Hub) (i : Nat) : Fin 4 := if h.pt.wroteAt = h.now then tget 0 h.pt.wrote i else 0

/-- A writer of rank `rk` writes slot `i`, which becomes `r`. Where a writer of a higher rank has written in the same cycle, the record
stays that writer's, and the write only counts in `ALIVE` (R48). -/
def Hub.putSlot (h : Hub) (rk : Fin 4) (i : Nat) (r : Rec) : Hub :=
  if rk < h.slotRank i then h.setSlot i { h.slot i with alive := (h.slot i).alive + 1 }
  else
    let before := if h.pt.wroteAt = h.now then h.pt.wrote else []
    let h := h.setSlot i r
    { h with pt := { h.pt with wrote := tset 0 before i rk, wroteAt := h.now } }

/-! ## The point map (R37, R38) -/

def MapChange.record (m : MapChange) : Rec :=
  if m.define_ then { quality := 1, typ := m.typ, flags := m.flags ||| 0x80 } else {}

/-- A change of the map takes effect (R38): what wrote the slots earlier in the cycle no longer counts. -/
def Hub.mapApply (h : Hub) (m : MapChange) : Hub :=
  let h := { h with pt := { h.pt with wrote := [] } }
  (List.range m.count).foldl (fun h i => h.setSlot (m.first + i) m.record) h

/-- The changes that wait take effect, in the order accepted (R37). -/
def Hub.mapApplyAll (h : Hub) : Hub :=
  let h' := h.pt.mapPend.foldl (fun h m => h.mapApply m) h
  { h' with pt := { h'.pt with mapPend := [], mapLoaded := h'.pt.mapLoaded || h'.pt.mapLast, mapLast := false } }

/-- `PT_MAP_SET` (R37, R70): takes effect at the next base edge while the Strum runs, else at once. Changes that still wait when the
Strum is stopped stay behind one executed while it is stopped (log entry 45). -/
def runPtMapSet (h : Hub) (c : CmdIn) : Ack :=
  let first := c.arg 1
  let n := c.arg 2
  let w := c.arg 3
  if first > 0xFEFF ∨ n = 0 ∨ n > 65280 ∨ first + n > 0xFF00 ∨ 8 ≤ w % 16 ∨ c.zeroFrom 4 = false then .refuse sEARG 0 0
  else
    let m : MapChange := { first := first, count := n, define_ := testBit w 15, typ := BitVec.ofNat 4 w,
                           flags := BitVec.ofNat 8 (w / 16 % 32) }
    if h.car.strum then .done { h with pt := { h.pt with mapPend := h.pt.mapPend ++ [m] } } []
    else .done (h.mapApply m) []

/-! ## Local writes -/

/-- A write of a Carousel commit to a local slot (R45, R46): `ts` none takes the job's edge time on the slot's base. -/
def Hub.carWrite (h : Hub) (slot : Nat) (value : Word) (quality : Nat) (ts : Option Nat) (edge : Nat → Nat) : Hub :=
  let r := h.slot slot
  if userSlot slot && r.defined && r.wrCar then
    h.putSlot rkCar slot (r.write value quality false (ts.getD (stampOf (edge r.tb))))
  else h.deny

/-- A host write to a local slot (R45): the status, and the hub after. `event` asks for type EVENT. -/
def Hub.hostWrite (h : Hub) (slot : Nat) (value : Word) (quality : Nat) (ts : Option Nat) (event : Bool) : Nat × Hub :=
  let r := h.slot slot
  if userSlot slot = false then (sEDENIED, h.deny)
  else if r.defined = false ∨ (event = true ∧ r.typ ≠ 7) then (sEARG, h.deny)
  else if r.wrHost = false then (sEDENIED, h.deny)
  else
    let h := h.putSlot rkHost slot (r.write value quality false (ts.getD (h.stampNow r.tb)))
    (sOK, if event then h.evt Reg.PTM_EVT F.PTM_EVT_EVENT_RX else h)

/-! ## Subscriptions (R55 to R60) -/

def Hub.subSt (h : Hub) (i : Nat) : SubState := tget .off h.pt.sub i
def Hub.setSub (h : Hub) (i : Nat) (x : SubState) : Hub := { h with pt := { h.pt with sub := tset .off h.pt.sub i x } }
def Hub.subNode (h : Hub) (i : Nat) : Nat := h.fld (Reg.PTM_SUB0 i) F.PTM_SUB0_SRC_NODE
def Hub.subStart (h : Hub) (i : Nat) : Nat := h.fld (Reg.PTM_SUB0 i) F.PTM_SUB0_SRC_START
def Hub.subCount (h : Hub) (i : Nat) : Nat := h.fld (Reg.PTM_SUB1 i) F.PTM_SUB1_COUNT_M1 + 1
def Hub.subBase (h : Hub) (i : Nat) : Nat := h.fld (Reg.PTM_SUB1 i) F.PTM_SUB1_MIRROR_BASE
def Hub.subGroup (h : Hub) (i : Nat) : Nat := h.fld (Reg.PTM_SUB0 i) F.PTM_SUB0_STALE_GROUP

/-- The entries that are not OFF. -/
def Hub.subsOpen (h : Hub) : List Nat := h.pt.sub.map (·.1)

def rangesMeet (a n b m : Nat) : Bool := decide (a < b + m) && decide (b < a + n)

/-- READs in progress: landing entry and count. -/
def Hub.readsPending (h : Hub) : List (Nat × Nat) :=
  h.pt.tags.filterMap fun (_, t) => if t.st = .pending ∧ t.kind = .read then some (t.landing, t.count) else none

/-- The checks of R56 on entry `i`. -/
def Hub.subOk (h : Hub) (i : Nat) : Bool :=
  let node := h.subNode i
  let n := h.subCount i
  decide (node ≠ 0) && decide (node ≠ 0xFF) && !(h.ring.addr != 0 && node == h.ring.addr) &&
    decide (h.subStart i + n ≤ 0xFF00) && decide (h.subBase i + n ≤ 16384) &&
    (h.subsOpen.all fun j => j == i || !rangesMeet (h.subBase i) n (h.subBase j) (h.subCount j)) &&
    (h.readsPending.all fun (b, m) => !rangesMeet (h.subBase i) n b m) &&
    (h.subsOpen.all fun j => j == i || h.subNode j != node || !rangesMeet (h.subStart i) n (h.subStart j) (h.subCount j))

/-- Set every mirror entry of a subscription. -/
def Hub.subFill (h : Hub) (i : Nat) (r : Rec) : Hub :=
  let base := h.subBase i
  (List.range (h.subCount i)).foldl (fun h j => h.setMirE (base + j) r) h

/-- The Strum number of a group: ⌊k ÷ N⌋ modulo 65,536 (R23). -/
def Hub.strumNum (h : Hub) (g : Nat) : Nat := h.car.k / max 1 (h.fld (Reg.CAR_GRP_N g) F.CAR_GRP_N_N) % 65536

/-! ## Originating frames (R13, R294, R305, R318) -/

/-- The hub makes counted frames for its node. A standby builds the same frames and sends none (R371). -/
def Hub.mayOriginate (h : Hub) : Bool := h.originates && (h.acts || h.twin.role == .standby)

/-- The queue of transaction frames and ring checks: the lowest-numbered enabled normal queue with `OUT` 2 (R13, log entry 20). -/
def Hub.txnQueue (h : Hub) : Option Nat := h.coreQueue 2

/-- Build a counted frame and place it in queue `q`. `pay` gives the payload, or the draft that the launch completes, for the
version of the destination; the draft's length is fixed at once. -/
def Hub.originate (h : Hub) (typ flags dst : Nat) (group : Bool) (flow strum alive q : Nat) (launch : Option Nat)
    (doneTag : Option Nat) (lossy : Bool) (pay : Nat → List Byte ⊕ Draft) : Hub :=
  let ver := h.verFor dst group
  let seq := h.ring.seq
  let h := { h with ring := { h.ring with seq := (seq + 1) % 65536 } }
  let len := match pay ver with
    | .inl bs => bs.length
    | .inr d => d.txn.length + 4 + 12 * d.count + (if ver = 3 then 4 else 0)
  let hdr := h.ownHdr ver typ (flags + bitB group * 8) dst seq flow (h.tqClass q) strum len alive
  let head := h.ethHead dst ++ nrpBytes hdr
  let f : Frame := { bytes := [], own := true, seq := some seq, cls := h.tqClass q, launch := launch, doneTag := doneTag }
  let f := match pay ver with
    | .inl bs => { f with bytes := padTo 60 (head ++ bs) }
    | .inr d => { f with bytes := padTo 60 (head ++ List.replicate len 0), draft := some { d with head := head, ver := ver } }
  (h.enterOwn 5 f q (some 2) lossy).1

/-! ## Transactions (R62 to R68) -/

def TxnKind.code : TxnKind → Nat
  | .read => 0 | .write => 1 | .subscribe => 2 | .event => 3

def Hub.freeTag (h : Hub) : Option Nat := (List.range 256).find? fun t => (h.tag t).st == .free

def Hub.txnTimeout (h : Hub) : Nat := h.fld Reg.PTM_TXN_CFG F.PTM_TXN_CFG_TIMEOUT_US * tuUs

/-- Transaction header (R298). -/
def txnHead (kind part status points : Nat) : List Byte := [byte (kind * 16 + part % 16), byte status] ++ beBytes 2 points

/-- Send the request of tag `t`, or send it again with `RETRY` (R64, R298). Its last transmission is the instant at which it enters its
queue (log entry 45). -/
def Hub.sendTag (h : Hub) (t : Nat) (retry : Bool) : Hub :=
  let g := h.tag t
  let h := h.setTag t { g with lastTx := h.now }
  match h.mayOriginate, h.txnQueue with
  | true, some q =>
    let group := g.node == 0xFF
    let points := if g.kind = .read ∨ g.kind = .subscribe then g.count else 0
    let recs := if g.kind = .write ∨ g.kind = .event then g.recs else []
    h.originate tReq (bitB retry * 2) (if group then g.point % 256 else g.node) group t 0 0 q none
      (if group then some t else none) false fun ver =>
        .inr { txn := txnHead g.kind.code 0 0 points, alive := 0, src := h.ring.addr, dst := if group then g.point % 256 else g.node,
               group := group, flow := t, start := g.node * 65536 + g.point, count := recs.length, recs := recs, ver := ver, head := [] }
  | _, _ => h

/-- Take the lowest FREE tag and send its request; none when no tag is FREE (R63, R67). -/
def Hub.issueTxn (h : Hub) (kind : TxnKind) (origin node point count landing : Nat) (recs : List Rec) (ref : Option CmdRef) :
    Option Hub :=
  match h.freeTag with
  | none => none
  | some t =>
    some ((h.setTag t { st := .pending, kind := kind, origin := origin, node := node, point := point, count := count,
                        landing := landing, recs := recs, ref := ref, status := (h.tag t).status }).sendTag t false)

/-- A record that a WRITE or EVENT request carries: quality word laid out as word 1 of a record (R200, R451). -/
def mkReqRec (value : Word) (qw : Nat) (tb ts : Nat) : Rec :=
  { value := valueFor (qw / 2 ^ 16 % 16) value, quality := BitVec.ofNat 16 (qw % 2 ^ 13), typ := BitVec.ofNat 4 (qw / 2 ^ 16),
    flags := BitVec.ofNat 8 (tb % 4), ts := BitVec.ofNat 64 ts }

/-- `ORIGIN` of a transaction that a command starts (R69): the control core's when a setup script issued it. -/
def CmdIn.origin (c : CmdIn) : Nat :=
  match c.src with
  | .script => 2
  | _ => 0

/-- `PT_READ` (R67, R70, R451). -/
def runPtRead (h : Hub) (c : CmdIn) : Ack :=
  let a := c.arg 1
  let n := c.arg 2
  let land := c.arg 3
  let node := a / 65536 % 256
  if a ≥ 2 ^ 24 ∨ h.ownNode node = true ∨ node = 0xFF ∨ n = 0 ∨ n > 122 ∨ a % 65536 + n > 65536 ∨ land + n > 16384 ∨
      (h.subsOpen.any fun j => rangesMeet land n (h.subBase j) (h.subCount j)) = true ∨ c.zeroFrom 4 = false then .refuse sEARG 0 0
  else match h.issueTxn .read c.origin node (a % 65536) n land [] (some c.ref) with
    | some h => .later h
    | none => .refuse sENORES 0 0

/-- `PT_WRITE` and `PT_EVENT` (R46, R66, R70, R451). To a remote slot without a timestamp, the time of execution is taken on the
base that the quality word names (DEDUCED). -/
def Hub.ptWriteCmd (h : Hub) (c : CmdIn) (event : Bool) : Ack ⊕ (Hub × Nat) :=
  let a := c.arg 1
  let node := a / 65536 % 256
  let qw := c.arg 3
  let tsx := testBit (c.arg 4) 0
  let ts := c.arg 5 + c.arg 6 * 2 ^ 32
  let groupBad := node = 0xFF ∧ (event = false ∨ a / 256 % 256 ≠ 0)
  if a ≥ 2 ^ 24 ∨ groupBad then .inl (.refuse sEARG 0 0)
  else if h.ownNode node then
    match h.hostWrite (a % 65536) (word (c.arg 2)) qw (if tsx then some ts else none) event with
    | (0, h) => .inl (.done h [])
    | (st, h) => .inr (h, st)
  else
    let tb := qw / 2 ^ 24 % 4
    let qw := if event then qw / 2 ^ 20 * 2 ^ 20 + 7 * 2 ^ 16 + qw % 2 ^ 16 else qw
    let r := mkReqRec (word (c.arg 2)) qw tb (if tsx then ts else h.stampNow tb)
    match h.issueTxn (if event then .event else .write) c.origin node (a % 65536) 1 0 [r] (some c.ref) with
    | some h => .inl (.later h)
    | none => .inl (.refuse sENORES 0 0)

/-- A refused local write has counted in `PTM_CNT_WR_DENIED` (R45), although the command is refused. -/
def Hub.acceptWrite (h : Hub) (c : CmdIn) (event : Bool) : Hub :=
  if h.served c = false then h else
  match h.precheck c, h.ptWriteCmd c event with
  | none, .inr (_, st) => (h.accept c fun _ _ => .refuse st 0 0).deny
  | _, _ => h.accept c fun h c => match h.ptWriteCmd c event with
      | .inl a => a
      | .inr (_, st) => .refuse st 0 0

def Hub.openSub (h : Hub) (i origin : Nat) : Option Hub :=
  match h.issueTxn .subscribe origin (h.subNode i) (h.subStart i) (h.subCount i) i [] none with
  | some h => some ((h.subFill i { quality := 1, flags := 0xC0 }).setSub i .opening)
  | none => none

def SubState.code : SubState → Nat
  | .off => 0 | .opening => 1 | .active => 2 | .failed => 3

/-- `PT_SUB_OPEN` (R56, R70): answers OK once the entry is OPENING. -/
def runPtSubOpen (h : Hub) (c : CmdIn) : Ack :=
  let i := c.arg 1
  if 4096 ≤ i ∨ c.zeroFrom 2 = false then .refuse sEARG 0 i
  else if h.subOk i = false then .refuse sEARG 0 i
  else if h.subSt i = .opening ∨ h.subSt i = .active then .refuse sESTATE (h.subSt i).code i
  else match h.openSub i c.origin with
    | some h => .done h []
    | none => .refuse sENORES 0 i

/-- A pending SUBSCRIBE of entry `i` is abandoned without completing (R63). -/
def Hub.abandonSub (h : Hub) (i : Nat) : Hub :=
  (List.range 256).foldl (fun h t =>
    let g := h.tag t
    if g.st = .pending ∧ g.kind = .subscribe ∧ g.landing = i then h.setTag t { g with st := .quarantine, ref := none, parts := [], held := [] }
    else h) h

/-- `PT_SUB_CLOSE` (R57, R63, R70). -/
def runPtSubClose (h : Hub) (c : CmdIn) : Ack :=
  let i := c.arg 1
  if 4096 ≤ i ∨ c.zeroFrom 2 = false then .refuse sEARG 0 i
  else if h.subSt i = .off then .refuse sESTATE 0 i
  else .done (((h.subFill i {}).abandonSub i).setSub i .off) []

def execPtRead (src : CmdSrc) (tag : Byte) (addr count landing : Word) (s : State) : Host.Outcome State Fault Refusal :=
  s.on fun h => h.accept (mkCmd src 0x0D01 tag [addr, count, landing]) runPtRead
def execPtWrite (src : CmdSrc) (tag : Byte) (addr value quality tsx tsLo tsHi : Word) (s : State) :
    Host.Outcome State Fault Refusal :=
  s.on fun h => h.acceptWrite (mkCmd src 0x0D02 tag [addr, value, quality, tsx, tsLo, tsHi]) false
def execPtEvent (src : CmdSrc) (tag : Byte) (addr value quality tsx tsLo tsHi : Word) (s : State) :
    Host.Outcome State Fault Refusal :=
  s.on fun h => h.acceptWrite (mkCmd src 0x0D03 tag [addr, value, quality, tsx, tsLo, tsHi]) true
def execPtSubOpen (src : CmdSrc) (tag : Byte) (entry : Word) (s : State) : Host.Outcome State Fault Refusal :=
  s.on fun h => h.accept (mkCmd src 0x0D04 tag [entry]) runPtSubOpen
def execPtSubClose (src : CmdSrc) (tag : Byte) (entry : Word) (s : State) : Host.Outcome State Fault Refusal :=
  s.on fun h => h.accept (mkCmd src 0x0D05 tag [entry]) runPtSubClose
def execPtMapSet (src : CmdSrc) (tag : Byte) (first count what : Word) (s : State) : Host.Outcome State Fault Refusal :=
  s.on fun h => h.accept (mkCmd src 0x0D06 tag [first, count, what]) runPtMapSet

/-! ## Reception: the mirror (R58 to R60, R225 to R229) -/

/-- The mirror record that a wire record becomes (R58). -/
def WireRec.mirror (w : WireRec) (alive ts : Nat) : Rec :=
  { value := w.value, quality := BitVec.ofNat 16 (w.quality % 2 ^ 14), typ := BitVec.ofNat 4 w.typ,
    alive := BitVec.ofNat 4 alive, flags := BitVec.ofNat 8 (0xC0 + w.tb), ts := BitVec.ofNat 64 ts }

/-- A mirror write (R58). -/
def Hub.mirWrite (h : Hub) (e : Nat) (r : Rec) : Hub :=
  let h := h.setMirE e r
  { h with pt := { h.pt with fresh := tset 0 h.pt.fresh e (h.now + 1) } }

/-- The records of a bundle that fall in slots `lo` to `lo + n - 1`, each with its mirror entry from `base`. -/
def mirrorRecs (f : Frame) (b : Bundle) (lo n base : Nat) : List (Nat × Rec) :=
  let hd := nrpParse f.bytes
  let rx : Nat → Int := fun t => ((f.stamps.getD t 0 / 65536 : Nat) : Int)
  (b.recs.take b.count).zipIdx.filterMap fun (w, i) =>
    let s := b.start % 65536 + i
    if lo ≤ s ∧ s < lo + n then some (base + (s - lo), w.mirror hd.alive (recvStamp hd rx w)) else none

/-- Write the records of a bundle that fall in slots `lo` to `lo + n - 1` to mirror entries from `base`. -/
def Hub.writeRecs (h : Hub) (f : Frame) (b : Bundle) (lo n base : Nat) : Hub :=
  (mirrorRecs f b lo n base).foldl (fun h x => h.mirWrite x.1 x.2) h

/-- The ACTIVE subscriptions of a source node whose range a bundle's range meets; one that is still OPENING meets none (log entry 45). -/
def Hub.subsMet (h : Hub) (src start count : Nat) : List Nat :=
  h.subsOpen.filter fun i =>
    h.subSt i == .active && h.subNode i == src && rangesMeet (h.subStart i) (h.subCount i) (start % 65536) count

/-- Feed every ACTIVE subscription that a bundle meets (R58); the records that `STRUM_CHECK` drops are counted (R60). -/
def Hub.feedSubs (h : Hub) (f : Frame) (b : Bundle) : Hub :=
  let hd := nrpParse f.bytes
  let met := h.subsMet hd.src b.start b.count
  if met.isEmpty then h.count Reg.PTM_CNT_UNMATCHED
  else met.foldl (fun h i =>
    let d := (h.strumNum (h.subGroup i) + 65536 - hd.strum % 65536) % 65536
    if h.flag (Reg.PTM_SUB0 i) F.PTM_SUB0_STRUM_CHECK = true ∧ 2 ≤ d ∧ d ≤ 32767 then
      h.countN Reg.PTM_CNT_LATE_DROP (mirrorRecs f b (h.subStart i) (h.subCount i) (h.subBase i)).length
    else h.writeRecs f b (h.subStart i) (h.subCount i) (h.subBase i)) h

/-- A dropped publication sets `GUARD_FAIL` on the entries of every subscription whose range overlaps its own, and of every subscription of
the source when its range is unusable (R228). -/
def Hub.guardMark (h : Hub) (src start count : Nat) : Hub :=
  let bad := count = 0 ∨ count > 122 ∨ start / 65536 ≠ src
  (h.subsOpen.filter fun i => h.subSt i == .active && h.subNode i == src).foldl (fun h i =>
    if bad ∨ (h.subStart i < start % 65536 + count ∧ start % 65536 < h.subStart i + h.subCount i) then
      (List.range (h.subCount i)).foldl (fun h j =>
        let r := h.mirE (h.subBase i + j)
        h.setMirE (h.subBase i + j) { r with quality := r.quality ||| 0x4000 }) h
    else h) h

/-- A drop of step 2 or 3 of R225 counts in `GUARD_FAILS` (R228). -/
def Hub.guardFail (h : Hub) : Hub := { h with pt := { h.pt with guardFails := min 0xFFFFFFFF (h.pt.guardFails + 1) } }

/-- The payload of an NRP frame (R295). -/
def nrpPayload (bs : List Byte) : List Byte :=
  let n := nrpParse bs
  slice bs (14 + nrpHdrLen n.ver) n.len

/-- Step 2 of R225 on a bundle: unguarded bundles of versions 1 and 2 pass only when they are accepted (R229). -/
inductive GuardJudge where
  | pass | crc | unguarded
  deriving DecidableEq, Repr

def Hub.guardJudge (h : Hub) (n : Nrp) (b : Bundle) : GuardJudge :=
  match b.guard with
  | none => if h.flag Reg.GRD_CFG F.GRD_CFG_ACCEPT_UNGUARDED then .pass else .unguarded
  | some g => if guardOf n.alive n.src n.dst n.group n.flow b.start b.count b.raw = g then .pass else .crc

/-- Counting of a bundle that fails step 2. -/
def Hub.guardDrop (h : Hub) : GuardJudge → Hub
  | .pass => h
  | .crc => ((h.count Reg.GRD_CNT_CRC).evt Reg.CRC_EVT F.CRC_EVT_GUARD_CRC).guardFail
  | .unguarded => (h.count Reg.GRD_CNT_UNGUARDED).evt Reg.CRC_EVT F.CRC_EVT_UNGUARDED

/-- A received publication is judged and written (R225 to R229). -/
def Hub.publication (h : Hub) (f : Frame) : Hub :=
  let n := nrpParse f.bytes
  match bundleParse n.ver (nrpPayload f.bytes) with
  | none => h.count Reg.PTM_CNT_BAD_BUNDLE
  | some b =>
    if b.count = 0 then h.count Reg.PTM_CNT_BAD_BUNDLE else
    match h.guardJudge n b with
    | .crc => (h.guardDrop .crc).guardMark n.src b.start b.count
    | .unguarded => h.guardDrop .unguarded
    | .pass =>
      if n.ver ≠ 3 then (h.count Reg.GRD_CNT_OK).feedSubs f b else
      let ok := fun (h : Hub) => ((h.pairAccept n.src n.flow n.alive).count Reg.GRD_CNT_OK).feedSubs f b
      match h.aliveRule n.src n.flow n.alive with
      | .new | .ok => ok h
      | .gap m => ok (h.countN Reg.GRD_CNT_GAP m)
      | .resync => ok ((h.count Reg.GRD_CNT_RESYNC).evt Reg.CRC_EVT F.CRC_EVT_GUARD_RESYNC)
      | .repeat_ => ((h.count Reg.GRD_CNT_REPEAT).evt Reg.CRC_EVT F.CRC_EVT_GUARD_REPEAT).guardFail
      | .seq =>
        ((((h.count Reg.GRD_CNT_SEQ).evt Reg.CRC_EVT F.CRC_EVT_GUARD_SEQ).guardFail).pairCandidate n.src n.flow n.alive).guardMark
          n.src b.start b.count

/-- The partner in a twin does not receive this delivered frame, so that its record carries the frame (R370): it came in on the outer
ring port while the inner one is not UP, or not from the ring at all. -/
def Hub.jnlPayload (h : Hub) (f : Frame) : Bool :=
  let n := nrpParse f.bytes
  decide (2 ≤ f.inPort) || (!n.group && n.dst == h.ring.addr && h.outerPort == some f.inPort && !h.linkUp (1 - f.inPort))

/-- The `RING_RX` record of a delivered frame (R367, R370). -/
def Hub.jnlRx (h : Hub) (f : Frame) : Hub :=
  let n := nrpParse f.bytes
  let pay := if h.jnlPayload f then (List.range (ceilDiv f.bytes.length 4)).map fun i => word (beNat (padTo 4 (slice f.bytes (4 * i) 4))) else []
  h.jnl 0x07 ([word f.inPort, word n.src, word n.seq, word n.typ, word f.bytes.length, word (fcsOf f.bytes)] ++ pay)

/-- Take the head of the frames that have crossed `P5`, if it is of one of the given types. An active hub of a twin journals it first;
a hub that follows leaves it as a delivery candidate until a record names it (R366, R370). -/
def Hub.takeInbox (h : Hub) (ok : Frame → Bool) : Option (Frame × Hub) :=
  if h.follows && !h.twin.replay then none else
  match h.pt.inbox with
  | f :: rest => if ok f then some (f, { h with pt := { h.pt with inbox := rest } }.jnlRx f) else none
  | [] => none

def Hub.ptEnabled (h : Hub) : Bool := h.flag Reg.PTM_CTL F.PTM_CTL_EN

/-- The frame is of this NRP type. -/
def frameType (t : Nat) (f : Frame) : Bool := (nrpParse f.bytes).typ == t
/-- The frame is a request of this kind (R298). -/
def frameReq (k : TxnKind) (f : Frame) : Bool := frameType tReq f && beAt (nrpPayload f.bytes) 0 1 / 16 == k.code

/-- A request whose kind is none of R62's; nothing is done with it. -/
def frameOdd (f : Frame) : Bool := frameType tReq f && decide (4 ≤ beAt (nrpPayload f.bytes) 0 1 / 16)

/-- `BUNDLE_RX` (R58, R225): the point port takes a publication, or passes a frame-type frame to its delivery queue (R257). A request
of no kind that R62 defines is taken and dropped (log entry 38). -/
def Hub.bundleRx (h : Hub) : Hub :=
  match h.takeInbox fun f => frameType tPub f || frameType tFrame f || frameOdd f with
  | none => h
  | some (f, h) =>
    if frameType tFrame f then h.deliver f
    else
      let h := h.count Reg.PTM_CNT_BUNDLE_RX
      if h.ptEnabled && h.delivers && frameType tPub f then h.publication f else h

def execBundleRx (s : State) : Host.Outcome State Fault Refusal := s.on Hub.bundleRx

/-! ## Requests from other nodes (R57, R62, R65, R66) -/

/-- Send a response to a request. -/
def Hub.respondTxn (h : Hub) (n : Nrp) (kind part status start : Nat) (recs : List Rec) : Hub :=
  match h.mayOriginate, h.txnQueue with
  | true, some q =>
    h.originate tRsp 0 n.src false n.flow 0 0 q none none false fun ver =>
      .inr { txn := txnHead kind part status 0, alive := 0, src := h.ring.addr, dst := n.src, group := false, flow := n.flow,
             start := start, count := recs.length, recs := recs, ver := ver, head := [] }
  | _, _ => h

/-- A request as the point port judges it before acting on it (R225): header, points asked for, bundle. A READ, WRITE or SUBSCRIBE of
a group, which no node may send (R34), is dropped. -/
def Hub.openReq (h : Hub) (f : Frame) : Hub × Option (Nrp × Nat × Bundle) :=
  let h := h.count Reg.PTM_CNT_BUNDLE_RX
  let n := nrpParse f.bytes
  let p := nrpPayload f.bytes
  if h.ptEnabled = false ∨ h.delivers = false then (h, none) else
  match bundleParse n.ver (p.drop 4) with
  | none => (h.count Reg.PTM_CNT_BAD_BUNDLE, none)
  | some b =>
    let kind := beAt p 0 1 / 16
    let headerOnly := kind = 0 ∨ kind = 2
    if (headerOnly ∧ b.count ≠ 0) ∨ (¬ headerOnly ∧ b.count = 0) then (h.count Reg.PTM_CNT_BAD_BUNDLE, none) else
    match h.guardJudge n b with
    | .pass =>
      let h := h.count Reg.GRD_CNT_OK
      if n.group = true ∧ kind ≠ 3 then (h, none) else (h, some (n, beAt p 2 2, b))
    | j => (h.guardDrop j, none)

/-- Every slot of a range is defined. -/
def Hub.allDefined (h : Hub) (start n : Nat) : Bool :=
  decide (start + n ≤ 65536) && (List.range n).all fun i => (h.slot (start + i)).defined

def Hub.slots (h : Hub) (start n : Nat) : List Rec := (List.range n).map fun i => h.slot (start + i)

/-- `TXN_READ_REQ_RX` (R62). A refusal carries the record of the first slot as it reads, since the bundle of a READ response is never
header-only (R54, log entry 46). -/
def Hub.readReq (h : Hub) : Hub :=
  match h.takeInbox (frameReq .read) with
  | none => h
  | some (f, h) =>
    match h.openReq f with
    | (h, none) => h
    | (h, some (n, pts, b)) =>
      if 1 ≤ pts ∧ pts ≤ 122 ∧ h.allDefined (b.start % 65536) pts = true then
        h.respondTxn n 0 0 sOK (h.ring.addr * 65536 + b.start % 65536) (h.slots (b.start % 65536) pts)
      else h.respondTxn n 0 0 sEARG (h.ring.addr * 65536 + b.start % 65536) [h.slot (b.start % 65536)]
def execTxnReadReqRx (s : State) : Host.Outcome State Fault Refusal := s.on Hub.readReq

/-- `TXN_SUBSCRIBE_REQ_RX` (R57): ⌈count ÷ 122⌉ bundles; a refusal is one bundle, as of a READ (log entry 46). -/
def Hub.subscribeReq (h : Hub) : Hub :=
  match h.takeInbox (frameReq .subscribe) with
  | none => h
  | some (f, h) =>
    match h.openReq f with
    | (h, none) => h
    | (h, some (n, pts, b)) =>
      if 1 ≤ pts ∧ pts ≤ 1024 ∧ h.allDefined (b.start % 65536) pts = true then
        (List.range (ceilDiv pts 122)).foldl (fun h i =>
          h.respondTxn n 2 i sOK (h.ring.addr * 65536 + b.start % 65536 + 122 * i)
            (h.slots (b.start % 65536 + 122 * i) (min 122 (pts - 122 * i)))) h
      else h.respondTxn n 2 0 sEARG (h.ring.addr * 65536 + b.start % 65536) [h.slot (b.start % 65536)]
def execTxnSubscribeReqRx (s : State) : Host.Outcome State Fault Refusal := s.on Hub.subscribeReq

/-- The judgement of a WRITE on its slots (R65). -/
def Hub.judgeWrite (h : Hub) (start : Nat) (recs : List WireRec) : Nat :=
  let at_ := fun i => h.slot (start + i)
  let n := recs.length
  if start + n > 65536 then sEARG
  else if (List.range n).any fun i => userSlot (start + i) &&
      (!(at_ i).defined || (recs[i]?.map (fun w => w.typ != (at_ i).typ.toNat)).getD false) then sEARG
  else if (List.range n).any fun i => !userSlot (start + i) || !(at_ i).wrRemote then sEDENIED
  else sOK

/-- Apply the records of a remote write (R46): bit 13 as carried, the time reconstructed on the base that the record names, whatever base
the slot's flags name (log entry 45). -/
def Hub.remoteWrite (h : Hub) (f : Frame) (start : Nat) (recs : List WireRec) : Hub :=
  let hd := nrpParse f.bytes
  let rx : Nat → Int := fun t => ((f.stamps.getD t 0 / 65536 : Nat) : Int)
  (List.range recs.length).foldl (fun h i =>
    match recs[i]? with
    | some w => h.putSlot rkRemote (start + i) ((h.slot (start + i)).write w.value w.quality (testBit w.quality 13) (recvStamp hd rx w))
    | none => h) h

/-- `TXN_WRITE_REQ_RX` (R65): applied whole or not at all, and answered. -/
def Hub.writeReq (h : Hub) : Hub :=
  match h.takeInbox (frameReq .write) with
  | none => h
  | some (f, h) =>
    match h.openReq f with
    | (h, none) => h
    | (h, some (n, _, b)) =>
      let st := h.judgeWrite (b.start % 65536) b.recs
      let h := if st = sOK then h.remoteWrite f (b.start % 65536) b.recs else h.deny
      h.respondTxn n 1 0 st b.start []
def execTxnWriteReqRx (s : State) : Host.Outcome State Fault Refusal := s.on Hub.writeReq

/-- `TXN_EVENT_REQ_RX` (R62, R65, R66): one record of type EVENT. A group EVENT is ignored by a member without such a slot, and answered
by none. -/
def Hub.eventReq (h : Hub) : Hub :=
  match h.takeInbox (frameReq .event) with
  | none => h
  | some (f, h) =>
    match h.openReq f with
    | (h, none) => h
    | (h, some (n, _, b)) =>
      let slot := b.start % 65536
      let r := h.slot slot
      let one := decide (b.count = 1) && b.recs.all fun w => w.typ == 7
      let fits := one && userSlot slot && r.defined && r.wrRemote && decide (r.typ = 7)
      let apply := fun (h : Hub) => (h.remoteWrite f slot (b.recs.take 1)).evt Reg.PTM_EVT F.PTM_EVT_EVENT_RX
      if n.group then (if fits then apply h else h)
      else
        let st := if one = false ∨ (userSlot slot = true ∧ (r.defined = false ∨ r.typ ≠ 7)) then sEARG
                  else if userSlot slot = false ∨ r.wrRemote = false then sEDENIED else sOK
        (if st = sOK then apply h else h.deny).respondTxn n 3 0 st b.start []
def execTxnEventReqRx (s : State) : Host.Outcome State Fault Refusal := s.on Hub.eventReq

/-! ## Responses (R57, R63) -/

/-- A transaction fails or completes; a failed SUBSCRIBE takes its entry to FAILED. -/
def Hub.txnEnd (h : Hub) (t status : Nat) : Hub :=
  let g := h.tag t
  let h := if g.kind = .subscribe ∧ status ≠ sOK ∧ h.subSt g.landing = .opening then h.setSub g.landing .failed else h
  h.tagComplete t status

/-- The status codes that R452 defines. -/
def statusDefined (st : Nat) : Bool := decide (st ≤ 10) && st != 6

/-- A response that another node asked for: its records feed the subscriptions of their source (R57). -/
def Hub.rspOther (h : Hub) (f : Frame) : Hub :=
  let n := nrpParse f.bytes
  let p := nrpPayload f.bytes
  let kind := beAt p 0 1 / 16
  match bundleParse n.ver (p.drop 4) with
  | none => h.count Reg.PTM_CNT_BAD_BUNDLE
  | some b =>
    if b.count = 0 ∧ (kind = 0 ∨ kind = 2) then h.count Reg.PTM_CNT_BAD_BUNDLE else
    match h.guardJudge n b with
    | .pass =>
      let h := h.count Reg.GRD_CNT_OK
      if (kind = 0 ∨ kind = 2) ∧ beAt p 1 1 = sOK then h.feedSubs f b else h
    | j => h.guardDrop j

/-- `TXN_RSP_RX` (R63, R70, R225): a response that is malformed or fails the Guard completes its transaction with EPEER. -/
def Hub.rspRx (h : Hub) : Hub :=
  match h.takeInbox (frameType tRsp) with
  | none => h
  | some (f, h) =>
    let h := h.count Reg.PTM_CNT_BUNDLE_RX
    let n := nrpParse f.bytes
    let p := nrpPayload f.bytes
    let t := n.flow % 256
    let g := h.tag t
    let mine := g.st == .pending && g.node == n.src
    if h.ptEnabled = false ∨ h.delivers = false then h else
    if n.dst ≠ h.ring.addr then h.rspOther f else
    let kind := beAt p 0 1 / 16
    let part := beAt p 0 1 % 16
    let status := beAt p 1 1
    let bad := fun (h : Hub) => (h.count Reg.PTM_CNT_BAD_BUNDLE).when mine (·.txnEnd t sEPEER)
    match bundleParse n.ver (p.drop 4) with
    | none => bad h
    | some b =>
      if b.count = 0 ∧ (kind = 0 ∨ kind = 2) then bad h else
      match h.guardJudge n b with
      | .crc => (h.guardDrop .crc).when mine (·.txnEnd t sEPEER)
      | .unguarded => h.guardDrop .unguarded
      | .pass =>
        let h := h.count Reg.GRD_CNT_OK
        if mine = false then h.count Reg.PTM_CNT_STRAY_RSP
        else if kind ≠ g.kind.code ∨ statusDefined status = false then h.txnEnd t sEPEER
        else if status ≠ sOK then h.txnEnd t status
        else match g.kind with
          | .read =>
            if b.count = g.count ∧ b.start = g.node * 65536 + g.point then
              ((h.writeRecs f b g.point g.count g.landing).feedSubs f b).txnEnd t sOK
            else h.txnEnd t sEPEER
          | .subscribe =>
            let i := g.landing
            let want := min 122 (g.count - 122 * part)
            if part < ceilDiv g.count 122 ∧ b.count = want ∧ b.start = g.node * 65536 + g.point + 122 * part then
              let parts := if g.parts.contains part then g.parts else part :: g.parts
              let held := g.held ++ mirrorRecs f b (h.subStart i) (h.subCount i) (h.subBase i)
              if parts.length = ceilDiv g.count 122 then
                let h := h.setTag t { g with parts := [], held := [] }
                ((held.foldl (fun h x => h.mirWrite x.1 x.2) h).setSub i .active).txnEnd t sOK
              else h.setTag t { g with parts := parts, held := held }
            else h.txnEnd t sEPEER
          | .write | .event => if b.count = 0 then h.txnEnd t sOK else h.txnEnd t sEPEER
def execTxnRspRx (s : State) : Host.Outcome State Fault Refusal := s.on Hub.rspRx

/-- `TXN_TIMEOUT` (R64). -/
def Hub.txnTimedOut (h : Hub) (t : Nat) : Hub :=
  let g := h.tag t
  if g.st ≠ .pending ∨ h.now < g.lastTx + h.txnTimeout ∨ h.acts = false then h
  else if g.kind ≠ .event ∧ g.tries < h.fld Reg.PTM_TXN_CFG F.PTM_TXN_CFG_RETRIES then
    ((h.setTag t { g with tries := g.tries + 1 }).count Reg.PTM_CNT_TXN_RETRY).sendTag t true
  else (h.count Reg.PTM_CNT_TXN_TIMEOUT).txnEnd t sETIMEOUT
def execTxnTimeout (t : Byte) (s : State) : Host.Outcome State Fault Refusal := s.on fun h => h.txnTimedOut t.toNat

/-- `TAG_QUARANTINE_END` (R63). -/
def Hub.quarantineEnd (h : Hub) (t : Nat) : Hub :=
  let g := h.tag t
  if g.st = .quarantine ∧ g.lastTx + h.txnTimeout ≤ h.now then h.setTag t { g with st := .free } else h
def execTagQuarantineEnd (t : Byte) (s : State) : Host.Outcome State Fault Refusal := s.on fun h => h.quarantineEnd t.toNat

/-! ## The window W2 (R71 to R73, R475) -/

/-- The record at index `i` of the page that W2 shows. -/
def Hub.w2rec (h : Hub) (page i : Nat) : Rec :=
  if page = 0 then h.slot i else if i < 16384 then h.mirE i else {}

/-- A read of `n` words from word address `a` of W2. -/
def Hub.w2words (h : Hub) (page a n : Nat) : List Word :=
  (List.range n).map fun j => (h.w2rec page ((a + j) / 4 % 65536)).words.getD ((a + j) % 4) 0

/-- What a read of `len` bytes at byte offset `off` of the window returns, in the whole words that hold them, and its effect on the latch
(R72): only reads of 4 bytes that are one word use it. -/
def Hub.w2Get (h : Hub) (off len : Nat) : List Word × Hub :=
  let page := h.fld Reg.PTM_CTL F.PTM_CTL_W2_PAGE
  let i := off / 16 % 65536
  let n := ceilDiv (off % 4 + len) 4
  let one := len = 4 ∧ off % 4 = 0
  if h.hostOpen = false then (List.replicate n 0, h)
  else if one ∧ off % 16 = 0 then
    let ws := (h.w2rec page i).words
    (ws.take 1, { h with pt := { h.pt with w2latch := some (page, i, ws.drop 1) } })
  else match h.pt.w2latch with
    | some (p, j, ws) =>
      if one ∧ p = page ∧ j = i then ((ws.drop (off % 16 / 4 - 1)).take 1, h)
      else (h.w2words page (off / 4) n, { h with pt := { h.pt with w2latch := none } })
    | none => (h.w2words page (off / 4) n, h)

/-- The bytes from the `k`-th on, `len` of them, that words hold. -/
def wordBytes (ws : List Word) (k len : Nat) : List Byte := ((ws.flatMap fun w => leBytes 4 w.toNat).drop k).take len

/-- `W2_READ` (R72): a read of `len` bytes at byte offset `off` of the window; whole words are returned as words. -/
def Hub.w2Read (h : Hub) (off len : Nat) : Hub :=
  let r := h.w2Get off len
  r.2.emit (if off % 4 = 0 ∧ len % 4 = 0 then .words r.1 else .bytes (wordBytes r.1 (off % 4) len))
def execW2Read (off : BitVec 20) (len : Nat) (s : State) : Host.Outcome State Fault Refusal := s.on fun h => h.w2Read off.toNat len

/-- `W2_WRITE` (R73): a write of `len` bytes at byte offset `off`, with its first word. -/
def Hub.w2Write (h : Hub) (off len : Nat) (w : Word) : Hub :=
  let ignored := fun (h : Hub) => (h.evt Reg.PTM_EVT F.PTM_EVT_W2_WR_IGNORED).deny
  let i := off / 16 % 65536
  let r := h.slot i
  if h.hostOpen = false then h
  else if h.flag Reg.PTM_CTL F.PTM_CTL_W2_WR_EN && !h.flag Reg.PTM_CTL F.PTM_CTL_W2_PAGE && decide (len = 4) &&
      decide (off % 16 = 0) && userSlot i && r.defined && r.wrHost then
    h.putSlot rkHost i (r.write w 0 false (h.stampNow r.tb))
  else ignored h
def execW2Write (off : BitVec 20) (len : Nat) (w : Word) (s : State) : Host.Outcome State Fault Refusal :=
  s.on fun h => h.w2Write off.toNat len w

end Sys2Proof.Machine
end

