-- ==== Sys2Proof/Machine/Items.lean ====
section
/-! DEFINITION. Queues of 32-bit items under the common rules (R231 to R236), and the way a front end feeds its queue in a twin
(R366, R369, R378). -/

namespace Sys2Proof.Machine

/-- Items pushed in this very cycle. -/
def QCommon.putNow (c : QCommon) (now : Nat) : Nat := if c.putAt = now then c.putN else 0
def QCommon.put (c : QCommon) (now : Nat) : QCommon := { c with putAt := now, putN := c.putNow now + 1 }

/-- Credit of an item queue of capacity `cap` (R232). -/
def ItemQ.credit (q : ItemQ) (now cap : Nat) : Nat := cap - (q.items.length + q.c.fresh now)

def ItemQ.push (q : ItemQ) (now : Nat) (x : Word) : ItemQ :=
  { q with items := q.items ++ [x], pushed := q.pushed + 1, c := q.c.put now }

/-- Items that a pop of this cycle can see (R234). -/
def ItemQ.ready (q : ItemQ) (now : Nat) : Nat := q.items.length - q.c.putNow now

/-- The queue after a pop. -/
def ItemQ.drop1 (q : ItemQ) (now : Nat) : ItemQ :=
  { q with items := q.items.drop 1, mark := q.mark - 1, c := q.c.pop now }

/-- The queue flushed: empty, its watermark state low (R235). -/
def ItemQ.flushed (q : ItemQ) : ItemQ := { q with items := [], mark := 0, c := { q.c with high := false } }

/-- The freeze mark put after the last item (R169). -/
def ItemQ.freeze (q : ItemQ) : ItemQ := { q with mark := q.items.length }

/-! ## Sources of a twin -/

/-- Journal kinds of the front ends (R367): lane, Fret, CAN, event FIFO. -/
def jLane : Nat := 2
def jFret : Nat := 3
def jCan : Nat := 4
def jEvent : Nat := 6

def srcKey (kind id : Nat) : Nat := kind * 256 + id

/-- An item or a snapshot of a standby differs from the active's (R373, R385). -/
def Hub.pinMismatch (h : Hub) : Hub :=
  { h with twin := { h.twin with since := Nat.lor h.twin.since (2 ^ 16) } }.count Reg.TWIN_CNT_PIN_MISMATCH

/-- A front end of a standby has produced item `n` of a source: it is compared with the journaled item of that count, if that came first. -/
def Hub.compareOwn (h : Hub) (key n : Nat) (ws : List Word) : Hub :=
  match h.twin.awaited.find? fun r => r.key == key && r.count == n with
  | some r =>
    let h := { h with twin := { h.twin with awaited := h.twin.awaited.erase r } }
    if r.words = ws then h else h.pinMismatch
  | none => h

/-- An item that a front end has produced: journaled by an active hub and pushed (R366), or kept in the rewind buffer (R378). -/
def Hub.feed (h : Hub) (kind id : Nat) (ws : List Word) (push : Hub → Hub) : Hub :=
  if h.twin.role = .solo then push h else
  let key := srcKey kind id
  let n := tget 0 h.twin.made key + 1
  let h := { h with twin := { h.twin with made := tset 0 h.twin.made key n } }
  if h.follows then
    let keep := h.twin.rewind.filter fun r => decide (h.now ≤ r.at_ + 32 * tuUs)
    let r : Rewind := { key := key, count := n, words := ws, at_ := h.now }
    let h := { h with twin := { h.twin with rewind := keep ++ [r] } }
    h.compareOwn key n ws
  else
    let h := { h with twin := { h.twin with jnled := tset 0 h.twin.jnled key n } }
    push (h.jnl kind ((if kind = jEvent then [] else [word id]) ++ word n :: ws))

/-- After a switch, a transmitter that was in mid-frame keeps its driver (R383). -/
def Hub.keeps (h : Hub) : Output → Bool
  | .line n _ => h.twin.keep.contains (srcKey jLane n)
  | .can n _ => h.twin.keep.contains (srcKey jCan n)
  | .pins k _ _ => (List.range 4).any fun i => h.twin.keep.contains (srcKey jFret (4 * k + i))
  | _ => false

/-- Something a driver puts out: a hub in `SHADOW` drives nothing (R78, R383). -/
def Hub.drive (h : Hub) (o : Output) : Hub := if h.acts || h.keeps o then h.emit o else h

end Sys2Proof.Machine
end

