-- ==== Sys2Proof/Machine/Lanes.lean ====
section
/-! DEFINITION. Lanes (chapter 03): pins, modes, reception with check values, transmission item by item, commands. -/

namespace Sys2Proof.Machine

def Hub.lane (h : Hub) (n : Nat) : Lane := tget ({} : Lane) h.ln.lane n
def Hub.setLane (h : Hub) (n : Nat) (x : Lane) : Hub := { h with ln := { h.ln with lane := tset ({} : Lane) h.ln.lane n x } }

/-- A configuration field of lane `n`. -/
def Hub.lnF (h : Hub) (reg : Nat → Nat) (n : Nat) (f : Nat × Nat) : Nat := h.fld (reg n) f
def Hub.lnMode (h : Hub) (n : Nat) : Nat := h.lnF Reg.LN_MODE n F.LN_MODE_MODE
def Hub.lnM (h : Hub) (n : Nat) (f : Nat × Nat) : Nat := h.lnF Reg.LN_MCFG n f
def Hub.lnM2 (h : Hub) (n : Nat) (f : Nat × Nat) : Nat := h.lnF Reg.LN_MCFG2 n f
def Hub.lnLoop (h : Hub) (n : Nat) : Bool := h.flag (Reg.LN_MODE n) F.LN_MODE_LOOP
def Hub.lnEvt (h : Hub) (n : Nat) (f : Nat × Nat) : Hub := h.evt (Reg.LN_EVT n) f
def Hub.lnEofIdle (h : Hub) (n : Nat) : Nat := h.lnF Reg.LN_EOFI n F.LN_EOFI_EOF_IDLE

/-- `UART` or `RS485`. -/
def isAsync (m : Nat) : Bool := m == 1 || m == 2
/-- The receiver oversamples (R95). -/
def isOversampled (m : Nat) : Bool := m == 1 || m == 2 || m == 8 || m == 9
/-- Check values apply in the mode (R97). -/
def hasCheck (m : Nat) : Bool := [1, 2, 3, 4, 7, 8, 9].contains m

def LaneSt.code : LaneSt → Nat
  | .stopped => 0 | .running => 1 | .stopping _ => 2

/-! ## Pins (R74 to R78, R94) -/

/-- Configuration bits of pin `i` of a lane, by position in its byte (R102): 0 `OWNER`, 6 `DIR`, 7 `EDGE_EV`. -/
def Hub.pinCfg (h : Hub) (n i b : Nat) : Bool := testBit (h.rd (Reg.LN_PINCFG n)).toNat (8 * i + b)

/-- Pins that the mode itself uses (R79). -/
def Hub.modePins (h : Hub) (n : Nat) : List Nat :=
  match h.lnMode n with
  | 1 => if h.lnF Reg.LN_MODE n F.LN_MODE_C_FUNC = 0 then [0, 1] else [0, 1, 2]
  | 2 | 3 | 4 | 7 => [0, 1, 2]
  | 5 | 6 | 8 | 9 | 10 => [0, 1]
  | 11 => [1]
  | 12 => [0]
  | _ => []

/-- The chip-select pin of an SPI lane, as a pin of the whole hub: bank k's pin p is 36k + p, which is 3n + i for pin i of lane n. -/
def Hub.csPin (h : Hub) (n : Nat) : List Nat :=
  if h.lnMode n = 3 ∨ h.lnMode n = 4 then [36 * (n / 12) + h.lnM n F.LN_MCFG_CS_PIN] else []

/-- Pins of the hub that a lane's mode needs. -/
def Hub.needPins (h : Hub) (n : Nat) : List Nat := (h.modePins n).map (3 * n + ·) ++ h.csPin n

def Hub.pinOwned (h : Hub) (g : Nat) : Bool := h.pinCfg (g / 3) (g % 3) 0

/-- Lanes that are not stopped. -/
def Hub.liveLanes (h : Hub) : List Nat := (h.ln.lane.filter fun x => decide (x.2.st ≠ .stopped)).map (·.1)

/-- Pin `i` of a lane is a discrete output: `DIR` 1, free in the mode (of a stopped lane: one that it keeps driving, R78), not the troupe's
and no other lane's chip select. -/
def Hub.discreteOut (h : Hub) (n i : Nat) : Bool :=
  !h.pinCfg n i 0 && h.pinCfg n i 6 &&
    (if (h.lane n).st = .stopped then testBit (h.lane n).kept i else !(h.modePins n).contains i) &&
    !h.liveLanes.any fun m => (h.csPin m).contains (3 * n + i)

/-- Bits of the discrete outputs of a running lane. -/
def Hub.outMask (h : Hub) (n : Nat) : Nat := (below 3 fun i => h.discreteOut n i).foldl (fun a i => a + 2 ^ i) 0

/-- Level of pin `g` of the hub where the filters have accepted the levels `pins`: what a discrete output drives, else the accepted one. -/
def Hub.levelOf (h : Hub) (pins : Table Bool) (g : Nat) : Bool :=
  if h.discreteOut (g / 3) (g % 3) then testBit (h.fld (Reg.LN_DOUT (g / 3)) F.LN_DOUT_LEVEL) (g % 3)
  else tget false pins g

/-- Filtered level of pin `g` of the hub. -/
def Hub.pinLevel (h : Hub) (g : Nat) : Bool := h.levelOf h.ln.pin g

def Hub.setPin (h : Hub) (g : Nat) (l : Bool) : Hub :=
  if tget false h.ln.pin g = l then h
  else { h with ln := { h.ln with pin := tset false h.ln.pin g l, pinAt := tset 0 h.ln.pinAt g h.now } }

/-- The snapshot words of bank `k` (R96): a level accepted in the `CLK_SYS` cycle of the freeze is not in them yet. -/
def Hub.bankLevels (h : Hub) (k : Nat) : Nat :=
  (List.range 36).foldl (fun a p => a + (if h.levelOf h.start.pin (36 * k + p) then 2 ^ p else 0)) 0

/-- The discrete snapshot of group `g`. -/
def Hub.snapshot (h : Hub) (g : Nat) : Hub :=
  h.each 8 fun h k =>
    let v := h.bankLevels k
    (h.wr (Reg.LANE_DSNAP_LO g k) (word v)).wr (Reg.LANE_DSNAP_HI g k) (word (v / 2 ^ 32))

/-! ## Bit times -/

/-- `16 DIV_INT + DIV_FRAC`. -/
def Hub.lnDiv (h : Hub) (n : Nat) : Nat := h.lnF Reg.LN_BAUD n F.LN_BAUD_DIV_INT * 16 + h.lnF Reg.LN_BAUD n F.LN_BAUD_DIV_FRAC
/-- `OVS`; 0 means 16, and `HDLC` takes 1 (R80, R102). -/
def Hub.lnOvs (h : Hub) (n : Nat) : Nat :=
  if h.lnMode n = 7 then 1 else
  let o := h.lnF Reg.LN_BAUD n F.LN_BAUD_OVS
  if o = 0 then 16 else o
/-- Bit time of the modes with a baud divider. -/
def Hub.bitTime (h : Hub) (n : Nat) : Nat := h.lnOvs n * h.lnDiv n * 25
/-- Bits of a character with start, parity and stop bits. -/
def Hub.charBits (h : Hub) (n : Nat) : Nat :=
  1 + h.lnM n F.LN_MCFG_DATA_BITS + (if h.lnM n F.LN_MCFG_PARITY = 0 then 0 else 1) + 1 + h.lnM n F.LN_MCFG_STOP2
/-- Time one character or byte takes on the line; I2C-bus and externally clocked bytes take what their clock takes. -/
def Hub.charTime (h : Hub) (n : Nat) : Nat :=
  match h.lnMode n with
  | 1 | 2 => h.charBits n * h.bitTime n
  | 3 => 8 * h.lnM n F.LN_MCFG_SCK_DIV * 400
  | 7 => if h.lnM n F.LN_MCFG_HDLC_CLK_OUT = 1 then 8 * h.bitTime n else 0
  | 8 | 9 => 8 * h.bitTime n
  | _ => 0

/-! ## Stamps (R95) -/

/-- Filter length of pin `g` of the hub, in `CLK_SYS` cycles (R94). -/
def Hub.filtOf (h : Hub) (g : Nat) : Nat := bitsN (h.rd (Reg.LN_FILT (g / 3))).toNat (8 * (g % 3)) 8

/-- The short time on lane `n`'s base of an instant that the front end detected `ago` `CLK_SYS` cycles before now, on pin `g` of the hub. -/
def Hub.lnStamp (h : Hub) (n g ago : Nat) : Nat :=
  let tb := h.lnF Reg.LN_MODE n F.LN_MODE_TS_TB
  let filt := h.filtOf g
  let half := if isOversampled (h.lnMode n) then h.lnDiv n * 20 else 0
  let path := if h.lnLoop n then 0 else (2 + filt) * 640
  let adj := if h.lnLoop n then 0 else toSigned 16 (h.lnF Reg.LN_TS n F.LN_TS_TS_ADJ)
  let t : Int := (h.nsAt tb (h.now - ago * 400) * 96 - ((path + half : Nat) : Int)) / 96 - adj
  ofSigned 40 t

def Hub.tsItems (h : Hub) (n t : Nat) : Word × Word :=
  (word (2 * 2 ^ 28 + h.lnF Reg.LN_MODE n F.LN_MODE_TS_TB * 2 ^ 12 + t / 2 ^ 28 % 2 ^ 12), word (3 * 2 ^ 28 + t % 2 ^ 28))

/-! ## The receive queue (R85, R90) -/

def laneCap : Nat := 64

/-- Push one item into the receive queue itself, or lose it (R90). `own` tells an item of the frame in progress from a `BREAK` or the items
of a discrete pin. -/
def Hub.rxqPush (h : Hub) (n : Nat) (own : Bool) (x : Word) : Hub :=
  let l := h.lane n
  if 0 < l.rxq.credit h.now laneCap then
    let h := h.setLane n { l with rxq := l.rxq.push h.now x }
    let h := if x.toNat / 2 ^ 28 = 0 then h.snoopBytes 3 n 0 [byte x.toNat] else h
    if x.toNat / 2 ^ 28 = 4 then ((h.lnEvt n F.LN_EVT_RX_FRAME).count (Reg.LN_CNT_RX_FRAMES n)).snoopFrameEnd 3 n 0
    else if x.toNat / 2 ^ 28 = 5 then h.lnEvt n F.LN_EVT_EDGE
    else h
  else
    let h := (h.count (Reg.LN_CNT_RX_OVERRUN n)).lnEvt n F.LN_EVT_RX_OVERRUN
    let l := h.lane n
    if x.toNat / 2 ^ 28 = 4 then h.setLane n { l with priorLoss := true }
    else if own then h.setLane n { l with rx := { l.rx with lost := true } }
    else h

/-- The front end has an item for its receive queue. -/
def Hub.rxPush (h : Hub) (n : Nat) (own : Bool) (x : Word) : Hub := h.feed jLane n [x] fun h => h.rxqPush n own x

def Hub.rxPushTs (h : Hub) (n : Nat) (own : Bool) (t : Nat) : Hub :=
  let i := h.tsItems n t
  (h.rxPush n own i.1).rxPush n own i.2

/-- Push the frame's `EOF` (R85, R90). -/
def Hub.rxEof (h : Hub) (n status count : Nat) : Hub :=
  let l := h.lane n
  let st := if l.rx.lost then 4 else status
  let x := word (4 * 2 ^ 28 + min count 65535 * 2 ^ 12 + bitB l.priorLoss * 8 + st)
  (h.setLane n { l with priorLoss := false }).rxPush n true x

/-! ## Check values (R97 to R99) -/

def Hub.lnPoly (h : Hub) (n : Nat) : Option Poly :=
  let e := h.lnF Reg.LN_CRC n F.LN_CRC_POLY
  if e = 1 then none else
  match h.polyOf e with
  | some p => if p.w % 8 = 0 then some p else none
  | none => none

def Hub.rxChecks (h : Hub) (n : Nat) : Bool := hasCheck (h.lnMode n) && h.flag (Reg.LN_CRC n) F.LN_CRC_RX_CHECK
def Hub.txAppends (h : Hub) (n : Nat) : Bool := hasCheck (h.lnMode n) && h.flag (Reg.LN_CRC n) F.LN_CRC_TX_APPEND

/-- A held frame's last bytes are its check value. -/
def heldOk (p : Poly) (bs : List Byte) : Bool :=
  let k := p.w / 8
  decide (k ≤ bs.length) && bs.drop (bs.length - k) == crcBytes p (crc p (bs.take (bs.length - k)))

/-! ## Reception (R80, R85, R86, R99 to R101) -/

/-- A frame begins at the given stamp. -/
def Hub.rxOpen (h : Hub) (n stamp : Nat) : Hub :=
  let h := h.setLane n { h.lane n with rx := { on := true, stamp := stamp } }
  if h.rxChecks n then h else h.rxPushTs n true stamp

/-- A `DATA` item of the frame in progress. -/
def Hub.rxData (h : Hub) (n : Nat) (x : Word) : Hub :=
  let h := if x.toNat / 2 ^ 9 % 8 = 0 then h else h.count (Reg.LN_CNT_RX_ERR n)
  let l := h.lane n
  if h.rxChecks n then
    if 256 ≤ l.rx.held.length then h.setLane n { l with rx := { l.rx with long := true } }
    else h.setLane n { l with rx := { l.rx with held := l.rx.held ++ [x] } }
  else (h.setLane n { l with rx := { l.rx with count := l.rx.count + 1 } }).rxPush n true x

/-- The frame in progress ends with a status; a held frame is judged (R99), and a wrong check value stands before another status (log
entry 29). -/
def Hub.rxClose (h : Hub) (n status : Nat) : Hub :=
  let l := h.lane n
  if l.rx.on = false then h else
  let h := h.snoopFrameEnd 1 n 0
  let h :=
    if h.rxChecks n then
      if l.rx.long then (h.rxPushTs n true l.rx.stamp).rxEof n 2 0
      else match h.lnPoly n with
        | none => (h.rxPushTs n true l.rx.stamp).rxEof n status 0
        | some p =>
          let bs := l.rx.held.map fun x => byte x.toNat
          let good := heldOk p bs
          let h := if good then h else (h.count (Reg.LN_CNT_CRC_BAD n)).lnEvt n F.LN_EVT_CRC_BAD
          let out :=
            if good then (if h.flag (Reg.LN_CRC n) F.LN_CRC_RX_STRIP then l.rx.held.take (bs.length - p.w / 8) else l.rx.held)
            else if h.flag (Reg.LN_CRC n) F.LN_CRC_FAIL_DELIVER then l.rx.held else []
          let st := if good then status else 1
          (out.foldl (fun h x => h.rxPush n true x) (h.rxPushTs n true l.rx.stamp)).rxEof n st out.length
    else h.rxEof n status l.rx.count
  h.setLane n { h.lane n with rx := {} }

/-- The receiver does not listen to a character that began at `start` (R100). -/
def Lane.deafAt (l : Lane) (start : Nat) : Bool :=
  l.deaf && decide (l.deAt ≤ start) && (l.de || decide (start < l.deafUntil))

/-- Bit order on the line: I2C-bus bytes go most significant bit first, whatever `MSB_FIRST` says (log entry 29). -/
def Hub.msbFirst (h : Hub) (n : Nat) : Bool :=
  h.lnMode n == 5 || h.lnMode n == 6 || h.lnM n F.LN_MCFG_MSB_FIRST == 1

/-- Data bits of a character or byte in the order of the line. -/
def Hub.orderBits (h : Hub) (n : Nat) (bs : List Bool) : List Bool := if h.msbFirst n then bs.reverse else bs

/-- The number that bits spell, the first one least significant. -/
def bitsNum : List Bool → Nat
  | [] => 0
  | b :: bs => bitB b + 2 * bitsNum bs

/-- Level of a bit by the majority of its three samples, and their disagreement (R80). -/
def majority (b : BitVec 3) : Bool := decide (2 ≤ popCount 3 b.toNat)
def noisy (b : BitVec 3) : Bool := b != 0 && b != 7

/-- Data bits of a character or byte. -/
def Hub.dataBits (h : Hub) (n : Nat) : Nat := if isAsync (h.lnMode n) then h.lnM n F.LN_MCFG_DATA_BITS else 8

/-- Modes in which characters or bytes arrive one by one; the others take what their own clocks read. -/
def hearsChars (m : Nat) : Bool := [1, 2, 4, 6, 7, 8, 9].contains m

/-- An odd number of the bits are 1. -/
def oddOnes (bs : List Bool) : Bool := bs.foldl (· != ·) false

/-- The `DATA` item of a character whose bits were sampled so, `INV_RX` and `MSB_FIRST` applied: start, data, parity and first stop bit in
`UART` and `RS485`, eight bits in the other modes; none for a false start, or where bits are missing (R80, R85, R102). -/
def Hub.charItem (h : Hub) (n : Nat) (bs : List (BitVec 3)) : Option Word :=
  let v := bs.map fun b => majority b != (h.lnM n F.LN_MCFG_INV_RX == 1)
  let k := h.dataBits n
  if isAsync (h.lnMode n) then
    let par := h.lnM n F.LN_MCFG_PARITY
    let p := if par = 0 then 0 else 1
    let d := (v.drop 1).take k
    if v.length < 2 + k + p ∨ v.getD 0 true = true then none
    else some (word (bitsNum (h.orderBits n d) + bitB (decide (p = 1) && (oddOnes (d ++ [v.getD (1 + k) false]) != (par == 2))) * 2 ^ 9 +
      bitB (!v.getD (1 + k + p) true) * 2 ^ 10 + bitB ((bs.take (2 + k + p)).any noisy) * 2 ^ 11))
  else if v.length < 8 then none
  else some (word (bitsNum (h.orderBits n (v.take 8)) + bitB (isOversampled (h.lnMode n) && (bs.take 8).any noisy) * 2 ^ 11))

/-- The address byte of an I2C-bus target is its own: not a general call, nor the first byte of a 10-bit address (R81). -/
def Hub.ownAddress (h : Hub) (n d : Nat) : Bool :=
  d / 2 == h.lnM2 n F.LN_MCFG2_OWN_ADDR && d / 2 != 0 && d / 8 != 0x1E

/-- A byte that an I2C-bus target has received: the first after a START is the address, and only an own address opens the frame; every
byte taken is acknowledged (R81, log entry 29). -/
def Hub.targetByte (h : Hub) (n : Nat) (x : Word) (stamp : Nat) : Hub :=
  let l := h.lane n
  if l.rx.mute then h
  else if l.rx.on || h.ownAddress n (x.toNat % 256) then
    let h := if l.rx.on then h else h.rxOpen n stamp
    let h := (h.snoopBytes 1 n 0 [byte x.toNat]).rxData n x
    if h.lnLoop n then h else h.drive (.line n .ack)
  else h.setLane n { l with rx := { l.rx with mute := true } }

/-- A character or byte whose last bit has ended. `ago` dates the frame's stamped instant where no edge has shown it. A start bit that came
while DE was asserted counts once its character has been received, since a false start counts nothing (R80, R101). -/
def Hub.rxChar (h : Hub) (n : Nat) (bs : List (BitVec 3)) (ago : Nat) : Hub :=
  let l := h.lane n
  let m := h.lnMode n
  let start := match l.seen with
    | some x => x.at_
    | none => h.now - h.charTime n
  let stamp := match l.seen with
    | some x => x.stamp
    | none => h.lnStamp n (3 * n + 1) ago
  let de := match l.seen with
    | some x => x.de
    | none => l.de && decide (l.deAt ≤ start)
  if l.st ≠ .running ∨ hearsChars m = false ∨ (m = 2 ∧ l.deafAt start = true) then h else
  let h := if isAsync m then h.setLane n { l with seen := none } else h
  match h.charItem n bs with
  | none => h
  | some x =>
    let whileTx := m == 2 && de && h.lnM n F.LN_MCFG_ECHO_SUPPRESS == 0 && !h.lnLoop n
    let h := if whileTx then (h.count (Reg.LN_CNT_RX_WHILE_TX n)).lnEvt n F.LN_EVT_RX_WHILE_TX else h
    let h := h.setLane n { h.lane n with lastChar := h.now }
    if m = 6 then h.targetByte n x stamp else
    let h := h.snoopBytes 1 n 0 [byte x.toNat]
    if isAsync m && h.lnEofIdle n == 0 then
      (if x.toNat / 2 ^ 9 = 0 then h else h.count (Reg.LN_CNT_RX_ERR n)).rxPush n true x
    else
      let h := if (h.lane n).rx.on then h else h.rxOpen n stamp
      h.rxData n x

/-- `LANE_RX_CHAR` (R80, R85): the bits of a character or byte as they were sampled, in order of time. With `LOOP` set the receiver hears only
the lane's own transmitter. -/
def Hub.laneRxChar (h : Hub) (n : Nat) (bs : List (BitVec 3)) (ago : Nat) : Hub :=
  if h.lnLoop n then
    match (h.lane n).loop with
    | x :: rest => (h.setLane n { h.lane n with loop := rest }).rxChar n (x.map fun b => if b then 7 else 0) ago
    | [] => h
  else h.rxChar n bs ago

/-- The samples of the start bit, the data bits, the parity bit and the stop bits, each list empty in a mode that has none of them. -/
def execLaneRxChar (n : Fin 96) (start data par stop : List (BitVec 3)) (ago : Nat) (s : State) : Host.Outcome State Fault Refusal :=
  s.on fun h => h.laneRxChar n (start ++ data ++ par ++ stop) ago

/-- `LANE_RX_BREAK` (R85): a break ends the frame; its `EOF` is pushed first. -/
def Hub.laneRxBreak (h : Hub) (n : Nat) : Hub :=
  let l := h.lane n
  let start := match l.seen with
    | some x => x.at_
    | none => h.now - h.charTime n
  if l.st = .running ∧ isAsync (h.lnMode n) = true ∧ h.lnLoop n = false ∧ (h.lnMode n = 2 ∧ l.deafAt start = true) = false then
    ((h.setLane n { l with seen := none }).rxClose n 0).rxPush n false 0x10000000
  else h

def execLaneRxBreak (n : Fin 96) (s : State) : Host.Outcome State Fault Refusal := s.on fun h => h.laneRxBreak n

/-- `LANE_EOF_IDLE_EXPIRY` (R85): `EOF_IDLE` of idle line after a stop bit. -/
def Hub.laneEofIdle (h : Hub) (n : Nat) : Hub :=
  let l := h.lane n
  if l.st = .running ∧ isAsync (h.lnMode n) = true ∧ l.rx.on = true ∧ h.lnEofIdle n ≠ 0 ∧
      l.lastChar + h.lnEofIdle n * 100 * tuNs ≤ h.now then h.rxClose n 0 else h

def execLaneEofIdleExpiry (n : Fin 96) (s : State) : Host.Outcome State Fault Refusal := s.on fun h => h.laneEofIdle n

/-- Gray code to binary. -/
def fromGray (x : Nat) : Nat → Nat
  | 0 => x
  | k + 1 => Nat.xor (fromGray x k) (x / 2 ^ (k + 1))

/-- The bytes of an SSI word, most significant first (R88). -/
def Hub.ssiBytes (h : Hub) (n : Nat) (w : Nat) : List Byte :=
  let k := h.lnM2 n F.LN_MCFG2_SSI_BITS
  let v := w % 2 ^ k
  beBytes (ceilDiv k 8) (if h.lnM n F.LN_MCFG_GRAY = 1 then fromGray v 31 % 2 ^ k else v)

/-- Positions of the markers in an IRIG-B frame: the reference marker and every tenth pulse from the tenth on (log entry 47). -/
def irigMark (i : Nat) : Bool := i == 0 || i % 10 == 9

/-- The 13 bytes of an IRIG-B frame of 100 pulses, its first bit in bit 7 of the first (R85); a marker counts as 0. -/
def irigBytes (ps : List (BitVec 2)) : List Byte :=
  (List.range 13).map fun i => byte (bitsNum (((List.range 8).map fun j => ps.getD (8 * i + j) 0 == 1).reverse))

/-- The frame is whole and its markers stand in their places. -/
def irigOk (ps : List (BitVec 2)) : Bool :=
  decide (ps.length = 100) && (List.range 100).all fun i => (ps.getD i 0 == 2) == irigMark i

/-- `LANE_RX_FRAME_END` (R85): the mode's own frame end, with the status the front end found. `ago` dates the frame's start where no byte or
edge has opened it. In `SSI` the word read arrives whole, in `IRIG_IN` the 100 pulses: 0, 1, or 2 for a marker. -/
def Hub.laneFrameEnd (h : Hub) (n status : Nat) (w : Word) (ps : List (BitVec 2)) (ago : Nat) : Hub :=
  let l := h.lane n
  let m := h.lnMode n
  if l.st ≠ .running ∨ isAsync m = true ∨ m = 0 ∨ m = 3 ∨ m = 12 ∨ (l.rx.on = false ∧ (m = 5 ∨ m = 6 ∨ m = 10)) then
    if m = 6 then h.setLane n { l with rx := { l.rx with mute := false } } else h
  else
    let h := if l.rx.on then h else h.rxOpen n (h.lnStamp n (if m = 4 then (h.csPin n).headD 0 else 3 * n + 1) ago)
    let h := if m = 4 ∨ m = 6 then h.snoopFrameEnd 2 n 1 else h
    if m = 10 then
      let h := (h.ssiBytes n w.toNat).foldl (fun h b => (h.snoopBytes 1 n 0 [b]).rxData n (word b.toNat)) h
      let h := h.setLane n { h.lane n with ssi := false }
      h.rxClose n status
    else if m = 11 then
      let h := (irigBytes ps).foldl (fun h b => (h.snoopBytes 1 n 0 [b]).rxData n (word b.toNat)) h
      h.rxClose n (if irigOk ps then 0 else 3)
    else h.rxClose n status

def execLaneRxFrameEnd (n : Fin 96) (status : Fin 8) (x : LineEnd) (s : State) : Host.Outcome State Fault Refusal :=
  s.on fun h => h.laneFrameEnd n status x.word x.pulses x.ago

/-! ## Levels of the pins (R94 to R96, R101) -/

/-- A start bit has begun on pin B. In the cycle in which DE was asserted it takes precedence: DE is taken back (R101). -/
def Hub.startBit (h : Hub) (n : Nat) : Hub :=
  let l := h.lane n
  let l := if l.de && l.lead && l.deAt / 400 == h.now / 400 then
      { l with de := false, lead := false, deaf := decide (h.now < l.deafUntil) } else l
  if l.seen.isSome ∨ (h.lnMode n = 2 ∧ l.deafAt h.now = true) then h
  else h.setLane n { l with seen := some ⟨h.now, h.lnStamp n (3 * n + 1) 0, l.de⟩ }

/-- What an accepted level of pin `g` is to the receiver of lane `n`: a start bit, an I2C-bus START, the first transition of a frame, the
assertion of its chip select (R85). -/
def Hub.lineEdge (h : Hub) (n g : Nat) (level : Bool) : Hub :=
  let l := h.lane n
  let m := h.lnMode n
  let data := g == 3 * n + 1
  if l.st ≠ .running ∨ h.lnLoop n = true then h
  else if isAsync m ∧ data = true then (if level == (h.lnM n F.LN_MCFG_INV_RX == 1) then h.startBit n else h)
  else if (m = 8 ∨ m = 9) ∧ data = true then (if l.rx.on then h else h.rxOpen n (h.lnStamp n g 0))
  else if m = 6 ∧ data = true then
    (if level = false ∧ h.pinLevel (3 * n) = true then
      h.setLane n { l with rx := { l.rx with mute := false }, seen := some ⟨h.now, h.lnStamp n g 0, false⟩ } else h)
  else if m = 4 ∧ (h.csPin n).contains g = true ∧ level = (h.lnM n F.LN_MCFG_CS_HIGH == 1) ∧ l.rx.on = false then
    h.rxOpen n (h.lnStamp n g 0)
  else h

/-- `LANE_PIN_EDGE` (R94, R96): pin `i` of lane `n` has had a new level for `held` `CLK_SYS` cycles. The filter accepts it once that is its
length; a pin of the troupe bypasses it (R77). A discrete pin of a running lane with `EDGE_EV` reports the change (log entry 29). -/
def Hub.lanePinEdge (h : Hub) (n i : Nat) (level : Bool) (held : Nat) : Hub :=
  let g := 3 * n + i
  if tget false h.ln.pin g = level ∨ (held < h.filtOf g ∧ h.pinOwned g = false) then h
  else
    let h := h.setPin g level
    if h.pinOwned g then h else
    let h := (n :: (h.liveLanes.filter fun m => (h.csPin m).contains g)).foldl (fun h m => h.lineEdge m g level) h
    let free := !(h.modePins n).contains i && !h.liveLanes.any fun m => (h.csPin m).contains g
    if (h.lane n).st = .running ∧ free = true ∧ h.pinCfg n i 7 = true then
      (h.rxPush n false (word (5 * 2 ^ 28 + bitB level * 4 + i))).rxPushTs n false (h.lnStamp n g 0)
    else h

/-- A hub held in reset takes the level up without an accepted change: its filters start settled on it (R94). -/
def Hub.pinEdge (h : Hub) (n i : Nat) (level : Bool) (held : Nat) : Hub :=
  if h.held then h.setPin (3 * n + i) level else h.lanePinEdge n i level held

def execLanePinEdge (n : Fin 96) (i : Fin 3) (x : PinChange) (s : State) : Host.Outcome State Fault Refusal :=
  s.onAny fun h => h.pinEdge n i x.level x.held

/-! ## Transmission (R87, R91, R93, R98, R100, R101) -/

/-- The kinds valid in a mode (R87). -/
def validTx (m kind : Nat) : Bool :=
  let data := decide (1 ≤ m) && decide (m ≤ 10)
  match kind with
  | 0 | 4 => data
  | 1 => isAsync m
  | 6 | 8 | 0xF => true
  | 9 | 0xA => m == 5
  | 0xB => m == 10
  | _ => false

/-- The transmitter of a lane may take an item: it runs, or finishes a frame under a mode-1 stop, and nothing is being sent. -/
def Hub.txFree (h : Hub) (n : Nat) : Bool :=
  let l := h.lane n
  (l.st == .running || (l.st == .stopping true && !l.stopEof)) && decide (l.busyUntil ≤ h.now) && decide (l.gapUntil ≤ h.now)

/-- Remove the head of the transmit queue. -/
def Hub.txPop (h : Hub) (n : Nat) : Hub := h.setLane n { h.lane n with txq := (h.lane n).txq.drop1 h.now }

/-- Items without action at the head are passed over (kind `IDLE`). -/
def Hub.txSkip : Nat → Nat → Hub → Hub
  | 0, _, h => h
  | k + 1, n, h =>
    match (h.lane n).txq.items with
    | x :: _ => if x.toNat / 2 ^ 28 = 0xF ∧ 0 < (h.lane n).txq.ready h.now then Hub.txSkip k n (h.txPop n) else h
    | [] => h

/-- Act on the head of the transmit queue if it is of kind `kind`; an item not valid in the mode is discarded and counted. -/
def Hub.txHead (h : Hub) (n kind : Nat) (act : Hub → Nat → Hub) : Hub :=
  if h.txFree n = false then h else
  let h := Hub.txSkip (h.lane n).txq.items.length n h
  if (h.lane n).txq.ready h.now = 0 then h else
  match (h.lane n).txq.items with
  | [] => h
  | x :: _ =>
    let k := x.toNat / 2 ^ 28
    if validTx (h.lnMode n) k = false then ((h.txPop n).count (Reg.LN_CNT_TX_BADITEM n)).lnEvt n F.LN_EVT_BADITEM
    else if k = kind then act h x.toNat else h

/-- Something a lane puts on its line; with `LOOP` set its pins stay inputs (R102). -/
def Hub.lineOut (h : Hub) (n : Nat) (o : LineOut) : Hub := if h.lnLoop n then h else h.drive (.line n o)

/-- Bits of a character or byte in order of time, before `INV_TX`: start, data, parity and stop bits in `UART` and `RS485`. -/
def Hub.charLine (h : Hub) (n x : Nat) : List Bool :=
  let d := h.orderBits n ((List.range (h.dataBits n)).map (testBit x))
  if isAsync (h.lnMode n) then
    let par := h.lnM n F.LN_MCFG_PARITY
    false :: d ++ (if par = 0 then [] else [oddOnes d != (par == 2)]) ++ true :: List.replicate (h.lnM n F.LN_MCFG_STOP2) true
  else d

/-- A zero is stuffed after five ones in a row; with the number of ones at the end. -/
def stuffBits : Nat → List Bool → List Bool × Nat
  | ones, [] => ([], ones)
  | ones, b :: bs =>
    if b && ones == 4 then
      let r := stuffBits 0 bs
      (true :: false :: r.1, r.2)
    else
      let r := stuffBits (if b then ones + 1 else 0) bs
      (b :: r.1, r.2)

def hdlcFlag : List Bool := [false, true, true, true, true, true, true, false]

/-- Bits of characters as they go on the line, with the number of ones at the end: in `HDLC` with stuffed zeros, behind the opening flag of a
new frame. -/
def Hub.framedBits (h : Hub) (n : Nat) (opens : Bool) (ws : List Nat) : List Bool × Nat :=
  let raw := ws.flatMap (h.charLine n)
  if h.lnMode n = 7 then
    let s := stuffBits (if opens then 0 else (h.lane n).tx.ones) raw
    ((if opens then hdlcFlag else []) ++ s.1, s.2)
  else (raw, 0)

/-- Bits as the data output shows them, `INV_TX` applied, with the clock of an SPI lane. -/
def Hub.lineBits (h : Hub) (n : Nat) (bs : List Bool) : LineOut :=
  let v := bs.map fun b => b != (h.lnM n F.LN_MCFG_INV_TX == 1)
  if h.lnMode n = 3 ∨ h.lnMode n = 4 then .clocked (h.lnM n F.LN_MCFG_CPOL == 1) (h.lnM n F.LN_MCFG_CPHA == 1) v else .bits v

/-- Put characters on the line: fed to the transmit snoop, and to the receiver under `LOOP`. `opens` tells the first of a frame. -/
def Hub.sendChars (h : Hub) (n : Nat) (opens : Bool) (ws : List Nat) : Hub :=
  let h := h.snoopBytes 2 n 1 (ws.map byte)
  let l := h.lane n
  let r := h.framedBits n opens ws
  let h := h.setLane n { l with busyUntil := h.now + ws.length * h.charTime n, tx := { l.tx with ones := r.2 },
                                loop := if h.lnLoop n then l.loop ++ ws.map (fun x => (h.charLine n x).map (· != (h.lnM n F.LN_MCFG_INV_TX == 1))) else l.loop }
  h.lineOut n (h.lineBits n r.1)

/-- Assert DE (R100): the receiver ignores the line from now on with `ECHO_SUPPRESS`. -/
def Hub.assertDe (h : Hub) (n : Nat) : Hub :=
  let l := h.lane n
  h.setLane n { l with de := true, deAt := h.now, lead := true, deOff := none, deaf := l.deaf || h.lnM n F.LN_MCFG_ECHO_SUPPRESS == 1 }

/-- The byte that an SPI controller clocks in, of which `inp` gives the levels, the first in bit 0 (R88, R102). -/
def Hub.spiByte (h : Hub) (n : Nat) (inp : Byte) : Byte :=
  byte (bitsNum (h.orderBits n ((List.range 8).map fun i => testBit inp.toNat i != (h.lnM n F.LN_MCFG_INV_RX == 1))))

/-- Send one `DATA` item: `inp` is the byte that an SPI controller clocks in. -/
def Hub.sendData (h : Hub) (n x : Nat) (inp : Byte) : Hub :=
  let h := h.txPop n
  let l := h.lane n
  let first := !l.tx.on
  let h := h.setLane n { l with tx := { l.tx with on := true, bytes := l.tx.bytes ++ [byte x], underrun := none } }
  let h := if h.lnMode n = 3 ∧ first = true then h.rxOpen n (h.lnStamp n (3 * n + 2) 0) else h
  let h := h.sendChars n first [x % 512]
  if h.lnMode n = 3 ∧ (h.lane n).st = .running then
    let b := if h.lnLoop n then byte x else h.spiByte n inp
    let h := h.setLane n { h.lane n with loop := [] }
    (h.snoopBytes 1 n 0 [b]).rxData n (word b.toNat)
  else h

/-- The transmitter may not start a character: pin C as CTS is high (R93). -/
def Hub.ctsHigh (h : Hub) (n : Nat) : Bool :=
  h.lnMode n == 1 && h.lnF Reg.LN_MODE n F.LN_MODE_C_FUNC == 2 && h.pinLevel (3 * n + 2)

/-- A frame, or a character, is being received (R101, R102). -/
def Lane.hears (l : Lane) : Bool := l.rx.on || l.seen.isSome

/-- `LANE_TX_DATA` (R87, R93, R100, R101). On RS-485 a new frame first waits for what is being received, and for DE that is about to be
released, and asserts DE (log entry 29). -/
def Hub.laneTxData (h : Hub) (n : Nat) (inp : Byte) : Hub :=
  h.txHead n 0 fun h x =>
    let l := h.lane n
    let m := h.lnMode n
    if h.ctsHigh n then h
    else if m = 2 ∧ l.tx.on = false then
      if l.deOff.isSome ∨ l.hears = true then h
      else if l.de = false then h.assertDe n
      else if l.lead then h
      else h.sendData n x inp
    else h.sendData n x inp

def execLaneTxData (n : Fin 96) (inp : Byte) (s : State) : Host.Outcome State Fault Refusal := s.on fun h => h.laneTxData n inp

/-- `LANE_DE_LEAD_END` (R100): `DE_LEAD` after DE was asserted the first start bit is sent. -/
def Hub.laneDeLead (h : Hub) (n : Nat) : Hub :=
  let l := h.lane n
  if l.de ∧ l.lead = true ∧ l.deAt + h.lnF Reg.LN_TIMERS n F.LN_TIMERS_DE_LEAD * 400 ≤ h.now then
    (h.setLane n { l with lead := false }).laneTxData n 0
  else h

def execLaneDeLeadEnd (n : Fin 96) (s : State) : Host.Outcome State Fault Refusal := s.on fun h => h.laneDeLead n

/-- DE will be released `DE_TAIL` after the last stop bit (R100). -/
def Hub.releaseDe (h : Hub) (n : Nat) : Hub :=
  let l := h.lane n
  if l.de then h.setLane n { l with deOff := some (max h.now l.busyUntil + h.lnF Reg.LN_TIMERS n F.LN_TIMERS_DE_TAIL * 400), lead := false }
  else h

/-- `LANE_DE_RELEASE` (R100). -/
def Hub.laneDeRelease (h : Hub) (n : Nat) : Hub :=
  let l := h.lane n
  match l.deOff with
  | some t =>
    if t ≤ h.now then
      h.setLane n { l with de := false, deOff := none, deafUntil := h.now + h.lnF Reg.LN_RXHOLD n F.LN_RXHOLD_RX_HOLDOFF * 400 }
    else h
  | none => h

def execLaneDeRelease (n : Fin 96) (s : State) : Host.Outcome State Fault Refusal := s.on fun h => h.laneDeRelease n

/-- `LANE_RX_HOLDOFF_END` (R100). -/
def Hub.laneHoldoffEnd (h : Hub) (n : Nat) : Hub :=
  let l := h.lane n
  if l.deaf ∧ l.de = false ∧ l.deafUntil ≤ h.now then h.setLane n { l with deaf := false } else h

def execLaneRxHoldoffEnd (n : Fin 96) (s : State) : Host.Outcome State Fault Refusal := s.on fun h => h.laneHoldoffEnd n

/-- The frame being sent is closed: counted, its bus or driver released once its last character has ended. -/
def Hub.txClose (h : Hub) (n : Nat) : Hub :=
  let h := (h.count (Reg.LN_CNT_TX_FRAMES n)).snoopFrameEnd 2 n 1
  let h := h.setLane n { h.lane n with tx := {}, sentUntil := (h.lane n).busyUntil }
  h.releaseDe n

/-- What ends a sent frame in its mode: the closing flag of `HDLC`, the STOP of an I2C-bus controller; `SPI_CTRL` and `I2C_CTRL` end the
frame received with it (R85, R87). -/
def Hub.endFrame (h : Hub) (n : Nat) : Hub :=
  let m := h.lnMode n
  let h := if m = 7 then h.lineOut n (h.lineBits n hdlcFlag) else if m = 5 then h.lineOut n .stop else h
  let h := h.txClose n
  if m = 3 ∨ m = 5 then h.rxClose n 0 else h

/-- The check value that the frame being sent takes (R98). -/
def Hub.txCheck (h : Hub) (n : Nat) : List Byte :=
  match h.lnPoly n with
  | some p => if h.txAppends n then crcBytes p (crc p (h.lane n).tx.bytes) else []
  | none => []

/-- Take the `EOF` item that is the head. -/
def Hub.eofPop (h : Hub) (n : Nat) : Hub :=
  let h := h.txPop n
  if (h.lane n).st = .stopping true then h.setLane n { h.lane n with stopEof := true } else h

/-- `LANE_TX_EOF` (R87, R98): appends the check value, ends the frame, releases DE, CS or the bus. Under CTS the item stays at the head while
the characters of the check value start one by one, each only while pin C is low (R93). A controller of SPI takes in nothing meanwhile
(log entry 29). -/
def Hub.laneTxEof (h : Hub) (n : Nat) : Hub :=
  h.txHead n 4 fun h _ =>
    let l := h.lane n
    if l.tx.on = false then h.eofPop n
    else if h.lnMode n = 1 ∧ h.lnF Reg.LN_MODE n F.LN_MODE_C_FUNC = 2 then
      match l.tx.tail.getD (h.txCheck n) with
      | [] => (h.eofPop n).endFrame n
      | b :: bs =>
        if h.ctsHigh n then h
        else
          let h := (h.setLane n { l with tx := { l.tx with tail := some bs } }).sendChars n false [b.toNat]
          if bs = [] then (h.eofPop n).endFrame n else h
    else
      let h := h.eofPop n
      let c := h.txCheck n
      (if c = [] then h else h.sendChars n false (c.map fun (b : Byte) => b.toNat)).endFrame n

def execLaneTxEof (n : Fin 96) (s : State) : Host.Outcome State Fault Refusal := s.on fun h => h.laneTxEof n

/-- `LANE_CTS_CHANGE` (R93): pin C as CTS has changed; going low lets a waiting character start. -/
def Hub.laneCts (h : Hub) (n : Nat) (level : Bool) : Hub :=
  let h := h.lanePinEdge n 2 level (h.filtOf (3 * n + 2))
  if level then h else if (h.lane n).tx.tail.isSome then h.laneTxEof n else h.laneTxData n 0

def execLaneCtsChange (n : Fin 96) (level : Bool) (s : State) : Host.Outcome State Fault Refusal := s.on fun h => h.laneCts n level

/-- `LANE_TX_BRK` (R87): it belongs to no frame and leaves DE as it is; on RS-485 it waits for what is being received (R101). A sent break
ends a frame on the line for the snoop units (R219, log entry 29). -/
def Hub.laneTxBrk (h : Hub) (n : Nat) : Hub :=
  h.txHead n 1 fun h x =>
    if h.ctsHigh n ∨ (h.lnMode n = 2 ∧ (h.lane n).de = false ∧ (h.lane n).hears = true) then h else
    let h := (h.txPop n).snoopFrameEnd 2 n 1
    let h := h.setLane n { h.lane n with busyUntil := h.now + x % 2 ^ 16 * h.bitTime n }
    h.lineOut n (.brk (x % 2 ^ 16))

def execLaneTxBrk (n : Fin 96) (s : State) : Host.Outcome State Fault Refusal := s.on fun h => h.laneTxBrk n

/-- `LANE_TX_GAP` (R87). -/
def Hub.laneTxGap (h : Hub) (n : Nat) : Hub :=
  h.txHead n 6 fun h x =>
    let h := h.txPop n
    h.setLane n { h.lane n with gapUntil := h.now + x % 2 ^ 20 * 100 * tuNs }

def execLaneTxGap (n : Fin 96) (s : State) : Host.Outcome State Fault Refusal := s.on fun h => h.laneTxGap n

/-- Set levels of the discrete outputs named in a mask. -/
def Hub.setDout (h : Hub) (n mask levels : Nat) : Hub :=
  let m := Nat.land (mask % 8) (h.outMask n)
  let old := h.fld (Reg.LN_DOUT n) F.LN_DOUT_LEVEL
  let new := Nat.lor (Nat.land old (7 - m)) (Nat.land (levels % 8) m)
  (h.setFld (Reg.LN_DOUT n) F.LN_DOUT_LEVEL new).drive (.line n (.dout m (Nat.land new m)))

/-- `LANE_TX_DOUT` (R87). -/
def Hub.laneTxDout (h : Hub) (n : Nat) : Hub :=
  h.txHead n 8 fun h x => (h.txPop n).setDout n (x % 8) (x / 16 % 8)

def execLaneTxDout (n : Fin 96) (s : State) : Host.Outcome State Fault Refusal := s.on fun h => h.laneTxDout n

/-- The master code that a controller sends before the first START of a frame in high-speed mode (R80). -/
def Hub.hsCode (h : Hub) (n : Nat) : Hub :=
  if h.lnM2 n F.LN_MCFG2_I2C_SPEED = 3 ∧ (h.lane n).tx.on = false then h.lineOut n (.start (byte (8 + h.lnM2 n F.LN_MCFG2_HS_CODE))) else h

/-- A controller in high-speed mode drives SCL high actively for the high phase; SCL and SDA are open drain otherwise (R81). -/
def Hub.sclDriven (h : Hub) (n : Nat) : Bool := h.lnMode n == 5 && h.lnM2 n F.LN_MCFG2_I2C_SPEED == 3

/-- `LANE_TX_I2C_START` (R87): START, or repeated START, which ends the frame before it (R85), on the line too (R219). -/
def Hub.laneTxI2cStart (h : Hub) (n : Nat) : Hub :=
  h.txHead n 9 fun h x =>
    let h := (h.txPop n).hsCode n
    let h := if (h.lane n).tx.on then h.snoopFrameEnd 2 n 1 else h
    let h := if (h.lane n).rx.on then h.rxClose n 0 else h
    let h := h.setLane n { h.lane n with tx := { on := true } }
    let h := if (h.lane n).st = .running then h.rxOpen n (h.lnStamp n (3 * n + 1) 0) else h
    h.lineOut n (.start (byte x))

def execLaneTxI2cStart (n : Fin 96) (s : State) : Host.Outcome State Fault Refusal := s.on fun h => h.laneTxI2cStart n

/-- `LANE_TX_I2C_READ` (R87): the bytes read are given; the last one is not acknowledged. -/
def Hub.laneTxI2cRead (h : Hub) (n : Nat) (bs : List Byte) : Hub :=
  h.txHead n 0xA fun h x =>
    let h := h.txPop n
    let k := x % 256
    let h := h.setLane n { h.lane n with tx := { (h.lane n).tx with on := true } }
    let h := h.lineOut n (.read k)
    if (h.lane n).rx.on then (bs.take k).foldl (fun h b => (h.snoopBytes 1 n 0 [b]).rxData n (word b.toNat)) h else h

def execLaneTxI2cRead (n : Fin 96) (bs : List Byte) (s : State) : Host.Outcome State Fault Refusal := s.on fun h => h.laneTxI2cRead n bs

/-- An SSI read starts: its first clock edge is the frame's stamped instant (R85). -/
def Hub.ssiStart (h : Hub) (n : Nat) : Hub :=
  let h := h.setLane n { h.lane n with ssi := true }
  (h.rxOpen n (h.lnStamp n (3 * n + 1) 0)).lineOut n (.clocks (h.lnM2 n F.LN_MCFG2_SSI_BITS))

/-- `LANE_TX_SSI_READ` (R88). -/
def Hub.laneTxSsiRead (h : Hub) (n : Nat) : Hub :=
  h.txHead n 0xB fun h _ => if (h.lane n).ssi then h else (h.txPop n).ssiStart n

def execLaneTxSsiRead (n : Fin 96) (s : State) : Host.Outcome State Fault Refusal := s.on fun h => h.laneTxSsiRead n

/-- `SSI_AUTO_READ` (R88): 1 µs after the freeze of its group's edge an `SSI_AUTO` lane reads, once for each edge. `edge` is the time of that
freeze. -/
def Hub.ssiAuto (h : Hub) (n : Nat) (edge : Nat → Option Nat) : Hub :=
  let l := h.lane n
  if l.st = .running ∧ h.lnMode n = 10 ∧ h.lnM n F.LN_MCFG_SSI_AUTO = 1 ∧ l.ssi = false then
    match edge (h.lnM2 n F.LN_MCFG2_SSI_GROUP) with
    | some t =>
      if t + tuUs ≤ h.now ∧ l.ssiEdge ≠ t + 1 then (h.setLane n { l with ssiEdge := t + 1 }).ssiStart n else h
    | none => h
  else h

/-- `LANE_TX_UNDERRUN` (R91): a pop inside a frame, after a `DATA` item, returned the idle item; it counts once for each frame. -/
def Hub.laneUnderrun (h : Hub) (n : Nat) : Hub :=
  let l := h.lane n
  let m := h.lnMode n
  if h.txFree n = false ∨ l.tx.on = false ∨ l.tx.bytes = [] ∨ l.txq.ready h.now ≠ 0 then h
  else
    let h := if l.tx.counted then h else (h.count (Reg.LN_CNT_TX_UNDERRUN n)).lnEvt n F.LN_EVT_TX_UNDERRUN
    let h := h.setLane n { l with tx := { l.tx with underrun := some (l.tx.underrun.getD h.now), counted := true } }
    if isAsync m then (if h.lnEofIdle n = 0 then h.txClose n else h)
    else if m = 4 then h.sendChars n false [(h.rd (Reg.LN_TXQ_IDLE n)).toNat % 256]
    else if m = 7 then (h.lineOut n (h.lineBits n (List.replicate 7 true))).txClose n
    else if m = 8 ∨ m = 9 then h.txClose n
    else h

def execLaneTxUnderrun (n : Fin 96) (s : State) : Host.Outcome State Fault Refusal := s.on fun h => h.laneUnderrun n

/-- `LANE_TX_UNDERRUN_CLOSE` (R91): `EOF_IDLE` after an underrun without a new item the frame is closed without a check value. -/
def Hub.laneUnderrunClose (h : Hub) (n : Nat) : Hub :=
  let l := h.lane n
  match l.tx.underrun with
  | some t =>
    if l.tx.on ∧ isAsync (h.lnMode n) = true ∧ l.txq.items = [] ∧ t + h.lnEofIdle n * 100 * tuNs ≤ h.now then h.txClose n else h
  | none => h

def execLaneTxUnderrunClose (n : Fin 96) (s : State) : Host.Outcome State Fault Refusal := s.on fun h => h.laneUnderrunClose n

/-- `I2C_STRETCH_TIMEOUT` (R81, R91): SCL has been held low for `STRETCH_MS`; the controller releases the bus and the frame ends with
`TIMEOUT`. -/
def Hub.i2cStretch (h : Hub) (n : Nat) : Hub :=
  let l := h.lane n
  let lim := h.lnM2 n F.LN_MCFG2_STRETCH_MS
  let due := match l.tx.underrun with
    | some t => decide (t + lim * tuMs ≤ h.now)
    | none => true
  if l.st ≠ .stopped ∧ h.lnMode n = 5 ∧ l.tx.on = true ∧ lim ≠ 0 ∧ due = true then
    ((h.lineOut n .stop).txClose n).rxClose n 7
  else h

def execI2cStretchTimeout (n : Fin 96) (s : State) : Host.Outcome State Fault Refusal := s.on fun h => h.i2cStretch n

/-- Days, counted from 1970-01-01, of the first day of a year (Gregorian calendar). -/
def yearStart (y : Nat) : Nat := (y - 1970) * 365 + ((y - 1) / 4 - (y - 1) / 100 + (y - 1) / 400) - (1969 / 4 - 1969 / 100 + 1969 / 400)

/-- The year in which day `d` from 1970-01-01 lies. -/
def yearOf (d : Nat) : Nat :=
  let y := 1970 + d / 366
  if d < yearStart (y + 1) then y else if d < yearStart (y + 2) then y + 1 else y + 2 + (d - yearStart (y + 2)) / 366

/-- The pulses of the IRIG-B frame of a second since 1970-01-01: seconds, minutes, hours, day of the year and year in BCD, no control
functions, and the straight binary second of the day, every field least significant bit first (log entry 47). -/
def irigPulses (sec : Nat) : List Nat :=
  let d := sec / 86400
  let y := yearOf d
  let day := d - yearStart y + 1
  let t := sec % 86400
  let fields := [(1, 4, t % 60 % 10), (6, 3, t % 60 / 10), (10, 4, t / 60 % 60 % 10), (15, 3, t / 60 % 60 / 10), (20, 4, t / 3600 % 10),
    (25, 2, t / 3600 / 10), (30, 4, day % 10), (35, 4, day / 10 % 10), (40, 2, day / 100), (50, 4, y % 10), (55, 4, y / 10 % 10),
    (80, 9, t % 512), (90, 8, t / 512)]
  (List.range 100).map fun i =>
    if irigMark i then 2
    else match fields.find? fun f => decide (f.1 ≤ i ∧ i < f.1 + f.2.1) with
      | some f => f.2.2 / 2 ^ (i - f.1) % 2
      | none => 0

/-- `LANE_IRIG_OUT_FRAME` (R82): at each whole second of its base an `IRIG_OUT` lane sends that second's frame, once. -/
def Hub.laneIrig (h : Hub) (n : Nat) : Hub :=
  let l := h.lane n
  let ns := h.baseNs (h.lnF Reg.LN_MODE n F.LN_MODE_TS_TB)
  let sec := ns / 1000000000
  if l.st = .running ∧ h.lnMode n = 12 ∧ ns % 1000000000 < 5 ∧ l.irigSec ≠ sec + 1 then
    (h.setLane n { l with irigSec := sec + 1 }).lineOut n (.code (irigPulses sec))
  else h

def execLaneIrigOutFrame (n : Fin 96) (s : State) : Host.Outcome State Fault Refusal := s.on fun h => h.laneIrig n

/-! ## States and commands (R75, R80, R83, R86, R97) -/

/-- The configuration of a lane is valid (R79, R80, R86, R97, R102). -/
def Hub.laneCfgOk (h : Hub) (n : Nat) : Bool :=
  let m := h.lnMode n
  let d := h.lnDiv n
  let o := h.lnF Reg.LN_BAUD n F.LN_BAUD_OVS
  let ovs := if o = 0 then 16 else o
  let int_ := h.lnF Reg.LN_BAUD n F.LN_BAUD_DIV_INT
  let sck := h.lnM n F.LN_MCFG_SCK_DIV
  let bits_ := h.lnM2 n F.LN_MCFG2_SSI_BITS
  let rate := match m with
    | 1 | 2 => decide (6 ≤ ovs) && decide (int_ ≠ 0) && decide (96 ≤ ovs * d) && decide (5 ≤ h.lnM n F.LN_MCFG_DATA_BITS) &&
        decide (h.lnM n F.LN_MCFG_DATA_BITS ≤ 9) && decide (h.lnM n F.LN_MCFG_PARITY ≠ 3)
    | 3 => decide (3 ≤ sck)
    | 7 => h.lnM n F.LN_MCFG_HDLC_CLK_OUT == 0 || (decide (int_ ≠ 0) && decide (120 ≤ d))
    | 8 | 9 => decide (12 ≤ ovs) && decide (int_ ≠ 0) && decide (240 ≤ ovs * d)
    | 10 => decide (15 ≤ sck) && decide (1 ≤ bits_) && decide (bits_ ≤ 32)
    | _ => decide (m ≤ 12)
  let cs := !(m == 3 || m == 4) || decide (h.lnM n F.LN_MCFG_CS_PIN ≤ 35)
  let cfunc := !(m == 1 && h.lnF Reg.LN_MODE n F.LN_MODE_C_FUNC == 3)
  let framing := !(isAsync m && h.lnEofIdle n == 0 && h.flag (Reg.LN_CRC n) F.LN_CRC_RX_CHECK)
  let poly := !(h.rxChecks n || h.txAppends n) || (h.lnPoly n).isSome
  let wm := fun (a : Nat) => decide (h.fld a F.LN_RXQ_CFG_WM_LO < h.fld a F.LN_RXQ_CFG_WM_HI) && decide (h.fld a F.LN_RXQ_CFG_WM_HI ≤ 64)
  rate && cs && cfunc && framing && poly && wm (Reg.LN_RXQ_CFG n) && wm (Reg.LN_TXQ_CFG n)

/-- A pin that a lane needs has another user (R76): a running lane, by its mode, as a discrete pin, or as its chip select. -/
def Hub.pinTaken (h : Hub) (n g : Nat) : Bool :=
  h.liveLanes.any fun m => m != n && (g / 3 == m || (h.csPin m).contains g)

/-- `LANE_START` (R83). A chip select on one of the lane's own pins is not refused (log entry 29). -/
def runLaneStart (h : Hub) (c : CmdIn) : Ack :=
  let n := c.arg 1
  if 96 ≤ n ∨ c.zeroFrom 2 = false ∨ h.laneCfgOk n = false then .refuse sEARG 0 n
  else
    let k := n / 12
    let vio := h.fld (Reg.LANE_BANK k) F.LANE_BANK_VIO
    let need := h.needPins n
    if (h.lane n).st ≠ .stopped ∨ vio = 0 ∨ vio ≠ h.fld (Reg.LANE_BANK k) F.LANE_BANK_VIO_MEAS ∨ need.any h.pinOwned = true ∨
        need.any (h.pinTaken n) = true then
      .refuse sESTATE (h.lane n).st.code n
    else
      let l := h.lane n
      .done (h.setLane n { st := .running, rxq := l.rxq, txq := l.txq, priorLoss := l.priorLoss }) []

/-- A lane reaches `STOPPED` (R78, R83): its pins revert, discrete outputs keep driving. -/
def Hub.laneStopped (h : Hub) (n : Nat) : Hub :=
  let l := h.lane n
  let mask := h.outMask n
  let h := h.setLane n { st := .stopped, rxq := l.rxq, txq := l.txq, priorLoss := l.priorLoss, kept := mask }
  let h := h.lnEvt n F.LN_EVT_STOPPED
  l.stopRefs.foldl (fun h r => h.answer r sOK []) h

/-- `LANE_STOP` (R83): reception ends at once; a frame half received leaves no `EOF` (log entry 29). -/
def runLaneStop (h : Hub) (c : CmdIn) : Ack :=
  let n := c.arg 1
  let mode := c.arg 2
  if 96 ≤ n ∨ 1 < mode ∨ c.zeroFrom 3 = false then .refuse sEARG 0 n
  else
    let l := h.lane n
    match l.st with
    | .stopped => .refuse sESTATE 0 n
    | .running =>
      let h := h.setLane n { l with st := .stopping (mode == 1), stopAt := h.now, stopRefs := [c.ref], rx := {}, loop := [], seen := none }
      .later (if mode = 0 then h.releaseDe n else h)
    | .stopping m1 =>
      let h := h.setLane n { l with st := .stopping (m1 && mode == 1), stopRefs := l.stopRefs ++ [c.ref] }
      .later (if mode = 0 ∧ m1 = true then h.releaseDe n else h)

/-- `LANE_STOP_COMPLETE` (R83). -/
def Hub.laneStopComplete (h : Hub) (n : Nat) : Hub :=
  let l := h.lane n
  let quiet := decide (l.busyUntil ≤ h.now) && (match l.deOff with
    | some t => decide (t ≤ h.now)
    | none => !l.de)
  match l.st with
  | .stopping false => if quiet then h.laneStopped n else h
  | .stopping true => if quiet && l.stopEof then h.laneStopped n else h
  | _ => h

/-- `LANE_STOP_TIMEOUT` (R83): a mode-1 stop lasts at most 10 ms. -/
def Hub.laneStopTimeout (h : Hub) (n : Nat) : Hub :=
  let l := h.lane n
  if l.st = .stopping true ∧ l.stopAt + 10 * tuMs ≤ h.now then
    ((h.setLane n { l with st := .stopping false }).releaseDe n).laneStopComplete n
  else h

/-- `LANE_FLUSH` (R83). -/
def runLaneFlush (h : Hub) (c : CmdIn) : Ack :=
  let n := c.arg 1
  let mask := c.arg 2
  if 96 ≤ n ∨ 3 < mask ∨ c.zeroFrom 3 = false then .refuse sEARG 0 n
  else if (h.lane n).st ≠ .stopped then .refuse sESTATE (h.lane n).st.code n
  else
    let h := if testBit mask 0 then
        (h.setLane n { h.lane n with rxq := (h.lane n).rxq.flushed }).setFld (Reg.LN_RXQ_STAT n) F.LN_RXQ_STAT_WM_CROSS 0
      else h
    let h := if testBit mask 1 then
        (h.setLane n { h.lane n with txq := (h.lane n).txq.flushed }).setFld (Reg.LN_TXQ_STAT n) F.LN_TXQ_STAT_WM_CROSS 0
      else h
    .done h []

/-- `LANE_DOUT` (R83). -/
def runLaneDout (h : Hub) (c : CmdIn) : Ack :=
  let n := c.arg 1
  let mask := c.arg 2
  if 96 ≤ n ∨ 7 < mask ∨ 7 < c.arg 3 ∨ c.zeroFrom 4 = false then .refuse sEARG 0 n
  else if Nat.land mask (h.outMask n) ≠ mask then .refuse sESTATE (h.lane n).st.code n
  else .done (h.setDout n mask (c.arg 3)) []

def execLaneStart (src : CmdSrc) (tag : Byte) (n : Word) (s : State) : Host.Outcome State Fault Refusal :=
  s.on fun h => h.accept (mkCmd src 0x0601 tag [n]) runLaneStart
def execLaneStop (src : CmdSrc) (tag : Byte) (n mode : Word) (s : State) : Host.Outcome State Fault Refusal :=
  s.on fun h => h.accept (mkCmd src 0x0602 tag [n, mode]) runLaneStop
def execLaneFlush (src : CmdSrc) (tag : Byte) (n mask : Word) (s : State) : Host.Outcome State Fault Refusal :=
  s.on fun h => h.accept (mkCmd src 0x0603 tag [n, mask]) runLaneFlush
def execLaneDout (src : CmdSrc) (tag : Byte) (n mask levels : Word) (s : State) : Host.Outcome State Fault Refusal :=
  s.on fun h => h.accept (mkCmd src 0x0604 tag [n, mask, levels]) runLaneDout
def execLaneStopComplete (n : Fin 96) (s : State) : Host.Outcome State Fault Refusal := s.on fun h => h.laneStopComplete n
def execLaneStopTimeout (n : Fin 96) (s : State) : Host.Outcome State Fault Refusal := s.on fun h => h.laneStopTimeout n

/-- Lanes of bank `k` that are not stopped. -/
def Hub.bankLanes (h : Hub) (k : Nat) : List Nat := h.liveLanes.filter fun n => n / 12 == k

/-- Every lane of a bank stops at once; its pins become inputs, those too that stopped lanes kept driving (R75). -/
def Hub.bankStop (h : Hub) (k : Nat) : Hub :=
  let h := (h.bankLanes k).foldl Hub.laneStopped h
  h.each 12 fun h i => h.setLane (12 * k + i) { h.lane (12 * k + i) with kept := 0 }

/-! ## Register writes -/

/-- A push of the Carousel or of a host test path into a transmit queue; false without credit (R198, R232). -/
def Hub.laneTxPush (h : Hub) (n : Nat) (x : Word) : Bool × Hub :=
  let l := h.lane n
  if 0 < l.txq.credit h.now laneCap then
    let h := h.setLane n { l with txq := l.txq.push h.now x }
    let h := if x.toNat / 2 ^ 28 = 0 then h.snoopBytes 3 n 1 [byte x.toNat] else h
    (true, if x.toNat / 2 ^ 28 = 4 then h.snoopFrameEnd 3 n 1 else h)
  else (false, h.lnEvt n F.LN_EVT_CREDIT_OVERRUN)

/-- A live lane uses a user polynomial entry (R218). -/
def Hub.laneUsesPoly (h : Hub) (e : Nat) : Bool :=
  h.liveLanes.any fun n => (h.rxChecks n || h.txAppends n) && h.lnF Reg.LN_CRC n F.LN_CRC_POLY == e

end Sys2Proof.Machine
end

