-- ==== Sys2Proof/Machine/Writes.lean ====
section
/-! DEFINITION. A write of a register word, field by field, under the access codes of R4 and the rule of R533. -/

namespace Sys2Proof.Machine

/-- The word that a write of `w` leaves, and whether an RWL field of a running unit was to change. `WO` and `SC` fields hold
nothing: their effect is the unit's own. -/
def applyFields (live : Bool) (w : Word) : List RegField → Word × Bool → Word × Bool
  | [], r => r
  | f :: fs, (x, bad) =>
    let v := bits w (f.lo, f.width)
    applyFields live w fs (match f.acc with
      | .rw => (putBits x (f.lo, f.width) v, bad)
      | .w1c => (x &&& ~~~ putBits 0 (f.lo, f.width) v, bad)
      | .rwl => if live then (x, bad || decide (bits x (f.lo, f.width) ≠ v)) else (putBits x (f.lo, f.width) v, bad)
      | .ro | .wo | .sc => (x, bad))

/-- Fields of the register word at `a`; none where the map has no word. -/
def fieldsAt (a : Nat) : List RegField :=
  match findRow a (regRows (a / 0x8000)) with
  | some r => r.fields
  | none => []

/-- A write of a register word whose unit runs or not; `refuse` is the unit's write-refused event. -/
def Hub.regWrite (h : Hub) (a : Nat) (w : Word) (live : Bool) (refuse : Hub → Hub) : Hub :=
  let r := applyFields live w (fieldsAt a) (h.rd a, false)
  (h.wr a r.1).when r.2 refuse

end Sys2Proof.Machine
end

