-- ==== Sys2Proof/Machine/Fret.lean ====
section
/-! DEFINITION. Fret Engines (chapter 04): pins, flags, queues, the instruction set, commands. An instruction row names the
engine; its operand stands in the program word at the engine's `PC`. The row happens only when a running engine is at such
a word and its engine cycle has come; `levels` are the pin levels that the synchroniser shows (R106). -/

namespace Sys2Proof.Machine

def Hub.eng (h : Hub) (e : Nat) : Eng := tget ({} : Eng) h.fret.eng e
def Hub.setEng (h : Hub) (e : Nat) (x : Eng) : Hub := { h with fret := { h.fret with eng := tset ({} : Eng) h.fret.eng e x } }
def Hub.frCtl (h : Hub) (e : Nat) (f : Nat × Nat) : Nat := h.fld (Reg.FR_CTL e) f
def Hub.frCtlB (h : Hub) (e : Nat) (f : Nat × Nat) : Bool := h.flag (Reg.FR_CTL e) f
def Hub.frPins (h : Hub) (e : Nat) (f : Nat × Nat) : Nat := h.fld (Reg.FR_PINS e) f
def Hub.frEvt (h : Hub) (e : Nat) (f : Nat × Nat) : Hub := h.evt (Reg.FR_EVT e) f

/-- A field of 5 bits in which 0 means 32 (R119). -/
def of32 (n : Nat) : Nat := if n = 0 then 32 else n
def Hub.pullBits (h : Hub) (e : Nat) : Nat := of32 (h.frCtl e F.FR_CTL_PULL_BITS)
def Hub.postAt (h : Hub) (e : Nat) : Nat := of32 (h.frCtl e F.FR_CTL_POST_AT)

/-! ## Clock (R109) -/

/-- `CLK_FRET` periods since the cold reset. -/
def Hub.fretCyc (h : Hub) : Nat := h.now / 200

/-- The divider in 256ths of a `CLK_FRET` period; 0 means 65,536. -/
def Hub.frDiv (h : Hub) (e : Nat) : Nat :=
  let i := h.fld (Reg.FR_DIV e) F.FR_DIV_DIV_INT
  (if i = 0 then 65536 else i) * 256 + h.fld (Reg.FR_DIV e) F.FR_DIV_DIV_FRAC

/-- The engine cycle that is in progress: cycle m begins ⌊m · divider⌋ `CLK_FRET` periods after the start. -/
def Hub.frCycle (h : Hub) (e : Nat) : Nat := (((h.now - (h.eng e).startAt) / 200 + 1) * 256 - 1) / h.frDiv e

/-! ## Pins (R103 to R105) -/

/-- Levels or directions of a bank's 36 pins as a number. -/
def bankBits (t : Table Bool) (k : Nat) : Nat :=
  (List.range 36).foldl (fun a p => a + (if tget false t (36 * k + p) then 2 ^ p else 0)) 0

/-- Engine `e` gives pin `p` of its bank a level, or a direction (R103, R105). -/
def Hub.frPin (h : Hub) (e : Nat) (isDir : Bool) (p : Nat) (v : Bool) : Hub :=
  let g := 36 * (e / 4) + p
  if 36 ≤ p ∨ h.pinOwned g = false then h
  else
    let key := 2 * g + bitB isDir
    let w := tget ({} : PinWr) h.fret.wrote key
    let engs := if w.cyc = h.fretCyc then w.engs else []
    let rec_ : PinWr := { cyc := h.fretCyc, engs := if engs.contains e then engs else engs ++ [e] }
    let h := { h with fret := { h.fret with wrote := tset ({} : PinWr) h.fret.wrote key rec_ } }
    let clash := fun (h : Hub) (x : Nat) => (h.count (Reg.FR_CNT_PIN_CLASH x)).frEvt x F.FR_EVT_PIN_CLASH
    let h := if engs.contains e ∨ engs = [] then h else
      match engs with
      | [o] => clash (clash h o) e
      | _ => clash h e
    if engs.any (e < ·) then h
    else if isDir then { h with fret := { h.fret with dir := tset false h.fret.dir g v } }
    else { h with fret := { h.fret with lvl := tset false h.fret.lvl g v } }

/-- Give pins `OUT_BASE` on the levels or directions in `v`, for `n` of them. -/
def Hub.frOut (h : Hub) (e : Nat) (isDir : Bool) (v n : Nat) : Hub :=
  h.each (min n (h.frPins e F.FR_PINS_OUT_COUNT)) fun h i => h.frPin e isDir (h.frPins e F.FR_PINS_OUT_BASE + i) (testBit v i)

/-- The pins of engine `e`'s bank are driven as they now stand, when they have changed. -/
def Hub.frDrive (h old : Hub) (k : Nat) : Hub :=
  if bankBits h.fret.lvl k = bankBits old.fret.lvl k ∧ bankBits h.fret.dir k = bankBits old.fret.dir k then h
  else h.drive (.pins k (bankBits h.fret.lvl k) (bankBits h.fret.dir k))

/-- Engine `e` drives its strobe pin to a level: the pin becomes an output, whether or not it lies in the output range (R118, R126, log
entry 26). -/
def Hub.frStrobeTo (h : Hub) (e : Nat) (v : Bool) : Hub :=
  let p := h.frCtl e F.FR_CTL_STROBE_PIN
  let h := h.frPin e false p v
  if tget false h.fret.dir (36 * (e / 4) + p) then h else h.frPin e true p true

/-- The strobe action of an instruction (R118). -/
def Hub.frStrobe (h : Hub) (e x : Nat) : Hub :=
  if h.frCtlB e F.FR_CTL_STROBE_EN then
    match bitsN x 10 2 with
    | 1 => h.frStrobeTo e false
    | 2 => h.frStrobeTo e true
    | 3 => h.frStrobeTo e (!tget false h.fret.lvl (36 * (e / 4) + h.frCtl e F.FR_CTL_STROBE_PIN))
    | _ => h
  else h

/-! ## Flags (R107) -/

def flagDo (f : Nat) (o : FlagOp) : Nat :=
  let was := testBit f o.bit
  let now := match o.op with
    | 0 => true
    | 1 => false
    | _ => !was
  f - (if was then 2 ^ o.bit else 0) + (if now then 2 ^ o.bit else 0)

/-- All flags as every test of the present `CLK_FRET` cycle sees them. -/
def Hub.flagsNow (h : Hub) : Nat :=
  if h.fret.flagCyc = h.fretCyc then h.fret.flags else h.fret.flagOps.foldl flagDo h.fret.flags

/-- Put an operation after those of engines up to its own. -/
def flagIns (o : FlagOp) : List FlagOp → List FlagOp
  | [] => [o]
  | x :: xs => if o.eng < x.eng then o :: x :: xs else x :: flagIns o xs

/-- A change of a flag in the present cycle. -/
def Hub.flagChange (h : Hub) (o : FlagOp) : Hub :=
  let ops := if h.fret.flagCyc = h.fretCyc then h.fret.flagOps else []
  { h with fret := { h.fret with flags := h.flagsNow, flagCyc := h.fretCyc, flagOps := flagIns o ops } }

/-- Bit of flag index `f` as the engines of troupe `k` address it. -/
def flagBit (k f : Nat) : Nat := if f < 16 then 16 * k + f else 128 + (f - 16)

/-! ## Queues (R113 to R117) -/

def Hub.frTxCap (h : Hub) (e : Nat) : Nat :=
  match h.frCtl e F.FR_CTL_JOIN with
  | 1 => 16
  | 2 => 0
  | _ => 8
def Hub.frRxCap (h : Hub) (e : Nat) : Nat :=
  match h.frCtl e F.FR_CTL_JOIN with
  | 1 => 0
  | 2 => 16
  | _ => 8
def Hub.frNoTx (h : Hub) (e : Nat) : Bool := h.frTxCap e == 0
def Hub.frNoRx (h : Hub) (e : Nat) : Bool := h.frRxCap e == 0

/-- Push into a transmit queue; false without credit, which is flagged (R232). -/
def Hub.frTxPush (h : Hub) (e : Nat) (x : Word) : Bool × Hub :=
  let g := h.eng e
  if 0 < g.txq.credit h.now (h.frTxCap e) then
    (true, (h.setEng e { g with txq := g.txq.push h.now x }).snoopBytes 4 e 1 (beBytes 4 x.toNat))
  else (false, h.frEvt e F.FR_EVT_CREDIT_OVERRUN)

/-- Push into the receive queue itself. -/
def Hub.frRxIn (h : Hub) (e : Nat) (x : Word) : Hub :=
  let g := h.eng e
  if 0 < g.rxq.credit h.now (h.frRxCap e) then
    (h.setEng e { g with rxq := g.rxq.push h.now x }).snoopBytes 4 e 0 (beBytes 4 x.toNat)
  else h.frEvt e F.FR_EVT_CREDIT_OVERRUN

def Hub.frRxCredit (h : Hub) (e : Nat) : Bool := decide (0 < (h.eng e).rxq.credit h.now (h.frRxCap e))

/-- `FR_TXQ_PUSH` (R116). -/
def Hub.frHostPush (h : Hub) (e : Nat) (x : Word) : Hub :=
  if h.fld (Reg.FR_TXQ_CFG e) F.FR_TXQ_CFG_PEER = 0 then h.frEvt e F.FR_EVT_WRITE_REFUSED else (h.frTxPush e x).2

def execFrTxqPush (e : Fin 32) (x : Word) (s : State) : Host.Outcome State Fault Refusal := s.on fun h => h.frHostPush e x

/-- `FR_RXQ_POP` (R116): the item read, and the hub after it. -/
def Hub.frHostPop (h : Hub) (e : Nat) : Word × Hub :=
  let g := h.eng e
  if h.fld (Reg.FR_RXQ_CFG e) F.FR_RXQ_CFG_PEER = 0 then (0, h)
  else match g.rxq.items with
    | x :: _ => if g.rxq.ready h.now = 0 then (h.rd (Reg.FR_RXQ_IDLE e), h) else (x, h.setEng e { g with rxq := g.rxq.drop1 h.now })
    | [] => (h.rd (Reg.FR_RXQ_IDLE e), h)

def execFrRxqPop (e : Fin 32) (s : State) : Host.Outcome State Fault Refusal :=
  s.on fun h => let r := h.frHostPop e; r.2.emit (.words [r.1])

/-! ## Running (R111, R112, R121) -/

/-- Program word `i` of the troupe of engine `e`. -/
def Hub.frWord (h : Hub) (e i : Nat) : Nat := h.fld (Reg.FRET_INSTR (e / 4) i) F.FRET_INSTR_INSTR
def Hub.frLo (h : Hub) (e : Nat) : Nat := h.fld (Reg.FR_PROG e) F.FR_PROG_PROG_LO
def Hub.frHi (h : Hub) (e : Nat) : Nat := h.fld (Reg.FR_PROG e) F.FR_PROG_PROG_HI
def Hub.frValid (h : Hub) (e : Nat) : Bool := h.flag (Reg.FR_PROG e) F.FR_PROG_VALID

/-- The instruction after `pc` (R112). -/
def Hub.frNext (h : Hub) (e pc : Nat) : Nat := if pc = h.frHi e then h.frLo e else (pc + 1) % 128

/-- A `HOLD` whose cycles have passed completes. -/
def Hub.frSettle (h : Hub) (e : Nat) : Hub :=
  let g := h.eng e
  if g.run ∧ g.holding = true ∧ g.cyc ≤ h.frCycle e then h.setEng e { g with holding := false, pc := h.frNext e g.pc } else h

/-- A running engine stops with a cause. -/
def Hub.frStopEng (h : Hub) (e cause : Nat) : Hub :=
  let h := h.frSettle e
  (h.setEng e { h.eng e with run := false, stall := 0, saw := false, holding := false, stopping := false, cause := cause }).frEvt e
    F.FR_EVT_STOPPED

/-- A new cycle: a `HOLD` may end, and a `FRET_STOP` takes effect in the `CLK_FRET` cycle after its acceptance (R121). -/
def Hub.frTick (h : Hub) (e : Nat) : Hub :=
  let h := h.frSettle e
  if (h.eng e).stopping && decide ((h.eng e).stopCyc ≤ h.fretCyc) then h.frStopEng e 1 else h

/-- What an instruction comes to: it stalls, needs a queue that is not there, completes, jumps, holds, or halts. -/
inductive FrRes where
  | stall (on_ : Nat) (saw : Bool)
  | noQueue
  | done (h : Hub)
  | jump (h : Hub) (a : Nat)
  | hold (n : Nat)
  | halt (h : Hub)

/-- Carry an instruction's result out. -/
def Hub.frFinish (h : Hub) (e x : Nat) (r : FrRes) : Hub :=
  let m := h.frCycle e
  let pc := (h.eng e).pc
  let go := fun (h' : Hub) (pc' : Nat) =>
    let h' := h'.frStrobe e x
    let h' := h'.setEng e { h'.eng e with stall := 0, saw := false, cyc := m + 1, pc := pc' }
    h'.frDrive h (e / 4)
  match r with
  | .stall on_ saw => h.setEng e { h.eng e with stall := on_, saw := saw, cyc := m + 1 }
  | .noQueue => h.frStopEng e 3
  | .done h' => go h' (h.frNext e pc)
  | .jump h' a => go h' a
  | .hold n =>
    let h' := h.frStrobe e x
    let h' := h'.setEng e { h'.eng e with cyc := m + n + 1, holding := true }
    h'.frDrive h (e / 4)
  | .halt h' => (go h' (h.frNext e pc)).frStopEng e 2

/-- A `HALT` can still complete in the cycle in which `FRET_STOP` has taken effect (R121). -/
def Hub.frHalting (h : Hub) (e op : Nat) : Bool :=
  let g := h.eng e
  op == 12 && !g.run && g.cause == 1 && g.stopCyc == h.fretCyc

/-- Engine `e` executes the instruction at its `PC` when that has opcode `op`. -/
def Hub.frRun (h : Hub) (e op : Nat) (act : Hub → Nat → FrRes) : Hub :=
  let h := h.frSettle e
  let g := h.eng e
  let x := h.frWord e g.pc
  if (g.run ∨ h.frHalting e op = true) ∧ g.holding = false ∧ g.stall = 0 ∧ g.cyc ≤ h.frCycle e ∧ x / 2 ^ 12 = op then h.frFinish e x (act h x) else h

/-! ## Instructions (R118, R119) -/

/-- Level of pin `p` in a sample. -/
def pinIn (levels p : Nat) : Bool := decide (p < 36) && testBit levels p

def Hub.frJmp (h : Hub) (e x levels : Nat) : FrRes :=
  let g := h.eng e
  let a := bitsN x 0 7
  let dec := fun (take : Bool) (h' : Hub) => if take then FrRes.jump h' a else .done h
  match bitsN x 7 3 with
  | 0 => .jump h a
  | 1 => dec (g.a ≠ 0) (h.setEng e { g with a := g.a - 1 })
  | 2 => dec (g.b ≠ 0) (h.setEng e { g with b := g.b - 1 })
  | 3 => dec (pinIn levels (h.frCtl e F.FR_CTL_JPIN)) h
  | 4 => dec (g.txc = 0) h
  | 5 => dec g.i h
  | 6 => dec (g.a ≠ g.b) h
  | _ => dec (g.txq.ready h.now ≠ 0) h

def Hub.frWaitp (h : Hub) (e x levels : Nat) : FrRes :=
  let v := testBit x 6
  let l := pinIn levels (bitsN x 0 6)
  let saw := (h.eng e).saw
  if l = v ∧ (testBit x 7 = false ∨ saw = true) then .done h else .stall 1 (saw || l != v)

def Hub.frWaitf (h : Hub) (e x : Nat) : FrRes :=
  let b := flagBit (e / 4) (bitsN x 0 5)
  let v := testBit x 5
  if testBit h.flagsNow b = v then
    .done (if testBit x 6 && v then h.flagChange ⟨e, b, 1⟩ else h)
  else .stall 2 false

/-- `fetch()` of R119: the engine with a word in `TXS`; none where it stalls. -/
def Hub.frFetch (h : Hub) (e : Nat) (nowait : Bool) : Option Hub :=
  let g := h.eng e
  let n := h.pullBits e
  let load := fun (h : Hub) (item : Word) (i : Bool) =>
    let t := item &&& word (2 ^ n - 1)
    h.setEng e { h.eng e with txs := if h.frCtlB e F.FR_CTL_TX_MSB then t <<< (32 - n) else t, txc := n, i := i }
  match g.txq.items with
  | x :: _ =>
    if g.txq.ready h.now = 0 then
      (if nowait then some (load (h.count (Reg.FR_CNT_IDLE_FETCH e)) (h.rd (Reg.FR_TXQ_IDLE e)) true) else none)
    else some (load ((h.setEng e { g with txq := g.txq.drop1 h.now }).count (Reg.FR_CNT_TX_WORDS e)) x false)
  | [] => if nowait then some (load (h.count (Reg.FR_CNT_IDLE_FETCH e)) (h.rd (Reg.FR_TXQ_IDLE e)) true) else none

def Hub.frFetchI (h : Hub) (e x : Nat) : FrRes :=
  if h.frNoTx e then .noQueue else
  match h.frFetch e (testBit x 0) with
  | some h => .done h
  | none => .stall 3 false

/-- One bit shifted out, to output pin `j`. -/
def Hub.frShiftOut (h : Hub) (e j : Nat) : Hub :=
  let g := h.eng e
  let msb := h.frCtlB e F.FR_CTL_TX_MSB
  let b := if msb then testBit g.txs.toNat 31 else testBit g.txs.toNat 0
  let h := h.setEng e { g with txs := if msb then g.txs <<< 1 else g.txs >>> 1 }
  if j < h.frPins e F.FR_PINS_OUT_COUNT then h.frPin e false (h.frPins e F.FR_PINS_OUT_BASE + j) b else h

def Hub.frSho (h : Hub) (e x : Nat) : FrRes :=
  let n := bitsN x 0 3 + 1
  let go := fun (h : Hub) =>
    let h := h.each n fun h j => h.frShiftOut e j
    FrRes.done (h.setEng e { h.eng e with txc := (h.eng e).txc - n })
  if h.frCtlB e F.FR_CTL_AUTOFETCH && (h.eng e).txc == 0 then
    if h.frNoTx e then .noQueue else
    match h.frFetch e false with
    | some h => go h
    | none => .stall 3 false
  else go h

/-- `post()` of R119, with credit. -/
def Hub.frPost (h : Hub) (e : Nat) : Hub :=
  let g := h.eng e
  let item := if h.frCtlB e F.FR_CTL_RX_MSB then g.rxs else g.rxs >>> (32 - g.rxc)
  let h := (h.setEng e { g with rxs := 0, rxc := 0 }).count (Reg.FR_CNT_RX_WORDS e)
  h.feed jFret e [item] fun h => h.frRxIn e item

/-- The word is lost (R115). -/
def Hub.frLose (h : Hub) (e : Nat) : Hub :=
  let g := h.eng e
  ((h.setEng e { g with rxs := 0, rxc := 0 }).count (Reg.FR_CNT_RX_LOST e)).frEvt e F.FR_EVT_RX_LOST

def Hub.frPostI (h : Hub) (e x : Nat) : FrRes :=
  if h.frNoRx e then .noQueue
  else if h.frRxCredit e then .done (h.frPost e)
  else if testBit x 0 then .done (h.frLose e)
  else .stall 4 false

/-- One bit shifted in, from input pin `j`. -/
def Hub.frShiftIn (h : Hub) (e levels j : Nat) : Hub :=
  let g := h.eng e
  let b := word (bitB (decide (j < h.frPins e F.FR_PINS_IN_COUNT) && pinIn levels (h.frPins e F.FR_PINS_IN_BASE + j)))
  h.setEng e { g with rxs := if h.frCtlB e F.FR_CTL_RX_MSB then (g.rxs <<< 1) ||| b else (g.rxs >>> 1) ||| (b <<< 31) }

def Hub.frShi (h : Hub) (e x levels : Nat) : FrRes :=
  let n := bitsN x 0 3 + 1
  let c := min ((h.eng e).rxc + n) 32
  let post := h.frCtlB e F.FR_CTL_AUTOPOST && decide (h.postAt e ≤ c)
  if post && h.frNoRx e then .noQueue
  else if post && !h.frRxCredit e then .stall 4 false
  else
    let h := h.each n fun h j => h.frShiftIn e levels j
    let h := h.setEng e { h.eng e with rxc := c }
    .done (if post then h.frPost e else h)

def Hub.frSetp (h : Hub) (e x : Nat) : FrRes := .done (h.frOut e (testBit x 8) (bitsN x 0 8) 8)

def Hub.frLdi (h : Hub) (e x : Nat) : FrRes :=
  let v := word (bitsN x 0 9)
  .done (h.setEng e (if testBit x 9 then { h.eng e with b := v } else { h.eng e with a := v }))

/-- Bit order of a word reversed. -/
def revWord (x : Word) : Word := word (reverseBits 32 x.toNat)

def Hub.frMov (h : Hub) (e x levels : Nat) : FrRes :=
  let g := h.eng e
  let ins := (List.range (h.frPins e F.FR_PINS_IN_COUNT)).foldl
    (fun a i => a + (if pinIn levels (h.frPins e F.FR_PINS_IN_BASE + i) then 2 ^ i else 0)) 0
  let src : Word := match bitsN x 0 3 with
    | 1 => g.a
    | 2 => g.b
    | 3 => g.txs
    | 4 => g.rxs
    | 5 => word ins
    | _ => 0
  let v := match bitsN x 6 2 with
    | 1 => ~~~ src
    | 2 => revWord src
    | _ => src
  .done (match bitsN x 3 3 with
    | 0 => h.setEng e { g with a := v }
    | 1 => h.setEng e { g with b := v }
    | 2 => h.setEng e { g with txs := v, txc := h.pullBits e }
    | 3 => h.setEng e { g with rxs := v }
    | 4 => h.frOut e false v.toNat 32
    | 5 => h.frOut e true v.toNat 32
    | _ => h)

def Hub.frFlag (h : Hub) (e x : Nat) : FrRes :=
  let h := h.flagChange ⟨e, flagBit (e / 4) (bitsN x 0 5), bitsN x 5 2⟩
  .done (if testBit x 7 then h.frEvt e F.FR_EVT_FLAG_EVT else h)

def execHold (e : Fin 32) (s : State) : Host.Outcome State Fault Refusal :=
  s.on fun h => h.frRun e 0 fun _ x => .hold (bitsN x 0 10)
def execJmp (e : Fin 32) (levels : BitVec 36) (s : State) : Host.Outcome State Fault Refusal :=
  s.on fun h => h.frRun e 1 fun h x => h.frJmp e x levels.toNat
def execWaitp (e : Fin 32) (levels : BitVec 36) (s : State) : Host.Outcome State Fault Refusal :=
  s.on fun h => h.frRun e 2 fun h x => h.frWaitp e x levels.toNat
def execWaitf (e : Fin 32) (s : State) : Host.Outcome State Fault Refusal := s.on fun h => h.frRun e 3 fun h x => h.frWaitf e x
def execSho (e : Fin 32) (s : State) : Host.Outcome State Fault Refusal := s.on fun h => h.frRun e 4 fun h x => h.frSho e x
def execShi (e : Fin 32) (levels : BitVec 36) (s : State) : Host.Outcome State Fault Refusal :=
  s.on fun h => h.frRun e 5 fun h x => h.frShi e x levels.toNat
def execFetch (e : Fin 32) (s : State) : Host.Outcome State Fault Refusal := s.on fun h => h.frRun e 6 fun h x => h.frFetchI e x
def execPost (e : Fin 32) (s : State) : Host.Outcome State Fault Refusal := s.on fun h => h.frRun e 7 fun h x => h.frPostI e x
def execSetp (e : Fin 32) (s : State) : Host.Outcome State Fault Refusal := s.on fun h => h.frRun e 8 fun h x => h.frSetp e x
def execLdi (e : Fin 32) (s : State) : Host.Outcome State Fault Refusal := s.on fun h => h.frRun e 9 fun h x => h.frLdi e x
def execMov (e : Fin 32) (levels : BitVec 36) (s : State) : Host.Outcome State Fault Refusal :=
  s.on fun h => h.frRun e 10 fun h x => h.frMov e x levels.toNat
def execFlag (e : Fin 32) (s : State) : Host.Outcome State Fault Refusal := s.on fun h => h.frRun e 11 fun h x => h.frFlag e x
def execHalt (e : Fin 32) (s : State) : Host.Outcome State Fault Refusal := s.on fun h => h.frRun e 12 fun h _ => .halt h

/-- `FRET_WAIT_MET` (R111): the condition of a stalled instruction is tested at the start of an engine cycle; it completes with
all its effects, or stalls on. -/
def Hub.frWaitMet (h : Hub) (e levels : Nat) : Hub :=
  let g := h.eng e
  let x := h.frWord e g.pc
  if g.run ∧ g.stall ≠ 0 ∧ g.cyc ≤ h.frCycle e then
    match x / 2 ^ 12 with
    | 2 => h.frFinish e x (h.frWaitp e x levels)
    | 3 => h.frFinish e x (h.frWaitf e x)
    | 4 => h.frFinish e x (h.frSho e x)
    | 5 => h.frFinish e x (h.frShi e x levels)
    | 6 => h.frFinish e x (h.frFetchI e x)
    | 7 => h.frFinish e x (h.frPostI e x)
    | _ => h
  else h

def execFretWaitMet (e : Fin 32) (levels : BitVec 36) (s : State) : Host.Outcome State Fault Refusal :=
  s.on fun h => h.frWaitMet e levels.toNat

/-! ## Commands (R122, R124, R125) -/

/-- A program word passes the checks of `FRET_LOAD` (R118, R122). -/
def frWordOk (lo hi x : Nat) : Bool :=
  match x / 2 ^ 12 with
  | 0 => true
  | 1 => decide (lo ≤ bitsN x 0 7) && decide (bitsN x 0 7 ≤ hi)
  | 2 => decide (bitsN x 0 6 ≤ 35) && bitsN x 8 2 == 0
  | 3 => bitsN x 7 3 == 0
  | 4 | 5 => bitsN x 3 7 == 0
  | 6 | 7 => bitsN x 1 9 == 0
  | 8 => bitsN x 9 1 == 0
  | 9 => true
  | 10 => decide (bitsN x 0 3 ≤ 5) && decide (bitsN x 3 3 ≤ 5) && decide (bitsN x 6 2 ≤ 2) && bitsN x 8 2 == 0
  | 11 => decide (bitsN x 5 2 ≤ 2) && bitsN x 8 2 == 0
  | 12 => bitsN x 0 10 == 0
  | _ => false

/-- `FRET_LOAD` (R122). -/
def runFretLoad (h : Hub) (c : CmdIn) : Ack :=
  let e := c.arg 1
  let lo := c.arg 2
  let hi := c.arg 3
  let entry := c.arg 4
  if 32 ≤ e ∨ c.zeroFrom 5 = false then .refuse sEARG 0 e
  else if (h.eng e).run then .refuse sESTATE 1 e
  else if lo ≤ entry ∧ entry ≤ hi ∧ hi ≤ 127 ∧
      ((List.range (hi + 1 - lo)).all fun i => frWordOk lo hi (h.frWord e (lo + i))) = true then
    let g := h.eng e
    let h := h.wr (Reg.FR_PROG e) (word (lo + hi * 2 ^ 8 + entry * 2 ^ 16 + 2 ^ 31))
    .done (h.setEng e { g with txs := 0, rxs := 0, txc := 0, rxc := 0, a := 0, b := 0, i := false, pc := entry }) []
  else .refuse sEARG 0 e

/-- The engines of a troupe that a mask names. -/
def maskEngines (k m : Nat) : List Nat := (below 4 (testBit m)).map (4 * k + ·)

/-- The settings of an engine pass the argument checks of `FRET_START` (R125). -/
def Hub.frCfgOk (h : Hub) (e : Nat) : Bool :=
  let ctl := h.frCtlB e F.FR_CTL_STROBE_EN
  let wm := fun (a cap : Nat) => cap == 0 || (decide (h.fld a F.FR_TXQ_CFG_WM_HI ≤ cap) &&
    decide (h.fld a F.FR_TXQ_CFG_WM_LO < h.fld a F.FR_TXQ_CFG_WM_HI))
  let lo := h.frLo e
  (h.fld (Reg.FR_DIV e) F.FR_DIV_DIV_INT != 0 || h.fld (Reg.FR_DIV e) F.FR_DIV_DIV_FRAC == 0) &&
    decide (h.frPins e F.FR_PINS_OUT_BASE + h.frPins e F.FR_PINS_OUT_COUNT ≤ 36) &&
    decide (h.frPins e F.FR_PINS_IN_BASE + h.frPins e F.FR_PINS_IN_COUNT ≤ 36) &&
    decide (h.frCtl e F.FR_CTL_JPIN ≤ 35) && (!ctl || decide (h.frCtl e F.FR_CTL_STROBE_PIN ≤ 35)) &&
    wm (Reg.FR_TXQ_CFG e) (h.frTxCap e) && wm (Reg.FR_RXQ_CFG e) (h.frRxCap e) &&
    (ctl || !h.frValid e || (List.range (h.frHi e + 1 - lo)).all fun i => bitsN (h.frWord e (lo + i)) 10 2 == 0)

/-- The state conditions of `FRET_START` (R125). -/
def Hub.frCanStart (h : Hub) (e : Nat) : Bool :=
  let k := e / 4
  let vio := h.fld (Reg.LANE_BANK k) F.LANE_BANK_VIO
  !(h.eng e).run && h.frValid e &&
    ((List.range (h.frPins e F.FR_PINS_OUT_COUNT)).all fun i => h.pinOwned (36 * k + (h.frPins e F.FR_PINS_OUT_BASE + i))) &&
    (!h.frCtlB e F.FR_CTL_STROBE_EN || h.pinOwned (36 * k + h.frCtl e F.FR_CTL_STROBE_PIN)) &&
    vio != 0 && vio == h.fld (Reg.LANE_BANK k) F.LANE_BANK_VIO_MEAS

/-- `FRET_START` (R125): every engine of the mask starts in one `CLK_FRET` cycle, or none does. -/
def runFretStart (h : Hub) (c : CmdIn) : Ack :=
  let k := c.arg 1
  let m := c.arg 2
  if 8 ≤ k ∨ 16 ≤ m ∨ c.zeroFrom 3 = false then .refuse sEARG 0 k
  else
    let es := maskEngines k m
    match es.find? fun e => !h.frCfgOk e with
    | some e => .refuse sEARG 0 e
    | none =>
      match es.find? fun e => !h.frCanStart e with
      | some e => .refuse sESTATE (bitB (h.eng e).run) e
      | none =>
        .done (es.foldl (fun h e =>
          let h' := h.setEng e { h.eng e with run := true, startAt := h.fretCyc * 200, cyc := 0, stall := 0, saw := false, holding := false }
          let h' := if h'.frCtlB e F.FR_CTL_STROBE_EN then
              h'.frStrobeTo e (h'.frCtlB e F.FR_CTL_STROBE_IDLE) else h'
          h'.frDrive h k) h) []

/-- `FRET_STOP` (R121): in the next `CLK_FRET` cycle each engine stops; a stall is abandoned, a `HOLD` cut short, and `PC` stays on the
instruction in progress. -/
def runFretStop (h : Hub) (c : CmdIn) : Ack :=
  let k := c.arg 1
  let m := c.arg 2
  if 8 ≤ k ∨ 16 ≤ m ∨ c.zeroFrom 3 = false then .refuse sEARG 0 k
  else
    let es := maskEngines k m
    match es.find? fun e => !(h.eng e).run with
    | some e => .refuse sESTATE 0 e
    | none => .done (es.foldl (fun h e => h.setEng e { h.eng e with stopping := true, stopCyc := h.fretCyc + 1 }) h) []

/-- The named queues emptied, their credits returned and their crossing counters cleared (R124). -/
def Hub.frFlush (h : Hub) (e : Nat) (rx tx : Bool) : Hub :=
  let h := if rx then
      (h.setEng e { h.eng e with rxq := (h.eng e).rxq.flushed }).setFld (Reg.FR_RXQ_STAT e) F.FR_RXQ_STAT_WM_CROSS 0 else h
  if tx then (h.setEng e { h.eng e with txq := (h.eng e).txq.flushed }).setFld (Reg.FR_TXQ_STAT e) F.FR_TXQ_STAT_WM_CROSS 0 else h

/-- `FRET_FLUSH` (R124): bit 0 of the mask names the receive queue, bit 1 the transmit queue. -/
def runFretFlush (h : Hub) (c : CmdIn) : Ack :=
  let e := c.arg 1
  let m := c.arg 2
  if 32 ≤ e ∨ 4 ≤ m ∨ c.zeroFrom 3 = false then .refuse sEARG 0 e
  else if (h.eng e).run then .refuse sESTATE 1 e
  else .done (h.frFlush e (testBit m 0) (testBit m 1)) []

def execFretLoad (src : CmdSrc) (tag : Byte) (e lo hi entry : Word) (s : State) : Host.Outcome State Fault Refusal :=
  s.on fun h => h.accept (mkCmd src 0x0501 tag [e, lo, hi, entry]) runFretLoad
def execFretStart (src : CmdSrc) (tag : Byte) (k m : Word) (s : State) : Host.Outcome State Fault Refusal :=
  s.on fun h => h.accept (mkCmd src 0x0502 tag [k, m]) runFretStart
def execFretStop (src : CmdSrc) (tag : Byte) (k m : Word) (s : State) : Host.Outcome State Fault Refusal :=
  s.on fun h => h.accept (mkCmd src 0x0503 tag [k, m]) runFretStop
def execFretFlush (src : CmdSrc) (tag : Byte) (e m : Word) (s : State) : Host.Outcome State Fault Refusal :=
  s.on fun h => h.accept (mkCmd src 0x0504 tag [e, m]) runFretFlush

/-! ## Writes (R107, R113, R123) and the bank supply (R75, R108) -/

/-- A write of `FR_CTL` (R113): a change of `JOIN` empties both queues. -/
def Hub.frCtlWrite (h : Hub) (e : Nat) (w : Word) : Hub :=
  let old := h.frCtl e F.FR_CTL_JOIN
  let h := h.regWrite (Reg.FR_CTL e) w (h.eng e).run fun h => h.frEvt e F.FR_EVT_WRITE_REFUSED
  if h.frCtl e F.FR_CTL_JOIN = old then h else h.frFlush e true true

def execFretJoinWrite (e : Fin 32) (w : Word) (s : State) : Host.Outcome State Fault Refusal := s.on fun h => h.frCtlWrite e w

/-- Engines whose program range covers word `i` of troupe `k`. -/
def Hub.frCovering (h : Hub) (k i : Nat) : List Nat :=
  ((List.range 4).map (4 * k + ·)).filter fun e => h.frValid e && decide (h.frLo e ≤ i) && decide (i ≤ h.frHi e)

/-- A write of program word `i` of troupe `k` (R123). -/
def Hub.frProgWrite (h : Hub) (k i : Nat) (w : Word) : Hub :=
  let cov := h.frCovering k i
  match cov.filter fun e => (h.eng e).run with
  | [] => cov.foldl (fun h e => h.setFld (Reg.FR_PROG e) F.FR_PROG_VALID 0) (h.wr (Reg.FRET_INSTR k i) (w &&& 0xFFFF))
  | live => live.foldl (fun h e => h.frEvt e F.FR_EVT_WRITE_REFUSED) h

def execFretProgWrite (k : Fin 8) (i : Fin 128) (w : Word) (s : State) : Host.Outcome State Fault Refusal :=
  s.on fun h => h.frProgWrite k i w

/-- A host's write of a flag register: every flag whose bit is 1 is set or cleared (R107); `k` 8 names the global flags. -/
def Hub.flagsWrite (h : Hub) (k op : Nat) (w : Word) : Hub :=
  (below 16 (testBit w.toNat)).foldl (fun h i => h.flagChange ⟨32, 16 * k + i, op⟩) h

def execFlagHostSet (k : Fin 9) (w : Word) (s : State) : Host.Outcome State Fault Refusal := s.on fun h => h.flagsWrite k 0 w
def execFlagHostClear (k : Fin 9) (w : Word) (s : State) : Host.Outcome State Fault Refusal := s.on fun h => h.flagsWrite k 1 w

/-- A troupe stops with its bank's supply, and its pins become inputs (R108). -/
def Hub.troupeStop (h : Hub) (k : Nat) : Hub :=
  let h := h.each 4 fun h j => if (h.eng (4 * k + j)).run then h.frStopEng (4 * k + j) 4 else h
  h.each 36 fun h p => { h with fret := { h.fret with dir := tset false h.fret.dir (36 * k + p) false } }

/-- Some lane of bank `k` runs. -/
def Hub.bankRuns (h : Hub) (k : Nat) : Bool := (h.bankLanes k).any fun n => decide ((h.lane n).st ≠ .stopped)

/-- Some engine of troupe `k` runs. -/
def Hub.troupeRuns (h : Hub) (k : Nat) : Bool := (List.range 4).any fun j => (h.eng (4 * k + j)).run

/-- `BANK_VIO_CHANGE` (R75, R108): the supply class measured on bank `k` becomes `v`. The lanes stop, with their event, if one of
them runs; the troupe stops with them, and (DEDUCED from R108's stop cause) also where only its engines run. -/
def Hub.bankVio (h : Hub) (k v : Nat) : Hub :=
  if h.fld (Reg.LANE_BANK k) F.LANE_BANK_VIO_MEAS = v then h
  else
    let lanes := h.bankRuns k
    let troupe := lanes || h.troupeRuns k
    let h := h.setFld (Reg.LANE_BANK k) F.LANE_BANK_VIO_MEAS v
    let old := h
    let h := if lanes then (h.evtN Reg.LANE_EVT F.LANE_EVT_BANK_VIO k).bankStop k else h
    let h := if troupe then (h.evtN Reg.FRET_EVT F.FRET_EVT_TROUPE_VIO k).troupeStop k else h
    h.frDrive old k

def execBankVioChange (k : Fin 8) (v : Fin 4) (s : State) : Host.Outcome State Fault Refusal :=
  s.onAny fun h => if h.held then h.setFld (Reg.LANE_BANK k) F.LANE_BANK_VIO_MEAS v.val else h.bankVio k v

end Sys2Proof.Machine
end

