-- ==== Sys2Proof/Machine/Can.lean ====
section
/-! DEFINITION. CAN FD controllers (chapter 05): entries and their framing, transmission, reception, error states, commands. -/

namespace Sys2Proof.Machine

def Hub.can1 (h : Hub) (n : Nat) : CanCtl := tget ({} : CanCtl) h.can.ctl n
def Hub.setCan (h : Hub) (n : Nat) (x : CanCtl) : Hub := { h with can := { h.can with ctl := tset ({} : CanCtl) h.can.ctl n x } }
def Hub.canF (h : Hub) (n : Nat) (f : Nat × Nat) : Nat := h.fld (Reg.CAN_CTL n) f
def Hub.canMode (h : Hub) (n : Nat) : Nat := h.canF n F.CAN_CTL_OPMODE
def Hub.canFd (h : Hub) (n : Nat) : Bool := h.flag (Reg.CAN_CTL n) F.CAN_CTL_FD_EN
def Hub.canEvt (h : Hub) (n : Nat) (f : Nat × Nat) : Hub := h.evt (Reg.CAN_EVT n) f

def CanSt.code : CanSt → Nat
  | .stopped => 0 | .syncing => 1 | .active => 2 | .passive => 3 | .busOff => 4 | .recovering => 5 | .stopping => 6

/-- The controller changes state, which is flagged. -/
def Hub.canTo (h : Hub) (n : Nat) (st : CanSt) : Hub :=
  (h.setCan n { h.can1 n with st := st }).canEvt n F.CAN_EVT_STATE_CHANGE

/-! ## Entries (R141) -/

/-- Data length of a DLC. -/
def dlcLen (dlc : Nat) (fd : Bool) : Nat :=
  if dlc ≤ 8 then dlc else if !fd then 8 else ([12, 16, 20, 24, 32, 48, 64].getD (dlc - 9) 64)

def canIde (w0 : Word) : Bool := testBit w0.toNat 29
def canRtr (w0 : Word) : Bool := testBit w0.toNat 30
def canFdf (w1 : Word) : Bool := testBit w1.toNat 4
def canBrs (w1 : Word) : Bool := testBit w1.toNat 5

/-- Bytes of data that a header announces. -/
def canLen (w0 w1 : Word) : Nat := if canRtr w0 then 0 else dlcLen (bitsN w1.toNat 0 4) (canFdf w1)

/-- Words of the transmit entry with this header. -/
def canNeed (w0 w1 : Word) : Nat := 2 + ceilDiv (canLen w0 w1) 4

/-- The words that a byte list spells, most significant byte first, the last one padded with 0. -/
def beWords : Nat → List Byte → List Word
  | 0, _ => []
  | k + 1, bs => word (beNat (padTo 4 (bs.take 4))) :: beWords k (bs.drop 4)

/-- The data bytes of an entry whose data words begin at word `i`. -/
def canData (ws : List Word) (i len : Nat) : List Byte := ((ws.drop i).flatMap fun w => beBytes 4 w.toNat).take len

def CanTx.w0 (x : CanTx) : Word := x.words.getD 0 0
def CanTx.w1 (x : CanTx) : Word := x.words.getD 1 0

/-! ## The receive FIFO (R145, R146) -/

def canTxCap : Nat := 32
def canRxCap : Nat := 64

/-- Push an entry into the FIFO itself; `frame` tells a received frame from a completion. -/
def Hub.canRxIn (h : Hub) (n : Nat) (ws : List Word) : Hub :=
  let c := h.can1 n
  let frame := (ws.getD 1 0).toNat / 2 ^ 28 = 0
  if c.rxq.length + c.rxc.fresh h.now < canRxCap then
    let ws := if c.priorLoss then ws.set 1 (ws.getD 1 0 ||| 0x80) else ws
    let h := h.setCan n { c with rxq := c.rxq ++ [ws], rxc := c.rxc.put h.now, priorLoss := false }
    if frame then
      let w0 := ws.getD 0 0
      let w1 := ws.getD 1 0
      let h := (h.count (Reg.CAN_CNT_RX_OK n)).canEvt n F.CAN_EVT_RX_FRAME
      (h.snoopBytes 5 n 0 (canData ws 4 (canLen w0 w1))).snoopFrameEnd 5 n 0
    else h
  else
    ((h.setCan n { c with priorLoss := true }).count (Reg.CAN_CNT_RX_LOST n)).canEvt n F.CAN_EVT_RX_LOST

/-- The controller has an entry for its receive FIFO. -/
def Hub.canRxPush (h : Hub) (n : Nat) (ws : List Word) : Hub := h.feed jCan n ws fun h => h.canRxIn n ws

/-- The two time-stamp words of an entry. -/
def Hub.canStampWords (h : Hub) (n stamp : Nat) : List Word :=
  [word stamp, word (stamp / 2 ^ 32 % 256 + h.canF n F.CAN_CTL_TS_TB * 256)]

/-- Pop one word: the word, whether it is the idle item, and the hub after it. -/
def Hub.canPop (h : Hub) (n : Nat) : Word × Bool × Hub :=
  let c := h.can1 n
  match c.rxq with
  | ws :: rest =>
    if c.rxq.length - c.rxc.putNow h.now = 0 then (h.rd (Reg.CAN_RXQ_IDLE n), true, h)
    else if c.popped + 1 < ws.length then (ws.getD c.popped 0, false, h.setCan n { c with popped := c.popped + 1 })
    else (ws.getD c.popped 0, false,
      h.setCan n { c with rxq := rest, popped := 0, mark := c.mark - 1, rxc := c.rxc.pop h.now })
  | [] => (h.rd (Reg.CAN_RXQ_IDLE n), true, h)

/-- `CAN_RXQ_POP` (R147). -/
def Hub.canHostPop (h : Hub) (n : Nat) : Word × Hub :=
  if h.fld (Reg.CAN_RXQ_CFG n) F.CAN_RXQ_CFG_PEER = 0 then (0, h)
  else let r := h.canPop n; (r.1, r.2.2)

def execCanRxqPop (n : Fin 16) (s : State) : Host.Outcome State Fault Refusal :=
  s.on fun h => let r := h.canHostPop n; r.2.emit (.words [r.1])

/-! ## Transmission (R136, R138 to R144) -/

/-- The short time on the controller's base in the `CLK_CAN` cycle that lies `ago` cycles back, less `late` ns (R151). -/
def Hub.canShort (h : Hub) (n ago : Nat) (late : Int) : Nat :=
  ofSigned 40 (h.nsAt (h.canF n F.CAN_CTL_TS_TB) (h.now / 750 * 750 - ago * 750) - late)

/-- An entry completes with a status: reported in the FIFO if it asked for it. -/
def Hub.canComplete (h : Hub) (n : Nat) (x : CanTx) (status stamp : Nat) : Hub :=
  if testBit x.w1.toNat 16 then
    h.canRxPush n ([0, word (bitsN x.w1.toNat 8 8 * 256 + status * 2 ^ 16 + 2 ^ 28)] ++ h.canStampWords n stamp)
  else h

/-- Remove entry `i` of the transmit queue; its credit returns. -/
def Hub.canRemove (h : Hub) (n i : Nat) : Hub :=
  let c := h.can1 n
  h.setCan n { c with txq := c.txq.eraseIdx i, txc := c.txc.pop h.now, cur := none }

/-- The arbitration value of a header by `ID` and `IDE`: the lower one wins (R143). A standard frame is ordered before an extended one with the
same base identifier. -/
def canArb (w0 : Word) : Nat :=
  let id := bitsN w0.toNat 0 29
  id / 2 ^ 18 * 2 ^ 19 + (if canIde w0 then 2 ^ 18 + id % 2 ^ 18 else 0)

/-- Index of the entry to offer: the oldest, or with `TXQ_PRIO` the oldest with the lowest arbitration value (R143). -/
def pickCan (prio : Bool) : List CanTx → Nat → Option (Nat × CanTx)
  | [], _ => none
  | x :: xs, i =>
    if prio then
      match pickCan prio xs (i + 1) with
      | some (j, y) => if canArb y.w0 < canArb x.w0 then some (j, y) else some (i, x)
      | none => some (i, x)
    else some (i, x)

def Hub.canHeadOf (h : Hub) (n : Nat) (l : List CanTx) : Option (Nat × CanTx) := pickCan (h.flag (Reg.CAN_CTL n) F.CAN_CTL_TXQ_PRIO) l 0
def Hub.canHead (h : Hub) (n : Nat) : Option (Nat × CanTx) := h.canHeadOf n (h.can1 n).txq

/-- The entries that an offer of this cycle sees (R234). -/
def Hub.canReady (h : Hub) (n : Nat) : List CanTx := (h.can1 n).txq.take ((h.can1 n).txq.length - (h.can1 n).txc.putNow h.now)

/-- The entry does not go on the bus (R136, R142). -/
def Hub.canRefused (h : Hub) (n : Nat) (x : CanTx) : Bool :=
  h.canMode n == 1 || (canFdf x.w1 && (!h.canFd n || canRtr x.w0))

/-- Entries that reach the head and may not go on the bus complete with `REFUSED`. -/
def Hub.canSift : Nat → Nat → Hub → Hub
  | 0, _, h => h
  | k + 1, n, h =>
    if (h.can1 n).cur.isSome then h else
    match h.canHead n with
    | some (i, x) =>
      if h.canRefused n x then Hub.canSift k n ((h.canRemove n i).canComplete n x 4 (h.canShort n 0 0)) else h
    | none => h

/-- Push one word of a transmit entry (R142); false without credit. `owner` is the context that pushes, 256 for a host. -/
def Hub.canTxPush (h : Hub) (n : Nat) (x : Word) (owner : Nat) : Bool × Hub :=
  let c := h.can1 n
  match c.part with
  | none =>
    if c.txq.length + c.txc.fresh h.now < canTxCap then (true, h.setCan n { c with part := some ⟨[x], false, owner, h.now⟩ })
    else (false, (h.setCan n { c with part := some ⟨[x], true, owner, h.now⟩ }).canEvt n F.CAN_EVT_CREDIT_OVERRUN)
  | some p =>
    let ws := p.words ++ [x]
    if canNeed (ws.getD 0 0) (ws.getD 1 0) ≤ ws.length then
      if p.drop then (true, h.setCan n { c with part := none })
      else
        let h := h.setCan n { c with part := none, txq := c.txq ++ [⟨ws, 0⟩], txc := c.txc.put h.now }
        let h := (h.snoopBytes 5 n 1 (canData ws 2 (canLen (ws.getD 0 0) (ws.getD 1 0)))).snoopFrameEnd 5 n 1
        (true, Hub.canSift canTxCap n h)
    else (true, h.setCan n { c with part := some { p with words := ws, at_ := h.now } })

/-- `CAN_TXQ_PUSH` (R147). -/
def Hub.canHostPush (h : Hub) (n : Nat) (x : Word) : Hub :=
  if h.fld (Reg.CAN_TXQ_CFG n) F.CAN_TXQ_CFG_PEER = 0 then h.canEvt n F.CAN_EVT_WRITE_REFUSED else (h.canTxPush n x 256).2

def execCanTxqPush (n : Fin 16) (x : Word) (s : State) : Host.Outcome State Fault Refusal := s.on fun h => h.canHostPush n x

/-- The entry being pushed is left incomplete (R142). -/
def Hub.canAbandon (h : Hub) (n : Nat) : Hub :=
  let c := h.can1 n
  match c.part with
  | none => h
  | some p =>
    let h := h.setCan n { c with part := none, txc := if p.drop then c.txc else c.txc.pop h.now }
    if p.drop then h else h.canEvt n F.CAN_EVT_TX_MALFORMED

/-- `CAN_TX_ENTRY_TIMEOUT` (R142): no word of a host's entry for 10 ms. -/
def Hub.canEntryTimeout (h : Hub) (n : Nat) : Hub :=
  match (h.can1 n).part with
  | some p => if h.fld (Reg.CAN_TXQ_CFG n) F.CAN_TXQ_CFG_PEER = 1 ∧ p.at_ + 10 * tuMs ≤ h.now then h.canAbandon n else h
  | none => h

def execCanTxEntryTimeout (n : Fin 16) (s : State) : Host.Outcome State Fault Refusal := s.on fun h => h.canEntryTimeout n

/-- `CAN_TX_START` (R143, R151): the controller offers an entry, and its start of frame is stamped. In internal loopback nothing
leaves the ball (R136). -/
def Hub.canTxStart (h : Hub) (n : Nat) : Hub :=
  let c := h.can1 n
  if (c.st ≠ .active ∧ c.st ≠ .passive) ∨ c.cur.isSome = true ∨ c.rxBusy = true ∨ h.canReady n = [] then h
  else
    let h := Hub.canSift canTxCap n h
    match h.canHeadOf n (h.canReady n) with
    | some (i, x) =>
      let h := h.setCan n { h.can1 n with cur := some i, stamp := h.canShort n 0 0, rxBusy := decide (2 ≤ h.canMode n) }
      if h.canMode n = 2 then h else h.drive (.can n x.words)
    | none => h

def execCanTxStart (n : Fin 16) (s : State) : Host.Outcome State Fault Refusal := s.on fun h => h.canTxStart n

/-- `CANn_TX` stands at its recessive level whatever the bus does: the hub is held in reset or does not act for its node, the controller takes
no part in the bus, only listens, or runs in internal loopback (R128, R136, R371). At other times it is recessive but for the dominant bits that
the controller sends, which the model does not show (log entry 39). -/
def Hub.canTxHigh (h : Hub) (n : Nat) : Bool :=
  let c := h.can1 n
  h.held || !h.acts || h.canMode n == 1 || h.canMode n == 2 || c.st == .stopped || c.st == .syncing || c.st == .busOff || c.st == .recovering

/-! ## Error states (R133, R137, R140) -/

/-- Entry to BUS_OFF: the frame in progress completes with `BUS_OFF`; recovery starts at once under `AUTO_RECOVER`. -/
def Hub.canBusOff (h : Hub) (n : Nat) : Hub :=
  let c := h.can1 n
  let h := match c.cur with
    | some i => match c.txq[i]? with
      | some x => (h.canRemove n i).canComplete n x 3 c.stamp
      | none => h
    | none => h
  let h := h.setCan n { h.can1 n with rxBusy := false }
  let h := ((h.canTo n .busOff).count (Reg.CAN_CNT_BUS_OFF n))
  let h := if h.flag (Reg.CAN_CTL n) F.CAN_CTL_AUTO_RECOVER then h.canTo n .recovering else h
  Hub.canSift canTxCap n h

/-- The state that the error counters call for. -/
def Hub.canErrState (h : Hub) (n : Nat) : Hub :=
  let c := h.can1 n
  match c.st with
  | .active | .passive =>
    if 255 < c.tec then h.canBusOff n
    else if 127 < c.tec ∨ 127 < c.rec_ then (if c.st = .active then h.canTo n .passive else h)
    else if c.st = .passive then h.canTo n .active else h
  | _ => h

/-! ## Reception (R145, R149 to R151) -/

/-- The word that stood at `a` at the start of the present `CLK_CAN` cycle: a write of that cycle applies from the next frame on (R149). -/
def Hub.rdCan (h : Hub) (a : Nat) : Word := tget (resetWord a) h.start.canRegs a

/-- Verdict of the filters from index `i` on, `k` of them: the index that decides and whether it accepts; none where none decides. -/
def Hub.canFilter (h : Hub) (n : Nat) (w0 w1 : Word) : Nat → Nat → Option (Nat × Bool)
  | 0, _ => none
  | k + 1, i =>
    let a := h.rdCan (Reg.CAN_FLT0 n i)
    let b := h.rdCan (Reg.CAN_FLT1 n i)
    let fmt := match bits b F.CAN_FLT1_FDF_MATCH with
      | 0 => true
      | 1 => !canFdf w1
      | 2 => canFdf w1
      | _ => false
    if bits a F.CAN_FLT0_EN = 1 ∧ (bits a F.CAN_FLT0_IDE = 1 ↔ canIde w0 = true) ∧
        Nat.land (Nat.xor (bitsN w0.toNat 0 29) (bits a F.CAN_FLT0_ID)) (bits b F.CAN_FLT1_MASK) = 0 ∧ fmt = true then
      some (i, bits a F.CAN_FLT0_REJECT = 0)
    else h.canFilter n w0 w1 k (i + 1)

/-- A frame received without error is judged once and pushed or discarded (R149, R145). -/
def Hub.canJudge (h : Hub) (n : Nat) (w0 w1 : Word) (data : List Byte) (stamp : Nat) : Hub :=
  let v := match h.canFilter n w0 w1 64 0 with
    | some (i, ok) => (i, ok)
    | none => (255, h.flag (Reg.CAN_CTL n) F.CAN_CTL_DEFAULT_ACCEPT)
  if v.2 then
    let len := canLen w0 w1
    h.canRxPush n ([w0 &&& 0x7FFFFFFF, (w1 &&& 0x7F) ||| word (v.1 * 256)] ++ h.canStampWords n stamp ++
      beWords (ceilDiv len 4) (padTo len (data.take len)))
  else h.count (Reg.CAN_CNT_RX_REJECTED n)

/-- Receive counter after a frame received well: one less, or a value from 119 to 127 where it was above 127 (R137). -/
def Hub.canRecDown (h : Hub) (n : Nat) : Hub :=
  let c := h.can1 n
  if 127 < c.rec_ then (h.setCan n { c with rec_ := 119 + h.freeNow.toNat % 9 }).tick
  else h.setCan n { c with rec_ := c.rec_ - 1 }

/-- The controller receives from its bus (R134, R136). -/
def Hub.canHears (h : Hub) (n : Nat) : Bool :=
  let c := h.can1 n
  (c.st == .active || c.st == .passive || c.st == .stopping) && h.canMode n != 2

def Hub.setRxBusy (h : Hub) (n : Nat) (b : Bool) : Hub := h.setCan n { h.can1 n with rxBusy := b }

/-- A frame begins on the bus, which the controller receives. No new frame is received in `STOPPING` once the bus is idle (R133). -/
def Hub.canSofRx (h : Hub) (n : Nat) : Hub := if h.canHears n && (h.can1 n).cur.isNone then h.setRxBusy n true else h

/-- A frame has been received without error (R145, R149, R151). -/
def Hub.canFrameRx (h : Hub) (n : Nat) (w0 w1 : Word) (data : List Byte) (ago : Nat) : Hub :=
  if h.canHears n = false then h
  else
    let h := h.setRxBusy n false
    let t := h.canShort n ago (25 + toSigned 16 (h.fld (Reg.CAN_TS n) F.CAN_TS_TS_ADJ))
    let h := h.canRecDown n
    let h := h.canJudge n w0 w1 data t
    h.canErrState n

/-- `CAN_FRAME_RX` (R145): a frame begins on the bus, or has come whole. -/
def execCanFrameRx (n : Fin 16) (w0 w1 : Word) (data : List Byte) (x : CanIn) (s : State) : Host.Outcome State Fault Refusal :=
  s.on fun h => match x with
    | .start => h.canSofRx n
    | .whole ago => h.canFrameRx n w0 w1 data ago

/-- `CAN_RX_BUS_ERROR` (R137): an error detected while receiving; `dominant` when the bit after the error flag was dominant, `more`
the further sequences of eight dominant bits, each of which adds 8 as ISO 11898-1 sets out. -/
def Hub.canRxError (h : Hub) (n : Nat) (crc dominant : Bool) (more : Nat) : Hub :=
  let c := h.can1 n
  if h.canHears n = false ∨ c.cur.isSome = true then h
  else
    let h := h.setRxBusy n false
    let h := (h.count (if crc then Reg.CAN_CNT_ERR_CRC n else Reg.CAN_CNT_ERR_OTHER n)).canEvt n F.CAN_EVT_BUS_ERR
    let h := h.setCan n { h.can1 n with rec_ := min 255 (c.rec_ + 1 + (if dominant then 8 else 0) + 8 * more) }
    h.canErrState n

def execCanRxBusError (n : Fin 16) (crc dominant : Bool) (more : Nat) (s : State) : Host.Outcome State Fault Refusal :=
  s.on fun h => h.canRxError n crc dominant more

/-- The controller counts as error-passive by its counters, in `STOPPING` too (R137, R139). -/
def CanCtl.errPassive (c : CanCtl) : Bool := decide (127 < c.tec) || decide (127 < c.rec_)

/-- `CAN_TX_ATTEMPT_END` (R136, R138, R139, R150): `tdcv` is the loop delay measured in the attempt, if it was (R133); `more` the
further sequences of eight dominant bits after an error flag. -/
def Hub.canTxEnd (h : Hub) (n : Nat) (how : CanEnd) (tdcv : Option Nat) (more : Nat) : Hub :=
  let c := h.can1 n
  match c.cur with
  | none => h
  | some i =>
    match c.txq[i]? with
    | none => h.setCan n { c with cur := none }
    | some x =>
      let h := h.setRxBusy n false
      let h := match tdcv with
        | some v => if canFdf x.w1 && canBrs x.w1 && h.flag (Reg.CAN_TDC n) F.CAN_TDC_TDC_EN then
            h.setFld (Reg.CAN_TDC n) F.CAN_TDC_TDCV (min 127 v) else h
        | none => h
      let loop := h.canMode n = 2 ∨ h.canMode n = 3
      let how := if h.canMode n = 2 then CanEnd.ok else match how with
        | .ack d => if h.canMode n = 3 then CanEnd.ok else .ack d
        | r => r
      match how with
      | .arbLost => h.setCan n { h.can1 n with cur := none, rxBusy := true }
      | .ok =>
        let h := h.canRemove n i
        let h := h.setCan n { h.can1 n with tec := (h.can1 n).tec - 1 }
        let h := (h.count (Reg.CAN_CNT_TX_OK n)).canEvt n F.CAN_EVT_TX_DONE
        let h := h.canComplete n x 0 c.stamp
        let h := if loop then
            h.canJudge n x.w0 ((x.w1 &&& 0x3F) ||| word (bitB c.errPassive * 64)) (canData x.words 2 (canLen x.w0 x.w1)) c.stamp
          else h
        Hub.canSift canTxCap n (h.canErrState n)
      | e =>
        let (cnt, up) := match e with
          | .ack d => (Reg.CAN_CNT_ERR_ACK n, if c.errPassive = true ∧ d = false then 0 else 8)
          | .crc => (Reg.CAN_CNT_ERR_CRC n, 8)
          | .other ex => (Reg.CAN_CNT_ERR_OTHER n, if ex then 0 else 8)
          | _ => (Reg.CAN_CNT_ERR_OTHER n, 8)
        let h := (h.count cnt).canEvt n F.CAN_EVT_BUS_ERR
        let h := h.setCan n { h.can1 n with tec := min 511 (c.tec + up + 8 * more) }
        let lim := h.canF n F.CAN_CTL_RETRY_LIM
        if 255 < (h.can1 n).tec ∧ c.st ≠ CanSt.stopping then h.canErrState n
        else if lim ≠ 255 ∧ lim ≤ x.tries then
          let h := (h.canRemove n i).canComplete n x (match e with | .ack _ => 1 | _ => 2) c.stamp
          let h := (h.count (Reg.CAN_CNT_TX_ABANDONED n)).canEvt n F.CAN_EVT_TX_ABANDON
          Hub.canSift canTxCap n (h.canErrState n)
        else
          let h := h.setCan n { h.can1 n with cur := none, txq := c.txq.set i { x with tries := x.tries + 1 } }
          h.canErrState n

def execCanTxAttemptEnd (n : Fin 16) (how : CanEnd) (tdcv : Option Nat) (more : Nat) (s : State) : Host.Outcome State Fault Refusal :=
  s.on fun h => h.canTxEnd n how tdcv more

/-! ## States and commands (R131 to R135) -/

/-- The configuration passes the checks of R131 and of the watermark fields (R152). -/
def Hub.canCfgOk (h : Hub) (n : Nat) : Bool :=
  let nb := fun f => h.fld (Reg.CAN_NBT n) f + 1
  let db := fun f => h.fld (Reg.CAN_DBT n) f + 1
  let nq := nb F.CAN_NBT_NBRP * (1 + nb F.CAN_NBT_NTSEG1 + nb F.CAN_NBT_NTSEG2)
  let dq := db F.CAN_DBT_DBRP * (1 + db F.CAN_DBT_DTSEG1 + db F.CAN_DBT_DTSEG2)
  let wm := fun (a cap : Nat) => decide (h.fld a F.CAN_TXQ_CFG_WM_LO < h.fld a F.CAN_TXQ_CFG_WM_HI) &&
    decide (h.fld a F.CAN_TXQ_CFG_WM_HI ≤ cap)
  decide (80 ≤ nq) && (!h.canFd n || (decide (10 ≤ dq) && decide (dq ≤ nq))) &&
    decide (nb F.CAN_NBT_NSJW ≤ nb F.CAN_NBT_NTSEG2) && decide (db F.CAN_DBT_DSJW ≤ db F.CAN_DBT_DTSEG2) &&
    (!h.flag (Reg.CAN_CTL n) F.CAN_CTL_TRIPLE || decide (320 ≤ nq)) &&
    (!h.canFd n || decide (40 ≤ dq) || h.flag (Reg.CAN_TDC n) F.CAN_TDC_TDC_EN) &&
    wm (Reg.CAN_TXQ_CFG n) canTxCap && wm (Reg.CAN_RXQ_CFG n) canRxCap

/-- `CAN_START` (R131, R135). -/
def runCanStart (h : Hub) (c : CmdIn) : Ack :=
  let n := c.arg 1
  if 16 ≤ n ∨ c.zeroFrom 2 = false ∨ h.canCfgOk n = false then .refuse sEARG 0 n
  else if (h.can1 n).st ≠ .stopped then .refuse sESTATE (h.can1 n).st.code n
  else .done (h.canTo n .syncing) []

/-- The controller reaches `STOPPED`. -/
def Hub.canStopped (h : Hub) (n : Nat) : Hub :=
  let refs := (h.can1 n).stopRefs
  let h := (h.canTo n .stopped).canEvt n F.CAN_EVT_STOPPED
  let h := h.setCan n { h.can1 n with stopRefs := [], cur := none, rxBusy := false }
  refs.foldl (fun h r => h.answer r sOK []) h

/-- `CAN_STOP` (R133, R134). -/
def runCanStop (h : Hub) (c : CmdIn) : Ack :=
  let n := c.arg 1
  if 16 ≤ n ∨ c.zeroFrom 2 = false then .refuse sEARG 0 n
  else
    let x := h.can1 n
    match x.st with
    | .stopped => .refuse sESTATE 0 n
    | .busOff | .recovering => .done (h.canStopped n) []
    | .stopping => .later (h.setCan n { x with stopRefs := x.stopRefs ++ [c.ref] })
    | _ => .later ((h.setCan n { x with stopRefs := [c.ref] }).canTo n .stopping)

/-- `CAN_STOP_COMPLETE` (R133, R134): the bus is idle, or the frame on it has ended. -/
def Hub.canStopComplete (h : Hub) (n : Nat) : Hub :=
  let x := h.can1 n
  if x.st = .stopping ∧ x.cur = none ∧ x.rxBusy = false then h.canStopped n else h

/-- `CAN_FLUSH` (R135): bit 0 of the mask names the receive FIFO, bit 1 the transmit queue. -/
def runCanFlush (h : Hub) (c : CmdIn) : Ack :=
  let n := c.arg 1
  let m := c.arg 2
  if 16 ≤ n ∨ 4 ≤ m ∨ c.zeroFrom 3 = false then .refuse sEARG 0 n
  else if (h.can1 n).st ≠ .stopped ∧ (h.can1 n).st ≠ .busOff then .refuse sESTATE (h.can1 n).st.code n
  else
    let h := if testBit m 0 then
        (h.setCan n { h.can1 n with rxq := [], popped := 0, mark := 0, rxc := { (h.can1 n).rxc with high := false } }).setFld
          (Reg.CAN_RXQ_STAT n) F.CAN_RXQ_STAT_WM_CROSS 0
      else h
    let h := if testBit m 1 then
        (h.setCan n { h.can1 n with txq := [], part := none, txc := { (h.can1 n).txc with high := false } }).setFld
          (Reg.CAN_TXQ_STAT n) F.CAN_TXQ_STAT_WM_CROSS 0
      else h
    .done h []

/-- `CAN_RECOVER` (R135). -/
def runCanRecover (h : Hub) (c : CmdIn) : Ack :=
  let n := c.arg 1
  if 16 ≤ n ∨ c.zeroFrom 2 = false then .refuse sEARG 0 n
  else if (h.can1 n).st ≠ .busOff then .refuse sESTATE (h.can1 n).st.code n
  else .done (h.canTo n .recovering) []

/-- `CAN_BUS_INTEGRATED` (R133): 11 consecutive recessive bits. -/
def Hub.canIntegrated (h : Hub) (n : Nat) : Hub :=
  if (h.can1 n).st = .syncing then (h.canTo n .active).canErrState n else h

/-- `CAN_RECOVERY_DONE` (R133): 128 occurrences of 11 recessive bits. -/
def Hub.canRecovered (h : Hub) (n : Nat) : Hub :=
  if (h.can1 n).st = .recovering then (h.setCan n { h.can1 n with tec := 0, rec_ := 0 }).canTo n .active else h

def execCanStart (src : CmdSrc) (tag : Byte) (n : Word) (s : State) : Host.Outcome State Fault Refusal :=
  s.on fun h => h.accept (mkCmd src 0x0701 tag [n]) runCanStart
def execCanStop (src : CmdSrc) (tag : Byte) (n : Word) (s : State) : Host.Outcome State Fault Refusal :=
  s.on fun h => h.accept (mkCmd src 0x0702 tag [n]) runCanStop
def execCanFlush (src : CmdSrc) (tag : Byte) (n mask : Word) (s : State) : Host.Outcome State Fault Refusal :=
  s.on fun h => h.accept (mkCmd src 0x0703 tag [n, mask]) runCanFlush
def execCanRecover (src : CmdSrc) (tag : Byte) (n : Word) (s : State) : Host.Outcome State Fault Refusal :=
  s.on fun h => h.accept (mkCmd src 0x0704 tag [n]) runCanRecover
def execCanStopComplete (n : Fin 16) (s : State) : Host.Outcome State Fault Refusal := s.on fun h => h.canStopComplete n
def execCanBusIntegrated (n : Fin 16) (s : State) : Host.Outcome State Fault Refusal := s.on fun h => h.canIntegrated n
def execCanRecoveryDone (n : Fin 16) (s : State) : Host.Outcome State Fault Refusal := s.on fun h => h.canRecovered n

end Sys2Proof.Machine
end

