-- ==== Sys2Proof/Machine/Car.lean ====
section
/-! DEFINITION. The Carousel engine and the Strum (chapter 06): slots and the calendar, contexts and their jobs, queue handles and
freeze marks, commits, aborts and faults, the Strum's steps, and the Carousel commands. -/

namespace Sys2Proof.Machine

def Hub.ctx (h : Hub) (c : Nat) : Ctx := tget ({} : Ctx) h.car.ctx c
def Hub.setCtx (h : Hub) (c : Nat) (x : Ctx) : Hub := { h with car := { h.car with ctx := tset ({} : Ctx) h.car.ctx c x } }
def Hub.carEvt (h : Hub) (f : Nat × Nat) : Hub := h.evt Reg.CAR_EVT f
def Hub.carRefuse (h : Hub) : Hub := h.carEvt F.CAR_EVT_WRITE_REFUSED

def CtxSt.code : CtxSt → Nat
  | .parked => 0 | .idle => 1 | .ready => 2 | .running => 3 | .waiting => 4 | .faulted => 5

/-- The context counts as stopped (R163). -/
def Ctx.stopped (x : Ctx) : Bool := x.st == .parked || x.st == .faulted

/-- Register `i`: w0 reads as 0 (R186). -/
def Ctx.reg (x : Ctx) (i : Nat) : Word := if i = 0 then 0 else tget 0 x.w i

/-- Write a register: a result written to w0 is discarded (R186). -/
def Ctx.set (x : Ctx) (i : Nat) (v : Word) : Ctx := if i = 0 then x else { x with w := tset 0 x.w i v }

def Hub.ctxGroup (h : Hub) (c : Nat) : Nat := h.fld (Reg.CTX_CFG c) F.CTX_CFG_GROUP
def Hub.ctxValid (h : Hub) (c : Nat) : Bool := h.flag (Reg.CTX_ENTRY c) F.CTX_ENTRY_VALID
def Hub.progLo (h : Hub) (c : Nat) : Nat := h.fld (Reg.CTX_PROG c) F.CTX_PROG_PROG_LO
def Hub.progHi (h : Hub) (c : Nat) : Nat := h.fld (Reg.CTX_PROG c) F.CTX_PROG_PROG_HI
def Hub.progWord (h : Hub) (i : Nat) : Word := tget 0 h.car.prog i
def Hub.deadline100 (h : Hub) (c : Nat) : Nat := (h.rd (Reg.CTX_DEADLINE c)).toNat
/-- User contexts that are not PARKED. -/
def Hub.liveCtx (h : Hub) : List Nat := (h.car.ctx.filter fun x => decide (x.2.st ≠ .parked) && decide (x.1 < 252)).map (·.1)
/-- A `CTX_START` of the context has been accepted and waits for its slot (R179). -/
def Hub.starting (h : Hub) (c : Nat) : Bool := h.car.reqs.any fun r => r.ctx == c && r.start
/-- The context is stopped and no start of it is pending: what the checks of commands and writes look at (log entry 48). -/
def Hub.ctxStopped (h : Hub) (c : Nat) : Bool := (h.ctx c).stopped && !h.starting c
/-- User contexts that are not PARKED, or are about to leave that state. -/
def Hub.usedCtx (h : Hub) : List Nat := h.liveCtx ++ (h.car.reqs.filter fun r => r.start).map (·.ctx)

/-! ## Slots and the calendar (R153 to R158, R181) -/

def Hub.coreCyc (h : Hub) : Nat := h.now / tuCore
def Hub.slotNo (h : Hub) : Nat := h.coreCyc % 1024

/-- Entry of slot `s` in a bank. -/
def Hub.calEntry (h : Hub) (bankB : Bool) (s : Nat) : Nat :=
  bitsN (h.rd (if bankB then Reg.CAL_B (s / 4) else Reg.CAL_A (s / 4))).toNat (8 * (s % 4)) 8

/-- Context named by the present slot. -/
def Hub.slotCtx (h : Hub) : Nat := h.calEntry h.car.bankB h.slotNo

/-- The present slot belongs to context `c` and nothing has issued in it. -/
def Hub.ownsSlot (h : Hub) (c : Nat) : Bool :=
  h.slotCtx == c && h.car.issuedAt != some h.coreCyc && !h.car.withheld.any fun x => x.1 == c && decide (h.coreCyc < x.2)

/-- The slot is used. -/
def Hub.useSlot (h : Hub) : Hub := { h with car := { h.car with issuedAt := some h.coreCyc } }

/-- Reserved context of a slot, if it is one (R158). -/
def reservedSlot (s : Nat) : Option Nat :=
  match s % 128 with
  | 0 => some 252
  | 32 => some 253
  | 64 => some 254
  | _ => none

/-- The bank as a list of entries. -/
def Hub.calBank (h : Hub) (bankB : Bool) : List Nat := (List.range 1024).map fun s => h.calEntry bankB s

/-- First slot of the bank, from slot `s` on, that breaks the reserved entries (reason 1) or lies fewer than 8 slots after one of the same
context (reason 2, R154). `back` holds the seven entries before it. -/
def firstBad : List Nat → List Nat → Nat → Option (Nat × Nat)
  | _, [], _ => none
  | back, e :: es, s =>
    let reserved := match reservedSlot s with
      | some c => e != c
      | none => decide (252 ≤ e) && decide (e ≤ 254)
    if reserved then some (s, 1)
    else if e ≠ 255 ∧ back.contains e = true then some (s, 2)
    else firstBad ((e :: back).take 7) es (s + 1)

/-- The check of `CAL_SWAP` on a bank (R181): the failing slot, the reason, the status. The distance is cyclic, so the last seven entries
come before the first. -/
def Hub.calCheck (h : Hub) (b : List Nat) : Option (Nat × Nat × Nat) :=
  match firstBad (b.drop 1017).reverse b 0 with
  | some (s, r) => some (s, r, sEARG)
  | none =>
    match h.usedCtx.find? fun c => !b.contains c with
    | some c => some (c, 3, sESTATE)
    | none => none

/-- Low 16 bits of `CAR_STAT`. -/
def Hub.carStat (h : Hub) : Nat := bitB h.car.strum + 2 * bitB h.car.bankB + 4 * bitB h.car.swap

/-- What `CAL_SWAP` comes to: the record for `CAR_CAL_CHECK`, which is made although the command is refused, and the answer (R181). -/
def Hub.calJudge (h : Hub) (c : CmdIn) : Option (Nat × Nat) × Ack :=
  if c.zeroFrom 1 = false then (none, .refuse sEARG 0 0)
  else match h.calCheck (h.calBank (!h.car.bankB)) with
    | some (s, r, st) => (some (s, r), .refuse st (if st = sESTATE then (h.ctx s).st.code else 0) (s % 256))
    | none =>
      if h.car.swap then (none, .refuse sESTATE h.carStat 0)
      else (none, .done { h with car := { h.car with swap := true } } [])

/-- `CAL_SWAP` (R181). -/
def Hub.calSwap (h : Hub) (c : CmdIn) : Hub :=
  if h.served c = false then h else
  let j := h.precheck c
  let h := match j, (h.calJudge c).1 with
    | none, some (s, r) =>
      ((h.setFld Reg.CAR_CAL_CHECK F.CAR_CAL_CHECK_SLOT s).setFld Reg.CAR_CAL_CHECK F.CAR_CAL_CHECK_REASON r).carEvt F.CAR_EVT_CAL_REFUSED
    | _, _ => h
  h.accept c fun h c => (h.calJudge c).2

/-- `CAL_SWAP_APPLY` (R181): at slot 0 the checked bank becomes active; a context whose last slot of the old bank lies fewer than 8
slots back is withheld. -/
def Hub.calApply (h : Hub) : Hub :=
  if h.car.swap ∧ h.slotNo = 0 then
    let old := h.calBank h.car.bankB
    let held := (List.range 7).map fun i => (old.getD (1017 + i) 255, h.coreCyc + i + 1)
    { h with car := { h.car with bankB := !h.car.bankB, swap := false, withheld := held.filter fun x => x.1 != 255 } }.carEvt
      F.CAR_EVT_CAL_SWAPPED
  else h

def execCalSwapApply (s : State) : Host.Outcome State Fault Refusal := s.on Hub.calApply
def execCalSwap (src : CmdSrc) (tag : Byte) (s : State) : Host.Outcome State Fault Refusal :=
  s.on fun h => h.calSwap (mkCmd src 0x0404 tag [])

/-- A write of a calendar word (R181): only the inactive bank, and only while no swap is pending. -/
def Hub.calWrite (h : Hub) (bankB : Bool) (j : Nat) (w : Word) : Hub :=
  if bankB = h.car.bankB ∨ h.car.swap = true then h.carRefuse else h.wr (if bankB then Reg.CAL_B j else Reg.CAL_A j) w

def execCalBankWrite (bankB : Bool) (j : Fin 256) (w : Word) (s : State) : Host.Outcome State Fault Refusal :=
  s.on fun h => h.calWrite bankB j w

/-! ## Queue handles (R167 to R170, R197) -/

structure Bind where
  kind : Nat
  id : Nat
  tx : Bool
  deriving DecidableEq, Repr

def Hub.bind (h : Hub) (c i : Nat) : Bind :=
  let a := Reg.CTX_BIND c i
  ⟨h.fld a F.CTX_BIND_KIND, h.fld a F.CTX_BIND_ID, h.flag a F.CTX_BIND_DIR⟩

/-- The enabled handles of a context. -/
def Hub.binds (h : Hub) (c : Nat) : List Bind := ((List.range 16).map (h.bind c)).filter fun b => b.kind != 0

/-- Items a receive handle can still pop: those before the freeze mark. -/
def Hub.qBefore (h : Hub) (b : Bind) : Nat :=
  match b.kind with
  | 1 => min (h.lane b.id).rxq.mark (h.lane b.id).rxq.items.length
  | 2 => min (h.eng b.id).rxq.mark (h.eng b.id).rxq.items.length
  | 3 => min (h.can1 b.id).mark (h.can1 b.id).rxq.length
  | _ => if h.tqOut b.id = 7 then min (h.tq b.id).mark (h.tq b.id).ents.length else 0

/-- Items a receive queue holds, those pushed in this cycle not counted (R234). -/
def Hub.qHeld (h : Hub) (b : Bind) : Nat :=
  match b.kind with
  | 1 => (h.lane b.id).rxq.ready h.now
  | 2 => (h.eng b.id).rxq.ready h.now
  | 3 => (h.can1 b.id).rxq.length - (h.can1 b.id).rxc.putNow h.now
  | _ => if h.tqOut b.id = 7 then ((h.tq b.id).ents.filter fun e => decide (e.at_ < h.now)).length else 0

/-- Put the mark after the first `n` items. -/
def Hub.qMark (h : Hub) (b : Bind) (n : Nat) : Hub :=
  match b.kind with
  | 1 => h.setLane b.id { h.lane b.id with rxq := { (h.lane b.id).rxq with mark := n } }
  | 2 => h.setEng b.id { h.eng b.id with rxq := { (h.eng b.id).rxq with mark := n } }
  | 3 => h.setCan b.id { h.can1 b.id with mark := n }
  | _ => h.setTq b.id { h.tq b.id with mark := n }

def Hub.qIdle (h : Hub) (b : Bind) : Word :=
  match b.kind with
  | 1 => h.rd (Reg.LN_RXQ_IDLE b.id)
  | 2 => h.rd (Reg.FR_RXQ_IDLE b.id)
  | 3 => h.rd (Reg.CAN_RXQ_IDLE b.id)
  | _ => h.rd (Reg.TM_Q_IDLE b.id)

/-- Words of the frame at the head of a delivery queue. -/
def Hub.tqHeadWords (h : Hub) (q : Nat) : List Word :=
  match (h.tq q).ents with
  | e :: _ => deliveredWords (h.frame e.id)
  | [] => []

/-- The next word of a receive handle; none at the mark. -/
def Hub.qNext (h : Hub) (b : Bind) : Option Word :=
  if h.qBefore b = 0 then none else
  match b.kind with
  | 1 => (h.lane b.id).rxq.items.head?
  | 2 => (h.eng b.id).rxq.items.head?
  | 3 => ((h.can1 b.id).rxq.headD []).getD (h.can1 b.id).popped 0 |> some
  | _ => (h.tqHeadWords b.id).getD (h.tq b.id).popped 0 |> some

/-- Remove that word. -/
def Hub.qDrop (h : Hub) (b : Bind) : Hub :=
  match b.kind with
  | 1 => h.setLane b.id { h.lane b.id with rxq := (h.lane b.id).rxq.drop1 h.now }
  | 2 => h.setEng b.id { h.eng b.id with rxq := (h.eng b.id).rxq.drop1 h.now }
  | 3 => (h.canPop b.id).2.2
  | _ =>
    let t := h.tq b.id
    if t.popped + 1 < (h.tqHeadWords b.id).length then h.setTq b.id { t with popped := t.popped + 1 }
    else match t.ents with
      | e :: _ => ((h.setTq b.id { t with popped := 0 }).count (Reg.TM_Q_CNT_TX b.id)).tqRemove b.id e.id
      | [] => h

/-- Credits of a transmit handle. -/
def Hub.qCredit (h : Hub) (b : Bind) : Nat :=
  match b.kind with
  | 1 => (h.lane b.id).txq.credit h.now laneCap
  | 2 => (h.eng b.id).txq.credit h.now (h.frTxCap b.id)
  | 3 =>
    let x := h.can1 b.id
    let part := match x.part with
      | some p => if p.drop then 0 else 1
      | none => 0
    canTxCap - (x.txq.length + part + x.txc.fresh h.now)
  | _ => 0

/-- Push a word; false where it was refused. -/
def Hub.qPush (h : Hub) (c : Nat) (b : Bind) (x : Word) : Bool × Hub :=
  match b.kind with
  | 1 => h.laneTxPush b.id x
  | 2 => h.frTxPush b.id x
  | 3 => h.canTxPush b.id x c
  | _ => (false, h)

/-! ## Ends of a job (R165, R166, R175, R176) -/

/-- CAN entries that the context leaves incomplete at the end of its job (R142). -/
def Hub.jobCan (h : Hub) (c : Nat) : Hub :=
  (List.range 16).foldl (fun h n =>
    match (h.can1 n).part with
    | some p => if p.owner = c ∧ h.fld (Reg.CAN_TXQ_CFG n) F.CAN_TXQ_CFG_PEER = 0 then h.canAbandon n else h
    | none => h) h

/-- Registers w8 to w15 as saved at job entry; a job that has not been entered has changed nothing. -/
def Ctx.restore (x : Ctx) : Ctx :=
  if x.st = .running ∨ x.st = .waiting then { x with w := (x.w.filter fun r => decide (r.1 < 8)) ++ x.saved } else x

/-- The job is over: the context takes state `st`. -/
def Ctx.over (x : Ctx) (st : CtxSt) : Ctx := { x with st := st, stage := [], wait := none, skip := 0, held := false, timed := [] }

/-- Slots addressed by discarded entries get quality bit 13 (R49). -/
def Hub.markLate (h : Hub) (es : List StageEnt) : Hub :=
  es.foldl (fun h e =>
    match e with
    | .pwr a _ _ _ =>
      let r := h.slot (a.toNat % 65536)
      if h.ownNode (a.toNat / 65536) && r.defined then
        h.setSlot (a.toNat % 65536) { r with quality := r.quality ||| 0x2000 }
      else h
    | _ => h) h

/-- The outcome of a job is journaled (R367). -/
def Hub.jobRecord (h : Hub) (c outcome cause : Nat) : Hub := h.jnl 0x0B [word (c + outcome * 2 ^ 8 + cause * 2 ^ 16)]

/-- LATE abort (R176). -/
def Hub.lateAbort (h : Hub) (c : Nat) : Hub :=
  let x := h.ctx c
  let h := h.markLate x.stage
  let h := h.setCtx c { x.restore.over .idle with late := true }
  let g := h.ctxGroup c
  let h := { h with car := { h.car with late := tset 0 h.car.late g (min 0xFFFFFFFF (tget 0 h.car.late g + 1)) } }
  let h := ((h.evt (Reg.CTX_STAT c) F.CTX_STAT_LATE_SEEN).count (Reg.CTX_CNT_LATE c)).count Reg.CAR_CNT_LATE
  ((h.carEvt F.CAR_EVT_LATE).jobCan c).jobRecord c 1 0

/-- A job is in progress that can be late. -/
def Ctx.inJob (x : Ctx) : Bool := x.st == .ready || x.st == .running || x.st == .waiting

/-- The job's deadline has come; the jobs of a standby have none of their own (R369). -/
def Hub.pastDeadline (h : Hub) (c : Nat) : Bool :=
  let x := h.ctx c
  x.inJob && !x.held && h.twin.role != .standby && decide (x.page.deadline ≤ h.baseNs x.page.tb)

/-- `JOB_DEADLINE` (R176). -/
def Hub.jobDeadline (h : Hub) (c : Nat) : Hub := if h.pastDeadline c then h.lateAbort c else h

def execJobDeadline (c : Fin 252) (s : State) : Host.Outcome State Fault Refusal := s.on fun h => h.jobDeadline c

/-- A fault of the instruction at `PC` (R166). -/
def Hub.carFault (h : Hub) (c cause : Nat) : Hub :=
  let x := h.ctx c
  let h := h.setCtx c { x.restore.over .faulted with cause := cause, faultPc := x.pc }
  let h := ((h.evt (Reg.CTX_STAT c) F.CTX_STAT_FAULT_SEEN).count Reg.CAR_CNT_FAULT).carEvt F.CAR_EVT_FAULT
  (h.jobCan c).jobRecord c 2 cause

/-- A `CTX_STOP` takes effect (R165): the job in progress is abandoned and the context becomes PARKED. -/
def Hub.ctxPark (h : Hub) (c : Nat) : Hub :=
  let x := h.ctx c
  let h := if x.inJob then (h.jobCan c).jobRecord c 3 0 else h
  h.setCtx c { x.restore.over .parked with next := none }

/-- The effect of a start or a stop, and its answer. -/
def Hub.ctxReqDo (h : Hub) (r : CtxReq) : Hub :=
  let h := if r.start then h.setCtx r.ctx { h.ctx r.ctx with st := .idle, next := none } else h.ctxPark r.ctx
  h.answer r.ref sOK []

/-- A request takes effect in the present slot: one of context 254, after the acceptance, with the context at an instruction boundary. -/
def Hub.ctxReqDue (h : Hub) (r : CtxReq) : Bool :=
  h.slotCtx == 254 && decide (r.at_ < h.now) && (h.ctx r.ctx).skip == 0

/-- Context 254 applies the requests that are due among those `p` picks, in order of acceptance (R165, R179). -/
def Hub.ctxApply (h : Hub) (p : CtxReq → Bool) : Hub :=
  let due := h.car.reqs.filter fun r => p r && h.ctxReqDue r
  let h : Hub := { h with car := { h.car with reqs := h.car.reqs.filter fun r => !(p r && h.ctxReqDue r) } }
  due.foldl Hub.ctxReqDo h

/-- `CTX_STOP_APPLY` (R165): in a slot of context 254 the context, at an instruction boundary, becomes PARKED. -/
def Hub.ctxStopApply (h : Hub) (c : Nat) : Hub :=
  if (h.car.reqs.any fun r => r.ctx == c && !r.start && h.ctxReqDue r) = true then h.useSlot.ctxApply fun r => r.ctx == c else h

def execCtxStopApply (c : Fin 252) (s : State) : Host.Outcome State Fault Refusal := s.on fun h => h.ctxStopApply c

/-! ## Digest and commit (R47, R174, R175, R202, R203, R255, R374) -/

/-- The 16 bytes that an entry contributes (R374). -/
def Hub.digestBytes (h : Hub) (c : Nat) : StageEnt → List Byte
  | .pwr a v q _ => [byte c, byte (if h.ownNode (a.toNat / 65536) then 1 else 2), 0, 0] ++ beBytes 4 a.toNat ++ beBytes 4 v.toNat ++ beBytes 4 q.toNat
  | .psub e => [byte c, 3, 0, 0] ++ beBytes 4 e ++ beBytes 4 0 ++ beBytes 4 0
  | .femit a b frame flow => [byte c, 4, 0, 0] ++ beBytes 4 (flow + bitB frame * 256) ++ beBytes 4 b.toNat ++ beBytes 4 a.toNat

/-- Feed the entries of a commit to its group's digest. -/
def Hub.digestFeed (h : Hub) (c : Nat) (es : List StageEnt) : Hub :=
  let g := h.ctxGroup c
  match es with
  | [] => h
  | _ =>
    let r := (tget none h.car.digest g).getD poly1.init
    let r := (es.flatMap (h.digestBytes c)).foldl (crcFeed poly1) r
    { h with car := { h.car with digest := tset none h.car.digest g (some r) } }

/-- The digest of a group's Strum. -/
def Hub.digestOf (h : Hub) (g : Nat) : Nat :=
  match tget none h.car.digest g with
  | some r => crcResult poly1 r
  | none => 0

/-- The job is committed: its entries are queued (R175). -/
def Hub.startCommit (h : Hub) (c : Nat) : Hub :=
  let x := h.ctx c
  let due := h.now + (16 + x.stage.length) * tuCore
  let due := match h.car.commits.getLast? with
    | some q => max due q.due
    | none => due
  let h := h.digestFeed c x.stage
  let h := { h with car := { h.car with commits := h.car.commits ++ [({ ctx := c, ents := x.stage, page := x.page, due := due } : Commit)] } }
  let h := h.setCtx c (x.over .idle)
  (h.jobCan c).jobRecord c 0 0

def Hub.commitRefused (h : Hub) : Hub := (h.carEvt F.CAR_EVT_COMMIT_REFUSED).count Reg.CAR_CNT_COMMIT_REFUSED

/-- A staged local write (R45, R46). -/
def Hub.commitLocal (h : Hub) (p : JobPage) : StageEnt → Hub
  | .pwr a v q ts => h.carWrite (a.toNat % 65536) v q.toNat (ts.map (·.toNat)) fun b => if b = p.tb then p.ns else p.bases.getD b 0
  | _ => h

/-- The flow is configured for an emission (R255). -/
def Hub.flowOk (h : Hub) (flow : Nat) (frame : Bool) : Bool :=
  let a := Reg.FLOW_CFG flow
  let dest := h.fld a F.FLOW_CFG_DEST
  let q := h.fld a F.FLOW_CFG_QUEUE
  h.fld a F.FLOW_CFG_KIND == 1 + bitB frame &&
    (h.flag a F.FLOW_CFG_GROUP || (decide (1 ≤ dest) && decide (dest ≤ 0xFE) && dest != h.ring.addr)) &&
    h.tqOn q && h.tqOut q == 2 && (!h.tqLaunch q || h.tqTb q == h.strumTb)

/-- An emission (R202, R255, R256); none where it is refused (R203). -/
def Hub.emission (h : Hub) (p : JobPage) (a b : Word) (frame : Bool) (flow : Nat) : Option Hub :=
  if h.mayOriginate = false ∨ h.ptEnabled = false ∨ h.flowOk flow frame = false then none
  else
    let cfg := Reg.FLOW_CFG flow
    let q := h.fld cfg F.FLOW_CFG_QUEUE
    let dest := h.fld cfg F.FLOW_CFG_DEST
    let group := h.flag cfg F.FLOW_CFG_GROUP
    let launch := if h.tqLaunch q then some ((p.ns + (h.rd (Reg.FLOW_LAUNCH flow)).toNat) % 2 ^ 40) else none
    if frame then
      let data := mread 0 h.car.scratch a.toNat b.toNat
      some (h.originate tFrame 0 dest group flow p.strum 0 q launch none true fun _ => .inl data)
    else
      let slot := a.toNat % 65536
      let n := a.toNat / 65536 % 256
      let alive := h.aliveOf flow
      let recs := h.slots slot n
      let src := h.ring.addr
      some ((h.aliveNext flow).originate tPub 0 dest group flow p.strum alive q launch none true fun ver =>
        .inr { txn := [], alive := alive, src := src, dst := dest, group := group, flow := flow, start := src * 65536 + slot,
               count := n, recs := recs, ver := ver, head := [] })

/-- A staged effect other than a local write. -/
def Hub.commitOther (h : Hub) (p : JobPage) : StageEnt → Hub
  | .pwr a v q ts =>
    let tb := if ts.isSome then q.toNat / 2 ^ 24 % 4 else p.tb
    let t := match ts with
      | some t => t.toNat
      | none => stampOf p.ns
    match h.issueTxn .write 1 (a.toNat / 65536 % 256) (a.toNat % 65536) 1 0 [mkReqRec v q.toNat tb t] none with
    | some h => h
    | none => h.count Reg.PTM_CNT_TXN_NORES
  | .psub e =>
    if h.ring.addr = 0 ∨ h.subOk e = false ∨ h.subSt e = .opening ∨ h.subSt e = .active then h.commitRefused
    else match h.openSub e 1 with
      | some h => h
      | none => h.count Reg.PTM_CNT_TXN_NORES
  | .femit a b frame flow => (h.emission p a b frame flow).getD h.commitRefused

/-- The entry is a write of a local slot. -/
def Hub.isLocal (h : Hub) : StageEnt → Bool
  | .pwr a _ _ _ => h.ownNode (a.toNat / 65536)
  | _ => false

/-- Apply a commit as one step (R47): a publication reads its records after every local write (R202). -/
def Hub.applyCommit (h : Hub) (q : Commit) : Hub :=
  let h := (q.ents.filter h.isLocal).foldl (fun h e => h.commitLocal q.page e) h
  let h := (q.ents.filter fun e => !h.isLocal e).foldl (fun h e => h.commitOther q.page e) h
  let h := ((h.count Reg.PTM_CNT_COMMIT).count Reg.CAR_CNT_COMMIT).count (Reg.CTX_CNT_JOBS q.ctx)
  h.setCtx q.ctx { h.ctx q.ctx with late := false }

/-- `COMMIT_APPLY` (R175): the oldest commit completes when its time has come. -/
def Hub.commitApply (h : Hub) : Hub :=
  match h.car.commits with
  | q :: rest => if q.due ≤ h.now then { h with car := { h.car with commits := rest } }.applyCommit q else h
  | [] => h

def execCommitApply (s : State) : Host.Outcome State Fault Refusal := s.on Hub.commitApply

/-- The standby's digest of a group against the active's (R374, R375). -/
def Hub.digestCheck (h : Hub) (g : Nat) : Hub :=
  let good := h.digestOf g == tget 0 h.car.digWant g
  let h := { h with car := { h.car with digest := tset none h.car.digest g none } }
  if good then { h with twin := { h.twin with digestRun := 0 } }
  else { h with twin := { h.twin with digestRun := min 3 (h.twin.digestRun + 1) } }.count Reg.TWIN_CNT_DIGEST_MISS

/-- On a standby, held commits are released in the order of the `JOB` records, and a digest is compared once the records before it
have been applied (R369, R374). -/
def Hub.jobSettle : Nat → Hub → Hub
  | 0, h => h
  | n + 1, h =>
    match h.car.jobOrder with
    | c :: rest =>
      let h' : Hub := { h with car := { h.car with jobOrder := rest } }
      if 256 ≤ c then Hub.jobSettle n (h'.digestCheck (c - 256))
      else if (h.ctx c).held then Hub.jobSettle n (h'.startCommit c)
      else h
    | [] => h

/-! ## Freeze and start of jobs (R25, R169, R173) -/

/-- Is `k` an edge of group `g` (R23)? -/
def Hub.edgeOf (h : Hub) (k g : Nat) : Bool :=
  let n := h.fld (Reg.CAR_GRP_N g) F.CAR_GRP_N_N
  n != 0 && k % n == 0

/-- The base period in ns. -/
def Hub.strumNs (h : Hub) : Nat := h.fld Reg.CAR_STRUM_BASE F.CAR_STRUM_BASE_PERIOD * 5

/-- Put freeze marks on the receive queues of a group's contexts (R169). -/
def Hub.freezeMarks (h : Hub) (g : Nat) : Hub :=
  (h.liveCtx.filter fun c => h.ctxGroup c == g).foldl (fun h c =>
    (h.binds c).foldl (fun h b => if b.tx then h else h.qMark b (h.qHeld b)) h) h

/-- The page of a job of context `c` at this edge. -/
def Hub.jobPage (h : Hub) (c k ns : Nat) : JobPage :=
  let g := h.ctxGroup c
  { k := k, ns := ns, tb := h.strumTb, strum := k / max 1 (h.fld (Reg.CAR_GRP_N g) F.CAR_GRP_N_N) % 65536,
    deadline := ns + h.deadline100 c * 100, bases := (List.range 4).map h.baseNs,
    dsnap := (List.range 8).flatMap fun b => [h.rd (Reg.LANE_DSNAP_LO g b), h.rd (Reg.LANE_DSNAP_HI g b)],
    view := tget ({} : MirrorView) h.pt.view g }

/-- The context takes the job of its group's edge (R163, R166). -/
def Hub.takesJob (h : Hub) (c : Nat) : Bool :=
  let x := h.ctx c
  x.st == .idle || (x.st == .faulted && h.flag (Reg.CTX_CFG c) F.CTX_CFG_FAULT_RESTART && h.ctxValid c)

/-- Step 3 of R25 for a group. -/
def Hub.startJobs (h : Hub) (g k ns : Nat) : Hub :=
  (h.liveCtx.filter fun c => h.ctxGroup c == g).foldl (fun h c =>
    if h.takesJob c then h.setCtx c { h.ctx c with next := some (h.jobPage c k ns, h.now) } else h) h

/-- `CONTEXT_READY` (R173): 256 cycles after the edge. -/
def Hub.ctxReady (h : Hub) (c : Nat) : Hub :=
  let x := h.ctx c
  match x.next with
  | some (p, t) =>
    if t + 256 * tuCore ≤ h.now then
      if h.takesJob c then h.setCtx c { x with st := .ready, page := p, next := none } else h.setCtx c { x with next := none }
    else h
  | none => h

def execContextReady (c : Fin 252) (s : State) : Host.Outcome State Fault Refusal := s.on fun h => h.ctxReady c

/-- `JOB_ENTRY` (R173): at the context's first slot after READY. -/
def Hub.jobEntry (h : Hub) (c : Nat) : Hub :=
  let x := h.ctx c
  if x.st = .ready ∧ h.ownsSlot c = true ∧ h.pastDeadline c = false then
    let carried := x.w.filter fun r => decide (8 ≤ r.1)
    h.setCtx c { x with st := .running, saved := carried, w := carried, z := false, n := false, c := false, v := false,
                        i := false, l := false, pc := h.fld (Reg.CTX_ENTRY c) F.CTX_ENTRY_ENTRY, stage := [] }
  else h

def execJobEntry (c : Fin 252) (s : State) : Host.Outcome State Fault Refusal := s.on fun h => h.jobEntry c

/-- `SSI_AUTO_READ` (R88). -/
def execSsiAutoRead (n : Fin 96) (s : State) : Host.Outcome State Fault Refusal :=
  s.on fun h => h.ssiAuto n fun g => tget none h.car.edgeAt g

/-! ## Steps of the Strum's base (R178) -/

/-- The Strum's base has been stepped. -/
def Hub.strumStepped (h : Hub) (tb : Nat) (forward : Bool) : Hub :=
  if tb ≠ h.strumTb then h
  else if forward then
    let h := if h.car.strum then
        let k := ceilDiv (h.baseNs tb) (max 1 h.strumNs)
        if h.car.kNext < k then
          ({ h with car := { h.car with kNext := k } }.countN Reg.CAR_CNT_EDGES_SKIPPED (k - h.car.kNext)).carEvt F.CAR_EVT_EDGE_SKIPPED
        else h
      else h
    h.liveCtx.foldl (fun h c => h.jobDeadline c) h
  else if h.car.strum ∧ h.car.produced = true ∧ h.baseNs tb < h.car.k * h.strumNs then h.carEvt F.CAR_EVT_EDGE_HELD
  else h

/-! ## Memories (R159, R160, R162) -/

/-- Contexts whose range covers program word `i`. -/
def Hub.ctxCovering (h : Hub) (i : Nat) : List Nat :=
  (List.range 252).filter fun c => h.ctxValid c && decide (h.progLo c ≤ i) && decide (i ≤ h.progHi c)

/-- A write of a program-store word (R159). -/
def Hub.carProgWrite (h : Hub) (i : Nat) (w : Word) : Hub :=
  let cov := h.ctxCovering i
  if cov.any fun c => !h.ctxStopped c then h.carRefuse
  else cov.foldl (fun h c => h.setFld (Reg.CTX_ENTRY c) F.CTX_ENTRY_VALID 0) { h with car := { h.car with prog := tset 0 h.car.prog i w } }

def execCarProgWrite (i : Half) (w : Word) (s : State) : Host.Outcome State Fault Refusal := s.on fun h => h.carProgWrite i.toNat w

/-- A host's write of word `i` of context `c`'s data (R160). -/
def Hub.ctxDataWrite (h : Hub) (c i : Nat) (w : Word) : Hub :=
  if 252 ≤ c then h
  else if h.ctxStopped c then { h with car := { h.car with data := mwrite 0 h.car.data (0x400 * c + 4 * i) (leBytes 4 w.toNat) } }
  else h.carRefuse

def execCarCtxDataWrite (c : Byte) (i : Byte) (w : Word) (s : State) : Host.Outcome State Fault Refusal :=
  s.on fun h => h.ctxDataWrite c.toNat i.toNat w

/-- A host access to `CAR_SCR_DATA` arrives: a write of a word, or a read, on its own or within a quad-SPI burst. -/
def Hub.scrQueue (h : Hub) (val : Option Word) (burst : Option Burst) (qspi : Bool) : Hub :=
  let a := h.fld Reg.CAR_SCR_ADDR F.CAR_SCR_ADDR_ADDR
  let h := if h.flag Reg.CAR_SCR_ADDR F.CAR_SCR_ADDR_AUTOINC then h.setFld Reg.CAR_SCR_ADDR F.CAR_SCR_ADDR_ADDR (a + 1) else h
  { h with car := { h.car with scr := h.car.scr ++ [({ addr := a, val := val, burst := burst, qspi := qspi } : ScrReq)] } }

/-! ## The end of a slot (R156, R157, R211) -/

/-- Account for the present slot at the end of its cycle. In a slot of context 253 the records built or replayed since the one before are
its work (log entry 48). -/
def Hub.slotCount (h : Hub) : Hub :=
  let c := h.slotCtx
  let idle := fun (h : Hub) => h.count Reg.CAR_CNT_IDLE_SLOTS
  if h.car.issuedAt = some h.coreCyc ∨ c = 252 then h
  else if h.car.withheld.any fun x => x.1 == c && decide (h.coreCyc < x.2) then idle h
  else if c = 255 then idle h
  else if c = 254 then (if h.car.reqs.isEmpty && h.car.scr.isEmpty then idle h else h)
  else if c = 253 then (if h.twin.worked then { h with twin := { h.twin with worked := false } } else idle h)
  else
    let x := h.ctx c
    if 0 < x.skip then h.setCtx c { x with skip := x.skip - 1 }
    else match x.st, x.wait with
      | .waiting, some (.slots (n + 1)) => idle (h.setCtx c { x with wait := some (.slots n) })
      | .running, _ => if x.wokeAt = some h.now then idle h else h
      | _, _ => idle h

/-- The end of a slot: in one of context 254 the starts and stops that are due take effect (R165, R179). -/
def Hub.slotEnd (h : Hub) : Hub := h.slotCount.ctxApply fun _ => true

/-! ## Commands (R163 to R165, R172, R180) -/

/-- Groups whose N is 0. -/
def Hub.groupPeriod100 (h : Hub) (g : Nat) : Nat := h.strumNs * h.fld (Reg.CAR_GRP_N g) F.CAR_GRP_N_N

/-- A binding entry is malformed (R168), apart from repetition. -/
def Bind.bad (b : Bind) : Bool :=
  match b.kind with
  | 1 => decide (96 ≤ b.id)
  | 2 => decide (32 ≤ b.id)
  | 3 => decide (16 ≤ b.id)
  | 4 => b.tx
  | _ => true

def hasRepeat : List Bind → Bool
  | [] => false
  | b :: bs => bs.contains b || hasRepeat bs

/-- A bound queue has a host as its peer, or is not there (R113, R164). -/
def Hub.bindPeer (h : Hub) (b : Bind) : Bool :=
  match b.kind, b.tx with
  | 2, true => h.fld (Reg.FR_TXQ_CFG b.id) F.FR_TXQ_CFG_PEER == 1 || h.frNoTx b.id
  | 2, false => h.fld (Reg.FR_RXQ_CFG b.id) F.FR_RXQ_CFG_PEER == 1 || h.frNoRx b.id
  | 3, true => h.fld (Reg.CAN_TXQ_CFG b.id) F.CAN_TXQ_CFG_PEER == 1
  | 3, false => h.fld (Reg.CAN_RXQ_CFG b.id) F.CAN_RXQ_CFG_PEER == 1
  | _, _ => false

/-- `CTX_START` (R164): context 254 applies it in its next slot (R179). -/
def runCtxStart (h : Hub) (c : CmdIn) : Ack :=
  let n := c.arg 1
  if 252 ≤ n ∨ c.zeroFrom 2 = false then .refuse sEARG 0 n
  else
    let bs := h.binds n
    if h.deadline100 n = 0 ∨ h.groupPeriod100 (h.ctxGroup n) < h.deadline100 n * 100 ∨ bs.any Bind.bad = true ∨ hasRepeat bs = true then
      .refuse sEARG 0 n
    else if h.ctxStopped n = false ∨ h.ctxValid n = false ∨ ((List.range 1024).any fun s => h.calEntry h.car.bankB s == n) = false ∨
        (h.usedCtx.any fun m => m != n && (h.binds m).any bs.contains) = true ∨ bs.any h.bindPeer = true then
      .refuse sESTATE (h.ctx n).st.code n
    else .later { h with car := { h.car with reqs := h.car.reqs ++ [({ ctx := n, start := true, at_ := h.now, ref := c.ref } : CtxReq)] } }

/-- `CTX_STOP` (R165). -/
def runCtxStop (h : Hub) (c : CmdIn) : Ack :=
  let n := c.arg 1
  if 252 ≤ n ∨ c.zeroFrom 2 = false then .refuse sEARG 0 n
  else if (h.ctx n).st = .parked ∧ h.starting n = false then .refuse sESTATE 0 n
  else .later { h with car := { h.car with reqs := h.car.reqs ++ [({ ctx := n, start := false, at_ := h.now, ref := c.ref } : CtxReq)] } }

/-- `STRUM_START` (R172, R372). -/
def runStrumStart (h : Hub) (c : CmdIn) : Ack :=
  let p := h.fld Reg.CAR_STRUM_BASE F.CAR_STRUM_BASE_PERIOD
  if p < 5000 ∨ 200000000 < p ∨ ((List.range 8).any fun g => h.fld (Reg.CAR_GRP_N g) F.CAR_GRP_N_N == 0) = true ∨
      (h.usedCtx.any fun x => decide (h.groupPeriod100 (h.ctxGroup x) < h.deadline100 x * 100)) = true ∨
      (h.twin.role ≠ .solo ∧ h.strumTb = 3) ∨ c.zeroFrom 1 = false then .refuse sEARG 0 0
  else if h.car.strum then .refuse sESTATE h.carStat 0
  else .done { h with car := { h.car with strum := true, kNext := ceilDiv (h.baseNs h.strumTb + 10000) (p * 5), produced := false } } []

/-- `STRUM_STOP` (R172). -/
def runStrumStop (h : Hub) (c : CmdIn) : Ack :=
  if c.zeroFrom 1 = false then .refuse sEARG 0 0
  else if h.car.strum = false then .refuse sESTATE h.carStat 0
  else .done { h with car := { h.car with strum := false } } []

def execCtxStart (src : CmdSrc) (tag : Byte) (c : Word) (s : State) : Host.Outcome State Fault Refusal :=
  s.on fun h => h.accept (mkCmd src 0x0402 tag [c]) runCtxStart
def execCtxStop (src : CmdSrc) (tag : Byte) (c : Word) (s : State) : Host.Outcome State Fault Refusal :=
  s.on fun h => h.accept (mkCmd src 0x0403 tag [c]) runCtxStop
def execStrumStart (src : CmdSrc) (tag : Byte) (s : State) : Host.Outcome State Fault Refusal :=
  s.on fun h => h.accept (mkCmd src 0x0405 tag []) runStrumStart
def execStrumStop (src : CmdSrc) (tag : Byte) (s : State) : Host.Outcome State Fault Refusal :=
  s.on fun h => h.accept (mkCmd src 0x0406 tag []) runStrumStop

end Sys2Proof.Machine
end

