-- ==== Sys2Proof/Machine/Flags.lean ====
section
/-! DEFINITION. Results and flags of the Carousel's arithmetic (R187, R190, R191, R206). -/

namespace Sys2Proof.Machine

/-- What an operation gives: its result, and the carry and overflow where it changes them. Z and N always follow the result. -/
structure AluOut where
  val : Word
  c : Option Bool := none
  v : Option Bool := none
  deriving DecidableEq, Repr

/-- `a + b + cin`: C is the carry out of bit 31, V the signed overflow. -/
def addFlags (a b : Word) (cin : Bool) : AluOut :=
  let r := a + b + word (bitB cin)
  { val := r, c := some (decide (2 ^ 32 ≤ a.toNat + b.toNat + bitB cin)), v := some (a.msb == b.msb && r.msb != a.msb) }

/-- `a - b - (1 - cin)`: C is 1 when there is no borrow. -/
def subFlags (a b : Word) (cin : Bool) : AluOut := addFlags a (~~~ b) cin

/-- Shifts by `s` below 32: C takes the last bit shifted out and is unchanged when `s` is 0. -/
def shlFlags (a : Word) (s : Nat) : AluOut := { val := a <<< s, c := if s = 0 then none else some (a.getLsbD (32 - s)) }
def shrFlags (a : Word) (s : Nat) : AluOut := { val := a >>> s, c := if s = 0 then none else some (a.getLsbD (s - 1)) }
def sarFlags (a : Word) (s : Nat) : AluOut := { val := a.sshiftRight s, c := if s = 0 then none else some (a.getLsbD (s - 1)) }

/-- Number of leading zero bits of the low `n` bits. -/
def clz : Nat → Nat → Nat
  | 0, _ => 0
  | n + 1, x => if testBit x n then 0 else clz n x + 1

/-- The ALU operation of `fn`[13:10] on `a`, `b` with carry `c` and parameter `p` (R190). -/
def aluOp (op : Nat) (a b : Word) (c : Bool) (p : Nat) : AluOut :=
  let s := if testBit p 5 then p % 32 else b.toNat % 32
  let pos := p % 32
  let w := p / 32 % 32 + 1
  let mask := word (2 ^ w - 1)
  match op with
  | 0 => addFlags a b false
  | 1 => subFlags a b true
  | 2 => addFlags a b c
  | 3 => subFlags a b c
  | 4 => { val := a &&& b }
  | 5 => { val := a ||| b }
  | 6 => { val := a ^^^ b }
  | 7 => shlFlags a s
  | 8 => shrFlags a s
  | 9 => sarFlags a s
  | 10 => { val := word (a.toNat % 65536 * (b.toNat % 65536)) }
  | 11 => { val := BitVec.ofInt 32 (toSigned 16 a.toNat * toSigned 16 b.toNat) }
  | 12 => { val := word (clz 32 a.toNat) }
  | 13 => { val := (a >>> pos) &&& mask }
  | 14 => { val := BitVec.ofInt 32 (toSigned w ((a >>> pos) &&& mask).toNat) }
  | _ => { val := (a &&& ~~~ (mask <<< pos)) ||| ((b &&& mask) <<< pos) }

/-- Take up the flags of an operation (R187, R190). -/
def Ctx.flags (x : Ctx) (r : AluOut) : Ctx :=
  { x with z := r.val == 0, n := r.val.msb, c := r.c.getD x.c, v := r.v.getD x.v }

/-- Branch condition by code (R192). -/
def Ctx.cond (x : Ctx) (code : Nat) : Bool :=
  match code with
  | 0 => true
  | 1 => x.z
  | 2 => !x.z
  | 3 => x.n != x.v
  | 4 => x.n == x.v
  | 5 => x.z || x.n != x.v
  | 6 => !x.z && x.n == x.v
  | 7 => !x.c
  | 8 => x.c
  | 9 => !x.c || x.z
  | 10 => x.c && !x.z
  | 11 => x.n
  | 12 => !x.n
  | 13 => x.i
  | 14 => !x.i
  | _ => x.l

end Sys2Proof.Machine
end

