-- ==== Sys2Proof/Machine/Operands.lean ====
section
/-! DEFINITION. The words of the Carousel's program store: fields, forms and which words are defined (R184, R185, R189 to R212). -/

namespace Sys2Proof.Machine

def fOp (x : Word) : Nat := bitsN x.toNat 26 6
def fRd (x : Word) : Nat := bitsN x.toNat 22 4
def fRs1 (x : Word) : Nat := bitsN x.toNat 18 4
def fRs2 (x : Word) : Nat := bitsN x.toNat 14 4
def fFn (x : Word) : Nat := bitsN x.toNat 0 14
def fSz (x : Word) : Nat := bitsN x.toNat 16 2
def fImm (x : Word) : Nat := bitsN x.toNat 0 16

/-- The immediate, sign-extended. -/
def fSimm (x : Word) : Word := BitVec.ofInt 32 (toSigned 16 (fImm x))

/-- A word of the ALU group is defined (R190): a parameter or register field that the operation does not use is 0. -/
def aluDefined (x : Word) : Bool :=
  let o := fFn x / 1024
  let p := fFn x % 1024
  if o = 7 ∨ o = 8 ∨ o = 9 then p / 64 == 0 && (if testBit p 5 then fRs2 x == 0 else p % 32 == 0)
  else if 13 ≤ o then decide (p % 32 + p / 32 + 1 ≤ 32) && (o == 15 || fRs2 x == 0)
  else p == 0 && (o != 12 || fRs2 x == 0)

/-- The word is a defined instruction (R185). -/
def wordDefined (x : Word) : Bool :=
  let rd0 := fRd x == 0
  let rs10 := fRs1 x == 0
  let rs20 := fRs2 x == 0
  let sz0 := fSz x == 0
  match fOp x with
  | 0x00 => aluDefined x
  | 0x01 | 0x02 | 0x03 | 0x04 => sz0
  | 0x05 => sz0 && rs10
  | 0x06 => sz0 && rd0
  | 0x08 | 0x09 => sz0 && rs10
  | 0x0A => rs20 && fFn x == 0
  | 0x10 | 0x11 | 0x12 | 0x13 => fSz x != 3
  | 0x18 | 0x19 | 0x1A | 0x1B => sz0 && rs10 && decide (fImm x < 16)
  | 0x20 => decide (fFn x < 2)
  | 0x21 => bitsN (fFn x) 1 6 == 0
  | 0x22 => rd0 && rs20 && fFn x == 0
  | 0x23 => rd0 && decide (fFn x < 512)
  | 0x28 => rd0 && rs20 && decide (fFn x < 16)
  | 0x29 => rd0 && rs20 && decide (fFn x < 32)
  | 0x2A => rs10 && rs20 && decide (fFn x < 32)
  | 0x30 => rs10 && rs20 && decide (fFn x < 4) && decide (1 ≤ fRd x) && decide (fRd x ≤ 14)
  | 0x31 => decide (fFn x < 4)
  | 0x38 => sz0 && rs10
  | 0x39 => rd0 && decide (fFn x < 4)
  | 0x3A => sz0 && rd0 && rs10 && fImm x != 0
  | 0x3C => x.toNat % 2 ^ 26 == 0
  | 0x3D => sz0 && rd0 && rs10 && decide (fImm x < 128)
  | _ => false

/-- The fixed target of a branch word. -/
def fixedTarget (x : Word) : Option Nat := if fOp x = 0x08 ∨ fOp x = 0x09 then some (fImm x) else none

/-- Which instruction a word spells: the opcode, and the operation within the ALU group. -/
def rowOf (x : Word) : Nat × Nat := (fOp x, if fOp x = 0 then fFn x / 1024 else 0)

/-- Address of a load or store (R194). -/
def memAddr (base : Word) (x : Word) : Nat := (base + fSimm x).toNat

end Sys2Proof.Machine
end

