-- ==== Sys2Proof/Machine/Isa.lean ====
section
/-! DEFINITION. The Carousel instruction set (chapter 07). An instruction row names the context; its operands stand in the program word at the
context's `PC`. The row happens only in a slot of a context that runs and stands at such a word; a word that cannot be executed
faults whichever row is asked for. -/

namespace Sys2Proof.Machine

/-- Fault causes (R166). -/
def fltIllegal : Nat := 0x01
def fltPcRange : Nat := 0x02
def fltLocal : Nat := 0x03
def fltShared : Nat := 0x04
def fltAlign : Nat := 0x05
def fltQueue : Nat := 0x06
def fltStage : Nat := 0x07
def fltPoint : Nat := 0x08
def fltSnoop : Nat := 0x09
def fltEcc : Nat := 0x0A

/-- What an instruction comes to. -/
inductive IsaRes where
  /-- It completes, with its slot cost. -/
  | done (h : Hub) (cost : Nat)
  | goto (h : Hub) (pc : Nat)
  | fault (cause : Nat)
  /-- It waits, or on a standby waits for the active's result. -/
  | wait (h : Hub) (w : Wait)
  | stall
  /-- It ends the job. -/
  | endJob

/-- The context goes on after the instruction at `PC` (R188). -/
def Hub.advance (h : Hub) (c : Nat) : Hub :=
  let x := h.ctx c
  if h.progHi c < x.pc + 1 then h.carFault c fltPcRange else h.setCtx c { x with pc := x.pc + 1 }

/-- Carry an instruction's result out. -/
def Hub.isaFinish (h : Hub) (c : Nat) : IsaRes → Hub
  | .done h' cost => (h'.setCtx c { h'.ctx c with skip := cost - 1 }).useSlot.advance c
  | .goto h' pc => (h'.setCtx c { h'.ctx c with pc := pc }).useSlot
  | .fault cause => h.useSlot.carFault c cause
  | .wait h' w => (h'.setCtx c { h'.ctx c with st := .waiting, wait := some w }).useSlot
  | .stall => h
  | .endJob =>
    let h := h.useSlot
    if h.twin.role = .standby then
      let h := h.setCtx c { h.ctx c with held := true }
      h.jobSettle (h.car.jobOrder.length)
    else h.startCommit c

/-- Less than a tenth of the deadline remains (R173). -/
def Hub.nearDeadline (h : Hub) (c : Nat) : Bool :=
  let p := (h.ctx c).page
  decide (p.deadline < h.baseNs p.tb + h.deadline100 c * 10)

/-- Context `c` issues the instruction at its `PC` in its slot when that is the row's (R153, R173, R185, R534). -/
def Hub.issue (h : Hub) (c : Nat) (row : Nat × Nat) (act : Hub → Ctx → Word → IsaRes) : Hub :=
  let x := h.ctx c
  if x.st ≠ .running ∨ x.held = true ∨ x.skip ≠ 0 ∨ x.wokeAt = some h.now ∨ h.ownsSlot c = false then h
  else if h.pastDeadline c then h.lateAbort c
  else
    let i := h.progWord x.pc
    let bad := h.car.bad.contains x.pc
    if bad || !wordDefined i || rowOf i == row then
      let x := { x with l := h.nearDeadline c }
      let h := h.setCtx c x
      h.isaFinish c (if bad then .fault fltEcc else if !wordDefined i then .fault fltIllegal else act h x i)
    else h

/-- An instruction that only changes the context. -/
def Hub.put (h : Hub) (c : Nat) (x : Ctx) : IsaRes := .done (h.setCtx c x) 1

/-! ## Arithmetic, branches and calls (R190 to R193) -/

/-- An operation of the ALU group. -/
def Hub.isaAlu (h : Hub) (c op : Nat) : Hub :=
  h.issue c (0, op) fun h x i =>
    let r := aluOp op (x.reg (fRs1 i)) (x.reg (fRs2 i)) x.c (fFn i % 1024)
    h.put c ((x.flags r).set (fRd i) r.val)

/-- An I-form ALU instruction. -/
def Hub.isaImm (h : Hub) (c op : Nat) (f : Word → Word → AluOut) : Hub :=
  h.issue c (op, 0) fun h x i =>
    let r := f (x.reg (fRs1 i)) i
    h.put c ((x.flags r).set (fRd i) r.val)

def execAdd (c : Byte) (s : State) : Host.Outcome State Fault Refusal := s.on fun h => h.isaAlu c.toNat 0
def execSub (c : Byte) (s : State) : Host.Outcome State Fault Refusal := s.on fun h => h.isaAlu c.toNat 1
def execAdc (c : Byte) (s : State) : Host.Outcome State Fault Refusal := s.on fun h => h.isaAlu c.toNat 2
def execSbc (c : Byte) (s : State) : Host.Outcome State Fault Refusal := s.on fun h => h.isaAlu c.toNat 3
def execAnd (c : Byte) (s : State) : Host.Outcome State Fault Refusal := s.on fun h => h.isaAlu c.toNat 4
def execOr (c : Byte) (s : State) : Host.Outcome State Fault Refusal := s.on fun h => h.isaAlu c.toNat 5
def execXor (c : Byte) (s : State) : Host.Outcome State Fault Refusal := s.on fun h => h.isaAlu c.toNat 6
def execShl (c : Byte) (s : State) : Host.Outcome State Fault Refusal := s.on fun h => h.isaAlu c.toNat 7
def execShr (c : Byte) (s : State) : Host.Outcome State Fault Refusal := s.on fun h => h.isaAlu c.toNat 8
def execSar (c : Byte) (s : State) : Host.Outcome State Fault Refusal := s.on fun h => h.isaAlu c.toNat 9
def execMulu (c : Byte) (s : State) : Host.Outcome State Fault Refusal := s.on fun h => h.isaAlu c.toNat 10
def execMuls (c : Byte) (s : State) : Host.Outcome State Fault Refusal := s.on fun h => h.isaAlu c.toNat 11
def execClz (c : Byte) (s : State) : Host.Outcome State Fault Refusal := s.on fun h => h.isaAlu c.toNat 12
def execBfx (c : Byte) (s : State) : Host.Outcome State Fault Refusal := s.on fun h => h.isaAlu c.toNat 13
def execBfxs (c : Byte) (s : State) : Host.Outcome State Fault Refusal := s.on fun h => h.isaAlu c.toNat 14
def execBfi (c : Byte) (s : State) : Host.Outcome State Fault Refusal := s.on fun h => h.isaAlu c.toNat 15

def execAddi (c : Byte) (s : State) : Host.Outcome State Fault Refusal :=
  s.on fun h => h.isaImm c.toNat 0x01 fun a i => addFlags a (fSimm i) false
def execAndi (c : Byte) (s : State) : Host.Outcome State Fault Refusal :=
  s.on fun h => h.isaImm c.toNat 0x02 fun a i => { val := a &&& word (fImm i) }
def execOri (c : Byte) (s : State) : Host.Outcome State Fault Refusal :=
  s.on fun h => h.isaImm c.toNat 0x03 fun a i => { val := a ||| word (fImm i) }
def execXori (c : Byte) (s : State) : Host.Outcome State Fault Refusal :=
  s.on fun h => h.isaImm c.toNat 0x04 fun a i => { val := a ^^^ word (fImm i) }
def execLui (c : Byte) (s : State) : Host.Outcome State Fault Refusal :=
  s.on fun h => h.isaImm c.toNat 0x05 fun _ i => { val := word (fImm i * 65536) }
/-- `CMPI` writes nothing: its `rd` field is 0. -/
def execCmpi (c : Byte) (s : State) : Host.Outcome State Fault Refusal :=
  s.on fun h => h.isaImm c.toNat 0x06 fun a i => subFlags a (fSimm i) true

/-- `B` (R192). -/
def Hub.isaB (h : Hub) (c : Nat) : Hub :=
  h.issue c (0x08, 0) fun h x i => if x.cond (fRd i) then .goto h (fImm i) else .done h 1

/-- `JAL` (R193). -/
def Hub.isaJal (h : Hub) (c : Nat) : Hub :=
  h.issue c (0x09, 0) fun h x i => .goto (h.setCtx c (x.set (fRd i) (word (x.pc + 1)))) (fImm i)

/-- `JR` (R193): the link is written after `rs1` is read. -/
def Hub.isaJr (h : Hub) (c : Nat) : Hub :=
  h.issue c (0x0A, 0) fun h x i =>
    let t := (x.reg (fRs1 i)).toNat
    if t < h.progLo c ∨ h.progHi c < t then .fault fltPcRange
    else .goto (h.setCtx c (x.set (fRd i) (word (x.pc + 1)))) t

def execB (c : Byte) (s : State) : Host.Outcome State Fault Refusal := s.on fun h => h.isaB c.toNat
def execJal (c : Byte) (s : State) : Host.Outcome State Fault Refusal := s.on fun h => h.isaJal c.toNat
def execJr (c : Byte) (s : State) : Host.Outcome State Fault Refusal := s.on fun h => h.isaJr c.toNat

/-! ## Loads and stores (R161, R194 to R196) -/

def dataMark (c a : Nat) : Nat := 0x10000 + 256 * c + a / 4
def scratchMark (a : Nat) : Nat := 0x20000 + a / 4

/-- Word `i` of the frozen page of a job (R161). -/
def frozenWord (p : JobPage) (i : Nat) : Word :=
  let t := p.ns % 2 ^ 40
  let d := p.deadline % 2 ^ 40
  match i with
  | 16 => word t
  | 17 => word (t / 2 ^ 32 + p.tb * 256)
  | 18 => word p.strum
  | 19 => word p.k
  | 20 => word d
  | 21 => word (d / 2 ^ 32)
  | _ => p.dsnap.getD i 0

/-- `LDL`. -/
def Hub.isaLdl (h : Hub) (c : Nat) : Hub :=
  h.issue c (0x10, 0) fun h x i =>
    let a := memAddr (x.reg (fRs1 i)) i
    let n := 2 ^ fSz i
    if 0x3FF < a then .fault fltLocal
    else if a % n ≠ 0 then .fault fltAlign
    else if h.car.bad.contains (dataMark c a) then .fault fltEcc
    else h.put c (x.set (fRd i) (word (leNat (mread 0 h.car.data (0x400 * c + a) n))))

/-- `STL`. -/
def Hub.isaStl (h : Hub) (c : Nat) : Hub :=
  h.issue c (0x11, 0) fun h x i =>
    let a := memAddr (x.reg (fRs1 i)) i
    let n := 2 ^ fSz i
    if 0x3FF < a then .fault fltLocal
    else if a % n ≠ 0 then .fault fltAlign
    else .done { h with car := { h.car with data := mwrite 0 h.car.data (0x400 * c + a) (leBytes n (x.reg (fRd i)).toNat) } } 1

/-- `LDS`, which costs 2 slots. -/
def Hub.isaLds (h : Hub) (c : Nat) : Hub :=
  h.issue c (0x12, 0) fun h x i =>
    let a := memAddr (x.reg (fRs1 i)) i
    let n := 2 ^ fSz i
    if 0x20058 ≤ a then .fault fltShared
    else if a % n ≠ 0 then .fault fltAlign
    else if a < 0x20000 then
      if h.car.bad.contains (scratchMark a) then .fault fltEcc
      else .done (h.setCtx c (x.set (fRd i) (word (leNat (mread 0 h.car.scratch a n))))) 2
    else
      let w := frozenWord x.page ((a - 0x20000) / 4)
      .done (h.setCtx c (x.set (fRd i) (word (bitsN w.toNat (8 * (a % 4)) (8 * n))))) 2

/-- `STS`. -/
def Hub.isaSts (h : Hub) (c : Nat) : Hub :=
  h.issue c (0x13, 0) fun h x i =>
    let a := memAddr (x.reg (fRs1 i)) i
    let n := 2 ^ fSz i
    if 0x20000 ≤ a then .fault fltShared
    else if a % n ≠ 0 then .fault fltAlign
    else .done { h with car := { h.car with scratch := mwrite 0 h.car.scratch a (leBytes n (x.reg (fRd i)).toNat) } } 1

def execLdl (c : Byte) (s : State) : Host.Outcome State Fault Refusal := s.on fun h => h.isaLdl c.toNat
def execStl (c : Byte) (s : State) : Host.Outcome State Fault Refusal := s.on fun h => h.isaStl c.toNat
def execLds (c : Byte) (s : State) : Host.Outcome State Fault Refusal := s.on fun h => h.isaLds c.toNat
def execSts (c : Byte) (s : State) : Host.Outcome State Fault Refusal := s.on fun h => h.isaSts c.toNat

/-! ## Results that depend on timing (R207) -/

/-- Journal such a result. -/
def Hub.timedRecord (h : Hub) (c op res : Nat) : Hub := h.jnl 0x09 [word (c + op * 256), word (res / 2 ^ 32 % 256), word res]

/-- On a standby, take the active's result for the instruction; none where it has not arrived. -/
def Hub.timedTake (h : Hub) (c op : Nat) : Option (Nat × Hub) :=
  let x := h.ctx c
  match x.timed with
  | (o, r) :: rest => if o = op then some (r, h.setCtx c { x with timed := rest }) else none
  | [] => none

/-- A timed result: the hub's own, journaled, or on a standby the active's. -/
def Hub.timed (h : Hub) (c op own : Nat) (k : Hub → Nat → IsaRes) : IsaRes :=
  if h.twin.role = .standby then
    match h.timedTake c op with
    | some (r, h) => k h r
    | none => .stall
  else k (h.timedRecord c op own) own

/-! ## Queues (R197, R198) -/

/-- A receive handle is read; `pop` removes the word. -/
def Hub.isaPop (h : Hub) (c op : Nat) (pop : Bool) : Hub :=
  h.issue c (op, 0) fun h x i =>
    let b := h.bind c (fImm i % 16)
    if b.kind = 0 ∨ b.tx = true then .fault fltQueue
    else match h.qNext b with
      | some w => let h := if pop then h.qDrop b else h; h.put c ({ x with i := false }.set (fRd i) w)
      | none => h.put c ({ x with i := true }.set (fRd i) (h.qIdle b))

/-- `QPUSH`. -/
def Hub.isaQpush (h : Hub) (c : Nat) : Hub :=
  h.issue c (0x1A, 0) fun h x i =>
    let b := h.bind c (fImm i % 16)
    if b.kind = 0 ∨ b.tx = false then .fault fltQueue
    else match h.qPush c b (x.reg (fRd i)) with
      | (true, h) => h.put c { x with c := false }
      | (false, h) => (h.carEvt F.CAR_EVT_CREDIT_OVERRUN).put c { x with c := true }

/-- `QCRED`. -/
def Hub.isaQcred (h : Hub) (c : Nat) : Hub :=
  h.issue c (0x1B, 0) fun h _ i =>
    let b := h.bind c (fImm i % 16)
    if b.kind = 0 then .fault fltQueue
    else h.timed c 0x1B (if b.tx then h.qCredit b else h.qBefore b) fun h r =>
      let x := h.ctx c
      h.put c ({ x with z := r % 2 ^ 32 == 0 }.set (fRd i) (word r))

def execQpop (c : Byte) (s : State) : Host.Outcome State Fault Refusal := s.on fun h => h.isaPop c.toNat 0x18 true
def execQpeek (c : Byte) (s : State) : Host.Outcome State Fault Refusal := s.on fun h => h.isaPop c.toNat 0x19 false
def execQpush (c : Byte) (s : State) : Host.Outcome State Fault Refusal := s.on fun h => h.isaQpush c.toNat
def execQcred (c : Byte) (s : State) : Host.Outcome State Fault Refusal := s.on fun h => h.isaQcred c.toNat

/-! ## Points and frames (R199 to R203) -/

/-- The record that `PRD` returns (R50, R51). -/
def Hub.prdRec (h : Hub) (p : JobPage) (a : Nat) : Rec :=
  let node := a / 65536 % 256
  let slot := a % 65536
  if h.ownNode node then h.slot slot
  else match p.view.cover.find? fun v => v.node == node && decide (v.start ≤ slot) && decide (slot < v.start + v.count) with
    | some v => tget ({} : Rec) p.view.mir (v.base + (slot - v.start))
    | none => { quality := 0x0011 }

/-- The record is defined, valid and unmarked (R199). -/
def Rec.good (r : Rec) : Bool := r.defined && r.quality.toNat % 4 == 0 && r.quality.toNat / 2 ^ 13 == 0

/-- `PRD`, which costs 2 slots. -/
def Hub.isaPrd (h : Hub) (c : Nat) : Hub :=
  h.issue c (0x20, 0) fun h x i =>
    let a := (x.reg (fRs1 i)).toNat
    let at_ := (x.reg (fRs2 i)).toNat
    let rec_ := testBit (fFn i) 0
    if 2 ^ 24 ≤ a ∨ a / 65536 = 0xFF then .fault fltPoint
    else if rec_ = true ∧ 0x3F0 < at_ then .fault fltLocal
    else if rec_ = true ∧ at_ % 16 ≠ 0 then .fault fltAlign
    else
      let r := h.prdRec x.page a
      let h := if rec_ then
          { h with car := { h.car with data := mwrite 0 h.car.data (0x400 * c + at_) (r.words.flatMap fun w => leBytes 4 w.toNat) } } else h
      .done (h.setCtx c ({ x with z := r.good }.set (fRd i) r.value)) 2

/-- Stage an effect (R203). -/
def Hub.stage (h : Hub) (c : Nat) (x : Ctx) (e : StageEnt) : IsaRes :=
  if 64 ≤ x.stage.length then .fault fltStage else h.put c { x with stage := x.stage ++ [e] }

/-- `PWR` (R200). A local address is kept with node field 0 (R33). -/
def Hub.isaPwr (h : Hub) (c : Nat) : Hub :=
  h.issue c (0x21, 0) fun h x i =>
    let a := (x.reg (fRs1 i)).toNat
    let own := h.ownNode (a / 65536)
    let tsx := testBit (fFn i) 0
    let at_ := 8 * bitsN (fFn i) 7 7
    if 2 ^ 24 ≤ a ∨ a / 65536 = 0xFF ∨ (own = true ∧ 0xFF00 ≤ a % 65536) then .fault fltPoint
    else if 64 ≤ x.stage.length then .fault fltStage
    else if tsx = true ∧ (h.car.bad.contains (dataMark c at_) || h.car.bad.contains (dataMark c (at_ + 4))) = true then .fault fltEcc
    else
      let ts := if tsx then some (BitVec.ofNat 64 (leNat (mread 0 h.car.data (0x400 * c + at_) 8))) else none
      h.stage c x (.pwr (word (if own then a % 65536 else a)) (x.reg (fRs2 i)) (x.reg (fRd i)) ts)

/-- `PSUB` (R201). -/
def Hub.isaPsub (h : Hub) (c : Nat) : Hub :=
  h.issue c (0x22, 0) fun h x i =>
    let e := (x.reg (fRs1 i)).toNat
    if 4095 < e then .fault fltPoint else h.stage c x (.psub e)

/-- `FEMIT` (R202). -/
def Hub.isaFemit (h : Hub) (c : Nat) : Hub :=
  h.issue c (0x23, 0) fun h x i =>
    let a := (x.reg (fRs1 i)).toNat
    let b := (x.reg (fRs2 i)).toNat
    let frame := testBit (fFn i) 8
    let n := a / 65536
    if frame = false ∧ (2 ^ 24 ≤ a ∨ n = 0 ∨ 122 < n ∨ 0xFF00 < a % 65536 + n) then .fault fltPoint
    else if frame = true ∧ (b = 0 ∨ 1024 < b ∨ 0x20000 < a + b) then .fault fltShared
    else if frame = true ∧ a % 4 ≠ 0 then .fault fltAlign
    else h.stage c x (.femit (word a) (word b) frame (fFn i % 256))

def execPrd (c : Byte) (s : State) : Host.Outcome State Fault Refusal := s.on fun h => h.isaPrd c.toNat
def execPwr (c : Byte) (s : State) : Host.Outcome State Fault Refusal := s.on fun h => h.isaPwr c.toNat
def execPsub (c : Byte) (s : State) : Host.Outcome State Fault Refusal := s.on fun h => h.isaPsub c.toNat
def execFemit (c : Byte) (s : State) : Host.Outcome State Fault Refusal := s.on fun h => h.isaFemit c.toNat

/-! ## Check values (R204) -/

/-- Unit `u` is attached to the context's own stream. -/
def Hub.snoopMine (h : Hub) (c u : Nat) : Bool :=
  h.fld (Reg.SNP_CFG u) F.SNP_CFG_SRC == 6 && h.fld (Reg.SNP_CFG u) F.SNP_CFG_ID == c

/-- Feed bytes to a unit that is enabled. -/
def Hub.snoopGive (h : Hub) (c u : Nat) (bs : List Byte) : Hub := if h.snoopOn 6 c 0 u then h.snoopFeed u bs else h

/-- `CRCB`. -/
def Hub.isaCrcb (h : Hub) (c : Nat) : Hub :=
  h.issue c (0x28, 0) fun h x i =>
    let u := fFn i % 16
    if h.snoopMine c u then .done (h.snoopGive c u [byte (x.reg (fRs1 i)).toNat]) 1 else .fault fltSnoop

/-- `CRCW`. -/
def Hub.isaCrcw (h : Hub) (c : Nat) : Hub :=
  h.issue c (0x29, 0) fun h x i =>
    let u := fFn i % 16
    let v := (x.reg (fRs1 i)).toNat
    if h.snoopMine c u then .done (h.snoopGive c u (if testBit (fFn i) 4 then leBytes 4 v else beBytes 4 v)) 1 else .fault fltSnoop

/-- Unit `u` is read into register `rd` of context `c`; with `init` its computation ends. -/
def Hub.snoopAsk (h : Hub) (c rd u : Nat) (init : Bool) : Hub :=
  let h := h.setSnoop u { h.snoop u with read := some (h.now, c, rd) }
  if init then h.snoopEnd u true false else h

/-- At the end of a cycle what was read or copied in it takes the bytes that came after the read (R204, R221). -/
def Hub.snoopSettle (h : Hub) (u : Nat) : Hub :=
  let x := h.snoop u
  let r := word (h.snoopOut u)
  let h := match x.ended h.now with
    | some d => if d.init && d.last then h.wr (Reg.SNP_LAST u) r else h
    | none => h
  match x.read with
  | some (t, c, rd) => if t = h.now ∧ (h.ctx c).st = .running then h.setCtx c ({ h.ctx c with z := r == 0 }.set rd r) else h
  | none => h

/-- `CRCR`. -/
def Hub.isaCrcr (h : Hub) (c : Nat) : Hub :=
  h.issue c (0x2A, 0) fun h x i =>
    let u := fFn i % 16
    let init := testBit (fFn i) 4
    if init = true ∧ h.snoopMine c u = false then .fault fltSnoop
    else
      let h := h.snoopAsk c (fRd i) u init
      let r := word (h.snoopOut u)
      h.put c ({ x with z := r == 0 }.set (fRd i) r)

def execCrcb (c : Byte) (s : State) : Host.Outcome State Fault Refusal := s.on fun h => h.isaCrcb c.toNat
def execCrcw (c : Byte) (s : State) : Host.Outcome State Fault Refusal := s.on fun h => h.isaCrcw c.toNat
def execCrcr (c : Byte) (s : State) : Host.Outcome State Fault Refusal := s.on fun h => h.isaCrcr c.toNat

/-! ## Time (R205, R206) -/

/-- `TNOW`. -/
def Hub.isaTnow (h : Hub) (c : Nat) : Hub :=
  h.issue c (0x30, 0) fun h _ i =>
    h.timed c 0x30 (h.short (fFn i % 4)) fun h r =>
      h.put c (((h.ctx c).set (fRd i) (word r)).set (fRd i + 1) (word (r / 2 ^ 32 % 256)))

/-- The 40-bit target in two registers. -/
def Ctx.target (x : Ctx) (i : Word) : Nat := (x.reg (fRs1 i)).toNat + (x.reg (fRs2 i)).toNat % 256 * 2 ^ 32

/-- Now less a target, as a signed 40-bit value (R206). -/
def Hub.since (h : Hub) (tb target : Nat) : Int := toSigned 40 (h.short tb + 2 ^ 40 - target % 2 ^ 40)

/-- `TCMP`: the saturated difference also gives the flags. -/
def Hub.isaTcmp (h : Hub) (c : Nat) : Hub :=
  h.issue c (0x31, 0) fun h x i =>
    let d := max (-2 ^ 31) (min (2 ^ 31 - 1) (h.since (fFn i % 4) (x.target i)))
    h.timed c 0x31 (ofSigned 32 d) fun h r =>
      let r := word r
      h.put c ({ h.ctx c with z := r == 0, n := r.msb, c := !r.msb, v := false }.set (fRd i) r)

def execTnow (c : Byte) (s : State) : Host.Outcome State Fault Refusal := s.on fun h => h.isaTnow c.toNat
def execTcmp (c : Byte) (s : State) : Host.Outcome State Fault Refusal := s.on fun h => h.isaTcmp c.toNat

/-! ## Waiting and the end of the job (R170, R208 to R212) -/

/-- Opcode of a wait, for the journal. -/
def Wait.op : Wait → Nat
  | .queue _ _ => 0x38
  | .until_ _ _ => 0x39
  | .slots _ => 0x3A

/-- The condition of a wait holds (R209 to R211). -/
def Hub.waitMet (h : Hub) (c : Nat) : Wait → Bool
  | .queue q _ =>
    let b := h.bind c q
    if b.tx then decide (0 < h.qCredit b)
    else
      let mark := match b.kind with
        | 1 => (h.lane b.id).rxq.mark
        | 2 => (h.eng b.id).rxq.mark
        | 3 => (h.can1 b.id).mark
        | _ => (h.tq b.id).mark
      decide (mark < h.qHeld b)
  | .until_ tb t => decide (0 ≤ h.since tb t)
  | .slots n => n == 0

/-- The limit of a wait has come. -/
def Hub.waitLimit (h : Hub) : Wait → Bool
  | .queue _ (some t) => decide (t ≤ h.now)
  | _ => false

/-- The wait ends by its condition, which moves a receive handle's mark and travels the journal (R170), or by its limit. -/
def Hub.waitDone (h : Hub) (c : Nat) (w : Wait) (met : Bool) : Hub :=
  match w with
  | .queue q _ =>
    let b := h.bind c q
    let h := if met && !b.tx && h.twin.role != .standby then
        let n := h.qHeld b
        (h.qMark b n).jnl 0x0A [word (c + q * 256), word n]
      else h
    h.setCtx c { h.ctx c with z := met }
  | _ => h

/-- Begin a wait, or complete at once (R208). -/
def Hub.beginWait (h : Hub) (c : Nat) (w : Wait) : IsaRes :=
  if h.twin.role = .standby then
    match h.timedTake c w.op with
    | some (r, h) => .done (h.waitDone c w (r != 0)) 1
    | none => .wait h w
  else if h.waitMet c w then .done ((h.waitDone c w true).timedRecord c w.op 1) 1
  else .wait h w

/-- `WAITQ`. -/
def Hub.isaWaitq (h : Hub) (c : Nat) : Hub :=
  h.issue c (0x38, 0) fun h _ i =>
    if (h.bind c (fRd i)).kind = 0 then .fault fltQueue
    else h.beginWait c (.queue (fRd i) (if fImm i = 0 then none else some (h.now + fImm i * 100 * tuNs)))

/-- `WAITT`. -/
def Hub.isaWaitt (h : Hub) (c : Nat) : Hub := h.issue c (0x39, 0) fun h x i => h.beginWait c (.until_ (fFn i % 4) (x.target i))

/-- `YIELD`. -/
def Hub.isaYield (h : Hub) (c : Nat) : Hub := h.issue c (0x3A, 0) fun h _ i => h.beginWait c (.slots (fImm i))

/-- `WAIT_END` (R208): the condition, which wins, or the limit is met; the context runs on after the instruction, from its first slot after this
cycle. -/
def Hub.waitEnd (h : Hub) (c : Nat) : Hub :=
  let x := h.ctx c
  match x.st, x.wait with
  | .waiting, some w =>
    let go := fun (h : Hub) => (h.setCtx c { h.ctx c with st := .running, wait := none, wokeAt := some h.now }).advance c
    if h.pastDeadline c then h.lateAbort c
    else if h.twin.role = .standby then
      match h.timedTake c w.op with
      | some (r, h) => go (h.waitDone c w (r != 0))
      | none => h
    else if h.waitMet c w then go ((h.waitDone c w true).timedRecord c w.op 1)
    else if h.waitLimit w then go ((h.waitDone c w false).timedRecord c w.op 0)
    else h
  | _, _ => h

/-- `DONE`. -/
def Hub.isaDone (h : Hub) (c : Nat) : Hub := h.issue c (0x3C, 0) fun _ _ _ => .endJob

/-- `TRAP`. -/
def Hub.isaTrap (h : Hub) (c : Nat) : Hub := h.issue c (0x3D, 0) fun _ _ i => .fault (0x80 + fImm i % 128)

def execWaitq (c : Byte) (s : State) : Host.Outcome State Fault Refusal := s.on fun h => h.isaWaitq c.toNat
def execWaitt (c : Byte) (s : State) : Host.Outcome State Fault Refusal := s.on fun h => h.isaWaitt c.toNat
def execYield (c : Byte) (s : State) : Host.Outcome State Fault Refusal := s.on fun h => h.isaYield c.toNat
def execWaitEnd (c : Fin 252) (s : State) : Host.Outcome State Fault Refusal := s.on fun h => h.waitEnd c
def execDone (c : Byte) (s : State) : Host.Outcome State Fault Refusal := s.on fun h => h.isaDone c.toNat
def execTrap (c : Byte) (s : State) : Host.Outcome State Fault Refusal := s.on fun h => h.isaTrap c.toNat

/-! ## `CTX_LOAD` (R163) -/

/-- A word of a program range may be loaded. -/
def loadable (lo hi : Nat) (x : Word) : Bool :=
  wordDefined x && (match fixedTarget x with
    | some t => decide (lo ≤ t) && decide (t ≤ hi)
    | none => true)

def runCtxLoad (h : Hub) (c : CmdIn) : Ack :=
  let n := c.arg 1
  let lo := c.arg 2
  let hi := c.arg 3
  let entry := c.arg 4
  if 252 ≤ n ∨ entry < lo ∨ hi < entry ∨ 65535 < hi ∨ c.zeroFrom 5 = false ∨
      ((List.range (hi + 1 - lo)).all fun i => loadable lo hi (h.progWord (lo + i))) = false then .refuse sEARG 0 n
  else if h.ctxStopped n = false then .refuse sESTATE (h.ctx n).st.code n
  else
    let h := (h.wr (Reg.CTX_PROG n) (word (lo + hi * 65536))).wr (Reg.CTX_ENTRY n) (word (entry + 2 ^ 31))
    .done (h.setCtx n { pc := entry, page := (h.ctx n).page, faultPc := (h.ctx n).faultPc }) []

def execCtxLoad (src : CmdSrc) (tag : Byte) (c lo hi entry : Word) (s : State) : Host.Outcome State Fault Refusal :=
  s.on fun h => h.accept (mkCmd src 0x0401 tag [c, lo, hi, entry]) runCtxLoad

end Sys2Proof.Machine
end

