-- ==== Sys2Proof/Machine/Midway.lean ====
section
/-! DEFINITION. Midway (chapter 10): lookups, buffering, VOQs, the crossbar scheduler, generations and `FENCE`, the MAC table and
the auditor. -/

namespace Sys2Proof.Machine

/-! ## The MAC table (R271, R272, R287) -/

def Hub.macEnt (h : Hub) (i : Nat) : MacEnt := tget ({} : MacEnt) h.swc.mac i
def Hub.setMac (h : Hub) (i : Nat) (e : MacEnt) : Hub := { h with swc := { h.swc with mac := tset ({} : MacEnt) h.swc.mac i e } }

/-- The set of an address and VLAN ID. -/
def macSet (mac vid : Nat) : Nat := crc poly0 (beBytes 6 mac ++ beBytes 2 (vid % 4096)) % 1024

/-- The index of the valid entry for a pair. -/
def Hub.macFind (h : Hub) (mac vid : Nat) : Option Nat :=
  let s := macSet mac vid
  ((List.range 4).find? fun w => let e := h.macEnt (4 * s + w); e.valid && e.mac == mac && e.vid == vid).map fun w => 4 * s + w

/-- The lowest free way of a pair's set. -/
def Hub.macFree (h : Hub) (mac vid : Nat) : Option Nat :=
  let s := macSet mac vid
  ((List.range 4).find? fun w => !(h.macEnt (4 * s + w)).valid).map fun w => 4 * s + w

/-- Learning from a standard frame with a good FCS (R272): `p` is the input port. -/
def Hub.macLearn (h : Hub) (p mac vid : Nat) : Hub :=
  if h.flag (Reg.SWC_P_CFG p) F.SWC_P_CFG_LEARN_EN then
    let ports := if p ≤ 1 then 3 else 2 ^ p
    match h.macFind mac vid with
    | some i =>
      let e := h.macEnt i
      if e.static then h else h.setMac i { e with ports := ports, at_ := h.now }
    | none =>
      match h.macFree mac vid with
      | some i => h.setMac i { valid := true, mac := mac, vid := vid, ports := ports, at_ := h.now }
      | none => (h.count Reg.SWC_CNT_MAC_LEARN_FAIL).evt Reg.SWC_EVT F.SWC_EVT_MAC_FULL
  else h

/-- `MAC_AGE_OUT` (R272): entry `i` has not been refreshed for `AGE_S` to 2 * `AGE_S` seconds. -/
def Hub.macAgeOut (h : Hub) (i : Nat) : Hub :=
  let age := h.fld Reg.SWC_MAC_AGE F.SWC_MAC_AGE_AGE_S
  let e := h.macEnt i
  if e.valid && !e.static && age != 0 && decide (e.at_ + age * tuS ≤ h.now) then h.setMac i {} else h

def execMacAgeOut (i : Fin 4096) (s : State) : Host.Outcome State Fault Refusal := s.on fun h => h.macAgeOut i

/-- The pair in the key registers. -/
def Hub.macKey (h : Hub) : Nat × Nat :=
  (h.fld Reg.SWC_MAC_HI F.SWC_MAC_HI_MAC_HI * 2 ^ 32 + (h.rd Reg.SWC_MAC_LO).toNat, h.fld Reg.SWC_MAC_HI F.SWC_MAC_HI_VID)

/-- The command register after an operation: `FOUND`, `FULL`, `WAY`, `SET`; `GO` reads 0 again. -/
def Hub.macDone (h : Hub) (x : MacOp) (found full : Bool) (way : Nat) : Hub :=
  h.wr Reg.SWC_MAC_CMD (word (x.op + bitB found * 8 + bitB full * 16 + way % 4 * 2 ^ 12 + macSet x.mac x.vid * 2 ^ 16))

def MacEnt.dataWord (e : MacEnt) : Word :=
  word (e.ports % 128 + bitB e.static * 128 + bitB e.valid * 256 + bitB e.polEn * 512 + e.pol % 256 * 1024)

/-- `OP` 1 reads the pair's entry into `SWC_MAC_DATA`; a pair without one reads 0. -/
def Hub.macRead (h : Hub) (x : MacOp) : Hub :=
  match h.macFind x.mac x.vid with
  | some i => (h.wr Reg.SWC_MAC_DATA (h.macEnt i).dataWord).macDone x true false i
  | none => (h.wr Reg.SWC_MAC_DATA 0).macDone x false false 0

/-- The entry that a data word describes for a pair. -/
def Hub.macFrom (h : Hub) (x : MacOp) : MacEnt :=
  { valid := bits x.data F.SWC_MAC_DATA_VALID != 0, mac := x.mac, vid := x.vid, ports := bits x.data F.SWC_MAC_DATA_PORTS,
    static := bits x.data F.SWC_MAC_DATA_STATIC != 0, polEn := bits x.data F.SWC_MAC_DATA_POL_EN != 0, pol := bits x.data F.SWC_MAC_DATA_POL,
    at_ := h.now }

/-- `OP` 2 updates the pair's entry, or takes the lowest free way. -/
def Hub.macWrite (h : Hub) (x : MacOp) : Hub :=
  match h.macFind x.mac x.vid with
  | some i => (h.setMac i (h.macFrom x)).macDone x true false i
  | none =>
    match h.macFree x.mac x.vid with
    | some i => (h.setMac i (h.macFrom x)).macDone x false false i
    | none => h.macDone x false true 0

/-- `OP` 3 clears `VALID`. -/
def Hub.macDelete (h : Hub) (x : MacOp) : Hub :=
  match h.macFind x.mac x.vid with
  | some i => (h.setMac i { h.macEnt i with valid := false }).macDone x true false i
  | none => h.macDone x false false 0

/-- The operation in progress completes at the end of a cycle, after what that cycle has learned (R274), with the values it started with
(R287). -/
def Hub.macFinish (h : Hub) : Hub :=
  match h.swc.macOp with
  | some x =>
    if x.due ≤ h.now then
      let h : Hub := { h with swc := { h.swc with macOp := none } }
      if x.op = 1 then h.macRead x else if x.op = 2 then h.macWrite x else h.macDelete x
    else h
  | none => h

/-- A write of the key, data or command register while `GO` is set is ignored (R287). -/
def Hub.macHeld (h : Hub) : Hub := h.evt Reg.SWC_EVT F.SWC_EVT_WRITE_REFUSED

/-- A write of `SWC_MAC_CMD` (R287). `GO` starts an operation; the specification bounds its time by 64 cycles, and the model leaves it free
below that (log entry 31). -/
def Hub.macCmdWrite (h : Hub) (w : Word) : Hub :=
  let op := bits w F.SWC_MAC_CMD_OP
  if h.swc.macOp.isSome then h.macHeld
  else if bits w F.SWC_MAC_CMD_GO = 1 ∧ op ≠ 0 then
    let x : MacOp := { op := op, mac := h.macKey.1, vid := h.macKey.2, data := h.rd Reg.SWC_MAC_DATA,
                       due := h.now + h.freeNow.toNat % 64 * tuCore }
    let h : Hub := { h.tick with swc := { h.swc with macOp := some x } }
    (h.setFld Reg.SWC_MAC_CMD F.SWC_MAC_CMD_OP op).setFld Reg.SWC_MAC_CMD F.SWC_MAC_CMD_GO 1
  else h.setFld Reg.SWC_MAC_CMD F.SWC_MAC_CMD_OP op

/-- `MAC_READ`, `MAC_WRITE`, `MAC_DELETE` (R287): the write of `SWC_MAC_CMD` that sets `GO` with `OP` 1, 2 or 3. -/
def execMacRead (s : State) : Host.Outcome State Fault Refusal := s.on fun h => h.macCmdWrite 5
def execMacWrite (s : State) : Host.Outcome State Fault Refusal := s.on fun h => h.macCmdWrite 6
def execMacDelete (s : State) : Host.Outcome State Fault Refusal := s.on fun h => h.macCmdWrite 7

/-- `MAC_FLUSH` (R283). -/
def runMacFlush (h : Hub) (c : CmdIn) : Ack :=
  let m := c.arg 1
  if m = 0 ∨ 128 ≤ m ∨ c.zeroFrom 2 = false then .refuse sEARG 0 0
  else
    let keep := fun (x : Nat × MacEnt) => x.2.static || Nat.land x.2.ports m == 0
    .done { h with swc := { h.swc with mac := h.swc.mac.filter keep } } []

def execMacFlush (src : CmdSrc) (tag : Byte) (mask : Word) (s : State) : Host.Outcome State Fault Refusal :=
  s.on fun h => h.accept (mkCmd src 0x0282 tag [mask]) runMacFlush

/-! ## Lookup (R270, R271, R273, R274, R278) -/

/-- The tables, and their generations, as a lookup of this cycle finds them: as they stood at its start (R274, R279). -/
def Hub.tablesThen (h : Hub) : Hub := { h with regs := h.start.regs, swc := { h.swc with mac := h.start.swc.mac, gen := h.start.swc.gen } }

def Hub.genOf (h : Hub) (t : Nat) : Nat := tget 0 h.swc.gen t

/-- A frame addressed to this node and not to a group; a quiet node forwards those of its address (R318). -/
def Hub.toSelf (h : Hub) (n : Nrp) : Bool := !n.group && h.ring.addr != 0 && !h.ring.quiet && n.dst == h.ring.addr

/-- Lookup of an NRP frame that entered on port `p` (R270, R14, R18, R324). A frame that arrives with `HOPS` 0 is not forwarded (R300). -/
def Hub.lookNrp (h : Hub) (p : Nat) (n : Nrp) : Look :=
  let w := if n.group then h.rd (Reg.SWC_GROUP n.dst) else h.rd (Reg.SWC_ROUTE n.dst)
  let en := testBit w.toNat 0
  let valid := n.group || en
  let self := h.toSelf n
  let hopsOk := decide (n.ver = 1) || decide (n.hops ≠ 0)
  let ring := p != 2 && hopsOk && (!self || h.outerPort == some p)
  let out2 := p == 2 && hopsOk && h.flag Reg.RING_CTL F.RING_CTL_P2_NRP_IN && !self
  let p2 := valid && testBit w.toNat 1 && p != 2 && hopsOk
  let local_ := (self || (n.group && en)) && decide (tPub ≤ n.typ ∧ n.typ ≤ tRsp)
  let pol := if valid && testBit w.toNat 2 then some (bits w F.SWC_ROUTE_POL) else h.defPol p
  { ring := ring,
    outs := (if ring then [1 - p] else []) ++ (if out2 then [0, 1] else []) ++ (if p2 then [2] else []) ++ (if local_ then [5] else []),
    pol := pol, table := bitB n.group, gen := h.genOf (bitB n.group) }

/-- Lookup of a standard frame (R271). Between the interlink and the ring ports it passes only while `HSR_EN` is set (R321). -/
def Hub.lookStd (h : Hub) (p : Nat) (bs : List Byte) : Look :=
  let dst := beAt bs 0 6
  let hit := if groupAddr bs then none else h.macFind dst (stdParse bs).vid
  let mask := match hit with
    | some i => (h.macEnt i).ports
    | none => h.fld (Reg.SWC_P_CFG p) F.SWC_P_CFG_FLOOD_MASK
  let hsr := h.flag Reg.RING_CTL F.RING_CTL_HSR_EN
  let outs := below 7 fun o => testBit mask o && o != p && o != 3 && (decide (2 ≤ o) || (hsr && decide (2 ≤ p)))
  let ring := decide (p ≤ 1) && !(!groupAddr bs && dst == h.ringMac)
  { ring := ring, outs := (if ring then [1 - p] else []) ++ outs,
    pol := match hit with
      | some i => if (h.macEnt i).polEn then some (h.macEnt i).pol else h.defPol p
      | none => h.defPol p,
    table := 2, gen := h.genOf 2 }

/-- The lookup of a frame. -/
def Hub.lookup (h : Hub) (p : Nat) (bs : List Byte) : Look :=
  if h.isNrp bs then h.tablesThen.lookNrp p (nrpParse bs) else h.tablesThen.lookStd p bs

/-- The copies that a frame whose local copy is lost does not have (R301, R322): those for the node, and for a standard frame also those for
the nodes behind the interlink. -/
def Hub.localOut (h : Hub) (bs : List Byte) (o : Nat) : Bool := if h.isNrp bs then o == 5 else decide (2 ≤ o)

/-- The class of a forwarded frame (R239). -/
def Hub.classOf (h : Hub) (p : Nat) (bs : List Byte) : Nat :=
  let d := h.fld (Reg.TM_PORT p) F.TM_PORT_DEF_CLASS
  if h.isNrp bs then (if (nrpParse bs).ver = 1 then d else (nrpParse bs).cls)
  else (stdParse bs).pcp.getD d

/-! ## The packet buffer of P0 to P2 (R262, R267, R268) -/

def Hub.voqAt (h : Hub) (i o c : Nat) : List VEnt := tget [] h.swc.voq (56 * i + 8 * o + c)
def Hub.setVoq (h : Hub) (i o c : Nat) (l : List VEnt) : Hub :=
  { h with swc := { h.swc with voq := tset [] h.swc.voq (56 * i + 8 * o + c) l } }

def Hub.inHeld (h : Hub) (p : Nat) : Nat := tget 0 h.swc.inCells p
def Hub.inLimit (h : Hub) (p : Nat) : Nat := h.fld (Reg.SWC_P_CFG p) F.SWC_P_CFG_IN_LIMIT

def Hub.noBuf (h : Hub) : Hub := (h.count Reg.SWC_CNT_NOBUF).evt Reg.SWC_EVT F.SWC_EVT_NOBUF

/-- What the buffer does with `n` more cells for a frame from forwarding input `p` (R268): none when it takes them. -/
def Hub.bufferDrop (h : Hub) (p n : Nat) : Option Hub :=
  let lim := h.inLimit p
  if lim ≠ 0 ∧ lim < h.inHeld p + n then some (h.count Reg.SWC_CNT_INLIMIT_DROP)
  else if h.freeCells < n then some h.noBuf
  else none

/-- The bytes of frame `id` that have come on port `p` take the cells they need beyond those held; false when the frame is dropped for want
of them. `n` is their number, FCS included. -/
def Hub.bufferMore (h : Hub) (p id n : Nat) (bs : List Byte) : Bool × Hub :=
  let f := h.frame id
  let k := cellsOf n - f.cells.length
  match h.bufferDrop p k with
  | some h => (false, h)
  | none =>
    let r := h.takeCells k
    let h := { r.1 with swc := { r.1.swc with inCells := tset 0 r.1.swc.inCells p (r.1.inHeld p + k) } }
    (true, h.setFrame id { f with bytes := bs, cells := f.cells ++ r.2, charged := true })

def Hub.setComing (h : Hub) (p : Nat) (x : Option Nat) : Hub := { h with swc := { h.swc with coming := tset none h.swc.coming p x } }
def Hub.comingOn (h : Hub) (p : Nat) : Option Nat := tget none h.swc.coming p
def Hub.inBuffer (h : Hub) (id : Nat) : Bool := (tget none h.swc.buf id).isSome

/-- Put an arrival in its place, by rising input port (R249). -/
def Hub.arrive (h : Hub) (a : Arrival) : Hub :=
  let l := h.swc.arrivals
  { h with swc := { h.swc with arrivals := l.filter (fun x => x.port ≤ a.port) ++ [a] ++ l.filter fun x => a.port < x.port } }

/-- A frame from a port begins to be buffered with the bytes that have come; none when it is dropped for want of cells. -/
def Hub.bufferNew (h : Hub) (p n : Nat) (bs : List Byte) (whole : Bool) (stamps : List Nat) : Hub × Nat :=
  let r := h.frameId
  let f : Frame := { bytes := bs, inPort := p, stamps := stamps, uses := 1, arriving := !whole }
  match (r.1.setFrame r.2 f).bufferMore p r.2 n bs with
  | (true, h) => (h, r.2)
  | (false, h) => (h.release r.2, r.2)

/-- The tail of a cut-through copy that a port is sending of frame `id`, if it has begun, and of its crossbar transfer (R263, R277). -/
def Hub.cutTail (h : Hub) (id : Nat) (bs : List Byte) (good : Bool) : Hub :=
  let crossed := fun (x : Xfer) => some (max (h.now + tuCore) (x.beginAt + ceilDiv (frameLen bs) 16 * tuCore))
  let close := fun (x : Xfer) => if x.id = some id ∧ x.endAt = none then { x with endAt := crossed x } else x
  [0, 1].foldl (fun h p => match tget none h.tm.tx p with
    | some t => if t.id = id ∧ t.endAt = none then h.endCut p t bs good else h
    | none => h) ({ h with swc := { h.swc with xfers := h.swc.xfers.map close } } : Hub)

/-- A frame that has come whole from port `p` goes on to Midway: `keep` says that its local copy survives. While `EN` is clear it is dropped and
counted (R284). -/
def Hub.toMidway (h : Hub) (p : Nat) (bs : List Byte) (keep : Bool) (stamps : List Nat) : Hub :=
  if h.flag Reg.SWC_CTL F.SWC_CTL_EN = false then h.count Reg.SWC_CNT_NOBUF else
  match h.comingOn p with
  | none =>
    let (h, id) := h.bufferNew p (frameLen bs) bs true stamps
    if h.inBuffer id then h.arrive ⟨p, id, keep, true, h.now⟩ else h
  | some id =>
    if h.inBuffer id = false then h.setComing p none
    else
      match h.bufferMore p id (frameLen bs) bs with
      | (false, h) => h
      | (true, h) =>
        let h := ((h.setFrame id { h.frame id with arriving := false }).setComing p none).cutTail id bs true
        if h.swc.arrivals.any fun a => a.id == id then
          { h with swc := { h.swc with arrivals := h.swc.arrivals.map fun a => if a.id = id then { a with keepLocal := keep, whole := true } else a } }
        else h.arrive ⟨p, id, keep, true, h.now⟩

/-- Take a copy of frame `id` out of the VOQs and the traffic queues in which it still waits. -/
def Hub.unqueue (h : Hub) (id : Nat) : Hub :=
  let out := fun (h : Hub) (k : Nat) (l : List VEnt) =>
    if l.any fun e => e.id == id then
      (({ h with swc := { h.swc with voq := tset [] h.swc.voq k (l.filter fun e => e.id != id) } } : Hub).release id) else h
  let h := h.swc.voq.foldl (fun h x => out h x.1 x.2) h
  h.busyQueues.foldl (fun h q => if (h.tq q).holds id && !h.onLine q id then h.tqRemove q id else h) h

/-- The frame that was coming on port `p` goes no further: it was judged bad or stomped, was too long, had a bad header, lost its link, or is
taken by the ring block. A copy begun cut-through ends with the stomp code; every other copy is dropped (R275, R277). -/
def Hub.cutEnd (h : Hub) (p : Nat) (bs : List Byte) : Hub :=
  match h.comingOn p with
  | none => h
  | some id =>
    let h := h.setComing p none
    if h.inBuffer id then
      let all := if bs.length < (h.frame id).bytes.length then (h.frame id).bytes else bs
      let h : Hub := { h with swc := { h.swc with arrivals := h.swc.arrivals.filter fun a => a.id != id } }
      (((h.setFrame id { h.frame id with arriving := false }).cutTail id all false).unqueue id).release id
    else h

/-! ## Entering Midway (R262, R264, R276) -/

/-- The ring copy of a frame from port `p` may be forwarded cut-through (R276). -/
def Hub.cutOk (h : Hub) (p : Nat) (l : Look) : Bool :=
  let o := 1 - p
  decide (p ≤ 1) && l.ring && (tget ({} : RPort) h.ring.port o).ver == 1 && h.linkUp o && h.flag (Reg.SWC_P_CFG o) F.SWC_P_CFG_CT_EN &&
    decide (h.bitTime2 p ≤ h.bitTime2 o)

/-- One copy for each output enters its VOQ (R264). -/
def Hub.enterVoqs (h : Hub) (p id : Nat) (outs : List Nat) : Hub :=
  let f := h.frame id
  let h := h.setFrame id { f with uses := f.uses + outs.length }
  outs.foldl (fun h o => h.setVoq p o f.cls (h.voqAt p o f.cls ++ [⟨id, h.now⟩])) h

/-- L of a frame that may leave cut-through, by which it is policed (R249): its header's for NRP. The specification gives no L for a standard
one, and the model leaves it free (log entry 37). -/
def Hub.cutLen (h : Hub) (bs : List Byte) : Nat × Hub :=
  if h.isNrp bs then (nrpLength (nrpParse bs), h) else (h.freeNow.toNat % 2048, h.tick)

/-- The lookup of frame `id`, with its generation counted (R278), and its class. -/
def Hub.lookFrame (h : Hub) (p id : Nat) : Hub :=
  let f := h.frame id
  let l := h.lookup p f.bytes
  (h.setFrame id { f with look := some l, cls := h.classOf p f.bytes, gen := some (l.table, l.gen) }).genCntAdd l.table l.gen 1

/-- The first bytes of a frame enter Midway: it is looked up, and a ring copy that may leave cut-through is policed and enters its VOQ. -/
def Hub.headIn (h : Hub) (p id : Nat) : Hub :=
  let h := h.lookFrame p id
  let f := h.frame id
  let l := f.look.getD {}
  if h.cutOk p l then
    let (n, h) := h.cutLen f.bytes
    match h.policeBy l.pol n with
    | (true, h) => (h.setFrame id { h.frame id with cut := true }).enterVoqs p id [1 - p]
    | (false, h) => h.release id
  else h

/-- A whole frame enters Midway: it is looked up and policed where that has not been done, and its copies enter their VOQs. Its own hold on the
buffer ends. -/
def Hub.wholeIn (h : Hub) (a : Arrival) : Hub :=
  let h := if (h.frame a.id).look.isSome then h else h.lookFrame a.port a.id
  let f := h.frame a.id
  let l := f.look.getD {}
  let (pass, h) := if f.cut then (true, h) else h.policeBy l.pol (frameLen f.bytes)
  if pass = false then h.release a.id else
  let outs := l.outs.filter fun o => (a.keepLocal || !h.localOut f.bytes o) && !(f.cut && l.ring && o == 1 - a.port)
  ((h.enterVoqs a.port a.id outs).release a.id)

/-- The frame of the lowest input port that came before this cycle enters Midway (R249). -/
def Hub.midwayNext (h : Hub) : Hub :=
  match h.swc.arrivals.find? fun a => decide (a.at_ < h.now) with
  | some a =>
    let h : Hub := { h with swc := { h.swc with arrivals := h.swc.arrivals.erase a } }
    if a.whole then h.wholeIn a else h.headIn a.port a.id
  | none => h

/-! ## The crossbar (R263, R265, R266) -/

/-- A frame's copies have all crossed: its cells are no longer charged to its input (R268). -/
def Hub.uncharge (h : Hub) (id : Nat) : Hub :=
  let f := h.frame id
  let waits := (h.swc.voq.any fun (_, l) => l.any fun e => e.id == id) || (h.swc.xfers.any fun x => x.id == some id) ||
    (h.swc.arrivals.any fun a => a.id == id) || f.arriving
  if f.charged && !waits then
    ({ h with swc := { h.swc with inCells := tset 0 h.swc.inCells f.inPort (h.inHeld f.inPort - f.cells.length) } }).setFrame id
      { f with charged := false }
  else h

/-- The queue of a forwarded copy (R239). -/
def Hub.fwdQueue (h : Hub) (o c : Nat) : Nat := h.fld (Reg.TM_PORT o) F.TM_PORT_FWD_BASE + c

/-- The output code that a placement for port `o` requires (R238, R240). -/
def outCode (o : Nat) : Nat := if o = 2 then 3 else o

/-- The head of a VOQ that a round of this cycle sees: it entered in an earlier cycle (R266). -/
def Hub.voqHead (h : Hub) (i o c : Nat) : Option Nat :=
  match h.voqAt i o c with
  | e :: _ => if e.at_ < h.now then some e.id else none
  | [] => none

/-- Take the head of a VOQ and place it, or drop it, under R240. -/
def Hub.voqPlace (h : Hub) (i o c : Nat) : Hub :=
  match h.voqAt i o c with
  | [] => h
  | e :: rest => (h.setVoq i o c rest).place (h.fwdQueue o c) e.id (some (outCode o)) true

/-- A copy could not be placed now: its queue is off, misrouted or without credit (R265). -/
def Hub.noPlace (h : Hub) (o c id : Nat) : Bool :=
  let j := h.judgePlace (h.fwdQueue o c) id (some (outCode o)) true
  j == .misroute || j == .noCredit

/-- Drop heads of a VOQ while they cannot be placed (R265). -/
def Hub.dropHeads : Nat → Nat → Nat → Nat → Hub → Hub
  | 0, _, _, _, h => h
  | n + 1, i, o, c, h =>
    match h.voqHead i o c with
    | some id => if h.noPlace o c id then Hub.dropHeads n i o c ((h.voqPlace i o c).uncharge id) else h
    | none => h

/-- The highest class with a copy in the VOQs of (i, o). -/
def Hub.request (h : Hub) (i o : Nat) : Option Nat := [7, 6, 5, 4, 3, 2, 1, 0].find? fun c => (h.voqHead i o c).isSome

/-- The first number at or after `p`, cyclically below 7, that satisfies `f`. -/
def cyclic (p : Nat) (f : Nat → Bool) : Option Nat := ((List.range 7).map fun k => (p + k) % 7).find? f

def maxClass (l : List (Option Nat)) : Option Nat :=
  l.foldl (fun m x => match m, x with
    | none, y => y
    | m, none => m
    | some a, some b => some (max a b)) none

/-- The grant of output `o` among free inputs (R266). -/
def Hub.grant (h : Hub) (free : List Nat) (o : Nat) : Option Nat :=
  match maxClass (free.map fun i => h.request i o) with
  | none => none
  | some c => cyclic (tget 0 h.swc.gp o) fun i => free.contains i && h.request i o == some c

/-- The acceptance of input `i` among the grants given to it. -/
def Hub.acceptIn (h : Hub) (grants : List (Nat × Nat)) (i : Nat) : Option Nat :=
  let mine := (grants.filter fun g => g.2 == i).map (·.1)
  match maxClass (mine.map fun o => h.request i o) with
  | none => none
  | some c => cyclic (tget 0 h.swc.ap i) fun o => mine.contains o && h.request i o == some c

/-- Input and output are matched: the pointers move, and both are engaged. -/
def Hub.matchUp (h : Hub) (i o : Nat) : Hub :=
  match h.request i o with
  | none => h
  | some c =>
    { h with swc := { h.swc with
      gp := tset 0 h.swc.gp o ((i + 1) % 7)
      ap := tset 0 h.swc.ap i ((o + 1) % 7)
      xfers := h.swc.xfers ++ [{ inp := i, outp := o, cls := c }] } }

/-- The first cycle of a matched transfer (R263, R265): its head is pushed into its queue, and input and output stay engaged for ⌈L ÷ 16⌉
cycles, or until the tail of a frame still arriving has crossed. A match whose copy is dropped is released. -/
def Hub.xferBegin (h : Hub) (x : Xfer) : Hub :=
  let rest := h.swc.xfers.erase x
  match h.voqAt x.inp x.outp x.cls with
  | [] => { h with swc := { h.swc with xfers := rest } }
  | e :: _ =>
    let f := h.frame e.id
    let ok := h.judgePlace (h.fwdQueue x.outp x.cls) e.id (some (outCode x.outp)) true == .placed
    let y : Xfer := { x with id := some e.id, beginAt := h.now,
                             endAt := if f.arriving then none else some (h.now + ceilDiv (frameLen f.bytes) 16 * tuCore) }
    let h : Hub := { h with swc := { h.swc with xfers := if ok then rest ++ [y] else rest } }
    let h := h.voqPlace x.inp x.outp x.cls
    if ok then h else h.uncharge e.id

/-- What the start of a cycle brings to the crossbar: transfers end, and those matched in the cycle before begin (R263, R266). -/
def Hub.xferStep (h : Hub) : Hub :=
  let over_ := fun (x : Xfer) => match x.endAt with
    | some t => decide (t ≤ h.now)
    | none => false
  let done := (h.swc.xfers.filter over_).filterMap (·.id)
  let h : Hub := { h with swc := { h.swc with xfers := h.swc.xfers.filter fun x => !over_ x } }
  let h := done.foldl Hub.uncharge h
  (h.swc.xfers.filter fun x => x.id.isNone).foldl Hub.xferBegin h

/-- The round of the scheduler in this cycle (R266), one in each. -/
def Hub.crossbarRound (h : Hub) : Hub :=
  if h.swc.roundAt = some h.now then h else
  let h : Hub := { h with swc := { h.swc with roundAt := some h.now } }
  let ins := [0, 1, 2].filter fun i => !h.swc.xfers.any fun x => x.inp == i
  let outs := [0, 1, 2, 4, 5, 6].filter fun o => !h.swc.xfers.any fun x => x.outp == o
  let h := ins.foldl (fun h i => outs.foldl (fun h o =>
    [0, 1, 2, 3, 4, 5, 6, 7].foldl (fun h c => Hub.dropHeads (h.voqAt i o c).length i o c h) h) h) h
  let grants := outs.filterMap fun o => (h.grant ins o).map fun i => (o, i)
  let matches_ := ins.filterMap fun i => (h.acceptIn grants i).map fun o => (i, o)
  matches_.foldl (fun h (i, o) => h.matchUp i o) h

def execCrossbarMatch (s : State) : Host.Outcome State Fault Refusal := s.on Hub.crossbarRound

/-! ## Generations and FENCE (R278 to R280) -/

/-- Every other generation of every table named in the mask counts 0. -/
def Hub.fenceClear (h : Hub) (mask : Nat) : Bool :=
  (List.range 3).all fun t => !testBit mask t ||
    (List.range 16).all fun g => g == h.genOf t || tget 0 h.swc.genCnt (16 * t + g) == 0

def Hub.fencePend (h : Hub) : Nat := h.swc.fences.foldl (fun m f => Nat.lor m f.mask) 0

/-- The tables named advance their generation. -/
def Hub.genAdvance (h : Hub) (mask : Nat) : Hub :=
  (List.range 3).foldl (fun h t =>
    if testBit mask t then { h with swc := { h.swc with gen := tset 0 h.swc.gen t ((h.genOf t + 1) % 16) } } else h) h

def runFence (h : Hub) (c : CmdIn) : Ack :=
  let m := c.arg 1
  if m = 0 ∨ 8 ≤ m ∨ c.zeroFrom 3 = false then .refuse sEARG 0 0
  else if Nat.land m h.fencePend ≠ 0 then .refuse sESTATE 0 0
  else if (List.range 3).any fun t => testBit m t && tget 0 h.swc.genCnt (16 * t + (h.genOf t + 1) % 16) != 0 then
    .refuse sENORES 0 0
  else
    let h := h.genAdvance m
    let due := if c.arg 2 = 0 then none else some (h.now + c.arg 2 * tuUs)
    .later { h with swc := { h.swc with fences := h.swc.fences ++ [⟨m, due, c.ref, h.now⟩] } }

def execFence (src : CmdSrc) (tag : Byte) (mask timeout : Word) (s : State) : Host.Outcome State Fault Refusal :=
  s.on fun h => h.accept (mkCmd src 0x0281 tag [mask, timeout]) runFence

/-- The timeout of a fence has not passed by now. -/
def Fence.inTime (f : Fence) (now : Nat) : Bool :=
  match f.due with
  | some t => decide (now ≤ t)
  | none => true

def Hub.fenceEnd (h : Hub) (f : Fence) (status : Nat) : Hub :=
  ({ h with swc := { h.swc with fences := h.swc.fences.filter (· != f) } } : Hub).answer f.ref status []

/-- Every pending fence that satisfies `p` and whose other generations count 0 completes within its time (R279). -/
def Hub.fenceClose (h : Hub) (p : Fence → Bool) : Hub :=
  h.swc.fences.foldl (fun h f =>
    if p f && f.inTime h.now && h.fenceClear f.mask then (h.evt Reg.SWC_EVT F.SWC_EVT_FENCE_DONE).fenceEnd f sOK else h) h

/-- `FENCE_DONE`. A lookup of the cycle of acceptance is waited for, so that cycle's own fences are judged at its end. -/
def Hub.fenceDone (h : Hub) : Hub := h.fenceClose fun f => decide (f.at_ < h.now)

def execFenceDone (s : State) : Host.Outcome State Fault Refusal := s.on Hub.fenceDone

/-- `FENCE_TIMEOUT`: a pending fence whose timeout has passed first. -/
def Hub.fenceTimeout (h : Hub) : Hub :=
  h.swc.fences.foldl (fun h f =>
    match f.due with
    | some t => if t ≤ h.now ∧ (f.inTime h.now && h.fenceClear f.mask) = false then h.fenceEnd f sETIMEOUT else h
    | none => h) h

def execFenceTimeout (s : State) : Host.Outcome State Fault Refusal := s.on Hub.fenceTimeout

/-! ## The auditor (R281, R282) -/

def Hub.auditStart (h : Hub) : Hub :=
  { h with swc := { h.swc with auditBusy := true, auditEpoch := !h.swc.auditEpoch, auditFrom := h.now, auditAgain := false,
                               auditRefs := h.swc.auditRefs ++ h.swc.auditNext, auditNext := [] } }

/-- `AUDIT_PASS_START`: periodic while `AUDIT_EN` is set, every `PERIOD_MS`. -/
def Hub.auditPeriodic (h : Hub) : Hub :=
  let period := h.fld Reg.SWC_AUDIT_CFG F.SWC_AUDIT_CFG_PERIOD_MS * tuMs
  if h.flag Reg.SWC_CTL F.SWC_CTL_AUDIT_EN && !h.swc.auditBusy && decide (h.swc.auditFrom + period ≤ h.now) then h.auditStart
  else h

def execAuditPassStart (s : State) : Host.Outcome State Fault Refusal := s.on Hub.auditPeriodic

/-- A cell has an owner: a frame arriving, in a VOQ or in a queue (R281). -/
def Hub.cellOwned (h : Hub) (k : Nat) : Bool := h.swc.buf.any fun x => (x.2.getD {}).cells.contains k

/-- The mark of cell `k` at the end of a pass (R282): free and owned cells carry the pass's stamp, another only where it changed its owner during
the pass; without a stamp the miss count rises, and at 2 the cell is reclaimed. -/
def Hub.cellJudge (h : Hub) (k : Nat) (c : Cell) : Cell :=
  if !c.used || h.cellOwned k || c.stamp then { used := c.used }
  else if 1 ≤ c.miss then {} else { used := true, miss := c.miss + 1 }

/-- `AUDIT_PASS_END` (R282). -/
def Hub.auditEnd (h : Hub) : Hub :=
  if h.swc.auditBusy = false then h else
  let judged := h.swc.cell.map fun x => (x.1, h.cellJudge x.1 x.2)
  let lost := (h.swc.cell.filter fun x => x.2.used && !(h.cellJudge x.1 x.2).used).map (·.1)
  let refs := h.swc.auditRefs
  let cells := judged.foldl (fun t x => tset ({} : Cell) t x.1 x.2) ([] : Table Cell)
  let h := { h with swc := { h.swc with cell := cells, auditBusy := false, auditRefs := [] } }
  let h := h.when (!lost.isEmpty) fun h => ((h.countN Reg.SWC_CNT_LEAK_RECLAIM lost.length).giveCells []).evt Reg.SWC_EVT F.SWC_EVT_LEAK
  let h := h.count Reg.SWC_CNT_AUDIT_PASSES
  let h := refs.foldl (fun h r => (h.answer r sOK []).evt Reg.HOST_EVT F.HOST_EVT_MAINT_DONE) h
  if h.swc.auditAgain then h.auditStart else h

def execAuditPassEnd (s : State) : Host.Outcome State Fault Refusal := s.on Hub.auditEnd

/-- `MAINT_LEAK_AUDIT_NOW` (R281, R463). -/
def runLeakAudit (h : Hub) (c : CmdIn) : Ack :=
  if c.zeroFrom 1 = false then .refuse sEARG 0 0
  else
    let h := { h with swc := { h.swc with auditNext := h.swc.auditNext ++ [c.ref] } }
    if h.swc.auditBusy then .later { h with swc := { h.swc with auditAgain := true } } else .later h.auditStart

def execMaintLeakAuditNow (src : CmdSrc) (tag : Byte) (s : State) : Host.Outcome State Fault Refusal :=
  s.on fun h => h.accept (mkCmd src 0x0C04 tag []) runLeakAudit

end Sys2Proof.Machine
end

