-- ==== Sys2Proof/Machine/Ring.lean ====
section
/-! DEFINITION. The ring block (chapter 11): links and HELLO, reception, duplicate discard, ring state, the Parade, HSR. -/

namespace Sys2Proof.Machine

def Hub.rport (h : Hub) (p : Nat) : RPort := tget ({} : RPort) h.ring.port p
def Hub.setRport (h : Hub) (p : Nat) (x : RPort) : Hub :=
  { h with ring := { h.ring with port := tset ({} : RPort) h.ring.port p x } }
def Hub.ringOn (h : Hub) : Bool := h.flag Reg.RING_CTL F.RING_CTL_EN
def Hub.ringMs (h : Hub) (f : Nat × Nat) : Nat := h.fld Reg.RING_PAR_CFG f * tuMs
def Hub.badHdr (h : Hub) : Hub := (h.count Reg.RING_CNT_BAD_HDR).evt Reg.RING_EVT F.RING_EVT_BAD_HDR

/-! ## Links (R288 to R291) -/

/-- A change of link state sets `LINK_CHANGE`. -/
def Hub.setLink (h : Hub) (p : Nat) (l : Link) : Hub :=
  if (h.rport p).link = l then h
  else (h.setRport p { h.rport p with link := l, ver := if l = .up then (h.rport p).ver else 0 }).evt Reg.RING_EVT F.RING_EVT_LINK_CHANGE

/-- A port goes DOWN; a frame that was coming on it goes no further (R277). -/
def Hub.linkDown (h : Hub) (p : Nat) : Hub :=
  if (h.rport p).link = .down then h
  else
    let d := h.setLink p .down
    ((d.setRport p { d.rport p with pauseRx := false }).count (Reg.RING_P_CNT_LINK_DOWNS p)).cutEnd p []

/-- `LINK_LOCK` (R290): PCS lock, and negotiation completed where enabled. `pause` and `asm` are the link partner's advertised bits,
from which `P2` resolves pause reception (R289). With `TWIN_EN` low `P3` is powered down (R22). -/
def Hub.linkLock (h : Hub) (p : Nat) (pause asm_ : Bool) : Hub :=
  let mode := h.fld (Reg.RING_P_CFG p) F.RING_P_CFG_MODE
  let powered := decide (p ≠ 3) || h.flag Reg.GLB_STRAPS F.GLB_STRAPS_TWIN_EN
  if h.ringOn && powered && mode != 0 && (h.rport p).link == .down && !(h.rport p).loop then
    let an := mode == 2 && h.flag (Reg.RING_P_CFG p) F.RING_P_CFG_AN_EN
    let h := h.setLink p .locked
    h.setRport p { h.rport p with pauseRx := decide (p = 2) && an && (pause || asm_) }
  else h

def execLinkLock (p : Fin 4) (pause asm_ : Bool) (s : State) : Host.Outcome State Fault Refusal := s.on fun h => h.linkLock p pause asm_

/-- `LINK_LOSS` (R290). -/
def execLinkLoss (p : Fin 4) (s : State) : Host.Outcome State Fault Refusal := s.on fun h => h.linkDown p

/-- `PAUSE_FRAME_RX` (R289): `P2` pauses for `quanta` times 512 bit times when it resolved pause reception. -/
def Hub.pauseRx (h : Hub) (p quanta : Nat) : Hub :=
  if p = 2 ∧ (h.rport 2).pauseRx = true ∧ (h.rport 2).link ≠ .down then
    h.setRport 2 { h.rport 2 with pauseUntil := h.now + h.byteTime 2 (quanta * 64) }
  else h

def execPauseFrameRx (p : Fin 3) (quanta : Half) (s : State) : Host.Outcome State Fault Refusal :=
  s.on fun h => h.pauseRx p quanta.toNat

/-! ## Link-local frames -/

/-- The control core builds a version-1 frame for a ring port (R13, R292, R325) and places it in a queue of that port (R239). -/
def Hub.coreSend (h : Hub) (p typ flags dst : Nat) (payload : List Byte) : Hub :=
  let hdr := { h.ownHdr 1 typ flags dst 0 0 0 0 payload.length 0 with gen := 0 }
  h.corePlace (outCode p) { bytes := padTo 60 (h.ethHead dst ++ nrpBytes hdr ++ payload), own := true }

def Hub.verMax (h : Hub) : Nat := h.fld Reg.RING_CFG F.RING_CFG_VER_MAX
def Hub.verMin (h : Hub) : Nat := h.fld Reg.RING_CFG F.RING_CFG_VER_MIN

/-- The HELLO payload (R292); a hub of a twin that is not active sends the standby bit (R365). -/
def Hub.helloBytes (h : Hub) (p : Nat) : List Byte :=
  let r := h.ring
  [byte h.verMin, byte h.verMax, byte r.addr,
   byte (r.gen % 16 + bitB r.leader * 16 + bitB (!h.acts) * 32 + bitB r.quiet * 64 + bitB r.strapped * 128)] ++
    beBytes 6 h.ringMac ++ [byte p, byte r.leaderAddr, 0, 0, 0, 0]

/-- `HELLO_TX` (R292). -/
def Hub.helloTx (h : Hub) : Hub :=
  [0, 1].foldl (fun h p => if (h.rport p).link = .down then h else h.coreSend p tHello 0 0 (h.helloBytes p)) h

def execHelloTx (s : State) : Host.Outcome State Fault Refusal := s.on Hub.helloTx

def Hub.upPorts (h : Hub) : List Nat := [0, 1].filter fun p => h.linkUp p

/-- A `LATE_REQ` on each UP ring port to the leader (R319), from a hub that acts (R16). -/
def Hub.lateReq (h : Hub) : Hub :=
  if h.acts = false then h else h.upPorts.foldl (fun h p => h.coreSend p tLate 0 h.ring.leaderAddr (beBytes 6 h.ringMac ++ [0, 0])) h

/-- The hold-off of R305 runs from the first ring link UP while the node holds an address. -/
def Hub.noteUp (h : Hub) : Hub :=
  if h.ring.upAt = none ∧ h.ring.addr ≠ 0 ∧ h.upPorts ≠ [] then { h with ring := { h.ring with upAt := some h.now } } else h

/-- A ring link comes UP in version `v`. -/
def Hub.linkComesUp (h : Hub) (p v gen : Nat) : Hub :=
  let h := h.setLink p .up
  let h := (h.setRport p { h.rport p with ver := v }).noteUp
  if h.ring.firstUp = none then
    let h := { h with ring := { h.ring with firstUp := some h.now } }
    if gen ≠ 0 then h.lateReq else h
  else h

/-! ## Source state and duplicate discard (R304 to R310) -/

def Hub.source (h : Hub) (n : Nat) : SrcState := tget ({} : SrcState) h.ring.src n
def Hub.setSource (h : Hub) (n : Nat) (x : SrcState) : Hub :=
  { h with ring := { h.ring with src := tset ({} : SrcState) h.ring.src n x } }
def Hub.ddTable (h : Hub) (p : Nat) : List DdEnt := if p = 0 then h.ring.dd0 else h.ring.dd1
def Hub.setDd (h : Hub) (p : Nat) (l : List DdEnt) : Hub :=
  if p = 0 then { h with ring := { h.ring with dd0 := l } } else { h with ring := { h.ring with dd1 := l } }

/-- Entries older than `DD_AGE_US` leave and count in `DD_SINGLE` (R308). -/
def Hub.ddAge (h : Hub) (p : Nat) : Hub :=
  let age := h.fld Reg.RING_DD_CFG F.RING_DD_CFG_DD_AGE_US * tuUs
  let keep := fun (e : DdEnt) => decide (h.now ≤ e.at_ + age)
  let old := ((h.ddTable p).filter fun e => !keep e).length
  (h.setDd p ((h.ddTable p).filter keep)).countN Reg.RING_CNT_DD_SINGLE old

def execDdEntryAgeOut (p : Fin 2) (s : State) : Host.Outcome State Fault Refusal := s.on fun h => h.ddAge p

def DdEnt.sameKey (a b : DdEnt) : Bool := a.hsr == b.hsr && a.src == b.src && a.seq == b.seq

/-- Insert a key; an equal key is replaced, and a full table evicts its oldest entry (R306, R308). -/
def Hub.ddInsert (h : Hub) (p : Nat) (e : DdEnt) : Hub :=
  let h := h.ddAge p
  let l := (h.ddTable p).filter fun x => !x.sameKey e
  if 1024 ≤ l.length then (h.setDd p (l.drop 1 ++ [e])).count Reg.RING_CNT_DD_EVICT else h.setDd p (l ++ [e])

/-- Look a key up in a table and take it out. -/
def Hub.ddTake (h : Hub) (p : Nat) (e : DdEnt) : Bool × Hub :=
  let h := h.ddAge p
  if (h.ddTable p).any (·.sameKey e) then (true, h.setDd p ((h.ddTable p).filter fun x => !x.sameKey e)) else (false, h)

/-- The tables a candidate received on a port is judged against, and those it enters when first: the other and its own (R306); both
for a frame received on `P2` (R324, log entry 34). -/
def ddOther (p : Nat) : List Nat := if p ≤ 1 then [1 - p] else [0, 1]
def ddOwn (p : Nat) : List Nat := if p ≤ 1 then [p] else [0, 1]

def Hub.ddTakeAny (h : Hub) (ps : List Nat) (e : DdEnt) : Bool × Hub :=
  ps.foldl (fun r p => if r.1 then r else r.2.ddTake p e) (false, h)

/-- A source not heard for `SRC_AGE_MS` becomes unknown (R305). -/
def Hub.sourceAge (h : Hub) (n : Nat) : Hub :=
  let x := h.source n
  if x.known ∧ x.heard + h.ringMs F.RING_PAR_CFG_SRC_AGE_MS ≤ h.now then h.setSource n { x with known := false } else h

def execSourceAgeOut (n : Byte) (s : State) : Host.Outcome State Fault Refusal := s.on fun h => h.sourceAge n.toNat

/-- What observing a frame found (R306). -/
structure Seen where
  fresh : Bool
  maxBefore : Nat
  seq : Nat

/-- The 16-bit sequence of a frame; a version-1 frame's is rebuilt from its low 8 bits (R309). -/
def fullSeq (ver mx s : Nat) : Nat :=
  if ver = 1 then ofSigned 16 ((mx : Int) + toSigned 8 (s + 256 - mx % 256)) else s

/-- How a frame's sequence stands to its source's state. -/
def Hub.seen (h : Hub) (n : Nrp) : Seen :=
  let x := h.source n.src
  let s := fullSeq n.ver x.max n.seq
  let ahead := (s + 65536 - x.max) % 65536
  { fresh := !x.known || (decide (1 ≤ ahead) && decide (ahead ≤ 32767)), maxBefore := x.max, seq := s }

/-- `observe` of R306: the source's state after a counted frame. -/
def Hub.observe (h : Hub) (n : Nrp) : Hub :=
  let k := h.seen n
  let x := h.source n.src
  h.setSource n.src { known := true, max := if k.fresh then k.seq else x.max, heard := h.now, ever := true }

/-- `judge` of R306: the frame is delivered. `k` is what was found before the frame was observed. -/
def Hub.ddJudge (h : Hub) (n : Nrp) (k : Seen) (p : Nat) : Bool × Hub :=
  let e : DdEnt := ⟨false, n.src, k.seq, h.now⟩
  let first := fun (h : Hub) => (ddOwn p).foldl (fun h q => h.ddInsert q e) h
  let win := h.fld Reg.RING_DD_CFG F.RING_DD_CFG_DD_WINDOW
  let win := if n.ver = 1 then min win 64 else win
  if k.fresh then (true, first h)
  else if (k.maxBefore + 65536 - k.seq) % 65536 ≤ win then
    match h.ddTakeAny (ddOther p) e with
    | (true, h) => (false, h.count Reg.RING_CNT_DD_DUP)
    | (false, h) => (true, first h)
  else (false, (h.count Reg.RING_CNT_DD_OLD).evt Reg.RING_EVT F.RING_EVT_DD_OLD)

/-- `judge` of R322 for an HSR candidate. -/
def Hub.hsrJudge (h : Hub) (src seq p : Nat) : Bool × Hub :=
  let e : DdEnt := ⟨true, src, seq, h.now⟩
  match h.ddTakeAny (ddOther p) e with
  | (true, h) => (false, h.count Reg.RING_CNT_HSR_DUP)
  | (false, h) => (true, (ddOwn p).foldl (fun h q => h.ddInsert q e) h)

/-! ## Ring state (R311 to R313) -/

/-- A node has been heard within 3 ms; the node itself counts as heard. -/
def Hub.heard (h : Hub) (n : Nat) : Bool :=
  n == h.ring.addr || ((h.source n).ever && decide (h.now < (h.source n).heard + 3 * tuMs))

def Hub.listed (h : Hub) : List Nat := (h.ring.nodes.filter (·.2.present)).map (·.1)

/-- The state as R312 judges it. -/
def Hub.judgedState (h : Hub) : RingState :=
  let back := fun p => match (h.rport p).checkAt with
    | some t => decide (h.now < t + 3 * tuMs)
    | none => false
  if back 0 && back 1 then .closed else if h.listed.all h.heard then .open_ else .split

/-- Judge the ring state; `FORMING` lasts until the first Parade completes. -/
def Hub.ringJudge (h : Hub) : Hub :=
  if h.ring.state = .forming ∨ h.ring.state = h.judgedState then h
  else ({ h with ring := { h.ring with state := h.judgedState } } : Hub).evt Reg.RING_EVT F.RING_EVT_STATE_CHANGE

def execRingStateTimeout (s : State) : Host.Outcome State Fault Refusal := s.on Hub.ringJudge

/-- `RING_CHECK_TX` (R311). -/
def Hub.ringCheckTx (h : Hub) : Hub :=
  match h.mayOriginate && h.acts, h.txnQueue with
  | true, some q => h.originate tCheck 0 h.ring.addr false 0 0 0 q none none false fun _ => .inl (List.replicate 8 0)
  | _, _ => h

def execRingCheckTx (s : State) : Host.Outcome State Fault Refusal := s.on Hub.ringCheckTx

/-- `HOLDOFF_END` (R305). -/
def Hub.holdoffEnd (h : Hub) : Hub :=
  match h.ring.upAt with
  | some t =>
    if t + h.ringMs F.RING_PAR_CFG_SRC_AGE_MS + tuMs ≤ h.now then { h with ring := { h.ring with holdoff := false } } else h
  | none => h

def execHoldoffEnd (s : State) : Host.Outcome State Fault Refusal := s.on Hub.holdoffEnd

/-! ## HELLO received (R290, R293) -/

/-- In a twin a hub that does not act takes the node's identity from its partner's HELLO on the inner port: address, generation, quiet and
strapped (R17, R303, log entry 32). -/
def Hub.followHello (h : Hub) (p : Nat) (b : List Byte) : Hub :=
  let info := beAt b 3 1
  if h.acts || h.outerPort != some (1 - p) || testBit info 5 || beAt b 2 1 == 0 then h
  else
    let ring := { h.ring with addr := beAt b 2 1, gen := info % 16, quiet := testBit info 6, strapped := testBit info 7 }
    let h := ({ h with ring := ring } : Hub).noteUp
    if h.ring.state = .forming ∧ info % 16 ≠ 0 then
      ({ h with ring := { h.ring with state := h.judgedState } } : Hub).evt Reg.RING_EVT F.RING_EVT_STATE_CHANGE
    else h

/-- A HELLO with payload `b` received on ring port `p` (R290, R293, R314). -/
def Hub.helloRx (h : Hub) (p : Nat) (b : List Byte) : Hub :=
  let x := h.rport p
  if x.link = .down ∨ b.length < 16 then h else
  let pmin := beAt b 0 1
  let pmax := beAt b 1 1
  let info := beAt b 3 1
  let v := min h.verMax pmax
  let ok := decide (h.verMin ≤ v) && decide (pmin ≤ v)
  let h := h.setRport p { x with peerAddr := beAt b 2 1, peerMin := pmin % 4, peerMax := pmax % 4, peerTwin := testBit info 5, helloAt := h.now }
  let lead := if testBit info 4 then beAt b 2 1 else beAt b 11 1
  let ring := { h.ring with
    leaderAddr := if lead ≠ 0 ∧ h.ring.leader = false then lead else h.ring.leaderAddr
    paradeSeen := h.ring.paradeSeen || info % 16 != 0 }
  let h := ({ h with ring := ring } : Hub).followHello p b
  match x.link with
  | .locked => if ok then h.linkComesUp p v (info % 16) else (h.setLink p .incompat).evt Reg.RING_EVT F.RING_EVT_VER_INCOMPAT
  | .incompat => if ok then h.linkComesUp p v (info % 16) else h
  | _ => h

/-- `HELLO_TIMEOUT` (R290). -/
def Hub.helloTimeout (h : Hub) (p : Nat) : Hub :=
  let x := h.rport p
  if (x.link = .up ∨ x.link = .incompat) ∧ x.helloAt + 3 * tuMs ≤ h.now then
    (h.setLink p .locked).count (Reg.RING_P_CNT_HELLO_MISS p)
  else h

def execHelloTimeout (p : Fin 2) (s : State) : Host.Outcome State Fault Refusal := s.on fun h => h.helloTimeout p

/-! ## Codes and the house point -/

def Link.code : Link → Nat
  | .down => 0 | .locked => 1 | .up => 2 | .incompat => 3
def RingState.code : RingState → Nat
  | .forming => 0 | .closed => 1 | .open_ => 2 | .split => 3

/-- House point `RING_STATE` (R313). -/
def Hub.ringStatePoint (h : Hub) : Word :=
  let lk := fun p => (h.rport p).link.code
  word (h.ring.state.code + lk 0 * 4 + lk 1 * 16 + lk 2 % 2 * 64 + (h.rport 0).ver % 4 * 256 + (h.rport 1).ver % 4 * 1024 +
    h.listed.length % 256 * 4096 + h.ring.gen % 16 * 2 ^ 20 + (h.listed.filter fun n => !h.heard n).length * 2 ^ 24)

/-! ## The Parade (R314 to R320) -/

/-- A PARADE payload (R316). -/
structure Parade where
  phase : Nat
  west : Bool
  complete : Bool
  key0 : Nat
  gen : Nat
  mac : Nat
  token : Nat
  ents : List PEntry

def PEntry.bytes (e : PEntry) : List Byte := [e.strap, e.held, e.info, e.given]

def Parade.bytes (p : Parade) : List Byte :=
  [byte p.phase, byte (bitB p.west + bitB p.complete * 2), byte p.key0, byte p.gen] ++ beBytes 6 p.mac ++ beBytes 2 p.ents.length ++
    beBytes 2 p.token ++ [0, 0] ++ p.ents.foldl (fun l e => l ++ e.bytes) []

def entsParse : Nat → List Byte → List PEntry
  | n + 1, a :: b :: c :: d :: t => ⟨a, b, c, d⟩ :: entsParse n t
  | _, _ => []

/-- The payload read; none when it is malformed. -/
def paradeParse (b : List Byte) : Option Parade :=
  let n := beAt b 10 2
  if 16 ≤ b.length ∧ b.length = 16 + 4 * n then
    some { phase := beAt b 0 1, west := testBit (beAt b 1 1) 0, complete := testBit (beAt b 1 1) 1, key0 := beAt b 2 1,
           gen := beAt b 3 1, mac := beAt b 4 6, token := beAt b 12 2, ents := entsParse n (b.drop 16) }
  else none

def Hub.strapAddr (h : Hub) : Nat :=
  let a := h.fld Reg.GLB_STRAPS F.GLB_STRAPS_NODE_ADDR
  if 1 ≤ a ∧ a ≤ 0xFE then a else 0

/-- First element of the candidate key (R314). -/
def Hub.key0 (h : Hub) : Nat := if h.flag Reg.GLB_STRAPS F.GLB_STRAPS_PARADE_LEAD then 0 else 1

/-- This node's entry (R316). -/
def Hub.ownEntry (h : Hub) : PEntry :=
  ⟨byte h.strapAddr, byte h.ring.addr, byte (h.verMax + bitB (h.flag Reg.GLB_STRAPS F.GLB_STRAPS_TWIN_EN) * 4), 0⟩

def Hub.surveyOf (h : Hub) (sv : Survey) (west : Bool) : Parade :=
  { phase := 1, west := west, complete := false, key0 := h.key0, gen := (h.ring.gen + 1) % 16, mac := h.ringMac, token := sv.token,
    ents := if !west || !sv.onEast then [h.ownEntry] else [] }

/-- A PARADE frame on a ring port. The specification names no destination for it; the model gives node 0x00, the neighbour, as for HELLO (log
entry 35). -/
def Hub.paradeSend (h : Hub) (p : Nat) (turned : Bool) (x : Parade) : Hub := h.coreSend p tParade (bitB turned * 4) 0 x.bytes

/-- Launch a survey on each UP ring port with a new token (R314, R315). The launcher's own entry leads the East survey, or the West
one where that is the only one (log entry 35). -/
def Hub.launchSurvey (h : Hub) (tries : Nat) : Hub :=
  if h.upPorts = [] ∨ h.acts = false ∨ h.ring.quiet = true then h else
  let t := h.baseNs 3 % 1000000000 % 65536
  let sv : Survey := { token := if t = 0 then 1 else t, at_ := h.now, tries := tries, onEast := h.linkUp 1, onWest := h.linkUp 0,
                       east := none, west := none, closedRing := false }
  let sent := (if sv.onEast then [(sv.token, false)] else []) ++ (if sv.onWest then [(sv.token, true)] else [])
  let h := { h with ring := { h.ring with survey := some sv, joined := none, relaunchAt := none, away := h.ring.away ++ sent } }
  let h := if sv.onEast then h.paradeSend 1 false (h.surveyOf sv false) else h
  if sv.onWest then h.paradeSend 0 false (h.surveyOf sv true) else h

/-- A Parade is in progress at this node: it has launched a survey, or taken part in one not longer ago than four
`PARADE_TMO_MS` (R326, log entry 35). -/
def Hub.paradeBusy (h : Hub) : Bool :=
  h.ring.survey.isSome || (match h.ring.joined with
    | some j => decide (h.now < j.at_ + 4 * h.ringMs F.RING_PAR_CFG_PARADE_TMO_MS)
    | none => false)

/-- The Parade completes at this node: address `a`, generation, node table (R317, R318). -/
def Hub.paradeApply (h : Hub) (a gen : Nat) (ents : List PEntry) (leader : Bool) : Hub :=
  let add := fun (t : Table NodeEnt) (e : PEntry) =>
    let n := e.given.toNat
    if n = 0 then t else
      tset ({} : NodeEnt) t n { verMax := e.info.toNat % 4, present := true, twin := testBit e.info.toNat 2,
                                strapped := e.strap != 0 && e.strap == e.given }
  let ring := { h.ring with
    addr := a, gen := gen % 16, quiet := decide (a = 0), leader := leader
    leaderAddr := if leader then a else h.ring.leaderAddr
    strapped := decide (a ≠ 0) && decide (a = h.strapAddr)
    nodes := ents.foldl add [], survey := none, joined := none, paradeSeen := true }
  let h := { h with ring := ring }
  let h := h.when (decide (a = 0)) fun h => h.evt Reg.RING_EVT F.RING_EVT_ADDR_CONFLICT
  let h := ((h.evt Reg.RING_EVT F.RING_EVT_PARADE_DONE).count Reg.RING_CNT_PARADES).noteUp
  let h : Hub := h.ring.cmds.foldl (fun h c => h.answer c.1 sOK []) h
  let h : Hub := { h with ring := { h.ring with cmds := [] } }
  if h.ring.state = .forming then
    ({ h with ring := { h.ring with state := h.judgedState } } : Hub).evt Reg.RING_EVT F.RING_EVT_STATE_CHANGE
  else h.ringJudge

/-- The three passes of R317 over the list, by index: addresses given so far. -/
def assignPass (want : PEntry → List Nat → Nat) (l : List (PEntry × Nat)) : List (PEntry × Nat) :=
  (l.foldl (fun (acc : List (PEntry × Nat) × List Nat) x =>
    if x.2 ≠ 0 then (acc.1 ++ [x], acc.2)
    else
      let w := want x.1 acc.2
      if w = 0 ∨ acc.2.contains w then (acc.1 ++ [x], acc.2) else (acc.1 ++ [(x.1, w)], w :: acc.2))
    ([], (l.map (·.2)).filter (· ≠ 0))).1

/-- The list with addresses assigned (R317). An entry whose strapped address is taken stays without one (R318). -/
def assignAll (l : List PEntry) : List PEntry :=
  let a := assignPass (fun e _ => e.strap.toNat) (l.map fun e => (e, 0))
  let a := assignPass (fun e _ => if e.strap = 0 then e.held.toNat else 0) a
  let a := assignPass (fun e taken => if e.strap = 0 then ((List.range 255).find? fun n => 1 ≤ n && !taken.contains n).getD 0 else 0) a
  a.map fun x => { x.1 with given := byte x.2 }

/-- The survey has returned: the leader assigns, sends the assignment and takes its own entry (R317). -/
def Hub.assign (h : Hub) (sv : Survey) : Hub :=
  let east := sv.east.getD []
  let west := if sv.closedRing then [] else sv.west.getD []
  let all := assignAll (east ++ west)
  let gen := (h.ring.gen + 1) % 16
  let mk := fun (w : Bool) (l : List PEntry) =>
    ({ phase := 2, west := w, complete := w && sv.closedRing, key0 := h.key0, gen := gen, mac := h.ringMac, token := sv.token, ents := l } : Parade)
  let h := if h.linkUp 1 then h.paradeSend 1 false (mk false (all.take east.length)) else h
  let h := if h.linkUp 0 then h.paradeSend 0 false (mk true (all.drop east.length)) else h
  let h : Hub := { h with ring := { h.ring with led := some sv.token } }
  h.paradeApply (all.headD ⟨0, 0, 0, 0⟩).given.toNat gen all true

/-- Note a survey that has come back, and go on when all have (R317). -/
def Hub.surveyBack (h : Hub) (sv : Survey) : Hub :=
  let h := { h with ring := { h.ring with survey := some sv } }
  if sv.closedRing ∨ ((sv.onEast = false ∨ sv.east.isSome) ∧ (sv.onWest = false ∨ sv.west.isSome)) then h.assign sv else h

/-- Pass a survey on: out of the other ring port, or turned where that is not UP (R316). -/
def Hub.passSurvey (h : Hub) (p : Nat) (x : Parade) : Hub :=
  if h.linkUp (1 - p) then h.paradeSend (1 - p) false x else h.paradeSend p true x

/-- The hub of a twin that does not act notes where its partner's entry stands: the last one of a survey that comes from the partner, the next
one of a survey that goes to it (R17, R316, log entry 32). -/
def Hub.followSurvey (h : Hub) (p : Nat) (x : Parade) : Hub :=
  let n := x.ents.length
  let i := if h.outerPort = some p then some n else if n = 0 then none else some (n - 1)
  let base : Joined := match h.ring.joined with
    | some j => if j.key0 = x.key0 ∧ j.mac = x.mac ∧ j.token = x.token then j else ⟨x.key0, x.mac, x.token, h.now, none, none⟩
    | none => ⟨x.key0, x.mac, x.token, h.now, none, none⟩
  let j := if x.west then { base with idxWest := i, at_ := h.now } else { base with idxEast := i, at_ := h.now }
  { h with ring := { h.ring with joined := some j } }

/-- Take part in a survey: append the entry, record its index, pass it on (R316). -/
def Hub.joinSurvey (h : Hub) (p : Nat) (x : Parade) : Hub :=
  if 254 ≤ x.ents.length then
    (({ h with ring := { h.ring with quiet := true, survey := none } } : Hub).evt Reg.RING_EVT F.RING_EVT_ADDR_CONFLICT).passSurvey p x
  else
    let i := some x.ents.length
    let base : Joined := match h.ring.joined with
      | some j => if j.key0 = x.key0 ∧ j.mac = x.mac ∧ j.token = x.token then j else ⟨x.key0, x.mac, x.token, h.now, none, none⟩
      | none => ⟨x.key0, x.mac, x.token, h.now, none, none⟩
    let j := if x.west then { base with idxWest := i, at_ := h.now } else { base with idxEast := i, at_ := h.now }
    let ent := h.ownEntry
    let h := { h with ring := { h.ring with joined := some j, survey := none } }
    h.passSurvey p { x with ents := x.ents ++ [ent] }

/-- A survey received on ring port `p` (R314 to R317, R320). -/
def Hub.surveyRx (h : Hub) (p : Nat) (turned : Bool) (x : Parade) : Hub :=
  let h := { h with ring := { h.ring with paradeSeen := true } }
  let sameKey := decide (x.key0 = h.key0) && decide (x.mac = h.ringMac)
  if sameKey && h.ring.away.contains (x.token, x.west) then
    let h : Hub := { h with ring := { h.ring with away := h.ring.away.erase (x.token, x.west) } }
    match h.ring.survey with
    | some sv =>
      if sv.token ≠ x.token then h
      else if x.west = false then h.surveyBack { sv with east := some x.ents, closedRing := !turned }
      else if turned then h.surveyBack { sv with west := some x.ents }
      else h
    | none => h
  else
    if turned then (if h.linkUp (1 - p) then h.paradeSend (1 - p) true x else h)
    else if h.acts = false then (h.followSurvey p x).passSurvey p x
    else
      let clash := sameKey
      let h := h.when clash fun h => h.evt Reg.RING_EVT F.RING_EVT_KEY_CLASH
      let mine := h.ring.survey.map (·.token)
      let better :=
        if clash then (match mine with
          | some t => decide (x.token < t)
          | none => true)
        else decide (x.key0 < h.key0) || (decide (x.key0 = h.key0) && decide (x.mac < h.ringMac))
      if (clash && mine == some x.token) = true then
        { h with ring := { h.ring with survey := none, relaunchAt := some (h.now + h.ringMs F.RING_PAR_CFG_PARADE_WAIT_MS) } }
      else if better then h.joinSurvey p x
      else if h.paradeBusy then h
      else h.launchSurvey 1

/-- An assignment received on ring port `p` (R317): passed on, and the entry at the recorded index read. -/
def Hub.assignmentRx (h : Hub) (p : Nat) (x : Parade) : Hub :=
  let h := { h with ring := { h.ring with paradeSeen := true } }
  if x.key0 = h.key0 ∧ x.mac = h.ringMac ∧ h.ring.led = some x.token then h else
  let h := if h.linkUp (1 - p) then h.paradeSend (1 - p) false x else h
  match h.ring.joined with
  | some j =>
    let idx := if x.west then j.idxWest else j.idxEast
    if j.key0 = x.key0 ∧ j.mac = x.mac ∧ j.token = x.token then
      match idx.bind fun i => x.ents[i]? with
      | some e => h.paradeApply e.given.toNat x.gen x.ents false
      | none => h
    else h
  | none => h

/-- A PARADE frame on an UP ring port. -/
def Hub.paradeRx (h : Hub) (p : Nat) (n : Nrp) (payload : List Byte) : Hub :=
  match paradeParse payload with
  | none => h.badHdr
  | some x => if x.phase = 1 then h.surveyRx p n.turned x else if x.phase = 2 then h.assignmentRx p x else h

/-- A `LATE_REQ` with payload `b` received on ring port `p` (R314, R319). The leader runs a Parade. The control core of another node
sends it on out of the other ring port, unless the frame is for this node or is its own request come round (log entry 35). -/
def Hub.lateRx (h : Hub) (p : Nat) (n : Nrp) (b : List Byte) : Hub :=
  if h.acts && h.ring.leader then (if h.paradeBusy then h else h.launchSurvey 1)
  else if (h.acts && h.toSelf n) || decide (beAt b 0 6 = h.ringMac) || !h.linkUp (1 - p) then h
  else h.coreSend (1 - p) tLate 0 n.dst (b.take 8)

/-- `PARADE_WAIT_EXPIRY` (R314, R315, R319). -/
def Hub.paradeWait (h : Hub) : Hub :=
  let again := match h.ring.relaunchAt with
    | some t => decide (t ≤ h.now)
    | none => false
  if again then h.launchSurvey 1
  else match h.ring.firstUp with
    | some t =>
      if t + h.ringMs F.RING_PAR_CFG_PARADE_WAIT_MS ≤ h.now ∧ h.ring.state = .forming ∧ h.paradeBusy = false then
        if h.ring.paradeSeen then h.lateReq else h.launchSurvey 1
      else h
    | none => h

def execParadeWaitExpiry (s : State) : Host.Outcome State Fault Refusal := s.on Hub.paradeWait

/-- `PARADE_TIMEOUT` (R320). -/
def Hub.paradeTimeout (h : Hub) : Hub :=
  match h.ring.survey with
  | some sv =>
    if sv.at_ + h.ringMs F.RING_PAR_CFG_PARADE_TMO_MS ≤ h.now then
      if sv.tries < 3 then h.launchSurvey (sv.tries + 1)
      else ({ h with ring := { h.ring with survey := none } } : Hub).evt Reg.RING_EVT F.RING_EVT_PARADE_FAIL
    else h
  | none => h

def execParadeTimeout (s : State) : Host.Outcome State Fault Refusal := s.on Hub.paradeTimeout

/-! ## Reception (R295, R301 to R303, R321, R324) -/

/-- The header of a received NRP frame is bad (R295). -/
def badHeader (bs : List Byte) : Bool :=
  let n := nrpParse bs
  decide (n.ver = 0) || decide (3 < n.ver) || decide (n.typ = 0) || decide (8 < n.typ) ||
    decide (bs.length < 14 + nrpHdrLen n.ver + n.len)

/-- Counted types (R297). -/
def countedType (t : Nat) : Bool := decide (tCheck ≤ t) && decide (t ≤ tRsp)

/-- Receive stamps of a frame of which `len` bytes have arrived: the instant of the first bit of its start-of-frame delimiter, one byte before
them, on each base (R340). -/
def Hub.rxStamps (h : Hub) (p len : Nat) : List Nat :=
  (List.range 4).map fun b =>
    (h.stampThen b (h.now - h.byteTime p (len + 1)) - psFine (toSigned 16 (h.fld (Reg.TIME_P_ADJ p) F.TIME_P_ADJ_RX_ADJ_PS))).toNat

/-- The port's judgement of the FCS, counted (R275). -/
def Hub.fcsCount (h : Hub) (p : Nat) (j : FcsJudge) : Hub :=
  match j with
  | .good => h
  | .stomped => (h.count (Reg.SWC_P_CNT_STOMP_RX p)).evt Reg.SWC_EVT F.SWC_EVT_STOMP_RX
  | .bad => (h.count (Reg.SWC_P_CNT_FCS_BAD p)).evt Reg.SWC_EVT F.SWC_EVT_FCS_BAD

/-- A group the node is a member of, as the table stood at the start of the cycle (R274). -/
def Hub.member (h : Hub) (g : Nat) : Bool := h.flagStart (Reg.SWC_GROUP g) F.SWC_GROUP_EN

/-- Node fields that no frame on the wire carries but a link-local one (R12). -/
def badNodes (n : Nrp) : Bool := n.src == 0 || n.src == 0xFF || (!n.group && (n.dst == 0 || n.dst == 0xFF))

/-- The copy on `P1` of a frame that was judged in this cycle and waits to enter Midway as the one to be delivered. -/
def Hub.sameCycle (h : Hub) (same : List Byte → Bool) : Option Arrival :=
  h.swc.arrivals.find? fun a => a.port == 1 && a.keepLocal && a.at_ == h.now && same (h.frame a.id).bytes

/-- `P0` is judged first in a cycle (R307): where the copy on `P1` has been taken in this cycle, the one on `P0` is delivered and the other loses
its local copy, or is dropped where it was for the node alone. -/
def Hub.firstP0 (h : Hub) (a : Arrival) : Hub :=
  let h : Hub := { h with swc := { h.swc with arrivals := h.swc.arrivals.erase a } }
  let bs := (h.frame a.id).bytes
  if h.isNrp bs && h.toSelf (nrpParse bs) && h.outerPort != some 1 then h.release a.id else h.arrive { a with keepLocal := false }

/-- Step 5 of R301: the local copy survives. `k` is the source's state before the frame was observed. -/
def Hub.deliveryJudge (h : Hub) (n : Nrp) (k : Seen) (p : Nat) : Bool × Hub :=
  let cand := h.toSelf n || (n.group && h.member n.dst)
  if cand = false ∨ h.ring.addr = 0 ∨ h.ring.quiet = true then (false, h)
  else if n.ver = 3 ∧ n.gen ≠ h.ring.gen ∧ n.gen ≠ (h.ring.gen + 15) % 16 then
    (false, (h.count Reg.RING_CNT_GEN_DROP).evt Reg.RING_EVT F.RING_EVT_GEN_DROP)
  else if countedType n.typ then h.ddJudge n k p
  else (true, h)

/-- A frame carries the node's own address; a quiet node takes none for its own (R302, R318). -/
def Hub.ownFrame (h : Hub) (n : Nrp) : Bool := h.ring.addr != 0 && !h.ring.quiet && n.src == h.ring.addr

/-- Two copies of one counted frame. -/
def Hub.twinOf (h : Hub) (n : Nrp) (bs : List Byte) : Bool := h.isNrp bs && (nrpParse bs).src == n.src && (nrpParse bs).seq == n.seq

/-- A frame of the node itself returns (R302, R311). -/
def Hub.removeOwn (h : Hub) (n : Nrp) (p : Nat) (good : Bool) : Hub :=
  let h := h.count Reg.RING_CNT_SRC_REMOVED
  if good && n.typ == tCheck && decide (p ≤ 1) then (h.setRport p { h.rport p with checkAt := some h.now }).ringJudge else h

/-- A version-2 or version-3 frame with `HOPS` 0 (R300). -/
def Hub.hopsEnd (h : Hub) (n : Nrp) : Hub :=
  if 2 ≤ n.ver ∧ n.hops = 0 then (h.count Reg.RING_CNT_HOP_DROP).evt Reg.RING_EVT F.RING_EVT_HOP_DROP else h

/-- The judgement of delivery, `P0` first among the two copies of a cycle (R301, R307). -/
def Hub.deliveryFirst (h : Hub) (n : Nrp) (k : Seen) (p : Nat) : Bool × Hub :=
  let other := if p = 0 then h.sameCycle (h.twinOf n) else none
  match h.deliveryJudge n k p, other with
  | (false, h), some a => (true, h.firstP0 a)
  | r, _ => r

/-- An NRP frame on ring port `p`, steps 1 to 6 of R301. -/
def Hub.nrpRx (h : Hub) (p : Nat) (bs : List Byte) (good : Bool) : Hub :=
  let body := bs.take (bs.length - 4)
  let n := nrpParse body
  if badHeader body then h.badHdr
  else if n.typ = tHello then (if good then h.helloRx p (nrpPayload body) else h)
  else if h.linkUp p = false then h
  else if n.typ = tParade then (if good then h.paradeRx p n (nrpPayload body) else h)
  else if n.typ = tLate then (if good then h.lateRx p n (nrpPayload body) else h)
  else if h.ownFrame n then h.removeOwn n p good
  else if good = false ∨ badNodes n = true then h
  else
    let h := h.sourceAge n.src
    let k := h.seen n
    let h := if countedType n.typ then (h.observe n).ringJudge else h
    let (keep, h) := h.deliveryFirst n k p
    let h := h.hopsEnd n
    if h.toSelf n && !keep && h.outerPort != some p then h else h.toMidway p body keep (h.rxStamps p bs.length)

/-- The entry of a MAC address includes `P2` (R322). -/
def Hub.behindP2 (h : Hub) (mac vid : Nat) : Bool :=
  match h.macFind mac vid with
  | some i => testBit (h.macEnt i).ports 2
  | none => false

/-- A standard frame whose source is the hub or a node behind its interlink is removed on its return (R322). -/
def Hub.stdOwn (h : Hub) (bs : List Byte) : Bool :=
  beAt bs 6 6 == h.ringMac || h.tablesThen.behindP2 (beAt bs 6 6) (stdParse bs).vid

/-- A Pdelay message, which is link-local (R345). -/
def pdelayMsg (bs : List Byte) : Bool :=
  let m := stdParse bs
  let t := beAt bs m.data 1 % 16
  m.etype == etPtp && decide (2 ≤ t ∧ t ≤ 3)

/-- The source of a standard frame is learned (R272). -/
def Hub.learnFrom (h : Hub) (p : Nat) (bs : List Byte) : Hub := h.macLearn p (beAt bs 6 6) (stdParse bs).vid

/-- An HSR candidate: to the hub, to a group, or to a node behind the interlink (R322). -/
def Hub.hsrCand (h : Hub) (bs : List Byte) : Bool :=
  beAt bs 0 6 == h.ringMac || groupAddr bs || h.tablesThen.behindP2 (beAt bs 0 6) (stdParse bs).vid

/-- The judgement of an HSR candidate, `P0` first among the two copies of a cycle (R307, R322). -/
def Hub.hsrFirst (h : Hub) (bs : List Byte) (seq p : Nat) : Bool × Hub :=
  let same := fun (b : List Byte) => !h.isNrp b && beAt b 6 6 == beAt bs 6 6 && (stdParse b).hsr.map (·.2) == some seq
  let other := if p = 0 then h.sameCycle same else none
  match h.hsrJudge (beAt bs 6 6) seq p, other with
  | (false, h), some a => (true, h.firstP0 a)
  | r, _ => r

/-- A standard frame on ring port `p` (R321, R322). -/
def Hub.stdRx (h : Hub) (p : Nat) (bs : List Byte) (good : Bool) : Hub :=
  let body := bs.take (bs.length - 4)
  if good = false ∨ h.linkUp p = false ∨ h.flag Reg.RING_CTL F.RING_CTL_HSR_EN = false then h
  else match (stdParse body).hsr with
    | none => h.count (Reg.RING_P_CNT_UNTAGGED p)
    | some (_, seq) =>
      if h.stdOwn body then h.count Reg.RING_CNT_SRC_REMOVED
      else
        let h := h.learnFrom p body
        if pdelayMsg body then h
        else
          let (keep, h) := if h.hsrCand body then h.hsrFirst body seq p else (true, h)
          if beAt body 0 6 = h.ringMac ∧ keep = false then h else h.toMidway p body keep (h.rxStamps p bs.length)

/-- A frame that has passed 2,048 bytes (R267). -/
def Hub.oversize (h : Hub) : Hub := (h.count Reg.SWC_CNT_OVERSIZE).evt Reg.SWC_EVT F.SWC_EVT_OVERSIZE

/-- A frame received on ring port `p`. `bs` runs from the destination address to the FCS. A copy begun cut-through of a frame that does not go on
to Midway ends with the stomp code (R277). -/
def Hub.ringRx (h : Hub) (p : Nat) (bs : List Byte) : Hub :=
  if h.ringOn = false ∨ (h.rport p).link = .down then h
  else if bs.length < 64 then (h.count (Reg.RING_P_CNT_RUNT p)).cutEnd p bs
  else
    let j := judgeFcs bs
    let h := h.fcsCount p j
    let h := if 2048 < bs.length then h.oversize
      else if h.isNrp bs then h.nrpRx p bs (j == .good) else h.stdRx p bs (j == .good)
    h.cutEnd p (bs.take (bs.length - 4))

/-- A frame up to its FCS field, and that field; the second is short or empty where a frame breaks off before it. -/
def execRingFrameRx (p : Fin 2) (bs fcs : List Byte) (s : State) : Host.Outcome State Fault Refusal := s.on fun h => h.ringRx p (bs ++ fcs)

/-- A link-local frame of type `typ` and, for a Parade, of phase `phase`, as received by `ringRx`. -/
def Hub.linkLocalRx (h : Hub) (p : Nat) (bs : List Byte) (typ : Nat) (phase : Option Nat) : Hub :=
  let n := nrpParse bs
  let ph := match phase with
    | some k => beAt bs (14 + nrpHdrLen n.ver) 1 == k
    | none => true
  if h.isNrp bs && n.typ == typ && ph then h.ringRx p bs else h

def execHelloRx (p : Fin 2) (bs : List Byte) (s : State) : Host.Outcome State Fault Refusal := s.on fun h => h.linkLocalRx p bs tHello none
def execParadeSurveyRx (p : Fin 2) (bs : List Byte) (s : State) : Host.Outcome State Fault Refusal :=
  s.on fun h => h.linkLocalRx p bs tParade (some 1)
def execParadeAssignmentRx (p : Fin 2) (bs : List Byte) (s : State) : Host.Outcome State Fault Refusal :=
  s.on fun h => h.linkLocalRx p bs tParade (some 2)
def execLateReqRx (p : Fin 2) (bs : List Byte) (s : State) : Host.Outcome State Fault Refusal := s.on fun h => h.linkLocalRx p bs tLate none

/-- An NRP frame received on `P2` (R324), of `len` bytes with its FCS. -/
def Hub.nrpRxP2 (h : Hub) (bs : List Byte) (len : Nat) : Hub :=
  let n := nrpParse bs
  if badHeader bs then h.badHdr
  else if n.typ = tHello ∨ n.typ = tParade ∨ n.typ = tLate then h
  else if h.ownFrame n then h.removeOwn n 2 true
  else if badNodes n then h.count Reg.RING_CNT_P2_NRP_DROP
  else
    let h := h.sourceAge n.src
    let (keep, h) := h.deliveryJudge n (h.seen n) 2
    let h := h.hopsEnd n
    let fwd := h.flag Reg.RING_CTL F.RING_CTL_P2_NRP_IN && !h.toSelf n
    let h := h.when (!fwd) fun h => h.count Reg.RING_CNT_P2_NRP_DROP
    if fwd || keep then h.toMidway 2 bs keep (h.rxStamps 2 len) else h

/-- A frame received on `P2` (R275, R295, R324). -/
def Hub.p2Rx (h : Hub) (bs : List Byte) : Hub :=
  if h.ringOn = false ∨ (h.rport 2).link = .down then h
  else if bs.length < 64 then (h.count (Reg.RING_P_CNT_RUNT 2)).cutEnd 2 bs
  else
    let j := judgeFcs bs
    let h := h.fcsCount 2 j
    let body := bs.take (bs.length - 4)
    let h :=
      if 2048 < bs.length then h.oversize
      else if j ≠ .good then h
      else if h.isNrp bs then h.nrpRxP2 body bs.length
      else
        let h := h.learnFrom 2 body
        if pdelayMsg body then h else h.toMidway 2 body true (h.rxStamps 2 bs.length)
    h.cutEnd 2 body

/-- The first bytes of a frame, its header among them, show that the ring block lets it go on to Midway (R301). -/
def Hub.headPasses (h : Hub) (p : Nat) (bs : List Byte) : Bool :=
  let n := nrpParse bs
  if p = 2 then
    (h.rport 2).link != .down &&
      (if h.isNrp bs then decide (1 ≤ n.ver ∧ n.ver ≤ 3) && countedType n.typ && !h.ownFrame n && !badNodes n else !pdelayMsg bs)
  else
    h.linkUp p &&
      (if h.isNrp bs then decide (1 ≤ n.ver ∧ n.ver ≤ 3) && countedType n.typ && !h.ownFrame n && !badNodes n
       else h.flag Reg.RING_CTL F.RING_CTL_HSR_EN && (stdParse bs).hsr.isSome && !h.stdOwn bs && !pdelayMsg bs)

/-- The first 64 or more bytes of a frame have come on a SerDes port (R274): they are buffered, and the frame waits for its lookup. -/
def Hub.headRx (h : Hub) (p : Nat) (bs : List Byte) : Hub :=
  if h.ringOn && h.flag Reg.SWC_CTL F.SWC_CTL_EN && (h.comingOn p).isNone && decide (64 ≤ bs.length ∧ bs.length ≤ 2048) && h.headPasses p bs then
    let (h, id) := h.bufferNew p bs.length bs false (h.rxStamps p bs.length)
    let h := h.setComing p (some id)
    if h.inBuffer id then h.arrive ⟨p, id, true, false, h.now⟩ else h
  else h

/-- `MIDWAY_FRAME_IN` (R262): the next frame that a SerDes port has passed on enters Midway, a frame is received on `P2`, or the first bytes of a
frame have come on a SerDes port. Frames of `P4`, `P5` and `P6` enter with the commands that originate them. -/
def Hub.midwayFrameIn (h : Hub) (x : MidwayIn) : Hub :=
  match x with
  | .next => h.midwayNext
  | .p2 bs => h.p2Rx bs
  | .head p bs => h.headRx p bs

def execMidwayFrameIn (x : MidwayIn) (s : State) : Host.Outcome State Fault Refusal := s.on fun h => h.midwayFrameIn x

/-! ## Commands and registers (R323, R326, R327) -/

/-- `RING_PARADE` (R326). -/
def runRingParade (h : Hub) (c : CmdIn) : Ack :=
  if c.zeroFrom 1 = false then .refuse sEARG 0 0
  else if h.ringOn = false ∨ h.upPorts = [] ∨ h.paradeBusy = true then .refuse sESTATE 0 0
  else
    let h := if h.ring.leader then h.launchSurvey 1 else h.lateReq
    .later { h with ring := { h.ring with cmds := h.ring.cmds ++ [(c.ref, h.now)] } }

def execRingParade (src : CmdSrc) (tag : Byte) (s : State) : Host.Outcome State Fault Refusal :=
  s.on fun h => h.accept (mkCmd src 0x0201 tag []) runRingParade

/-- `RING_PARADE_TIMEOUT` (R326). -/
def Hub.ringParadeTimeout (h : Hub) : Hub :=
  let timedOut := fun (c : CmdRef × Nat) => decide (c.2 + 4 * h.ringMs F.RING_PAR_CFG_PARADE_TMO_MS ≤ h.now)
  let out := h.ring.cmds.filter timedOut
  let h := { h with ring := { h.ring with cmds := h.ring.cmds.filter fun c => !timedOut c } }
  out.foldl (fun h c => h.answer c.1 sETIMEOUT []) h

def execRingParadeTimeout (s : State) : Host.Outcome State Fault Refusal := s.on Hub.ringParadeTimeout

/-- `RING_LINK_RESTART` (R326). -/
def runRingLinkRestart (h : Hub) (c : CmdIn) : Ack :=
  let p := c.arg 1
  if 3 ≤ p ∨ c.zeroFrom 2 = false then .refuse sEARG 0 0
  else if h.ringOn = false ∨ h.fld (Reg.RING_P_CFG p) F.RING_P_CFG_MODE = 0 then .refuse sESTATE (h.rport p).link.code p
  else .done (h.linkDown p) []

def execRingLinkRestart (src : CmdSrc) (tag : Byte) (p : Word) (s : State) : Host.Outcome State Fault Refusal :=
  s.on fun h => h.accept (mkCmd src 0x0202 tag [p]) runRingLinkRestart

/-- A write of `RING_CTL` (R327): setting `EN` needs valid versions; the other fields are held while the block runs. Clearing `EN`
takes every port DOWN (log entry 36). -/
def Hub.ringCtlWrite (h : Hub) (w : Word) : Hub :=
  let refuse := fun (h : Hub) => h.evt Reg.RING_EVT F.RING_EVT_WRITE_REFUSED
  let en := bits w F.RING_CTL_EN = 1
  if h.ringOn then
    let changed := decide ((w &&& 6) ≠ (h.rd Reg.RING_CTL &&& 6))
    let h := h.when changed refuse
    if en then h
    else
      let h := [0, 1, 2, 3].foldl (fun h p => h.linkDown p) h
      h.setFld Reg.RING_CTL F.RING_CTL_EN 0
  else if en ∧ (h.verMin = 0 ∨ h.verMax = 0 ∨ h.verMax < h.verMin) then refuse h
  else h.wr Reg.RING_CTL (w &&& 7)

/-- `RING_ENABLE` (R327): a write of `RING_CTL` that sets `EN`. -/
def execRingEnable (w : Word) (s : State) : Host.Outcome State Fault Refusal := s.on fun h => h.ringCtlWrite (w ||| 1)

/-- The HSR supervision frame for one address, or for the RedBox itself when `mac` is its own (R323, log entry 30). -/
def Hub.superFrame (h : Hub) (mac : Nat) : List Byte :=
  let redbox := h.ringMac
  let tlv := if mac = redbox then [23, 6] ++ beBytes 6 mac else [23, 6] ++ beBytes 6 mac ++ [30, 6] ++ beBytes 6 redbox
  padTo 60 (beBytes 6 0x01154E000100 ++ beBytes 6 redbox ++ beBytes 2 etSuper ++ beBytes 2 1 ++ beBytes 2 h.ring.hsrSeq ++ tlv ++ [0, 0])

/-- `HSR_SUPERVISION_TX` (R323): for the hub and for up to 512 entries learned on `P2`, on both ring ports, while the hub originates frames (R16,
R305, R318). -/
def Hub.hsrSupervision (h : Hub) : Hub :=
  if h.flag Reg.RING_CTL F.RING_CTL_HSR_EN = false ∨ h.ringOn = false ∨ h.acts = false ∨ h.originates = false then h else
  let learned := (h.swc.mac.filter fun x => x.2.valid && !x.2.static && testBit x.2.ports 2).take 512
  (h.ringMac :: learned.map (·.2.mac)).foldl (fun h mac =>
    let seq := h.ring.hsrSeq
    let bs := h.superFrame mac
    let h := { h with ring := { h.ring with hsrSeq := (seq + 1) % 65536 } }
    h.corePlace 2 { bytes := bs, hsr := some seq }) h

def execHsrSupervisionTx (s : State) : Host.Outcome State Fault Refusal := s.on Hub.hsrSupervision

end Sys2Proof.Machine
end

