-- ==== Sys2Proof/Machine/Time.lean ====
section
/-! DEFINITION. The Tuning block (chapter 12): advance of the bases, steps, slews and permits, servos, event capture, pulse
outputs, PTP messages and the time commands. -/

namespace Sys2Proof.Machine

def Hub.tb (h : Hub) (b : Nat) : TimeBase := tget ({} : TimeBase) h.tim.base b
def Hub.setTb (h : Hub) (b : Nat) (x : TimeBase) : Hub := { h with tim := { h.tim with base := tset ({} : TimeBase) h.tim.base b x } }
def Hub.timeEvt (h : Hub) (f : Nat × Nat) : Hub := h.evt Reg.TIME_EVT f
def Hub.timeRefuse (h : Hub) : Hub := h.timeEvt F.TIME_EVT_WRITE_REFUSED

/-- Units of 10^-12 ns in one nanosecond, and nanoseconds after which 48-bit seconds wrap. -/
def subNs : Nat := 1000000000000
def nsWrap : Nat := 2 ^ 48 * 1000000000

def ServoSt.code : ServoSt → Nat
  | .unset => 0 | .free => 1 | .acquiring => 2 | .locked => 3 | .holdover => 4 | .refused => 5

/-- `TB3` is always `FREE` (R347). -/
def Hub.servo (h : Hub) (b : Nat) : ServoSt := if b = 3 then .free else (h.tb b).servo

/-- A change of a servo's state is flagged (R347). -/
def Hub.servoTo (h : Hub) (b : Nat) (st : ServoSt) : Hub :=
  if (h.tb b).servo = st then h
  else (h.setTb b { h.tb b with servo := st, ok := 0, bad := 0 }).evtN Reg.TIME_EVT F.TIME_EVT_STATE_CHANGE b

def Hub.tbSrc (h : Hub) (b : Nat) : Nat := h.fld (Reg.TB_SRC b) F.TB_SRC_SRC
def Hub.jumpNs (h : Hub) (b : Nat) : Nat := h.fld (Reg.TB_JUMP b) F.TB_JUMP_JUMP_NS
def Hub.lockNs (h : Hub) (b : Nat) : Nat := h.fld (Reg.TB_SERVO b) F.TB_SERVO_LOCK_NS
def Hub.slewMax (h : Hub) (b : Nat) : Nat := h.fld (Reg.TB_SERVO b) F.TB_SERVO_SLEW_MAX
def Hub.freqPpt (h : Hub) (b : Nat) : Int := if b = 3 then 0 else toSigned 32 (h.rd (Reg.TB_FREQ b)).toNat

/-- `TB_STAT` (R355). -/
def Hub.tbStat (h : Hub) (b : Nat) : Nat :=
  let st := h.servo b
  st.code + bitB (st != .unset) * 8 + bitB (h.tb b).permit.isSome * 16 + bitB (h.tb b).slew.isSome * 32 + bitB (h.glb.src != 0) * 64

/-- A signed value held within ±`lim`. -/
def clampInt (lim : Nat) (z : Int) : Int := max (-(lim : Int)) (min (lim : Int) z)

/-- A signed value saturated to 32 bits. -/
def sat32 (z : Int) : Word := word (ofSigned 32 (max (-(2 ^ 31)) (min (2 ^ 31 - 1) z)))

/-- The house word `TBn_STATE` (R349). -/
def Hub.tbHouse (h : Hub) (b : Nat) : Word :=
  let ofs := ofSigned 16 (clampInt 32767 (toSigned 32 (h.rd (Reg.TB_OFS b)).toNat))
  word (h.tbStat b + ofs * 256 + h.tbSrc b * 2 ^ 24)

/-- A `TIME` record (R367). -/
def Hub.jnlTime (h : Hub) (b : Nat) : Hub :=
  let s := h.baseNs b / 1000000000
  h.jnl 0x0D [word b, word s, word (s / 2 ^ 32), word (h.baseNs b % 1000000000), word (ofSigned 32 (h.freqPpt b)), word (h.servo b).code]

/-! ## Pulse outputs against their base (R339, R350, R351) -/

def ppoWrap : Nat := 2 ^ 40 * subNs

/-- How far base time, `ADJ_PS` ahead, is past the target of output `k`, in 10^-12 ns, by the wrap rule (R339). -/
def Hub.ppoLag (h : Hub) (k : Nat) : Int :=
  let t := h.tb (h.fld (Reg.PPO_CFG k) F.PPO_CFG_TB)
  let target : Nat := ((h.rd (Reg.PPO_START_LO k)).toNat + h.fld (Reg.PPO_START_HI k) F.PPO_START_HI_START_HI * 2 ^ 32) * subNs +
    h.fld (Reg.PPO_START_HI k) F.PPO_START_HI_START_FRAC * (subNs / 256)
  let adj := toSigned 16 (h.fld (Reg.PPO_ADJ k) F.PPO_ADJ_ADJ_PS) * 1000000000
  let d := (((t.ns * subNs + t.sub : Nat) : Int) + adj - (target : Int)) % (ppoWrap : Int)
  if d < (ppoWrap / 2 : Nat) then d else d - (ppoWrap : Int)

def Hub.ppoArmed (h : Hub) (k : Nat) : Bool := h.flag (Reg.PPO_STAT k) F.PPO_STAT_ARMED
def Hub.ppoActive (h : Hub) (k : Nat) : Bool := h.flag (Reg.PPO_STAT k) F.PPO_STAT_ACTIVE
def Hub.ppoDisarm (h : Hub) (k : Nat) : Hub := h.setFld (Reg.PPO_STAT k) F.PPO_STAT_ARMED 0

/-- The target moved on by `n` periods. -/
def Hub.ppoAdvance (h : Hub) (k n : Nat) : Hub :=
  let t := (h.rd (Reg.PPO_START_LO k)).toNat + h.fld (Reg.PPO_START_HI k) F.PPO_START_HI_START_HI * 2 ^ 32
  let t := (t + n * (h.rd (Reg.PPO_PERIOD k)).toNat) % 2 ^ 40
  (h.wr (Reg.PPO_START_LO k) (word t)).setFld (Reg.PPO_START_HI k) F.PPO_START_HI_START_HI (t / 2 ^ 32)

/-- A target that has passed without its pulse (R351): a one-shot output is `MISSED` and disarms; a periodic one goes on to the
first target not yet reached. -/
def Hub.ppoPassed (h : Hub) (k : Nat) : Hub :=
  let d := h.ppoLag k
  if d < 0 then h
  else if h.flag (Reg.PPO_CFG k) F.PPO_CFG_PERIODIC then
    h.ppoAdvance k (d.toNat / (max 1 (h.rd (Reg.PPO_PERIOD k)).toNat * subNs) + 1)
  else ((h.evt (Reg.PPO_STAT k) F.PPO_STAT_MISSED).timeEvt F.TIME_EVT_PPO_MISSED).ppoDisarm k

/-! ## The advance of the bases (R331, R334, R337) -/

/-- Add nanoseconds to a base; its 48-bit seconds wrap. -/
def TimeBase.add (t : TimeBase) (z : Int) : TimeBase := { t with ns := (((t.ns : Int) + z) % (nsWrap : Int)).toNat }

/-- Advance a base by an amount in 10^-12 ns. -/
def TimeBase.run (t : TimeBase) (inc : Int) : TimeBase :=
  let s := (t.sub : Int) + inc
  { t.add (s / (subNs : Int)) with sub := (s % (subNs : Int)).toNat }

/-- What a slew adds in one tick: its rate, or the rest of its offset. -/
def Slew.part (s : Slew) : Int := clampInt (5 * s.ppm * 1000000) s.rem

/-- One tick's increment in 10^-12 ns. -/
def Hub.tbInc (h : Hub) (b : Nat) : Int :=
  5 * ((subNs : Int) + h.freqPpt b) + (match (h.tb b).slew with
    | some s => s.part
    | none => 0)

/-- Note how the base runs from this tick on, where it does not go on as before; what lies more than a second back is let go. -/
def TimeBase.keep (t : TimeBase) (now : Nat) (inc : Int) (jump : Bool) : TimeBase :=
  let k := now / 300
  let same := match t.past with
    | s :: _ => s.inc == inc && !jump && t.back == 0
    | [] => false
  if same then t
  else
    let old := t.past.takeWhile fun s => decide (now < s.tick * 300 + tuS)
    { t with past := ⟨k, t.ns, t.sub, inc, t.back⟩ :: (old ++ (t.past.drop old.length).take 1) }

/-- An accepted step takes effect (R338): stamps of this cycle keep the time before it; Strum and pulse outputs see it. -/
def Hub.applyStep (h : Hub) (b : Nat) (z : Int) : Hub :=
  let t := h.tb b
  let due := (List.range 16).filter fun k =>
    h.ppoArmed k && !h.ppoActive k && h.fld (Reg.PPO_CFG k) F.PPO_CFG_TB == b && decide (h.ppoLag k < 0)
  let h := h.setTb b { t.add z with back := t.back + z }
  let h := h.strumStepped b (decide (0 < z))
  let h := if 0 < z then due.foldl (fun h k => h.ppoPassed k) h else h
  h.jnlTime b

def Hub.applyOp (h : Hub) (b : Nat) : TimeOp → Hub
  | .step z => h.applyStep b z
  | .permit on => (h.setTb b { h.tb b with permit := if on then some h.now else none }).jnlTime b
  | .slew z ppm => (h.setTb b { h.tb b with slew := some { rem := z * (subNs : Int), ppm := ppm } }).jnlTime b

/-- One `CLK_TIME` tick of base `b`: accepted changes take effect, then the base advances (R331, R334, R337). -/
def Hub.tbTick (h : Hub) (b : Nat) : Hub :=
  let ops := (h.tb b).ops
  let h := h.setTb b { h.tb b with ops := [], back := 0 }
  let h := ops.foldl (fun h o => h.applyOp b o) h
  let t := h.tb b
  let slew := t.slew.map fun s => { s with rem := s.rem - s.part }
  h.setTb b (({ t.run (h.tbInc b) with slew := slew } : TimeBase).keep h.now (h.tbInc b) false)

/-- The `CLK_TIME` tick. -/
def Hub.timeTick (h : Hub) : Hub := h.each 4 Hub.tbTick

/-! ## Judgement of a step (R335, R336) -/

/-- Judge a step of base `b`; an accepted one waits for the next cycle. `none` where it is refused, with what that does. -/
def Hub.judgeStep (h : Hub) (b : Nat) (z : Int) : Bool × Hub :=
  if b = 3 then (false, h) else
  let t := h.tb b
  let accept := fun (h : Hub) =>
    if z = 0 then h
    else (h.setTb b { h.tb b with ops := (h.tb b).ops ++ [.step z] } |>.evtN Reg.TIME_EVT F.TIME_EVT_STEPPED b).count (Reg.TB_CNT_STEPS b)
  let back := fun (h : Hub) => if (h.tb b).servo = .refused then h.servoTo b .acquiring else h
  if t.servo = .unset then (true, accept (h.servoTo b (if h.tbSrc b = 0 then .free else .acquiring)))
  else if z.natAbs ≤ h.jumpNs b then (true, back (accept h))
  else if t.permit.isSome then (true, back (accept (h.setTb b { t with permit := none })))
  else
    let h := ((h.evtN Reg.TIME_EVT F.TIME_EVT_TIME_JUMP_REFUSED b).count (Reg.TB_CNT_REFUSED b)).wr (Reg.TB_REFUSED_OFS b) (sat32 z)
    (false, h)

/-! ## Commands (R353) -/

/-- A step asked by a command: `ESTATE` where it is refused; what R335 does then happens although the command is refused. -/
def Hub.stepCmd (h : Hub) (c : CmdIn) (b : Nat) (z : Int) : Ack ⊕ Hub :=
  if h.tbSrc b ≠ 0 then .inl (.refuse sESTATE (h.servo b).code b)
  else match h.judgeStep b z with
    | (true, h) => .inl (.done h [])
    | (false, h) => .inr (h.refuse c sESTATE (h.servo b).code b)

/-- Accept a command whose refusal for want of a permit has the effects of R335. -/
def Hub.acceptStep (h : Hub) (c : CmdIn) (run : Hub → Ack ⊕ Hub) : Hub :=
  if h.served c = false then h else
  match h.precheck c, run h with
  | none, .inr _ =>
    let h := match c.src with
      | .queue q => h.jnl 0x08 (word q.val :: word (c.code + c.tag * 65536 + c.rsv * 2 ^ 24) :: c.args)
      | _ => h
    match run h with
    | .inr h => h
    | .inl _ => h
  | _, _ => h.accept c fun h _ => match run h with
      | .inl a => a
      | .inr _ => .refuse sESTATE 0 0

def Hub.timeSetRun (c : CmdIn) (h : Hub) : Ack ⊕ Hub :=
  let b := c.arg 1
  if 3 ≤ b ∨ 65536 ≤ c.arg 3 ∨ 1000000000 ≤ c.arg 4 ∨ c.zeroFrom 5 = false then .inl (.refuse sEARG 0 b)
  else
    let t : Nat := (c.arg 2 + c.arg 3 * 2 ^ 32) * 1000000000 + c.arg 4
    h.stepCmd c b ((t : Int) - (h.baseNs b : Int))

def Hub.timeStepRun (c : CmdIn) (h : Hub) : Ack ⊕ Hub :=
  let b := c.arg 1
  if 3 ≤ b ∨ c.zeroFrom 4 = false then .inl (.refuse sEARG 0 b)
  else h.stepCmd c b (toSigned 64 (c.arg 2 + c.arg 3 * 2 ^ 32))

def runTimePermit (h : Hub) (c : CmdIn) : Ack :=
  let b := c.arg 1
  if 3 ≤ b ∨ 2 ≤ c.arg 2 ∨ c.zeroFrom 3 = false then .refuse sEARG 0 b
  else .done (h.setTb b { h.tb b with ops := (h.tb b).ops ++ [.permit (c.arg 2 == 1)] }) []

/-- A slew is in progress, or accepted in this cycle. -/
def TimeBase.slewing (t : TimeBase) : Bool :=
  t.slew.isSome || t.ops.any fun o => match o with
    | .slew _ _ => true
    | _ => false

def runTimeSlew (h : Hub) (c : CmdIn) : Ack :=
  let b := c.arg 1
  if 3 ≤ b ∨ c.arg 3 = 0 ∨ 1000 < c.arg 3 ∨ c.zeroFrom 4 = false then .refuse sEARG 0 b
  else if h.tbSrc b ≠ 0 ∨ (h.tb b).slewing = true then .refuse sESTATE (h.servo b).code b
  else .done (h.setTb b { h.tb b with ops := (h.tb b).ops ++ [.slew (toSigned 32 (c.arg 2)) (c.arg 3)] }) []

/-- `TIME_SET` and `TIME_STEP` as queues, scripts and the journal give them. -/
def Hub.timeSet (h : Hub) (c : CmdIn) : Hub := h.acceptStep c (Hub.timeSetRun c)
def Hub.timeStep (h : Hub) (c : CmdIn) : Hub := h.acceptStep c (Hub.timeStepRun c)

def execTimeSet (src : CmdSrc) (tag : Byte) (base secLo secHi ns : Word) (s : State) : Host.Outcome State Fault Refusal :=
  s.on fun h => h.timeSet (mkCmd src 0x0801 tag [base, secLo, secHi, ns])
def execTimeStep (src : CmdSrc) (tag : Byte) (base ofsLo ofsHi : Word) (s : State) : Host.Outcome State Fault Refusal :=
  s.on fun h => h.timeStep (mkCmd src 0x0802 tag [base, ofsLo, ofsHi])
def execTimeStepPermit (src : CmdSrc) (tag : Byte) (base arm : Word) (s : State) : Host.Outcome State Fault Refusal :=
  s.on fun h => h.accept (mkCmd src 0x0803 tag [base, arm]) runTimePermit
def execTimeSlew (src : CmdSrc) (tag : Byte) (base ofs rate : Word) (s : State) : Host.Outcome State Fault Refusal :=
  s.on fun h => h.accept (mkCmd src 0x0804 tag [base, ofs, rate]) runTimeSlew

/-- `PERMIT_EXPIRY` (R336). -/
def Hub.permitExpiry (h : Hub) (b : Nat) : Hub :=
  match (h.tb b).permit with
  | some t =>
    if t + 60 * tuS ≤ h.now then (h.setTb b { h.tb b with permit := none }).evtN Reg.TIME_EVT F.TIME_EVT_PERMIT_EXPIRED b else h
  | none => h

def execPermitExpiry (b : Fin 3) (s : State) : Host.Outcome State Fault Refusal := s.on fun h => h.permitExpiry b

/-- `SLEW_COMPLETE` (R334, R347). -/
def Hub.slewComplete (h : Hub) (b : Nat) : Hub :=
  match (h.tb b).slew with
  | some s =>
    if s.rem = 0 then
      let h := h.setTb b { h.tb b with slew := none }
      if (h.tb b).servo = .refused then h.servoTo b .acquiring else h
    else h
  | none => h

def execSlewComplete (b : Fin 3) (s : State) : Host.Outcome State Fault Refusal := s.on fun h => h.slewComplete b

/-! ## The servos (R347, R348) -/

/-- The offset that an input gives base `b`, local time less source time; none where the input is not of the base's source. -/
def Hub.servoOffset (h : Hub) (b : Nat) : ServoIn → Option Int
  | .ptp p origin corr ingress =>
    if h.tbSrc b = 1 then
      some ((ingress : Int) - ((origin : Int) + (corr + toSigned 32 (h.rd (Reg.TIME_P_DELAY p)).toNat) / 65536))
    else none
  | .irig sec stamp => if h.tbSrc b = 2 then some ((stamp : Int) - ((sec * 1000000000 : Nat) : Int)) else none
  | .pps pin sec stamp =>
    if h.tbSrc b = 3 + pin then
      let lane := h.fld (Reg.TB_SRC b) F.TB_SRC_IRIG_LANE
      let irig := lane < 96 ∧ (h.lane lane).st = .running ∧ h.lnMode lane = 11
      let near := (stamp + 500000000) / 1000000000
      some ((stamp : Int) - (((if irig then sec else near) * 1000000000 : Nat) : Int))
    else none

/-- The servo corrects by frequency: a value the specification leaves to the firmware, within the limit of R334. -/
def Hub.servoFreq (h : Hub) (b : Nat) : Hub :=
  (h.wr (Reg.TB_FREQ b) (word (ofSigned 32 (clampInt 1000000000 (toSigned 32 h.freeNow.toNat))))).tick

/-- The counts of offsets within and above `LOCK_NS`, and the changes of state they make (R347). -/
def Hub.servoCount (h : Hub) (b : Nat) (ofs : Int) : Hub :=
  let t := h.tb b
  let within := decide (ofs.natAbs ≤ h.lockNs b)
  let h := h.setTb b { t with ok := if within then min 16 (t.ok + 1) else 0, bad := if within then 0 else min 4 (t.bad + 1) }
  let t := h.tb b
  if t.servo = .acquiring ∧ 16 ≤ t.ok then h.servoTo b .locked
  else if t.servo = .locked ∧ 4 ≤ t.bad then h.servoTo b .acquiring
  else h

/-- The servo asks for a step of -offset; refused, it holds the frequency and slews where `AUTO_SLEW` says so (R347, R348). -/
def Hub.servoStep (h : Hub) (b : Nat) (ofs : Int) : Hub :=
  match h.judgeStep b (-ofs) with
  | (true, h) => h
  | (false, h) =>
    let h := if (h.tb b).servo = .acquiring ∨ (h.tb b).servo = .locked then h.servoTo b .refused else h
    if h.flag (Reg.TB_SRC b) F.TB_SRC_AUTO_SLEW = true ∧ (h.tb b).slewing = false then
      h.setTb b { h.tb b with ops := (h.tb b).ops ++ [.slew (-ofs) (h.slewMax b)] }
    else h

/-- `SERVO_INPUT` (R347, R348). The servos of a standby are suspended (R372). -/
def Hub.servoInput (h : Hub) (b : Nat) (i : ServoIn) : Hub :=
  if h.acts = false then h else
  match h.servoOffset b i with
  | none => h
  | some ofs =>
    let h := h.wr (Reg.TB_OFS b) (sat32 ofs)
    let h := h.setTb b { h.tb b with lastIn := h.now, freqs := ((h.freqPpt b) :: (h.tb b).freqs).take 16 }
    let h := if (h.tb b).servo = .holdover then h.servoTo b .acquiring else h
    if (h.tb b).servo = .refused then
      if h.flag (Reg.TB_SRC b) F.TB_SRC_AUTO_SLEW then
        (if (h.tb b).slewing then h
        else h.setTb b { h.tb b with ops := (h.tb b).ops ++ [.slew (toSigned 32 (h.rd (Reg.TB_REFUSED_OFS b)).toNat) (h.slewMax b)] })
      else if (h.tb b).permit.isSome then h.servoStep b ofs else h
    else
      let h := h.servoCount b ofs
      if ofs.natAbs ≤ 4 * h.lockNs b then h.servoFreq b else h.servoStep b ofs

def execServoInput (b : Fin 3) (i : ServoIn) (s : State) : Host.Outcome State Fault Refusal := s.on fun h => h.servoInput b i

/-- `SERVO_SOURCE_LOST` (R347): 3 s without an edge or frame; for PTP, the announce receipt timeout, which the firmware reports. -/
def Hub.servoLost (h : Hub) (b : Nat) : Hub :=
  let t := h.tb b
  let gone := decide (h.tbSrc b = 1) || (decide (2 ≤ h.tbSrc b) && decide (t.lastIn + 3 * tuS ≤ h.now))
  if gone = true ∧ (t.servo = .acquiring ∨ t.servo = .locked) then
    let h := match t.freqs with
      | [] => h
      | l => h.wr (Reg.TB_FREQ b) (word (ofSigned 32 (l.foldl (· + ·) 0 / (l.length : Int))))
    h.servoTo b .holdover
  else h

def execServoSourceLost (b : Fin 3) (s : State) : Host.Outcome State Fault Refusal := s.on fun h => h.servoLost b

/-- `SERVO_SRC_WRITE` (R347): a write of the word that holds `SRC`. -/
def Hub.srcWrite (h : Hub) (b : Nat) (w : Word) : Hub :=
  if b = 3 then h else
  let src := bits w F.TB_SRC_SRC
  if 5 ≤ src ∨ (src = 1 ∧ b = 2) then h.timeRefuse else
  let h := h.regWrite (Reg.TB_SRC b) w false id
  let h := h.setTb b { h.tb b with lastIn := h.now }
  let st := (h.tb b).servo
  if src = 0 then (if st = .unset then h else h.servoTo b .free)
  else if st = .free then h.servoTo b .acquiring
  else h

def execServoSrcWrite (b : Fin 4) (w : Word) (s : State) : Host.Outcome State Fault Refusal := s.on fun h => h.srcWrite b w

/-- `PTP_ANNOUNCE_RX` (R347): the best master by the BMCA after this Announce, by its identity. -/
def Hub.ptpAnnounce (h : Hub) (b gm : Nat) : Hub :=
  let t := h.tb b
  if h.acts = false ∨ h.tbSrc b ≠ 1 ∨ t.gm = gm then h
  else
    let h := h.setTb b { t with gm := gm }
    if t.servo = .acquiring ∨ t.servo = .locked ∨ t.servo = .holdover then
      (h.servoTo b .acquiring).evtN Reg.TIME_EVT F.TIME_EVT_GM_CHANGE b
    else h

def execPtpAnnounceRx (b : Fin 2) (gm : Dword) (s : State) : Host.Outcome State Fault Refusal := s.on fun h => h.ptpAnnounce b gm.toNat

/-! ## PTP messages of the control core (R346) -/

/-- An event message of the control core goes into a queue of its port (R239); `reqAt` is the ingress stamp of the request that a Pdelay_Resp
answers, in 2^-16 ns. The port writes the egress stamp or the turnaround time when it sends (`ptpEgress`). -/
def Hub.ptpSend (h : Hub) (p : Nat) (bs : List Byte) (reqAt : Nat) : Hub := h.corePlace (outCode p) { bytes := padTo 60 bs, reqAt := reqAt }

/-- The control core sends PTP messages on the port: on a ring port while it is `UP`, takes standard frames, and the node originates frames
(R291, R305, R318, R321). -/
def Hub.ptpPort (h : Hub) (p : Nat) : Bool :=
  h.acts && (decide (p = 2) || (h.linkUp p && h.flag Reg.RING_CTL F.RING_CTL_HSR_EN && h.originates))

/-- A PTP message received on a port reaches the control core: on a ring port only with an HSR tag, while `HSR_EN` is set (R321). -/
def Hub.ptpTaken (h : Hub) (p : Nat) (bs : List Byte) : Bool :=
  h.acts && (if p = 2 then (h.rport 2).link != .down
    else h.linkUp p && h.flag Reg.RING_CTL F.RING_CTL_HSR_EN && (stdParse bs).hsr.isSome)

/-- `PTP_EVENT_TX` (R346). -/
def execPtpEventTx (p : Fin 3) (bs : List Byte) (reqAt : Nat) (s : State) : Host.Outcome State Fault Refusal :=
  s.on fun h => if h.ptpPort p ∧ (stdParse bs).etype = etPtp then h.ptpSend p bs reqAt else h

/-- The Pdelay_Resp to a Pdelay_Req, before its turnaround time is added. -/
def Hub.pdelayResp (h : Hub) (p : Nat) (bs : List Byte) : List Byte :=
  let m := stdParse bs
  let q := slice bs m.data 54
  let own := beBytes 6 h.ringMac
  let id := own.take 3 ++ [0xFF, 0xFE] ++ own.drop 3 ++ beBytes 2 (p + 1)
  bs.take 6 ++ own ++ beBytes 2 etPtp ++ [byte (beAt q 0 1 / 16 * 16 + 3)] ++ slice q 1 1 ++ beBytes 2 54 ++ slice q 4 16 ++ id ++
    slice q 30 2 ++ [5, 0x7F] ++ List.replicate 10 0 ++ slice q 20 10

/-- `PTP_PDELAY_RX` (R346): a request is answered; a response gives the peer delay that goes into `LINK_DELAY`. -/
def Hub.pdelayRx (h : Hub) (p : Nat) (bs : List Byte) : Hub :=
  let m := stdParse bs
  let typ := beAt bs m.data 1 % 16
  let st := h.rxStamps p (bs.length + 4)
  if m.etype ≠ etPtp ∨ h.ptpTaken p bs = false then h
  else if typ = 2 then
    if h.ptpPort p then h.ptpSend p (h.pdelayResp p bs) (st.getD (h.ptpBase (beAt bs (m.data + 4) 1)) 0) else h
  else if typ = 3 then
    let t4 := st.getD 3 0
    let d := ((t4 : Int) - ((tget 0 h.tim.pdReq p : Nat) : Int) - toSigned 64 (beAt bs (m.data + 8) 8)) / 2
    h.wr (Reg.TIME_P_DELAY p) (word (ofSigned 32 d))
  else h

def execPtpPdelayRx (p : Fin 3) (bs : List Byte) (s : State) : Host.Outcome State Fault Refusal := s.on fun h => h.pdelayRx p bs

/-! ## Event capture (R341 to R343) -/

def evqCap : Nat := 4096

/-- Push an entry into the event FIFO itself. -/
def Hub.evqIn (h : Hub) (w0 w1 : Word) : Hub :=
  if h.tim.evq.length + h.tim.evc.fresh h.now < evqCap then
    let w0 := if h.tim.evLoss then w0 ||| 0x04000000 else w0
    { h with tim := { h.tim with evq := h.tim.evq ++ [(w0, w1)], evLoss := false, evc := h.tim.evc.put h.now } }
  else ({ h with tim := { h.tim with evLoss := true } }.count Reg.TIME_CNT_EVQ_LOST).timeEvt F.TIME_EVT_EVQ_LOST

/-- The stamp of an instant `ago` units of 1/60 ns back on base `b`, in 1/256 ns, less `adj` ps; one VCO period of resolution (R341). -/
def Hub.edgeStamp (h : Hub) (b ago : Nat) (adj : Int) : Nat :=
  let t := (h.now - ago) / 25 * 25
  (h.tbAt b t * 256 / 10 ^ 12 + ((t % 300 * 256 / 60 : Nat) : Int) - adj * 256 / 1000).toNat

/-- Captured edges stand in order of their cycle, and within one cycle of their pins (R343). -/
def caughtIn (e : Caught) : List Caught → List Caught
  | [] => [e]
  | x :: xs => if e.cyc < x.cyc ∨ (e.cyc = x.cyc ∧ e.pin < x.pin) then e :: x :: xs else x :: caughtIn e xs

/-- `EVENT_PIN_EDGE` (R341 to R343): the pin has had its new level for `ago` units of 1/60 ns; `pulse` says that both edges of a
pulse fell in one cycle, and so does a second edge of the pin in the cycle of a first. The edge enters the FIFO at the end of the present
`CLK_TIME` cycle. -/
def Hub.eventEdge (h : Hub) (i : Nat) (level pulse : Bool) (ago : Nat) : Hub :=
  let a := Reg.TIME_ETI i
  let rise := h.flag a F.TIME_ETI_RISE
  let fall := h.flag a F.TIME_ETI_FALL
  let filt := h.fld a F.TIME_ETI_FILT
  if pulse then (if filt = 0 ∧ (rise = true ∨ fall = true) then h.count Reg.TIME_CNT_ETI_NARROW else h)
  else if (if level then rise else fall) = false ∨ ago < filt * 300 then h
  else
    let b := h.fld a F.TIME_ETI_TB
    let st := h.edgeStamp b ago (toSigned 16 (h.fld a F.TIME_ETI_ADJ_PS))
    let short := st / 256 % 2 ^ 40
    let w0 := word (short / 2 ^ 32 + st % 256 * 256 + i * 2 ^ 16 + bitB level * 2 ^ 23 + b * 2 ^ 24 + 2 * 2 ^ 28)
    let cyc := (h.now - ago) / 300
    if h.tim.caught.any fun e => e.pin == i && e.cyc == cyc then
      { h with tim := { h.tim with caught := h.tim.caught.filter fun e => !(e.pin == i && e.cyc == cyc) } }.count Reg.TIME_CNT_ETI_NARROW
    else { h with tim := { h.tim with caught := caughtIn ⟨cyc, i, w0, word short⟩ h.tim.caught } }

/-- At the end of a `CLK_TIME` cycle its captured edges enter the FIFO (R343). -/
def Hub.evEnter (h : Hub) : Hub :=
  if (h.now + tuCore) / 300 = h.now / 300 then h
  else
    let h' : Hub := { h with tim := { h.tim with caught := [] } }
    h.tim.caught.foldl (fun h e => h.feed jEvent 0 [e.w0, e.w1] fun h => h.evqIn e.w0 e.w1) h'

def execEventPinEdge (i : Fin 66) (level pulse : Bool) (ago : Nat) (s : State) : Host.Outcome State Fault Refusal :=
  s.on fun h => h.eventEdge i level pulse ago

/-- `EVQ_POP` (R342): the word a read returns, and the FIFO after it. -/
def Hub.evqPop (h : Hub) : Word × Hub :=
  if h.tim.evq.length ≤ h.tim.evc.putNow h.now then (0xF0000000, h)
  else match h.tim.evq with
    | (w0, w1) :: rest =>
      if h.tim.evHalf then (w1, { h with tim := { h.tim with evq := rest, evHalf := false, evc := h.tim.evc.pop h.now } })
      else (w0, { h with tim := { h.tim with evHalf := true } })
    | [] => (0xF0000000, h)

def execEvqPop (s : State) : Host.Outcome State Fault Refusal :=
  s.on fun h => let r := h.evqPop
                r.2.emit (.words [r.1])

/-- `EVQ_FLUSH` (R356). -/
def Hub.evqFlush (h : Hub) : Hub :=
  { h with tim := { h.tim with evq := [], evHalf := false, evc := { h.tim.evc with high := false } } }.setFld Reg.EVQ_STAT F.EVQ_STAT_WM_CROSS 0

def execEvqFlush (s : State) : Host.Outcome State Fault Refusal := s.on Hub.evqFlush

/-- A write of the FIFO's configuration word, ignored as a whole where its marks are out of order (R356). -/
def Hub.evqCfgWrite (h : Hub) (w : Word) : Hub :=
  let hi := bits w F.EVQ_CFG_WM_HI
  if hi = 0 ∨ 4096 < hi ∨ hi ≤ bits w F.EVQ_CFG_WM_LO then h.timeRefuse else h.regWrite Reg.EVQ_CFG w false id

/-- Watermark settings of the event FIFO. -/
def Hub.evqWm (h : Hub) : WmLoc :=
  { hi := h.fld Reg.EVQ_CFG F.EVQ_CFG_WM_HI, lo := h.fld Reg.EVQ_CFG F.EVQ_CFG_WM_LO, stat := Reg.EVQ_STAT,
    hiSeen := F.EVQ_STAT_WM_HI_SEEN, loSeen := F.EVQ_STAT_WM_LO_SEEN, cross := F.EVQ_STAT_WM_CROSS,
    evt := Reg.TIME_EVT, evtBit := F.TIME_EVT_EVQ_WM }

/-- `TIME_NOW_READ` (R355): a read of `NOW_NS` latches the seconds. -/
def Hub.nowRead (h : Hub) (b : Nat) : Word × Hub :=
  let t := h.baseNs b
  let s := t / 1000000000
  (word (t % 1000000000), (h.wr (Reg.TB_NOW_SEC_LO b) (word s)).wr (Reg.TB_NOW_SEC_HI b) (word (s / 2 ^ 32 % 65536)))

def execTimeNowRead (b : Fin 4) (s : State) : Host.Outcome State Fault Refusal :=
  s.on fun h => let r := h.nowRead b
                r.2.emit (.words [r.1])

/-! ## Writes of the base registers (R334, R355) -/

def Hub.jumpWrite (h : Hub) (b : Nat) (w : Word) : Hub :=
  if b = 3 then h else h.wr (Reg.TB_JUMP b) (word (max 100 (min 1000000000 (bits w F.TB_JUMP_JUMP_NS))))

def Hub.freqWrite (h : Hub) (b : Nat) (w : Word) : Hub :=
  if b = 3 then h
  else if h.tbSrc b ≠ 0 then h.timeRefuse
  else h.wr (Reg.TB_FREQ b) (word (ofSigned 32 (clampInt 1000000000 (toSigned 32 w.toNat))))

def Hub.servoWrite (h : Hub) (b : Nat) (w : Word) : Hub :=
  if b = 3 then h
  else
    let h := h.regWrite (Reg.TB_SERVO b) w false id
    h.setFld (Reg.TB_SERVO b) F.TB_SERVO_SLEW_MAX (max 1 (min 1000 (h.slewMax b)))

/-! ## Pulse and 1PPS outputs (R350 to R352) -/

/-- The level an output drives for an active or inactive pulse. -/
def Hub.ppoLevel (h : Hub) (k : Nat) (active : Bool) : Bool := active != h.flag (Reg.PPO_CFG k) F.PPO_CFG_POL

def Hub.setPulse (h : Hub) (i : Nat) (e : Option Nat) : Hub := { h with tim := { h.tim with pulse := tset none h.tim.pulse i e } }

/-- A pulse in progress ends. -/
def Hub.ppoOff (h : Hub) (k : Nat) : Hub :=
  if h.ppoActive k then ((h.setFld (Reg.PPO_STAT k) F.PPO_STAT_ACTIVE 0).setPulse k none).drive (.pulse k (h.ppoLevel k false)) else h

/-- `PPO_ENABLE` (R350, R351): a write of the output's configuration word. -/
def Hub.ppoWrite (h : Hub) (k : Nat) (w : Word) : Hub :=
  let a := Reg.PPO_CFG k
  let en := h.flag a F.PPO_CFG_EN
  let en' := bits w F.PPO_CFG_EN = 1
  if en = false ∧ en' then
    let width := (h.rd (Reg.PPO_WIDTH k)).toNat
    let period := (h.rd (Reg.PPO_PERIOD k)).toNat
    if width < 5 ∨ (bits w F.PPO_CFG_PERIODIC = 1 ∧ (period < 20 ∨ period ≤ width)) then h.timeRefuse
    else
      let h := (h.regWrite a w false id).setFld (Reg.PPO_STAT k) F.PPO_STAT_ARMED 1
      h.ppoPassed k
  else
    let h := h.regWrite a w en Hub.timeRefuse
    if en = true ∧ ¬ en' then (h.ppoOff k).ppoDisarm k else h

def execPpoEnable (k : Fin 16) (w : Word) (s : State) : Host.Outcome State Fault Refusal := s.on fun h => h.ppoWrite k w

/-- A pulse that falls due while its base is not `LOCKED` is skipped under `SQUELCH`. -/
def Hub.squelched (h : Hub) (on : Bool) (b : Nat) : Bool := on && h.servo b != .locked

/-- `PPO_FIRE` (R350, R351): the target has been reached in this `CLK_TIME` cycle; a pulse is never fired late. -/
def Hub.ppoFire (h : Hub) (k : Nat) : Hub :=
  let a := Reg.PPO_CFG k
  let d := h.ppoLag k
  let b := h.fld a F.PPO_CFG_TB
  let per := h.flag a F.PPO_CFG_PERIODIC
  if h.flag a F.PPO_CFG_EN = false ∨ h.ppoArmed k = false ∨ h.ppoActive k = true ∨ d < 0 then h
  else if h.tbInc b ≤ d then h.ppoPassed k
  else if h.squelched (h.flag a F.PPO_CFG_SQUELCH) b then (if per then h.ppoAdvance k 1 else h.ppoDisarm k)
  else
    let n := h.fld (Reg.PPO_STAT k) F.PPO_STAT_COUNT
    let h := (h.setFld (Reg.PPO_STAT k) F.PPO_STAT_ACTIVE 1).setFld (Reg.PPO_STAT k) F.PPO_STAT_COUNT (n + 1)
    let h := h.setPulse k (some (h.now + (h.rd (Reg.PPO_WIDTH k)).toNat * tuNs))
    (if per then h else h.ppoDisarm k).drive (.pulse k (h.ppoLevel k true))

def execPpoFire (k : Fin 16) (s : State) : Host.Outcome State Fault Refusal := s.on fun h => h.ppoFire k

/-- `PPO_PULSE_END` (R350). -/
def Hub.ppoEnd (h : Hub) (k : Nat) : Hub :=
  match tget none h.tim.pulse k with
  | some t =>
    if t ≤ h.now then
      let h := h.ppoOff k
      if h.flag (Reg.PPO_CFG k) F.PPO_CFG_PERIODIC then (h.ppoAdvance k 1).ppoPassed k else h
    else h
  | none => h

def execPpoPulseEnd (k : Fin 16) (s : State) : Host.Outcome State Fault Refusal := s.on fun h => h.ppoEnd k

/-- `PPSO_PULSE` (R352): a whole second of the base, `ADJ_PS` ahead, has been reached in this `CLK_TIME` cycle. -/
def Hub.ppsoPulse (h : Hub) (j : Nat) : Hub :=
  let a := Reg.PPSO_CFG j
  let b := h.fld a F.PPSO_CFG_TB
  let t := h.tb b
  let adj := toSigned 16 (h.fld (Reg.PPSO_ADJ j) F.PPSO_ADJ_ADJ_PS) * 1000000000
  let d := (((t.ns * subNs + t.sub : Nat) : Int) + adj) % ((1000000000 * subNs : Nat) : Int)
  if h.flag a F.PPSO_CFG_EN = false ∨ h.squelched (h.flag a F.PPSO_CFG_SQUELCH) b = true ∨ (tget none h.tim.pulse (16 + j)).isSome = true ∨
      h.tbInc b ≤ d then h
  else (h.setPulse (16 + j) (some (h.now + h.fld a F.PPSO_CFG_WIDTH_US * tuUs))).drive (.pulse (16 + j) true)

def execPpsoPulse (j : Fin 2) (s : State) : Host.Outcome State Fault Refusal := s.on fun h => h.ppsoPulse j

/-- A 1PPS pulse ends `WIDTH_US` after its start, or at once when its output is disabled. -/
def Hub.ppsoEnd (h : Hub) (j : Nat) : Hub :=
  match tget none h.tim.pulse (16 + j) with
  | some t =>
    if t ≤ h.now ∨ h.flag (Reg.PPSO_CFG j) F.PPSO_CFG_EN = false then (h.setPulse (16 + j) none).drive (.pulse (16 + j) false) else h
  | none => h

/-- A write of a 1PPS output's configuration word. -/
def Hub.ppsoWrite (h : Hub) (j : Nat) (w : Word) : Hub :=
  let a := Reg.PPSO_CFG j
  (h.regWrite a w (h.flag a F.PPSO_CFG_EN) Hub.timeRefuse).ppsoEnd j

end Sys2Proof.Machine
end

