-- ==== Sys2Proof/Machine/Net.lean ====
section
/-! DEFINITION. Net channels (chapter 15): the channel state machine, its trips and faults, presence, the Net commands and the gate
test; and what a trip of a channel does to the USB port it powers (R397). -/

namespace Sys2Proof.Machine

def Hub.net1 (h : Hub) (n : Nat) : NetCh := tget ({} : NetCh) h.net.ch n
def Hub.setNet (h : Hub) (n : Nat) (c : NetCh) : Hub := { h with net := { h.net with ch := tset ({} : NetCh) h.net.ch n c } }
def Hub.netEvt (h : Hub) (n : Nat) (f : Nat × Nat) : Hub := h.evt (Reg.NET_N_EVT n) f

def NetSt.code : NetSt → Nat
  | .off => 0 | .removed => 1 | .waitWindow => 2 | .insertDelay => 3 | .ramp => 4 | .gateRise => 5 | .on => 6 | .retryWait => 7
  | .latched => 8

/-- The gate is driven (R420). -/
def NetSt.driven : NetSt → Bool
  | .ramp | .gateRise | .on => true
  | _ => false

/-- A channel counts as stopped (R438). -/
def NetSt.stopped : NetSt → Bool
  | .off | .latched => true
  | _ => false

/-! ## Ports of the USB hub that a channel powers (R395, R397, R399, R401) -/

def Hub.uport (h : Hub) (i : Nat) : UPort := tget ({} : UPort) h.usb.port i
def Hub.setUport (h : Hub) (i : Nat) (p : UPort) : Hub := { h with usb := { h.usb with port := tset ({} : UPort) h.usb.port i p } }
def Hub.usbEvt (h : Hub) (f : Nat × Nat) : Hub := h.evt Reg.USB_EVT f

/-- A `C_PORT_*` bit of a port changes to 1 (R392). -/
def Hub.uportChange (h : Hub) (i bit : Nat) : Hub :=
  let p := h.uport i
  if testBit p.change bit then h else
  let h := (h.setUport i { p with change := p.change + 2 ^ bit }).usbEvt F.USB_EVT_PORT_CHANGE
  { h with usb := { h.usb with report := Nat.lor h.usb.report (2 ^ (i + 1)) } }

/-- A wake event (R401): while the hub is globally suspended with its remote wake enabled, it opens the decision window; `fn` says
that it is the function's request, which counts within an open window too. -/
def Hub.wakeEvent (h : Hub) (fn : Bool) : Hub :=
  if h.usb.suspAt.isSome = true ∧ h.usb.hub.rwake = true then
    { h with usb := { h.usb with wakeAt := some (h.usb.wakeAt.getD h.now), wakeFn := h.usb.wakeFn || fn } }
  else h

/-- The channel of the port at `i` (port `i` + 1), where the port uses one (R415). -/
def Hub.portNet (h : Hub) (i : Nat) : Option Nat :=
  if i < 7 ∧ h.flag (Reg.USB_P_CFG (i + 1)) F.USB_P_CFG_PWR_NET_EN = true then some (h.fld (Reg.USB_P_CFG (i + 1)) F.USB_P_CFG_PWR_NET) else none

/-- The USB block owns channel `n` (R433). -/
def Hub.netOwned (h : Hub) (n : Nat) : Bool :=
  h.flag Reg.USB_CTL F.USB_CTL_EN && (List.range 7).any fun i => h.portNet i == some n

/-- Over-current on the ports that channel `n` powers (R397). -/
def Hub.overCurrent (h : Hub) (n : Nat) : Hub :=
  if h.flag Reg.USB_CTL F.USB_CTL_EN = false then h else
  ((List.range 7).filter fun i => h.portNet i == some n).foldl (fun h i =>
    let h := h.setUport i { change := (h.uport i).change, oc := true }
    (((h.uportChange i 3).count Reg.USB_CNT_OVER_CURRENT).usbEvt F.USB_EVT_OVER_CURRENT).wakeEvent false) h

/-- Power-good of channel `n` takes its ports out of `POWERED_OFF` (R396). -/
def Hub.portsPower (h : Hub) (n : Nat) : Hub :=
  if h.flag Reg.USB_CTL F.USB_CTL_EN = false then h else
  ((List.range 7).filter fun i => h.portNet i == some n && (h.uport i).power && (h.uport i).st == .poweredOff).foldl
    (fun h i => h.setUport i { h.uport i with st := .disconnected }) h

/-! ## Changes of a channel's state (R420) -/

/-- Enter a state. A latch may be set anew by a board fault. -/
def Hub.netTo (h : Hub) (n : Nat) (st : NetSt) : Hub :=
  let was := (h.net1 n).st
  let h := h.setNet n { h.net1 n with st := st, at_ := h.now }
  let h := if was = st then h else h.netEvt n F.NET_N_EVT_STATE_CHANGE
  if st = .latched then h.netEvt n F.NET_N_EVT_LATCHED else h

/-- Power-good is driven low with the gate. -/
def Hub.pgDown (h : Hub) (n : Nat) : Hub :=
  let c := h.net1 n
  if c.pg then (h.setNet n { c with pg := false }).netEvt n F.NET_N_EVT_PG_CHANGE else h

def Hub.netUv (h : Hub) (n : Nat) : Nat := h.fld (Reg.NET_N_VWIN n) F.NET_N_VWIN_UV * 250
def Hub.netOv (h : Hub) (n : Nat) : Nat := h.fld (Reg.NET_N_VWIN n) F.NET_N_VWIN_OV * 250

/-- VS is in window (R419). -/
def Hub.netInWindow (h : Hub) (n : Nat) : Bool := decide (h.netUv n < (h.net1 n).vs) && decide ((h.net1 n).vs < h.netOv n)

/-- Entry to `RAMP`: the ramp and SOA timers start at 0. -/
def Hub.netRamp (h : Hub) (n : Nat) : Hub :=
  let h := h.netTo n .ramp
  h.setNet n { h.net1 n with rampAt := h.now, soa := 0 }

/-- A channel in `WAIT_WINDOW` with VS in window goes on: to the ramp when it comes from `RETRY_WAIT`. -/
def Hub.netGo (h : Hub) (n : Nat) : Hub :=
  let c := h.net1 n
  if c.st = .waitWindow ∧ h.netInWindow n = true then
    (if c.again then h.netRamp n else h.netTo n .insertDelay) else h

/-- Enter `WAIT_WINDOW`. -/
def Hub.netWait (h : Hub) (n : Nat) (again : Bool) : Hub :=
  let h := h.netTo n .waitWindow
  (h.setNet n { h.net1 n with again := again }).netGo n

/-- The gate goes down for a cause. -/
def Hub.netDown (h : Hub) (n cause : Nat) : Hub :=
  let h := h.pgDown n
  h.setNet n { h.net1 n with cause := cause }

/-- A trip (R420, R426, R433). -/
def Hub.netTrip (h : Hub) (n cause : Nat) : Hub :=
  let max := if h.netOwned n then 0 else h.fld (Reg.NET_N_CFG n) F.NET_N_CFG_RETRY_MAX
  let h := ((h.netDown n cause).netEvt n F.NET_N_EVT_TRIP).count (Reg.NET_N_CNT_TRIPS n)
  let h := if (h.net1 n).retries < max then h.netTo n .retryWait
    else (h.setNet n { h.net1 n with board := false }).netTo n .latched
  h.overCurrent n

/-- A board fault (R430, R431): it latches at once. -/
def Hub.netBoard (h : Hub) (n cause : Nat) : Hub :=
  let h := (h.netDown n cause)
  ((h.setNet n { h.net1 n with board := true }).netTo n .latched).overCurrent n

def Hub.netCfg (h : Hub) (n : Nat) (f : Nat × Nat) : Bool := h.flag (Reg.NET_N_CFG n) f

/-- The least time after which a Net timer of `d` may have run out: on its own oscillator the Net die may be 5 % fast (R20, R530). -/
def Hub.netDur (h : Hub) (d : Nat) : Nat := if h.net.osc then d * 95 / 100 else d

/-- A time in milliseconds. -/
def Hub.netMs (h : Hub) (a : Nat) (f : Nat × Nat) : Nat := h.netDur (h.fld a f * tuMs)

/-- `GRISE` in model time. -/
def Hub.netGrise (h : Hub) (n : Nat) : Nat := h.netDur (h.fld (Reg.NET_N_GATE n) F.NET_N_GATE_GRISE * 100 * tuUs)

/-- A happening comes; the Net die takes it with the others of its `CLK_NET` cycle (R432). Without `VIN_NET` the die is off (R434, R518). -/
def Hub.netIn (h : Hub) (n : Nat) (x : NetHap) : Hub :=
  if h.net.locked then h else { h with net := { h.net with inbox := h.net.inbox ++ [(n, x)] } }

/-- Output within 0.5 V of VS, and VGS at least 8 V: the conditions of power-good (R420). -/
def NetCh.upTo (c : NetCh) : Bool := decide (c.vs ≤ c.vout + 500)
def NetCh.good (c : NetCh) : Bool := c.upTo && decide (80 ≤ c.vgs)

/-- The pulse of a gate test on channel `n` is in progress (R436). -/
def Hub.inPulse (h : Hub) (n : Nat) : Bool :=
  match h.host.maint with
  | .gate m w t _ => m == n && decide (h.now < t + w * tuUs)
  | _ => false

/-- Measurements that the Net die has sent. -/
def Hub.netMeas (h : Hub) (n : Nat) (vout vgs : Nat) : Hub := h.setNet n { h.net1 n with vout := vout, vgs := vgs }

/-! ## Presence, window and timers -/

/-- `NET_CARD_PRESENT` (R428): the present level has been held for 5 ms. -/
def Hub.netPresent (h : Hub) (n : Nat) : Hub :=
  let c := h.net1 n
  if h.netCfg n F.NET_N_CFG_PRES_EN = false ∨ c.present = true then h else
  let h := (h.setNet n { c with present := true }).netEvt n F.NET_N_EVT_PRES_CHANGE
  if c.st = .removed then (h.count (Reg.NET_N_CNT_INSERT n)).netWait n false else h

def execNetCardPresent (n : Fin 16) (s : State) : Host.Outcome State Fault Refusal := s.onNet fun h => h.netIn n .present

/-- `NET_CARD_ABSENT` (R428): the absent level has been held for 20 µs. -/
def Hub.netAbsent (h : Hub) (n : Nat) : Hub :=
  let c := h.net1 n
  if h.netCfg n F.NET_N_CFG_PRES_EN = false ∨ c.present = false then h else
  let h := (h.setNet n { c with present := false }).netEvt n F.NET_N_EVT_PRES_CHANGE
  if c.st = .off ∨ c.st = .removed ∨ (c.st = .latched ∧ c.board = true) then h
  else
    let h := (h.pgDown n).netTo n .removed
    h.setNet n { h.net1 n with retries := 0 }

def execNetCardAbsent (n : Fin 16) (s : State) : Host.Outcome State Fault Refusal := s.onNet fun h => h.netIn n .absent

/-- `NET_VS_WINDOW_CHANGE` (R419, R420): VS has stood at `mv` on the new side of a bound for 50 µs. -/
def Hub.netVs (h : Hub) (n mv : Nat) : Hub :=
  let h := h.setNet n { h.net1 n with vs := mv }
  let c := h.net1 n
  if c.st.driven then
    if mv ≤ h.netUv n then (h.netDown n 7).netWait n false
    else if h.netOv n ≤ mv then h.netTrip n 6
    else h
  else if c.st = .insertDelay ∧ h.netInWindow n = false then h.netWait n false
  else h.netGo n

def execNetVsWindowChange (n : Fin 16) (mv : Half) (s : State) : Host.Outcome State Fault Refusal := s.onNet fun h => h.netIn n (.vs mv.toNat)

/-- `NET_INSERT_DELAY_END` (R420). -/
def Hub.netInsertEnd (h : Hub) (n : Nat) : Hub :=
  let c := h.net1 n
  if c.st = .insertDelay ∧ c.at_ + h.netMs (Reg.NET_N_TIME n) F.NET_N_TIME_INSERT_MS ≤ h.now then h.netRamp n else h

def execNetInsertDelayEnd (n : Fin 16) (s : State) : Host.Outcome State Fault Refusal := s.onNet fun h => h.netIn n .insertEnd

/-- `NET_RETRY_WAIT_END` (R420). -/
def Hub.netRetryEnd (h : Hub) (n : Nat) : Hub :=
  let c := h.net1 n
  if c.st = .retryWait ∧ c.at_ + h.netMs (Reg.NET_N_RETRY n) F.NET_N_RETRY_RETRY_MS ≤ h.now then
    (h.setNet n { c with retries := c.retries + 1 }).netWait n true
  else h

def execNetRetryWaitEnd (n : Fin 16) (s : State) : Host.Outcome State Fault Refusal := s.onNet fun h => h.netIn n .retryEnd

/-- `NET_RETRIES_RESET` (R427). -/
def Hub.netRetriesReset (h : Hub) (n : Nat) : Hub :=
  let c := h.net1 n
  if c.st = .on ∧ c.pg = true ∧ c.pgAt + h.netDur (10 * tuS) ≤ h.now then h.setNet n { c with retries := 0 } else h

def execNetRetriesReset (n : Fin 16) (s : State) : Host.Outcome State Fault Refusal := s.onNet fun h => h.netIn n .retriesReset

/-! ## Ramp, gate rise and power-good -/

/-- `NET_RAMP_DONE` (R420): the output stands at `vout` mV. -/
def Hub.netRampDone (h : Hub) (n vout : Nat) : Hub :=
  let h := h.netMeas n vout (h.net1 n).vgs
  let c := h.net1 n
  if c.st = .ramp ∧ c.upTo = true then
    let h := h.netTo n .gateRise
    h.setNet n { h.net1 n with riseAt := h.now, counts := [] }
  else h

def execNetRampDone (n : Fin 16) (vout : Half) (s : State) : Host.Outcome State Fault Refusal := s.onNet fun h => h.netIn n (.rampDone vout.toNat)

/-- `NET_GATE_RISE_DONE` (R420): both conditions hold, for the first time or again. -/
def Hub.netRiseDone (h : Hub) (n vout vgs : Nat) : Hub :=
  let h := h.netMeas n vout vgs
  let c := h.net1 n
  if c.good = true ∧ (c.st = .gateRise ∨ (c.st = .on ∧ c.pg = false)) then
    let h := if c.st = .on then h else h.netTo n .on
    ((h.setNet n { h.net1 n with pg := true, pgAt := h.now }).netEvt n F.NET_N_EVT_PG_CHANGE).portsPower n
  else h

def execNetGateRiseDone (n : Fin 16) (vout : Half) (vgs : Byte) (s : State) : Host.Outcome State Fault Refusal :=
  s.onNet fun h => h.netIn n (.riseDone vout.toNat vgs.toNat)

/-- `NET_PG_LOSS` (R420): a condition of power-good fails while the channel stays `ON`. In the pulse of a gate test, that of the output
alone counts (R436). -/
def Hub.netPgLoss (h : Hub) (n vout vgs : Nat) : Hub :=
  let h := h.netMeas n vout vgs
  let c := h.net1 n
  if c.st = .on ∧ (if h.inPulse n then c.upTo else c.good) = false then h.pgDown n else h

def execNetPgLoss (n : Fin 16) (vout : Half) (vgs : Byte) (s : State) : Host.Outcome State Fault Refusal :=
  s.onNet fun h => h.netIn n (.pgLoss vout.toNat vgs.toNat)

/-! ## Trips and board faults -/

/-- `NET_HARD_SHORT` (R424): the shunt stands at `mv` mV. -/
def Hub.netShort (h : Hub) (n mv : Nat) : Hub :=
  let c := h.net1 n
  if c.st.driven = true ∧ h.fld (Reg.NET_N_CFG n) F.NET_N_CFG_SHORT_MV ≤ mv then
    (h.count (Reg.NET_N_CNT_SHORT n)).netTrip n (if c.st = .ramp then 1 else 4)
  else h

def execNetHardShort (n : Fin 16) (mv : Half) (s : State) : Host.Outcome State Fault Refusal := s.onNet fun h => h.netIn n (.short mv.toNat)

/-- `NET_SOA_TRIP` (R422): the channel has been in regulation for `us` more microseconds. -/
def Hub.netSoa (h : Hub) (n us : Nat) : Hub :=
  let c := h.net1 n
  if c.st ≠ .ramp then h else
  let h := h.setNet n { c with soa := c.soa + us }
  if h.fld (Reg.NET_N_RETRY n) F.NET_N_RETRY_SOA * 10 ≤ c.soa + us then h.netTrip n 2 else h

def execNetSoaTrip (n : Fin 16) (us : Half) (s : State) : Host.Outcome State Fault Refusal := s.onNet fun h => h.netIn n (.soa us.toNat)

/-- The gate has not risen in its time (R423, R430). -/
def Hub.netGriseDue (h : Hub) (n : Nat) : Bool :=
  let c := h.net1 n
  c.st == .gateRise && decide (c.riseAt + h.netGrise n ≤ h.now) && decide (c.vgs < 40)

/-- `NET_RAMP_TIMEOUT` (R423); a `FET_FAULT` due in the same cycle comes first (R430). -/
def Hub.netRampTmo (h : Hub) (n : Nat) : Hub :=
  let c := h.net1 n
  if (c.st = .ramp ∨ c.st = .gateRise) ∧ c.rampAt + h.netMs (Reg.NET_N_TIME n) F.NET_N_TIME_RAMP_TMO_MS ≤ h.now then
    (if h.netGriseDue n then h.netBoard n 8 else h.netTrip n 3)
  else h

def execNetRampTimeout (n : Fin 16) (s : State) : Host.Outcome State Fault Refusal := s.onNet fun h => h.netIn n .rampTmo

/-- Time of trip-curve point `p` in µs (R425). -/
def Hub.curveTime (h : Hub) (n p : Nat) : Nat :=
  h.fld (Reg.NET_N_CURVE n p) F.NET_N_CURVE_T_MANT * 2 ^ h.fld (Reg.NET_N_CURVE n p) F.NET_N_CURVE_T_EXP

def Hub.curveOn (h : Hub) (n p : Nat) : Bool := h.flag (Reg.NET_N_CURVE n p) F.NET_N_CURVE_EN

/-- One current sample against the trip curve (R425), whose counts hold through the pulse of a gate test (R436). -/
def Hub.netSample (h : Hub) (n code : Nat) : Hub :=
  let c := h.net1 n
  let uohm := h.fld (Reg.NET_N_ILIM n) F.NET_N_ILIM_SHUNT_UOHM
  let h := h.wr (Reg.NET_N_I_MA n) (word (code * 100000000 / (1024 * max 1 uohm)))
  if (c.st ≠ .gateRise ∧ c.st ≠ .on) ∨ h.inPulse n = true then h else
  let counts := (List.range 8).map fun p =>
    if h.curveOn n p = true ∧ h.fld (Reg.NET_N_CURVE n p) F.NET_N_CURVE_LEVEL < code then c.counts.getD p 0 + 1 else 0
  let h := h.setNet n { c with counts := counts }
  match (List.range 8).find? fun p => h.curveOn n p && decide (h.curveTime n p < counts.getD p 0) with
  | some p => ((h.setNet n { h.net1 n with point := p }).count (Reg.NET_N_CNT_CURVE n)).netTrip n 5
  | none => h

/-- `NET_CURVE_TRIP` (R425): the current samples since the last report, oldest first, one a microsecond. -/
def execNetCurveTrip (n : Fin 16) (codes : List (BitVec 10)) (s : State) : Host.Outcome State Fault Refusal :=
  s.onNet fun h => h.netIn n (.curve codes)

/-- `NET_GRISE_TIMEOUT` (R430). -/
def Hub.netGriseTmo (h : Hub) (n vgs : Nat) : Hub :=
  let h := h.netMeas n (h.net1 n).vout vgs
  if h.netGriseDue n then h.netBoard n 8 else h

def execNetGriseTimeout (n : Fin 16) (vgs : Byte) (s : State) : Host.Outcome State Fault Refusal := s.onNet fun h => h.netIn n (.grise vgs.toNat)

/-- `NET_GATE_LOW_FAULT` (R430): in `ON` the gate has stood at `vgs` for `us` microseconds. -/
def Hub.netGateLow (h : Hub) (n vgs us : Nat) : Hub :=
  let h := h.netMeas n (h.net1 n).vout vgs
  if (h.net1 n).st = .on ∧ vgs < 40 ∧ 100 ≤ us then h.netBoard n 8 else h

def execNetGateLowFault (n : Fin 16) (vgs : Byte) (us : Half) (s : State) : Host.Outcome State Fault Refusal :=
  s.onNet fun h => h.netIn n (.gateLow vgs.toNat us.toNat)

/-- `NET_DS_SHORT` (R431): the output has stood at `vout` mV for `ms` milliseconds with the gate held down. -/
def Hub.netDs (h : Hub) (n vout ms : Nat) : Hub :=
  let h := h.netMeas n vout (h.net1 n).vgs
  let c := h.net1 n
  if c.st ≠ .off ∧ c.st.driven = false ∧ h.netInWindow n = true ∧ c.vs ≤ 2 * vout ∧ h.fld (Reg.NET_N_GATE n) F.NET_N_GATE_DS_MS ≤ ms ∧
      ¬ (c.st = .latched ∧ c.board = true) then h.netBoard n 9
  else h

def execNetDsShort (n : Fin 16) (vout ms : Half) (s : State) : Host.Outcome State Fault Refusal :=
  s.onNet fun h => h.netIn n (.ds vout.toNat ms.toNat)

/-! ## The die: link, clock and supply (R20, R434, R530) -/

def execNetLinkSilent (s : State) : Host.Outcome State Fault Refusal :=
  s.onNet fun h => { h with net := { h.net with linkOk := false, silent := true } }.evt Reg.NET_EVT F.NET_EVT_LINK_LOST

def execNetClockStop (s : State) : Host.Outcome State Fault Refusal :=
  s.onNet fun h => { h with net := { h.net with osc := true } }.evt Reg.NET_EVT F.NET_EVT_OSC_FALLBACK

def execNetClockRestored (s : State) : Host.Outcome State Fault Refusal :=
  s.onNet fun h => { h with net := { h.net with osc := false } }

/-- The `NET` registers at their reset values. -/
def netPage (a : Nat) : Bool := decide (0x68000 ≤ a) && decide (a < 0x6C000)

/-- Every channel `OFF` and every setting and counter at its reset value (R434). -/
def Hub.netReset (h : Hub) : Hub :=
  { h with regs := h.regs.filter fun r => !netPage r.1, net := { h.net with ch := [], inbox := [] } }

/-- `NET_VIN_LOCKOUT` (R434): `VIN_NET` has fallen to `mv` mV. The Net die resets, and with it its copy of `NET_HOLD` (R518). -/
def Hub.netVinLow (h : Hub) (mv : Nat) : Hub :=
  if mv < 4000 then
    { h.netReset with net := { h.netReset.net with locked := true, vin := mv, hold := false } }
  else { h with net := { h.net with vin := mv } }

def execNetVinLockout (mv : Half) (s : State) : Host.Outcome State Fault Refusal := s.onAny fun h => h.netVinLow mv.toNat

/-- `NET_VIN_RESTORED` (R434): `VIN_NET` has risen to `mv` mV, past its rising threshold of 4.3 V. -/
def Hub.netVinUp (h : Hub) (mv : Nat) : Hub :=
  if 4300 ≤ mv then { h with net := { h.net with locked := false, vin := mv, linkOk := true, silent := false } }
  else { h with net := { h.net with vin := mv } }

def execNetVinRestored (mv : Half) (s : State) : Host.Outcome State Fault Refusal := s.onAny fun h => h.netVinUp mv.toNat

/-! ## Commands (R433, R437) -/

/-- The enabled points of the trip curve have strictly ascending levels and strictly descending times (R425). -/
def Hub.curveOk (h : Hub) (n : Nat) : Bool :=
  let ps := (List.range 8).filter (h.curveOn n)
  (ps.zip (ps.drop 1)).all fun (p, q) =>
    decide (h.fld (Reg.NET_N_CURVE n p) F.NET_N_CURVE_LEVEL < h.fld (Reg.NET_N_CURVE n q) F.NET_N_CURVE_LEVEL) &&
      decide (h.curveTime n q < h.curveTime n p)

/-- The settings that `NET_ON` needs. -/
def Hub.netSettingsOk (h : Hub) (n : Nat) : Bool :=
  h.curveOk n && decide (h.fld (Reg.NET_N_VWIN n) F.NET_N_VWIN_UV < h.fld (Reg.NET_N_VWIN n) F.NET_N_VWIN_OV)

/-- The states from which a channel is switched on. -/
def NetCh.canOn (c : NetCh) : Bool := c.st == .off || (c.st == .latched && !c.board)

/-- Switch a channel on (R420). -/
def Hub.netOn (h : Hub) (n : Nat) : Hub :=
  let h := h.setNet n { h.net1 n with retries := 0, cause := 0 }
  if h.netCfg n F.NET_N_CFG_PRES_EN && !(h.net1 n).present then h.netTo n .removed else h.netWait n false

/-- Switch a channel off (R420). -/
def Hub.netOff (h : Hub) (n : Nat) : Hub :=
  let c := h.net1 n
  if c.st.stopped then h else (h.pgDown n).netTo n .off

/-- `NET_CLEAR` (R420). -/
def Hub.netClear (h : Hub) (n : Nat) : Hub :=
  if (h.net1 n).st = .latched then (h.setNet n { h.net1 n with board := false }).netTo n .off else h

/-! ## One `CLK_NET` cycle (R432) -/

/-- Place of a happening in the order of R432; VS above the `OV` bound is a trip, another crossing is not. Measurements that no step
of the rule names are taken with the timers. -/
def Hub.hapRank (h : Hub) (n : Nat) : NetHap → Nat
  | .ds _ _ => 0
  | .grise _ | .gateLow _ _ | .testFault => 1
  | .short _ => 2
  | .vs mv => if h.netOv n ≤ mv then 3 else 7
  | .soa _ => 4
  | .curve _ => 5
  | .rampTmo => 6
  | .present | .absent => 8
  | .insertEnd | .retryEnd | .retriesReset | .rampDone _ | .riseDone _ _ | .pgLoss _ _ => 9
  | .cmdOn | .cmdOff | .cmdClear => 10

/-- A happening takes effect. A command that was accepted acts on the state that the steps before it have left: after a trip of the
same cycle, `NET_OFF` still ends in `OFF`. -/
def Hub.netHap (h : Hub) (n : Nat) : NetHap → Hub
  | .ds vout ms => h.netDs n vout ms
  | .grise vgs => h.netGriseTmo n vgs
  | .gateLow vgs us => h.netGateLow n vgs us
  | .testFault => if (h.net1 n).st = .on then h.netBoard n 8 else h
  | .short mv => h.netShort n mv
  | .vs mv => h.netVs n mv
  | .soa us => h.netSoa n us
  | .curve codes => codes.foldl (fun h c => h.netSample n c.toNat) h
  | .rampTmo => h.netRampTmo n
  | .present => h.netPresent n
  | .absent => h.netAbsent n
  | .insertEnd => h.netInsertEnd n
  | .retryEnd => h.netRetryEnd n
  | .retriesReset => h.netRetriesReset n
  | .rampDone vout => h.netRampDone n vout
  | .riseDone vout vgs => h.netRiseDone n vout vgs
  | .pgLoss vout vgs => h.netPgLoss n vout vgs
  | .cmdOn => if (h.net1 n).canOn then h.netOn n else h
  | .cmdOff => if (h.net1 n).st = .latched ∧ (h.net1 n).board = false then h.netClear n else h.netOff n
  | .cmdClear => h.netClear n

/-- A `CLK_NET` cycle ends: the happenings that came in it take effect, in the order of R432. -/
def Hub.netSettle (h : Hub) : Hub :=
  let xs := h.net.inbox
  let h : Hub := { h with net := { h.net with inbox := [] } }
  h.each 11 fun h r => xs.foldl (fun h x => if h.hapRank x.1 x.2 = r then h.netHap x.1 x.2 else h) h

/-- Channel `n` as the commands accepted in this cycle leave it. -/
def Hub.netSeen (h : Hub) (n : Nat) : NetCh :=
  (h.net.inbox.foldl (fun h x => if x.1 = n ∧ h.hapRank n x.2 = 10 then h.netHap n x.2 else h) h).net1 n

/-- The channels of a mask. -/
def maskBits (m : Nat) : List Nat := (List.range 16).filter (testBit m)

/-- The first channel of a mask that fails a condition. -/
def netFails (m : Nat) (ok : Nat → Bool) : Option Nat := (maskBits m).find? fun n => !ok n

/-- The in-package link carries a command: it is live. -/
def Hub.netLive (h : Hub) : Hub := { h with net := { h.net with linkOk := true, silent := false } }

def runNetOn (h : Hub) (c : CmdIn) : Ack :=
  let m := c.arg 1
  if 65536 ≤ m ∨ c.zeroFrom 2 = false then .refuse sEARG 0 0
  else match netFails m h.netSettingsOk with
    | some n => .refuse sEARG 0 n
    | none =>
      match netFails m fun n => (h.netSeen n).canOn && !h.netOwned n with
      | some n => .refuse sESTATE (h.netSeen n).st.code n
      | none => .done ((maskBits m).foldl (fun h n => h.netIn n .cmdOn) h.netLive) []

def runNetOff (h : Hub) (c : CmdIn) : Ack :=
  let m := c.arg 1
  if 65536 ≤ m ∨ c.zeroFrom 2 = false then .refuse sEARG 0 0
  else match netFails m fun n => !(h.netSeen n).st.stopped && !h.netOwned n with
    | some n => .refuse sESTATE (h.netSeen n).st.code n
    | none => .done ((maskBits m).foldl (fun h n => h.netIn n .cmdOff) h.netLive) []

def runNetClear (h : Hub) (c : CmdIn) : Ack :=
  let m := c.arg 1
  if 65536 ≤ m ∨ c.zeroFrom 2 = false then .refuse sEARG 0 0
  else match netFails m fun n => (h.netSeen n).st == .latched with
    | some n => .refuse sESTATE (h.netSeen n).st.code n
    | none => .done ((maskBits m).foldl (fun h n => h.netIn n .cmdClear) h.netLive) []

def execNetOn (src : CmdSrc) (tag : Byte) (mask : Word) (s : State) : Host.Outcome State Fault Refusal :=
  s.on fun h => h.accept (mkCmd src 0x0B01 tag [mask]) runNetOn
def execNetOff (src : CmdSrc) (tag : Byte) (mask : Word) (s : State) : Host.Outcome State Fault Refusal :=
  s.on fun h => h.accept (mkCmd src 0x0B02 tag [mask]) runNetOff
def execNetClear (src : CmdSrc) (tag : Byte) (mask : Word) (s : State) : Host.Outcome State Fault Refusal :=
  s.on fun h => h.accept (mkCmd src 0x0B03 tag [mask]) runNetClear

/-! ## The gate test (R436, R463) -/

/-- A maintenance activity has ended (R464). -/
def Hub.maintEnd (h : Hub) : Hub := { h with host := { h.host with maint := .idle } }.evt Reg.HOST_EVT F.HOST_EVT_MAINT_DONE

/-- No reducing maintenance activity runs (R463). -/
def Hub.maintFree (h : Hub) : Bool := h.host.maint == .idle

def runNetGateTest (h : Hub) (c : CmdIn) : Ack :=
  let n := c.arg 1
  let w := c.arg 2
  if 16 ≤ n ∨ w = 0 ∨ 100 < w ∨ c.zeroFrom 3 = false then .refuse sEARG 0 n
  else if (h.netSeen n).st ≠ .on then .refuse sESTATE (h.netSeen n).st.code n
  else if h.maintFree = false then .refuse sEBUSY 0 0
  else .later { h with host := { h.host with maint := .gate n w h.now c.ref } }

def execMaintNetGateTest (src : CmdSrc) (tag : Byte) (ch width : Word) (s : State) : Host.Outcome State Fault Refusal :=
  s.on fun h => h.accept (mkCmd src 0x0C03 tag [ch, width]) runNetGateTest

/-- `NET_GATE_TEST_RESULT` (R436): VGS fell below 2 V after `fall` units of 10 ns and was back at 8 V after `rise` microseconds. -/
def Hub.gateResult (h : Hub) (fall rise : Nat) : Hub :=
  match h.host.maint with
  | .gate n w t ref =>
    if h.now < t + w * tuUs then h else
    let offFail := decide (100 < fall)
    let onFail := decide (h.fld (Reg.NET_N_GATE n) F.NET_N_GATE_GRISE * 100 < rise)
    let ok := !offFail && !onFail
    let h := h.wr (Reg.NET_N_TEST n)
      (word (1 + bitB ok * 2 + bitB offFail * 4 + bitB onFail * 8 + min 255 fall * 256 + min 65535 rise * 65536))
    let h := h.netEvt n F.NET_N_EVT_TEST_DONE
    let h := if ok then h else h.netIn n .testFault
    (h.maintEnd).answer ref sOK []
  | _ => h

def execNetGateTestResult (fall rise : Half) (s : State) : Host.Outcome State Fault Refusal :=
  s.on fun h => h.gateResult fall.toNat rise.toNat

/-! ## Registers (R438) -/

/-- `NET_N_STAT` of a channel. -/
def Hub.netStat (h : Hub) (n : Nat) : Word :=
  let c := h.net1 n
  word (c.st.code + c.cause * 16 + c.retries * 256 + bitB c.pg * 2 ^ 12 + bitB c.present * 2 ^ 13 + bitB (h.netOwned n) * 2 ^ 14 +
    c.point * 2 ^ 16)

/-- `Nn_ST` (R418). -/
def Hub.netHouse (h : Hub) (n : Nat) : Word :=
  let c := h.net1 n
  word (c.st.code + c.cause * 16 + c.retries * 256 + bitB c.pg * 2 ^ 12 + bitB c.present * 2 ^ 13 + bitB (h.netOwned n) * 2 ^ 14 +
    min 255 c.vgs * 2 ^ 16)

/-- A field held within its range (R438). -/
def Hub.holdFld (h : Hub) (a : Nat) (f : Nat × Nat) (lo hi : Nat) : Hub := h.setFld a f (max lo (min hi (h.fld a f)))

/-- A write of a register word of channel `n`, its fields held within their ranges. -/
def Hub.netWrite (h : Hub) (n a : Nat) (w : Word) : Hub :=
  let live := !(h.netSeen n).st.stopped
  let h := h.regWrite a w live fun h => h.netEvt n F.NET_N_EVT_WRITE_REFUSED
  if a = Reg.NET_N_CFG n then (h.holdFld a F.NET_N_CFG_SHORT_MV 20 200).holdFld a F.NET_N_CFG_RAMP_UA 1 16
  else if a = Reg.NET_N_VWIN n then (h.holdFld a F.NET_N_VWIN_UV 18 239).holdFld a F.NET_N_VWIN_OV 19 240
  else if a = Reg.NET_N_TIME n then (h.holdFld a F.NET_N_TIME_INSERT_MS 0 1000).holdFld a F.NET_N_TIME_RAMP_TMO_MS 1 1000
  else if a = Reg.NET_N_RETRY n then (h.holdFld a F.NET_N_RETRY_RETRY_MS 1 60000).holdFld a F.NET_N_RETRY_SOA 1 1000
  else if a = Reg.NET_N_GATE n then (h.holdFld a F.NET_N_GATE_GRISE 1 255).holdFld a F.NET_N_GATE_DS_MS 10 1000
  else if a = Reg.NET_N_ILIM n then h.holdFld a F.NET_N_ILIM_SHUNT_UOHM 1 65535
  else h

end Sys2Proof.Machine
end

