-- ==== Sys2Proof/Machine/Irq.lean ====
section
/-! DEFINITION. Interrupt sources (R5, R459), MSI-X vectors and `HOST_IRQ_N`. -/

namespace Sys2Proof.Machine

/-- An enabled event bit is set in the event register at `a` with its enables at `en`. -/
def Hub.evPend (h : Hub) (a en : Nat) : Bool := decide (h.rd a &&& h.rd en ≠ 0)

/-- Source `s` is asserted: the block at W0 base s * 0x4000 has an enabled event bit set (R459). -/
def Hub.irqSource (h : Hub) (s : Nat) : Bool :=
  match s with
  | 0 => h.evPend Reg.GLB_EVT Reg.GLB_EVT_EN
  | 1 => h.evPend Reg.HOST_EVT Reg.HOST_EVT_EN
  | 2 => h.evPend Reg.TIME_EVT Reg.TIME_EVT_EN
  | 3 => h.evPend Reg.TWIN_EVT Reg.TWIN_EVT_EN
  | 4 => h.evPend Reg.RING_EVT Reg.RING_EVT_EN
  | 6 => h.evPend Reg.SWC_EVT Reg.SWC_EVT_EN
  | 8 => h.evPend Reg.TM_EVT Reg.TM_EVT_EN
  | 12 => h.evPend Reg.CAR_EVT Reg.CAR_EVT_EN
  | 16 => h.evPend Reg.LANE_EVT Reg.LANE_EVT_EN || (List.range 96).any fun n => h.evPend (Reg.LN_EVT n) (Reg.LN_EVT_EN n)
  | 18 => h.evPend Reg.FRET_EVT Reg.FRET_EVT_EN || (List.range 32).any fun e => h.evPend (Reg.FR_EVT e) (Reg.FR_EVT_EN e)
  | 20 => (List.range 16).any fun n => h.evPend (Reg.CAN_EVT n) (Reg.CAN_EVT_EN n)
  | 22 => h.evPend Reg.CRC_EVT Reg.CRC_EVT_EN
  | 24 => h.evPend Reg.USB_EVT Reg.USB_EVT_EN
  | 26 => h.evPend Reg.NET_EVT Reg.NET_EVT_EN || (List.range 16).any fun n => h.evPend (Reg.NET_N_EVT n) (Reg.NET_N_EVT_EN n)
  | 28 => h.evPend Reg.PTM_EVT Reg.PTM_EVT_EN
  | _ => false

def Hub.irqEn (h : Hub) (s : Nat) : Bool := h.flag (Reg.HOST_IRQ_MAP s) F.HOST_IRQ_MAP_EN

/-- Vectors asserted now, bit v (R459). -/
def Hub.vectors (h : Hub) : Nat :=
  (List.range 29).foldl (fun m s =>
    if h.irqEn s && h.irqSource s then Nat.lor m (2 ^ h.fld (Reg.HOST_IRQ_MAP s) F.HOST_IRQ_MAP_VEC) else m) 0

/-- `HOST_IRQ_N` is driven low (R459). -/
def Hub.irqN (h : Hub) : Bool :=
  (List.range 29).any fun s => h.irqEn s && h.flag (Reg.HOST_IRQ_MAP s) F.HOST_IRQ_MAP_QSPI && h.irqSource s

/-- Bits 0 to 28 of a notification report (R409). -/
def Hub.sourceBits (h : Hub) : Nat := (List.range 29).foldl (fun m s => m + bitB (h.irqSource s) * 2 ^ s) 0

end Sys2Proof.Machine
end

