-- ==== Sys2Proof/Machine/Usb.lean ====
section
/-! DEFINITION. The USB hub and its embedded function (chapter 14): ports, suspend and wake, requests and descriptors, endpoint
services, attachment and bus resets. -/

namespace Sys2Proof.Machine

def Hub.usbRefuse (h : Hub) : Hub := h.usbEvt F.USB_EVT_WRITE_REFUSED
def Hub.usbEn (h : Hub) : Bool := h.flag Reg.USB_CTL F.USB_CTL_EN

/-- The USB host path is enabled by the straps (R507). -/
def Hub.usbPath (h : Hub) : Bool := h.fld Reg.GLB_STRAPS F.GLB_STRAPS_HOST_SEL != 0

/-- The embedded function is present (R391). -/
def Hub.fnPresent (h : Hub) : Bool := h.flag Reg.USB_CTL F.USB_CTL_FN_EN && h.usbPath

/-- The pull-up on D+ is connected (R390). -/
def Hub.attached (h : Hub) : Bool := h.usb.vbus && h.flag Reg.USB_CTL F.USB_CTL_ATTACH

def Hub.uep (h : Hub) (i : Nat) : UEp := tget ({} : UEp) h.usb.ep i
def Hub.setUep (h : Hub) (i : Nat) (x : UEp) : Hub := { h with usb := { h.usb with ep := tset ({} : UEp) h.usb.ep i x } }

/-- The device that a request addresses: the function or the hub. -/
def Hub.udev (h : Hub) (fn : Bool) : UDev := if fn then h.usb.fn else h.usb.hub
def Hub.setUdev (h : Hub) (fn : Bool) (d : UDev) : Hub :=
  { h with usb := if fn then { h.usb with fn := d } else { h.usb with hub := d } }

/-! ## Services (R409 to R412) -/

def Hub.epF (h : Hub) (e d : Nat) (f : Nat × Nat) : Nat := h.fld (Reg.USB_EP_CFG e d) f
def Hub.epOn (h : Hub) (e d : Nat) : Bool := h.epF e d F.USB_EP_CFG_EN == 1
def Hub.epSvc (h : Hub) (e d : Nat) : Nat := h.epF e d F.USB_EP_CFG_SVC
def Hub.epQueue (h : Hub) (e d : Nat) : Nat := h.epF e d F.USB_EP_CFG_QUEUE

/-- Packet size in use (R408). -/
def Hub.epMps (h : Hub) (e d : Nat) : Nat :=
  let m := h.epF e d F.USB_EP_CFG_MPS
  if h.usb.speed = 2 then m else min m 64

/-- The service behind an endpoint is available (R409). -/
def Hub.svcUp (h : Hub) (e d : Nat) : Bool :=
  match h.epSvc e d with
  | 1 | 2 => h.flag (Reg.HQ_CFG (h.epQueue e d)) F.HQ_CFG_EN && h.fld (Reg.HQ_CFG (h.epQueue e d)) F.HQ_CFG_PATH == 2
  | 3 => true
  | 4 => h.ptEnabled
  | _ => false

def Hub.stallEp (h : Hub) (bs : List Byte) : Hub := h.emit (.usb 2 bs)
def Hub.nak (h : Hub) : Hub := h.emit (.usb 1 [])
def Hub.ackData (h : Hub) (bs : List Byte) : Hub := h.emit (.usb 0 bs)

/-- An endpoint halts (R411). -/
def Hub.haltEp (h : Hub) (e d : Nat) : Hub :=
  ((h.setUep (2 * e + d) { h.uep (2 * e + d) with halted := true }).count Reg.USB_CNT_EP_HALT).usbEvt F.USB_EVT_EP_HALT

/-- The hub forwards the host's traffic to the function: it is there, port 8 is `ENABLED`, and the bus is not suspended
(R391, R392, R399). -/
def Hub.fnReached (h : Hub) : Bool := h.fnPresent && (h.uport 7).st == .enabled && h.usb.suspAt.isNone

/-- A data transaction on endpoint `e`, direction `d`, whose service is one of `svcs`: nothing where the function does not serve it;
STALL where it is halted or its service is away; else the service's own answer. -/
def Hub.epTxn (h : Hub) (e d svc : Nat) (run : Hub → Hub) : Hub :=
  if e = 0 ∨ h.usb.fn.state ≠ 3 ∨ h.fnReached = false ∨ h.epOn e d = false ∨ h.epSvc e d ≠ svc then h
  else if (h.uep (2 * e + d)).halted then h.stallEp []
  else if h.svcUp e d = false then (h.haltEp e d).stallEp []
  else run h

/-- Write a command of 32 bytes into slot `TAIL` and advance `TAIL` (R447, R410). -/
def Hub.hqPut (h : Hub) (q : Nat) (bs : List Byte) : Hub :=
  let t := h.fld (Reg.HQ_CMD q) F.HQ_CMD_TAIL
  let ws := leWords 8 bs
  let h := (List.range 8).foldl (fun h j => h.wr (Reg.HQ_CMD_SLOT q (t % 16 * 8 + j)) (ws.getD j 0)) h
  h.setFld (Reg.HQ_CMD q) F.HQ_CMD_TAIL ((t + 1) % 32)

/-- Pass each complete command to the queue; what is left stays with the endpoint. -/
def Hub.cmdBytes : Nat → Hub → Nat → List Byte → Hub × List Byte
  | 0, h, _, bs => (h, bs)
  | k + 1, h, q, bs => if 32 ≤ bs.length then Hub.cmdBytes k (h.hqPut q (bs.take 32)) q (bs.drop 32) else (h, bs)

def Hub.flip (h : Hub) (i : Nat) : Hub := h.setUep i { h.uep i with toggle := !(h.uep i).toggle }

/-- `USB_CMD_OUT` (R410, R412): one OUT packet of a command endpoint. Its buffer holds `MPS` bytes at either speed (R408). -/
def Hub.usbCmdOut (h : Hub) (e : Nat) (bs : List Byte) : Hub :=
  h.epTxn e 0 1 fun h =>
    let q := h.epQueue e 0
    let mps := h.epMps e 0
    if mps < bs.length then h else
    if 16 < h.hqWaiting q + h.epF e 0 F.USB_EP_CFG_MPS / 32 then h.nak else
    let i := 2 * e
    let all := (h.uep i).data ++ bs
    let (h, rest) := Hub.cmdBytes (all.length / 32) h q all
    let short := decide (bs.length < mps)
    let h := if short && !rest.isEmpty then (h.count Reg.USB_CNT_CMD_DISCARDED).usbEvt F.USB_EVT_CMD_DISCARDED else h
    ((h.setUep i { h.uep i with data := if short then [] else rest }).flip i).ackData []

def execUsbCmdOut (e : Fin 16) (bs : List Byte) (s : State) : Host.Outcome State Fault Refusal := s.on fun h => h.usbCmdOut e bs

/-- The bytes of the oldest unread response of a queue. -/
def Hub.rspBytes (h : Hub) (q : Nat) : List Byte :=
  let i := h.fld (Reg.HQ_RSP q) F.HQ_RSP_HEAD % 16 * 8
  (List.range 8).flatMap fun j => leBytes 4 (h.rd (Reg.HQ_RSP_SLOT q (i + j))).toNat

/-- Read the response: `HEAD` advances. -/
def Hub.rspRead (h : Hub) (q : Nat) : Hub :=
  h.setFld (Reg.HQ_RSP q) F.HQ_RSP_HEAD ((h.fld (Reg.HQ_RSP q) F.HQ_RSP_HEAD + 1) % 32)

/-- Up to `n` responses, oldest first. -/
def Hub.rspTake : Nat → Hub → Nat → List Byte → Hub × List Byte
  | 0, h, _, acc => (h, acc)
  | k + 1, h, q, acc => if h.hqUnread q = 0 then (h, acc) else Hub.rspTake k (h.rspRead q) q (acc ++ h.rspBytes q)

/-- `USB_RSP_IN` (R410, R412): as many whole responses as the packet holds. -/
def Hub.usbRspIn (h : Hub) (e : Nat) : Hub :=
  h.epTxn e 1 2 fun h =>
    let q := h.epQueue e 1
    if h.hqUnread q = 0 then h.nak
    else
      let r := Hub.rspTake (max 1 (h.epMps e 1 / 32)) h q []
      (r.1.flip (2 * e + 1)).ackData r.2

def execUsbRspIn (e : Fin 16) (s : State) : Host.Outcome State Fault Refusal := s.on fun h => h.usbRspIn e

/-- The bits of a notification report (R409). -/
def Hub.notifyBits (h : Hub) : Nat :=
  h.sourceBits + (List.range 4).foldl (fun m q =>
    m + bitB (h.fld (Reg.HQ_CFG q) F.HQ_CFG_PATH == 2 && h.hqUnread q != 0) * 2 ^ (32 + q)) 0

/-- Some bit has changed from 0 to 1 since the last report. -/
def Hub.notifyDue (h : Hub) : Bool :=
  h.usb.owes || (List.range 36).any fun i => testBit h.notifyBits i && !testBit h.usb.notified i

/-- The bits as they stand are noted, and a report owed where one has risen. -/
def Hub.notifySample (h : Hub) : Hub := { h with usb := { h.usb with owes := h.notifyDue, notified := h.notifyBits } }

/-- `USB_NOTIFY_IN` (R409). -/
def Hub.usbNotifyIn (h : Hub) (e : Nat) : Hub :=
  h.epTxn e 1 3 fun h =>
    if h.notifyDue then
      let b := h.notifyBits
      (({ h with usb := { h.usb with notified := b, owes := false } } : Hub).flip (2 * e + 1)).ackData (leBytes 8 b)
    else h.notifySample.nak

def execUsbNotifyIn (e : Fin 16) (s : State) : Host.Outcome State Fault Refusal := s.on fun h => h.usbNotifyIn e

/-- A point-read request is well formed (R409). -/
def pointReqOk (bs : List Byte) : Bool :=
  bs.length == 8 && decide (beAt bs 0 1 ≤ 1) && beAt bs 1 1 == 0 && beAt bs 6 2 == 0 && decide (1 ≤ beAt bs 4 2) &&
    decide (beAt bs 4 2 ≤ 1024) && decide (beAt bs 2 2 + beAt bs 4 2 ≤ (if beAt bs 0 1 = 0 then 65536 else 16384))

/-- `USB_POINT_READ_REQ` (R409): a malformed request halts the IN endpoint. -/
def Hub.pointReq (h : Hub) (e : Nat) (bs : List Byte) : Hub :=
  h.epTxn e 0 4 fun h =>
    let i := 2 * e + 1
    if (h.uep i).data ≠ [] then h.nak
    else if pointReqOk bs then
      let recs := (List.range (beAt bs 4 2)).flatMap fun j =>
        ((h.w2rec (beAt bs 0 1) (beAt bs 2 2 + j)).words).flatMap fun w => leBytes 4 w.toNat
      ((h.setUep i { h.uep i with data := recs }).flip (2 * e)).ackData []
    else ((h.haltEp e 1).flip (2 * e)).ackData []

def execUsbPointReadReq (e : Fin 16) (bs : List Byte) (s : State) : Host.Outcome State Fault Refusal := s.on fun h => h.pointReq e bs

/-- `USB_POINT_READ_IN` (R409). -/
def Hub.pointIn (h : Hub) (e : Nat) : Hub :=
  h.epTxn e 1 4 fun h =>
    let i := 2 * e + 1
    let x := h.uep i
    if x.data = [] then h.nak
    else ((h.setUep i { x with data := x.data.drop (h.epMps e 1) }).flip i).ackData (x.data.take (h.epMps e 1))

def execUsbPointReadIn (e : Fin 16) (s : State) : Host.Outcome State Fault Refusal := s.on fun h => h.pointIn e

/-! ## Resets (R398, R413) -/

/-- Responses of commands of queue `q` that have not been sent to the USB host are dropped (R413): those posted now, and those
still to come, by their number. -/
def Hub.dropPosted : Nat → Hub → Nat → Hub
  | 0, h, _ => h
  | k + 1, h, q =>
    if h.hqUnread q = 0 ∨ tget 0 h.usb.dropRsp q = 0 then h
    else Hub.dropPosted k (((({ h with usb := { h.usb with dropRsp := tset 0 h.usb.dropRsp q (tget 0 h.usb.dropRsp q - 1) } } : Hub).rspRead q).count
      Reg.USB_CNT_RSP_DROPPED).usbEvt F.USB_EVT_RSP_DROPPED) q

def Hub.dropQueue (h : Hub) (q : Nat) : Hub :=
  if h.fld (Reg.HQ_CFG q) F.HQ_CFG_PATH = 2 ∧ h.flag (Reg.HQ_CFG q) F.HQ_CFG_EN = true then
    let n := h.hqUnread q + h.hqWaiting q + h.fld (Reg.HQ_INPROG q) F.HQ_INPROG
    Hub.dropPosted 32 { h with usb := { h.usb with dropRsp := tset 0 h.usb.dropRsp q n } } q
  else h

/-- A reset that reaches the embedded function (R413). -/
def Hub.fnReset (h : Hub) : Hub :=
  if h.fnPresent = false then h else
  let h := h.each 4 Hub.dropQueue
  { h with usb := { h.usb with fn := { state := 1 }, ep := h.usb.ep.filter fun x => x.1 == 33, notified := 0, owes := false } }

/-- The port's channel is switched off (R398), where the block owns it. -/
def Hub.portOff (h : Hub) (i : Nat) : Hub :=
  match (if h.usbEn then h.portNet i else none) with
  | some n => if (h.netSeen n).st.stopped then h else h.netIn n .cmdOff
  | none => h

/-- The decision window ends without a wake; a wake request of the function is withdrawn (R402). -/
def Hub.withdraw (h : Hub) : Hub :=
  let h' : Hub := { h with usb := { h.usb with wakeAt := none, wakeFn := false, kAt := none, kPorts := [] } }
  if h.usb.wakeAt.isSome && h.usb.wakeFn then (h'.count Reg.USB_CNT_WAKE_WITHDRAWN).usbEvt F.USB_EVT_WAKE_WITHDRAWN else h'

/-- The hub is reset: ports off, translators empty, unconfigured at address 0 in `state` (R398, R413). `PORT_OVER_CURRENT` stays until
`PORT_POWER` is next set (R397); test modes end (R392). -/
def Hub.usbHubReset (h : Hub) (state speed : Nat) : Hub :=
  let h := h.fnReset.withdraw
  let h := h.each 8 fun h i => (h.setUport i { oc := (h.uport i).oc }).portOff i
  let h := h.setUport 8 {}
  let fn : UDev := {}
  let hub : UDev := { state := state }
  { h with usb := { h.usb with hub := hub, fn := fn, speed := speed, suspAt := none, report := 0, tt := [], ep := [] } }

/-- `USB_BUS_RESET` (R413). -/
def Hub.usbBusReset (h : Hub) (high : Bool) : Hub :=
  if h.attached = false then h
  else ((h.usbHubReset 1 (if high then 2 else 1)).count Reg.USB_CNT_BUS_RESET).usbEvt F.USB_EVT_BUS_RESET

def execUsbBusReset (high : Bool) (s : State) : Host.Outcome State Fault Refusal := s.on fun h => h.usbBusReset high

/-- `USB_VBUS_CHANGE` (R390): upstream VBUS becomes valid or invalid; invalid, it acts as an upstream bus reset. -/
def Hub.vbusChange (h : Hub) (valid : Bool) : Hub :=
  if valid = h.usb.vbus then h
  else if valid then { h with usb := { h.usb with vbus := true } }
  else
    let h := (h.usbHubReset 0 0).usbEvt F.USB_EVT_VBUS_CHANGE
    let h : Hub := { h with usb := { h.usb with vbus := false } }
    (h.count Reg.USB_CNT_BUS_RESET).usbEvt F.USB_EVT_BUS_RESET

def execUsbVbusChange (valid : Bool) (s : State) : Host.Outcome State Fault Refusal :=
  s.onAny fun h => if h.held then { h with usb := { h.usb with vbus := valid } } else h.vbusChange valid

/-! ## Attachment (R390, R398, R408) -/

/-- Units of an endpoint: first, and one past the last (R408). -/
def Hub.epUnits (h : Hub) (e d : Nat) : Nat × Nat :=
  let b := h.epF e d F.USB_EP_CFG_BASE
  (b, b + (1 + h.epF e d F.USB_EP_CFG_NBUF2) * ceilDiv (h.epF e d F.USB_EP_CFG_MPS) 64)

/-- The enabled endpoints, in the order endpoint, then direction. -/
def Hub.epsOn (h : Hub) : List (Nat × Nat) :=
  ((List.range 16).flatMap fun e => [(e, 0), (e, 1)]).filter fun (e, d) => decide (1 ≤ e) && h.epOn e d

/-- The services are paired as R409 requires, for one endpoint. -/
def Hub.epPaired (h : Hub) (e d : Nat) : Bool :=
  let on := h.epsOn
  let svc := h.epSvc e d
  let q := h.epQueue e d
  let bulk := h.epF e d F.USB_EP_CFG_TYPE == 2
  let same := fun s => on.filter fun (e', d') => h.epSvc e' d' == s && (s == 3 || h.epQueue e' d' == q)
  match svc with
  | 1 => d == 0 && bulk && (same 1).length == 1 && (same 2).length == 1
  | 2 => d == 1 && bulk && (same 2).length == 1 && (same 1).length == 1
  | 3 => d == 1 && !bulk && decide (8 ≤ h.epF e d F.USB_EP_CFG_MPS) && (same 3).length == 1
  | 4 => bulk && on.contains (e, 1 - d) && h.epSvc e (1 - d) == 4
  | _ => false

/-- The reason why an endpoint fails the checks of R408; 0 where it passes. -/
def Hub.epReason (h : Hub) (e d : Nat) : Nat :=
  let t := h.epF e d F.USB_EP_CFG_TYPE
  let m := h.epF e d F.USB_EP_CFG_MPS
  let u := h.epUnits e d
  if t < 2 ∨ (t = 2 ∧ m ≠ 512) ∨ (t = 3 ∧ (m = 0 ∨ 1024 < m)) then 1
  else if u.1 < 2 ∨ 256 < u.2 then 2
  else if h.epsOn.any fun (e', d') =>
      (decide (e' < e) || (e' == e && decide (d' < d))) && decide ((h.epUnits e' d').1 < u.2) && decide (u.1 < (h.epUnits e' d').2) then 3
  else if h.epPaired e d = false then 4
  else 0

/-- The first failing endpoint. -/
def Hub.epCheck (h : Hub) : Option (Nat × Nat × Nat) :=
  (h.epsOn.map fun (e, d) => (e, d, h.epReason e d)).find? fun x => x.2.2 != 0

/-- `USB_ATTACH` (R390, R398, R408): a write of `USB_CTL`. -/
def Hub.usbCtlWrite (h : Hub) (w : Word) : Hub :=
  let att := h.flag Reg.USB_CTL F.USB_CTL_ATTACH
  let att' := bits w F.USB_CTL_ATTACH = 1
  let en := h.usbEn
  match (if att = false ∧ att' then h.epCheck else none) with
  | some (e, d, r) => (h.wr Reg.USB_EP_CHECK (word (e + d * 16 + r * 32))).usbRefuse
  | none =>
    let was := h.attached
    let h := h.regWrite Reg.USB_CTL w att Hub.usbRefuse
    let h := if en = false ∧ h.usbEn = true then h.each 8 fun h i => (h.setUport i {}).portOff i else h
    if was = true ∧ h.attached = false then h.usbHubReset 0 0 else h

def execUsbAttach (w : Word) (s : State) : Host.Outcome State Fault Refusal := s.on fun h => h.usbCtlWrite w

/-! ## Suspend, resume and wake (R399 to R402) -/

/-- `USB_SUSPEND` (R399). -/
def Hub.usbSuspend (h : Hub) : Hub :=
  if h.attached = true ∧ h.usb.suspAt.isNone = true then
    { h with usb := { h.usb with suspAt := some h.now } }.usbEvt F.USB_EVT_SUSPEND
  else h

def execUsbSuspend (s : State) : Host.Outcome State Fault Refusal := s.on Hub.usbSuspend

/-- A suspended port starts its own resume (R400). -/
def Hub.portResume (h : Hub) (i : Nat) : Hub :=
  if (h.uport i).st = .suspended then h.setUport i { h.uport i with st := .resuming, at_ := h.now } else h

/-- The hub leaves global suspend; the suspended ports that have signalled K start their own resume (R402). -/
def Hub.usbResume (h : Hub) : Hub :=
  let h := h.usb.kPorts.foldl Hub.portResume h
  { h with usb := { h.usb with suspAt := none, wakeAt := none, wakeFn := false, kAt := none, kPorts := [] } }.usbEvt F.USB_EVT_RESUME

/-- `USB_WAKE_WINDOW_END` (R401): 1 ms after the wake event, or 5 ms after entering suspend, the hub begins to drive K upstream. -/
def Hub.wakeEnd (h : Hub) : Hub :=
  match h.usb.wakeAt, h.usb.suspAt with
  | some t, some t0 =>
    if t + tuMs ≤ h.now ∧ t0 + 5 * tuMs ≤ h.now ∧ h.usb.kAt.isNone = true then
      { h with usb := { h.usb with kAt := some h.now, wakeAt := none, wakeFn := false } }
    else h
  | _, _ => h

/-- After 2 ms of K upstream, the wake has been sent, and resume is driven downstream (R401). -/
def Hub.wakeSent (h : Hub) : Hub :=
  match h.usb.kAt with
  | some t => if t + 2 * tuMs ≤ h.now then (h.usbEvt F.USB_EVT_WAKE_SENT).usbResume else h
  | none => h

def execUsbWakeWindowEnd (s : State) : Host.Outcome State Fault Refusal := s.on Hub.wakeEnd

/-- `USB_HOST_RESUME` (R402). Once the hub drives K itself, its own wake proceeds (R401). -/
def Hub.hostResume (h : Hub) : Hub :=
  if h.usb.suspAt.isNone || h.usb.kAt.isSome then h
  else
    let open_ := h.usb.wakeAt.isSome && h.usb.wakeFn
    let h := h.usbResume
    if open_ then (h.count Reg.USB_CNT_WAKE_WITHDRAWN).usbEvt F.USB_EVT_WAKE_WITHDRAWN else h

def execUsbHostResume (s : State) : Host.Outcome State Fault Refusal := s.on Hub.hostResume

/-! ## Port events (R392, R393, R400) -/

/-- `USB_PORT_CONNECT` (R392): the pull-up has been seen for the debounce, on D- where `low`. -/
def Hub.portConnect (h : Hub) (i : Nat) (low : Bool) : Hub :=
  if (h.uport i).st = .disconnected then
    let h := h.setUport i { h.uport i with st := .disabled, conn := true, low := low, high := false }
    (h.uportChange i 0).wakeEvent false
  else h

def execUsbPortConnect (i : Fin 7) (low : Bool) (s : State) : Host.Outcome State Fault Refusal := s.on fun h => h.portConnect i low

/-- `USB_PORT_DISCONNECT` (R392). -/
def Hub.portDisconnect (h : Hub) (i : Nat) : Hub :=
  let p := h.uport i
  if p.st = .disabled ∨ p.st = .enabled ∨ p.st = .suspended ∨ p.st = .resuming then
    let h := h.setUport i { p with st := .disconnected, conn := false, low := false, high := false }
    (h.uportChange i 0).wakeEvent false
  else h

def execUsbPortDisconnect (i : Fin 7) (s : State) : Host.Outcome State Fault Refusal := s.on fun h => h.portDisconnect i

/-- `USB_PORT_RESET_END` (R393): the reset has lasted at least 10 ms; `chirp` says that a device chirp K was seen. -/
def Hub.portResetEnd (h : Hub) (i : Nat) (chirp : Bool) : Hub :=
  let p := h.uport i
  if p.st = .resetting ∧ p.at_ + 10 * tuMs ≤ h.now then
    let high := h.usb.speed == 2 && (chirp || i == 7)
    (h.setUport i { p with st := .enabled, high := high, low := p.low && !high }).uportChange i 4
  else h

def execUsbPortResetEnd (i : Fin 8) (chirp : Bool) (s : State) : Host.Outcome State Fault Refusal :=
  s.on fun h => h.portResetEnd i chirp

/-- `USB_PORT_BABBLE` (R392). -/
def Hub.portBabble (h : Hub) (i : Nat) : Hub :=
  let p := h.uport i
  if p.st = .enabled then (h.setUport i { p with st := .disabled }).uportChange i 1 else h

def execUsbPortBabble (i : Fin 8) (s : State) : Host.Outcome State Fault Refusal := s.on fun h => h.portBabble i

/-- `USB_PORT_REMOTE_K` (R400, R401): under global suspend it is a wake event, and a suspended port resumes with the hub. -/
def Hub.portK (h : Hub) (i : Nat) : Hub :=
  let p := h.uport i
  if h.usb.suspAt.isSome then
    if p.st = .enabled then h.wakeEvent false
    else if p.st = .suspended then ({ h with usb := { h.usb with kPorts := if h.usb.kPorts.contains i then h.usb.kPorts else h.usb.kPorts ++ [i] } } : Hub).wakeEvent false
    else h
  else h.portResume i

def execUsbPortRemoteK (i : Fin 8) (s : State) : Host.Outcome State Fault Refusal := s.on fun h => h.portK i

/-- `USB_PORT_RESUME_END` (R400). -/
def Hub.portResumeEnd (h : Hub) (i : Nat) : Hub :=
  let p := h.uport i
  if p.st = .resuming ∧ p.at_ + 20 * tuMs ≤ h.now then (h.setUport i { p with st := .enabled }).uportChange i 2 else h

def execUsbPortResumeEnd (i : Fin 8) (s : State) : Host.Outcome State Fault Refusal := s.on fun h => h.portResumeEnd i

/-! ## Standard requests (R404) -/

/-- A request on endpoint 0 of the hub or of the function: its SETUP clears a protocol STALL; no answer where the device is not there. -/
def Hub.usbReq (h : Hub) (fn : Bool) (run : Hub → Option (Hub × List Byte)) : Hub :=
  if (h.udev fn).state = 0 ∨ (fn = true ∧ h.fnReached = false) then h else
  let h := h.setUdev fn { h.udev fn with stall := false }
  match run h with
  | some (h, bs) => h.ackData bs
  | none => (h.setUdev fn { h.udev fn with stall := true }).stallEp []

/-- The endpoint a request names: the hub's 0x81, or an enabled endpoint of the function. -/
def Hub.reqEp (h : Hub) (fn : Bool) (index : Nat) : Option Nat :=
  if fn then
    let e := index % 16
    let d := index / 128 % 2
    if index % 256 = e + d * 128 ∧ 1 ≤ e ∧ h.epOn e d = true then some (2 * e + d) else none
  else if index = 0x81 then some 33 else none

/-- `GET_STATUS`: recipient 0 device, 1 interface, 2 endpoint. -/
def Hub.getStatus (h : Hub) (fn : Bool) (recip index : Nat) : Hub :=
  h.usbReq fn fun h =>
    match recip with
    | 0 => some (h, [byte (1 + bitB (h.udev fn).rwake * 2), 0])
    | 1 => if index = 0 ∧ (h.udev fn).state = 3 then some (h, [0, 0]) else none
    | 2 => if fn = true ∧ index % 128 = 0 then some (h, [0, 0]) else (h.reqEp fn index).map fun i => (h, [byte (bitB (h.uep i).halted), 0])
    | _ => none

def execGetStatus (fn : Bool) (recip : Byte) (index : Half) (s : State) : Host.Outcome State Fault Refusal :=
  s.on fun h => h.getStatus fn recip.toNat index.toNat

/-- `CLEAR_FEATURE` (R404, R411). Test modes are left only by a reset (R392). -/
def Hub.clearFeature (h : Hub) (fn : Bool) (recip feature index : Nat) : Hub :=
  h.usbReq fn fun h =>
    if recip = 0 ∧ feature = 1 then some (h.setUdev fn { h.udev fn with rwake := false }, [])
    else if recip = 2 ∧ feature = 0 then
      (h.reqEp fn index).map fun i => (h.setUep i { h.uep i with halted := false, toggle := false }, [])
    else none

def execClearFeature (fn : Bool) (recip : Byte) (feature index : Half) (s : State) : Host.Outcome State Fault Refusal :=
  s.on fun h => h.clearFeature fn recip.toNat feature.toNat index.toNat

/-- `SET_FEATURE` (R404, R411): the hub's own test mode stands with its upstream port. -/
def Hub.setFeature (h : Hub) (fn : Bool) (recip feature index : Nat) : Hub :=
  h.usbReq fn fun h =>
    if recip = 0 ∧ feature = 1 then some (h.setUdev fn { h.udev fn with rwake := true }, [])
    else if recip = 0 ∧ feature = 2 ∧ fn = false ∧ 1 ≤ index / 256 ∧ index / 256 ≤ 5 then
      some (h.setUport 8 { h.uport 8 with st := .testing, test := index / 256 }, [])
    else if recip = 2 ∧ feature = 0 then
      (h.reqEp fn index).map fun i =>
        let was := (h.uep i).halted
        let h := h.setUep i { h.uep i with halted := true }
        (if fn && !was then (h.count Reg.USB_CNT_EP_HALT).usbEvt F.USB_EVT_EP_HALT else h, [])
    else none

def execSetFeature (fn : Bool) (recip : Byte) (feature index : Half) (s : State) : Host.Outcome State Fault Refusal :=
  s.on fun h => h.setFeature fn recip.toNat feature.toNat index.toNat

/-- `SET_ADDRESS` (R404). -/
def Hub.setAddress (h : Hub) (fn : Bool) (a : Nat) : Hub :=
  h.usbReq fn fun h =>
    if 1 ≤ a ∧ a ≤ 127 ∧ (h.udev fn).state ≤ 2 then some (h.setUdev fn { h.udev fn with addr := a, state := 2 }, []) else none

def execSetAddress (fn : Bool) (a : Half) (s : State) : Host.Outcome State Fault Refusal := s.on fun h => h.setAddress fn a.toNat

/-- The descriptor memory as bytes. -/
def Hub.descBytes (h : Hub) (off n : Nat) : List Byte :=
  (List.range n).map fun i => byte ((h.rd (Reg.USB_DESC ((off + i) % 2048 / 4))).toNat / 2 ^ (8 * ((off + i) % 4)))

/-- The descriptor that word `i` of the directory names (R406). -/
def Hub.dirDesc (h : Hub) (i : Nat) : Option (List Byte) :=
  let w := (h.rd (Reg.USB_DESC i)).toNat
  let n := bitsN w 16 11
  if n = 0 then none else some (h.descBytes (bitsN w 0 11) n)

/-- The hub descriptor (R406). -/
def Hub.hubDesc (h : Hub) : List Byte :=
  [11, 0x29, 8, 0x0D, 0x00, byte (h.fld Reg.USB_CTL F.USB_CTL_PWRON2PG), 1, 0x00, 0x01, 0xFF, 0xFF]

/-- The descriptor of a type and index. -/
def Hub.descriptor (h : Hub) (fn : Bool) (typ idx : Nat) : Option (List Byte) :=
  let b := if fn then 4 else 0
  let high := h.usb.speed == 2
  match typ with
  | 1 => if idx = 0 then h.dirDesc b else none
  | 2 => if idx = 0 then h.dirDesc (b + (if high then 2 else 3)) else none
  | 3 => if idx ≤ 7 then h.dirDesc (8 + idx) else none
  | 6 => if idx = 0 then h.dirDesc (b + 1) else none
  | 7 => if idx = 0 then h.dirDesc (b + (if high then 3 else 2)) else none
  | 0x29 => if fn then none else some h.hubDesc
  | _ => none

/-- `GET_DESCRIPTOR` (R404 to R406). -/
def Hub.getDescriptor (h : Hub) (fn : Bool) (typ idx len : Nat) : Hub :=
  h.usbReq fn fun h => (h.descriptor fn typ idx).map fun d => (h, d.take len)

def execGetDescriptor (fn : Bool) (typ idx : Byte) (len : Half) (s : State) : Host.Outcome State Fault Refusal :=
  s.on fun h => h.getDescriptor fn typ.toNat idx.toNat len.toNat

def execGetConfiguration (fn : Bool) (s : State) : Host.Outcome State Fault Refusal :=
  s.on fun h => h.usbReq fn fun h => some (h, [byte (bitB ((h.udev fn).state == 3))])

/-- `SET_CONFIGURATION` (R404). The endpoints of the function start afresh. -/
def Hub.setConfiguration (h : Hub) (fn : Bool) (v : Nat) : Hub :=
  h.usbReq fn fun h =>
    if 2 ≤ (h.udev fn).state ∧ v ≤ 1 then
      let h := h.setUdev fn { h.udev fn with state := 2 + v, alt := 0 }
      let keep := fun (x : Nat × UEp) => if fn then x.1 == 33 else x.1 != 33
      some ({ h with usb := { h.usb with ep := h.usb.ep.filter keep } }, [])
    else none

def execSetConfiguration (fn : Bool) (v : Byte) (s : State) : Host.Outcome State Fault Refusal :=
  s.on fun h => h.setConfiguration fn v.toNat

def execGetInterface (fn : Bool) (index : Half) (s : State) : Host.Outcome State Fault Refusal :=
  s.on fun h => h.usbReq fn fun h =>
    if (h.udev fn).state = 3 ∧ index = 0 then some (h, [byte (h.udev fn).alt]) else none

/-- `SET_INTERFACE` (R394, R404): the hub's alternate setting chooses the arrangement of its translators, which start empty. At full
speed the hub's interface has one alternate. -/
def Hub.setInterface (h : Hub) (fn : Bool) (alt index : Nat) : Hub :=
  h.usbReq fn fun h =>
    if (h.udev fn).state = 3 ∧ index = 0 ∧ (alt = 0 ∨ (alt = 1 ∧ fn = false ∧ h.usb.speed = 2)) then
      let h := h.setUdev fn { h.udev fn with alt := alt }
      some (if fn then h else { h with usb := { h.usb with tt := [] } }, [])
    else none

def execSetInterface (fn : Bool) (alt index : Half) (s : State) : Host.Outcome State Fault Refusal :=
  s.on fun h => h.setInterface fn alt.toNat index.toNat

/-- `UNSUPPORTED_REQUEST` (R404): a request not listed, or with values outside those given. -/
def execUnsupportedRequest (fn : Bool) (s : State) : Host.Outcome State Fault Refusal :=
  s.on fun h => h.usbReq fn fun _ => none

/-! ## Hub-class requests (R405) -/

/-- A hub-class request about port number `n` (1 to 8); the hub must be configured. -/
def Hub.portReq (h : Hub) (n : Nat) (run : Hub → Nat → Option (Hub × List Byte)) : Hub :=
  h.usbReq false fun h => if h.usb.hub.state = 3 ∧ 1 ≤ n ∧ n ≤ 8 then run h (n - 1) else none

def execGetHubStatus (s : State) : Host.Outcome State Fault Refusal :=
  s.on fun h => h.usbReq false fun h => if h.usb.hub.state = 3 then some (h, [0, 0, 0, 0]) else none

/-- `CLEAR_HUB_FEATURE`: feature 0 `C_HUB_LOCAL_POWER`, 1 `C_HUB_OVER_CURRENT`. -/
def execClearHubFeature (feature : Half) (s : State) : Host.Outcome State Fault Refusal :=
  s.on fun h => h.usbReq false fun h => if h.usb.hub.state = 3 ∧ feature.toNat ≤ 1 then some (h, []) else none

/-- wPortStatus as USB 2.0 lays it out (log entry 40). -/
def UPort.status (p : UPort) : Nat :=
  bitB p.conn + bitB (p.st == .enabled || p.st == .suspended || p.st == .resuming) * 2 +
    bitB (p.st == .suspended || p.st == .resuming) * 4 + bitB p.oc * 8 + bitB (p.st == .resetting) * 16 + bitB p.power * 256 +
    bitB p.low * 512 + bitB p.high * 1024 + bitB (p.st == .testing) * 2048

/-- `GET_PORT_STATUS`. -/
def execGetPortStatus (n : Byte) (s : State) : Host.Outcome State Fault Refusal :=
  s.on fun h => h.portReq n.toNat fun h i => some (h, leBytes 2 (h.uport i).status ++ leBytes 2 (h.uport i).change)

/-- Switch a port's power on (R392, R396). -/
def Hub.portPower (h : Hub) (i : Nat) : Hub :=
  let p := h.uport i
  let h := h.setUport i { p with power := true, oc := false }
  if p.st ≠ .poweredOff then h
  else if i = 7 then
    if h.fnPresent then
      let h := (h.setUport i { h.uport i with st := .disabled, conn := true }).uportChange i 0
      { h with usb := { h.usb with fn := { state := 1 } } }
    else h.setUport i { h.uport i with st := .disconnected }
  else match h.portNet i with
    | none => h.setUport i { h.uport i with st := .disconnected }
    | some n =>
      if (h.net1 n).pg then h.setUport i { h.uport i with st := .disconnected }
      else if (h.netSeen n).canOn && h.netSettingsOk n then h.netIn n .cmdOn
      else h

/-- `SET_PORT_POWER` (R396). -/
def execSetPortPower (n : Byte) (s : State) : Host.Outcome State Fault Refusal :=
  s.on fun h => h.portReq n.toNat fun h i => some (h.portPower i, [])

/-- `SET_PORT_RESET` (R392, R393, R413). -/
def execSetPortReset (n : Byte) (s : State) : Host.Outcome State Fault Refusal :=
  s.on fun h => h.portReq n.toNat fun h i =>
    let p := h.uport i
    if p.st = .disabled ∨ p.st = .enabled then
      let h := h.setUport i { p with st := .resetting, at_ := h.now }
      some (if i = 7 then h.fnReset else h, [])
    else some (h, [])

/-- `SET_PORT_SUSPEND` (R392). -/
def execSetPortSuspend (n : Byte) (s : State) : Host.Outcome State Fault Refusal :=
  s.on fun h => h.portReq n.toNat fun h i =>
    let p := h.uport i
    some (if p.st = .enabled then h.setUport i { p with st := .suspended } else h, [])

/-- `SET_PORT_TEST` (R392, R405): no test mode on port 8, nor while a port is `ENABLED`. -/
def execSetPortTest (n : Byte) (sel : Byte) (s : State) : Host.Outcome State Fault Refusal :=
  s.on fun h => h.portReq n.toNat fun h i =>
    let p := h.uport i
    if i = 7 ∨ sel.toNat = 0 ∨ 5 < sel.toNat then none
    else if (p.st = .disconnected ∨ p.st = .disabled ∨ p.st = .suspended) ∧ (List.range 8).all (fun j => (h.uport j).st != .enabled) = true then
      some (h.setUport i { p with st := .testing, test := sel.toNat }, [])
    else some (h, [])

/-- `CLEAR_PORT_ENABLE` (R392). -/
def execClearPortEnable (n : Byte) (s : State) : Host.Outcome State Fault Refusal :=
  s.on fun h => h.portReq n.toNat fun h i =>
    let p := h.uport i
    some (if p.st = .enabled then h.setUport i { p with st := .disabled } else h, [])

/-- `CLEAR_PORT_SUSPEND` (R400). -/
def execClearPortSuspend (n : Byte) (s : State) : Host.Outcome State Fault Refusal :=
  s.on fun h => h.portReq n.toNat fun h i =>
    some (h.portResume i, [])

/-- `CLEAR_PORT_POWER` (R392): port 8 disconnects the function logically (R405). -/
def execClearPortPower (n : Byte) (s : State) : Host.Outcome State Fault Refusal :=
  s.on fun h => h.portReq n.toNat fun h i =>
    let p := h.uport i
    let h := if i = 7 ∧ p.conn = true then h.fnReset else h
    let h := (h.setUport i { change := p.change, oc := p.oc }).portOff i
    let fn : UDev := {}
    some (if i = 7 then { h with usb := { h.usb with fn := fn } } else h, [])

/-- `CLEAR_PORT_CHANGE` (R405): one `C_PORT_*` bit. -/
def execClearPortChange (n : Byte) (bit : Fin 5) (s : State) : Host.Outcome State Fault Refusal :=
  s.on fun h => h.portReq n.toNat fun h i =>
    let p := h.uport i
    let h := h.setUport i { p with change := p.change - bitB (testBit p.change bit) * 2 ^ bit.val }
    some (if (h.uport i).change = 0 then { h with usb := { h.usb with report := h.usb.report - bitB (testBit h.usb.report (i + 1)) * 2 ^ (i + 1) } } else h, [])

/-- The translator that serves port `i` (R394). -/
def Hub.ttOf (h : Hub) (i : Nat) : Nat := if h.usb.hub.alt = 1 then i else 0

/-- `CLEAR_TT_BUFFER` (R394): the buffer of endpoint `info`. In alternate 0 only the translator of port 1 is there. -/
def execClearTtBuffer (n : Byte) (info : Half) (s : State) : Host.Outcome State Fault Refusal :=
  s.on fun h => h.portReq n.toNat fun h i =>
    if i = 7 ∨ h.ttOf i ≠ i then none
    else
      let l := (tget [] h.usb.tt i).filter fun b => b.1 != info.toNat
      some ({ h with usb := { h.usb with tt := tset [] h.usb.tt i l } }, [])

/-- `RESET_TT` (R394). -/
def execResetTt (n : Byte) (s : State) : Host.Outcome State Fault Refusal :=
  s.on fun h => h.portReq n.toNat fun h i =>
    if i = 7 ∨ h.ttOf i ≠ i then none else some ({ h with usb := { h.usb with tt := tset [] h.usb.tt i [] } }, [])

/-! ## Registers and the tick -/

def UpSt.code : UpSt → Nat
  | .poweredOff => 0 | .disconnected => 1 | .disabled => 2 | .resetting => 3 | .enabled => 4 | .suspended => 5 | .resuming => 6 | .testing => 7

/-- `USB_P_STAT` of a port (R415). -/
def Hub.uportStat (h : Hub) (i : Nat) : Word :=
  let p := h.uport i
  word (p.st.code + (if p.low then 1 else if p.high then 2 else 0) * 16 + bitB p.oc * 64 + p.change * 65536)

/-- `USB_STAT` (R414). -/
def Hub.usbStat (h : Hub) : Word :=
  let away := (h.uport 7).st == .suspended || (h.uport 7).st == .resuming
  let st := fun (d : UDev) (alone : Bool) => if (h.usb.suspAt.isSome || alone) && d.state != 0 then 4 else d.state
  word (bitB h.usb.vbus + h.usb.speed * 2 + st h.usb.hub false * 8 + bitB h.usb.hub.rwake * 64 + h.usb.hub.addr * 128 + st h.usb.fn away * 2 ^ 14 +
    bitB h.usb.fn.rwake * 2 ^ 17 + h.usb.fn.addr * 2 ^ 18 + bitB h.usbPath * 2 ^ 25)

/-- Status of endpoint `e`, direction `d` (R416). -/
def Hub.uepStat (h : Hub) (e d : Nat) : Word :=
  let x := h.uep (2 * e + d)
  word (bitB x.halted + bitB x.toggle * 2 + min (1 + h.epF e d F.USB_EP_CFG_NBUF2) (ceilDiv x.data.length (max 1 (h.epMps e d))) * 4)

/-- A report that is owed asks for wake (R401): the bus is suspended, or port 8 is, which then resumes as for K from a device (R400). -/
def Hub.fnWake (h : Hub) : Hub :=
  if h.usb.fn.rwake && h.usb.owes then
    if (h.uport 7).st == .suspended then h.portK 7 |>.wakeEvent true
    else if h.usb.suspAt.isSome then h.wakeEvent true else h
  else h

/-- At the end of a cycle: responses to be dropped go as they are posted (R413); the notification bits are noted; K has been driven. -/
def Hub.usbTick (h : Hub) : Hub :=
  let h := (h.each 4 fun h q => Hub.dropPosted 32 h q).wakeSent
  if h.usb.fn.state = 3 then h.notifySample.fnWake else h

end Sys2Proof.Machine
end

