-- ==== Sys2Proof/Machine/Boot.lean ====
section
/-! DEFINITION. The reference clock and root PLL, the resets, the flash image and the boot (chapters 17 to 19). -/

namespace Sys2Proof.Machine

def Hub.setGlb (h : Hub) (g : GlbBlk) : Hub := { h with glb := g }
def Hub.glbEvt (h : Hub) (f : Nat × Nat) : Hub := h.evt Reg.GLB_EVT f
def Hub.twinEn (h : Hub) : Bool := h.flag Reg.GLB_STRAPS F.GLB_STRAPS_TWIN_EN

/-! ## The clock monitor (R467 to R471) -/

/-- `GLB_CLK_STAT` (R495). -/
def Hub.clkStat (h : Hub) : Word := word (h.glb.src + bitB h.glb.pllLock * 4 + bitB h.glb.refOk * 8)

/-- A ring port's receiver is locked. -/
def Hub.rxLocked (h : Hub) (p : Nat) : Bool := (tget ({} : RPort) h.ring.port p).link != .down

/-- Choose among the recovered clocks: `P0`, then `P1`, else holdover (R468, R469). -/
def Hub.fallBack (h : Hub) : Hub :=
  if h.rxLocked 0 then h.setGlb { h.glb with src := 1 }
  else if h.rxLocked 1 then h.setGlb { h.glb with src := 2 }
  else if h.glb.src = 3 then h
  else (h.setGlb { h.glb with src := 3 }).glbEvt F.GLB_EVT_HOLDOVER

/-- The reference in use is judged again, once a cycle, when the ports have been judged (R469): a lost `REFCLK` is left (R468), and so is a port
that has lost lock; a port that has locked ends holdover. -/
def Hub.clkWatch (h : Hub) : Hub :=
  match h.glb.src with
  | 0 => if h.glb.refOk then h else (h.fallBack.count Reg.GLB_CNT_REF_LOST).glbEvt F.GLB_EVT_REF_LOST
  | 1 => if h.rxLocked 0 then h else h.fallBack
  | 2 => if h.rxLocked 1 then h else h.fallBack
  | _ => h.fallBack

/-- `REFCLK_LOST` (R468): there are edges or none, and the offset from a locked ring port's clock averaged over 1 ms. The PLL leaves it when
the cycle's losses of lock have been judged (`Hub.clkWatch`). -/
def Hub.refLost (h : Hub) (edges : Bool) (ppm : Nat) : Hub :=
  let locked := h.rxLocked 0 || h.rxLocked 1
  if edges = false ∨ (locked = true ∧ h.fld Reg.GLB_CLK_CTL F.GLB_CLK_CTL_REF_TOL_PPM < ppm) then
    h.setGlb { h.glb with refOk := false }
  else h

def execRefclkLost (edges : Bool) (ppm : Half) (s : State) : Host.Outcome State Fault Refusal := s.onPowered fun h => h.refLost edges ppm.toNat

/-- The PLL goes back to `REFCLK` (R470). -/
def Hub.refBack (h : Hub) : Hub := (h.setGlb { h.glb with src := 0 }).glbEvt F.GLB_EVT_REF_RESTORED

/-- `REFCLK_RETURN` (R470): `REFCLK` has been healthy without a break for `ms` milliseconds. -/
def Hub.refReturn (h : Hub) (ms : Nat) : Hub :=
  let h := h.setGlb { h.glb with refOk := true }
  if h.glb.src ≠ 0 ∧ h.flag Reg.GLB_CLK_CTL F.GLB_CLK_CTL_AUTO_RETURN = true ∧
      h.fld Reg.GLB_CLK_CTL F.GLB_CLK_CTL_RETURN_S * 1000 ≤ ms then h.refBack
  else h

def execRefclkReturn (ms : Word) (s : State) : Host.Outcome State Fault Refusal := s.onPowered fun h => h.refReturn ms.toNat

/-- A write of `GLB_CLK_CTL`; with `RETURN_NOW` set it returns the PLL to a healthy `REFCLK`, or is refused (R470). -/
def Hub.clkCtlWrite (h : Hub) (w : Word) : Hub :=
  let h := h.regWrite Reg.GLB_CLK_CTL w false id
  let h := h.holdFld Reg.GLB_CLK_CTL F.GLB_CLK_CTL_REF_TOL_PPM 50 1000
  let h := h.holdFld Reg.GLB_CLK_CTL F.GLB_CLK_CTL_RETURN_S 1 255
  if bits w F.GLB_CLK_CTL_RETURN_NOW = 0 then h
  else if h.glb.refOk = false ∨ h.flag Reg.GLB_CLK_CTL F.GLB_CLK_CTL_AUTO_RETURN = true then h.glbEvt F.GLB_EVT_WRITE_REFUSED
  else if h.glb.src = 0 then h
  else h.refBack

def execReturnNow (w : Word) (s : State) : Host.Outcome State Fault Refusal := s.on fun h => h.clkCtlWrite w

/-! ## What the resets keep (R472, R473) -/

/-- Settings of the time bases that a warm reset keeps: offsets 0x00 to 0x0C of each base (R333). -/
def timeKept (a : Nat) : Bool := decide (0x8100 ≤ a) && decide (a < 0x8200) && decide ((a - 0x8100) % 0x40 < 0x10)

/-- The MSI-X table, kept while the PCIe link is up. -/
def msixPage (a : Nat) : Bool := decide (0x6000 ≤ a) && decide (a < 0x6200)

/-- Register words that a warm reset keeps. -/
def Hub.warmKeeps (h : Hub) (a : Nat) : Bool :=
  netPage a || timeKept a || (h.host.pcieUp && msixPage a) || a == Reg.GLB_STRAPS || a == Reg.GLB_RESET_CAUSE || a == Reg.GLB_CNT_WARM

/-- A base across a warm reset (R333). -/
def Hub.warmBase (h : Hub) (b : Nat) : TimeBase :=
  let t := h.tb b
  { ns := t.ns, sub := t.sub, lastIn := h.now, servo := if t.servo = .unset then .unset else if h.tbSrc b = 0 then .free else .acquiring }

/-- A staging session that a reset has ended (R494). -/
def Hub.stageCut (h : Hub) (was : Option Stage) : Hub := if was.isSome then h.glbEvt F.GLB_EVT_STAGED else h

/-- The levels outside the hub, which no reset touches: lane pins, measured bank supplies (DEDUCED from R516), upstream VBUS,
`SVC_WP`. -/
def Hub.outside (h : Hub) (new : Hub) : Hub :=
  let new := new.each 8 fun new k =>
    new.setFld (Reg.LANE_BANK k) F.LANE_BANK_VIO_MEAS (h.fld (Reg.LANE_BANK k) F.LANE_BANK_VIO_MEAS)
  { new with now := h.now, freeCtr := h.freeCtr, out := h.out,
             ln := { new.ln with pin := h.ln.pin, pinAt := h.ln.pinAt },
             usb := { new.usb with vbus := h.usb.vbus },
             glb := { new.glb with svcWp := h.glb.svcWp },
             host := { new.host with perst := h.host.perst } }

/-- Order of the sources in R472's table. -/
def causeRank (c : Nat) : Nat := [0, 1, 2, 4, 8, 7, 6, 3, 5].idxOf c

/-- A cold reset begins (R473, R434, R518): the Net die keeps its channels while its copy of `NET_HOLD` is 1. -/
def Hub.startCold (h : Hub) (cause : Nat) : Hub :=
  let prior := h.fld Reg.GLB_RESET_CAUSE F.GLB_RESET_CAUSE_CAUSE
  let c := if h.glb.inCold = true ∧ causeRank prior < causeRank cause then prior else cause
  let kept := if h.net.hold then h else h.netReset
  let new : Hub := h.outside { regs := kept.regs.filter fun r => netPage r.1, net := kept.net }
  ((new.setFld Reg.GLB_RESET_CAUSE F.GLB_RESET_CAUSE_CAUSE c).stageCut h.glb.stage).note true true

/-- The live PCIe link and its configuration space across a warm reset (R473, R535). -/
def HostBlk.warm (x : HostBlk) : HostBlk :=
  if x.pcieUp then { pcieUp := true, pcieGen := x.pcieGen, pcieWidth := x.pcieWidth, vendor := x.vendor, subVendor := x.subVendor,
                     subId := x.subId } else {}

/-- A warm reset begins for a cause of R472. -/
def Hub.startWarm (h : Hub) (cause : Nat) : Hub :=
  let bases := (List.range 4).foldl (fun t b => tset ({} : TimeBase) t b (h.warmBase b)) ([] : Table TimeBase)
  let new : Hub :=
    h.outside { regs := h.regs.filter fun r => h.warmKeeps r.1, net := h.net, tim := { base := bases },
                host := h.host.warm,
                glb := { inCold := false, pllLock := h.glb.pllLock, src := h.glb.src, refOk := h.glb.refOk } }
  let run := h.fld Reg.GLB_RESET_CAUSE F.GLB_RESET_CAUSE_WD_RUN
  let near := cause == 6 && h.ready && decide (h.now ≤ h.glb.readyAt + 10 * tuS)
  let new := new.wr Reg.GLB_RESET_CAUSE (word (cause + 16 + (if near then min 3 (run + 1) else run) * 32))
  (new.count Reg.GLB_CNT_WARM).stageCut h.glb.stage

/-! ## The image (R477 to R483) -/

/-- A byte of the flash; an erased byte reads 0xFF. -/
def NonVol.bytes (nv : NonVol) (a n : Nat) : List Byte := mread 0xFF nv.flash a n

def slotBase (slot : Nat) : Nat := if slot = 0 then 0x100000 else 0x900000
def NonVol.manifest (nv : NonVol) (slot : Nat) : List Byte := nv.bytes (slotBase slot) 4096

def imgSeq (m : List Byte) : Nat := beAt m 8 4
def imgLen (m : List Byte) : Nat := beAt m 12 4

/-- The section table: number, type, reserved half-word, offset, length (R480). -/
def imgSections (m : List Byte) : List (Nat × Nat × Nat × Nat × Nat) :=
  (List.range (min 64 (beAt m 6 2))).map fun i =>
    (i, beAt m (88 + 16 * i) 2, beAt m (90 + 16 * i) 2, beAt m (92 + 16 * i) 4, beAt m (96 + 16 * i) 4)

/-- Check 4 of R481, by R479 and R480. -/
def imgFormatOk (stepping : Nat) (m : List Byte) : Bool :=
  let secs := imgSections m
  decide ((beAt m 84 1) ≤ stepping) && decide (imgLen m % 4 = 0) && decide (imgLen m ≤ 8384512) &&
    decide (1 ≤ beAt m 6 2) && decide (beAt m 6 2 ≤ 64) &&
    (secs.all fun (_, t, z, o, n) => decide (1 ≤ t) && decide (t ≤ 3) && z == 0 && decide (o + n ≤ imgLen m)) &&
    (secs.filter fun (_, t, _, _, _) => t == 1).length == 1 &&
    (secs.all fun (_, t, _, _, n) => t != 1 || decide (n ≤ 448 * 1024)) &&
    (secs.any fun (_, t, _, _, _) => t == 2) &&
    (slice m (88 + 16 * beAt m 6 2) (1112 - (88 + 16 * beAt m 6 2))).all (· == 0)

/-- The result of a slot: the first check of R481 that fails, or 0. -/
def slotResult (nv : NonVol) (stepping slot : Nat) : Nat :=
  let m := nv.manifest slot
  let pay := fun _ : Unit => nv.bytes (slotBase slot + 4096) (imgLen m)
  let pub := slice m 4000 32
  if beAt m 0 4 ≠ 0x4E48494D ∨ beAt m 4 2 ≠ 1 then 1
  else if (match nv.fuse with
      | some k => decide ((sha512 pub).take 32 ≠ k)
      | none => false) = true then 2
  else if edVerify pub (m.take 4000 ++ pub) (slice m 4032 64) = false then 3
  else if imgFormatOk stepping m = false then 4
  else if crc poly0 (pay ()) ≠ beAt m 16 4 then 5
  else if sha512 (pay ()) ≠ slice m 20 64 then 6
  else 0

/-- The setup-script sections of a slot, in table order: number, flash address, length. -/
def slotScripts (nv : NonVol) (slot : Nat) : List (Nat × Nat × Nat) :=
  ((imgSections (nv.manifest slot)).filter fun (_, t, _, _, _) => t == 2).map fun (i, _, _, o, n) => (i, slotBase slot + 4096 + o, n)

/-- CRC-32 of the image in a slot (R359). -/
def slotCrc (nv : NonVol) (slot : Nat) : Nat := crc poly0 (nv.bytes (slotBase slot) (4096 + imgLen (nv.manifest slot)))

/-- The identity block is valid (R478). -/
def identOk (b : List Byte) : Bool := beAt b 0 4 == 0x4E484944 && beAt b 252 4 == crc poly0 (b.take 252)

/-! ## The boot (R481 to R487) -/

/-- The key hash and its lock as the registers show them (R483, R495). -/
def Hub.readFuses (h : Hub) (nv : NonVol) : Hub :=
  match nv.fuse with
  | some k =>
    ((List.range 8).foldl (fun h i => h.wr (Reg.GLB_KEY_HASH i) (word (beAt k (4 * i) 4))) h).setFld
      Reg.GLB_KEY_LOCKED F.GLB_KEY_LOCKED_KEY_LOCKED 1
  | none => h

/-- Boot step 2 (R484): fuses and identity block. -/
def Hub.bootIdent (h : Hub) (nv : NonVol) : Hub :=
  let h := h.readFuses nv
  let h := h.setFld Reg.GLB_BOOT F.GLB_BOOT_UNSECURED (bitB nv.fuse.isNone)
  let b := nv.bytes 0 256
  if identOk b then
    let mac := beAt b 10 6
    let h := (h.wr Reg.RING_MAC_LO (word mac)).wr Reg.RING_MAC_HI (word (mac / 2 ^ 32))
    let h := h.setGlb { h.glb with flashOp := beAt b 16 1, flashDummy := beAt b 17 1, flashDiv := beAt b 18 1 }
    if h.host.pcieUp then h
    else { h with host := { h.host with vendor := beAt b 4 2, subVendor := beAt b 6 2, subId := beAt b 8 2 } }
  else h.setFld Reg.GLB_BOOT F.GLB_BOOT_IDENT_BAD 1

/-- `SEQ` as the registers show it: 0 where `MAGIC` is wrong (R495). -/
def shownSeq (nv : NonVol) (slot : Nat) : Nat :=
  let m := nv.manifest slot
  if beAt m 0 4 = 0x4E48494D then imgSeq m else 0

/-- The slots to try, in order, and whether the watchdog's exception of R482 made the order. -/
def Hub.bootOrder (h : Hub) (nv : NonVol) : List Nat × Bool :=
  match h.fld Reg.GLB_STRAPS F.GLB_STRAPS_BOOT_MODE with
  | 0 =>
    let first := if shownSeq nv 0 < shownSeq nv 1 then 1 else 0
    if h.fld Reg.GLB_RESET_CAUSE F.GLB_RESET_CAUSE_WD_RUN = 3 then ([1 - first, first], true) else ([first, 1 - first], false)
  | 1 => ([], false)
  | 2 => ([0], false)
  | _ => ([1], false)

/-- Judge the slots in order up to the first valid one: the results, and the slot booted. -/
def trySlots (nv : NonVol) (stepping : Nat) : List Nat → List (Nat × Nat) × Option Nat
  | [] => ([], none)
  | x :: xs =>
    let r := slotResult nv stepping x
    if r = 0 then ([(x, 0)], some x)
    else
      let t := trySlots nv stepping xs
      ((x, r) :: t.1, t.2)

/-- `READY` (R484). -/
def Hub.setReady (h : Hub) : Hub := (h.setFld Reg.GLB_BOOT F.GLB_BOOT_READY 1).setGlb { h.glb with readyAt := h.now, script := none }

/-- Role and ring identity that the straps give from a reset on (R358, R318, R506). -/
def Hub.bootStraps (h : Hub) : Hub :=
  let h := { h with ring := { h.ring with addr := h.strapAddr, strapped := decide (h.strapAddr ≠ 0) } }
  let p : HbPath := { at_ := h.now }
  { h with twin := { h.twin with role := if h.twinEn then .joining else .solo, joinAt := h.now, ser := p, lvds := p, scrubAt := h.now } }

/-- `SLOT_CHECK`, `BOOT_FALLBACK` and `RECOVERY_ENTRY` (R481, R482, R487), and the start of the setup scripts (R486). -/
def Hub.bootSlots (h : Hub) (nv : NonVol) : Hub :=
  let (order, watchdog) := h.bootOrder nv
  let (results, chosen) := trySlots nv (h.fld Reg.GLB_ID F.GLB_ID_STEPPING) order
  let h := (h.wr Reg.GLB_SEQ_A (word (shownSeq nv 0))).wr Reg.GLB_SEQ_B (word (shownSeq nv 1))
  let res := fun s => if order.contains s then tget 0 results s else 0xF
  let h := (h.setFld Reg.GLB_BOOT F.GLB_BOOT_RESULT_A (res 0)).setFld Reg.GLB_BOOT F.GLB_BOOT_RESULT_B (res 1)
  match chosen with
  | some s =>
    let h := h.setFld Reg.GLB_BOOT F.GLB_BOOT_BOOT_SLOT s
    let h := if results.length = 2 then (h.setFld Reg.GLB_BOOT F.GLB_BOOT_FALLBACK_WHY 1).glbEvt F.GLB_EVT_FALLBACK else h
    let h := if watchdog then h.setFld Reg.GLB_BOOT F.GLB_BOOT_FALLBACK_WHY 2 else h
    let h := if results.length = 2 ∨ watchdog = true then h.setFld Reg.GLB_BOOT F.GLB_BOOT_FALLBACK 1 else h
    let sc : Script := { secs := slotScripts nv s, off := 0, rec_ := 0, wait := none, cmdAt := none }
    let h := h.setGlb { h.glb with booted := some s, script := some sc }
    { h with twin := { h.twin with image := slotCrc nv s } }
  | none => (h.setFld Reg.GLB_BOOT F.GLB_BOOT_RECOVERY 1).setReady

/-- The boot (R484), from the end of a cold reset or the start of a warm one. -/
def Hub.boot (h : Hub) (nv : NonVol) : Hub := ((h.bootStraps.bootIdent nv).bootSlots nv).note true true

/-! ## The reset rows -/

def execPowerFail (s : State) : Host.Outcome State Fault Refusal := s.onAny fun h => h.startCold 0
def execRstNLow (s : State) : Host.Outcome State Fault Refusal := s.onAny fun h => h.startCold 1

/-- `COLD_RESET_END` (R467, R474, R484): the straps as their balls stand, `AL1` in bit 0. -/
def Hub.coldEnd (h : Hub) (nv : NonVol) (straps : Half) : Hub :=
  if h.glb.inCold = false then h else
  let h := h.setGlb { h.glb with inCold := false, pllLock := true, refOk := true }
  let h := h.wr Reg.GLB_STRAPS (word straps.toNat)
  let h := { h with net := { h.net with hold := h.flag Reg.GLB_STRAPS F.GLB_STRAPS_NET_HOLD, linkOk := !h.net.silent && !h.net.locked } }
  h.boot nv

def execColdResetEnd (straps : Half) (s : State) : Host.Outcome State Fault Refusal := s.onAny fun h => h.coldEnd s.nv straps

/-- A source of a warm reset occurs (R472). -/
def Hub.askWarm (h : Hub) (cause : Nat) : Hub :=
  if h.glb.inCold then h else h.setGlb { h.glb with sources := cause :: h.glb.sources }

/-- The warm reset for the sources that have occurred: its cause is the one that stands first in R472's table. -/
def Hub.warmDue (h : Hub) (nv : NonVol) : Hub :=
  match [8, 7, 6, 3, 5].find? h.glb.sources.contains with
  | some c => (h.startWarm c).boot nv
  | none => h

def execWarmReset (s : State) : Host.Outcome State Fault Refusal := s.on fun h => h.warmDue s.nv
def execWatchdogExpiry (s : State) : Host.Outcome State Fault Refusal := s.on fun h => h.askWarm 6

/-- `NODE_RESET_FIRE` (R465): 1 ms after its response, `NODE_RESET` makes the reset. -/
def Hub.nodeResetFire (h : Hub) : Hub :=
  match h.host.resetDue with
  | some (cold, t) =>
    if t ≤ h.now then
      let h := { h with host := { h.host with resetDue := none } }
      if cold then h.startCold 2 else h.askWarm 3
    else h
  | none => h

def execNodeResetFire (s : State) : Host.Outcome State Fault Refusal := s.on Hub.nodeResetFire

/-- `PLL_RELOCK_END` (R471): the PLL has stayed locked for 1 ms. -/
def Hub.pllRelock (h : Hub) (nv : NonVol) : Hub :=
  if h.glb.pllHold then (h.setGlb { h.glb with pllHold := false, pllLock := true }).boot nv else h

def execPllRelockEnd (s : State) : Host.Outcome State Fault Refusal := s.onAny fun h => h.pllRelock s.nv

/-- `WD_RUN_CLEAR` (R482). -/
def Hub.wdRunClear (h : Hub) : Hub :=
  if h.ready = true ∧ h.glb.readyAt + 10 * tuS ≤ h.now then h.setFld Reg.GLB_RESET_CAUSE F.GLB_RESET_CAUSE_WD_RUN 0 else h

def execWdRunClear (s : State) : Host.Outcome State Fault Refusal := s.on Hub.wdRunClear

end Sys2Proof.Machine
end

