-- ==== Sys2Proof/Machine/Svc.lean ====
section
/-! DEFINITION. The service port and the staging of an image (R488 to R494). -/

namespace Sys2Proof.Machine

/-- A service frame (R489). -/
def svcFrame (typ seq : Nat) (pay : List Byte) : List Byte :=
  let body := beBytes 2 pay.length ++ [byte typ, byte seq] ++ pay
  [0xA5, 0x5A] ++ body ++ beBytes 4 (crc poly0 body)

def NonVol.writeFlash (nv : NonVol) (a : Nat) (bs : List Byte) : NonVol := { nv with flash := mwrite 0xFF nv.flash a bs }

/-- Erase the flash bytes from an address on. -/
def NonVol.erase (nv : NonVol) (a n : Nat) : NonVol :=
  { nv with flash := nv.flash.filter fun c => !(decide (a ≤ c.1) && decide (c.1 < a + n)) }

/-- What a service request comes to: the hub and its non-volatile memories, status, and the rest of the response payload. -/
structure SvcAck where
  hub : Hub
  nv : NonVol
  status : Nat
  rest : List Byte := []

/-- A good request arrives (R490): one that repeats the sequence and type of the previous request is answered as before; any other is
executed and answered. A hub held in reset does not hear it. -/
def State.serve (s : State) (typ seq : Nat) (run : Hub → NonVol → SvcAck) : State :=
  if s.hub.held then s else
  let h := s.hub.setGlb { s.hub.glb with svcGood := s.hub.now }
  let again := h.glb.svcPrev.filter fun p => p.1 == typ && p.2.1 == seq
  match again with
  | some p => { s with hub := h.emit (.bytes p.2.2) }
  | none =>
    let a := run h s.nv
    let rsp := svcFrame (typ + 0x80) seq (byte a.status :: a.rest)
    { s with hub := (a.hub.setGlb { a.hub.glb with svcPrev := some (typ, seq, rsp) }).emit (.bytes rsp), nv := a.nv }

/-- A refused request has no effect. -/
def svcRefuse (h : Hub) (nv : NonVol) (status : Nat) : SvcAck := { hub := h, nv := nv, status := status }

/-- The filtered level of `SVC_WP` as a request finds it. -/
def Hub.setWp (h : Hub) (wp : Bool) : Hub := h.setGlb { h.glb with svcWp := wp }

/-- The end of a staging session (R493, R494): closed with `OK`, or not. -/
def Hub.stageEnd (h : Hub) (good : Bool) : Hub :=
  let h := h.setGlb { h.glb with stage := none }
  let h := h.setFld Reg.GLB_BOOT F.GLB_BOOT_STAGE_OK (bitB good)
  (h.glbEvt F.GLB_EVT_STAGED).evt Reg.HOST_EVT F.HOST_EVT_MAINT_DONE

/-- The filtered level of `SVC_WP` is down: a session ends (R494). -/
def Hub.wpDown (h : Hub) : Hub :=
  let h := h.setWp false
  if h.glb.stage.isSome then h.stageEnd false else h

/-- A request marked "Yes" (R490). -/
def needsWp (wp : Bool) (run : Hub → NonVol → SvcAck) (h : Hub) (nv : NonVol) : SvcAck :=
  if wp then run (h.setWp true) nv else svcRefuse h.wpDown nv sEDENIED

/-- A `GLB` register's value in network byte order. -/
def regBytes (w : Word) : List Byte := beBytes 4 w.toNat

/-- A staging request restarts the session's 60 s. -/
def Hub.stageTouch (h : Hub) : Hub :=
  match h.glb.stage with
  | some g => h.setGlb { h.glb with stage := some { g with at_ := h.now } }
  | none => h

def svcHello (h : Hub) (nv : NonVol) : SvcAck :=
  { hub := h, nv := nv, status := sOK,
    rest := byte 1 :: (regBytes (h.rd Reg.GLB_ID) ++ regBytes (h.rd Reg.GLB_BOOT) ++ regBytes (h.rd Reg.GLB_SEQ_A) ++ regBytes (h.rd Reg.GLB_SEQ_B)) }

def svcBaud (div : Nat) (h : Hub) (nv : NonVol) : SvcAck :=
  if div < 200 ∨ 250000 < div then svcRefuse h nv sEARG
  else { hub := h.setGlb { h.glb with svcDiv := div }, nv := nv, status := sOK }

/-- Bytes of the flash (R476). -/
def flashSize : Nat := 2 ^ 25 + Config.flashExtra

def svcRead (addr len : Nat) (h : Hub) (nv : NonVol) : SvcAck :=
  if len = 0 ∨ 4096 < len ∨ flashSize < addr + len then svcRefuse h nv sEARG
  else { hub := h, nv := nv, status := sOK, rest := nv.bytes addr len }

def svcStageOpen (sel len : Nat) (h : Hub) (nv : NonVol) : SvcAck :=
  let slot := match sel with
    | 0 => (match h.glb.booted with
      | some b => 1 - b
      | none => 1)
    | k => k - 1
  if 2 < sel ∨ len < 4096 ∨ 0x800000 < len then svcRefuse h nv sEARG
  else if h.glb.stage.isSome ∨ h.glb.booted = some slot then svcRefuse h nv sESTATE
  else
    { hub := h.setGlb { h.glb with stage := some { slot := slot, len := len, written := 0, manifest := [], at_ := h.now } },
      nv := nv.erase (slotBase slot) 0x10000, status := sOK, rest := [byte (slot + 1)] }

/-- Bytes that a flash operation has left undetermined. -/
def Hub.freeBytes (h : Hub) (n : Nat) : List Byte := (List.range n).map fun i => byte (Config.freeWord (h.freeCtr + i)).toNat

/-- `SVC_STAGE_WRITE` (R492): the flash's part ended well, with a read-back that differs, or not within 3 s. -/
def svcStageWrite (off : Nat) (bs : List Byte) (out : FlashEnd) (h : Hub) (nv : NonVol) : SvcAck :=
  match h.glb.stage with
  | none => svcRefuse h nv sESTATE
  | some g =>
    let h := h.stageTouch
    let good := off == g.written && decide (off + bs.length ≤ g.len) && decide (1 ≤ bs.length) &&
      (bs.length == 4096 || (decide (bs.length < 4096) && off + bs.length == g.len))
    if good = false then svcRefuse h nv sEARG
    else if off = 0 then
      { hub := h.setGlb { h.glb with stage := some { g with written := bs.length, manifest := bs, at_ := h.now } }, nv := nv, status := sOK }
    else
      let a := slotBase g.slot + off
      let nv := if off % 0x10000 = 0 then nv.erase a 0x10000 else nv
      match out with
      | .ok =>
        { hub := h.setGlb { h.glb with stage := some { g with written := off + bs.length, at_ := h.now } },
          nv := nv.writeFlash a bs, status := sOK }
      | .differs =>
        { hub := { h with freeCtr := h.freeCtr + bs.length }, nv := nv.writeFlash a (h.freeBytes bs.length), status := sENORES }
      | .timeout =>
        { hub := { h with freeCtr := h.freeCtr + bs.length }, nv := nv.writeFlash a (h.freeBytes bs.length), status := sETIMEOUT }

/-- `SVC_STAGE_CLOSE` (R493). -/
def svcStageClose (h : Hub) (nv : NonVol) : SvcAck :=
  match h.glb.stage with
  | none => svcRefuse h nv sESTATE
  | some g =>
    if g.written ≠ g.len then svcRefuse h.stageTouch nv sESTATE else
    let nv := nv.writeFlash (slotBase g.slot) g.manifest
    { hub := h.stageEnd true, nv := nv, status := sOK,
      rest := beBytes 4 (crc poly0 (nv.bytes (slotBase g.slot) g.len)) ++ beBytes 4 (imgSeq (nv.manifest g.slot)) }

def svcStageAbort (h : Hub) (nv : NonVol) : SvcAck :=
  if h.glb.stage.isSome then { hub := h.stageEnd false, nv := nv, status := sOK } else svcRefuse h nv sESTATE

/-- `SVC_IDENT_WRITE` (R490). -/
def svcIdentWrite (bs : List Byte) (h : Hub) (nv : NonVol) : SvcAck :=
  if bs.length ≠ 256 ∨ identOk bs = false then svcRefuse h nv sEARG
  else if h.glb.stage.isSome then svcRefuse h nv sESTATE
  else { hub := h, nv := (nv.erase 0 0x10000).writeFlash 0 bs, status := sOK }

/-- `SVC_FUSE_KEY` (R483). -/
def svcFuseKey (key : List Byte) (h : Hub) (nv : NonVol) : SvcAck :=
  if nv.fuse.isSome then svcRefuse h nv sEDENIED
  else if key.length ≠ 32 then svcRefuse h nv sEARG
  else
    let nv := { nv with fuse := some key }
    { hub := h.readFuses nv, nv := nv, status := sOK }

def svcStatus (h : Hub) (nv : NonVol) : SvcAck :=
  { hub := h, nv := nv, status := sOK,
    rest := regBytes (h.rd Reg.GLB_RESET_CAUSE) ++ regBytes h.clkStat ++ regBytes (h.rd Reg.TWIN_HEALTH_HI) ++ regBytes (h.rd Reg.TWIN_HEALTH_LO) }

/-- `SVC_RESET` (R490): answers, and makes the reset 1 ms later. -/
def svcReset (kind : Nat) (h : Hub) (nv : NonVol) : SvcAck :=
  if kind = 1 ∨ kind = 2 then { hub := h.setGlb { h.glb with svcReset := some (kind == 2, h.now + tuMs) }, nv := nv, status := sOK }
  else svcRefuse h nv sEARG

def execSvcHello (seq : Byte) (s : State) : Host.Outcome State Fault Refusal := .next (s.serve 0x01 seq.toNat svcHello)
def execSvcBaud (seq : Byte) (div : Word) (s : State) : Host.Outcome State Fault Refusal := .next (s.serve 0x02 seq.toNat (svcBaud div.toNat))
def execSvcRead (seq : Byte) (addr : Word) (len : Half) (s : State) : Host.Outcome State Fault Refusal :=
  .next (s.serve 0x03 seq.toNat (svcRead addr.toNat len.toNat))
def execSvcStageOpen (seq : Byte) (wp : Bool) (sel : Byte) (len : Word) (s : State) : Host.Outcome State Fault Refusal :=
  .next (s.serve 0x04 seq.toNat (needsWp wp (svcStageOpen sel.toNat len.toNat)))
def execSvcStageWrite (seq : Byte) (wp : Bool) (off : Word) (bs : List Byte) (out : FlashEnd) (s : State) : Host.Outcome State Fault Refusal :=
  .next (s.serve 0x05 seq.toNat (needsWp wp (svcStageWrite off.toNat bs out)))
def execSvcStageClose (seq : Byte) (wp : Bool) (s : State) : Host.Outcome State Fault Refusal :=
  .next (s.serve 0x06 seq.toNat (needsWp wp svcStageClose))
def execSvcStageAbort (seq : Byte) (s : State) : Host.Outcome State Fault Refusal := .next (s.serve 0x07 seq.toNat svcStageAbort)
def execSvcIdentWrite (seq : Byte) (wp : Bool) (bs : List Byte) (s : State) : Host.Outcome State Fault Refusal :=
  .next (s.serve 0x08 seq.toNat (needsWp wp (svcIdentWrite bs)))
def execSvcFuseKey (seq : Byte) (wp : Bool) (key : List Byte) (s : State) : Host.Outcome State Fault Refusal :=
  .next (s.serve 0x09 seq.toNat (needsWp wp (svcFuseKey key)))
def execSvcStatus (seq : Byte) (s : State) : Host.Outcome State Fault Refusal := .next (s.serve 0x0A seq.toNat svcStatus)
def execSvcReset (seq : Byte) (kind : Byte) (s : State) : Host.Outcome State Fault Refusal := .next (s.serve 0x0B seq.toNat (svcReset kind.toNat))

/-- `SVC_RESET_FIRE` (R472, R490). -/
def Hub.svcResetFire (h : Hub) : Hub :=
  match h.glb.svcReset with
  | some (cold, t) =>
    if t ≤ h.now then
      let h := h.setGlb { h.glb with svcReset := none }
      if cold then h.startCold 4 else h.askWarm 5
    else h
  | none => h

def execSvcResetFire (s : State) : Host.Outcome State Fault Refusal := s.on Hub.svcResetFire

/-- A frame as its bytes from `LEN` on arrive: its type, sequence and payload, where length and CRC are good (R489, R490). -/
def svcParse (bs : List Byte) : Option (Nat × Nat × List Byte) :=
  let len := beAt bs 0 2
  if 4100 < len ∨ bs.length ≠ len + 8 ∨ crc poly0 (bs.take (len + 4)) ≠ beAt bs (len + 4) 4 then none
  else some (beAt bs 2 1, beAt bs 3 1, slice bs 4 len)

/-- `SVC_BAD_FRAME` (R490): a frame, from its `LEN` on, that no other row covers: one with a bad CRC or length is discarded without an
answer; one of a type that the hub does not define is answered `ENOTSUP`. -/
def State.svcOther (s : State) (bs : List Byte) : State :=
  match svcParse bs with
  | some (t, q, _) => if t = 0 ∨ 0x0B < t then s.serve t q fun h nv => svcRefuse h nv sENOTSUP else s
  | none => s

def execSvcBadFrame (bs : List Byte) (s : State) : Host.Outcome State Fault Refusal := .next (s.svcOther bs)

/-- `SVC_FRAME_TIMEOUT` (R490): the bytes of the frame so far are discarded, and with them every trace of it. -/
def execSvcFrameTimeout (s : State) : Host.Outcome State Fault Refusal := .next s

/-- `SVC_BAUD_REVERT` (R490). -/
def Hub.baudRevert (h : Hub) : Hub :=
  if h.glb.svcGood + 5 * tuS ≤ h.now then h.setGlb { h.glb with svcDiv := 2604 } else h

def execSvcBaudRevert (s : State) : Host.Outcome State Fault Refusal := s.on Hub.baudRevert

/-- `SVC_WP_DEASSERT` (R494). -/
def execSvcWpDeassert (s : State) : Host.Outcome State Fault Refusal := s.on Hub.wpDown

/-- `STAGE_IDLE_TIMEOUT` (R494). -/
def Hub.stageIdle (h : Hub) : Hub :=
  match h.glb.stage with
  | some g => if g.at_ + 60 * tuS ≤ h.now then h.stageEnd false else h
  | none => h

def execStageIdleTimeout (s : State) : Host.Outcome State Fault Refusal := s.on Hub.stageIdle

end Sys2Proof.Machine
end

