-- ==== Sys2Proof/Machine/Twin.lean ====
section
/-! DEFINITION. Twin hubs (chapter 13): roles, heartbeats, failure and takeover, switch and revert, the health word, the scrubber, and
the twin commands. -/

namespace Sys2Proof.Machine

def Hub.setTwin (h : Hub) (t : TwinBlk) : Hub := { h with twin := t }
def Hub.twinEvt (h : Hub) (f : Nat × Nat) : Hub := h.evt Reg.TWIN_EVT f

/-- Role codes of the heartbeat word (R361). -/
def Role.code : Role → Nat
  | .solo => 0 | .joining => 1 | .syncing => 2 | .standby => 3 | .active => 4

/-- Every change of role is flagged (R365). -/
def Hub.setRole (h : Hub) (r : Role) : Hub :=
  if h.twin.role = r then h else (h.setTwin { h.twin with role := r }).twinEvt F.TWIN_EVT_ROLE_CHANGE

def Hub.ownPref (h : Hub) : Bool := h.flag Reg.GLB_STRAPS F.GLB_STRAPS_TWIN_PREF

/-- The hub counts as preferred: by its strap, or by the lower `RING_MAC` where both straps are alike (R358). -/
def Hub.preferred (h : Hub) : Bool :=
  match h.twin.peerMac with
  | some m => if h.twin.peerPref = h.ownPref then decide (h.ringMac < m) else h.ownPref
  | none => h.ownPref

/-! ## Health (R384, R385) -/

/-- A health bit occurs; it shows in the next word. -/
def Hub.noteBit (h : Hub) (n : Nat) : Hub := h.setTwin { h.twin with since := Nat.lor h.twin.since (2 ^ n) }

/-- Context 252 has found its ALU signature (bit 0) or memory signature (bit 1) wrong since the last word (R179). -/
def Hub.noteSig (h : Hub) (sig : Nat) : Hub := (h.when (testBit sig 0) fun h => h.noteBit 0).when (testBit sig 1) fun h => h.noteBit 1

/-- `SIG_ALU`, `SIG_MEM`, `ECC_UNCORR` and `PLL_UNLOCK` are fatal (R363). -/
def fatalBits : Nat := 1 + 2 + 4 + 32

/-- A fatal bit is set, in the word last published or since. -/
def Hub.hasFatal (h : Hub) : Bool := Nat.land (Nat.lor h.twin.since (h.rd Reg.TWIN_HEALTH_LO).toNat) fatalBits != 0

/-- The hub sends `FAIL` (R363, R487). -/
def Hub.failing (h : Hub) : Bool := h.hasFatal || h.flag Reg.GLB_BOOT F.GLB_BOOT_RECOVERY

def HbPath.ok (p : HbPath) : Bool := p.live && !p.silent
def Hub.peerPresent (h : Hub) : Bool := h.twin.ser.ok || h.twin.lvds.ok

/-- A path is silent (R362). -/
def Hub.degraded (h : Hub) : Bool := h.twin.role != .solo && (h.twin.ser.silent || h.twin.lvds.silent)

/-- The health word at a base edge, with the die temperature in 0.1 °C (R385). -/
def Hub.healthWord (h : Hub) (temp : Int) : Nat :=
  let t := h.twin
  let tw := t.role != .solo
  t.since + bitB t.scrubLate * 2 ^ 4 + bitB (h.glb.src != 0) * 2 ^ 6 + bitB (decide (1100 < temp)) * 2 ^ 7 +
    bitB h.net.silent * 2 ^ 8 + bitB (tw && t.ser.silent) * 2 ^ 9 + bitB (tw && t.lvds.silent) * 2 ^ 10 +
    bitB (tw && (t.peerDead || !h.peerPresent)) * 2 ^ 11 + bitB (tw && t.peerFail) * 2 ^ 12 + bitB t.notInStep * 2 ^ 13 +
    bitB t.dual * 2 ^ 18 + bitB t.imgMis * 2 ^ 19 + t.scrubs % 256 * 2 ^ 24 + min 65535 t.eccCorr * 2 ^ 32 + t.digestRun % 4 * 2 ^ 48

/-- `TWIN_STATE` (R386). -/
def Hub.twinHouse (h : Hub) : Word :=
  let t := h.twin
  word (t.role.code + bitB h.preferred * 8 + bitB h.peerPresent * 16 + bitB h.degraded * 32 + bitB t.notInStep * 64 +
    bitB t.revertPend.isSome * 128 + (h.rd Reg.TWIN_CNT_TAKEOVER).toNat % 256 * 2 ^ 8 + min 255 (t.lag / 100) * 2 ^ 16)

/-- `TWIN_STAT` (R388). -/
def Hub.twinStat (h : Hub) : Word :=
  let t := h.twin
  word (t.role.code + bitB h.preferred * 8 + bitB h.peerPresent * 16 + bitB t.ser.ok * 32 + bitB t.lvds.ok * 64 + bitB h.degraded * 128 +
    bitB t.notInStep * 256 + bitB t.revertPend.isSome * 512 + t.digestRun % 4 * 1024)

/-! ## Drivers and rewind (R377, R378, R383) -/

/-- The drivers are enabled at the levels the hub has computed. -/
def Hub.driveAll (h : Hub) : Hub :=
  let h := (List.range 8).foldl (fun h k =>
    if bankBits h.fret.dir k = 0 then h else h.drive (.pins k (bankBits h.fret.lvl k) (bankBits h.fret.dir k))) h
  let h := (List.range 96).foldl (fun h n =>
    let m := h.outMask n
    if m = 0 then h
    else h.drive (.line n (.dout m (Nat.land (h.fld (Reg.LN_DOUT n) F.LN_DOUT_LEVEL) m)))) h
  (List.range 16).foldl (fun h k => if h.ppoActive k then h.drive (.pulse k (h.ppoLevel k true)) else h) h

/-- Push an item of a source into its queue, by the source's own rules. -/
def Hub.pushSource (h : Hub) (key : Nat) (ws : List Word) : Hub :=
  let id := key % 256
  if key / 256 = jLane then ws.foldl (fun h w => h.rxqPush id true w) h
  else if key / 256 = jFret then ws.foldl (fun h w => h.frRxIn id w) h
  else if key / 256 = jCan then h.canRxIn id ws
  else h.evqIn (ws.getD 0 0) (ws.getD 1 0)

/-- `REWIND_INJECT` (R378): the items beyond the last journaled count of their source, journaled anew and pushed; what has left the
32 µs window is lost. -/
def Hub.rewindInject (h : Hub) : Hub :=
  let t := h.twin
  let items := t.rewind.filter fun r => decide (tget 0 t.jnled r.key < r.count) && decide (h.now ≤ r.at_ + 32 * tuUs)
  let lost := t.made.foldl (fun n (key, m) => n + (m - tget 0 t.jnled key - (items.filter fun r => r.key == key).length)) 0
  let h := items.foldl (fun h r =>
    let kind := r.key / 256
    (h.jnl kind ((if kind = jEvent then [] else [word (r.key % 256)]) ++ word r.count :: r.words)).pushSource r.key r.words) h
  let h := h.setTwin { h.twin with rewind := [], jnled := h.twin.made }
  if 0 < lost then (h.countN Reg.TWIN_CNT_REWIND_LOST lost).noteBit 15 else h

/-- A hub that followed takes its node's duties: jobs that were held are decided here, by their own deadlines. -/
def Hub.takeDuties (h : Hub) : Hub :=
  let h := h.setRole .active
  let next := match h.twin.jseqRx with
    | some q => (q + 1) % 65536
    | none => h.twin.jseq
  let h := h.setTwin { h.twin with named := [], awaited := [], snaps := [], jseq := next, revertReq := false, revertSince := none, halted := false, keep := [] }
  let held := h.liveCtx.filter fun c => (h.ctx c).held
  let h := { h with car := { h.car with jobOrder := [] } }
  let h := held.foldl (fun h c =>
    let x := h.ctx c
    let h := h.setCtx c { x with held := false }
    if x.page.deadline ≤ h.baseNs x.page.tb then h.lateAbort c else h.startCommit c) h
  h.driveAll.rewindInject

/-- `TAKEOVER` (R377): the journal received has been applied; drivers, rewind items, duties; servos go to `HOLDOVER`. -/
def Hub.takeover (h : Hub) : Hub :=
  let h := h.takeDuties.count Reg.TWIN_CNT_TAKEOVER
  (List.range 3).foldl (fun h b => if h.tbSrc b = 0 ∨ (h.tb b).servo = .unset then h else h.servoTo b .holdover) h

/-- The engines are restarted from the flash image (role table of chapter 13): lanes, Fret Engines, CAN controllers and Carousel
stand as after a reset, and the setup scripts are applied again. -/
def Hub.restartEngines (h : Hub) (nv : NonVol) : Hub :=
  let fresh := fun (a : Nat) => (decide (0x30000 ≤ a) && decide (a < 0x58000))
  let h := { h with regs := h.regs.filter fun r => !fresh r.1, car := {}, fret := {}, can := {},
                    ln := { pin := h.ln.pin, pinAt := h.ln.pinAt } }
  match h.glb.booted with
  | some s => h.setGlb { h.glb with script := some { secs := slotScripts nv s, off := 0, rec_ := 0, wait := none, cmdAt := none } }
  | none => h

/-- Enter `SYNCING`: a state transfer begins (R376). -/
def Hub.enterSync (h : Hub) : Hub :=
  let h := h.setRole .syncing
  h.setTwin { h.twin with syncAt := some h.now, syncTries := 0, jseqRx := none, rewind := [], named := [], awaited := [], snaps := [], halted := false, keep := [],
                          revertReq := false, revertSince := none, revertPend := none }

/-- The peer is declared failed (R362, R364, R377). A standby that fails itself does not take over (R363); an active hub that had
journaled `SWITCH` acts again. -/
def Hub.peerFailed (h : Hub) (nv : NonVol) : Hub :=
  if h.twin.peerDead then h else
  let h := h.setTwin { h.twin with peerDead := true, revertPend := none, revertReq := false, revertSince := none }
  match h.twin.role with
  | .standby => if h.failing then h else h.takeover
  | .syncing => ((h.setTwin { h.twin with syncAt := none }).setRole .active).restartEngines nv
  | .active => if h.twin.halted then (h.setTwin { h.twin with halted := false, fatal := false }).rewindInject else h
  | .joining | .solo => h

/-! ## Heartbeats (R361, R362) -/

/-- The heartbeat word, its CRC-8 over bits 23:0. -/
def hbSeal (w : Nat) : Word :=
  let w := w % 2 ^ 24
  word (w + crc poly6 (beBytes 3 w) * 2 ^ 24)

def Hub.hbWord (h : Hub) (role cnt : Nat) : Word :=
  let t := h.twin
  hbSeal (role + bitB h.failing * 8 + bitB h.ownPref * 16 + bitB t.notInStep * 32 + bitB t.revertReq * 64 + bitB t.revertPend.isSome * 128 +
    cnt % 256 * 2 ^ 8 + t.image % 256 * 2 ^ 16)

/-- `HEARTBEAT_TX` (R361). -/
def Hub.hbTx (h : Hub) : Hub :=
  if h.twin.role = .solo ∨ h.now < h.twin.hbAt + tuUs then h else
  let n := (h.twin.hb + 1) % 256
  (h.setTwin { h.twin with hb := n, hbAt := h.now }).emit
    (.heartbeat ((h.rport 3).link != .down) (h.hbWord h.twin.role.code n) (word h.twin.image) (h.twin.jseqRx.getD 0) h.twin.digestRun)

def execHeartbeatTx (s : State) : Host.Outcome State Fault Refusal := s.on Hub.hbTx

/-- A transmitter is in mid-frame (R383). -/
def Hub.midFrame (h : Hub) (key : Nat) : Bool :=
  let id := key % 256
  if key / 256 = jLane then (h.lane id).tx.on
  else if key / 256 = jFret then
    let e := h.eng id
    e.run && e.stall != 3 && (e.txc != 0 || !e.txq.items.isEmpty)
  else (h.can1 id).cur.isSome

/-- Every transmitter of the hub. -/
def allTransmitters : List Nat :=
  (List.range 96).map (srcKey jLane) ++ (List.range 32).map (srcKey jFret) ++ (List.range 16).map (srcKey jCan)

/-- `TAKE_HANDOVER` (R383): the old active releases its outputs to `SHADOW`, but for transmitters in mid-frame, and becomes the standby. -/
def Hub.takeHandover (h : Hub) : Hub :=
  if h.twin.role ≠ .active then h else
  let h := h.setRole .standby
  let h := h.setTwin { h.twin with takeAt := h.now, keep := allTransmitters.filter h.midFrame, halted := false, revertPend := none,
                                   jseqRx := none, fatal := false, fatalAt := if h.twin.fatal then some (h.now + tuMs) else none }
  let h := h.count Reg.TWIN_CNT_SWITCH
  match h.host.maint with
  | .drill _ ref => h.maintEnd.answer ref sOK []
  | _ => h

/-- What a valid heartbeat shows of the peer. -/
def Hub.hbPeer (h : Hub) (w : Nat) (mac img : Option Nat) : Hub :=
  let t := h.twin
  let role := if w % 8 = 7 then 4 else w % 8
  let h := h.setTwin { t with peerRole := role, peerFail := testBit w 3, peerPref := testBit w 4, peerNis := testBit w 5,
                              peerMac := mac.or t.peerMac, peerImg := img.or t.peerImg }
  let h := if testBit w 3 ∧ ¬ t.peerFail then h.twinEvt F.TWIN_EVT_PEER_FAIL else h
  let h := if testBit w 4 = h.ownPref then h.twinEvt F.TWIN_EVT_PREF_CLASH else h
  let bad := decide (w / 2 ^ 16 % 256 ≠ h.twin.image % 256) || (match h.twin.peerImg with
    | some i => decide (i ≠ h.twin.image)
    | none => false)
  let h := if bad then h.twinEvt F.TWIN_EVT_IMAGE_MISMATCH else h
  h.setTwin { h.twin with imgMis := bad, peerDead := h.twin.peerDead && testBit w 3 }

/-- `JOIN_ROLE_DECISION` (R358). -/
def Hub.joinDecide (h : Hub) : Hub :=
  if h.twin.role ≠ .joining ∨ h.twin.imgMis = true then h
  else if h.twin.peerRole = 4 then h.enterSync
  else if h.twin.peerRole = 1 then (if h.preferred then (h.setRole .active).driveAll else h.enterSync)
  else h

/-- What an active hub does on its peer's heartbeat: two active hubs (R364), revert (R381), the end of a state transfer (R376), and
`NOT_IN_STEP` (R375). `was` is the peer's role before. -/
def Hub.hbActive (h : Hub) (was : Nat) (revert : Bool) : Hub :=
  if h.twin.role ≠ .active then h.setTwin { h.twin with dual := false }
  else if h.twin.peerRole = 4 then
    let h := (h.setTwin { h.twin with dual := true }).twinEvt F.TWIN_EVT_DUAL_ACTIVE
    if h.preferred then h else h.enterSync
  else
    let h := h.setTwin { h.twin with dual := false }
    let h := if h.twin.peerNis ∧ ¬ h.twin.notInStep then (h.setTwin { h.twin with notInStep := true }).twinEvt F.TWIN_EVT_NOT_IN_STEP else h
    let h := if h.twin.peerRole = 2 ∧ h.twin.syncAt = none then h.setTwin { h.twin with syncAt := some h.now, sent := [] } else h
    let h := if h.twin.peerRole = 3 ∧ was = 2 then
        let refs := h.twin.syncRefs
        let h := h.setTwin { h.twin with syncAt := none, syncTries := 0, syncRefs := [], notInStep := false, digestRun := 0 }
        refs.foldl (fun h r => h.answer r sOK []) h
      else h
    if revert = true ∧ h.twin.peerRole = 3 then
      (if h.twin.revertPend.isNone then h.setTwin { h.twin with revertPend := some h.now } else h)
    else h.setTwin { h.twin with revertPend := none }

/-- A valid heartbeat (R361). -/
def Hub.hbGood (h : Hub) (nv : NonVol) (lvds : Bool) (w : Nat) (mac img run : Option Nat) : Hub :=
  let was := h.twin.peerRole
  let h := h.hbPeer w mac img
  let h := match run with
    | some r => if h.twin.role == Role.active then h.setTwin { h.twin with digestRun := r } else h
    | none => h
  let h := if lvds = true ∧ w % 8 = 7 then h.takeHandover else (h.joinDecide).hbActive was (testBit w 6)
  if testBit w 3 then h.peerFailed nv else h

/-- `HEARTBEAT_RX` (R361): valid when its CRC-8 is right and its counter differs from the previous one on the path. -/
def Hub.hbRx (h : Hub) (nv : NonVol) (rx : HbRx) (w : Word) : Hub :=
  let n := w.toNat
  let cnt := n / 256 % 256
  let p := match rx with
    | .lvds => h.twin.lvds
    | .serial _ _ _ _ => h.twin.ser
  let deaf := match rx with
    | .lvds => false
    | .serial _ _ _ _ => (h.rport 3).link == .down
  if h.twin.role = .solo ∨ hbSeal n ≠ w ∨ p.cnt = some cnt ∨ deaf = true then h else
  let p : HbPath := { at_ := h.now, cnt := some cnt, silent := false, live := true }
  match rx with
  | .lvds => (h.setTwin { h.twin with lvds := p }).hbGood nv true n none none none
  | .serial mac img _ run => (h.setTwin { h.twin with ser := p }).hbGood nv false n (some mac.toNat) (some img.toNat) (some run.toNat)

def execHeartbeatRx (rx : HbRx) (w : Word) (s : State) : Host.Outcome State Fault Refusal := s.on fun h => h.hbRx s.nv rx w

/-- `HEARTBEAT_PATH_SILENT` (R362). -/
def Hub.pathSilent (h : Hub) (nv : NonVol) (serial : Bool) : Hub :=
  let p := if serial then h.twin.ser else h.twin.lvds
  let other := if serial then h.twin.lvds else h.twin.ser
  if h.twin.role = .solo ∨ p.silent = true ∨ h.now < p.at_ + h.fld Reg.TWIN_CFG F.TWIN_CFG_T_MISS_US * tuUs then h else
  let p := { p with silent := true }
  let h := if serial then (h.setTwin { h.twin with ser := p }).count Reg.TWIN_CNT_HB_MISS_SER
    else (h.setTwin { h.twin with lvds := p }).count Reg.TWIN_CNT_HB_MISS_LVDS
  if other.silent then h.peerFailed nv else h.twinEvt F.TWIN_EVT_DEGRADED

def execHeartbeatPathSilent (serial : Bool) (s : State) : Host.Outcome State Fault Refusal := s.on fun h => h.pathSilent s.nv serial

/-- `JOIN_TIMEOUT` (R358): no valid heartbeat for `JOIN_MS` (log entry 50). -/
def Hub.joinTimeout (h : Hub) : Hub :=
  if h.twin.role = .joining ∧
      max h.twin.joinAt (max h.twin.ser.at_ h.twin.lvds.at_) + h.fld Reg.TWIN_TMO F.TWIN_TMO_JOIN_MS * tuMs ≤ h.now then (h.setRole .active).driveAll
  else h

def execJoinTimeout (s : State) : Host.Outcome State Fault Refusal := s.on Hub.joinTimeout

/-! ## Switch, fatal hand-over, revert (R363, R381 to R383) -/

/-- The peer can take over: a standby without `FAIL`. -/
def Hub.peerReady (h : Hub) : Bool := h.twin.peerRole == 3 && !h.twin.peerFail && !h.twin.peerDead

/-- `SWITCH` is journaled, and the hub acts on no further input (R382). -/
def Hub.switchOut (h : Hub) (k : Nat) : Hub :=
  let h := h.jnl 0x0F [word k]
  h.setTwin { h.twin with halted := true }

/-- A switch is due at a base edge now: a revert answered, or a drill accepted, at least 100 µs ago. -/
def Hub.switchDue (h : Hub) : Bool :=
  let due := fun (t : Nat) => decide (t + 100 * tuUs ≤ h.now)
  h.twin.role == .active && !h.twin.halted && h.peerReady &&
    ((match h.twin.revertPend with
      | some t => due t
      | none => false) || (match h.host.maint with
      | .drill t _ => due t
      | _ => false))

/-- `FATAL_HANDOVER` (R363). -/
def Hub.fatalHand (h : Hub) : Hub :=
  if h.twin.role = .active ∧ h.hasFatal = true ∧ h.peerReady = true ∧ h.twin.halted = false then
    (h.setTwin { h.twin with fatal := true }).switchOut h.car.k
  else h

def execFatalHandover (s : State) : Host.Outcome State Fault Refusal := s.on Hub.fatalHand

/-- `FATAL_RESET_DELAY` (R363). -/
def Hub.fatalReset (h : Hub) : Hub :=
  match h.twin.fatalAt with
  | some t => if t ≤ h.now then (h.setTwin { h.twin with fatalAt := none }).askWarm 7 else h
  | none => h

def execFatalResetDelay (s : State) : Host.Outcome State Fault Refusal := s.on Hub.fatalReset

/-- `PLL_UNLOCK` (R471): the hub hands over if it can, and the logic die is then held in warm reset. -/
def Hub.pllUnlock (h : Hub) : Hub :=
  if h.glb.inCold then h else
  let h := (h.noteBit 5).glbEvt F.GLB_EVT_PLL_UNLOCK
  let h := h.fatalHand.startWarm 8
  h.setGlb { h.glb with pllHold := true, pllLock := false }

def execPllUnlock (s : State) : Host.Outcome State Fault Refusal := s.on Hub.pllUnlock

/-- The conditions of R381 for a revert. -/
def Hub.revertOk (h : Hub) : Bool :=
  h.twin.role == .standby && h.preferred && !h.twin.notInStep && !h.twin.peerNis && h.twin.ser.ok && h.twin.lvds.ok && !h.failing &&
    !h.twin.peerFail && h.flag Reg.TWIN_CFG F.TWIN_CFG_AUTO_REVERT && !h.flag Reg.TWIN_CFG F.TWIN_CFG_REVERT_HOLD

/-- The conditions are watched in every cycle; a break restarts the count. -/
def Hub.revertWatch (h : Hub) : Hub :=
  if h.revertOk then (if h.twin.revertSince.isNone then h.setTwin { h.twin with revertSince := some h.now } else h)
  else h.setTwin { h.twin with revertSince := none, revertReq := false }

/-- `REVERT_REQUEST` (R381). -/
def Hub.revertRequest (h : Hub) : Hub :=
  let h := h.revertWatch
  match h.twin.revertSince with
  | some t => if t + h.fld Reg.TWIN_CFG F.TWIN_CFG_T_REVERT_S * tuS ≤ h.now then h.setTwin { h.twin with revertReq := true } else h
  | none => h

def execRevertRequest (s : State) : Host.Outcome State Fault Refusal := s.on Hub.revertRequest

/-- `TAKE_TRANSMITTER_LIMIT` (R383). -/
def Hub.takeLimit (h : Hub) : Hub := if h.twin.takeAt + 10 * tuMs ≤ h.now then h.setTwin { h.twin with keep := [] } else h

def execTakeTransmitterLimit (s : State) : Host.Outcome State Fault Refusal := s.on Hub.takeLimit

/-- `NOT_IN_STEP` (R375): flagged; with `AUTO_RESYNC` a standby begins a state transfer. -/
def Hub.outOfStep (h : Hub) : Hub :=
  let h := if h.twin.notInStep then h else (h.setTwin { h.twin with notInStep := true }).twinEvt F.TWIN_EVT_NOT_IN_STEP
  if h.twin.role = .standby ∧ h.flag Reg.TWIN_CFG F.TWIN_CFG_AUTO_RESYNC = true then h.enterSync else h

/-- `SYNC_TIMEOUT` (R376, R387): the transfer is abandoned and started again; after three, `TWIN_RESYNC` answers `ETIMEOUT`. -/
def Hub.syncTimeout (h : Hub) : Hub :=
  match h.twin.syncAt with
  | none => h
  | some t =>
    if h.now < t + h.fld Reg.TWIN_TMO F.TWIN_TMO_SYNC_TMO_MS * tuMs ∨
        ¬ (h.twin.role = .syncing ∨ (h.twin.role = .active ∧ h.peerPresent = true)) then h else
    let n := h.twin.syncTries + 1
    let h := (h.setTwin { h.twin with syncAt := some h.now, syncTries := n, sent := [] }).count Reg.TWIN_CNT_SYNC_TMO
    if n < 3 then h else
    let refs := h.twin.syncRefs
    let h := h.setTwin { h.twin with syncRefs := [], syncTries := 0 }
    refs.foldl (fun h r => h.answer r sETIMEOUT []) h

def execSyncTimeout (s : State) : Host.Outcome State Fault Refusal := s.on Hub.syncTimeout

/-! ## The scrubber (R384) -/

/-- `SCRUB_PASS_END`: words corrected in the pass, uncorrectable words of Carousel memories (numbered as `CarBlk.bad`), and
uncorrectable words elsewhere. -/
def Hub.scrubEnd (h : Hub) (corr : Nat) (bad : List Nat) (other : Nat) : Hub :=
  let late := decide (h.twin.scrubAt + 60 * tuS < h.now)
  let refs := h.twin.scrubRefs
  let h := h.setTwin { h.twin with scrubs := (h.twin.scrubs + 1) % 256, scrubLate := late, scrubAt := h.now, scrubRefs := h.twin.scrubNext,
                                   scrubNext := [], eccCorr := min 65535 (h.twin.eccCorr + corr) }
  let h := if corr = 0 then h else (h.countN Reg.TWIN_CNT_ECC_CORR corr).noteBit 3
  let n := bad.length + other
  let h := if n = 0 then h else
    let h := ((h.countN Reg.TWIN_CNT_ECC_UNCORR n).twinEvt F.TWIN_EVT_ECC_UNCORR).noteBit 2
    { h with car := { h.car with bad := h.car.bad ++ bad.filter fun w => !h.car.bad.contains w } }
  refs.foldl (fun h r => (h.answer r sOK []).evt Reg.HOST_EVT F.HOST_EVT_MAINT_DONE) h

def execScrubPassEnd (corr : Half) (bad : List (BitVec 20)) (other : Half) (s : State) : Host.Outcome State Fault Refusal :=
  s.on fun h => h.scrubEnd corr.toNat (bad.map BitVec.toNat) other.toNat

/-- `MAINT_SCRUB_NOW`: passes follow one another, so that a pass starts after the one in progress. -/
def runScrubNow (h : Hub) (c : CmdIn) : Ack :=
  if c.zeroFrom 1 = false then .refuse sEARG 0 0
  else .later (h.setTwin { h.twin with scrubNext := h.twin.scrubNext ++ [c.ref] })

def execMaintScrubNow (src : CmdSrc) (tag : Byte) (s : State) : Host.Outcome State Fault Refusal :=
  s.on fun h => h.accept (mkCmd src 0x0C05 tag []) runScrubNow

/-! ## Commands (R383, R387) -/

/-- A command carried by a journal record (R369). -/
def CmdIn.journaled (c : CmdIn) : Bool :=
  match c.src with
  | .journal _ => true
  | _ => false

def runTwinResync (h : Hub) (c : CmdIn) : Ack :=
  if c.zeroFrom 1 = false then .refuse sEARG 0 0
  else if c.journaled then .later h.enterSync
  else if h.twin.role ≠ .active ∨ h.twin.peerRole ≠ 3 then .refuse sESTATE h.twin.role.code 0
  else .later (h.setTwin { h.twin with syncRefs := h.twin.syncRefs ++ [c.ref], syncTries := 0, syncAt := some h.now })

def execTwinResync (src : CmdSrc) (tag : Byte) (s : State) : Host.Outcome State Fault Refusal :=
  s.on fun h => h.accept (mkCmd src 0x0901 tag []) runTwinResync

def runRevertHold (h : Hub) (c : CmdIn) : Ack :=
  if 1 < c.arg 1 ∨ c.zeroFrom 2 = false then .refuse sEARG 0 0
  else if h.twinEn = false then .refuse sESTATE h.twin.role.code 0
  else .done (h.setFld Reg.TWIN_CFG F.TWIN_CFG_REVERT_HOLD (c.arg 1)) []

def execTwinRevertHold (src : CmdSrc) (tag : Byte) (hold : Word) (s : State) : Host.Outcome State Fault Refusal :=
  s.on fun h => h.accept (mkCmd src 0x0902 tag [hold]) runRevertHold

/-- `MAINT_TWIN_DRILL` (R383, R463). -/
def runDrill (h : Hub) (c : CmdIn) : Ack :=
  if c.zeroFrom 1 = false then .refuse sEARG 0 0
  else if h.twin.peerRole ≠ 3 ∨ h.twin.notInStep = true ∨ h.twin.peerNis = true ∨ h.twin.ser.ok = false ∨ h.twin.lvds.ok = false ∨
      h.failing = true ∨ h.twin.peerFail = true then .refuse sESTATE h.twin.role.code 0
  else if h.maintFree = false then .refuse sEBUSY 0 0
  else .later { h with host := { h.host with maint := .drill h.now c.ref } }

def execMaintTwinDrill (src : CmdSrc) (tag : Byte) (s : State) : Host.Outcome State Fault Refusal :=
  s.on fun h => h.accept (mkCmd src 0x0C02 tag []) runDrill

/-! ## The journal's frames (R366, R367) -/

/-- A record in network byte order. -/
def JRec.encode (r : JRec) : List Byte :=
  [byte r.kind, byte r.body.length] ++ beBytes 2 r.jseq ++ beBytes 4 r.act ++ r.body.flatMap fun w => beBytes 4 w.toNat

/-- The records that fit in one frame of at most 1,518 bytes: header, FCS and at most 1,500 bytes of records. -/
def frameFill : Nat → List JRec → List JRec × List JRec
  | _, [] => ([], [])
  | room, r :: rs =>
    if r.size ≤ room then
      let t := frameFill (room - r.size) rs
      (r :: t.1, t.2)
    else ([], r :: rs)

/-- `JOURNAL_FRAME_TX` (R366). -/
def Hub.jnlFrame (h : Hub) : Hub :=
  if (h.rport 3).link = .down then h else
  match h.twin.store with
  | [] => h
  | r :: _ =>
    if jstoreSize h.twin.store < 1024 ∧ h.now < r.at_ + 200 * tuNs then h else
    let (now, later) := frameFill 1500 h.twin.store
    let bs := padTo 60 (beBytes 6 (2 ^ 48 - 1) ++ beBytes 6 h.ringMac ++ [0x88, 0xB5] ++ now.flatMap JRec.encode)
    (h.setTwin { h.twin with store := later }).emit (.frame 3 bs (word (fcsOf bs)))

/-! ## Registers (R388) -/

/-- A write of a `TWIN` register; fields held within their ranges. -/
def Hub.twinWrite (h : Hub) (a : Nat) (w : Word) : Hub :=
  let h := h.regWrite a w false id
  if a = Reg.TWIN_CFG then (h.holdFld a F.TWIN_CFG_T_MISS_US 2 16).holdFld a F.TWIN_CFG_T_REVERT_S 1 3600
  else if a = Reg.TWIN_TMO then (h.holdFld a F.TWIN_TMO_JOIN_MS 1 1000).holdFld a F.TWIN_TMO_SYNC_TMO_MS 1 1000
  else if a = Reg.TWIN_LAG ∧ bits w F.TWIN_LAG_LAG_CLR = 1 then h.setFld a F.TWIN_LAG_LAG_MAX 0
  else h

/-- `LAG_CLEAR` (R388). -/
def execLagClear (w : Word) (s : State) : Host.Outcome State Fault Refusal := s.on fun h => h.twinWrite Reg.TWIN_LAG w

/-! ## Every cycle -/

/-- What a twin's hub does in every cycle: drivers kept past a switch end with their frames, rewind items and delivery candidates leave
the 32 µs window, and the revert conditions are watched. -/
def Hub.twinTick (h : Hub) : Hub :=
  if h.twin.role = .solo then h else
  let h := h.setTwin { h.twin with keep := h.twin.keep.filter h.midFrame }
  let h := if h.follows then
      let fresh := fun (f : Frame) => decide (h.now ≤ f.at_ + 32 * tuUs)
      let old := h.pt.inbox.filter fun f => !fresh f
      old.foldl Hub.letGo { h with pt := { h.pt with inbox := h.pt.inbox.filter fresh } }
    else h
  h.revertWatch

end Sys2Proof.Machine
end

