-- ==== Sys2Proof/Machine/Sync.lean ====
section
/-! DEFINITION. The active hub's side of a state transfer (R376): the blocks of computed state, and the frames of the journal. -/

namespace Sys2Proof.Machine

/-- Inverse of `tagOf`. -/
def Tag.words (t : Tag) : List Word :=
  let st := match t.st with
    | .free => 0
    | .pending => 1
    | .quarantine => 2
  let kind := match t.kind with
    | .read => 0
    | .write => 1
    | .subscribe => 2
    | .event => 3
  [word st, word kind, word t.origin, word t.node, word t.point, word t.tries, word t.count, word t.landing]

/-- 64 words of a memory. -/
def memBlock (m : Memory) (i : Nat) : List Word := (List.range 64).map fun j => word (leNat (mread 0 m (256 * i + 4 * j) 4))

/-- The 16 registers of a bank. -/
def regList (t : Table Word) : List Word := (List.range 16).map (tget 0 t)

/-- The blocks of engine state: lanes, Fret machines, CAN controllers. -/
def Hub.engineBlocks (h : Hub) : List StateBlk :=
  ((List.finRange 96).flatMap fun (n : Fin 96) => [.laneQ n true (h.lane n).txq.items, .laneQ n false (h.lane n).rxq.items]) ++
  ((List.finRange 32).flatMap fun (e : Fin 32) =>
    let g := h.eng e
    [.fretQ e true g.txq.items, .fretQ e false g.rxq.items,
     .fret e g.run g.txs g.rxs g.a g.b (BitVec.ofNat 6 g.txc) (BitVec.ofNat 6 g.rxc) (BitVec.ofNat 7 g.pc)]) ++
  [.fretFlags (BitVec.ofNat 160 h.flagsNow)] ++
  ((List.finRange 16).flatMap fun (n : Fin 16) =>
    let c := h.can1 n
    [.canQ n true (c.txq.map (·.words)), .canQ n false c.rxq,
     .can n (BitVec.ofNat 3 c.st.code) (BitVec.ofNat 9 c.tec) (byte c.rec_)])

/-- The blocks of context state and memories. -/
def Hub.ctxBlocks (h : Hub) : List StateBlk :=
  ((List.range 1008).map fun i => .data (BitVec.ofNat 16 (64 * i)) (memBlock h.car.data i)) ++
  ((List.range 512).map fun i => .scratch (BitVec.ofNat 15 (64 * i)) (memBlock h.car.scratch i)) ++
  ((List.finRange 252).flatMap fun (c : Fin 252) =>
    let x := h.ctx c
    [.regs c (regList x.w) (regList x.saved), .ctx c (BitVec.ofNat 3 x.st.code) (BitVec.ofNat 16 x.pc) (byte x.cause)])

/-- The blocks of points, subscriptions and tags. -/
def Hub.pointBlocks (h : Hub) : List StateBlk :=
  ((List.range 4096).map fun i => .points (BitVec.ofNat 16 (16 * i)) ((List.range 16).flatMap fun j => (h.slot (16 * i + j)).words)) ++
  ((List.range 1024).map fun i => .mirror (BitVec.ofNat 14 (16 * i)) ((List.range 16).flatMap fun j => (h.mirE (16 * i + j)).words)) ++
  ((List.range 16).map fun i => .subs (BitVec.ofNat 12 (256 * i)) ((List.range 256).map fun j => BitVec.ofNat 2 (h.subSt (256 * i + j)).code)) ++
  ((List.range 32).map fun i => .tags (byte (8 * i)) ((List.range 8).flatMap fun j => (h.tag (8 * i + j)).words))

/-- The blocks of ring state: sources, discard tables, tracking table, counters, originated frames. -/
def Hub.ringBlocks (h : Hub) : List StateBlk :=
  let dd := fun (p1 : Bool) => ((h.ddTable (bitB p1)).filter fun e => !e.hsr).map fun e => (byte e.src, BitVec.ofNat 16 e.seq)
  ((List.range 256).map fun n => .source (byte n) (h.source n).known (BitVec.ofNat 16 (h.source n).max)) ++
  [.discard false (dd false), .discard true (dd true),
   .pairs (h.chk.pairs.map fun p => (byte p.node, byte p.flow, byte p.last))] ++
  ((List.range 256).map fun f => .alive (byte f) (byte (h.aliveOf f))) ++
  [.seqs (BitVec.ofNat 16 h.ring.seq) (BitVec.ofNat 16 h.ring.hsrSeq)] ++
  ((List.range 256).map fun q => .frames (byte q) (((h.tq q).ents.filter fun e => (h.frame e.id).own).map fun e =>
    (BitVec.ofNat 16 ((h.frame e.id).seq.getD 0), (h.frame e.id).bytes)))

/-- Every region of R376 that holds computed state, block by block. -/
def Hub.stateBlocks (h : Hub) : List StateBlk := h.pointBlocks ++ h.ctxBlocks ++ h.engineBlocks ++ h.ringBlocks

/-- A state transfer to the peer is in progress. -/
def Hub.transferring (h : Hub) : Bool := h.twin.role == .active && h.twin.peerRole == 2

/-- The blocks with their places in the order. -/
def Hub.numberedBlocks (h : Hub) : List (Nat × StateBlk) := (List.range h.stateBlocks.length).zip h.stateBlocks

/-- A block stands as it was last sent. -/
def Hub.blockSent (h : Hub) (x : Nat × StateBlk) : Bool := tget none h.twin.sent x.1 == some x.2

/-- Every block stands as it was last sent: the pass ends without a block sent again. -/
def Hub.allSent (h : Hub) : Bool := h.numberedBlocks.all h.blockSent

/-- The next block of a transfer goes out: one that has not been sent, or has been written since. -/
def Hub.stateSend (h : Hub) : Hub :=
  match h.numberedBlocks.find? fun x => !h.blockSent x with
  | some x =>
    (h.setTwin { h.twin with jseq := (h.twin.jseq + 1) % 65536, worked := true, sent := tset none h.twin.sent x.1 (some x.2) }).emit
      (.state h.twin.jseq (h.baseNs h.strumTb % 2 ^ 32) x.2)
  | none => h

/-- `JOURNAL_FRAME_TX` (R366, R376). -/
def Hub.jnlTx (h : Hub) : Hub :=
  if h.twin.store.isEmpty = true ∧ h.transferring = true ∧ (h.rport 3).link ≠ .down then h.stateSend else h.jnlFrame

def execJournalFrameTx (s : State) : Host.Outcome State Fault Refusal := s.on Hub.jnlTx

end Sys2Proof.Machine
end

