-- ==== Sys2Proof/Machine/Edge.lean ====
section
/-! DEFINITION. The base Strum edge (R23 to R25): deadlines, point map, staleness, house points, journal, freeze, and start of jobs. -/

namespace Sys2Proof.Machine

/-- Groups with an edge at base edge `k`. -/
def Hub.edgeGroups (h : Hub) (k : Nat) : List Nat := (List.range 8).filter (h.edgeOf k)

/-! ## Step 1 of R25 -/

/-- A mirror write of entry `e` has completed in the present cycle. -/
def Hub.wroteMir (h : Hub) (e : Nat) : Bool := tget 0 h.pt.fresh e == h.now + 1

/-- The hub with entry `e` as it stood before the cycle's mirror writes set to `r`. -/
def Hub.startMir (h : Hub) (e : Nat) (r : Rec) : Hub :=
  { h with start := { h.start with pt := { h.start.pt with mir := tset ({} : Rec) h.start.pt.mir e r } } }

/-- An entry becomes stale: it counts once, with its event (R59). -/
def Hub.staleMark (h : Hub) : Hub := (h.count Reg.PTM_CNT_STALE).evt Reg.PTM_EVT F.PTM_EVT_MIRROR_STALE

/-- Mirror entries of ACTIVE subscriptions whose `STALE_GROUP` has its edge are judged, and begin a new period (R59). An entry written in
this very cycle is judged as it stood before, and its write belongs to the new period. -/
def Hub.staleEdge (h : Hub) (groups : List Nat) : Hub :=
  (h.subsOpen.filter fun i => h.subSt i == .active && groups.contains (h.subGroup i)).foldl (fun h i =>
    (List.range (h.subCount i)).foldl (fun h j =>
      let e := h.subBase i + j
      if h.wroteMir e then
        let r := tget ({} : Rec) h.start.pt.mir e
        if 0 < tget 0 h.start.pt.fresh e ∨ testBit r.quality.toNat 15 = true then h
        else (h.startMir e { r with quality := r.quality ||| 0x8000 }).staleMark
      else
        let r := h.mirE e
        let old := tget 0 h.pt.fresh e
        let h := { h with pt := { h.pt with fresh := tset 0 h.pt.fresh e 0 } }
        if 0 < old ∨ testBit r.quality.toNat 15 = true then h
        else (h.setMirE e { r with quality := r.quality ||| 0x8000 }).staleMark) h) h

/-- Write a house point (R44): type, quality, value, with the edge's time on the Strum's base. -/
def Hub.house (h : Hub) (ns tb slot typ quality : Nat) (value : Word) : Hub :=
  let r := h.slot slot
  h.setSlot slot { value := value, quality := BitVec.ofNat 16 quality, typ := BitVec.ofNat 4 typ, alive := r.alive + 1,
                   flags := BitVec.ofNat 8 (tb % 4 + 32 + 128), ts := BitVec.ofNat 64 (stampOf ns) }

/-- Quality and value of a Net channel's point: while the link is silent the last values stand, questionable and old (R418). -/
def Hub.netPoint (h : Hub) (ns tb slot typ quality : Nat) (value : Word) : Hub :=
  if h.net.silent then h.house ns tb slot typ 0x83 (h.slot slot).value else h.house ns tb slot typ quality value

/-- The house points (R44), with the junction temperature in 0.1 °C. The health word is published and its period ends (R385). -/
def Hub.housePoints (h : Hub) (k ns tb : Nat) (temp : Int) : Hub :=
  let put := fun (h : Hub) (slot typ : Nat) (v : Nat) => h.house ns tb slot typ 0 (word v)
  let hw := h.healthWord temp
  let h := ((h.wr Reg.TWIN_HEALTH_LO (word hw)).wr Reg.TWIN_HEALTH_HI (word (hw / 2 ^ 32))).setTwin { h.twin with since := 0 }
  let h := put (put h 0xFF00 3 hw) 0xFF01 3 (hw / 2 ^ 32)
  let h := put h 0xFF02 3 (h.ring.addr + bitB h.ring.strapped * 256 + bitB h.ring.leader * 512)
  let h := put h 0xFF03 3 h.twinHouse.toNat
  let h := put h 0xFF04 3 h.ringStatePoint.toNat
  let h := put h 0xFF05 3 k
  let h := (List.range 4).foldl (fun h b => put h (0xFF06 + b) 3 (h.tbHouse b).toNat) h
  let h := (List.range 8).foldl (fun h g => put (put h (0xFF10 + g) 3 (h.strumNum g)) (0xFF18 + g) 5 (tget 0 h.car.late g)) h
  let h := (List.range 16).foldl (fun h n =>
    let h := h.netPoint ns tb (0xFF20 + n) 2 (if (h.net1 n).st.driven then 0 else 1) (h.rd (Reg.NET_N_I_MA n))
    let h := h.netPoint ns tb (0xFF30 + n) 3 0 (word (h.net1 n).vout)
    h.netPoint ns tb (0xFF40 + n) 3 0 (h.netHouse n)) h
  let h := put h 0xFF50 3 (h.pt.mir.filter fun e => testBit e.2.quality.toNat 15).length
  let h := put h 0xFF51 5 h.pt.guardFails
  let h := put h 0xFF52 3 (h.pt.tags.filter fun t => t.2.st != .free).length
  put h 0xFF53 2 (ofSigned 32 temp)

/-! ## Step 2 of R25 -/

/-- The mirror without the writes that completed in the present cycle: they are seen at the next edge (R25). -/
def Hub.mirFrozen (h : Hub) : Table Rec :=
  (h.pt.fresh.filter fun x => x.2 == h.now + 1).foldl (fun m x => tset ({} : Rec) m x.1 (tget ({} : Rec) h.start.pt.mir x.1)) h.pt.mir

/-- The mirror view of a group: entries, and the ranges covered by subscriptions that are ACTIVE and were so when the cycle began
(R25, R50, R51). -/
def Hub.freezeView (h : Hub) (g : Nat) : Hub :=
  let cover := (h.subsOpen.filter fun i => h.subSt i == .active && tget .off h.start.pt.sub i == .active).map fun i =>
    ({ node := h.subNode i, start := h.subStart i, count := h.subCount i, base := h.subBase i } : Cover)
  { h with pt := { h.pt with view := tset ({} : MirrorView) h.pt.view g { mir := h.mirFrozen, cover := cover } } }

/-- The freeze of a group (R25, R96, R169). -/
def Hub.freezeGroup (h : Hub) (g : Nat) : Hub :=
  let h := ((h.snapshot g).freezeMarks g).freezeView g
  { h with car := { h.car with edgeAt := tset none h.car.edgeAt g (some h.now) } }

/-! ## The journal of an edge (R367) -/

/-- `EDGE`: k, group mask, and the edge's short time. -/
def Hub.jnlEdge (h : Hub) (k ns : Nat) (groups : List Nat) : Hub :=
  h.jnl 0x01 [word (k / 2 ^ 32), word k, word (groups.foldl (fun m g => m + 2 ^ g) 0), word (ns % 2 ^ 40 / 2 ^ 32), word ns]

/-- `DSNAP` and `DIGEST` of a group: its frozen snapshot, and the digest of the Strum that ended (R374). -/
def Hub.jnlGroup (h : Hub) (k g : Nat) : Hub :=
  let snap := (List.range 8).flatMap fun b => [h.rd (Reg.LANE_DSNAP_LO g b), h.rd (Reg.LANE_DSNAP_HI g b)]
  let n := max 1 (h.fld (Reg.CAR_GRP_N g) F.CAR_GRP_N_N)
  let h := (h.jnl 0x05 (word g :: snap)).jnl 0x0E [word g, word ((k / n + 65535) % 65536), word (h.digestOf g)]
  { h with car := { h.car with digest := tset none h.car.digest g none } }

/-! ## The edge -/

/-- Before step 1 of R25: deadlines that the edge's instant meets abort their jobs (R177); then map changes, staleness and house points. -/
def Hub.edgeStep1 (h : Hub) (k ns : Nat) (groups : List Nat) (temp : Int) : Hub :=
  let h := h.liveCtx.foldl (fun h c => h.jobDeadline c) h
  let h := { h with car := { h.car with k := k, kNext := k + 1, produced := true } }
  (((h.count Reg.CAR_CNT_EDGES).mapApplyAll).staleEdge groups).housePoints k ns h.strumTb temp

/-- The hub's own base edge (R23, R25): an active hub of a twin journals it, and a switch due at it starts no job (R382). A state
transfer completes at the first edge after a pass in which no block was sent again (R376). -/
def Hub.ownEdge (h : Hub) (temp : Int) : Hub :=
  let k := h.car.kNext
  let ns := k * h.strumNs
  let groups := h.edgeGroups k
  let switch := h.switchDue
  let passed := h.transferring && h.allSent
  let h := h.edgeStep1 k ns groups temp
  let h := if passed then h.setTwin { h.twin with made := [], jnled := [] } else h
  let h := h.jnlEdge k ns groups
  let h := groups.foldl Hub.freezeGroup h
  let h := (List.range 4).foldl Hub.jnlTime h
  let h := groups.foldl (fun h g => h.jnlGroup k g) h
  if switch then h.switchOut k else groups.foldl (fun h g => h.startJobs g k ns) h

/-- `BASE_STRUM_EDGE`: the Strum's base has reached the next edge; a standby's generator produces none (R369). `temp` and `sig` are what the
hub measures: its die temperature, and the signatures that context 252 found wrong since the last edge (R179). -/
def Hub.baseEdge (h : Hub) (temp : Int) (sig : Nat) : Hub :=
  if h.car.strum = true ∧ h.follows = false ∧ h.car.kNext * h.strumNs ≤ h.baseNs h.strumTb then (h.noteSig sig).ownEdge temp else h

def execBaseStrumEdge (temp : Half) (sig : BitVec 2) (s : State) : Host.Outcome State Fault Refusal :=
  s.on fun h => h.baseEdge temp.toInt sig.toNat

end Sys2Proof.Machine
end

