-- ==== Sys2Proof/Machine/Journal.lean ====
section
/-! DEFINITION. The standby's application of journal records (R367 to R376, R382). Each row carries the record's sequence number, its
`ACT`, and the fields of its body. -/

namespace Sys2Proof.Machine

/-! ## The header (R367, R368) -/

/-- The lag of a record, and what it leads to (R368, R388). -/
def Hub.jnlLag (h : Hub) (act : Nat) : Hub :=
  let d := toSigned 32 (h.baseNs h.strumTb % 2 ^ 32 + 2 ^ 32 - act % 2 ^ 32)
  let lag := d.toNat
  let h := h.setTwin { h.twin with lag := lag }
  let h := h.setFld Reg.TWIN_LAG F.TWIN_LAG_LAG_MAX (max (h.fld Reg.TWIN_LAG F.TWIN_LAG_LAG_MAX) (min 65535 (lag / 10)))
  if 4000 < lag then h.noteBit 14 else h

/-- Apply a record on a standby: a gap in `JSEQ` sets `NOT_IN_STEP` at once, which may begin a state transfer (R367, R375). -/
def Hub.jnlApply (h : Hub) (jseq act : Nat) (f : Hub → Hub) : Hub :=
  if h.twin.role ≠ .standby then h else
  let gap := match h.twin.jseqRx with
    | some q => decide (jseq ≠ (q + 1) % 65536)
    | none => false
  let h := h.setTwin { h.twin with jseqRx := some jseq, worked := true }
  let h := if gap then h.outOfStep else h
  if h.twin.role ≠ .standby then h else f (h.jnlLag act)

/-! ## Edges and snapshots -/

/-- The transfer completes at this edge: the hub becomes the standby and applies the journal from this record on (R376). -/
def Hub.syncDone (h : Hub) : Hub :=
  let h := (h.setRole .standby).twinEvt F.TWIN_EVT_SYNC_DONE
  h.setTwin { h.twin with notInStep := false, digestRun := 0, jseqRx := none, made := [], jnled := [], rewind := [], syncAt := none,
                          syncTries := 0 }

/-- `EDGE` (R369): the freeze of R25 for the groups that the record names, and the start of their jobs. -/
def Hub.edgeRecord (h : Hub) (k groups t : Nat) (temp : Int) : Hub :=
  let ns := ((h.baseNs h.strumTb : Int) + toSigned 40 (t + 2 ^ 40 - h.short h.strumTb)).toNat
  let gs := below 8 (testBit groups)
  let h := h.edgeStep1 k ns gs temp
  let h := gs.foldl Hub.freezeGroup h
  gs.foldl (fun h g => h.startJobs g k ns) h

def Hub.jnlEdgeRx (h : Hub) (jseq act k groups t : Nat) (temp : Int) (sig : Nat) (complete : Bool) : Hub :=
  let h := if h.twin.role = .syncing ∧ complete = true then h.syncDone else h
  h.jnlApply jseq act fun h => (h.noteSig sig).edgeRecord k groups t temp

/-- `JNL_EDGE`: k, groups, short time of the edge; what the standby finds in itself (R179); and whether a state transfer completes at this
edge. -/
def execJnlEdge (jseq : Half) (act : Word) (k : Dword) (groups : Byte) (t : BitVec 40) (own : OwnHealth) (complete : Bool) (s : State) :
    Host.Outcome State Fault Refusal :=
  s.on fun h => h.jnlEdgeRx jseq.toNat act.toNat k.toNat groups.toNat t.toNat own.temp.toInt own.sig.toNat complete

/-- The two snapshots differ in a pin whose level has been stable since 1 µs before the edge (R373). -/
def Hub.snapDiffers (h : Hub) (x : SnapChk) : Bool :=
  (List.range 8).any fun k =>
    let word64 := fun (ws : List Word) => (ws.getD (2 * k) 0).toNat + (ws.getD (2 * k + 1) 0).toNat * 2 ^ 32
    (List.range 36).any fun p =>
      testBit (word64 x.own) p != testBit (word64 x.his) p && decide (tget 0 h.ln.pinAt (36 * k + p) + tuUs ≤ x.edge)

/-- Snapshots are compared once their edge lies 1 µs back. -/
def Hub.snapSettle (h : Hub) : Hub :=
  let due := h.twin.snaps.filter fun x => decide (x.edge + tuUs ≤ h.now)
  let h := h.setTwin { h.twin with snaps := h.twin.snaps.filter fun x => decide (h.now < x.edge + tuUs) }
  due.foldl (fun h x => if h.snapDiffers x then h.pinMismatch else h) h

/-- The words of a group's snapshot. -/
def Hub.dsnapWords (h : Hub) (g : Nat) : List Word :=
  (List.range 8).flatMap fun k => [h.rd (Reg.LANE_DSNAP_LO g k), h.rd (Reg.LANE_DSNAP_HI g k)]

/-- `DSNAP` (R369, R373): fills the frozen snapshot words, also of the jobs that this edge starts. -/
def Hub.dsnapRecord (h : Hub) (g : Nat) (ws : List Word) : Hub :=
  let x : SnapChk := { edge := h.now - h.twin.lag * tuNs, own := h.dsnapWords g, his := ws }
  let h := (h.setTwin { h.twin with snaps := h.twin.snaps ++ [x] }).snapSettle
  let h := (List.range 8).foldl (fun h k =>
    (h.wr (Reg.LANE_DSNAP_LO g k) (ws.getD (2 * k) 0)).wr (Reg.LANE_DSNAP_HI g k) (ws.getD (2 * k + 1) 0)) h
  (h.liveCtx.filter fun c => h.ctxGroup c == g).foldl (fun h c =>
    let x := h.ctx c
    match x.next with
    | some (p, t) => h.setCtx c { x with next := some ({ p with dsnap := ws }, t) }
    | none => if x.inJob ∧ x.page.k = h.car.k then h.setCtx c { x with page := { x.page with dsnap := ws } } else h) h

def execJnlDsnap (jseq : Half) (act : Word) (g : Fin 8) (ws : List Word) (s : State) : Host.Outcome State Fault Refusal :=
  s.on fun h => h.jnlApply jseq.toNat act.toNat fun h => h.dsnapRecord g ws

/-! ## Items of the front ends (R369, R373) -/

/-- Journaled items of a source, each with its words; `count` is the source's item count after the last of them. -/
def Hub.sourceRecord (h : Hub) (key count : Nat) (items : List (List Word)) : Hub :=
  let first := count + 1 - items.length
  let differs := (List.range items.length).any fun i =>
    h.twin.rewind.any fun r => r.key == key && r.count == first + i && r.words != items.getD i []
  let h := if differs then h.pinMismatch else h
  let made := tget 0 h.twin.made key
  let early := (((List.range items.length).zip items).filter fun x => decide (made < first + x.1)).map fun x =>
    ({ key := key, count := first + x.1, words := x.2, at_ := h.now } : Rewind)
  let kept := h.twin.awaited.filter fun r => decide (h.now ≤ r.at_ + 32 * tuUs)
  let h := h.setTwin { h.twin with jnled := tset 0 h.twin.jnled key count, awaited := kept ++ early }
  items.foldl (fun h ws => h.pushSource key ws) h

def execJnlLaneRx (jseq : Half) (act : Word) (n : Fin 96) (count : Word) (items : List Word) (s : State) : Host.Outcome State Fault Refusal :=
  s.on fun h => h.jnlApply jseq.toNat act.toNat fun h => h.sourceRecord (srcKey jLane n) count.toNat (items.map fun w => [w])

def execJnlFretRx (jseq : Half) (act : Word) (e : Fin 32) (count : Word) (words : List Word) (s : State) : Host.Outcome State Fault Refusal :=
  s.on fun h => h.jnlApply jseq.toNat act.toNat fun h => h.sourceRecord (srcKey jFret e) count.toNat (words.map fun w => [w])

def execJnlCanRx (jseq : Half) (act : Word) (n : Fin 16) (count : Word) (entry : List Word) (s : State) : Host.Outcome State Fault Refusal :=
  s.on fun h => h.jnlApply jseq.toNat act.toNat fun h => h.sourceRecord (srcKey jCan n) count.toNat [entry]

def execJnlEvent (jseq : Half) (act : Word) (count w0 w1 : Word) (s : State) : Host.Outcome State Fault Refusal :=
  s.on fun h => h.jnlApply jseq.toNat act.toNat fun h => h.sourceRecord (srcKey jEvent 0) count.toNat [[w0, w1]]

/-! ## Delivered frames (R370) -/

/-- Deliver the frame at the head of the candidates, by its type. -/
def Hub.replayHead (h : Hub) : Hub :=
  let h := h.setTwin { h.twin with replay := true }
  let h := match h.pt.inbox with
    | f :: _ =>
      if frameType tPub f || frameType tFrame f || frameOdd f then h.bundleRx
      else if frameType tRsp f then h.rspRx
      else if frameReq .read f then h.readReq
      else if frameReq .subscribe f then h.subscribeReq
      else if frameReq .write f then h.writeReq
      else if frameReq .event f then h.eventReq
      else ({ h with pt := { h.pt with inbox := h.pt.inbox.drop 1 } } : Hub).letGo f
    | [] => h
  h.setTwin { h.twin with replay := false }

/-- The candidate that a record names, moved to the front. -/
def Hub.nameFrame (h : Hub) (x : Named) : Option Hub :=
  match h.pt.inbox.find? fun f => (nrpParse f.bytes).src == x.src && (nrpParse f.bytes).seq == x.seq with
  | some f => some { h with pt := { h.pt with inbox := f :: h.pt.inbox.erase f } }
  | none => none

/-- Deliver the frames that records have named, in record order, as far as they have been received. -/
def Hub.deliverNamed : Nat → Hub → Hub
  | 0, h => h
  | n + 1, h =>
    match h.twin.named with
    | x :: rest =>
      match h.nameFrame x with
      | some h' => Hub.deliverNamed n (h'.setTwin { h'.twin with named := rest }).replayHead
      | none => h
    | [] => h

/-- `RING_RX`: the record names a frame, or carries it. -/
def Hub.ringRecord (h : Hub) (port src seq fcs : Nat) (frame : List Byte) : Hub :=
  let h := if frame.isEmpty then h else
    let f : Frame := { bytes := frame, inPort := port, stamps := (List.range 4).map fun b => h.baseNs b * 65536, at_ := h.now }
    { h with pt := { h.pt with inbox := h.pt.inbox ++ [f] } }
  let h := h.setTwin { h.twin with named := h.twin.named ++ [({ src := src, seq := seq, fcs := fcs, at_ := h.now } : Named)] }
  Hub.deliverNamed h.twin.named.length h

def execJnlRingRx (jseq : Half) (act : Word) (port src : Byte) (seq : Half) (fcs : Word) (frame : List Byte) (s : State) :
    Host.Outcome State Fault Refusal :=
  s.on fun h => h.jnlApply jseq.toNat act.toNat fun h => h.ringRecord port.toNat src.toNat seq.toNat fcs.toNat frame

/-- `JNL_RING_MISS`: the oldest named frame has not been found within 4 µs. -/
def Hub.ringMiss (h : Hub) : Hub :=
  match h.twin.named with
  | x :: rest =>
    if x.at_ + 4 * tuUs ≤ h.now then
      let h := ((h.setTwin { h.twin with named := rest }).count Reg.TWIN_CNT_RING_MISS).noteBit 17
      Hub.deliverNamed h.twin.named.length h
    else h
  | [] => h

def execJnlRingMiss (s : State) : Host.Outcome State Fault Refusal := s.on Hub.ringMiss

/-! ## Jobs (R207, R170, R369, R371, R374) -/

/-- `TIMED`: the result waits for the context's instruction. -/
def Hub.timedIn (h : Hub) (c op value : Nat) : Hub := h.setCtx c { h.ctx c with timed := (h.ctx c).timed ++ [(op, value)] }

def execJnlTimed (jseq : Half) (act : Word) (c : Fin 252) (op : Byte) (value : BitVec 40) (s : State) : Host.Outcome State Fault Refusal :=
  s.on fun h => h.jnlApply jseq.toNat act.toNat fun h => h.timedIn c op.toNat value.toNat

def execJnlMark (jseq : Half) (act : Word) (c : Fin 252) (handle : Fin 16) (mark : Half) (s : State) : Host.Outcome State Fault Refusal :=
  s.on fun h => h.jnlApply jseq.toNat act.toNat fun h => h.qMark (h.bind c handle) mark.toNat

/-- `JOB`: outcome 0 commits once the job has reached `DONE`, in record order; 1 aborts it, 2 faults it, 3 stops it. -/
def Hub.jobOutcome (h : Hub) (c outcome cause : Nat) : Hub :=
  match outcome with
  | 0 =>
    let h : Hub := { h with car := { h.car with jobOrder := h.car.jobOrder ++ [c] } }
    Hub.jobSettle h.car.jobOrder.length h
  | 1 => if (h.ctx c).inJob then h.lateAbort c else h
  | 2 => if (h.ctx c).inJob then h.carFault c cause else h
  | _ => if (h.ctx c).inJob then (h.setCtx c { (h.ctx c).restore.over .parked with next := none }).jobCan c else h

def execJnlJob (jseq : Half) (act : Word) (c : Fin 252) (outcome : BitVec 2) (cause : Byte) (s : State) : Host.Outcome State Fault Refusal :=
  s.on fun h => h.jnlApply jseq.toNat act.toNat fun h => h.jobOutcome c outcome.toNat cause.toNat

/-- The standby's sequence counter follows the active's (R304). -/
def Hub.seqFollow (h : Hub) (seq : Nat) : Hub :=
  let next := (seq + 1) % 65536
  let ahead := (next + 65536 - h.ring.seq) % 65536
  if 1 ≤ ahead ∧ ahead ≤ 32767 then { h with ring := { h.ring with seq := next } } else h

/-- `TX_DONE`: the standby releases its copy of the originated frame (R371); a group EVENT completes its tag (R66). -/
def Hub.txDone (h : Hub) (seq : Nat) : Hub :=
  let h := h.seqFollow seq
  h.busyQueues.foldl (fun h q =>
    ((h.tq q).ents.filter fun e => (h.frame e.id).own && (h.frame e.id).seq == some seq).foldl (fun h e =>
      let tag := (h.frame e.id).doneTag
      let h := h.tqRemove q e.id
      match tag with
      | some t => if (h.tag t).st = .pending then h.tagComplete t sOK else h
      | none => h) h) h

def execJnlTxDone (jseq : Half) (act : Word) (seq : Half) (_ports : Byte) (s : State) : Host.Outcome State Fault Refusal :=
  s.on fun h => h.jnlApply jseq.toNat act.toNat fun h => h.txDone seq.toNat

/-- Servo states by their codes (R355). -/
def servoOf : Nat → ServoSt
  | 0 => .unset | 1 => .free | 2 => .acquiring | 3 => .locked | 4 => .holdover | _ => .refused

/-- `TIME` (R372): a base other than `TB3` takes the active's time, corrected by the measured delay, its frequency and servo state. -/
def Hub.timeRecord (h : Hub) (b sec ns : Nat) (freq : Word) (servo : Nat) (delay : Int) : Hub :=
  if b = 3 then h else
  let t := ((sec * 1000000000 + ns : Nat) : Int) + delay
  let h := h.setTb b (({ h.tb b with ns := (t % (nsWrap : Int)).toNat, sub := 0 } : TimeBase).keep h.now (h.tbInc b) true)
  (h.wr (Reg.TB_FREQ b) freq).servoTo b (servoOf servo)

def execJnlTime (jseq : Half) (act : Word) (b : Fin 4) (sec : BitVec 48) (ns freq : Word) (servo : BitVec 3) (delay : Word) (s : State) :
    Host.Outcome State Fault Refusal :=
  s.on fun h => h.jnlApply jseq.toNat act.toNat fun h => h.timeRecord b sec.toNat ns.toNat freq servo.toNat delay.toInt

/-- `DIGEST` (R374, R375). -/
def Hub.digestRecord (h : Hub) (g crc : Nat) : Hub :=
  let h : Hub := { h with car := { h.car with jobOrder := h.car.jobOrder ++ [256 + g], digWant := tset 0 h.car.digWant g crc } }
  let h := Hub.jobSettle h.car.jobOrder.length h
  if h.twin.digestRun = 3 then h.outOfStep else h

def execJnlDigest (jseq : Half) (act : Word) (g : Fin 8) (_strum : Half) (crc : Word) (s : State) : Host.Outcome State Fault Refusal :=
  s.on fun h => h.jnlApply jseq.toNat act.toNat fun h => h.digestRecord g crc.toNat

/-- `SWITCH` (R382): `TAKE` on `HBO`, the duties, and the jobs of edge k. -/
def Hub.switchIn (h : Hub) : Hub := (h.emit (.take (h.hbWord 7 h.twin.hb))).takeDuties.count Reg.TWIN_CNT_SWITCH

def execJnlSwitch (jseq : Half) (act : Word) (_k : Dword) (s : State) : Host.Outcome State Fault Refusal :=
  s.on fun h => h.jnlApply jseq.toNat act.toNat Hub.switchIn

/-! ## State transfer (R376) -/

/-- A record from its four words (R39). -/
def recOf (ws : List Word) : Rec :=
  let w1 := (ws.getD 1 0).toNat
  { value := ws.getD 0 0, quality := BitVec.ofNat 16 w1, typ := BitVec.ofNat 4 (w1 / 2 ^ 16), alive := BitVec.ofNat 4 (w1 / 2 ^ 20),
    flags := BitVec.ofNat 8 (w1 / 2 ^ 24), ts := BitVec.ofNat 64 ((ws.getD 2 0).toNat + (ws.getD 3 0).toNat * 2 ^ 32) }

/-- Groups of `n` words. -/
def wordGroups : Nat → Nat → List Word → List (List Word)
  | 0, _, _ => []
  | k + 1, n, ws => ws.take n :: wordGroups k n (ws.drop n)

/-- Apply `f` to each element with its index from `first` on. -/
def Hub.eachFrom {α : Type} (h : Hub) (first : Nat) (l : List α) (f : Hub → Nat → α → Hub) : Hub :=
  ((List.range l.length).zip l).foldl (fun h x => f h (first + x.1) x.2) h

def subOfCode : Nat → SubState
  | 0 => .off | 1 => .opening | 2 => .active | _ => .failed

/-- A tag from its eight words: state, kind, origin, node, point, tries, count, landing. -/
def tagOf (ws : List Word) : Tag :=
  let w := fun i => (ws.getD i 0).toNat
  { st := match w 0 with
      | 0 => .free
      | 1 => .pending
      | _ => .quarantine,
    kind := match w 1 with
      | 0 => .read
      | 1 => .write
      | 2 => .subscribe
      | _ => .event,
    origin := w 2, node := w 3, point := w 4, tries := w 5, count := w 6, landing := w 7 }

def ctxOfCode : Nat → CtxSt
  | 0 => .parked | 1 => .idle | 2 => .ready | 3 => .running | 4 => .waiting | _ => .faulted

def canOfCode : Nat → CanSt
  | 0 => .stopped | 1 => .syncing | 2 => .active | 3 => .passive | 4 => .busOff | 5 => .recovering | _ => .stopping

/-- Registers by number from a list. -/
def regTable (ws : List Word) : Table Word :=
  ((List.range ws.length).zip ws).foldl (fun t x => if x.1 = 0 then t else tset (0 : Word) t x.1 x.2) []

def memWords (m : Memory) (a : Nat) (ws : List Word) : Memory := mwrite 0 m (4 * a) (ws.flatMap fun w => leBytes 4 w.toNat)

/-- A block of computed state arrives. -/
def Hub.stateBlock (h : Hub) : StateBlk → Hub
  | .points a ws => h.eachFrom a.toNat (wordGroups (ws.length / 4) 4 ws) fun h i w => h.setSlot i (recOf w)
  | .mirror a ws => h.eachFrom a.toNat (wordGroups (ws.length / 4) 4 ws) fun h i w => h.setMirE i (recOf w)
  | .subs a cs => h.eachFrom a.toNat cs fun h i c => h.setSub i (subOfCode c.toNat)
  | .tags a ws => h.eachFrom a.toNat (wordGroups (ws.length / 8) 8 ws) fun h i w => h.setTag i { tagOf w with lastTx := h.now }
  | .data a ws => { h with car := { h.car with data := memWords h.car.data a.toNat ws } }
  | .scratch a ws => { h with car := { h.car with scratch := memWords h.car.scratch a.toNat ws } }
  | .regs c cur saved => h.setCtx c { h.ctx c with w := regTable cur, saved := regTable saved }
  | .ctx c st pc cause => h.setCtx c { h.ctx c with st := ctxOfCode st.toNat, pc := pc.toNat, cause := cause.toNat }
  | .laneQ n tx ws =>
    let l := h.lane n
    if tx then h.setLane n { l with txq := { l.txq with items := ws } } else h.setLane n { l with rxq := { l.rxq with items := ws } }
  | .fretQ e tx ws =>
    let g := h.eng e
    if tx then h.setEng e { g with txq := { g.txq with items := ws } } else h.setEng e { g with rxq := { g.rxq with items := ws } }
  | .fret e run txs rxs a b txc rxc pc =>
    h.setEng e { h.eng e with run := run, txs := txs, rxs := rxs, a := a, b := b, txc := txc.toNat, rxc := rxc.toNat, pc := pc.toNat }
  | .fretFlags f => { h with fret := { h.fret with flags := f.toNat, flagOps := [] } }
  | .canQ n tx es =>
    let c := h.can1 n
    if tx then h.setCan n { c with txq := es.map fun ws => ({ words := ws, tries := 0 } : CanTx) } else h.setCan n { c with rxq := es }
  | .can n st tec rc => h.setCan n { h.can1 n with st := canOfCode st.toNat, tec := tec.toNat, rec_ := rc.toNat }
  | .source node known mx => h.setSource node.toNat { known := known, max := mx.toNat, heard := h.now, ever := true }
  | .discard p1 es => h.setDd (bitB p1) (es.map fun e => ({ hsr := false, src := e.1.toNat, seq := e.2.toNat, at_ := h.now } : DdEnt))
  | .pairs es =>
    let ps : List Pair := es.map fun (n, f, l) => { node := n.toNat, flow := f.toNat, last := l.toNat, cand := none }
    { h with chk := { h.chk with pairs := ps } }
  | .alive f n => { h with chk := { h.chk with alive := tset 0 h.chk.alive f.toNat n.toNat } }
  | .seqs nrp hsr => { h with ring := { h.ring with seq := nrp.toNat, hsrSeq := hsr.toNat } }
  | .frames q fs =>
    let h := (h.tq q.toNat).ents.foldl (fun h e => if (h.frame e.id).own then h.tqRemove q.toNat e.id else h) h
    fs.foldl (fun h (sq, bs) =>
      let (h, id) := h.newFrame { bytes := bs, inPort := 5, own := true, seq := some sq.toNat, uses := 1 }
      h.tqPush q.toNat id) h

/-- `JNL_STATE` (R376): taken while the state is being transferred. -/
def execJnlState (jseq : Half) (act : Word) (b : StateBlk) (s : State) : Host.Outcome State Fault Refusal :=
  s.on fun h => if h.twin.role = .syncing then (h.setTwin { h.twin with jseqRx := some jseq.toNat, worked := true }).jnlLag act.toNat |>.stateBlock b else h

/-- What a standby looks after in every cycle: named frames that have come, digests and snapshots that can be compared. -/
def Hub.followTick (h : Hub) : Hub :=
  if h.twin.role ≠ .standby then h else
  let h := (Hub.deliverNamed h.twin.named.length h).snapSettle
  let h := Hub.jobSettle h.car.jobOrder.length h
  if h.twin.digestRun = 3 ∧ h.twin.notInStep = false then h.outOfStep else h

end Sys2Proof.Machine
end

