-- ==== Sys2Proof/Machine/Command.lean ====
section
/-! DEFINITION. The command interface: global and maintenance commands, the dispatch of a command by its code, the command queues,
and the ring loop (R447 to R450, R453, R463 to R465). -/

namespace Sys2Proof.Machine

/-! ## Global commands (R453, R465) -/

/-- Set the interface version of the queue that a command came from. -/
def Hub.setVersion (h : Hub) (v : Nat) : CmdSrc → Hub
  | .queue q => h.setFld (Reg.HQ_CFG q) F.HQ_CFG_VERSION v
  | .journal q => h.setFld (Reg.HQ_CFG q) F.HQ_CFG_VERSION v
  | .script => h

/-- `NODE_HELLO` (R453). -/
def runNodeHello (h : Hub) (c : CmdIn) : Ack :=
  let lo := c.arg 1 % 256
  let hi := c.arg 1 / 256 % 256
  if lo = 0 ∨ hi < lo ∨ 65536 ≤ c.arg 1 ∨ c.zeroFrom 2 = false then .refuse sEARG 0 0
  else if 3 < lo then .refuse sEVERSION 0 0
  else
    let v := min 3 hi
    .done (h.setVersion v c.src) [word (v + 256 + 3 * 65536)]

def execNodeHello (src : CmdSrc) (tag : Byte) (versions : Word) (s : State) : Host.Outcome State Fault Refusal :=
  s.on fun h => h.accept (mkCmd src 0x0101 tag [versions]) runNodeHello

/-- `NODE_INFO` (R465): `GLB_ID`, the house points `NODE_STATE` and `TWIN_STATE`, and the health word. -/
def runNodeInfo (h : Hub) (c : CmdIn) : Ack :=
  if c.zeroFrom 1 = false then .refuse sEARG 0 0
  else .done h [h.rd Reg.GLB_ID, (h.slot 0xFF02).value, (h.slot 0xFF03).value, h.rd Reg.TWIN_HEALTH_LO, h.rd Reg.TWIN_HEALTH_HI]

def execNodeInfo (src : CmdSrc) (tag : Byte) (s : State) : Host.Outcome State Fault Refusal :=
  s.on fun h => h.accept (mkCmd src 0x0102 tag []) runNodeInfo

/-- `MAINT_ACT`: the low byte of the running reducing activity's code (R466). -/
def Hub.maintAct (h : Hub) : Nat :=
  match h.host.maint with
  | .idle => 0
  | .loop _ => 1
  | .drill _ _ => 2
  | .gate _ _ _ _ => 3

/-- `NODE_RESET` (R465): 1 warm, 2 cold; the reset follows the response by 1 ms. -/
def runNodeReset (h : Hub) (c : CmdIn) : Ack :=
  if (c.arg 1 ≠ 1 ∧ c.arg 1 ≠ 2) ∨ c.zeroFrom 2 = false then .refuse sEARG 0 0
  else if h.maintFree = false then .refuse sESTATE h.maintAct 0
  else .done { h with host := { h.host with resetDue := some (decide (c.arg 1 = 2), h.now + tuMs) } } []

def execNodeReset (src : CmdSrc) (tag : Byte) (kind : Word) (s : State) : Host.Outcome State Fault Refusal :=
  s.on fun h => h.accept (mkCmd src 0x0103 tag [kind]) runNodeReset

/-! ## The ring loop (R463, R464) -/

/-- `MAINT_RING_LOOP`: the port loops back inside its PCS; for the ring it is DOWN while the loop lasts. -/
def runRingLoop (h : Hub) (c : CmdIn) : Ack :=
  let p := c.arg 1
  let ms := c.arg 2
  if 3 ≤ p ∨ ms = 0 ∨ 60000 < ms ∨ c.zeroFrom 3 = false then .refuse sEARG 0 p
  else if h.fld (Reg.RING_P_CFG p) F.RING_P_CFG_MODE = 0 then .refuse sESTATE (h.rport p).link.code p
  else if p < 2 ∧ h.ring.state ≠ .closed then .refuse sESTATE h.ring.state.code p
  else if h.maintFree = false then .refuse sEBUSY 0 0
  else
    let h := h.linkDown p
    let h := h.setRport p { h.rport p with loop := true }
    let l : RingLoop := { port := p, at_ := h.now, dur := ms * tuMs, sent := 0, good := 0, bad := 0, ended := none, ref := c.ref }
    .later { h with host := { h.host with maint := .loop l } }

def execMaintRingLoop (src : CmdSrc) (tag : Byte) (p ms : Word) (s : State) : Host.Outcome State Fault Refusal :=
  s.on fun h => h.accept (mkCmd src 0x0C01 tag [p, ms]) runRingLoop

def Hub.setLoop (h : Hub) (l : RingLoop) : Hub := { h with host := { h.host with maint := .loop l } }

/-- `RING_LOOP_TEST_TX`: the next test frame falls due; `back` says what came of it: received good, received bad, or not at all. -/
def Hub.loopTx (h : Hub) (back : Option Bool) : Hub :=
  match h.host.maint with
  | .loop l =>
    if l.ended.isSome ∨ h.now < l.at_ + l.sent * tuUs ∨ l.dur ≤ l.sent * tuUs then h
    else h.setLoop { l with sent := l.sent + 1, good := l.good + bitB (back == some true), bad := l.bad + bitB (back == some false) }
  | _ => h

def execRingLoopTestTx (back : Option Bool) (s : State) : Host.Outcome State Fault Refusal := s.on fun h => h.loopTx back

/-- End the loop: the port is restarted as by `RING_LINK_RESTART`. -/
def Hub.loopStop (h : Hub) : Hub :=
  match h.host.maint with
  | .loop l =>
    if l.ended.isSome then h
    else (h.setRport l.port { h.rport l.port with loop := false }).setLoop { l with ended := some h.now }
  | _ => h

/-- The port is in service again: a ring port is `UP`, `P2` is `LOCKED`. -/
def Hub.loopUp (h : Hub) (p : Nat) : Bool := if p = 2 then (h.rport 2).link != .down else h.linkUp p

/-- After the loop the command answers: `OK` once the port is up, `ETIMEOUT` 100 ms after the end. -/
def Hub.loopSettle (h : Hub) : Hub :=
  match h.host.maint with
  | .loop l =>
    match l.ended with
    | none => h
    | some t =>
      let res := [word l.sent, word l.good, word l.bad]
      if h.loopUp l.port then h.maintEnd.answer l.ref sOK res
      else if t + 100 * tuMs ≤ h.now then h.maintEnd.answer l.ref sETIMEOUT res
      else h
  | _ => h

/-- `RING_LOOP_END`: the duration has passed. -/
def Hub.loopEnd (h : Hub) : Hub :=
  match h.host.maint with
  | .loop l => if l.at_ + l.dur ≤ h.now then h.loopStop else h
  | _ => h

def execRingLoopEnd (s : State) : Host.Outcome State Fault Refusal := s.on fun h => h.loopEnd.loopSettle

/-- `MAINT_END` (R463). -/
def runMaintEnd (h : Hub) (c : CmdIn) : Ack :=
  if c.zeroFrom 1 = false then .refuse sEARG 0 0
  else match h.host.maint with
    | .loop _ => .done h.loopStop []
    | _ => .refuse sESTATE h.maintAct 0

def execMaintEnd (src : CmdSrc) (tag : Byte) (s : State) : Host.Outcome State Fault Refusal :=
  s.on fun h => h.accept (mkCmd src 0x0C07 tag []) runMaintEnd

/-- `MAINT_FLASH_STAGE` (R455, R491): the service port's alone; the checks refuse it before its arguments are looked at. -/
def runFlashStage (_ : Hub) (_ : CmdIn) : Ack := .refuse sEDENIED 0 0

def execMaintFlashStage (src : CmdSrc) (tag : Byte) (s : State) : Host.Outcome State Fault Refusal :=
  s.on fun h => h.accept (mkCmd src 0x0C06 tag []) runFlashStage

/-! ## Dispatch (R465) -/

/-- Checks and effect of a command by its code; those of `TIME_SET`, `TIME_STEP`, `CAL_SWAP`, `PT_WRITE` and `PT_EVENT` are in
`doCmd`. -/
def runOf (code : Nat) : Hub → CmdIn → Ack :=
  match code with
  | 0x0101 => runNodeHello
  | 0x0102 => runNodeInfo
  | 0x0103 => runNodeReset
  | 0x0201 => runRingParade
  | 0x0202 => runRingLinkRestart
  | 0x0281 => runFence
  | 0x0282 => runMacFlush
  | 0x0301 => runTmQFlush
  | 0x0302 => runTmPolFill
  | 0x0401 => runCtxLoad
  | 0x0402 => runCtxStart
  | 0x0403 => runCtxStop
  | 0x0405 => runStrumStart
  | 0x0406 => runStrumStop
  | 0x0501 => runFretLoad
  | 0x0502 => runFretStart
  | 0x0503 => runFretStop
  | 0x0504 => runFretFlush
  | 0x0601 => runLaneStart
  | 0x0602 => runLaneStop
  | 0x0603 => runLaneFlush
  | 0x0604 => runLaneDout
  | 0x0701 => runCanStart
  | 0x0702 => runCanStop
  | 0x0703 => runCanFlush
  | 0x0704 => runCanRecover
  | 0x0803 => runTimePermit
  | 0x0804 => runTimeSlew
  | 0x0901 => runTwinResync
  | 0x0902 => runRevertHold
  | 0x0B01 => runNetOn
  | 0x0B02 => runNetOff
  | 0x0B03 => runNetClear
  | 0x0C01 => runRingLoop
  | 0x0C02 => runDrill
  | 0x0C03 => runNetGateTest
  | 0x0C04 => runLeakAudit
  | 0x0C05 => runScrubNow
  | 0x0C06 => runFlashStage
  | 0x0C07 => runMaintEnd
  | 0x0D01 => runPtRead
  | 0x0D04 => runPtSubOpen
  | 0x0D05 => runPtSubClose
  | 0x0D06 => runPtMapSet
  | _ => fun _ _ => .refuse sENOTSUP 0 0

/-- The acceptance of any command (R455). -/
def Hub.doCmd (h : Hub) (c : CmdIn) : Hub :=
  match c.code with
  | 0x0404 => h.calSwap c
  | 0x0801 => h.timeSet c
  | 0x0802 => h.timeStep c
  | 0x0D02 => h.acceptWrite c false
  | 0x0D03 => h.acceptWrite c true
  | code => h.accept c (runOf code)

/-- The eight words of a command (R451). -/
def cmdOf (src : CmdSrc) (ws : List Word) : CmdIn :=
  let w0 := (ws.getD 0 0).toNat
  { src := src, code := w0 % 65536, tag := w0 / 65536 % 256, rsv := w0 / 2 ^ 24, args := ((ws.drop 1) ++ List.replicate 7 0).take 7 }

/-! ## Queues (R447 to R450) -/

/-- The queue to serve next (R448). -/
def Hub.nextQueue (h : Hub) : Option Nat :=
  ([1, 2, 3, 4].map fun i => (h.host.lastQ + i) % 4).find? fun q => h.hqOpen q && decide (h.hqWaiting q ≠ 0)

/-- The command in slot `HEAD` of a queue. -/
def Hub.hqHead (h : Hub) (q : Nat) : List Word :=
  let i := h.fld (Reg.HQ_CMD q) F.HQ_CMD_HEAD % 16 * 8
  (List.range 8).map fun j => h.rd (Reg.HQ_CMD_SLOT q (i + j))

/-- `COMMAND_TAKE` (R448): the next queue in turn is served; its command is taken, checked and started. -/
def Hub.commandTake (h : Hub) : Hub :=
  match h.nextQueue with
  | none => h
  | some q =>
    let ws := h.hqHead q
    let h := h.setFld (Reg.HQ_CMD q) F.HQ_CMD_HEAD ((h.fld (Reg.HQ_CMD q) F.HQ_CMD_HEAD + 1) % 32)
    let h := ({ h with host := { h.host with lastQ := q } } : Hub).count Reg.HOST_CNT_CMD
    h.doCmd (cmdOf (.queue (Fin.ofNat 4 q)) ws)

def execCommandTake (s : State) : Host.Outcome State Fault Refusal := s.on Hub.commandTake

/-- `JNL_HOST_CMD` (R369): the standby executes the active's command and posts no response. -/
def execJnlHostCmd (jseq : Half) (act : Word) (q : Fin 4) (ws : List Word) (s : State) : Host.Outcome State Fault Refusal :=
  s.on fun h => h.jnlApply jseq.toNat act.toNat fun h => h.doCmd (cmdOf (.journal q) ws)

def Hub.hostRefuse (h : Hub) : Hub := h.evt Reg.HOST_EVT F.HOST_EVT_WRITE_REFUSED

/-- The path code of an accessor, as `HQ_CFG.PATH` has it; the control core's 3 is bound to no queue. -/
def pathCode : HostPath → Nat
  | .pcie => 0
  | .qspi => 1
  | .core => 3

/-- The straps enable a path (R440, R507); the control core's way is always open. -/
def Hub.pathOn (h : Hub) : HostPath → Bool
  | .pcie => h.fld Reg.GLB_STRAPS F.GLB_STRAPS_HOST_SEL % 2 == 1
  | .qspi => decide (2 ≤ h.fld Reg.GLB_STRAPS F.GLB_STRAPS_HOST_SEL)
  | .core => true

/-- Whether a path's accesses beyond the `GLB` registers are served (R440, R475, R487). -/
def Hub.pathOpen (h : Hub) (p : HostPath) : Bool := p == .core || (h.pathOn p && h.hostOpen)

/-- The path is the one to which the queue is bound, and not the reserved one. -/
def Hub.ownsQueue (h : Hub) (p : HostPath) (q : Nat) : Bool := p != .core && h.fld (Reg.HQ_CFG q) F.HQ_CFG_PATH == pathCode p

/-- `HQ_TAIL_WRITE` (R447). -/
def Hub.hqTail (h : Hub) (q : Nat) (p : HostPath) (w : Word) : Hub :=
  let t := bits w F.HQ_CMD_TAIL
  if h.pathOpen p = false then h
  else if h.ownsQueue p q = false then h.hostRefuse
  else if 16 < (t + 32 - h.fld (Reg.HQ_CMD q) F.HQ_CMD_HEAD) % 32 then
    (h.evt Reg.HOST_EVT F.HOST_EVT_CREDIT_OVERRUN).count Reg.HOST_CNT_CREDIT_OVERRUN
  else h.setFld (Reg.HQ_CMD q) F.HQ_CMD_TAIL t

def execHqTailWrite (q : Fin 4) (p : HostPath) (w : Word) (s : State) : Host.Outcome State Fault Refusal := s.on fun h => h.hqTail q p w

/-- `HQ_HEAD_WRITE` (R447, R448). -/
def Hub.hqHeadWrite (h : Hub) (q : Nat) (p : HostPath) (w : Word) : Hub :=
  let t := bits w F.HQ_RSP_HEAD
  if h.pathOpen p = false then h
  else if h.ownsQueue p q = false ∨ h.hqUnread q < (t + 32 - h.fld (Reg.HQ_RSP q) F.HQ_RSP_HEAD) % 32 then h.hostRefuse
  else h.setFld (Reg.HQ_RSP q) F.HQ_RSP_HEAD t

def execHqHeadWrite (q : Fin 4) (p : HostPath) (w : Word) (s : State) : Host.Outcome State Fault Refusal :=
  s.on fun h => h.hqHeadWrite q p w

/-- A write of `HQ_CFG` (R450): clearing `EN` discards the commands not yet taken. -/
def Hub.hqCfgWrite (h : Hub) (q : Nat) (w : Word) : Hub :=
  let en := h.flag (Reg.HQ_CFG q) F.HQ_CFG_EN
  let h := h.regWrite (Reg.HQ_CFG q) w en Hub.hostRefuse
  if en = true ∧ bits w F.HQ_CFG_EN = 0 then h.setFld (Reg.HQ_CMD q) F.HQ_CMD_HEAD (h.fld (Reg.HQ_CMD q) F.HQ_CMD_TAIL) else h

/-- `HQ_DISABLE` (R450): a write of a queue's configuration word that clears `EN`. -/
def execHqDisable (q : Fin 4) (w : Word) (s : State) : Host.Outcome State Fault Refusal :=
  s.on fun h => h.hqCfgWrite q (putBits w F.HQ_CFG_EN 0)

end Sys2Proof.Machine
end

