-- ==== Sys2Proof/Machine/Views.lean ====
section
/-! DEFINITION. What a read of a W0 register word returns, and the levels of the pins that follow the state: flow control, RTS and
`HOST_IRQ_N`. Words that only show state are composed here; every other word reads as it is stored. -/

namespace Sys2Proof.Machine

/-- A word with several fields put in. -/
def putAll (w : Word) (l : List ((Nat × Nat) × Nat)) : Word := l.foldl (fun w x => putBits w x.1 x.2) w

/-- A word with bit `i` set where `p` holds, of 32 things from `base` on. -/
def maskWord (base : Nat) (p : Nat → Bool) : Word := word ((List.range 32).foldl (fun m i => if p (base + i) then m + 2 ^ i else m) 0)

/-! ## Queues that software sees (R231, R235, R237) -/

/-- A queue of the hub by kind and number: 0 lane receive, 1 lane transmit, 2 Fret receive, 3 Fret transmit, 4 CAN receive, 5 CAN
transmit, 6 traffic, 7 the event FIFO. -/
structure QRef where
  kind : Nat
  n : Nat
  deriving DecidableEq, Repr

/-- Every queue of the hub. -/
def allQueues : List QRef :=
  [(0, 96), (1, 96), (2, 32), (3, 32), (4, 16), (5, 16), (6, 256), (7, 1)].flatMap fun (k, c) => (List.range c).map fun n => ⟨k, n⟩

def Hub.qCommon (h : Hub) (q : QRef) : QCommon :=
  match q.kind with
  | 0 => (h.lane q.n).rxq.c
  | 1 => (h.lane q.n).txq.c
  | 2 => (h.eng q.n).rxq.c
  | 3 => (h.eng q.n).txq.c
  | 4 => (h.can1 q.n).rxc
  | 5 => (h.can1 q.n).txc
  | 6 => (h.tq q.n).c
  | _ => h.tim.evc

/-- The depth of a queue: complete entries for CAN and the event FIFO, frames for traffic. -/
def Hub.qDepth (h : Hub) (q : QRef) : Nat :=
  match q.kind with
  | 0 => (h.lane q.n).rxq.items.length
  | 1 => (h.lane q.n).txq.items.length
  | 2 => (h.eng q.n).rxq.items.length
  | 3 => (h.eng q.n).txq.items.length
  | 4 => (h.can1 q.n).rxq.length
  | 5 => (h.can1 q.n).txq.length
  | 6 => (h.tq q.n).ents.length
  | _ => h.tim.evq.length

def Hub.setHigh (h : Hub) (q : QRef) (b : Bool) : Hub :=
  match q.kind with
  | 0 => let l := h.lane q.n
         h.setLane q.n { l with rxq := { l.rxq with c := { l.rxq.c with high := b } } }
  | 1 => let l := h.lane q.n
         h.setLane q.n { l with txq := { l.txq with c := { l.txq.c with high := b } } }
  | 2 => let g := h.eng q.n
         h.setEng q.n { g with rxq := { g.rxq with c := { g.rxq.c with high := b } } }
  | 3 => let g := h.eng q.n
         h.setEng q.n { g with txq := { g.txq with c := { g.txq.c with high := b } } }
  | 4 => let c := h.can1 q.n
         h.setCan q.n { c with rxc := { c.rxc with high := b } }
  | 5 => let c := h.can1 q.n
         h.setCan q.n { c with txc := { c.txc with high := b } }
  | 6 => let t := h.tq q.n
         h.setTq q.n { t with c := { t.c with high := b } }
  | _ => { h with tim := { h.tim with evc := { h.tim.evc with high := b } } }

/-- Watermark settings and marks of a queue whose configuration word at `cfg` and status word at `stat` have the layout that lane,
Fret and CAN queues share. -/
def Hub.itemWm (h : Hub) (cfg stat evt : Nat) (bit : Nat × Nat) : WmLoc :=
  { hi := h.fld cfg F.LN_RXQ_CFG_WM_HI, lo := h.fld cfg F.LN_RXQ_CFG_WM_LO, stat := stat, hiSeen := F.LN_RXQ_STAT_WM_HI_SEEN,
    loSeen := F.LN_RXQ_STAT_WM_LO_SEEN, cross := F.LN_RXQ_STAT_WM_CROSS, evt := evt, evtBit := bit }

def Hub.qWm (h : Hub) (q : QRef) : WmLoc :=
  match q.kind with
  | 0 => h.itemWm (Reg.LN_RXQ_CFG q.n) (Reg.LN_RXQ_STAT q.n) (Reg.LN_EVT q.n) F.LN_EVT_RXQ_WM
  | 1 => h.itemWm (Reg.LN_TXQ_CFG q.n) (Reg.LN_TXQ_STAT q.n) (Reg.LN_EVT q.n) F.LN_EVT_TXQ_WM
  | 2 => h.itemWm (Reg.FR_RXQ_CFG q.n) (Reg.FR_RXQ_STAT q.n) (Reg.FR_EVT q.n) F.FR_EVT_RXQ_WM
  | 3 => h.itemWm (Reg.FR_TXQ_CFG q.n) (Reg.FR_TXQ_STAT q.n) (Reg.FR_EVT q.n) F.FR_EVT_TXQ_WM
  | 4 => h.itemWm (Reg.CAN_RXQ_CFG q.n) (Reg.CAN_RXQ_STAT q.n) (Reg.CAN_EVT q.n) F.CAN_EVT_RXQ_WM
  | 5 => h.itemWm (Reg.CAN_TXQ_CFG q.n) (Reg.CAN_TXQ_STAT q.n) (Reg.CAN_EVT q.n) F.CAN_EVT_TXQ_WM
  | 6 => h.tqWm q.n
  | _ => h.evqWm

/-- The flow-control pin that a queue drives while high, if any. -/
def Hub.qFco (h : Hub) (q : QRef) : Option Nat :=
  let item := fun (a : Nat) => if h.flag a F.LN_RXQ_CFG_FCO_EN then some (h.fld a F.LN_RXQ_CFG_FCO_SEL) else none
  match q.kind with
  | 0 => item (Reg.LN_RXQ_CFG q.n)
  | 1 => item (Reg.LN_TXQ_CFG q.n)
  | 2 => item (Reg.FR_RXQ_CFG q.n)
  | 3 => item (Reg.FR_TXQ_CFG q.n)
  | 4 => item (Reg.CAN_RXQ_CFG q.n)
  | 5 => item (Reg.CAN_TXQ_CFG q.n)
  | 6 => if h.flag (Reg.TM_Q_WM q.n) F.TM_Q_WM_FCO_EN then some (h.fld (Reg.TM_Q_WM q.n) F.TM_Q_WM_FCO_SEL) else none
  | _ => if h.flag Reg.EVQ_CFG F.EVQ_CFG_FCO_EN then some (h.fld Reg.EVQ_CFG F.EVQ_CFG_FCO_SEL) else none

/-- Flow-control pins asserted (R237), bit n for `FCOn`. -/
def Hub.fcoAsserted (h : Hub) : Nat :=
  allQueues.foldl (fun m q => if (h.qCommon q).high then (match h.qFco q with | some n => Nat.lor m (2 ^ n) | none => m) else m) 0

/-- Levels of the flow-control pins (R237): `INV` turns a pin's level over. -/
def Hub.fcoPins (h : Hub) : Nat := Nat.xor h.fcoAsserted (h.fld Reg.TM_FCO_CFG F.TM_FCO_CFG_INV)

/-- Level of pin C of a running `UART` lane as RTS (R93), none where it is no RTS line. -/
def Hub.rtsPin (h : Hub) (n : Nat) : Option Bool :=
  if h.lnMode n = 1 ∧ h.fld (Reg.LN_MODE n) F.LN_MODE_C_FUNC = 1 ∧ (h.lane n).st ≠ .stopped then
    some (h.flag (Reg.LN_RXQ_CFG n) F.LN_RXQ_CFG_RTS_EN && (h.lane n).rxq.c.high)
  else none

/-- The status word of a queue (R102, R126, R152, R260, R356): its marks as stored, its depth and live state. -/
def Hub.qStat (h : Hub) (q : QRef) : Word :=
  let hi := bitB (h.qCommon q).high
  let d := h.qDepth q
  let w := h.rd (h.qWm q).stat
  match q.kind with
  | 6 => putAll w [(F.TM_Q_STAT_DEPTH, d), (F.TM_Q_STAT_WM_STATE, hi)]
  | 7 => putAll w [(F.EVQ_STAT_DEPTH, d), (F.EVQ_STAT_WM_STATE, hi)]
  | _ => putAll w [(F.LN_RXQ_STAT_DEPTH, d), (F.LN_RXQ_STAT_WM_STATE, hi)]

/-! ## Views by block -/

/-- Vectors whose MSI-X table entry is masked (R459): bit 0 of the entry's fourth word. -/
def Hub.msixMasked (h : Hub) (v : Nat) : Bool := (h.rd (Reg.MSIX_TABLE (4 * v + 3))).toNat % 2 == 1

def Hub.hostView (h : Hub) (a : Nat) : Word :=
  if a = Reg.HOST_STAT then
    putAll 0 [(F.HOST_STAT_PATHS, bitB (h.pathOn .pcie) + bitB (h.pathOn .qspi) * 2 + bitB h.usbPath * 4),
      (F.HOST_STAT_PCIE_GEN, h.host.pcieGen), (F.HOST_STAT_PCIE_WIDTH, h.host.pcieWidth), (F.HOST_STAT_PCIE_UP, bitB h.host.pcieUp),
      (F.HOST_STAT_MAINT_ACT, h.maintAct)]
  else if a = Reg.MSIX_PBA then maskWord 0 fun v => testBit h.vectors v && h.msixMasked v
  else h.rd a

def Hub.timeView (h : Hub) (a : Nat) : Word :=
  match (List.range 4).find? fun b => a == Reg.TB_STAT b with
  | some b => word (h.tbStat b)
  | none => if a = Reg.EVQ_STAT then h.qStat ⟨7, 0⟩ else h.rd a

/-- `RING_STAT` (R327). -/
def Hub.ringStat (h : Hub) : Word :=
  let r := h.ring
  putAll 0 [(F.RING_STAT_NODE_ADDR, r.addr), (F.RING_STAT_STRAPPED, bitB r.strapped), (F.RING_STAT_LEADER, bitB r.leader),
    (F.RING_STAT_QUIET, bitB r.quiet), (F.RING_STAT_HOLDOFF, bitB (r.holdoff && r.upAt.isSome)), (F.RING_STAT_PARADE_GEN, r.gen),
    (F.RING_STAT_STATE, r.state.code), (F.RING_STAT_LEADER_ADDR, r.leaderAddr)]

/-- `RING_P_STAT` (R328). -/
def Hub.ringPStat (h : Hub) (p : Nat) : Word :=
  let r := h.rport p
  putAll 0 [(F.RING_P_STAT_LINK, r.link.code), (F.RING_P_STAT_VER, r.ver), (F.RING_P_STAT_PEER_ADDR, r.peerAddr),
    (F.RING_P_STAT_PEER_VER_MIN, r.peerMin), (F.RING_P_STAT_PEER_VER_MAX, r.peerMax), (F.RING_P_STAT_PEER_TWIN, bitB r.peerTwin),
    (F.RING_P_STAT_PAUSE_RX, bitB r.pauseRx)]

/-- `RING_NODE` of node `n` (R329). -/
def Hub.ringNode (h : Hub) (n : Nat) : Word :=
  let e := h.nodeEnt n
  putAll 0 [(F.RING_NODE_VER_MAX, e.verMax), (F.RING_NODE_PRESENT, bitB e.present), (F.RING_NODE_HEARD, bitB (h.heard n)),
    (F.RING_NODE_TWIN, bitB e.twin), (F.RING_NODE_STRAPPED, bitB e.strapped)]

def Hub.ringView (h : Hub) (a : Nat) : Word :=
  if a = Reg.RING_STAT then h.ringStat
  else if Reg.RING_NODE 1 ≤ a ∧ a ≤ Reg.RING_NODE 254 then h.ringNode ((a - Reg.RING_NODE 0) / 4)
  else match (List.range 4).find? fun p => a == Reg.RING_P_STAT p with
    | some p => h.ringPStat p
    | none => h.rd a

/-- `SWC` words; those of port 3 are reserved (R285). -/
def Hub.swcView (h : Hub) (a : Nat) : Word :=
  let c := h.swc
  if a = Reg.SWC_STAT then
    putAll 0 [(F.SWC_STAT_FREE_CELLS, h.freeCells), (F.SWC_STAT_AUDIT_BUSY, bitB c.auditBusy), (F.SWC_STAT_AUDIT_EPOCH, bitB c.auditEpoch),
      (F.SWC_STAT_FENCE_PEND, h.fencePend)]
  else if a = Reg.SWC_GEN then
    putAll 0 [(F.SWC_GEN_GEN_ROUTE, h.genOf 0), (F.SWC_GEN_GEN_GROUP, h.genOf 1), (F.SWC_GEN_GEN_MAC, h.genOf 2)]
  else if Reg.SWC_GEN_CNT 0 0 ≤ a ∧ a ≤ Reg.SWC_GEN_CNT 2 15 then
    let i := (a - Reg.SWC_GEN_CNT 0 0) / 4
    putBits 0 F.SWC_GEN_CNT_COUNT (tget 0 c.genCnt i)
  else if Reg.SWC_P_CFG 3 ≤ a ∧ a < Reg.SWC_P_CFG 4 then 0
  else match (List.range 7).find? fun p => a == Reg.SWC_P_STAT p with
    | some p => putBits 0 F.SWC_P_STAT_IN_CELLS (h.inHeld p)
    | none => h.rd a

def Hub.tmView (h : Hub) (a : Nat) : Word :=
  if a = Reg.TM_FCO_STATE then word h.fcoAsserted
  else if Reg.TM_WM_PEND 0 ≤ a ∧ a ≤ Reg.TM_WM_PEND 7 then
    maskWord ((a - Reg.TM_WM_PEND 0) * 8) fun q =>
      h.flag (Reg.TM_Q_STAT q) F.TM_Q_STAT_WM_HI_SEEN || h.flag (Reg.TM_Q_STAT q) F.TM_Q_STAT_WM_LO_SEEN
  else if 0x21000 ≤ a ∧ a < 0x23000 ∧ a % 0x20 = 0x14 then h.qStat ⟨6, (a - 0x21000) / 0x20⟩
  else if 0x25000 ≤ a ∧ a < 0x26000 ∧ a % 0x10 = 8 then
    putBits 0 F.POL_TOKENS ((h.refill ((a - 0x25000) / 0x10)).tokens / 8000000)
  else h.rd a

/-- `CTX_STAT` (R183). -/
def Hub.ctxStat (h : Hub) (c : Nat) : Word :=
  let x := h.ctx c
  putAll (h.rd (Reg.CTX_STAT c)) [(F.CTX_STAT_STATE, x.st.code), (F.CTX_STAT_LATE, bitB x.late), (F.CTX_STAT_STAGED, x.stage.length),
    (F.CTX_STAT_FAULT_CAUSE, x.cause)]

def Hub.carView (h : Hub) (a : Nat) : Word :=
  if a = Reg.CAR_STAT then word h.carStat
  else if Reg.CAR_FAULT_PEND 0 ≤ a ∧ a ≤ Reg.CAR_FAULT_PEND 7 then
    maskWord ((a - Reg.CAR_FAULT_PEND 0) * 8) fun c => (h.ctx c).st == .faulted
  else if Reg.CAR_LATE_PEND 0 ≤ a ∧ a ≤ Reg.CAR_LATE_PEND 7 then
    maskWord ((a - Reg.CAR_LATE_PEND 0) * 8) fun c => h.flag (Reg.CTX_STAT c) F.CTX_STAT_LATE_SEEN
  else if 0x32000 ≤ a ∧ a < 0x34000 ∧ a % 0x20 = 0x10 then h.ctxStat ((a - 0x32000) / 0x20)
  else if 0x32000 ≤ a ∧ a < 0x34000 ∧ a % 0x20 = 0x14 then
    let x := h.ctx ((a - 0x32000) / 0x20)
    putAll 0 [(F.CTX_PC_PC, x.pc), (F.CTX_PC_FAULT_PC, x.faultPc)]
  else h.rd a

/-- A lane's register at offset `o` (R102). -/
def Hub.laneReg (h : Hub) (n o : Nat) : Word :=
  let l := h.lane n
  match o with
  | 0x04 => putAll 0 [(F.LN_STAT_STATE, l.st.code), (F.LN_STAT_RX_BUSY, bitB l.hears), (F.LN_STAT_TX_BUSY, bitB (l.tx.on || decide (h.now < l.sentUntil))), (F.LN_STAT_DE, bitB l.de)]
  | 0x34 => putBits 0 F.LN_DIN_LEVEL ((below 3 fun i => h.pinLevel (3 * n + i)).foldl (fun m i => m + 2 ^ i) 0)
  | 0x3C => h.qStat ⟨0, n⟩
  | 0x48 => h.qStat ⟨1, n⟩
  | _ => h.rd (0x40000 + 0x100 * n + o)

def Hub.laneView (h : Hub) (a : Nat) : Word :=
  if a < 0x46000 then h.laneReg ((a - 0x40000) / 0x100) ((a - 0x40000) % 0x100)
  else if Reg.LANE_PEND 0 ≤ a ∧ a ≤ Reg.LANE_PEND 2 then maskWord ((a - Reg.LANE_PEND 0) * 8) fun n => h.evPend (Reg.LN_EVT n) (Reg.LN_EVT_EN n)
  else h.rd a

/-- An engine's register at offset `o` (R126). -/
def Hub.fretReg (h : Hub) (e o : Nat) : Word :=
  let g := (h.frSettle e).eng e
  match o with
  | 0x04 => putAll 0 [(F.FR_STAT_STATE, bitB g.run), (F.FR_STAT_STALLED, bitB (g.stall != 0)), (F.FR_STAT_STALL_ON, g.stall),
      (F.FR_STAT_I, bitB g.i), (F.FR_STAT_STOP_CAUSE, g.cause), (F.FR_STAT_PC, g.pc)]
  | 0x14 => g.txs
  | 0x18 => g.rxs
  | 0x1C => putAll 0 [(F.FR_CNTS_TXC, g.txc), (F.FR_CNTS_RXC, g.rxc)]
  | 0x20 => g.a
  | 0x24 => g.b
  | 0x34 => h.qStat ⟨3, e⟩
  | 0x44 => h.qStat ⟨2, e⟩
  | _ => h.rd (0x48000 + 0x80 * e + o)

def Hub.fretView (h : Hub) (a : Nat) : Word :=
  if a < 0x49000 then h.fretReg ((a - 0x48000) / 0x80) ((a - 0x48000) % 0x80)
  else if a = Reg.FRET_PEND then maskWord 0 fun e => h.evPend (Reg.FR_EVT e) (Reg.FR_EVT_EN e)
  else if a = Reg.FRET_GFLAG then word (bitsN h.flagsNow 128 16)
  else if 0x4A000 ≤ a ∧ a % 0x400 = 0x200 then word (bitsN h.flagsNow (16 * ((a - 0x4A000) / 0x400)) 16)
  else h.rd a

def Hub.canView (h : Hub) (a : Nat) : Word :=
  let n := (a - 0x50000) / 0x400
  let c := h.can1 n
  match (a - 0x50000) % 0x400 with
  | 0x04 => putAll 0 [(F.CAN_STAT_STATE, c.st.code), (F.CAN_STAT_RX_BUSY, bitB c.rxBusy), (F.CAN_STAT_TX_BUSY, bitB c.cur.isSome),
      (F.CAN_STAT_TEC, c.tec), (F.CAN_STAT_REC, c.rec_)]
  | 0x24 => h.qStat ⟨5, n⟩
  | 0x34 => h.qStat ⟨4, n⟩
  | _ => h.rd a

def Hub.crcView (h : Hub) (a : Nat) : Word :=
  let u := (a - 0x58400) / 0x20
  if 0x58400 ≤ a ∧ a < 0x58600 ∧ a % 0x20 = 4 then word (h.snoopResult u)
  else if 0x58400 ≤ a ∧ a < 0x58600 ∧ a % 0x20 = 0x10 then word (h.snoop u).count
  else h.rd a

def Hub.usbView (h : Hub) (a : Nat) : Word :=
  if a = Reg.USB_STAT then h.usbStat
  else match (List.range 8).find? fun i => a == Reg.USB_P_STAT (i + 1) with
    | some i => h.uportStat i
    | none =>
      if 0x60414 ≤ a ∧ a < 0x60500 ∧ a % 8 = 4 then h.uepStat ((a - 0x60400) / 0x10) ((a - 0x60400) % 0x10 / 8) else h.rd a

/-- `NET` reads; they return 0 while `VIN_NET` is below its lock-out threshold, and until the in-package link is live (R434, R20). -/
def Hub.netView (h : Hub) (a : Nat) : Word :=
  let n := (a - 0x68000) / 0x80
  let c := h.net1 n
  if h.net.locked then 0
  else if a < 0x68800 then
    match (a - 0x68000) % 0x80 with
    | 0x18 => h.netStat n
    | 0x20 => putAll 0 [(F.NET_N_V_VOUT_MV, c.vout), (F.NET_N_V_VS_MV, c.vs)]
    | 0x24 => putBits 0 F.NET_N_VGS_VGS c.vgs
    | _ => h.rd a
  else if a = Reg.NET_PEND then word (maskWord 0 fun n => decide (n < 16) && h.evPend (Reg.NET_N_EVT n) (Reg.NET_N_EVT_EN n)).toNat
  else if a = Reg.NET_STAT then
    putAll 0 [(F.NET_STAT_VIN_MV, h.net.vin), (F.NET_STAT_OSC, bitB h.net.osc), (F.NET_STAT_HOLD, h.fld Reg.GLB_STRAPS F.GLB_STRAPS_NET_HOLD),
      (F.NET_STAT_LINK_OK, bitB h.net.linkOk)]
  else h.rd a

def TagState.code : TagState → Nat
  | .free => 0 | .pending => 1 | .quarantine => 2

def Hub.ptmView (h : Hub) (a : Nat) : Word :=
  if a = Reg.PTM_STAT then
    putAll 0 [(F.PTM_STAT_MAP_LOADED, bitB h.pt.mapLoaded), (F.PTM_STAT_TAGS_IN_USE, (h.pt.tags.filter fun x => x.2.st != .free).length)]
  else if 0x71000 ≤ a ∧ a < 0x71800 then
    let g := h.tag ((a - 0x71000) / 8)
    if a % 8 = 0 then
      putAll 0 [(F.PTM_TAG0_STATE, g.st.code), (F.PTM_TAG0_KIND, g.kind.code), (F.PTM_TAG0_ORIGIN, g.origin), (F.PTM_TAG0_NODE, g.node),
        (F.PTM_TAG0_POINT, g.point)]
    else putAll 0 [(F.PTM_TAG1_STATUS, g.status), (F.PTM_TAG1_TRIES, g.tries)]
  else if 0x78000 ≤ a ∧ a % 8 = 0 then putBits (h.rd a) F.PTM_SUB0_STATE (h.subSt ((a - 0x78000) / 8)).code
  else h.rd a

/-- What the word at W0 byte address `a` reads as; reads with an effect of their own (R116, R146, R162, R342, R355) are `readWord`'s. -/
def Hub.view (h : Hub) (a : Nat) : Word :=
  if 0xC0000 ≤ a then word (leNat (mread 0 h.car.data (a - 0xC0000) 4))
  else if 0x80000 ≤ a then h.progWord ((a - 0x80000) / 4)
  else match a / 0x4000 with
    | 0 => if a = Reg.GLB_CLK_STAT then h.clkStat else h.rd a
    | 1 => h.hostView a
    | 2 => h.timeView a
    | 3 => if a = Reg.TWIN_STAT then h.twinStat else h.rd a
    | 4 => h.ringView a
    | 6 => h.swcView a
    | 8 | 9 => h.tmView a
    | 12 | 13 => h.carView a
    | 16 | 17 => h.laneView a
    | 18 | 19 => h.fretView a
    | 20 | 21 => h.canView a
    | 22 => h.crcView a
    | 24 => h.usbView a
    | 26 => h.netView a
    | 28 | 29 | 30 | 31 => h.ptmView a
    | _ => h.rd a

end Sys2Proof.Machine
end

