-- ==== Sys2Proof/Machine/Dma.lean ====
section
/-! DEFINITION. The PCIe endpoint: its link, MSI-X messages, and frame DMA on `P4` (R442, R459 to R462, R504). -/

namespace Sys2Proof.Machine

/-! ## MSI-X (R459) -/

/-- Send the messages of vectors; without a link nothing leaves. -/
def Hub.msixSend (h : Hub) (vs : List Nat) : Hub := if h.host.pcieUp then vs.foldl (fun h v => h.emit (.msix v)) h else h

/-- Follow the asserted vectors: one that has become asserted while unmasked sends its message. -/
def Hub.irqSync (h : Hub) : Hub :=
  let v := h.vectors
  let rise := below 32 fun i => testBit v i && !testBit h.host.asserted i && !h.msixMasked i
  ({ h with host := { h.host with asserted := v } } : Hub).msixSend rise

/-- A write of word `i` of the MSI-X table: a vector that is unmasked while asserted sends its message. -/
def Hub.msixWrite (h : Hub) (i : Nat) (w : Word) : Hub :=
  let v := i / 4
  if i % 4 = 3 ∧ h.msixMasked v = true ∧ w.toNat % 2 = 0 then
    let h := h.irqSync.wr (Reg.MSIX_TABLE i) w
    if testBit h.host.asserted v then h.msixSend [v] else h
  else h.wr (Reg.MSIX_TABLE i) w

/-- `MSIX_VECTOR_UNMASK` (R459): the mask bit of a vector's table entry is cleared. -/
def execMsixVectorUnmask (v : Fin 32) (s : State) : Host.Outcome State Fault Refusal :=
  s.on fun h =>
    if h.pathOpen .pcie then h.msixWrite (4 * v + 3) (putBits (h.rd (Reg.MSIX_TABLE (4 * v + 3))) (0, 1) 0) else h

/-! ## The link (R440, R442, R484, R504, R535) -/

/-- `PCIE_LINK_UP`: an enabled endpoint that holds its identity and is not in reset has trained its link. -/
def Hub.pcieTrain (h : Hub) (gen2 x2 : Bool) : Hub :=
  if h.pathOn .pcie = false ∨ h.glb.inCold = true ∨ h.glb.pllHold = true ∨ h.host.perst = true ∨
      h.flag Reg.GLB_BOOT F.GLB_BOOT_IDENT_BAD = true then h
  else { h with host := { h.host with pcieUp := true, pcieGen := 1 + bitB gen2, pcieWidth := 1 + bitB x2 } }

def execPcieLinkUp (gen2 x2 : Bool) (s : State) : Host.Outcome State Fault Refusal := s.on fun h => h.pcieTrain gen2 x2

/-- `PCIE_PERST` (R504): low, the endpoint is in fundamental reset: its link is down and its MSI-X table is as at reset. Nothing
else in the hub is reset. -/
def Hub.pciePerst (h : Hub) (low : Bool) : Hub :=
  if low then
    { h with regs := h.regs.filter (fun x => !msixPage x.1),
             host := { h.host with perst := true, pcieUp := false, pcieGen := 0, pcieWidth := 0 } }
  else { h with host := { h.host with perst := false } }

def execPciePerst (low : Bool) (s : State) : Host.Outcome State Fault Refusal := s.onAny fun h => h.pciePerst low

/-! ## Descriptor rings (R460) -/

/-- Descriptors of a ring: 2 to the power of its size word, which runs from 4 to 12. -/
def Hub.dmaRing (h : Hub) (a : Nat) : Nat := 2 ^ max 4 (min 12 (h.fld a F.DMA_TX_SIZE_TX_SIZE_LOG2))

/-- A write of a ring's tail: one that would fill the ring is ignored. -/
def Hub.dmaTail (h : Hub) (size tail head : Nat) (p : HostPath) (w : Word) : Hub :=
  let n := h.dmaRing size
  let t := bits w F.DMA_TX_TAIL % n
  if h.pathOpen p = false then h
  else if (t + 1) % n = h.fld head F.DMA_TX_HEAD % n then h.evt Reg.HOST_EVT F.HOST_EVT_CREDIT_OVERRUN
  else h.setFld tail F.DMA_TX_TAIL t

def Hub.dmaTxTail (h : Hub) (p : HostPath) (w : Word) : Hub := h.dmaTail Reg.DMA_TX_SIZE Reg.DMA_TX_TAIL Reg.DMA_TX_HEAD p w
def Hub.dmaRxTail (h : Hub) (p : HostPath) (w : Word) : Hub := h.dmaTail Reg.DMA_RX_SIZE Reg.DMA_RX_TAIL Reg.DMA_RX_HEAD p w

def execDmaTxTailWrite (p : HostPath) (w : Word) (s : State) : Host.Outcome State Fault Refusal := s.on fun h => h.dmaTxTail p w
def execDmaRxTailWrite (p : HostPath) (w : Word) (s : State) : Host.Outcome State Fault Refusal := s.on fun h => h.dmaRxTail p w

/-- Bus address of descriptor `i` of the ring whose base words stand at `lo` and `hi`. -/
def Hub.dmaAddr (h : Hub) (lo hi i : Nat) : Nat := ((h.rd hi).toNat * 2 ^ 32 + (h.rd lo).toNat + 32 * i) % 2 ^ 64

/-- A posted descriptor of a ring is there to be used. -/
def Hub.dmaReady (h : Hub) (en : Nat × Nat) (tail head : Nat) : Bool :=
  h.hostOpen && h.flag Reg.DMA_CTL en && h.host.pcieUp && h.fld head F.DMA_TX_HEAD != h.fld tail F.DMA_TX_TAIL

/-- The head of a ring moves on. -/
def Hub.dmaNext (h : Hub) (size head : Nat) : Hub :=
  h.setFld head F.DMA_TX_HEAD ((h.fld head F.DMA_TX_HEAD + 1) % h.dmaRing size)

/-! ## Transmit (R461) -/

/-- Write `DSTAT` of the descriptor at the head, and advance. -/
def Hub.dmaTxDone (h : Hub) (dstat : Nat) : Hub :=
  let a := h.dmaAddr Reg.DMA_TX_BASE_LO Reg.DMA_TX_BASE_HI (h.fld Reg.DMA_TX_HEAD F.DMA_TX_HEAD) + 20
  let h := ((h.emit (.dma a (leBytes 4 dstat))).dmaNext Reg.DMA_TX_SIZE Reg.DMA_TX_HEAD).evt Reg.HOST_EVT F.HOST_EVT_DMA_TX_DONE
  if dstat = 0 then h.count Reg.HOST_CNT_DMA_TX else (h.count Reg.HOST_CNT_DMA_DROP).evt Reg.HOST_EVT F.HOST_EVT_DMA_ERR

/-- `DMA_TX_DESCRIPTOR`: words 2 to 4 of the descriptor at the head, and the buffer it points to. The frame enters on `P4`, where it waits for
cells and for credit of its queue (R232, R268); the next descriptor is read when it has been placed. -/
def Hub.dmaTx (h : Hub) (w2 w3 w4 : Word) (buf : List Byte) : Hub :=
  if h.dmaReady F.DMA_CTL_TX_EN Reg.DMA_TX_TAIL Reg.DMA_TX_HEAD = false ∨ h.host.dma.isSome = true then h else
  let len := bits w2 (0, 11)
  let q := bits w2 (16, 8)
  let lt := if bits w2 (24, 1) = 1 then some (w3.toNat + bits w4 (0, 8) * 2 ^ 32) else none
  let bs := padTo 60 (padTo len (buf.take len))
  if len < 60 ∨ 2044 < len then h.dmaTxDone 2
  else
    let (h, id) := h.enterOwn 4 { bytes := bs, own := h.isNrp bs, launch := lt, cls := h.tqClass q } q none false
    { h with host := { h.host with dma := some (q, id) } }

/-- The frame has been placed, or dropped by a policer or on placement (R248, R240, log entry 37); while it waits nothing is done. -/
def Hub.dmaSettle (h : Hub) : Hub :=
  match h.host.dma with
  | some (q, id) =>
    if (h.swc.own.any fun x => x.id == id) || (h.tq q).waiting.contains id then h
    else ({ h with host := { h.host with dma := none } } : Hub).dmaTxDone (if (h.tq q).holds id then 0 else 1)
  | none => h

def execDmaTxDescriptor (w2 w3 w4 : Word) (buf : List Byte) (s : State) : Host.Outcome State Fault Refusal :=
  s.on fun h => h.dmaTx w2 w3 w4 buf

/-! ## Receive (R462) -/

/-- Words 3 and 4 of a receive descriptor: the receive stamp on `TS_TB`; a frame that came in by no port has none, and the
specification states no value for it (log entry 4). -/
def Hub.dmaStamp (h : Hub) (f : Frame) : List Word × Hub :=
  match f.stamps[h.fld Reg.DMA_CTL F.DMA_CTL_TS_TB]? with
  | some t =>
    let s := t / 65536 % 2 ^ 40
    ([word s, word (s / 2 ^ 32)], h)
  | none => ([h.freeNow, h.tick.freeNow &&& 0xFF], h.tick.tick)

/-- `DMA_RX_FRAME`: the next frame that `P4` takes goes to the posted descriptor, whose buffer lies at `addr`. -/
def Hub.dmaRx (h : Hub) (addr : Nat) : Hub :=
  let h := h.endTx 4
  if h.dmaReady F.DMA_CTL_RX_EN Reg.DMA_RX_TAIL Reg.DMA_RX_HEAD = false ∨ h.portFree 4 = false then h else
  match h.normalHead 4 with
  | none => h
  | some (q, id, second) =>
    let f := h.frame id
    let bs := h.copyBytes 4 q (h.finishDraft f (h.launchDelta 4 q f))
    let h := h.sendCopy 4 q id second
    let (ts, h) := h.dmaStamp f
    let w2 := word (bs.length + q * 2 ^ 16 + f.inPort * 2 ^ 24 + 2 ^ 31)
    let a := h.dmaAddr Reg.DMA_RX_BASE_LO Reg.DMA_RX_BASE_HI (h.fld Reg.DMA_RX_HEAD F.DMA_RX_HEAD_DMA_TX_HEAD)
    let h := (h.emit (.dma addr bs)).emit (.dma (a + 8) ((w2 :: ts).flatMap fun w => leBytes 4 w.toNat))
    ((h.dmaNext Reg.DMA_RX_SIZE Reg.DMA_RX_HEAD).evt Reg.HOST_EVT F.HOST_EVT_DMA_RX).count Reg.HOST_CNT_DMA_RX

def execDmaRxFrame (addr : Dword) (s : State) : Host.Outcome State Fault Refusal := s.on fun h => h.dmaRx addr.toNat

end Sys2Proof.Machine
end

