-- ==== Sys2Proof/Machine/Window.lean ====
section
/-! DEFINITION. The register window W0 as an accessor sees it: reads with their effects, writes field by field or by the rule of the
word, and the quad-SPI transfers (R4, R441 to R446, R475, R533). -/

namespace Sys2Proof.Machine

/-! ## Reads -/

/-- Read the word at `a`, with what the read does: a pop (R116, R146, R342), the latch of the seconds (R355). `CAR_SCR_DATA` is read in a slot
of context 254 (`Hub.scrServe`). -/
def Hub.readWord (h : Hub) (a : Nat) : Word × Hub :=
  if a = Reg.EVQ_POP then h.evqPop
  else match (List.range 4).find? fun b => a == Reg.TB_NOW_NS b with
    | some b => h.nowRead b
    | none =>
      if a / 0x1000 = 0x48 ∧ a % 0x80 = 0x4C then h.frHostPop ((a - 0x48000) / 0x80)
      else if a / 0x4000 = 0x14 ∧ a % 0x400 = 0x3C then h.canHostPop ((a - 0x50000) / 0x400)
      else (h.view a, h)

/-- A path is served at address `a`: `GLB` reads from the end of a cold reset on, everything else from `READY` on (R440, R475, R487). -/
def Hub.readOpen (h : Hub) (p : HostPath) (a : Nat) : Bool := h.pathOpen p || (h.pathOn p && decide (a < 0x4000) && !h.glb.inCold)

/-- A read over a path. -/
def Hub.pathRead (h : Hub) (p : HostPath) (a : Nat) : Word × Hub := if h.readOpen p a then h.readWord a else (0, h)

/-- The words of a quad-SPI burst from `a` on: `n` bytes after those in `out`. The word `CAR_SCR_DATA`, and with it the rest of the burst,
waits for its slot (R162). -/
def Hub.qspiTake : Nat → Hub → Nat → List Byte → Nat → Hub
  | 0, h, _, out, _ => h.emit (.bytes out)
  | k + 1, h, a, out, n =>
    if n = 0 then h.emit (.bytes out)
    else if a = Reg.CAR_SCR_DATA ∧ h.readOpen .qspi a = true then h.scrQueue none (some { head := out, next := a + 4, left := n }) true
    else
      let r := h.pathRead .qspi a
      Hub.qspiTake k r.2 (a + 4) (out ++ (leBytes 4 r.1.toNat).take n) (n - 4)

/-- Context 254 performs the oldest host access to shared scratch in one of its slots (R162). -/
def Hub.scrServe (h : Hub) : Hub :=
  match h.car.scr with
  | r :: rest =>
    if h.ownsSlot 254 then
      let h := { h with car := { h.car with scr := rest } }.useSlot
      let bs := mread 0 h.car.scratch (4 * r.addr) 4
      match r.val, r.burst with
      | some w, _ => { h with car := { h.car with scratch := mwrite 0 h.car.scratch (4 * r.addr) (leBytes 4 w.toNat) } }
      | none, none => h.emit (.words [word (leNat bs)])
      | none, some b => Hub.qspiTake (b.left + 1) h b.next (b.head ++ bs.take b.left) (b.left - 4)
    else h
  | [] => h

def Hub.scrAsk (h : Hub) (val : Option Word) (qspi : Bool) : Hub := (h.scrQueue val none qspi).scrServe

def execScrDataRead (s : State) : Host.Outcome State Fault Refusal := s.on fun h => h.scrAsk none false
def execScrDataWrite (w : Word) (s : State) : Host.Outcome State Fault Refusal := s.on fun h => h.scrAsk (some w) false

/-- An access to W0 that is not an aligned 32-bit one (R443); before `READY` it sets no event (R475). -/
def Hub.badAccess (h : Hub) : Hub :=
  if h.hostOpen then (h.evt Reg.HOST_EVT F.HOST_EVT_BAD_ACCESS).count Reg.HOST_CNT_BAD_ACCESS else h

/-! ## Writes, block by block -/

/-- The status word of a queue is written: `CROSS_CLR` clears `WM_CROSS` (R236). -/
def Hub.qStatWrite (h : Hub) (q : QRef) (w : Word) : Hub :=
  let a := (h.qWm q).stat
  let h := h.regWrite a w false id
  let clr := if q.kind = 6 then bits w F.TM_Q_STAT_CROSS_CLR else bits w F.LN_RXQ_STAT_CROSS_CLR
  if clr = 1 then h.setFld a (h.qWm q).cross 0 else h

/-- `WM_CROSS_CLEAR` (R236): `CROSS_CLR` is written for queue `n` of a kind; the event FIFO's stands in its command word. -/
def Hub.crossClear (h : Hub) (q : QRef) : Hub := h.setFld (h.qWm q).stat (h.qWm q).cross 0

def execWmCrossClear (kind : Fin 8) (n : Byte) (s : State) : Host.Outcome State Fault Refusal :=
  s.on fun h => if allQueues.contains ⟨kind, n.toNat⟩ then h.crossClear ⟨kind, n.toNat⟩ else h

def Hub.hostPageWrite (h : Hub) (p : HostPath) (a : Nat) (w : Word) : Hub :=
  let dmaOn := h.flag Reg.DMA_CTL F.DMA_CTL_TX_EN || h.flag Reg.DMA_CTL F.DMA_CTL_RX_EN
  if 0x5000 ≤ a ∧ a < 0x6000 then
    let q := (a - 0x5000) / 0x400
    if (a - 0x5000) % 0x400 < 0x200 ∧ h.ownsQueue p q = true then h.wr a w else h.hostRefuse
  else if 0x6000 ≤ a ∧ a < 0x6200 then h.msixWrite ((a - 0x6000) / 4) w
  else if a = Reg.DMA_TX_TAIL then h.dmaTxTail p w
  else if a = Reg.DMA_RX_TAIL then h.dmaRxTail p w
  else match (List.range 4).find? fun q => decide (Reg.HQ_CFG q ≤ a ∧ a < Reg.HQ_CFG q + 16) with
    | some q =>
      if a = Reg.HQ_CFG q then h.hqCfgWrite q w
      else if a = Reg.HQ_CMD q then h.hqTail q p w
      else if a = Reg.HQ_RSP q then h.hqHeadWrite q p w
      else h
    | none => h.regWrite a w dmaOn Hub.hostRefuse

def Hub.timePageWrite (h : Hub) (a : Nat) (w : Word) : Hub :=
  let b := (a - 0x8100) / 0x40
  if 0x8100 ≤ a ∧ a < 0x8200 then
    if a = Reg.TB_JUMP b then h.jumpWrite b w
    else if a = Reg.TB_SRC b then h.srcWrite b w
    else if a = Reg.TB_FREQ b then h.freqWrite b w
    else if a = Reg.TB_SERVO b then h.servoWrite b w
    else h
  else if a = Reg.EVQ_CFG then h.evqCfgWrite w
  else if a = Reg.EVQ_CMD then
    let h := if bits w F.EVQ_CMD_CROSS_CLR = 1 then h.crossClear ⟨7, 0⟩ else h
    if bits w F.EVQ_CMD_FLUSH = 1 then h.evqFlush else h
  else if 0x8C00 ≤ a ∧ a < 0x8E00 then
    let k := (a - 0x8C00) / 0x20
    if a = Reg.PPO_CFG k then h.ppoWrite k w else h.regWrite a w (h.flag (Reg.PPO_CFG k) F.PPO_CFG_EN) Hub.timeRefuse
  else if 0x8E00 ≤ a ∧ a < 0x8E20 then
    let j := (a - 0x8E00) / 0x10
    if a = Reg.PPSO_CFG j then h.ppsoWrite j w else h.regWrite a w (h.flag (Reg.PPSO_CFG j) F.PPSO_CFG_EN) Hub.timeRefuse
  else h.regWrite a w false id

def Hub.ringPageWrite (h : Hub) (a : Nat) (w : Word) : Hub :=
  if a = Reg.RING_CTL then h.ringCtlWrite w
  else
    let h := h.regWrite a w h.ringOn fun h => h.evt Reg.RING_EVT F.RING_EVT_WRITE_REFUSED
    if a = Reg.RING_DD_CFG then (h.holdFld a F.RING_DD_CFG_DD_WINDOW 16 16384).holdFld a F.RING_DD_CFG_DD_AGE_US 100 16000
    else if a = Reg.RING_PAR_CFG then
      ((h.holdFld a F.RING_PAR_CFG_SRC_AGE_MS 1 1000).holdFld a F.RING_PAR_CFG_PARADE_WAIT_MS 1 1000).holdFld a F.RING_PAR_CFG_PARADE_TMO_MS 1 1000
    else h

def Hub.swcPageWrite (h : Hub) (a : Nat) (w : Word) : Hub :=
  if a = Reg.SWC_MAC_CMD then h.macCmdWrite w
  else if (a = Reg.SWC_MAC_LO ∨ a = Reg.SWC_MAC_HI ∨ a = Reg.SWC_MAC_DATA) ∧ h.swc.macOp.isSome = true then h.macHeld
  else if a = Reg.SWC_P_CFG 3 ∨ a = Reg.SWC_ROUTE 0 ∨ a = Reg.SWC_ROUTE 255 then h
  else
    let h := h.regWrite a w false id
    if a = Reg.SWC_AUDIT_CFG then h.holdFld a F.SWC_AUDIT_CFG_PERIOD_MS 1 1023 else h

def Hub.tmPageWrite (h : Hub) (a : Nat) (w : Word) : Hub :=
  if 0x21000 ≤ a ∧ a < 0x23000 then
    let q := (a - 0x21000) / 0x20
    if a = Reg.TM_Q_CFG q then h.tqCfgWrite q w
    else if a = Reg.TM_Q_STAT q then h.qStatWrite ⟨6, q⟩ w
    else h.regWrite a w (!h.tqStopped q) fun h => h.evt Reg.TM_EVT F.TM_EVT_WRITE_REFUSED
  else if 0x25000 ≤ a ∧ a < 0x26000 then
    let i := (a - 0x25000) / 0x10
    if a = Reg.POL_CFG i then h.polCfgWrite i w else if a = Reg.POL_CBS i then h.polCbsWrite i w else h
  else h.regWrite a w false id

def Hub.carPageWrite (h : Hub) (p : HostPath) (a : Nat) (w : Word) : Hub :=
  if 0x38000 ≤ a ∧ a < 0x38400 then h.calWrite false ((a - 0x38000) / 4) w
  else if 0x38400 ≤ a ∧ a < 0x38800 then h.calWrite true ((a - 0x38400) / 4) w
  else if 0x34000 ≤ a ∧ a < 0x38000 then
    let c := (a - 0x34000) / 0x40
    if 252 ≤ c then h else h.regWrite a w (!h.ctxStopped c) Hub.carRefuse
  else if 0x32000 ≤ a ∧ a < 0x34000 then
    let c := (a - 0x32000) / 0x20
    if 252 ≤ c then h else h.regWrite a w (!h.ctxStopped c) Hub.carRefuse
  else if a = Reg.CAR_SCR_DATA then h.scrAsk (some w) (p == .qspi)
  else h.regWrite a w h.car.strum Hub.carRefuse

/-- A write of `LN_PINCFG`: a pin whose `OWNER` returns to 0 is the lane's again (R104). -/
def Hub.pinCfgWrite (h : Hub) (n : Nat) (w : Word) : Hub :=
  let old := h
  let a := Reg.LN_PINCFG n
  let h := h.regWrite a w (decide ((h.lane n).st ≠ .stopped)) fun h => h.lnEvt n F.LN_EVT_WRITE_REFUSED
  let back := below 3 fun i => testBit (old.rd a).toNat (8 * i) && !testBit (h.rd a).toNat (8 * i)
  let h := back.foldl (fun (h : Hub) i => { h with fret := { h.fret with dir := tset false h.fret.dir (3 * n + i) false } }) h
  h.frDrive old (n / 12)

/-- A write of `LN_DOUT` (R102): the levels are held, and the lane's discrete outputs follow. -/
def Hub.doutWrite (h : Hub) (n : Nat) (w : Word) : Hub :=
  let h := h.setFld (Reg.LN_DOUT n) F.LN_DOUT_LEVEL (bits w F.LN_DOUT_LEVEL)
  let m := h.outMask n
  if m = 0 then h else h.drive (.line n (.dout m (Nat.land (bits w F.LN_DOUT_LEVEL) m)))

def Hub.lanePageWrite (h : Hub) (a : Nat) (w : Word) : Hub :=
  let n := (a - 0x40000) / 0x100
  if a < 0x46000 then
    if a = Reg.LN_DOUT n then h.doutWrite n w
    else if a = Reg.LN_PINCFG n then h.pinCfgWrite n w
    else if a = Reg.LN_RXQ_STAT n then h.qStatWrite ⟨0, n⟩ w
    else if a = Reg.LN_TXQ_STAT n then h.qStatWrite ⟨1, n⟩ w
    else h.regWrite a w (decide ((h.lane n).st ≠ .stopped)) fun h => h.lnEvt n F.LN_EVT_WRITE_REFUSED
  else if 0x46000 ≤ a ∧ a < 0x46020 ∧ (h.bankLanes ((a - 0x46000) / 4)).isEmpty = false then h
  else h.regWrite a w false id

def Hub.fretPageWrite (h : Hub) (a : Nat) (w : Word) : Hub :=
  let e := (a - 0x48000) / 0x80
  let k := (a - 0x4A000) / 0x400
  let o := (a - 0x4A000) % 0x400
  if a < 0x49000 then
    if a = Reg.FR_CTL e then h.frCtlWrite e w
    else if a = Reg.FR_TXQ_PUSH e then h.frHostPush e w
    else if a = Reg.FR_TXQ_STAT e then h.qStatWrite ⟨3, e⟩ w
    else if a = Reg.FR_RXQ_STAT e then h.qStatWrite ⟨2, e⟩ w
    else h.regWrite a w (h.eng e).run fun h => h.frEvt e F.FR_EVT_WRITE_REFUSED
  else if a = Reg.FRET_GFLAG_SET then h.flagsWrite 8 0 w
  else if a = Reg.FRET_GFLAG_CLR then h.flagsWrite 8 1 w
  else if a < 0x4A000 then h.regWrite a w false id
  else if o < 0x200 then h.frProgWrite k (o / 4) w
  else if o = 0x204 then h.flagsWrite k 0 w
  else if o = 0x208 then h.flagsWrite k 1 w
  else h

def Hub.canPageWrite (h : Hub) (a : Nat) (w : Word) : Hub :=
  let n := (a - 0x50000) / 0x400
  if a = Reg.CAN_TXQ_PUSH n then h.canHostPush n w
  else if a = Reg.CAN_TXQ_STAT n then h.qStatWrite ⟨5, n⟩ w
  else if a = Reg.CAN_RXQ_STAT n then h.qStatWrite ⟨4, n⟩ w
  else h.regWrite a w (decide ((h.can1 n).st ≠ .stopped)) fun h => h.canEvt n F.CAN_EVT_WRITE_REFUSED

def Hub.crcPageWrite (h : Hub) (a : Nat) (w : Word) : Hub :=
  let u := (a - 0x58400) / 0x20
  let e := 12 + (a - 0x58100) / 0x10
  if 0x58100 ≤ a ∧ a < 0x58140 then h.userPolyWrite e a w (h.laneUsesPoly e)
  else if 0x58400 ≤ a ∧ a < 0x58600 then
    if a = Reg.SNP_CFG u then h.snoopCfgWrite u w
    else if a = Reg.SNP_CMD u ∧ bits w F.SNP_CMD_INIT = 1 then h.snoopInit u
    else h
  else
    let h := h.regWrite a w false id
    if a = Reg.GRD_CFG then h.holdFld a F.GRD_CFG_ALIVE_K 1 7 else h

def Hub.usbPageWrite (h : Hub) (a : Nat) (w : Word) : Hub :=
  if a = Reg.USB_CTL then h.usbCtlWrite w
  else if (0x60100 ≤ a ∧ a < 0x60110) ∨ (0x60180 ≤ a ∧ a < 0x60190) ∨ (0x60400 ≤ a ∧ a < 0x60410) then h
  else h.regWrite a w (h.flag Reg.USB_CTL F.USB_CTL_ATTACH) Hub.usbRefuse

def Hub.ptmPageWrite (h : Hub) (a : Nat) (w : Word) : Hub :=
  if 0x78000 ≤ a then
    let st := h.subSt ((a - 0x78000) / 8)
    h.regWrite a w (st == .opening || st == .active) fun h => h.evt Reg.PTM_EVT F.PTM_EVT_WRITE_REFUSED
  else
    let h := h.regWrite a w false id
    if a = Reg.PTM_TXN_CFG then h.holdFld a F.PTM_TXN_CFG_TIMEOUT_US 100 16000000 else h

/-- Write the word at W0 byte address `a` over path `p`. -/
def Hub.writeWord (h : Hub) (p : HostPath) (a : Nat) (w : Word) : Hub :=
  if 0xC0000 ≤ a then h.ctxDataWrite ((a - 0xC0000) / 0x400) ((a - 0xC0000) % 0x400 / 4) w
  else if 0x80000 ≤ a then h.carProgWrite ((a - 0x80000) / 4) w
  else match a / 0x4000 with
    | 0 => if a = Reg.GLB_CLK_CTL then h.clkCtlWrite w else h.regWrite a w false id
    | 1 => h.hostPageWrite p a w
    | 2 => h.timePageWrite a w
    | 3 => h.twinWrite a w
    | 4 => h.ringPageWrite a w
    | 6 => h.swcPageWrite a w
    | 8 | 9 => h.tmPageWrite a w
    | 12 | 13 | 14 => h.carPageWrite p a w
    | 16 | 17 => h.lanePageWrite a w
    | 18 | 19 => h.fretPageWrite a w
    | 20 | 21 => h.canPageWrite a w
    | 22 => h.crcPageWrite a w
    | 24 => h.usbPageWrite a w
    | 26 => if h.net.locked then h else if a < 0x68800 then h.netWrite ((a - 0x68000) / 0x80) a w else h.regWrite a w false id
    | 28 | 29 | 30 | 31 => h.ptmPageWrite a w
    | _ => h

/-- The word that a write of `w` brings, where a write that comes after it in the order of R441 has been applied in this cycle: that one stands
in every field that holds what is written; a word without fields is its own field. -/
def afterLater (w later : Word) (fs : List RegField) : Word :=
  if fs.isEmpty then later
  else fs.foldl (fun x f => if f.acc = .rw ∨ f.acc = .rwl then putBits x (f.lo, f.width) (bits later (f.lo, f.width)) else x) w

/-- The word that a path which comes after `p` in the order of R441 has written at `a` in this cycle. -/
def Hub.laterWord (h : Hub) (p : HostPath) (a : Nat) : Option Word :=
  (h.host.wrote.find? fun x => x.2.1 == a && (if x.1 then p != .core else p == .pcie)).map fun x => x.2.2

/-- A write is noted for the rest of its cycle, where another path comes before its own. -/
def Hub.noteWord (h : Hub) (p : HostPath) (a : Nat) (w : Word) : Hub :=
  if p = .pcie then h else { h with host := { h.host with wrote := (p == .core, a, w) :: h.host.wrote } }

/-- Writes of one cycle are applied in the order PCIe, quad-SPI, control core (R441). -/
def Hub.putWord (h : Hub) (p : HostPath) (a : Nat) (w : Word) : Hub :=
  let w := match h.laterWord p a with
    | some x => afterLater w x (fieldsAt a)
    | none => w
  (h.writeWord p a w).noteWord p a w

/-- `GLB` writes remain in recovery (R487). -/
def Hub.writeOpen (h : Hub) (p : HostPath) (a : Nat) : Bool := h.pathOpen p || (h.pathOn p && decide (a < 0x4000) && h.ready)

/-- A write over a path. -/
def Hub.pathWrite (h : Hub) (p : HostPath) (a : Nat) (w : Word) : Hub := if h.writeOpen p a then h.putWord p a w else h

/-- `REGISTER_WRITE` (R443, R475, R533): a write of `w` with byte enables `be` at W0 byte address `a`. -/
def Hub.registerWrite (h : Hub) (p : HostPath) (a be : Nat) (w : Word) : Hub :=
  if a % 4 = 0 ∧ be = 15 then h.pathWrite p a w else if h.pathOn p then h.badAccess else h

def execRegisterWrite (p : HostPath) (a : BitVec 20) (be : BitVec 4) (w : Word) (s : State) : Host.Outcome State Fault Refusal :=
  s.on fun h => h.registerWrite p a.toNat be.toNat w

/-! ## Quad-SPI (R444 to R446) -/

/-- A malformed transfer. -/
def Hub.qspiBad (h : Hub) : Hub :=
  let h := { h with host := { h.host with qspiErr := true } }
  if h.hostOpen then h.evt Reg.HOST_EVT F.HOST_EVT_BAD_ACCESS else h

/-- The window an address names: 0 W0, 1 W2. -/
def qspiWindow (addr : Nat) : Option Nat := if addr < 2 ^ 20 then some 0 else if addr < 2 ^ 21 then some 1 else none

/-- Read `n` bytes from offset `o` of a window, behind the token; the first word counts as misaligned when the burst does not begin it
(R443). A burst on W2 is one read of its `n` bytes (log entry 14). -/
def Hub.qspiRead (h : Hub) (win o n : Nat) : Hub :=
  if win = 0 then
    if o % 4 = 0 then (Hub.qspiTake (n + 1) h o [0xA5] n).scrServe
    else (Hub.qspiTake (n + 1) h.badAccess (o + 4 - o % 4) (0xA5 :: List.replicate (min n (4 - o % 4)) 0) (n - (4 - o % 4))).scrServe
  else
    let r := h.w2Get o n
    r.2.emit (.bytes (0xA5 :: wordBytes r.1 (o % 4) n))

/-- `QSPI_READ`: the token, then the data; it stops at the end of its window. What a bad address returns is left open (log
entry 4). -/
def Hub.qspiReadXfer (h : Hub) (addr n : Nat) : Hub :=
  if h.pathOn .qspi = false ∨ h.glb.inCold = true then h else
  match qspiWindow addr with
  | none =>
    let h := h.qspiBad
    { h.emit (.bytes (0xA5 :: h.freeBytes n)) with freeCtr := h.freeCtr + n }
  | some win =>
    let o := addr % 2 ^ 20
    let m := min n (2 ^ 20 - o)
    let h := h.qspiRead win o m
    if m < n then h.qspiBad else h

def execQspiRead (addr : Word) (n : Nat) (s : State) : Host.Outcome State Fault Refusal := s.on fun h => h.qspiReadXfer addr.toNat n

/-- One word, or the part of one that the transfer holds, is written to a window. -/
def Hub.qspiPut (h : Hub) (win o : Nat) (bs : List Byte) : Hub :=
  if win = 0 then (if bs.length = 4 ∧ o % 4 = 0 then h.pathWrite .qspi o (word (leNat bs)) else h.badAccess)
  else h.w2Write o bs.length (word (leNat bs))

/-- The bytes of a write transfer, word by word. -/
def Hub.qspiPutAll : Nat → Hub → Nat → Nat → List Byte → Hub
  | 0, h, _, _, _ => h
  | k + 1, h, win, o, bs =>
    if bs.isEmpty then h
    else
      let n := 4 - o % 4
      Hub.qspiPutAll k (h.qspiPut win o (bs.take n)) win (o + n) (bs.drop n)

/-- `QSPI_WRITE`: a transfer with opcode 0x38, or with one the port does not know. -/
def Hub.qspiWriteXfer (h : Hub) (op : Byte) (addr : Nat) (bs : List Byte) : Hub :=
  if h.pathOn .qspi = false ∨ h.glb.inCold = true then h
  else if op ≠ 0x38 then h.qspiBad
  else match qspiWindow addr with
    | none => h.qspiBad
    | some win =>
      let o := addr % 2 ^ 20
      let room := 2 ^ 20 - o
      let h' := Hub.qspiPutAll (bs.length + 1) h win o (bs.take room)
      if room < bs.length ∨ (o + bs.length) % 4 ≠ 0 then h'.qspiBad else h'

def execQspiWrite (op : Byte) (addr : Word) (bs : List Byte) (s : State) : Host.Outcome State Fault Refusal :=
  s.on fun h => h.qspiWriteXfer op addr.toNat bs

/-- `QSPI_STATUS`: the status byte; it clears the error flag that it returns. A write waits to be applied where shared scratch is its
target (R162). -/
def Hub.qspiStatus (h : Hub) : Hub :=
  if h.pathOn .qspi = false ∨ h.glb.inCold = true then h
  else
    let waits := h.car.scr.any fun r => r.qspi && r.val.isSome
    { h.emit (.bytes [byte (bitB h.irqN + bitB h.host.qspiErr * 2 + bitB waits * 4)]) with host := { h.host with qspiErr := false } }

def execQspiStatus (s : State) : Host.Outcome State Fault Refusal := s.on Hub.qspiStatus

end Sys2Proof.Machine
end

