-- ==== Sys2Proof/Machine/Script.lean ====
section
/-! DEFINITION. The setup scripts of an image (R480, R485, R486): the control core applies their records in order. -/

namespace Sys2Proof.Machine

/-- A record of a setup script, with its length in bytes; `bad` is malformed (R480, R486). -/
inductive ScriptRec where
  | write (addr : Nat) (ws : List Word)
  | command (ws : List Word)
  | wait (us : Nat)
  | end_
  | bad
  deriving DecidableEq, Repr

/-- Words of the flash, in network byte order (R479). -/
def NonVol.words (nv : NonVol) (a n : Nat) : List Word := (List.range n).map fun i => word (beNat (nv.bytes (a + 4 * i) 4))

/-- The record at offset `off` of a section at flash address `a` and of length `len`, and its length in bytes. -/
def scriptRec (nv : NonVol) (a len off : Nat) : ScriptRec × Nat :=
  if len < off + 4 then (.bad, 4) else
  let w := beNat (nv.bytes (a + off) 4)
  let n := w % 2 ^ 24
  let fits := fun k => decide (off + 4 + 4 * k ≤ len)
  match w / 2 ^ 24 with
  | 1 =>
    let x := beNat (nv.bytes (a + off + 4) 4)
    if n = 0 ∨ 65535 < n ∨ fits (n + 1) = false ∨ x % 4 ≠ 0 ∨ 2 ^ 20 < x + 4 * n then (.bad, 4)
    else (.write x (nv.words (a + off + 8) n), 8 + 4 * n)
  | 2 => if n ≠ 8 ∨ fits 8 = false then (.bad, 4) else (.command (nv.words (a + off + 4) 8), 36)
  | 3 => (.wait n, 4)
  | 4 => (.end_, 4)
  | _ => (.bad, 4)

/-- A `PT_MAP_SET` stands among the records from `off` on of these sections. Behind a malformed record, whose length is not known, the
search goes on with the next word (log entry 15). -/
def laterMap (nv : NonVol) : Nat → List (Nat × Nat × Nat) → Nat → Bool
  | 0, _, _ => false
  | _, [], _ => false
  | fuel + 1, (i, a, len) :: rest, off =>
    match scriptRec nv a len off with
    | (.bad, _) => if len < off + 4 then laterMap nv fuel rest 0 else laterMap nv fuel ((i, a, len) :: rest) (off + 4)
    | (.end_, _) => laterMap nv fuel rest 0
    | (.command ws, n) => (ws.getD 0 0).toNat % 65536 == 0x0D06 || laterMap nv fuel ((i, a, len) :: rest) (off + n)
    | (_, n) => laterMap nv fuel ((i, a, len) :: rest) (off + n)

/-- The scripts are over: `READY` is set (R484). -/
def Hub.scriptOver (h : Hub) : Hub := if h.ready then h.setGlb { h.glb with script := none } else h.setReady

/-- A record fails with a status (R486). -/
def Hub.scriptFail (h : Hub) (s : Script) (status : Nat) : Hub :=
  let sec := match s.secs with
    | (i, _, _) :: _ => i
    | [] => 0
  let h := h.wr Reg.GLB_SCRIPT_ERR (word (sec % 64 + status * 2 ^ 8 + s.rec_ % 65536 * 2 ^ 16))
  ((h.setFld Reg.GLB_BOOT F.GLB_BOOT_SCRIPT_FAIL 1).glbEvt F.GLB_EVT_SCRIPT_FAIL).scriptOver

/-- On to the next record of the section. -/
def Hub.scriptNext (h : Hub) (s : Script) (n : Nat) : Hub :=
  h.setGlb { h.glb with script := some { s with off := s.off + n, rec_ := s.rec_ + 1, wait := none, cmdAt := none }, scriptAns := none }

/-- Apply `run` to the record that is next, with its length; a malformed record fails with `EARG`. -/
def Hub.scriptStep (h : Hub) (nv : NonVol) (run : Hub → Script → ScriptRec → Nat → Hub) : Hub :=
  if h.glb.inCold = true ∨ h.glb.pllHold = true then h else
  match h.glb.script with
  | none => h
  | some s =>
    match s.secs with
    | [] => h.scriptOver
    | (_, a, len) :: _ =>
      match scriptRec nv a len s.off with
      | (.bad, _) => h.scriptFail s sEARG
      | (r, n) => run h s r n

/-- A word of a `WRITE` record; a Net channel that is not `OFF` keeps what it holds (R435, R485). -/
def Hub.scriptPut (h : Hub) (a : Nat) (w : Word) : Hub :=
  let n := (a - 0x68000) / 0x80
  if 0x68000 ≤ a ∧ a < 0x68800 ∧ (h.netSeen n).st ≠ .off then
    if ((({ h with net := { h.net with inbox := [] } } : Hub).setNet n {}).netWrite n a w).rd a = h.rd a then h else h.evt Reg.NET_EVT F.NET_EVT_HELD_DIFF
  else h.putWord .core a w

def Hub.scriptPuts (h : Hub) : Nat → List Word → Hub
  | _, [] => h
  | a, w :: ws => (h.scriptPut a w).scriptPuts (a + 4) ws

/-- `SCRIPT_WRITE` (R480). -/
def Hub.scriptWrite (h : Hub) (nv : NonVol) : Hub :=
  h.scriptStep nv fun h s r n =>
    match r with
    | .write a ws => (h.scriptPuts a ws).scriptNext s n
    | _ => h

def execScriptWrite (s : State) : Host.Outcome State Fault Refusal := s.on fun h => h.scriptWrite s.nv

/-- The mask of a script's `NET_ON` keeps only channels that are `OFF` (R435, R486). -/
def Hub.scriptCmd (h : Hub) (ws : List Word) : CmdIn :=
  let c := cmdOf .script ws
  if c.code = 0x0B01 then
    let m := c.arg 1
    { c with args := word (m - (m % 65536) + (below 16 fun n => testBit m n && (h.netSeen n).st == .off).foldl (fun x n => x + 2 ^ n) 0) :: c.args.drop 1 }
  else c

/-- The command of a `COMMAND` record has answered: `OK` goes on, anything else fails. The last `PT_MAP_SET` of the image, once in
effect, sets `MAP_LOADED` (R37). -/
def Hub.scriptAnswered (h : Hub) (nv : NonVol) (s : Script) (ws : List Word) (n st : Nat) : Hub :=
  if st ≠ sOK then h.scriptFail s st
  else if (ws.getD 0 0).toNat % 65536 = 0x0D06 ∧ laterMap nv 16777216 s.secs (s.off + n) = false then
    let h := if h.pt.mapPend.isEmpty then { h with pt := { h.pt with mapLoaded := true } } else { h with pt := { h.pt with mapLast := true } }
    h.scriptNext s n
  else h.scriptNext s n

/-- The script goes on without the answer of its command (R485). -/
def Hub.scriptLeave (h : Hub) (ws : List Word) : Hub :=
  let c := cmdOf .script ws
  h.setGlb { h.glb with scriptLate := h.glb.scriptLate ++ [(c.code, c.tag)] }

/-- `SCRIPT_COMMAND` (R485, R486): the command is issued; the script goes on when it has answered, or after 100 ms. -/
def Hub.scriptCommand (h : Hub) (nv : NonVol) : Hub :=
  h.scriptStep nv fun h s r n =>
    match r with
    | .command ws =>
      match s.cmdAt with
      | none =>
        let h := h.setGlb { h.glb with scriptAns := none }
        let h := h.doCmd (h.scriptCmd ws)
        match h.glb.scriptAns with
        | some st => h.scriptAnswered nv s ws n st
        | none => h.setGlb { h.glb with script := some { s with cmdAt := some h.now } }
      | some t =>
        match h.glb.scriptAns with
        | some st => h.scriptAnswered nv s ws n st
        | none => if t + 100 * tuMs ≤ h.now then (h.scriptLeave ws).scriptNext s n else h
    | _ => h

def execScriptCommand (s : State) : Host.Outcome State Fault Refusal := s.on fun h => h.scriptCommand s.nv

/-- `SCRIPT_WAIT` (R480). -/
def Hub.scriptWait (h : Hub) (nv : NonVol) : Hub :=
  h.scriptStep nv fun h s r n =>
    match r with
    | .wait us =>
      let t := s.wait.getD (h.now + us * tuUs)
      if t ≤ h.now then h.scriptNext s n else h.setGlb { h.glb with script := some { s with wait := some t } }
    | _ => h

def execScriptWait (s : State) : Host.Outcome State Fault Refusal := s.on fun h => h.scriptWait s.nv

/-- `SCRIPT_END` (R480, R484): on to the next section; after the last one `READY` is set. -/
def Hub.scriptEnd (h : Hub) (nv : NonVol) : Hub :=
  h.scriptStep nv fun h s r _ =>
    match r with
    | .end_ =>
      match s.secs.drop 1 with
      | [] => h.scriptOver
      | rest => h.setGlb { h.glb with script := some { secs := rest, off := 0, rec_ := 0, wait := none, cmdAt := none } }
    | _ => h

def execScriptEnd (s : State) : Host.Outcome State Fault Refusal := s.on fun h => h.scriptEnd s.nv

end Sys2Proof.Machine
end

