-- ==== Sys2Proof/Machine/Dispatch.lean ====
section
/-! DEFINITION. The effect of each command on everything but the queue: one meaning for each row of the opcode table. -/

namespace Sys2Proof.Machine

/-- What a command does (the queue of commands is not its concern). -/
def exec (i : Instr) (s : State) : Host.Outcome State Fault Refusal :=
  match i with
  | .registerWrite p a be w => Sys2Proof.Machine.execRegisterWrite p a be w s
  | .baseStrumEdge temp sig => Sys2Proof.Machine.execBaseStrumEdge temp sig s
  | .ssiAutoRead n => Sys2Proof.Machine.execSsiAutoRead n s
  | .contextReady c => Sys2Proof.Machine.execContextReady c s
  | .jobEntry c => Sys2Proof.Machine.execJobEntry c s
  | .jobDeadline c => Sys2Proof.Machine.execJobDeadline c s
  | .commitApply => Sys2Proof.Machine.execCommitApply s
  | .ptRead src tag addr count landing => Sys2Proof.Machine.execPtRead src tag addr count landing s
  | .ptWrite src tag addr value quality tsx tsLo tsHi => Sys2Proof.Machine.execPtWrite src tag addr value quality tsx tsLo tsHi s
  | .ptEvent src tag addr value quality tsx tsLo tsHi => Sys2Proof.Machine.execPtEvent src tag addr value quality tsx tsLo tsHi s
  | .ptSubOpen src tag entry => Sys2Proof.Machine.execPtSubOpen src tag entry s
  | .ptSubClose src tag entry => Sys2Proof.Machine.execPtSubClose src tag entry s
  | .ptMapSet src tag first count what => Sys2Proof.Machine.execPtMapSet src tag first count what s
  | .bundleRx => Sys2Proof.Machine.execBundleRx s
  | .txnReadReqRx => Sys2Proof.Machine.execTxnReadReqRx s
  | .txnWriteReqRx => Sys2Proof.Machine.execTxnWriteReqRx s
  | .txnSubscribeReqRx => Sys2Proof.Machine.execTxnSubscribeReqRx s
  | .txnEventReqRx => Sys2Proof.Machine.execTxnEventReqRx s
  | .txnRspRx => Sys2Proof.Machine.execTxnRspRx s
  | .txnTimeout t => Sys2Proof.Machine.execTxnTimeout t s
  | .tagQuarantineEnd t => Sys2Proof.Machine.execTagQuarantineEnd t s
  | .w2Read off len => Sys2Proof.Machine.execW2Read off len s
  | .w2Write off len w => Sys2Proof.Machine.execW2Write off len w s
  | .laneStart src tag n => Sys2Proof.Machine.execLaneStart src tag n s
  | .laneStop src tag n mode => Sys2Proof.Machine.execLaneStop src tag n mode s
  | .laneFlush src tag n mask => Sys2Proof.Machine.execLaneFlush src tag n mask s
  | .laneDout src tag n mask levels => Sys2Proof.Machine.execLaneDout src tag n mask levels s
  | .laneStopComplete n => Sys2Proof.Machine.execLaneStopComplete n s
  | .laneStopTimeout n => Sys2Proof.Machine.execLaneStopTimeout n s
  | .bankVioChange k v => Sys2Proof.Machine.execBankVioChange k v s
  | .laneRxChar n start data par stop ago => Sys2Proof.Machine.execLaneRxChar n start data par stop ago s
  | .laneRxBreak n => Sys2Proof.Machine.execLaneRxBreak n s
  | .laneEofIdleExpiry n => Sys2Proof.Machine.execLaneEofIdleExpiry n s
  | .laneRxFrameEnd n status x => Sys2Proof.Machine.execLaneRxFrameEnd n status x s
  | .lanePinEdge n ix x => Sys2Proof.Machine.execLanePinEdge n ix x s
  | .laneTxData n inp => Sys2Proof.Machine.execLaneTxData n inp s
  | .laneTxBrk n => Sys2Proof.Machine.execLaneTxBrk n s
  | .laneTxEof n => Sys2Proof.Machine.execLaneTxEof n s
  | .laneTxGap n => Sys2Proof.Machine.execLaneTxGap n s
  | .laneTxDout n => Sys2Proof.Machine.execLaneTxDout n s
  | .laneTxI2cStart n => Sys2Proof.Machine.execLaneTxI2cStart n s
  | .laneTxI2cRead n bs => Sys2Proof.Machine.execLaneTxI2cRead n bs s
  | .laneTxSsiRead n => Sys2Proof.Machine.execLaneTxSsiRead n s
  | .laneTxUnderrun n => Sys2Proof.Machine.execLaneTxUnderrun n s
  | .laneDeLeadEnd n => Sys2Proof.Machine.execLaneDeLeadEnd n s
  | .laneDeRelease n => Sys2Proof.Machine.execLaneDeRelease n s
  | .laneRxHoldoffEnd n => Sys2Proof.Machine.execLaneRxHoldoffEnd n s
  | .i2cStretchTimeout n => Sys2Proof.Machine.execI2cStretchTimeout n s
  | .wmCrossClear kind n => Sys2Proof.Machine.execWmCrossClear kind n s
  | .fretLoad src tag e lo hi entry => Sys2Proof.Machine.execFretLoad src tag e lo hi entry s
  | .fretStart src tag k m => Sys2Proof.Machine.execFretStart src tag k m s
  | .fretStop src tag k m => Sys2Proof.Machine.execFretStop src tag k m s
  | .fretFlush src tag e m => Sys2Proof.Machine.execFretFlush src tag e m s
  | .hold e => Sys2Proof.Machine.execHold e s
  | .jmp e levels => Sys2Proof.Machine.execJmp e levels s
  | .waitp e levels => Sys2Proof.Machine.execWaitp e levels s
  | .waitf e => Sys2Proof.Machine.execWaitf e s
  | .sho e => Sys2Proof.Machine.execSho e s
  | .shi e levels => Sys2Proof.Machine.execShi e levels s
  | .fetch e => Sys2Proof.Machine.execFetch e s
  | .post e => Sys2Proof.Machine.execPost e s
  | .setp e => Sys2Proof.Machine.execSetp e s
  | .ldi e => Sys2Proof.Machine.execLdi e s
  | .mov e levels => Sys2Proof.Machine.execMov e levels s
  | .flag e => Sys2Proof.Machine.execFlag e s
  | .halt e => Sys2Proof.Machine.execHalt e s
  | .fretWaitMet e levels => Sys2Proof.Machine.execFretWaitMet e levels s
  | .frTxqPush e x => Sys2Proof.Machine.execFrTxqPush e x s
  | .frRxqPop e => Sys2Proof.Machine.execFrRxqPop e s
  | .fretJoinWrite e w => Sys2Proof.Machine.execFretJoinWrite e w s
  | .fretProgWrite k ix w => Sys2Proof.Machine.execFretProgWrite k ix w s
  | .flagHostSet k w => Sys2Proof.Machine.execFlagHostSet k w s
  | .flagHostClear k w => Sys2Proof.Machine.execFlagHostClear k w s
  | .canStart src tag n => Sys2Proof.Machine.execCanStart src tag n s
  | .canStop src tag n => Sys2Proof.Machine.execCanStop src tag n s
  | .canFlush src tag n mask => Sys2Proof.Machine.execCanFlush src tag n mask s
  | .canRecover src tag n => Sys2Proof.Machine.execCanRecover src tag n s
  | .canBusIntegrated n => Sys2Proof.Machine.execCanBusIntegrated n s
  | .canRecoveryDone n => Sys2Proof.Machine.execCanRecoveryDone n s
  | .canStopComplete n => Sys2Proof.Machine.execCanStopComplete n s
  | .canTxStart n => Sys2Proof.Machine.execCanTxStart n s
  | .canTxAttemptEnd n how tdcv more => Sys2Proof.Machine.execCanTxAttemptEnd n how tdcv more s
  | .canFrameRx n w0 w1 data x => Sys2Proof.Machine.execCanFrameRx n w0 w1 data x s
  | .canTxqPush n x => Sys2Proof.Machine.execCanTxqPush n x s
  | .canTxEntryTimeout n => Sys2Proof.Machine.execCanTxEntryTimeout n s
  | .canRxqPop n => Sys2Proof.Machine.execCanRxqPop n s
  | .ctxLoad src tag c lo hi entry => Sys2Proof.Machine.execCtxLoad src tag c lo hi entry s
  | .ctxStart src tag c => Sys2Proof.Machine.execCtxStart src tag c s
  | .ctxStop src tag c => Sys2Proof.Machine.execCtxStop src tag c s
  | .ctxStopApply c => Sys2Proof.Machine.execCtxStopApply c s
  | .calSwap src tag => Sys2Proof.Machine.execCalSwap src tag s
  | .calSwapApply => Sys2Proof.Machine.execCalSwapApply s
  | .strumStart src tag => Sys2Proof.Machine.execStrumStart src tag s
  | .strumStop src tag => Sys2Proof.Machine.execStrumStop src tag s
  | .carProgWrite ix w => Sys2Proof.Machine.execCarProgWrite ix w s
  | .carCtxDataWrite c ix w => Sys2Proof.Machine.execCarCtxDataWrite c ix w s
  | .calBankWrite bankB j w => Sys2Proof.Machine.execCalBankWrite bankB j w s
  | .scrDataRead => Sys2Proof.Machine.execScrDataRead s
  | .scrDataWrite w => Sys2Proof.Machine.execScrDataWrite w s
  | .add c => Sys2Proof.Machine.execAdd c s
  | .sub c => Sys2Proof.Machine.execSub c s
  | .adc c => Sys2Proof.Machine.execAdc c s
  | .sbc c => Sys2Proof.Machine.execSbc c s
  | .and c => Sys2Proof.Machine.execAnd c s
  | .or c => Sys2Proof.Machine.execOr c s
  | .xor c => Sys2Proof.Machine.execXor c s
  | .shl c => Sys2Proof.Machine.execShl c s
  | .shr c => Sys2Proof.Machine.execShr c s
  | .sar c => Sys2Proof.Machine.execSar c s
  | .mulu c => Sys2Proof.Machine.execMulu c s
  | .muls c => Sys2Proof.Machine.execMuls c s
  | .clz c => Sys2Proof.Machine.execClz c s
  | .bfx c => Sys2Proof.Machine.execBfx c s
  | .bfxs c => Sys2Proof.Machine.execBfxs c s
  | .bfi c => Sys2Proof.Machine.execBfi c s
  | .addi c => Sys2Proof.Machine.execAddi c s
  | .andi c => Sys2Proof.Machine.execAndi c s
  | .ori c => Sys2Proof.Machine.execOri c s
  | .xori c => Sys2Proof.Machine.execXori c s
  | .lui c => Sys2Proof.Machine.execLui c s
  | .cmpi c => Sys2Proof.Machine.execCmpi c s
  | .b c => Sys2Proof.Machine.execB c s
  | .jal c => Sys2Proof.Machine.execJal c s
  | .jr c => Sys2Proof.Machine.execJr c s
  | .ldl c => Sys2Proof.Machine.execLdl c s
  | .stl c => Sys2Proof.Machine.execStl c s
  | .lds c => Sys2Proof.Machine.execLds c s
  | .sts c => Sys2Proof.Machine.execSts c s
  | .qpop c => Sys2Proof.Machine.execQpop c s
  | .qpeek c => Sys2Proof.Machine.execQpeek c s
  | .qpush c => Sys2Proof.Machine.execQpush c s
  | .qcred c => Sys2Proof.Machine.execQcred c s
  | .prd c => Sys2Proof.Machine.execPrd c s
  | .pwr c => Sys2Proof.Machine.execPwr c s
  | .psub c => Sys2Proof.Machine.execPsub c s
  | .femit c => Sys2Proof.Machine.execFemit c s
  | .crcb c => Sys2Proof.Machine.execCrcb c s
  | .crcw c => Sys2Proof.Machine.execCrcw c s
  | .crcr c => Sys2Proof.Machine.execCrcr c s
  | .tnow c => Sys2Proof.Machine.execTnow c s
  | .tcmp c => Sys2Proof.Machine.execTcmp c s
  | .waitq c => Sys2Proof.Machine.execWaitq c s
  | .waitt c => Sys2Proof.Machine.execWaitt c s
  | .yield c => Sys2Proof.Machine.execYield c s
  | .waitEnd c => Sys2Proof.Machine.execWaitEnd c s
  | .done c => Sys2Proof.Machine.execDone c s
  | .trap c => Sys2Proof.Machine.execTrap c s
  | .snoopEnable u w => Sys2Proof.Machine.execSnoopEnable u w s
  | .snoopInit u => Sys2Proof.Machine.execSnoopInit u s
  | .tmQueueEnable q w => Sys2Proof.Machine.execTmQueueEnable q w s
  | .policerEnable ix w => Sys2Proof.Machine.execPolicerEnable ix w s
  | .tmQFlush src tag q => Sys2Proof.Machine.execTmQFlush src tag q s
  | .tmPolFill src tag ix => Sys2Proof.Machine.execTmPolFill src tag ix s
  | .portFrameChoice p => Sys2Proof.Machine.execPortFrameChoice p s
  | .wheelSlot j => Sys2Proof.Machine.execWheelSlot j s
  | .launchDue p => Sys2Proof.Machine.execLaunchDue p s
  | .launchWindowExpiry p => Sys2Proof.Machine.execLaunchWindowExpiry p s
  | .midwayFrameIn x => Sys2Proof.Machine.execMidwayFrameIn x s
  | .crossbarMatch => Sys2Proof.Machine.execCrossbarMatch s
  | .fence src tag mask timeout => Sys2Proof.Machine.execFence src tag mask timeout s
  | .fenceDone => Sys2Proof.Machine.execFenceDone s
  | .fenceTimeout => Sys2Proof.Machine.execFenceTimeout s
  | .macFlush src tag mask => Sys2Proof.Machine.execMacFlush src tag mask s
  | .macAgeOut ix => Sys2Proof.Machine.execMacAgeOut ix s
  | .macRead => Sys2Proof.Machine.execMacRead s
  | .macWrite => Sys2Proof.Machine.execMacWrite s
  | .macDelete => Sys2Proof.Machine.execMacDelete s
  | .auditPassStart => Sys2Proof.Machine.execAuditPassStart s
  | .auditPassEnd => Sys2Proof.Machine.execAuditPassEnd s
  | .maintLeakAuditNow src tag => Sys2Proof.Machine.execMaintLeakAuditNow src tag s
  | .ringFrameRx p bs fcs => Sys2Proof.Machine.execRingFrameRx p bs fcs s
  | .pauseFrameRx p quanta => Sys2Proof.Machine.execPauseFrameRx p quanta s
  | .linkLock p pause asm => Sys2Proof.Machine.execLinkLock p pause asm s
  | .linkLoss p => Sys2Proof.Machine.execLinkLoss p s
  | .helloTx => Sys2Proof.Machine.execHelloTx s
  | .helloRx p bs => Sys2Proof.Machine.execHelloRx p bs s
  | .helloTimeout p => Sys2Proof.Machine.execHelloTimeout p s
  | .ringCheckTx => Sys2Proof.Machine.execRingCheckTx s
  | .ringStateTimeout => Sys2Proof.Machine.execRingStateTimeout s
  | .holdoffEnd => Sys2Proof.Machine.execHoldoffEnd s
  | .sourceAgeOut n => Sys2Proof.Machine.execSourceAgeOut n s
  | .ddEntryAgeOut p => Sys2Proof.Machine.execDdEntryAgeOut p s
  | .paradeWaitExpiry => Sys2Proof.Machine.execParadeWaitExpiry s
  | .paradeSurveyRx p bs => Sys2Proof.Machine.execParadeSurveyRx p bs s
  | .paradeAssignmentRx p bs => Sys2Proof.Machine.execParadeAssignmentRx p bs s
  | .lateReqRx p bs => Sys2Proof.Machine.execLateReqRx p bs s
  | .paradeTimeout => Sys2Proof.Machine.execParadeTimeout s
  | .ringParade src tag => Sys2Proof.Machine.execRingParade src tag s
  | .ringParadeTimeout => Sys2Proof.Machine.execRingParadeTimeout s
  | .ringLinkRestart src tag p => Sys2Proof.Machine.execRingLinkRestart src tag p s
  | .ringEnable w => Sys2Proof.Machine.execRingEnable w s
  | .hsrSupervisionTx => Sys2Proof.Machine.execHsrSupervisionTx s
  | .timeSet src tag base secLo secHi ns => Sys2Proof.Machine.execTimeSet src tag base secLo secHi ns s
  | .timeStep src tag base ofsLo ofsHi => Sys2Proof.Machine.execTimeStep src tag base ofsLo ofsHi s
  | .timeStepPermit src tag base arm => Sys2Proof.Machine.execTimeStepPermit src tag base arm s
  | .timeSlew src tag base ofs rate => Sys2Proof.Machine.execTimeSlew src tag base ofs rate s
  | .permitExpiry b => Sys2Proof.Machine.execPermitExpiry b s
  | .slewComplete b => Sys2Proof.Machine.execSlewComplete b s
  | .servoInput b ix => Sys2Proof.Machine.execServoInput b ix s
  | .servoSourceLost b => Sys2Proof.Machine.execServoSourceLost b s
  | .servoSrcWrite b w => Sys2Proof.Machine.execServoSrcWrite b w s
  | .ptpEventTx p bs reqAt => Sys2Proof.Machine.execPtpEventTx p bs reqAt s
  | .eventPinEdge ix level pulse ago => Sys2Proof.Machine.execEventPinEdge ix level pulse ago s
  | .evqPop => Sys2Proof.Machine.execEvqPop s
  | .evqFlush => Sys2Proof.Machine.execEvqFlush s
  | .timeNowRead b => Sys2Proof.Machine.execTimeNowRead b s
  | .ppoEnable k w => Sys2Proof.Machine.execPpoEnable k w s
  | .ppoFire k => Sys2Proof.Machine.execPpoFire k s
  | .ppoPulseEnd k => Sys2Proof.Machine.execPpoPulseEnd k s
  | .ppsoPulse j => Sys2Proof.Machine.execPpsoPulse j s
  | .heartbeatTx => Sys2Proof.Machine.execHeartbeatTx s
  | .heartbeatRx rx w => Sys2Proof.Machine.execHeartbeatRx rx w s
  | .heartbeatPathSilent serial => Sys2Proof.Machine.execHeartbeatPathSilent serial s
  | .joinTimeout => Sys2Proof.Machine.execJoinTimeout s
  | .fatalHandover => Sys2Proof.Machine.execFatalHandover s
  | .fatalResetDelay => Sys2Proof.Machine.execFatalResetDelay s
  | .journalFrameTx => Sys2Proof.Machine.execJournalFrameTx s
  | .jnlEdge jseq act k groups t own complete => Sys2Proof.Machine.execJnlEdge jseq act k groups t own complete s
  | .jnlLaneRx jseq act n count items => Sys2Proof.Machine.execJnlLaneRx jseq act n count items s
  | .jnlFretRx jseq act e count words => Sys2Proof.Machine.execJnlFretRx jseq act e count words s
  | .jnlCanRx jseq act n count entry => Sys2Proof.Machine.execJnlCanRx jseq act n count entry s
  | .jnlDsnap jseq act g ws => Sys2Proof.Machine.execJnlDsnap jseq act g ws s
  | .jnlEvent jseq act count w0 w1 => Sys2Proof.Machine.execJnlEvent jseq act count w0 w1 s
  | .jnlRingRx jseq act port src seq fcs frame => Sys2Proof.Machine.execJnlRingRx jseq act port src seq fcs frame s
  | .jnlRingMiss => Sys2Proof.Machine.execJnlRingMiss s
  | .jnlHostCmd jseq act q ws => Sys2Proof.Machine.execJnlHostCmd jseq act q ws s
  | .jnlTimed jseq act c op value => Sys2Proof.Machine.execJnlTimed jseq act c op value s
  | .jnlMark jseq act c handle mark => Sys2Proof.Machine.execJnlMark jseq act c handle mark s
  | .jnlJob jseq act c outcome cause => Sys2Proof.Machine.execJnlJob jseq act c outcome cause s
  | .jnlTxDone jseq act seq ports => Sys2Proof.Machine.execJnlTxDone jseq act seq ports s
  | .jnlTime jseq act b sec ns freq servo delay => Sys2Proof.Machine.execJnlTime jseq act b sec ns freq servo delay s
  | .jnlDigest jseq act g strum crc => Sys2Proof.Machine.execJnlDigest jseq act g strum crc s
  | .jnlSwitch jseq act k => Sys2Proof.Machine.execJnlSwitch jseq act k s
  | .jnlState jseq act b => Sys2Proof.Machine.execJnlState jseq act b s
  | .syncTimeout => Sys2Proof.Machine.execSyncTimeout s
  | .revertRequest => Sys2Proof.Machine.execRevertRequest s
  | .twinResync src tag => Sys2Proof.Machine.execTwinResync src tag s
  | .twinRevertHold src tag hold => Sys2Proof.Machine.execTwinRevertHold src tag hold s
  | .scrubPassEnd corr bad other => Sys2Proof.Machine.execScrubPassEnd corr bad other s
  | .maintScrubNow src tag => Sys2Proof.Machine.execMaintScrubNow src tag s
  | .lagClear w => Sys2Proof.Machine.execLagClear w s
  | .usbVbusChange valid => Sys2Proof.Machine.execUsbVbusChange valid s
  | .usbAttach w => Sys2Proof.Machine.execUsbAttach w s
  | .usbBusReset high => Sys2Proof.Machine.execUsbBusReset high s
  | .usbSuspend => Sys2Proof.Machine.execUsbSuspend s
  | .usbWakeWindowEnd => Sys2Proof.Machine.execUsbWakeWindowEnd s
  | .usbHostResume => Sys2Proof.Machine.execUsbHostResume s
  | .usbPortConnect ix low => Sys2Proof.Machine.execUsbPortConnect ix low s
  | .usbPortDisconnect ix => Sys2Proof.Machine.execUsbPortDisconnect ix s
  | .usbPortResetEnd ix chirp => Sys2Proof.Machine.execUsbPortResetEnd ix chirp s
  | .usbPortBabble ix => Sys2Proof.Machine.execUsbPortBabble ix s
  | .usbPortRemoteK ix => Sys2Proof.Machine.execUsbPortRemoteK ix s
  | .usbPortResumeEnd ix => Sys2Proof.Machine.execUsbPortResumeEnd ix s
  | .getStatus fn recip index => Sys2Proof.Machine.execGetStatus fn recip index s
  | .clearFeature fn recip feature index => Sys2Proof.Machine.execClearFeature fn recip feature index s
  | .setFeature fn recip feature index => Sys2Proof.Machine.execSetFeature fn recip feature index s
  | .setAddress fn a => Sys2Proof.Machine.execSetAddress fn a s
  | .getDescriptor fn typ idx len => Sys2Proof.Machine.execGetDescriptor fn typ idx len s
  | .getConfiguration fn => Sys2Proof.Machine.execGetConfiguration fn s
  | .setConfiguration fn v => Sys2Proof.Machine.execSetConfiguration fn v s
  | .getInterface fn index => Sys2Proof.Machine.execGetInterface fn index s
  | .setInterface fn alt index => Sys2Proof.Machine.execSetInterface fn alt index s
  | .unsupportedRequest fn => Sys2Proof.Machine.execUnsupportedRequest fn s
  | .getHubStatus => Sys2Proof.Machine.execGetHubStatus s
  | .clearHubFeature feature => Sys2Proof.Machine.execClearHubFeature feature s
  | .getPortStatus n => Sys2Proof.Machine.execGetPortStatus n s
  | .setPortPower n => Sys2Proof.Machine.execSetPortPower n s
  | .setPortReset n => Sys2Proof.Machine.execSetPortReset n s
  | .setPortSuspend n => Sys2Proof.Machine.execSetPortSuspend n s
  | .setPortTest n sel => Sys2Proof.Machine.execSetPortTest n sel s
  | .clearPortEnable n => Sys2Proof.Machine.execClearPortEnable n s
  | .clearPortSuspend n => Sys2Proof.Machine.execClearPortSuspend n s
  | .clearPortPower n => Sys2Proof.Machine.execClearPortPower n s
  | .clearPortChange n bit => Sys2Proof.Machine.execClearPortChange n bit s
  | .clearTtBuffer n info => Sys2Proof.Machine.execClearTtBuffer n info s
  | .resetTt n => Sys2Proof.Machine.execResetTt n s
  | .usbCmdOut e bs => Sys2Proof.Machine.execUsbCmdOut e bs s
  | .usbRspIn e => Sys2Proof.Machine.execUsbRspIn e s
  | .usbNotifyIn e => Sys2Proof.Machine.execUsbNotifyIn e s
  | .usbPointReadReq e bs => Sys2Proof.Machine.execUsbPointReadReq e bs s
  | .usbPointReadIn e => Sys2Proof.Machine.execUsbPointReadIn e s
  | .netOn src tag mask => Sys2Proof.Machine.execNetOn src tag mask s
  | .netOff src tag mask => Sys2Proof.Machine.execNetOff src tag mask s
  | .netClear src tag mask => Sys2Proof.Machine.execNetClear src tag mask s
  | .netCardPresent n => Sys2Proof.Machine.execNetCardPresent n s
  | .netCardAbsent n => Sys2Proof.Machine.execNetCardAbsent n s
  | .netVsWindowChange n mv => Sys2Proof.Machine.execNetVsWindowChange n mv s
  | .netInsertDelayEnd n => Sys2Proof.Machine.execNetInsertDelayEnd n s
  | .netRampDone n vout => Sys2Proof.Machine.execNetRampDone n vout s
  | .netGateRiseDone n vout vgs => Sys2Proof.Machine.execNetGateRiseDone n vout vgs s
  | .netHardShort n mv => Sys2Proof.Machine.execNetHardShort n mv s
  | .netSoaTrip n us => Sys2Proof.Machine.execNetSoaTrip n us s
  | .netRampTimeout n => Sys2Proof.Machine.execNetRampTimeout n s
  | .netCurveTrip n codes => Sys2Proof.Machine.execNetCurveTrip n codes s
  | .netGriseTimeout n vgs => Sys2Proof.Machine.execNetGriseTimeout n vgs s
  | .netGateLowFault n vgs us => Sys2Proof.Machine.execNetGateLowFault n vgs us s
  | .netPgLoss n vout vgs => Sys2Proof.Machine.execNetPgLoss n vout vgs s
  | .netDsShort n vout ms => Sys2Proof.Machine.execNetDsShort n vout ms s
  | .netRetryWaitEnd n => Sys2Proof.Machine.execNetRetryWaitEnd n s
  | .netRetriesReset n => Sys2Proof.Machine.execNetRetriesReset n s
  | .netLinkSilent => Sys2Proof.Machine.execNetLinkSilent s
  | .netClockStop => Sys2Proof.Machine.execNetClockStop s
  | .netVinLockout mv => Sys2Proof.Machine.execNetVinLockout mv s
  | .maintNetGateTest src tag ch width => Sys2Proof.Machine.execMaintNetGateTest src tag ch width s
  | .netGateTestResult fall rise => Sys2Proof.Machine.execNetGateTestResult fall rise s
  | .hqTailWrite q p w => Sys2Proof.Machine.execHqTailWrite q p w s
  | .hqHeadWrite q p w => Sys2Proof.Machine.execHqHeadWrite q p w s
  | .hqDisable q w => Sys2Proof.Machine.execHqDisable q w s
  | .commandTake => Sys2Proof.Machine.execCommandTake s
  | .qspiRead addr n => Sys2Proof.Machine.execQspiRead addr n s
  | .qspiWrite op addr bs => Sys2Proof.Machine.execQspiWrite op addr bs s
  | .qspiStatus => Sys2Proof.Machine.execQspiStatus s
  | .pciePerst low => Sys2Proof.Machine.execPciePerst low s
  | .msixVectorUnmask v => Sys2Proof.Machine.execMsixVectorUnmask v s
  | .nodeHello src tag versions => Sys2Proof.Machine.execNodeHello src tag versions s
  | .nodeInfo src tag => Sys2Proof.Machine.execNodeInfo src tag s
  | .nodeReset src tag kind => Sys2Proof.Machine.execNodeReset src tag kind s
  | .nodeResetFire => Sys2Proof.Machine.execNodeResetFire s
  | .maintRingLoop src tag p ms => Sys2Proof.Machine.execMaintRingLoop src tag p ms s
  | .ringLoopTestTx back => Sys2Proof.Machine.execRingLoopTestTx back s
  | .ringLoopEnd => Sys2Proof.Machine.execRingLoopEnd s
  | .maintEnd src tag => Sys2Proof.Machine.execMaintEnd src tag s
  | .maintTwinDrill src tag => Sys2Proof.Machine.execMaintTwinDrill src tag s
  | .maintFlashStage src tag => Sys2Proof.Machine.execMaintFlashStage src tag s
  | .dmaTxTailWrite p w => Sys2Proof.Machine.execDmaTxTailWrite p w s
  | .dmaRxTailWrite p w => Sys2Proof.Machine.execDmaRxTailWrite p w s
  | .dmaTxDescriptor w2 w3 w4 buf => Sys2Proof.Machine.execDmaTxDescriptor w2 w3 w4 buf s
  | .dmaRxFrame addr => Sys2Proof.Machine.execDmaRxFrame addr s
  | .powerFail => Sys2Proof.Machine.execPowerFail s
  | .rstNLow => Sys2Proof.Machine.execRstNLow s
  | .watchdogExpiry => Sys2Proof.Machine.execWatchdogExpiry s
  | .coldResetEnd straps => Sys2Proof.Machine.execColdResetEnd straps s
  | .warmReset => Sys2Proof.Machine.execWarmReset s
  | .scriptWrite => Sys2Proof.Machine.execScriptWrite s
  | .scriptCommand => Sys2Proof.Machine.execScriptCommand s
  | .scriptWait => Sys2Proof.Machine.execScriptWait s
  | .scriptEnd => Sys2Proof.Machine.execScriptEnd s
  | .wdRunClear => Sys2Proof.Machine.execWdRunClear s
  | .refclkLost edges ppm => Sys2Proof.Machine.execRefclkLost edges ppm s
  | .refclkReturn ms => Sys2Proof.Machine.execRefclkReturn ms s
  | .returnNow w => Sys2Proof.Machine.execReturnNow w s
  | .pllUnlock => Sys2Proof.Machine.execPllUnlock s
  | .pllRelockEnd => Sys2Proof.Machine.execPllRelockEnd s
  | .svcHello seq => Sys2Proof.Machine.execSvcHello seq s
  | .svcBaud seq div => Sys2Proof.Machine.execSvcBaud seq div s
  | .svcRead seq addr len => Sys2Proof.Machine.execSvcRead seq addr len s
  | .svcStageOpen seq wp sel len => Sys2Proof.Machine.execSvcStageOpen seq wp sel len s
  | .svcStageWrite seq wp off bs out => Sys2Proof.Machine.execSvcStageWrite seq wp off bs out s
  | .svcStageClose seq wp => Sys2Proof.Machine.execSvcStageClose seq wp s
  | .svcStageAbort seq => Sys2Proof.Machine.execSvcStageAbort seq s
  | .svcIdentWrite seq wp bs => Sys2Proof.Machine.execSvcIdentWrite seq wp bs s
  | .svcFuseKey seq wp key => Sys2Proof.Machine.execSvcFuseKey seq wp key s
  | .svcStatus seq => Sys2Proof.Machine.execSvcStatus seq s
  | .svcReset seq kind => Sys2Proof.Machine.execSvcReset seq kind s
  | .svcResetFire => Sys2Proof.Machine.execSvcResetFire s
  | .svcBadFrame bs => Sys2Proof.Machine.execSvcBadFrame bs s
  | .svcFrameTimeout => Sys2Proof.Machine.execSvcFrameTimeout s
  | .svcBaudRevert => Sys2Proof.Machine.execSvcBaudRevert s
  | .svcWpDeassert => Sys2Proof.Machine.execSvcWpDeassert s
  | .stageIdleTimeout => Sys2Proof.Machine.execStageIdleTimeout s
  | .canRxBusError n crc dominant more => Sys2Proof.Machine.execCanRxBusError n crc dominant more s
  | .laneCtsChange n level => Sys2Proof.Machine.execLaneCtsChange n level s
  | .laneTxUnderrunClose n => Sys2Proof.Machine.execLaneTxUnderrunClose n s
  | .laneIrigOutFrame n => Sys2Proof.Machine.execLaneIrigOutFrame n s
  | .ptpAnnounceRx b gm => Sys2Proof.Machine.execPtpAnnounceRx b gm s
  | .ptpPdelayRx p bs => Sys2Proof.Machine.execPtpPdelayRx p bs s
  | .takeTransmitterLimit => Sys2Proof.Machine.execTakeTransmitterLimit s
  | .netVinRestored mv => Sys2Proof.Machine.execNetVinRestored mv s
  | .netClockRestored => Sys2Proof.Machine.execNetClockRestored s
  | .pcieLinkUp gen2 x2 => Sys2Proof.Machine.execPcieLinkUp gen2 x2 s

end Sys2Proof.Machine
end

