-- ==== Sys2Proof/Machine/Tick.lean ====
section
/-! DEFINITION. One `CLK_CORE` cycle with no command waiting: what happens by the clock alone. -/

namespace Sys2Proof.Machine

/-- The watermark state of a queue is judged on its depth at the end of the cycle (R235, R236). -/
def Hub.wmJudge (h : Hub) (q : QRef) : Hub :=
  let w := h.qWm q
  let was := (h.qCommon q).high
  let now := wmNext was (h.qDepth q) w.hi w.lo
  if now = was then h else (h.setHigh q now).crossing w now

/-- What the end of the present cycle brings: results read from snoop units are settled (R204), the slot is
accounted for (R156, R157), frames of `P4` to `P6` are placed (R249), a MAC operation completes after what the cycle learned (R274), fences
are judged (R279), watermarks are judged. -/
def Hub.cycleEnd (h : Hub) : Hub :=
  let h := { h with host := { h.host with wrote := [] } }
  let h := (h.each 16 Hub.snoopSettle).slotEnd.ownAdmit.dmaSettle.macFinish.evEnter.fenceClose fun _ => true
  allQueues.foldl Hub.wmJudge h

/-- Time moves on by one `CLK_CORE` cycle, and what stands is noted. -/
def Hub.nextCycle (h : Hub) : Hub :=
  { h with now := h.now + tuCore }.note (h.now / 400 != (h.now + tuCore) / 400) (h.now / 750 != (h.now + tuCore) / 750)

/-- In a cycle that a `CLK_TIME` edge begins, the bases advance (R331). -/
def Hub.timeEdge (h : Hub) : Hub := if (h.now - tuCore) / 300 = h.now / 300 then h else h.timeTick

/-- What the start of the new cycle brings: frames end and credits are taken (R232), crossbar transfers end and begin (R263), scratch
accesses are served (R162), engines' holds end (R111), pulses end (R352), and the watches over clock, twin, USB, ring loop and interrupts. -/
def Hub.cycleStart (h : Hub) : Hub :=
  let h := ((h.each 7 Hub.endTx).each 256 Hub.tqAdmit).dmaSettle.xferStep
  let h := ((h.each 32 Hub.frTick).each 2 Hub.ppsoEnd).scrServe
  h.usbTick.clkWatch.twinTick.followTick.loopSettle.irqSync

/-- In the last `CLK_CORE` cycle of a `CLK_NET` cycle, the Net die takes what has come in it (R432). -/
def Hub.netCycle (h : Hub) : Hub := if h.now / 2500 = (h.now + tuCore) / 2500 then h else h.netSettle

/-- One cycle of the hub (log entry 2). A hub held in reset only sees time pass, but for the Net die (R20). -/
def Hub.cycle (h : Hub) (nv : NonVol) : Hub :=
  if h.held then h.netCycle.nextCycle
  else h.netCycle.cycleEnd.nextCycle.timeEdge.cycleStart.warmDue nv

end Sys2Proof.Machine
end

