-- ==== Sys2Proof/Machine/Step.lean ====
section
/-! DEFINITION. One step of the machine: the command at the front of the queue, or one clock cycle where none waits. -/

namespace Sys2Proof.Machine

/-- One cycle of `CLK_CORE` with no command waiting (log entry 2). -/
def State.tick (s : State) : State := { s with hub := s.hub.cycle s.nv }

/-- A step takes the command at the front of the queue and has its effect on the machine with the queue's rest; with none waiting, one
clock cycle passes. -/
def step (s : State) : Host.Outcome State Fault Refusal :=
  match s.pending with
  | [] => .next s.tick
  | c :: rest => exec c { s with pending := rest }

/-- The state with the command that a word spells at the front of its queue: unchanged, since no word spells one. -/
def State.withFetchWord (s : State) (nbits w : Nat) : State :=
  match decodeTableWord nbits w with
  | some c => { s with pending := c :: s.pending }
  | none => s

end Sys2Proof.Machine
end

