-- ==== Sys2Proof/WellFormed.lean ====
section
/-! DEFINITION. Which commands can be sent: what a row's sender can put on a wire, a bus or a link. The meanings are total and do not
lean on these checks. -/

namespace Sys2Proof

/-- Watermarked queues of a kind: lane receive and transmit, Fret receive and transmit, CAN receive and transmit, traffic queues,
event FIFO (R236). -/
def wmCount : Fin 8 → Nat
  | 0 => 96 | 1 => 96 | 2 => 32 | 3 => 32 | 4 => 16 | 5 => 16 | 6 => 256 | 7 => 1

/-- A list of at least one and at most `n` things. -/
def listWf {α : Type} (n : Nat) (l : List α) : Bool := !l.isEmpty && decide (l.length ≤ n)

/-- An IRIG-B or pulse-per-second reading names a second of the 48-bit count (R329). -/
def ServoIn.wf : ServoIn → Bool
  | .ptp _ _ _ _ => true
  | .irig sec _ => decide (sec < 2 ^ 48)
  | .pps _ sec _ => decide (sec < 2 ^ 48)

/-- A command that a sender can send. -/
def Instr.wf : Instr → Bool
  | .registerWrite _ a _ _ => a.toNat % 4 == 0
  | .baseStrumEdge _ _ => true
  | .ssiAutoRead _ => true
  | .contextReady _ => true
  | .jobEntry _ => true
  | .jobDeadline _ => true
  | .commitApply => true
  | .ptRead _ _ _ _ _ => true
  | .ptWrite _ _ _ _ _ _ _ _ => true
  | .ptEvent _ _ _ _ _ _ _ _ => true
  | .ptSubOpen _ _ _ => true
  | .ptSubClose _ _ _ => true
  | .ptMapSet _ _ _ _ _ => true
  | .bundleRx => true
  | .txnReadReqRx => true
  | .txnWriteReqRx => true
  | .txnSubscribeReqRx => true
  | .txnEventReqRx => true
  | .txnRspRx => true
  | .txnTimeout _ => true
  | .tagQuarantineEnd _ => true
  | .w2Read off len => decide (0 < len ∧ off.toNat + len ≤ 1048576)
  | .w2Write _ len _ => decide (0 < len)
  | .laneStart _ _ _ => true
  | .laneStop _ _ _ _ => true
  | .laneFlush _ _ _ _ => true
  | .laneDout _ _ _ _ _ => true
  | .laneStopComplete _ => true
  | .laneStopTimeout _ => true
  | .bankVioChange _ _ => true
  | .laneRxChar _ start data par stop _ => decide (start.length + data.length + par.length + stop.length ≤ 16)
  | .laneRxBreak _ => true
  | .laneEofIdleExpiry _ => true
  | .laneRxFrameEnd _ _ x => decide (x.pulses.length ≤ 100)
  | .lanePinEdge _ _ _ => true
  | .laneTxData _ _ => true
  | .laneTxBrk _ => true
  | .laneTxEof _ => true
  | .laneTxGap _ => true
  | .laneTxDout _ => true
  | .laneTxI2cStart _ => true
  | .laneTxI2cRead _ bs => decide (bs.length ≤ 256)
  | .laneTxSsiRead _ => true
  | .laneTxUnderrun _ => true
  | .laneDeLeadEnd _ => true
  | .laneDeRelease _ => true
  | .laneRxHoldoffEnd _ => true
  | .i2cStretchTimeout _ => true
  | .wmCrossClear kind n => decide (n.toNat < wmCount kind)
  | .fretLoad _ _ _ _ _ _ => true
  | .fretStart _ _ _ _ => true
  | .fretStop _ _ _ _ => true
  | .fretFlush _ _ _ _ => true
  | .hold _ => true
  | .jmp _ _ => true
  | .waitp _ _ => true
  | .waitf _ => true
  | .sho _ => true
  | .shi _ _ => true
  | .fetch _ => true
  | .post _ => true
  | .setp _ => true
  | .ldi _ => true
  | .mov _ _ => true
  | .flag _ => true
  | .halt _ => true
  | .fretWaitMet _ _ => true
  | .frTxqPush _ _ => true
  | .frRxqPop _ => true
  | .fretJoinWrite _ _ => true
  | .fretProgWrite _ _ _ => true
  | .flagHostSet _ _ => true
  | .flagHostClear _ _ => true
  | .canStart _ _ _ => true
  | .canStop _ _ _ => true
  | .canFlush _ _ _ _ => true
  | .canRecover _ _ _ => true
  | .canBusIntegrated _ => true
  | .canRecoveryDone _ => true
  | .canStopComplete _ => true
  | .canTxStart _ => true
  | .canTxAttemptEnd _ _ tdcv _ => tdcv.all fun v => decide (v < 128)
  | .canFrameRx _ _ _ data _ => decide (data.length ≤ 64)
  | .canTxqPush _ _ => true
  | .canTxEntryTimeout _ => true
  | .canRxqPop _ => true
  | .ctxLoad _ _ _ _ _ _ => true
  | .ctxStart _ _ _ => true
  | .ctxStop _ _ _ => true
  | .ctxStopApply _ => true
  | .calSwap _ _ => true
  | .calSwapApply => true
  | .strumStart _ _ => true
  | .strumStop _ _ => true
  | .carProgWrite _ _ => true
  | .carCtxDataWrite _ _ _ => true
  | .calBankWrite _ _ _ => true
  | .scrDataRead => true
  | .scrDataWrite _ => true
  | .add _ => true
  | .sub _ => true
  | .adc _ => true
  | .sbc _ => true
  | .and _ => true
  | .or _ => true
  | .xor _ => true
  | .shl _ => true
  | .shr _ => true
  | .sar _ => true
  | .mulu _ => true
  | .muls _ => true
  | .clz _ => true
  | .bfx _ => true
  | .bfxs _ => true
  | .bfi _ => true
  | .addi _ => true
  | .andi _ => true
  | .ori _ => true
  | .xori _ => true
  | .lui _ => true
  | .cmpi _ => true
  | .b _ => true
  | .jal _ => true
  | .jr _ => true
  | .ldl _ => true
  | .stl _ => true
  | .lds _ => true
  | .sts _ => true
  | .qpop _ => true
  | .qpeek _ => true
  | .qpush _ => true
  | .qcred _ => true
  | .prd _ => true
  | .pwr _ => true
  | .psub _ => true
  | .femit _ => true
  | .crcb _ => true
  | .crcw _ => true
  | .crcr _ => true
  | .tnow _ => true
  | .tcmp _ => true
  | .waitq _ => true
  | .waitt _ => true
  | .yield _ => true
  | .waitEnd _ => true
  | .done _ => true
  | .trap _ => true
  | .snoopEnable _ _ => true
  | .snoopInit _ => true
  | .tmQueueEnable _ _ => true
  | .policerEnable _ _ => true
  | .tmQFlush _ _ _ => true
  | .tmPolFill _ _ _ => true
  | .portFrameChoice _ => true
  | .wheelSlot _ => true
  | .launchDue _ => true
  | .launchWindowExpiry _ => true
  | .midwayFrameIn _ => true
  | .crossbarMatch => true
  | .fence _ _ _ _ => true
  | .fenceDone => true
  | .fenceTimeout => true
  | .macFlush _ _ _ => true
  | .macAgeOut _ => true
  | .macRead => true
  | .macWrite => true
  | .macDelete => true
  | .auditPassStart => true
  | .auditPassEnd => true
  | .maintLeakAuditNow _ _ => true
  | .ringFrameRx _ _ fcs => decide (fcs.length ≤ 4)
  | .pauseFrameRx _ _ => true
  | .linkLock _ _ _ => true
  | .linkLoss _ => true
  | .helloTx => true
  | .helloRx _ _ => true
  | .helloTimeout _ => true
  | .ringCheckTx => true
  | .ringStateTimeout => true
  | .holdoffEnd => true
  | .sourceAgeOut _ => true
  | .ddEntryAgeOut _ => true
  | .paradeWaitExpiry => true
  | .paradeSurveyRx _ _ => true
  | .paradeAssignmentRx _ _ => true
  | .lateReqRx _ _ => true
  | .paradeTimeout => true
  | .ringParade _ _ => true
  | .ringParadeTimeout => true
  | .ringLinkRestart _ _ _ => true
  | .ringEnable _ => true
  | .hsrSupervisionTx => true
  | .timeSet _ _ _ _ _ _ => true
  | .timeStep _ _ _ _ _ => true
  | .timeStepPermit _ _ _ _ => true
  | .timeSlew _ _ _ _ _ => true
  | .permitExpiry _ => true
  | .slewComplete _ => true
  | .servoInput _ ix => ix.wf
  | .servoSourceLost _ => true
  | .servoSrcWrite _ _ => true
  | .ptpEventTx _ _ _ => true
  | .eventPinEdge _ _ _ _ => true
  | .evqPop => true
  | .evqFlush => true
  | .timeNowRead _ => true
  | .ppoEnable _ _ => true
  | .ppoFire _ => true
  | .ppoPulseEnd _ => true
  | .ppsoPulse _ => true
  | .heartbeatTx => true
  | .heartbeatRx _ _ => true
  | .heartbeatPathSilent _ => true
  | .joinTimeout => true
  | .fatalHandover => true
  | .fatalResetDelay => true
  | .journalFrameTx => true
  | .jnlEdge _ _ _ _ _ _ _ => true
  | .jnlLaneRx _ _ _ _ items => listWf 32 items
  | .jnlFretRx _ _ _ _ words => listWf 16 words
  | .jnlCanRx _ _ _ _ entry => listWf 20 entry
  | .jnlDsnap _ _ _ ws => decide (ws.length = 16)
  | .jnlEvent _ _ _ _ _ => true
  | .jnlRingRx _ _ _ _ _ _ _ => true
  | .jnlRingMiss => true
  | .jnlHostCmd _ _ _ ws => decide (ws.length = 8)
  | .jnlTimed _ _ _ _ _ => true
  | .jnlMark _ _ _ _ _ => true
  | .jnlJob _ _ _ _ _ => true
  | .jnlTxDone _ _ _ _ => true
  | .jnlTime _ _ _ _ _ _ _ _ => true
  | .jnlDigest _ _ _ _ _ => true
  | .jnlSwitch _ _ _ => true
  | .jnlState _ _ _ => true
  | .syncTimeout => true
  | .revertRequest => true
  | .twinResync _ _ => true
  | .twinRevertHold _ _ _ => true
  | .scrubPassEnd _ bad _ => decide bad.Nodup
  | .maintScrubNow _ _ => true
  | .lagClear _ => true
  | .usbVbusChange _ => true
  | .usbAttach _ => true
  | .usbBusReset _ => true
  | .usbSuspend => true
  | .usbWakeWindowEnd => true
  | .usbHostResume => true
  | .usbPortConnect _ _ => true
  | .usbPortDisconnect _ => true
  | .usbPortResetEnd _ _ => true
  | .usbPortBabble _ => true
  | .usbPortRemoteK _ => true
  | .usbPortResumeEnd _ => true
  | .getStatus _ _ _ => true
  | .clearFeature _ _ _ _ => true
  | .setFeature _ _ _ _ => true
  | .setAddress _ _ => true
  | .getDescriptor _ _ _ _ => true
  | .getConfiguration _ => true
  | .setConfiguration _ _ => true
  | .getInterface _ _ => true
  | .setInterface _ _ _ => true
  | .unsupportedRequest _ => true
  | .getHubStatus => true
  | .clearHubFeature _ => true
  | .getPortStatus _ => true
  | .setPortPower _ => true
  | .setPortReset _ => true
  | .setPortSuspend _ => true
  | .setPortTest _ _ => true
  | .clearPortEnable _ => true
  | .clearPortSuspend _ => true
  | .clearPortPower _ => true
  | .clearPortChange _ _ => true
  | .clearTtBuffer _ _ => true
  | .resetTt _ => true
  | .usbCmdOut _ bs => decide (bs.length ≤ 512)
  | .usbRspIn _ => true
  | .usbNotifyIn _ => true
  | .usbPointReadReq _ bs => decide (bs.length ≤ 512)
  | .usbPointReadIn _ => true
  | .netOn _ _ _ => true
  | .netOff _ _ _ => true
  | .netClear _ _ _ => true
  | .netCardPresent _ => true
  | .netCardAbsent _ => true
  | .netVsWindowChange _ _ => true
  | .netInsertDelayEnd _ => true
  | .netRampDone _ _ => true
  | .netGateRiseDone _ _ _ => true
  | .netHardShort _ _ => true
  | .netSoaTrip _ _ => true
  | .netRampTimeout _ => true
  | .netCurveTrip _ codes => !codes.isEmpty
  | .netGriseTimeout _ _ => true
  | .netGateLowFault _ _ _ => true
  | .netPgLoss _ _ _ => true
  | .netDsShort _ _ _ => true
  | .netRetryWaitEnd _ => true
  | .netRetriesReset _ => true
  | .netLinkSilent => true
  | .netClockStop => true
  | .netVinLockout _ => true
  | .maintNetGateTest _ _ _ _ => true
  | .netGateTestResult _ _ => true
  | .hqTailWrite _ _ _ => true
  | .hqHeadWrite _ _ _ => true
  | .hqDisable _ _ => true
  | .commandTake => true
  | .qspiRead _ n => decide (0 < n)
  | .qspiWrite op _ bs => op != 0xEB && op != 0x05 && !bs.isEmpty
  | .qspiStatus => true
  | .pciePerst _ => true
  | .msixVectorUnmask _ => true
  | .nodeHello _ _ _ => true
  | .nodeInfo _ _ => true
  | .nodeReset _ _ _ => true
  | .nodeResetFire => true
  | .maintRingLoop _ _ _ _ => true
  | .ringLoopTestTx _ => true
  | .ringLoopEnd => true
  | .maintEnd _ _ => true
  | .maintTwinDrill _ _ => true
  | .maintFlashStage _ _ => true
  | .dmaTxTailWrite _ _ => true
  | .dmaRxTailWrite _ _ => true
  | .dmaTxDescriptor _ _ _ _ => true
  | .dmaRxFrame _ => true
  | .powerFail => true
  | .rstNLow => true
  | .watchdogExpiry => true
  | .coldResetEnd _ => true
  | .warmReset => true
  | .scriptWrite => true
  | .scriptCommand => true
  | .scriptWait => true
  | .scriptEnd => true
  | .wdRunClear => true
  | .refclkLost _ _ => true
  | .refclkReturn _ => true
  | .returnNow _ => true
  | .pllUnlock => true
  | .pllRelockEnd => true
  | .svcHello _ => true
  | .svcBaud _ _ => true
  | .svcRead _ _ _ => true
  | .svcStageOpen _ _ _ _ => true
  | .svcStageWrite _ _ _ bs _ => decide (bs.length ≤ 4096)
  | .svcStageClose _ _ => true
  | .svcStageAbort _ => true
  | .svcIdentWrite _ _ bs => decide (bs.length ≤ 4096)
  | .svcFuseKey _ _ key => decide (key.length ≤ 4096)
  | .svcStatus _ => true
  | .svcReset _ _ => true
  | .svcResetFire => true
  | .svcBadFrame _ => true
  | .svcFrameTimeout => true
  | .svcBaudRevert => true
  | .svcWpDeassert => true
  | .stageIdleTimeout => true
  | .canRxBusError _ _ _ _ => true
  | .laneCtsChange _ _ => true
  | .laneTxUnderrunClose _ => true
  | .laneIrigOutFrame _ => true
  | .ptpAnnounceRx _ _ => true
  | .ptpPdelayRx _ _ => true
  | .takeTransmitterLimit => true
  | .netVinRestored _ => true
  | .netClockRestored => true
  | .pcieLinkUp _ _ => true

end Sys2Proof
end

