-- ==== Sys2Proof/Safety.lean ====
section
/-! DEFINITION. What counts as a safe run, and the terms the statements use: what a command gives, what it leaves alone, and how a host
command is accepted and answered. -/

namespace Sys2Proof.Machine

/-- The non-volatile memories have their canonical form: the flash lists no byte that an erased one reads as, at rising addresses, and a
programmed key fuse holds the 32 bytes of a SHA-256 value (R477, R483). -/
def NonVol.wf (nv : NonVol) : Bool :=
  Memory.wf 0xFF nv.flash && nv.fuse.all fun key => decide (key.length = 32)

/-- The invariant of the machine's data. -/
def State.Inv (s : State) : Prop := s.nv.wf = true

/-- A step goes on: it neither faults nor is refused. -/
def State.goesOn (s : State) : Prop := ∃ t, step s = .next t

/-- Every waiting command is one that a sender can send. -/
def State.queueWf (s : State) : Prop := ∀ c ∈ s.pending, c.wf = true

/-- In state `s` command `i` answers a next state, of which `P` holds. -/
def Gives (i : Instr) (s : State) (P : State → Prop) : Prop := ∃ t, exec i s = .next t ∧ P t

/-- In state `s` command `i` answers the next state whose hub is `h`; the queue and the non-volatile memories are as before. -/
def Makes (i : Instr) (s : State) (h : Hub) : Prop := exec i s = .next { s with hub := h }

/-! ## What is left alone -/

/-- The parts of the hub's state. -/
inductive Part where
  | regs | free | out | glb | host | tim | twin | ring | swc | tm | chk | pt | car | ln | fret | can | usb | net | start
  deriving DecidableEq, Repr

/-- A part is the same in both. -/
def Hub.same (h h' : Hub) : Part → Prop
  | .regs => h'.regs = h.regs
  | .free => h'.freeCtr = h.freeCtr
  | .out => h'.out = h.out
  | .glb => h'.glb = h.glb
  | .host => h'.host = h.host
  | .tim => h'.tim = h.tim
  | .twin => h'.twin = h.twin
  | .ring => h'.ring = h.ring
  | .swc => h'.swc = h.swc
  | .tm => h'.tm = h.tm
  | .chk => h'.chk = h.chk
  | .pt => h'.pt = h.pt
  | .car => h'.car = h.car
  | .ln => h'.ln = h.ln
  | .fret => h'.fret = h.fret
  | .can => h'.can = h.can
  | .usb => h'.usb = h.usb
  | .net => h'.net = h.net
  | .start => h'.start = h.start

/-- From `s` to `t` nothing changed but parts named in `ps`: the queue, the non-volatile memories, the time and every other part are as
before. -/
def Only (ps : List Part) (s t : State) : Prop :=
  t.pending = s.pending ∧ t.nv = s.nv ∧ t.hub.now = s.hub.now ∧ ∀ p, p ∉ ps → s.hub.same t.hub p

/-- Every register word outside `as` is as before. -/
def RegsBut (as : List Nat) (s t : State) : Prop := ∀ a, a ∉ as → t.hub.rd a = s.hub.rd a

/-- Register words that sending a frame of the node's own may write: the counters and events of a placement and of the packet buffer, and
those of the journal. -/
def sendRegs : List Nat :=
  [Reg.TWIN_CNT_JNL_OVERFLOW, Reg.TWIN_EVT, Reg.SWC_EVT, Reg.TM_CNT_MISROUTE, Reg.TM_CNT_NO_LAUNCH, Reg.TM_EVT]

/-- The transmitter of lane `n` may take an item, and `x` of kind `kind`, valid in its mode and not the idle item, is the head (R87). -/
def Hub.txReady (h : Hub) (n kind : Nat) (x : Word) : Prop :=
  h.txFree n = true ∧ (h.lane n).txq.items.head? = some x ∧ 0 < (h.lane n).txq.ready h.now ∧ x.toNat / 2 ^ 28 = kind ∧ kind ≠ 0xF ∧
    validTx (h.lnMode n) kind = true

/-- Engine `e` runs, neither stalls nor holds, its engine cycle has come, and the word `x` of opcode `op` is at its `PC` (R111). -/
def Hub.frAt (h : Hub) (e op x : Nat) : Prop :=
  (h.eng e).run = true ∧ (h.eng e).holding = false ∧ (h.eng e).stall = 0 ∧ (h.eng e).cyc ≤ h.frCycle e ∧ h.frWord e (h.eng e).pc = x ∧
    x / 2 ^ 12 = op

/-- The hub once an instruction of engine `e` has completed with effect `h'`: its strobe has acted, the engine goes on at `pc` in the next
engine cycle, and changed pins are driven (R111, R112, R118). -/
def Hub.frEnd (h h' : Hub) (e x pc : Nat) : Hub :=
  let k := h'.frStrobe e x
  (k.setEng e { k.eng e with stall := 0, saw := false, cyc := h.frCycle e + 1, pc := pc }).frDrive h (e / 4)

/-- Engine `e` of hub `h` stalls for a reason until the next engine cycle (R111). -/
def Hub.frStall (h : Hub) (e why : Nat) (saw : Bool) : Hub :=
  h.setEng e { h.eng e with stall := why, saw := saw, cyc := h.frCycle e + 1 }

/-- Context `c` is in its slot, runs before its deadline and not since a wait that ended in this cycle (R208), and the defined word `i` of
instruction `row` is at its `PC` (R153, R185). -/
def Hub.ctxAt (h : Hub) (c : Nat) (row : Nat × Nat) (i : Word) : Prop :=
  (h.ctx c).st = .running ∧ (h.ctx c).held = false ∧ (h.ctx c).skip = 0 ∧ (h.ctx c).wokeAt ≠ some h.now ∧
    h.ownsSlot c = true ∧ h.pastDeadline c = false ∧ h.car.bad.contains (h.ctx c).pc = false ∧ h.progWord (h.ctx c).pc = i ∧ wordDefined i = true ∧ rowOf i = row

/-- The context as its instruction sees it: L tells whether less than a tenth of the deadline remains (R173, R187). -/
def Hub.ctxNow (h : Hub) (c : Nat) : Ctx := { h.ctx c with l := h.nearDeadline c }

/-- The hub in which an instruction of context `c` acts. -/
def Hub.ctxSees (h : Hub) (c : Nat) : Hub := h.setCtx c (h.ctxNow c)

/-- The hub once an instruction of context `c` has completed with effect `h`, at a cost in slots; the context goes on at the next word,
and faults where its program ends (R188). -/
def Hub.ctxDone (h : Hub) (c cost : Nat) : Hub := ((h.setCtx c { h.ctx c with skip := cost - 1 }).useSlot).advance c

/-- The hub once an instruction of context `c` has taken it to word `pc`. -/
def Hub.ctxJump (h : Hub) (c pc : Nat) : Hub := (h.setCtx c { h.ctx c with pc := pc }).useSlot

/-! ## Host commands -/

/-- The hub accepts command `c` and comes to its own checks: it is not held in reset, the source may be served (R448), version, code and
role are right (R455), and, where a queue is the source, the hub keeps no journal (R369). -/
def Accepts (s : State) (c : CmdIn) : Prop :=
  s.hub.held = false ∧ s.hub.served c = true ∧ s.hub.precheck c = none ∧
    match c.src with
    | .queue _ => s.hub.twin.role ≠ .active
    | _ => True

/-- Register words that a response on queue `q` writes: the eight words of its slot, the queue's indices, the response event. -/
def answerRegs (s : State) (q : Nat) : List Nat :=
  Reg.HOST_EVT :: Reg.HQ_RSP q :: (List.range 8).map fun j => Reg.HQ_RSP_SLOT q (s.hub.fld (Reg.HQ_RSP q) F.HQ_RSP_TAIL % 16 * 8 + j)

/-- From `s` to `t` the response to command `c`, with `status` and result words `res`, has been put on queue `q` (R449, R452): the slot at
the tail holds code, tag and status, then 0, then the results, the tail has moved on by one, and the queue's response event is set. -/
def Posted (q : Fin 4) (c : CmdIn) (status : Nat) (res : List Word) (s t : State) : Prop :=
  let tail := s.hub.fld (Reg.HQ_RSP q) F.HQ_RSP_TAIL
  t.hub.rd (Reg.HQ_RSP_SLOT q (tail % 16 * 8)) = word (c.code % 65536 + c.tag % 256 * 65536 + status * 2 ^ 24) ∧
    (∀ j, j < 6 → t.hub.rd (Reg.HQ_RSP_SLOT q (tail % 16 * 8 + 2 + j)) = res.getD j 0) ∧
    t.hub.fld (Reg.HQ_RSP q) F.HQ_RSP_TAIL = (tail + 1) % 32 ∧
    Nat.testBit (t.hub.fld Reg.HOST_EVT F.HOST_EVT_RSP) q = true

/-- Command `c` has been answered with `status` and result words `res`: on its queue; to its setup script, which has the status; for the
journal, on the queue of the same number once this hub acts itself (R369, R380). -/
def Answered (c : CmdIn) (status : Nat) (res : List Word) (s t : State) : Prop :=
  match c.src with
  | .queue q => Posted q c status res s t
  | .script => t.hub.glb.scriptAns = some status
  | .journal q => t.hub.acts = true → Posted q c status res s t

/-- Command `c` has been accepted and answers on completion (R449): on a queue it is counted in progress. -/
def InProgress (c : CmdIn) (s t : State) : Prop :=
  match c.src with
  | .queue q => t.hub.fld (Reg.HQ_INPROG q) F.HQ_INPROG = min 31 (s.hub.fld (Reg.HQ_INPROG q) F.HQ_INPROG + 1)
  | _ => True

/-- The register words that an answer may write. -/
def ackRegs (c : CmdIn) (s : State) : List Nat :=
  match c.src with
  | .queue q => Reg.HQ_INPROG q :: answerRegs s q
  | .journal q => answerRegs s q
  | .script => []

/-- What a host command leaves alone: from `s` to `t` only parts of `ps`, register words of `as`, and what its answer writes changed. -/
def CmdOnly (ps : List Part) (as : List Nat) (c : CmdIn) (s t : State) : Prop :=
  Only (.regs :: .glb :: ps) s t ∧ RegsBut (as ++ ackRegs c s) s t ∧
    t.hub.glb = match c.src with
      | .script => { s.hub.glb with scriptAns := t.hub.glb.scriptAns }
      | _ => s.hub.glb

/-! ## Service requests -/

/-- The command is a frame of the service port. -/
def isService : Instr → Bool
  | .svcHello _ | .svcBaud _ _ | .svcRead _ _ _ | .svcStageOpen _ _ _ _ | .svcStageWrite _ _ _ _ _ | .svcStageClose _ _
  | .svcStageAbort _ | .svcIdentWrite _ _ _ | .svcFuseKey _ _ _ | .svcStatus _ | .svcReset _ _ | .svcBadFrame _ => true
  | _ => false

/-- The staging session stays in its slot: the image's length and the manifest kept are within the sizes of R477 and R479. -/
def State.stageOk (s : State) : Prop :=
  ∀ g, s.hub.glb.stage = some g → g.len ≤ 0x800000 ∧ g.manifest.length ≤ 4096

/-- The hub that has heard a good service request now (R490). -/
def Hub.svcHeard (h : Hub) : Hub := h.setGlb { h.glb with svcGood := h.now }

/-- The request of type `typ` and sequence `seq` is not a repetition of the previous one (R490). -/
def Hub.svcFresh (h : Hub) (typ seq : Nat) : Prop := ∀ r, h.glb.svcPrev ≠ some (typ, seq, r)

/-- State `s` once a service request of type `typ` and sequence `seq`, whose effect left hub `h` and non-volatile memories `nv`, has been
answered with `status` and further payload `rest`; the response is kept for a repetition (R489, R490). -/
def State.svcDone (s : State) (typ seq : Nat) (h : Hub) (nv : NonVol) (status : Nat) (rest : List Byte) : State :=
  let rsp := svcFrame (typ + 0x80) seq (byte status :: rest)
  { s with hub := (h.setGlb { h.glb with svcPrev := some (typ, seq, rsp) }).emit (.bytes rsp), nv := nv }

end Sys2Proof.Machine
end

