-- ==== Sys2Proof/Certificates/Slice0/Obligations.lean ====
section
/-! DEFINITION. The statements for the provers: first what holds of every step of the machine, then the commands, family by family. A
clause in the form `Makes i s h` says that command `i` completes in state `s` with hub `h` and changes nothing else; `Gives i s P` that it
completes in a next state of which `P` holds. -/

open Sys2Proof Sys2Proof.Machine

/-- A step of a machine that has commands waiting takes the one at the front and runs it on the machine with the queue's rest. Where it
rests on readings or choices of the model's own, they are those of log entry 7. -/
def Obligations.StepRunsTheFront : Prop :=
  ∀ (s : State) (c : Instr), step { s with pending := c :: s.pending } = exec c s

/-- What no command does: it neither takes from the queue nor adds to it, and only a frame of the service port changes the non-volatile
memories (R476, R477, R483). Where it rests on readings or choices of the model's own, they are those of log entry 7. -/
def Obligations.CommandsKeepQueueAndNonVolatile : Prop :=
  ∀ (i : Instr) (s t : State), exec i s = .next t → t.pending = s.pending ∧ (isService i = false → t.nv = s.nv)

/-- Every command answers a next state in every state, and no step faults or is refused: the specification gives every command an
effect (a refusal of the hub's own is a next state). Where it rests on readings or choices of the model's own, they are those of log
entry 3. -/
def Obligations.EveryStepGoesOn : Prop :=
  (∀ (i : Instr) (s : State), ∃ t, exec i s = .next t) ∧ ∀ s : State, s.goesOn

/-- Every step keeps the canonical form of the flash and of the programmed key hash (R477, R483), from every state that has it. -/
def Obligations.InvariantKeptByEveryStep : Prop :=
  ∀ s t : State, s.Inv → step s = .next t → t.Inv

/-- The machine after reset: the invariant holds; it is held in cold reset with nothing waiting (R472); the register words read their
reset values; the bases are `UNSET` at 0 (R333), the ring is `DOWN`, contexts are `PARKED`, lanes `STOPPED`, channels `OFF`, tags free.
That the flash is erased and the fuses are unprogrammed is the model's choice (log entries 7 and 17). -/
def Obligations.ResetState : Prop :=
  State.reset.Inv ∧ State.reset.pending = [] ∧ State.reset.hub.held = true ∧ State.reset.hub.now = 0 ∧ State.reset.hub.out = [] ∧
  (∀ a, State.reset.hub.rd a = resetWord a) ∧
  (∀ b, (State.reset.hub.tb b).ns = 0 ∧ (State.reset.hub.tb b).servo = .unset) ∧
  (∀ c, (State.reset.hub.ctx c).st = .parked) ∧ (∀ n, (State.reset.hub.lane n).st = .stopped) ∧
  (∀ n, (State.reset.hub.net1 n).st = .off) ∧ (∀ t, (State.reset.hub.tag t).st = .free) ∧
  State.reset.hub.twin.jseq = 0 ∧ State.reset.hub.pt.mir = [] ∧ (∀ q ∈ allQueues, (State.reset.hub.qCommon q).high = false) ∧
  (∀ x, mget 0xFF State.reset.nv.flash x = 0xFF) ∧ State.reset.nv.fuse = none

/-- R483: while the key fuses are unprogrammed the key check passes for any key and `UNSECURED` is set at boot; `SVC_FUSE_KEY` programs
the 256 bits, which `GLB_KEY_HASH` shows, and sets `KEY_LOCKED`; no step of the machine changes programmed fuses. -/
def Obligations.KeyFusesProgramOnce : Prop :=
  (∀ (nv : NonVol) (stepping slot : Nat), nv.fuse = none → slotResult nv stepping slot ≠ 2) ∧
  (∀ (nv : NonVol) (stepping slot : Nat) (key : List Byte), nv.fuse = some key →
    (sha512 (slice (nv.manifest slot) 4000 32)).take 32 ≠ key → slotResult nv stepping slot = 1 ∨ slotResult nv stepping slot = 2) ∧
  (∀ (h : Hub) (nv : NonVol), (h.bootIdent nv).flag Reg.GLB_BOOT F.GLB_BOOT_UNSECURED = nv.fuse.isNone) ∧
  (∀ (h : Hub) (nv : NonVol) (key : List Byte), nv.fuse = some key →
    (∀ i, i < 8 → (h.bootIdent nv).rd (Reg.GLB_KEY_HASH i) = word (beAt key (4 * i) 4)) ∧
    (h.bootIdent nv).flag Reg.GLB_KEY_LOCKED F.GLB_KEY_LOCKED_KEY_LOCKED = true) ∧
  (∀ (s : State) (q : Byte) (key : List Byte), s.hub.held = false → s.hub.svcFresh 9 q.toNat → s.nv.fuse = none → key.length = 32 →
    Gives (.svcFuseKey q true key) s fun t => t.nv = { s.nv with fuse := some key } ∧
      (∀ i, i < 8 → t.hub.rd (Reg.GLB_KEY_HASH i) = word (beAt key (4 * i) 4)) ∧
      t.hub.flag Reg.GLB_KEY_LOCKED F.GLB_KEY_LOCKED_KEY_LOCKED = true) ∧
  (∀ (s t : State) (key : List Byte), s.nv.fuse = some key → step s = .next t → t.nv.fuse = some key)

/-- The hub never writes the reserved part of the flash, nor what lies behind slot B (R477): no step changes a byte there, from every
state whose staging session stays in its slot; a request of the service port leaves such a session. -/
def Obligations.ReservedFlashNeverWritten : Prop :=
  (∀ (s t : State) (a : Nat), s.stageOk → step s = .next t → (0x10000 ≤ a ∧ a < 0x100000) ∨ 0x1100000 ≤ a →
    mget 0xFF t.nv.flash a = mget 0xFF s.nv.flash a) ∧
  (∀ (i : Instr) (s t : State), isService i = true → s.stageOk → exec i s = .next t → t.stageOk) ∧
  State.reset.stageOk

/-- A hub held in cold reset changes on nothing but the end of the reset, another source of a cold reset, and the levels and supplies
that stand outside it: bank supplies, lane pins, VBUS, `PCIE_PERST_N`, `VIN_NET` (R472, R473), and, where the Net die holds its
channels, what befalls that die (R20, R434). With no command waiting, only time passes, and the Net die takes what has come where its
cycle ends (R432). Where it rests on readings or choices of the model's own, they are those of log entries 2, 8, 16, 44 and 51. -/
def Obligations.ColdResetHoldsTheHub : Prop :=
  (∀ (i : Instr) (s : State), s.hub.glb.inCold = true →
    (match i with
      | .powerFail | .rstNLow | .coldResetEnd _ | .pllRelockEnd | .pciePerst _ | .bankVioChange _ _ | .netVinLockout _
      | .netVinRestored _ | .usbVbusChange _ | .lanePinEdge _ _ _ => False
      | .netCardPresent _ | .netCardAbsent _ | .netVsWindowChange _ _ | .netInsertDelayEnd _ | .netRetryWaitEnd _ | .netRetriesReset _
      | .netRampDone _ _ | .netGateRiseDone _ _ _ | .netPgLoss _ _ _ | .netHardShort _ _ | .netSoaTrip _ _ | .netRampTimeout _
      | .netCurveTrip _ _ | .netGriseTimeout _ _ | .netGateLowFault _ _ _ | .netDsShort _ _ _ | .netLinkSilent | .netClockStop
      | .netClockRestored => s.hub.net.hold = false
      | _ => True) →
    exec i s = .next s) ∧
  (∀ s : State, s.hub.held = true → s.pending = [] →
    let k := if s.hub.now / 2500 = (s.hub.now + tuCore) / 2500 then s.hub else s.hub.netSettle
    ∃ x : Start, step s = .next { s with hub := { k with now := k.now + tuCore, start := x } })

/-- R6: a statistics counter is 32 bits wide and saturates at 0xFFFF_FFFF; a narrower counter, a field of a word, saturates at its
width. -/
def Obligations.CountersSaturate : Prop :=
  (∀ (h : Hub) (a n : Nat), ((h.countN a n).rd a).toNat = min 0xFFFFFFFF ((h.rd a).toNat + n) ∧
    ∀ b, b ≠ a → (h.countN a n).rd b = h.rd b) ∧
  (∀ (h : Hub) (a : Nat) (f : Nat × Nat), f.1 + f.2 ≤ 32 →
    (h.countFld a f).fld a f = min (2 ^ f.2 - 1) (h.fld a f + 1) ∧
    (∀ g : Nat × Nat, g.1 + g.2 ≤ f.1 ∨ f.1 + f.2 ≤ g.1 → (h.countFld a f).fld a g = h.fld a g) ∧
    ∀ b, b ≠ a → (h.countFld a f).rd b = h.rd b)

/-- R5: every block has an event register of W1C bits and, in the next word, its enables; a bit is set, and stays set, whether or not
it is enabled; only an enabled bit raises an interrupt; a write of 1 clears. -/
def Obligations.EventRegisters : Prop :=
  let evs := [Reg.GLB_EVT, Reg.HOST_EVT, Reg.TIME_EVT, Reg.TWIN_EVT, Reg.RING_EVT, Reg.SWC_EVT, Reg.TM_EVT, Reg.CAR_EVT, Reg.CRC_EVT,
    Reg.USB_EVT, Reg.NET_EVT, Reg.PTM_EVT, Reg.LANE_EVT, Reg.FRET_EVT] ++ (List.range 96).map Reg.LN_EVT ++
    (List.range 32).map Reg.FR_EVT ++ (List.range 16).map Reg.CAN_EVT ++ (List.range 16).map Reg.NET_N_EVT
  (∀ a ∈ evs, fieldsAt a ≠ [] ∧ (∀ f ∈ fieldsAt a, f.acc = .w1c) ∧
    (fieldsAt (a + 4)).map (fun f => (f.lo, f.width)) = (fieldsAt a).map (fun f => (f.lo, f.width)) ∧
    ∀ f ∈ fieldsAt (a + 4), f.acc = .rw) ∧
  (∀ a ∈ evs, ∀ x w : Word, ∀ f ∈ fieldsAt a, ∀ i, i < f.width →
    testBit (applyFields false w (fieldsAt a) (x, false)).1.toNat (f.lo + i) = (testBit x.toNat (f.lo + i) && !testBit w.toNat (f.lo + i))) ∧
  (∀ (h : Hub) (a n : Nat), n < 32 → testBit ((h.evt a (n, 1)).rd a).toNat n = true ∧
    (∀ m, m ≠ n → testBit ((h.evt a (n, 1)).rd a).toNat m = testBit (h.rd a).toNat m) ∧
    ∀ b, b ≠ a → (h.evt a (n, 1)).rd b = h.rd b) ∧
  (∀ (h : Hub) (a en : Nat), h.evPend a en = true ↔ ∃ n, n < 32 ∧ testBit (h.rd a).toNat n = true ∧ testBit (h.rd en).toNat n = true) ∧
  (∀ (h : Hub), (∀ a ∈ evs, h.rd (a + 4) = 0) → ∀ v, testBit h.vectors v = false) ∧
  (∀ (h : Hub) (s : Nat), s < 29 → h.irqEn s = true →
    testBit h.vectors (h.fld (Reg.HOST_IRQ_MAP s) F.HOST_IRQ_MAP_VEC) = true ∨ h.irqSource s = false)

/-- The comparator rule, and the full time recovered from a short time (R332, R339): a target is reached when now less the target,
modulo 2^40 and taken as signed, is at least 0, so a target within 2^39 ns is judged rightly. -/
def Obligations.ShortTimesCompare : Prop :=
  (∀ n t : Nat, n < 2 ^ 40 → t < 2 ^ 40 → (reached n t = true ↔ 0 ≤ toSigned 40 (n + 2 ^ 40 - t))) ∧
  (∀ now target : Nat, now < target + 2 ^ 39 → target ≤ now + 2 ^ 39 - 1 →
    (reached (now % 2 ^ 40) target = true ↔ target ≤ now)) ∧
  (∀ n : Nat, reached n (n + 2 ^ 39) = false ∧ reached (n + 2 ^ 39) n = false) ∧
  (∀ now x : Nat, x < now + 2 ^ 39 → now < x + 2 ^ 39 → (now : Int) - toSigned 40 (now + 2 ^ 40 - x % 2 ^ 40) = x) ∧
  (∀ (h : Hub) (b : Nat), h.short b = (h.tb b).ns % 2 ^ 40)

/-- The watermarks of every queue at the end of a cycle, and what a crossing does (R235, R236). Where it rests on readings or choices
of the model's own, they are those of log entry 18. -/
def Obligations.QueueWatermarks : Prop :=
  (∀ (h : Hub) (q : QRef), q ∈ allQueues →
    let w := h.qWm q
    let k := h.wmJudge q
    ((h.qCommon q).high = false → h.qDepth q < w.hi → k = h) ∧
    ((h.qCommon q).high = true → w.lo < h.qDepth q → k = h) ∧
    ((h.qCommon q).high = false → w.hi ≤ h.qDepth q → k = ((((h.setHigh q true).evt w.stat w.hiSeen).evt w.evt w.evtBit).countFld w.stat w.cross)) ∧
    ((h.qCommon q).high = true → h.qDepth q ≤ w.lo → k = ((((h.setHigh q false).evt w.stat w.loSeen).evt w.evt w.evtBit).countFld w.stat w.cross)) ∧
    w.cross.2 = 16) ∧
  (∀ (h : Hub) (q : QRef) (x : Bool), q ∈ allQueues → ((h.setHigh q x).qCommon q).high = x ∧ (h.setHigh q x).regs = h.regs ∧
    ∀ r ∈ allQueues, (h.setHigh q x).qDepth r = h.qDepth r ∧ (r ≠ q → (h.setHigh q x).qCommon r = h.qCommon r)) ∧
  (∀ (h : Hub) (q : QRef), q ∈ allQueues →
    (h.crossClear q).fld (h.qWm q).stat (h.qWm q).cross = 0 ∧ ((h.crossClear q).qCommon q).high = (h.qCommon q).high)

/-- The journal of a twin (R365 to R369, R381): only an active hub keeps one; a record takes the next sequence number and waits, or is
dropped and counted where the store is full; a host command of a queue is journaled before any of its checks; and a hub that does not
act refuses commands but those of the twin and `NODE_HELLO`. Where it rests on readings or choices of the model's own, they are those
of log entries 22 and 50. -/
def Obligations.ActiveHubJournalsCommands : Prop :=
  (∀ (h : Hub) (kind : Nat) (body : List Word),
    let r : JRec := { kind := kind, jseq := h.twin.jseq, act := h.baseNs h.strumTb % 2 ^ 32, body := body, at_ := h.now }
    let room := jstoreSize h.twin.store + 8 + 4 * body.length
    (h.twin.role ≠ .active → h.jnl kind body = h) ∧
    (h.twin.role = .active → (h.jnl kind body).twin.jseq = (h.twin.jseq + 1) % 65536) ∧
    (h.twin.role = .active → room ≤ 131072 → (h.jnl kind body).twin.store = h.twin.store ++ [r] ∧ (h.jnl kind body).regs = h.regs) ∧
    (h.twin.role = .active → 131072 < room → (h.jnl kind body).twin.store = h.twin.store ∧
      (h.jnl kind body).flag Reg.TWIN_EVT F.TWIN_EVT_JNL_OVERFLOW = true ∧
      ((h.jnl kind body).rd Reg.TWIN_CNT_JNL_OVERFLOW).toNat = min 0xFFFFFFFF ((h.rd Reg.TWIN_CNT_JNL_OVERFLOW).toNat + 1))) ∧
  (∀ (h : Hub) (c : CmdIn) (q : Fin 4) (run : Hub → CmdIn → Ack), c.src = .queue q → h.twin.role = .active → h.served c = true →
    let j := h.jnl 0x08 (word q.val :: word (c.code + c.tag * 65536 + c.rsv * 2 ^ 24) :: c.args)
    (∀ st d o, j.precheck c = some (st, d, o) → h.accept c run = (j.logRefusal c.ref st d o).respond c.ref st d o []) ∧
    (∀ k res, j.precheck c = none → run j c = .done k res → h.accept c run = k.respond c.ref sOK 0 0 res) ∧
    (∀ st d o, j.precheck c = none → run j c = .refuse st d o → h.accept c run = (j.logRefusal c.ref st d o).respond c.ref st d o [])) ∧
  (∀ (h : Hub) (c : CmdIn) (q : Fin 4), c.src = .queue q → h.acts = false → codeDefined c.code = true → c.code ≠ 0x0C06 →
    familyIn (h.fld (Reg.HQ_CFG q) F.HQ_CFG_VERSION) (c.code / 256) = true → h.fld (Reg.HQ_CFG q) F.HQ_CFG_VERSION ≠ 0 →
    (c.code / 256 ≠ 9 → c.code ≠ 0x0101 → ∃ d, h.precheck c = some (sESTATE, d, 0)) ∧
    (c.code / 256 = 9 ∨ c.code = 0x0101 → c.rsv = 0 → h.precheck c = none))

/-- Writes of register words by their access codes, accesses that are not aligned words, the order of the paths in one cycle, and
quad-SPI transfers (R4, R162, R441, R443 to R446, R475, R533). What a transfer to an address beyond the windows returns is left open
(log entry 4). Where it rests on readings or choices of the model's own, they are those of log entries 4, 11 and 14. -/
def Obligations.RegisterAccesses : Prop :=
  (∀ (a : Nat) (x w : Word) (live : Bool),
    let r := applyFields live w (fieldsAt a) (x, false)
    (∀ f ∈ fieldsAt a,
      let g := (f.lo, f.width)
      (f.acc = .rw ∨ (f.acc = .rwl ∧ live = false) → bits r.1 g = bits w g) ∧
      (f.acc = .w1c → ∀ i, i < f.width → testBit (bits r.1 g) i = (testBit (bits x g) i && !testBit (bits w g) i)) ∧
      (f.acc = .ro ∨ f.acc = .wo ∨ f.acc = .sc ∨ (f.acc = .rwl ∧ live = true) → bits r.1 g = bits x g)) ∧
    (r.2 = true ↔ live = true ∧ ∃ f ∈ fieldsAt a, f.acc = .rwl ∧ bits x (f.lo, f.width) ≠ bits w (f.lo, f.width))) ∧
  (∀ (s : State) (p : HostPath) (a : BitVec 20) (w : Word),
    let n := (a.toNat - 0x40000) / 0x100
    let c := (a.toNat - 0x50000) / 0x400
    let e := (a.toNat - 0x48000) / 0x80
    let k (h : Hub) : Hub := h.noteWord p a.toNat w
    s.hub.held = false → s.hub.writeOpen p a.toNat = true → a.toNat % 4 = 0 → s.hub.laterWord p a.toNat = none →
    (a.toNat < 0x4000 → a.toNat ≠ Reg.GLB_CLK_CTL → Makes (.registerWrite p a 15 w) s (k (s.hub.regWrite a.toNat w false id))) ∧
    (0x40000 ≤ a.toNat → a.toNat < 0x46000 → a.toNat ∉ [Reg.LN_DOUT n, Reg.LN_PINCFG n, Reg.LN_RXQ_STAT n, Reg.LN_TXQ_STAT n] →
      Makes (.registerWrite p a 15 w) s (k (s.hub.regWrite a.toNat w (decide ((s.hub.lane n).st ≠ .stopped))
        fun h => h.lnEvt n F.LN_EVT_WRITE_REFUSED))) ∧
    (0x48000 ≤ a.toNat → a.toNat < 0x49000 →
      a.toNat ∉ [Reg.FR_CTL e, Reg.FR_TXQ_PUSH e, Reg.FR_TXQ_STAT e, Reg.FR_RXQ_STAT e] →
      Makes (.registerWrite p a 15 w) s (k (s.hub.regWrite a.toNat w (s.hub.eng e).run fun h => h.frEvt e F.FR_EVT_WRITE_REFUSED))) ∧
    (0x50000 ≤ a.toNat → a.toNat < 0x58000 → a.toNat ∉ [Reg.CAN_TXQ_PUSH c, Reg.CAN_TXQ_STAT c, Reg.CAN_RXQ_STAT c] →
      Makes (.registerWrite p a 15 w) s (k (s.hub.regWrite a.toNat w (decide ((s.hub.can1 c).st ≠ .stopped))
        fun h => h.canEvt c F.CAN_EVT_WRITE_REFUSED)))) ∧
  (∀ (s : State) (p : HostPath) (a : BitVec 20) (w x : Word), s.hub.held = false → s.hub.writeOpen p a.toNat = true → a.toNat % 4 = 0 →
    s.hub.laterWord p a.toNat = some x →
    let y := afterLater w x (fieldsAt a.toNat)
    Makes (.registerWrite p a 15 w) s ((s.hub.writeWord p a.toNat y).noteWord p a.toNat y) ∧
    ((fieldsAt a.toNat).Pairwise (fun f g => f.lo + f.width ≤ g.lo) → (∀ f ∈ fieldsAt a.toNat, f.lo + f.width ≤ 32) →
      ∀ f ∈ fieldsAt a.toNat,
        bits y (f.lo, f.width) = bits (if f.acc = .rw ∨ f.acc = .rwl then x else w) (f.lo, f.width))) ∧
  (∀ (s : State) (p : HostPath) (a : BitVec 20) (be : BitVec 4) (w : Word), s.hub.held = false → s.hub.pathOn p = true →
    (a.toNat % 4 ≠ 0 ∨ be ≠ 15) → Makes (.registerWrite p a be w) s
      (if s.hub.hostOpen then (s.hub.evt Reg.HOST_EVT F.HOST_EVT_BAD_ACCESS).count Reg.HOST_CNT_BAD_ACCESS else s.hub)) ∧
  (∀ (s : State) (p : HostPath) (a : BitVec 20) (w : Word), s.hub.held = false → s.hub.writeOpen p a.toNat = false → a.toNat % 4 = 0 →
    Makes (.registerWrite p a 15 w) s s.hub) ∧
  (∀ (s : State) (addr : Word), s.hub.held = false → s.hub.pathOn .qspi = true → s.hub.hostOpen = true → addr.toNat < 2 ^ 20 →
    addr.toNat % 4 = 0 →
    (addr.toNat ≠ Reg.CAR_SCR_DATA → Makes (.qspiRead addr 4) s
      ((s.hub.readWord addr.toNat).2.emit (.bytes (0xA5 :: leBytes 4 (s.hub.readWord addr.toNat).1.toNat))).scrServe) ∧
    (addr.toNat = Reg.CAR_SCR_DATA → Makes (.qspiRead addr 4) s
      (s.hub.scrQueue none (some { head := [0xA5], next := addr.toNat + 4, left := 4 }) true).scrServe) ∧
    ∀ bs : List Byte, bs.length = 4 → Makes (.qspiWrite 0x38 addr bs) s (s.hub.putWord .qspi addr.toNat (word (leNat bs)))) ∧
  (∀ (s : State) (addr : Word) (n : Nat), s.hub.held = false → s.hub.pathOn .qspi = true →
    let k : Hub := { s.hub with host := { s.hub.host with qspiErr := true } }
    let bad := if s.hub.hostOpen then k.evt Reg.HOST_EVT F.HOST_EVT_BAD_ACCESS else k
    (2 ^ 21 ≤ addr.toNat → Makes (.qspiRead addr n) s
      { bad.emit (.bytes (0xA5 :: (List.range n).map fun i => byte (Config.freeWord (s.hub.freeCtr + i)).toNat)) with
        freeCtr := s.hub.freeCtr + n }) ∧
    (2 ^ 21 ≤ addr.toNat → ∀ bs, Makes (.qspiWrite 0x38 addr bs) s bad) ∧
    (∀ (op : Byte) (bs : List Byte), op ≠ 0x38 → Makes (.qspiWrite op addr bs) s bad) ∧
    (addr.toNat < 2 ^ 20 → 2 ^ 20 < addr.toNat + n → Gives (.qspiRead addr n) s fun t => t.hub.host.qspiErr = true)) ∧
  (∀ (s : State), s.hub.held = false → s.hub.pathOn .qspi = true → Makes .qspiStatus s
    { s.hub.emit (.bytes [byte (bitB s.hub.irqN + bitB s.hub.host.qspiErr * 2 +
        bitB (s.hub.car.scr.any fun r => r.qspi && r.val.isSome) * 4)]) with
      host := { s.hub.host with qspiErr := false } })

/-- The command queues, the checks of a command, and its refusal before any effect (R447 to R450, R455 to R457). Where it rests on
readings or choices of the model's own, they are those of log entry 10. -/
def Obligations.CommandQueuesAndChecks : Prop :=
  (∀ (s : State) (q : Fin 4) (p : HostPath) (w : Word),
    let t := bits w F.HQ_CMD_TAIL
    let room := (t + 32 - s.hub.fld (Reg.HQ_CMD q) F.HQ_CMD_HEAD) % 32
    s.hub.held = false → s.hub.pathOpen p = true →
    (s.hub.ownsQueue p q = false → Makes (.hqTailWrite q p w) s (s.hub.evt Reg.HOST_EVT F.HOST_EVT_WRITE_REFUSED)) ∧
    (s.hub.ownsQueue p q = true → 16 < room → Makes (.hqTailWrite q p w) s
      ((s.hub.evt Reg.HOST_EVT F.HOST_EVT_CREDIT_OVERRUN).count Reg.HOST_CNT_CREDIT_OVERRUN)) ∧
    (s.hub.ownsQueue p q = true → room ≤ 16 → Gives (.hqTailWrite q p w) s fun u => Only [.regs] s u ∧
      RegsBut [Reg.HQ_CMD q] s u ∧ u.hub.fld (Reg.HQ_CMD q) F.HQ_CMD_TAIL = t ∧ u.hub.hqWaiting q = room)) ∧
  (∀ (s : State) (q : Fin 4) (p : HostPath) (w : Word),
    let t := bits w F.HQ_RSP_HEAD
    let n := (t + 32 - s.hub.fld (Reg.HQ_RSP q) F.HQ_RSP_HEAD) % 32
    s.hub.held = false → s.hub.pathOpen p = true →
    (s.hub.ownsQueue p q = false ∨ s.hub.hqUnread q < n →
      Makes (.hqHeadWrite q p w) s (s.hub.evt Reg.HOST_EVT F.HOST_EVT_WRITE_REFUSED)) ∧
    (s.hub.ownsQueue p q = true → n ≤ s.hub.hqUnread q → Gives (.hqHeadWrite q p w) s fun u => Only [.regs] s u ∧
      RegsBut [Reg.HQ_RSP q] s u ∧ u.hub.fld (Reg.HQ_RSP q) F.HQ_RSP_HEAD = t ∧ u.hub.hqUnread q = s.hub.hqUnread q - n)) ∧
  (∀ (s : State) (q : Fin 4) (w : Word), s.hub.held = false → s.hub.flag (Reg.HQ_CFG q) F.HQ_CFG_EN = true →
    Gives (.hqDisable q w) s fun u => Only [.regs] s u ∧ RegsBut [Reg.HQ_CFG q, Reg.HQ_CMD q, Reg.HOST_EVT] s u ∧
      u.hub.flag (Reg.HQ_CFG q) F.HQ_CFG_EN = false ∧ u.hub.hqWaiting q = 0 ∧
      u.hub.fld (Reg.HQ_CMD q) F.HQ_CMD_TAIL = s.hub.fld (Reg.HQ_CMD q) F.HQ_CMD_TAIL) ∧
  (∀ (h : Hub) (q : Nat), h.host.lastQ < 4 → (h.nextQueue = some q ↔ q < 4 ∧ h.hqOpen q = true ∧ h.hqWaiting q ≠ 0 ∧
    ∀ j, 1 ≤ j → j < (q + 3 - h.host.lastQ) % 4 + 1 → ¬(h.hqOpen ((h.host.lastQ + j) % 4) = true ∧ h.hqWaiting ((h.host.lastQ + j) % 4) ≠ 0))) ∧
  (∀ (s : State) (q : Fin 4), s.hub.held = false → s.hub.nextQueue = some q.val →
    let k := s.hub.setFld (Reg.HQ_CMD q) F.HQ_CMD_HEAD ((s.hub.fld (Reg.HQ_CMD q) F.HQ_CMD_HEAD + 1) % 32)
    Makes .commandTake s (Hub.doCmd (Hub.count { k with host := { k.host with lastQ := q.val } } Reg.HOST_CNT_CMD)
      (cmdOf (.queue q) (s.hub.hqHead q)))) ∧
  (∀ (h : Hub) (c : CmdIn) (st d o : Nat), h.served c = true → h.precheck c = some (st, d, o) →
    (∀ q, c.src = .queue q → h.twin.role ≠ .active) →
    h.doCmd c = (h.logRefusal c.ref st d o).respond c.ref st d o []) ∧
  (∀ (h : Hub) (c : CmdIn),
    let ver := match c.src with
      | .script => 3
      | .queue q => h.fld (Reg.HQ_CFG q) F.HQ_CFG_VERSION
      | .journal q => if h.fld (Reg.HQ_CFG q) F.HQ_CFG_VERSION = 0 then 3 else h.fld (Reg.HQ_CFG q) F.HQ_CFG_VERSION
    (ver = 0 → c.code ≠ 0x0101 → h.precheck c = some (sEVERSION, 0, 0)) ∧
    (ver ≠ 0 → codeDefined c.code = false ∨ familyIn ver (c.code / 256) = false → h.precheck c = some (sENOTSUP, 0, 0)) ∧
    (3 ≤ ver → c.code = 0x0C06 → h.precheck c = some (sEDENIED, 0, 0))) ∧
  (∀ (s : State) (src : CmdSrc) (tag : Byte),
    let c := mkCmd src 0x0C06 tag []
    s.hub.held = false → s.hub.served c = true → s.hub.precheck c = some (sEDENIED, 0, 0) →
    (∀ q, src = .queue q → s.hub.twin.role ≠ .active) →
    Makes (.maintFlashStage src tag) s ((s.hub.logRefusal c.ref sEDENIED 0 0).respond c.ref sEDENIED 0 0 []))

/-- The global commands, a journaled host command, and the ring loop (R369, R453, R463 to R465). Where it rests on readings or choices
of the model's own, they are those of log entry 10. -/
def Obligations.GlobalCommandsAndRingLoop : Prop :=
  (∀ (s : State) (jseq : Half) (act : Word) (q : Fin 4) (ws : List Word), s.hub.held = false → s.hub.twin.role = .standby →
    (s.hub.twin.jseqRx = none ∨ ∃ n, s.hub.twin.jseqRx = some n ∧ jseq.toNat = (n + 1) % 65536) →
    Makes (.jnlHostCmd jseq act q ws) s
      (Hub.doCmd ((s.hub.setTwin { s.hub.twin with jseqRx := some jseq.toNat, worked := true }).jnlLag act.toNat) (cmdOf (.journal q) ws))) ∧
  (∀ (s : State) (q : Fin 4) (tag lo hi : Byte),
    let c := mkCmd (.queue q) 0x0101 tag [word (lo.toNat + hi.toNat * 256)]
    let v := min 3 hi.toNat
    Accepts s c → 1 ≤ lo.toNat → lo.toNat ≤ hi.toNat → lo.toNat ≤ 3 →
    Gives (.nodeHello (.queue q) tag (word (lo.toNat + hi.toNat * 256))) s fun t =>
      Answered c sOK [word (v + 256 + 3 * 65536)] s t ∧ CmdOnly [] [Reg.HQ_CFG q] c s t ∧
      t.hub.fld (Reg.HQ_CFG q) F.HQ_CFG_VERSION = v ∧ t.hub.fld (Reg.HQ_CFG q) F.HQ_CFG_PATH = s.hub.fld (Reg.HQ_CFG q) F.HQ_CFG_PATH) ∧
  (∀ (s : State) (src : CmdSrc) (tag : Byte),
    let c := mkCmd src 0x0102 tag []
    Accepts s c → Gives (.nodeInfo src tag) s fun t => CmdOnly [] [] c s t ∧
      Answered c sOK [s.hub.rd Reg.GLB_ID, (s.hub.slot 0xFF02).value, (s.hub.slot 0xFF03).value, s.hub.rd Reg.TWIN_HEALTH_LO,
        s.hub.rd Reg.TWIN_HEALTH_HI] s t) ∧
  (∀ (s : State) (src : CmdSrc) (tag : Byte) (kind : Word),
    let c := mkCmd src 0x0103 tag [kind]
    Accepts s c → 1 ≤ kind.toNat → kind.toNat ≤ 2 → s.hub.maintFree = true →
    Gives (.nodeReset src tag kind) s fun t => Answered c sOK [] s t ∧ CmdOnly [.host] [] c s t ∧
      t.hub.host = { s.hub.host with resetDue := some (decide (kind.toNat = 2), s.hub.now + tuMs) }) ∧
  (∀ (s : State) (cold : Bool) (t : Nat), s.hub.held = false → s.hub.host.resetDue = some (cold, t) →
    let k : Hub := { s.hub with host := { s.hub.host with resetDue := none } }
    Makes .nodeResetFire s (if t ≤ s.hub.now then (if cold then k.startCold 2 else k.askWarm 3) else s.hub)) ∧
  (∀ (s : State) (src : CmdSrc) (tag : Byte) (pw ms : Word),
    let c := mkCmd src 0x0C01 tag [pw, ms]
    let p := pw.toNat
    Accepts s c → p < 3 → 1 ≤ ms.toNat → ms.toNat ≤ 60000 → s.hub.fld (Reg.RING_P_CFG p) F.RING_P_CFG_MODE ≠ 0 →
    (p < 2 → s.hub.ring.state = .closed) → s.hub.maintFree = true →
    runRingLoop s.hub c = .later (let k := s.hub.linkDown p
      let k := k.setRport p { k.rport p with loop := true }
      { k with host := { k.host with maint := .loop ⟨p, s.hub.now, ms.toNat * tuMs, 0, 0, 0, none, c.ref⟩ } }) ∧
    (s.hub.comingOn p = none → Gives (.maintRingLoop src tag pw ms) s fun t => InProgress c s t ∧ (t.hub.rport p).loop = true ∧ (t.hub.rport p).link = .down ∧
      t.hub.host = { s.hub.host with maint := .loop ⟨p, s.hub.now, ms.toNat * tuMs, 0, 0, 0, none, c.ref⟩ })) ∧
  (∀ (s : State) (l : RingLoop), s.hub.held = false → s.hub.host.maint = .loop l → l.ended = none →
    (∀ back : Option Bool, l.at_ + l.sent * tuUs ≤ s.hub.now → l.sent * tuUs < l.dur → Makes (.ringLoopTestTx back) s
      (s.hub.setLoop { l with sent := l.sent + 1, good := l.good + bitB (back == some true), bad := l.bad + bitB (back == some false) })) ∧
    (l.at_ + l.dur ≤ s.hub.now → s.hub.loopUp l.port = false → Gives .ringLoopEnd s fun t =>
      Only [.host, .ring] s t ∧ RegsBut [] s t ∧ (t.hub.rport l.port).loop = false ∧
      t.hub.host = { s.hub.host with maint := .loop { l with ended := some s.hub.now } }) ∧
    ∀ (src : CmdSrc) (tag : Byte),
      let c := mkCmd src 0x0C07 tag []
      Accepts s c → Gives (.maintEnd src tag) s fun t => Answered c sOK [] s t ∧ CmdOnly [.host, .ring] [] c s t ∧
        (t.hub.rport l.port).loop = false ∧
        t.hub.host = { s.hub.host with maint := .loop { l with ended := some s.hub.now } }) ∧
  (∀ (s : State) (l : RingLoop) (t : Nat), s.hub.held = false → s.hub.host.maint = .loop l → l.ended = some t →
    Makes .ringLoopEnd s
      (if s.hub.loopUp l.port then s.hub.maintEnd.answer l.ref sOK [word l.sent, word l.good, word l.bad]
       else if t + 100 * tuMs ≤ s.hub.now then s.hub.maintEnd.answer l.ref sETIMEOUT [word l.sent, word l.good, word l.bad]
       else s.hub))

/-- The point commands (R37, R38, R56, R63, R67, R69, R70): a change of the map takes effect at once while the Strum is stopped, else
it waits for the next base edge. Where it rests on readings or choices of the model's own, they are those of log entries 3, 38 and 45. -/
def Obligations.PointCommandsTakeEffect : Prop :=
  (∀ (s : State) (src : CmdSrc) (tag : Byte) (first count what : Word),
    let c := mkCmd src 0x0D06 tag [first, count, what]
    Accepts s c → first.toNat + count.toNat ≤ 0xFF00 → 1 ≤ count.toNat → what.toNat % 16 < 8 → s.hub.car.strum = false →
    Gives (.ptMapSet src tag first count what) s fun t =>
      Answered c sOK [] s t ∧ CmdOnly [.pt] [] c s t ∧
      (∀ i, first.toNat ≤ i → i < first.toNat + count.toNat → t.hub.slot i =
        if testBit what.toNat 15 then
          { quality := 1, typ := BitVec.ofNat 4 what.toNat, flags := BitVec.ofNat 8 (what.toNat / 16 % 32) ||| 0x80 }
        else {}) ∧
      (∀ i, i < first.toNat ∨ first.toNat + count.toNat ≤ i → t.hub.slot i = s.hub.slot i) ∧
      t.hub.pt = { s.hub.pt with pts := t.hub.pt.pts, wrote := [] }) ∧
  (∀ (s : State) (src : CmdSrc) (tag : Byte) (first count what : Word),
    let c := mkCmd src 0x0D06 tag [first, count, what]
    let m : MapChange := ⟨first.toNat, count.toNat, testBit what.toNat 15, BitVec.ofNat 4 what.toNat, BitVec.ofNat 8 (what.toNat / 16 % 32)⟩
    Accepts s c → first.toNat + count.toNat ≤ 0xFF00 → 1 ≤ count.toNat → what.toNat % 16 < 8 → s.hub.car.strum = true →
    Gives (.ptMapSet src tag first count what) s fun t =>
      Answered c sOK [] s t ∧ CmdOnly [.pt] [] c s t ∧
      t.hub.pt = { s.hub.pt with mapPend := s.hub.pt.mapPend ++ [m] }) ∧
  (∀ (s : State) (src : CmdSrc) (tag : Byte) (entry : Word) (tt : Nat),
    let c := mkCmd src 0x0D04 tag [entry]
    let i := entry.toNat
    Accepts s c → i < 4096 → s.hub.subOk i = true → s.hub.subSt i = .off ∨ s.hub.subSt i = .failed → s.hub.freeTag = some tt →
    Gives (.ptSubOpen src tag entry) s fun t =>
      Answered c sOK [] s t ∧ CmdOnly [.pt, .ring, .swc] [] c s t ∧ t.hub.subSt i = .opening ∧
      (∀ j, j ≠ i → t.hub.subSt j = s.hub.subSt j) ∧
      (∀ m, t.hub.mirE m = if s.hub.subBase i ≤ m ∧ m < s.hub.subBase i + s.hub.subCount i then { quality := 1, flags := 0xC0 }
        else s.hub.mirE m) ∧
      t.hub.tag tt = { st := .pending, kind := .subscribe, origin := c.origin, node := s.hub.subNode i, point := s.hub.subStart i,
                       count := s.hub.subCount i, landing := i, status := (s.hub.tag tt).status, lastTx := s.hub.now } ∧
      (∀ u, u ≠ tt → t.hub.tag u = s.hub.tag u) ∧ (∀ j, t.hub.slot j = s.hub.slot j)) ∧
  (∀ (s : State) (src : CmdSrc) (tag : Byte) (entry : Word),
    let c := mkCmd src 0x0D05 tag [entry]
    let i := entry.toNat
    Accepts s c → i < 4096 → s.hub.subSt i ≠ .off →
    Gives (.ptSubClose src tag entry) s fun t =>
      Answered c sOK [] s t ∧ CmdOnly [.pt] [] c s t ∧ t.hub.subSt i = .off ∧ (∀ j, j ≠ i → t.hub.subSt j = s.hub.subSt j) ∧
      (∀ m, t.hub.mirE m = if s.hub.subBase i ≤ m ∧ m < s.hub.subBase i + s.hub.subCount i then {} else s.hub.mirE m) ∧
      (∀ u, u < 256 → t.hub.tag u =
        if (s.hub.tag u).st = .pending ∧ (s.hub.tag u).kind = .subscribe ∧ (s.hub.tag u).landing = i then
          { s.hub.tag u with st := .quarantine, ref := none, parts := [], held := [] }
        else s.hub.tag u) ∧ (∀ j, t.hub.slot j = s.hub.slot j))

/-- Reads and writes of points by command (R45, R46, R48, R63, R66, R67, R69, R70). Where it rests on readings or choices of the
model's own, they are those of log entries 20, 38 and 45. -/
def Obligations.PointReadsAndWrites : Prop :=
  (∀ (s : State) (src : CmdSrc) (tag : Byte) (addr count landing : Word) (tt : Nat),
    let c := mkCmd src 0x0D01 tag [addr, count, landing]
    let node := addr.toNat / 65536 % 256
    Accepts s c → addr.toNat < 2 ^ 24 → s.hub.ownNode node = false → node ≠ 0xFF → 1 ≤ count.toNat → count.toNat ≤ 122 →
    addr.toNat % 65536 + count.toNat ≤ 65536 → landing.toNat + count.toNat ≤ 16384 →
    (∀ j ∈ s.hub.subsOpen, rangesMeet landing.toNat count.toNat (s.hub.subBase j) (s.hub.subCount j) = false) →
    s.hub.freeTag = some tt →
    Gives (.ptRead src tag addr count landing) s fun t =>
      InProgress c s t ∧ CmdOnly [.pt, .ring, .swc] [] c s t ∧
      t.hub.tag tt = { st := .pending, kind := .read, origin := c.origin, node := node, point := addr.toNat % 65536, count := count.toNat,
                       landing := landing.toNat, ref := some c.ref, status := (s.hub.tag tt).status, lastTx := s.hub.now } ∧
      (∀ u, u ≠ tt → t.hub.tag u = s.hub.tag u) ∧ t.hub.pt = { s.hub.pt with tags := t.hub.pt.tags }) ∧
  (∀ (s : State) (src : CmdSrc) (tag : Byte) (addr value quality tsx tsLo tsHi : Word),
    let c := mkCmd src 0x0D02 tag [addr, value, quality, tsx, tsLo, tsHi]
    let i := addr.toNat % 65536
    let r := s.hub.slot i
    Accepts s c → addr.toNat < 2 ^ 24 → s.hub.ownNode (addr.toNat / 65536 % 256) = true → addr.toNat / 65536 % 256 ≠ 0xFF →
    i < 0xFF00 → r.defined = true → r.wrHost = true →
    Gives (.ptWrite src tag addr value quality tsx tsLo tsHi) s fun t =>
      Answered c sOK [] s t ∧ CmdOnly [.pt] [] c s t ∧
      t.hub.slot i = r.write value quality.toNat false
        (if testBit tsx.toNat 0 then tsLo.toNat + tsHi.toNat * 2 ^ 32 else s.hub.stampNow r.tb) ∧
      (∀ j, j ≠ i → t.hub.slot j = s.hub.slot j) ∧ t.hub.pt = { s.hub.pt with pts := t.hub.pt.pts, wrote := t.hub.pt.wrote, wroteAt := t.hub.pt.wroteAt } ∧
      t.hub.pt.wroteAt = s.hub.now ∧ tget 0 t.hub.pt.wrote i = rkHost) ∧
  (∀ (s : State) (src : CmdSrc) (tag : Byte) (addr value quality tsx tsLo tsHi : Word) (tt : Nat),
    let c := mkCmd src 0x0D02 tag [addr, value, quality, tsx, tsLo, tsHi]
    let node := addr.toNat / 65536 % 256
    let tb := quality.toNat / 2 ^ 24 % 4
    Accepts s c → addr.toNat < 2 ^ 24 → s.hub.ownNode node = false → node ≠ 0xFF → s.hub.freeTag = some tt →
    Gives (.ptWrite src tag addr value quality tsx tsLo tsHi) s fun t =>
      InProgress c s t ∧ CmdOnly [.pt, .ring, .swc] [] c s t ∧
      t.hub.tag tt = { st := .pending, kind := .write, origin := c.origin, node := node, point := addr.toNat % 65536, count := 1,
                       recs := [mkReqRec value quality.toNat tb
                         (if testBit tsx.toNat 0 then tsLo.toNat + tsHi.toNat * 2 ^ 32 else s.hub.stampNow tb)],
                       ref := some c.ref, status := (s.hub.tag tt).status, lastTx := s.hub.now } ∧
      (∀ u, u ≠ tt → t.hub.tag u = s.hub.tag u) ∧ t.hub.pt = { s.hub.pt with tags := t.hub.pt.tags }) ∧
  (∀ (s : State) (src : CmdSrc) (tag : Byte) (addr value quality tsx tsLo tsHi : Word),
    let c := mkCmd src 0x0D03 tag [addr, value, quality, tsx, tsLo, tsHi]
    let i := addr.toNat % 65536
    let r := s.hub.slot i
    Accepts s c → addr.toNat < 2 ^ 24 → s.hub.ownNode (addr.toNat / 65536 % 256) = true → addr.toNat / 65536 % 256 ≠ 0xFF →
    i < 0xFF00 → r.defined = true → r.typ = 7 → r.wrHost = true →
    Gives (.ptEvent src tag addr value quality tsx tsLo tsHi) s fun t =>
      Answered c sOK [] s t ∧ CmdOnly [.pt] [Reg.PTM_EVT] c s t ∧ t.hub.flag Reg.PTM_EVT F.PTM_EVT_EVENT_RX = true ∧
      t.hub.slot i = r.write value quality.toNat false
        (if testBit tsx.toNat 0 then tsLo.toNat + tsHi.toNat * 2 ^ 32 else s.hub.stampNow r.tb) ∧
      (∀ j, j ≠ i → t.hub.slot j = s.hub.slot j) ∧ t.hub.pt = { s.hub.pt with pts := t.hub.pt.pts, wrote := t.hub.pt.wrote, wroteAt := t.hub.pt.wroteAt } ∧
      t.hub.pt.wroteAt = s.hub.now ∧ tget 0 t.hub.pt.wrote i = rkHost)

/-- What a frame that the point port takes does (R54, R57, R58, R62 to R66, R225; the record of a refused READ is log entry 46's): `k`
is the hub once the frame has been taken. Where it rests on readings or choices of the model's own, they are those of log entries 38,
45 and 46. -/
def Obligations.PointPortTakesFrames : Prop :=
  (∀ (s : State) (f : Frame) (k : Hub) (b : Bundle),
    let n := nrpParse f.bytes
    let c := (k.count Reg.PTM_CNT_BUNDLE_RX).count Reg.GRD_CNT_OK
    s.hub.held = false → s.hub.takeInbox (fun f => frameType tPub f || frameType tFrame f || frameOdd f) = some (f, k) → frameType tPub f = true →
    k.ptEnabled = true → k.delivers = true → bundleParse n.ver (nrpPayload f.bytes) = some b → b.count ≠ 0 → k.guardJudge n b = .pass →
    n.ver ≠ 3 → Makes .bundleRx s (c.feedSubs f b)) ∧
  (∀ (s : State) (f : Frame) (k : Hub),
    s.hub.held = false → s.hub.takeInbox (fun f => frameType tPub f || frameType tFrame f || frameOdd f) = some (f, k) → frameType tFrame f = true →
    Makes .bundleRx s (k.deliver f)) ∧
  (∀ (s : State) (f : Frame) (k : Hub) (b : Bundle),
    let n := nrpParse f.bytes
    let pts := beAt (nrpPayload f.bytes) 2 2
    let slot := b.start % 65536
    let c := (k.count Reg.PTM_CNT_BUNDLE_RX).count Reg.GRD_CNT_OK
    s.hub.held = false → s.hub.takeInbox (frameReq .read) = some (f, k) → k.ptEnabled = true → k.delivers = true →
    bundleParse n.ver ((nrpPayload f.bytes).drop 4) = some b → b.count = 0 → k.guardJudge n b = .pass → n.group = false → 1 ≤ pts → pts ≤ 122 →
    k.allDefined slot pts = true →
    Makes .txnReadReqRx s (c.respondTxn n 0 0 sOK (k.ring.addr * 65536 + slot) (k.slots slot pts))) ∧
  (∀ (s : State) (f : Frame) (k : Hub) (b : Bundle),
    let n := nrpParse f.bytes
    let pts := beAt (nrpPayload f.bytes) 2 2
    let slot := b.start % 65536
    let c := (k.count Reg.PTM_CNT_BUNDLE_RX).count Reg.GRD_CNT_OK
    s.hub.held = false → s.hub.takeInbox (frameReq .read) = some (f, k) → k.ptEnabled = true → k.delivers = true →
    bundleParse n.ver ((nrpPayload f.bytes).drop 4) = some b → b.count = 0 → k.guardJudge n b = .pass → n.group = false →
    pts = 0 ∨ 122 < pts ∨ k.allDefined slot pts = false →
    Makes .txnReadReqRx s (c.respondTxn n 0 0 sEARG (k.ring.addr * 65536 + slot) [k.slot slot])) ∧
  (∀ (s : State) (f : Frame) (k : Hub) (b : Bundle),
    let n := nrpParse f.bytes
    let pts := beAt (nrpPayload f.bytes) 2 2
    let slot := b.start % 65536
    let c := (k.count Reg.PTM_CNT_BUNDLE_RX).count Reg.GRD_CNT_OK
    s.hub.held = false → s.hub.takeInbox (frameReq .subscribe) = some (f, k) → k.ptEnabled = true → k.delivers = true →
    bundleParse n.ver ((nrpPayload f.bytes).drop 4) = some b → b.count = 0 → k.guardJudge n b = .pass → n.group = false → 1 ≤ pts → pts ≤ 1024 →
    k.allDefined slot pts = true →
    Makes .txnSubscribeReqRx s ((List.range (ceilDiv pts 122)).foldl (fun h i => h.respondTxn n 2 i sOK
      (h.ring.addr * 65536 + slot + 122 * i) (h.slots (slot + 122 * i) (min 122 (pts - 122 * i)))) c)) ∧
  (∀ (s : State) (f : Frame) (k : Hub) (b : Bundle),
    let n := nrpParse f.bytes
    let c := (k.count Reg.PTM_CNT_BUNDLE_RX).count Reg.GRD_CNT_OK
    s.hub.held = false → s.hub.takeInbox (frameReq .write) = some (f, k) → k.ptEnabled = true → k.delivers = true →
    bundleParse n.ver ((nrpPayload f.bytes).drop 4) = some b → b.count ≠ 0 → k.guardJudge n b = .pass →
    beAt (nrpPayload f.bytes) 0 1 / 16 = 1 → n.group = false → k.judgeWrite (b.start % 65536) b.recs = sOK →
    Makes .txnWriteReqRx s ((c.remoteWrite f (b.start % 65536) b.recs).respondTxn n 1 0 sOK b.start [])) ∧
  (∀ (s : State) (f : Frame) (k : Hub) (b : Bundle),
    let n := nrpParse f.bytes
    let slot := b.start % 65536
    let c := (k.count Reg.PTM_CNT_BUNDLE_RX).count Reg.GRD_CNT_OK
    s.hub.held = false → s.hub.takeInbox (frameReq .event) = some (f, k) → k.ptEnabled = true → k.delivers = true →
    bundleParse n.ver ((nrpPayload f.bytes).drop 4) = some b → b.count = 1 → (∀ w ∈ b.recs, w.typ = 7) → k.guardJudge n b = .pass →
    beAt (nrpPayload f.bytes) 0 1 / 16 = 3 → slot < 0xFF00 → (k.slot slot).defined = true → (k.slot slot).wrRemote = true →
    (k.slot slot).typ = 7 →
    let e := (c.remoteWrite f slot (b.recs.take 1)).evt Reg.PTM_EVT F.PTM_EVT_EVENT_RX
    Makes .txnEventReqRx s (if n.group then e else e.respondTxn n 3 0 sOK b.start [])) ∧
  (∀ (s : State) (f : Frame) (k : Hub) (b : Bundle),
    let n := nrpParse f.bytes
    let p := nrpPayload f.bytes
    let u := n.flow % 256
    let g := k.tag u
    let c := (k.count Reg.PTM_CNT_BUNDLE_RX).count Reg.GRD_CNT_OK
    s.hub.held = false → s.hub.takeInbox (frameType tRsp) = some (f, k) → k.ptEnabled = true → k.delivers = true →
    bundleParse n.ver (p.drop 4) = some b → k.guardJudge n b = .pass → n.dst = k.ring.addr → g.st = .pending → g.node = n.src →
    beAt p 0 1 / 16 = g.kind.code → beAt p 1 1 = sOK →
    (g.kind = .read → b.count = g.count → b.count ≠ 0 → b.start = g.node * 65536 + g.point → Makes .txnRspRx s (((c.writeRecs f b g.point g.count g.landing).feedSubs f b).txnEnd u sOK)) ∧
    (g.kind = .write ∨ g.kind = .event → b.count = 0 →
      Makes .txnRspRx s (c.txnEnd u sOK))) ∧
  (∀ (s : State) (f : Frame) (k : Hub) (b : Bundle),
    let n := nrpParse f.bytes
    let p := nrpPayload f.bytes
    let c := (k.count Reg.PTM_CNT_BUNDLE_RX).count Reg.GRD_CNT_OK
    s.hub.held = false → s.hub.takeInbox (frameType tRsp) = some (f, k) → k.ptEnabled = true → k.delivers = true →
    bundleParse n.ver (p.drop 4) = some b → k.guardJudge n b = .pass → n.dst ≠ k.ring.addr → b.count ≠ 0 →
    beAt p 0 1 / 16 = 0 ∨ beAt p 0 1 / 16 = 2 → beAt p 1 1 = sOK → Makes .txnRspRx s (c.feedSubs f b))

/-- Timeouts and quarantine of transactions, and the window W2 (R48, R63, R64, R72, R73). Where it rests on readings or choices of the
model's own, they are those of log entries 3 and 38. -/
def Obligations.TransactionTimeoutsAndWindow : Prop :=
  (∀ (s : State) (u : Byte),
    let g := s.hub.tag u.toNat
    s.hub.held = false → g.st = .pending → g.lastTx + s.hub.txnTimeout ≤ s.hub.now → s.hub.acts = true → g.kind ≠ .event →
    g.tries < s.hub.fld Reg.PTM_TXN_CFG F.PTM_TXN_CFG_RETRIES →
    Gives (.txnTimeout u) s fun t => Only [.pt, .regs, .ring, .swc] s t ∧
      RegsBut [Reg.PTM_CNT_TXN_RETRY] s t ∧ t.hub.pt = { s.hub.pt with tags := t.hub.pt.tags } ∧
      t.hub.rd Reg.PTM_CNT_TXN_RETRY = word (min 0xFFFFFFFF ((s.hub.rd Reg.PTM_CNT_TXN_RETRY).toNat + 1)) ∧
      t.hub.tag u.toNat = { g with tries := g.tries + 1, lastTx := s.hub.now } ∧ ∀ v, v ≠ u.toNat → t.hub.tag v = s.hub.tag v) ∧
  (∀ (s : State) (u : Byte),
    let g := s.hub.tag u.toNat
    s.hub.held = false → g.st = .pending → g.lastTx + s.hub.txnTimeout ≤ s.hub.now → s.hub.acts = true → g.ref = none →
    g.kind = .event ∨ s.hub.fld Reg.PTM_TXN_CFG F.PTM_TXN_CFG_RETRIES ≤ g.tries →
    Gives (.txnTimeout u) s fun t => Only [.pt, .regs] s t ∧ RegsBut [Reg.PTM_CNT_TXN_TIMEOUT, Reg.PTM_EVT] s t ∧
      t.hub.rd Reg.PTM_CNT_TXN_TIMEOUT = word (min 0xFFFFFFFF ((s.hub.rd Reg.PTM_CNT_TXN_TIMEOUT).toNat + 1)) ∧
      t.hub.flag Reg.PTM_EVT F.PTM_EVT_TXN_FAIL = true ∧ t.hub.tag u.toNat = { g with st := .quarantine, status := sETIMEOUT, recs := [] } ∧
      (∀ v, v ≠ u.toNat → t.hub.tag v = s.hub.tag v) ∧
      (g.kind = .subscribe → s.hub.subSt g.landing = .opening → t.hub.subSt g.landing = .failed)) ∧
  (∀ (s : State) (u : Byte),
    let g := s.hub.tag u.toNat
    s.hub.held = false → g.st = .quarantine → g.lastTx + s.hub.txnTimeout ≤ s.hub.now →
    Gives (.tagQuarantineEnd u) s fun t => Only [.pt] s t ∧ t.hub.pt = { s.hub.pt with tags := t.hub.pt.tags } ∧
      t.hub.tag u.toNat = { g with st := .free } ∧ ∀ v, v ≠ u.toNat → t.hub.tag v = s.hub.tag v) ∧
  (∀ (s : State) (off : BitVec 20), s.hub.held = false → s.hub.hostOpen = true → off.toNat % 16 = 0 →
    let page := s.hub.fld Reg.PTM_CTL F.PTM_CTL_W2_PAGE
    let ws := (s.hub.w2rec page (off.toNat / 16)).words
    Gives (.w2Read off 4) s fun t => Only [.pt, .out] s t ∧ t.hub.out = s.hub.out ++ [.words (ws.take 1)] ∧
      t.hub.pt = { s.hub.pt with w2latch := some (page, off.toNat / 16, ws.drop 1) }) ∧
  (∀ (s : State) (off : BitVec 20) (ws : List Word), s.hub.held = false → s.hub.hostOpen = true → off.toNat % 4 = 0 → off.toNat % 16 ≠ 0 →
    s.hub.pt.w2latch = some (s.hub.fld Reg.PTM_CTL F.PTM_CTL_W2_PAGE, off.toNat / 16, ws) →
    Gives (.w2Read off 4) s fun t => Only [.out] s t ∧
      t.hub.out = s.hub.out ++ [.words ((ws.drop (off.toNat % 16 / 4 - 1)).take 1)]) ∧
  (∀ (s : State) (off : BitVec 20) (len : Nat), s.hub.held = false → s.hub.hostOpen = true → len ≠ 4 ∨ off.toNat % 4 ≠ 0 →
    let ws := s.hub.w2words (s.hub.fld Reg.PTM_CTL F.PTM_CTL_W2_PAGE) (off.toNat / 4) (ceilDiv (off.toNat % 4 + len) 4)
    Gives (.w2Read off len) s fun t => Only [.pt, .out] s t ∧ t.hub.pt = { s.hub.pt with w2latch := none } ∧
      t.hub.out = s.hub.out ++
        [if off.toNat % 4 = 0 ∧ len % 4 = 0 then .words ws else .bytes (wordBytes ws (off.toNat % 4) len)]) ∧
  (∀ (s : State) (off : BitVec 20) (w : Word),
    let i := off.toNat / 16
    let r := s.hub.slot i
    s.hub.held = false → s.hub.hostOpen = true → s.hub.flag Reg.PTM_CTL F.PTM_CTL_W2_WR_EN = true →
    s.hub.flag Reg.PTM_CTL F.PTM_CTL_W2_PAGE = false → off.toNat % 16 = 0 → i < 0xFF00 → r.defined = true → r.wrHost = true →
    Gives (.w2Write off 4 w) s fun t => Only [.pt] s t ∧ t.hub.slot i = r.write w 0 false (s.hub.stampNow r.tb) ∧
      (∀ j, j ≠ i → t.hub.slot j = s.hub.slot j) ∧ t.hub.pt = { s.hub.pt with pts := t.hub.pt.pts, wrote := t.hub.pt.wrote, wroteAt := t.hub.pt.wroteAt })

/-- Reception on a lane, its pins and its line driver (R80, R85, R90, R93, R94, R100). Where it rests on readings or choices of the
model's own, they are those of log entries 3 and 29. -/
def Obligations.LaneReceptionAndPins : Prop :=
  (∀ (s : State) (n : Fin 96) (sb db pb tb : List (BitVec 3)) (ago : Nat) (x : Word),
    let bs := sb ++ db ++ pb ++ tb
    let l := s.hub.lane n
    let m := s.hub.lnMode n
    let start := if l.seen.isSome then (l.seen.map (·.at_)).getD 0 else s.hub.now - s.hub.charTime n
    let stamp := if l.seen.isSome then (l.seen.map (·.stamp)).getD 0 else s.hub.lnStamp n (3 * n + 1) ago
    let de := if l.seen.isSome then (l.seen.map (·.de)).getD false else l.de && decide (l.deAt ≤ start)
    let h0 := if isAsync m then s.hub.setLane n { l with seen := none } else s.hub
    let h1 := if m = 2 ∧ de = true ∧ s.hub.lnM n F.LN_MCFG_ECHO_SUPPRESS = 0 then (h0.count (Reg.LN_CNT_RX_WHILE_TX n)).lnEvt n F.LN_EVT_RX_WHILE_TX else h0
    let k := (h1.setLane n { h1.lane n with lastChar := h1.now })
    let h := k.snoopBytes 1 n 0 [byte x.toNat]
    s.hub.held = false → l.st = .running → s.hub.lnLoop n = false →
    (hearsChars m = true → (m = 2 → l.deafAt start = false) → h0.charItem n bs = some x → m ≠ 6 →
      (isAsync m = true → h.lnEofIdle n = 0 → Makes (.laneRxChar n sb db pb tb ago) s
        ((if x.toNat / 2 ^ 9 = 0 then h else h.count (Reg.LN_CNT_RX_ERR n)).rxPush n true x)) ∧
      (isAsync m = false ∨ h.lnEofIdle n ≠ 0 → Makes (.laneRxChar n sb db pb tb ago) s
        ((if (h.lane n).rx.on then h else h.rxOpen n stamp).rxData n x))) ∧
    (hearsChars m = true → (m = 2 → l.deafAt start = false) → h0.charItem n bs = none → Makes (.laneRxChar n sb db pb tb ago) s h0) ∧
    (m = 6 → s.hub.charItem n bs = some x → Makes (.laneRxChar n sb db pb tb ago) s (k.targetByte n x stamp)) ∧
    (m = 2 → l.deafAt start = true → Makes (.laneRxChar n sb db pb tb ago) s s.hub)) ∧
  (∀ (s : State) (n : Fin 96),
    let l := s.hub.lane n
    let start := if l.seen.isSome then (l.seen.map (·.at_)).getD 0 else s.hub.now - s.hub.charTime n
    s.hub.held = false → l.st = .running → isAsync (s.hub.lnMode n) = true → s.hub.lnLoop n = false →
    (s.hub.lnMode n = 2 → l.deafAt start = false) →
    Makes (.laneRxBreak n) s (((s.hub.setLane n { l with seen := none }).rxClose n 0).rxPush n false 0x10000000)) ∧
  (∀ (s : State) (n : Fin 96), s.hub.held = false → (s.hub.lane n).st = .running → isAsync (s.hub.lnMode n) = true →
    (s.hub.lane n).rx.on = true → s.hub.lnEofIdle n ≠ 0 →
    (s.hub.lane n).lastChar + s.hub.lnEofIdle n * 100 * tuNs ≤ s.hub.now → Makes (.laneEofIdleExpiry n) s (s.hub.rxClose n 0)) ∧
  (∀ (s : State) (n : Fin 96) (status : Fin 8) (w : Word) (ps : List (BitVec 2)) (ago : Nat),
    let m := s.hub.lnMode n
    s.hub.held = false → (s.hub.lane n).st = .running → (s.hub.lane n).rx.on = true → [4, 5, 6, 7, 8, 9].contains m = true →
    Makes (.laneRxFrameEnd n status ⟨w, ps, ago⟩) s ((if m = 4 ∨ m = 6 then s.hub.snoopFrameEnd 2 n 1 else s.hub).rxClose n status)) ∧
  (∀ (s : State) (n : Fin 96) (i : Fin 3) (level : Bool) (t : Nat),
    let g : Nat := 3 * n + i
    let k := { s.hub with ln := { s.hub.ln with
      pin := tset false s.hub.ln.pin g level, pinAt := tset 0 s.hub.ln.pinAt g s.hub.now } }
    s.hub.held = false →
    (t < s.hub.filtOf g → s.hub.pinOwned g = false → Makes (.lanePinEdge n i ⟨level, t⟩) s s.hub) ∧
    (tget false s.hub.ln.pin g ≠ level → s.hub.pinOwned g = true → Makes (.lanePinEdge n i ⟨level, t⟩) s k) ∧
    (tget false s.hub.ln.pin g ≠ level → s.hub.pinOwned g = false → s.hub.filtOf g ≤ t →
      (k.liveLanes.any fun m => (k.csPin m).contains g) = false →
      ((s.hub.lane n).st ≠ .running → Makes (.lanePinEdge n i ⟨level, t⟩) s k) ∧
      ((s.hub.lane n).st = .running → (k.modePins n).contains i.val = false →
        (s.hub.pinCfg n i 7 = false → Makes (.lanePinEdge n i ⟨level, t⟩) s k) ∧
        (s.hub.pinCfg n i 7 = true → Makes (.lanePinEdge n i ⟨level, t⟩) s
          ((k.rxPush n false (word (5 * 2 ^ 28 + bitB level * 4 + i))).rxPushTs n false (k.lnStamp n g 0)))))) ∧
  (∀ (s : State) (n : Fin 96),
    let g : Nat := 3 * n + 2
    let k := { s.hub with ln := { s.hub.ln with pin := tset false s.hub.ln.pin g false, pinAt := tset 0 s.hub.ln.pinAt g s.hub.now } }
    s.hub.held = false → s.hub.lnMode n = 1 → s.hub.lnF Reg.LN_MODE n F.LN_MODE_C_FUNC = 2 → tget false s.hub.ln.pin g = true →
    (k.liveLanes.any fun m => (k.csPin m).contains g) = false →
    Makes (.laneCtsChange n false) s (if (s.hub.lane n).tx.tail.isSome then k.laneTxEof n else k.laneTxData n 0)) ∧
  (∀ (s : State) (n : Fin 96),
    let l := s.hub.lane n
    s.hub.held = false → l.de = true → l.lead = true → l.deAt + s.hub.lnF Reg.LN_TIMERS n F.LN_TIMERS_DE_LEAD * 400 ≤ s.hub.now →
    Makes (.laneDeLeadEnd n) s ((s.hub.setLane n { l with lead := false }).laneTxData n 0)) ∧
  (∀ (s : State) (n : Fin 96) (t : Nat),
    let l := s.hub.lane n
    s.hub.held = false → l.deOff = some t → t ≤ s.hub.now →
    Makes (.laneDeRelease n) s (s.hub.setLane n { l with
      de := false, deOff := none, deafUntil := s.hub.now + s.hub.lnF Reg.LN_RXHOLD n F.LN_RXHOLD_RX_HOLDOFF * 400 })) ∧
  (∀ (s : State) (n : Fin 96),
    let l := s.hub.lane n
    s.hub.held = false → l.deaf = true → l.de = false → l.deafUntil ≤ s.hub.now →
    Makes (.laneRxHoldoffEnd n) s (s.hub.setLane n { l with deaf := false })) ∧
  (∀ (s : State) (kind : Fin 8) (n : Byte), s.hub.held = false → allQueues.contains ⟨kind, n.toNat⟩ = true →
    Makes (.wmCrossClear kind n) s
      (s.hub.setFld (s.hub.qWm ⟨kind, n.toNat⟩).stat (s.hub.qWm ⟨kind, n.toNat⟩).cross 0)) ∧
  (∀ (h : Hub) (n : Fin 96) (own : Bool) (x : Word), h.twin.role = .solo →
    let l := h.lane n
    (0 < l.rxq.credit h.now 64 → ((h.rxPush n own x).lane n).rxq.items = l.rxq.items ++ [x]) ∧
    (l.rxq.credit h.now 64 = 0 → ((h.rxPush n own x).lane n).rxq = l.rxq ∧
      (h.rxPush n own x).rd (Reg.LN_CNT_RX_OVERRUN n) = word (min 0xFFFFFFFF ((h.rd (Reg.LN_CNT_RX_OVERRUN n)).toNat + 1)) ∧
      (h.rxPush n own x).flag (Reg.LN_EVT n) F.LN_EVT_RX_OVERRUN = true))

/-- The transmitter of a lane acts on the head of its queue, by the kind of that item (R82, R87, R88, R91, R98, R100): `x` is the item,
and `k` the hub once it has been taken. Where it rests on readings or choices of the model's own, they are those of log entries 6, 29
and 47. -/
def Obligations.LaneTransmission : Prop :=
  (∀ (s : State) (n : Fin 96) (x : Word) (inp : Byte),
    let l := s.hub.lane n
    let m := s.hub.lnMode n
    s.hub.held = false → s.hub.txReady n 0 x → s.hub.ctsHigh n = false →
    m ≠ 2 ∨ l.tx.on = true ∨ (l.deOff = none ∧ l.hears = false ∧ l.de = true ∧ l.lead = false) →
    Makes (.laneTxData n inp) s (s.hub.sendData n x.toNat inp)) ∧
  (∀ (s : State) (n : Fin 96) (x : Word) (inp : Byte),
    let l := s.hub.lane n
    s.hub.held = false → s.hub.txReady n 0 x → s.hub.lnMode n = 2 → l.tx.on = false → l.deOff = none → l.hears = false → l.de = false →
    Makes (.laneTxData n inp) s (s.hub.setLane n { l with
      de := true, deAt := s.hub.now, lead := true, deOff := none, deaf := l.deaf || s.hub.lnM n F.LN_MCFG_ECHO_SUPPRESS == 1 })) ∧
  (∀ (s : State) (n : Fin 96) (x : Word) (inp : Byte),
    let l := s.hub.lane n
    s.hub.held = false → s.hub.txReady n 0 x →
    s.hub.ctsHigh n = true ∨ (s.hub.lnMode n = 2 ∧ l.tx.on = false ∧ (l.deOff.isSome = true ∨ l.hears = true ∨ (l.de = true ∧ l.lead = true))) →
    Makes (.laneTxData n inp) s s.hub) ∧
  (∀ (s : State) (n : Fin 96) (x : Word),
    let l := s.hub.lane n
    let k := (s.hub.txPop n).snoopFrameEnd 2 n 1
    s.hub.held = false → s.hub.txReady n 1 x → s.hub.lnLoop n = false → s.hub.ctsHigh n = false →
    s.hub.lnMode n ≠ 2 ∨ l.de = true ∨ l.hears = false →
    Makes (.laneTxBrk n) s ((k.setLane n { k.lane n with busyUntil := s.hub.now + x.toNat % 2 ^ 16 * s.hub.bitTime n }).drive
      (.line n (.brk (x.toNat % 2 ^ 16))))) ∧
  (∀ (s : State) (n : Fin 96) (x : Word),
    let k := s.hub.txPop n
    s.hub.held = false → s.hub.txReady n 6 x →
    Makes (.laneTxGap n) s (k.setLane n { k.lane n with gapUntil := s.hub.now + x.toNat % 2 ^ 20 * 100 * tuNs })) ∧
  (∀ (s : State) (n : Fin 96) (x : Word),
    s.hub.held = false → s.hub.txReady n 8 x →
    Makes (.laneTxDout n) s ((s.hub.txPop n).setDout n (x.toNat % 8) (x.toNat / 16 % 8))) ∧
  (∀ (s : State) (n : Fin 96) (x : Word),
    let l := s.hub.lane n
    let k0 := s.hub.txPop n
    let k1 := if s.hub.lnM2 n F.LN_MCFG2_I2C_SPEED = 3 ∧ l.tx.on = false then k0.lineOut n (.start (byte (8 + s.hub.lnM2 n F.LN_MCFG2_HS_CODE))) else k0
    let k2 := if l.tx.on then k1.snoopFrameEnd 2 n 1 else k1
    let k3 := if l.rx.on then k2.rxClose n 0 else k2
    let h := k3.setLane n { k3.lane n with tx := { on := true } }
    s.hub.held = false → s.hub.txReady n 9 x → (k3.lane n).st = .running →
    Makes (.laneTxI2cStart n) s ((h.rxOpen n (h.lnStamp n (3 * n + 1) 0)).lineOut n (.start (byte x.toNat)))) ∧
  (∀ (s : State) (n : Fin 96) (x : Word) (bs : List Byte),
    let k := s.hub.txPop n
    let h := (k.setLane n { k.lane n with tx := { (k.lane n).tx with on := true } }).lineOut n (.read (x.toNat % 256))
    s.hub.held = false → s.hub.txReady n 0xA x → (h.lane n).rx.on = true →
    Makes (.laneTxI2cRead n bs) s
      ((bs.take (x.toNat % 256)).foldl (fun h b => (h.snoopBytes 1 n 0 [b]).rxData n (word b.toNat)) h)) ∧
  (∀ (s : State) (n : Fin 96) (x : Word),
    s.hub.held = false → s.hub.txReady n 0xB x → (s.hub.lane n).ssi = false → Makes (.laneTxSsiRead n) s ((s.hub.txPop n).ssiStart n)) ∧
  (∀ (s : State) (n : Fin 96) (t : Nat),
    s.hub.held = false → (s.hub.lane n).st = .running → s.hub.lnMode n = 10 → s.hub.lnM n F.LN_MCFG_SSI_AUTO = 1 →
    (s.hub.lane n).ssi = false → tget none s.hub.car.edgeAt (s.hub.lnM2 n F.LN_MCFG2_SSI_GROUP) = some t → t + tuUs ≤ s.hub.now →
    ((s.hub.lane n).ssiEdge ≠ t + 1 →
      Makes (.ssiAutoRead n) s ((s.hub.setLane n { s.hub.lane n with ssiEdge := t + 1 }).ssiStart n)) ∧
    ((s.hub.lane n).ssiEdge = t + 1 → Makes (.ssiAutoRead n) s s.hub)) ∧
  (∀ (s : State) (n : Fin 96) (x : Word),
    let m := s.hub.lnMode n
    let k0 := s.hub.txPop n
    let k := if (k0.lane n).st = .stopping true then k0.setLane n { k0.lane n with stopEof := true } else k0
    let c := s.hub.txCheck n
    let h := if c = [] then k else k.sendChars n false (c.map fun (b : Byte) => b.toNat)
    s.hub.held = false → s.hub.txReady n 4 x → (s.hub.lane n).tx.on = true →
    m ≠ 1 ∨ s.hub.lnF Reg.LN_MODE n F.LN_MODE_C_FUNC ≠ 2 →
    (m ≠ 3 → m ≠ 5 → m ≠ 7 → Makes (.laneTxEof n) s (h.txClose n)) ∧
    (m = 3 → Makes (.laneTxEof n) s ((h.txClose n).rxClose n 0)) ∧
    (m = 5 → Makes (.laneTxEof n) s (((h.lineOut n .stop).txClose n).rxClose n 0)) ∧
    (m = 7 → Makes (.laneTxEof n) s ((h.lineOut n (h.lineBits n hdlcFlag)).txClose n))) ∧
  (∀ (s : State) (n : Fin 96) (x : Word) (b : Byte) (bs : List Byte),
    let l := s.hub.lane n
    s.hub.held = false → s.hub.txReady n 4 x → l.tx.on = true → s.hub.lnMode n = 1 → s.hub.lnF Reg.LN_MODE n F.LN_MODE_C_FUNC = 2 →
    l.tx.tail.getD (s.hub.txCheck n) = b :: bs →
    (s.hub.pinLevel (3 * n + 2) = true → Makes (.laneTxEof n) s s.hub) ∧
    (s.hub.pinLevel (3 * n + 2) = false → bs ≠ [] → Makes (.laneTxEof n) s
      ((s.hub.setLane n { l with tx := { l.tx with tail := some bs } }).sendChars n false [b.toNat]))) ∧
  (∀ (h : Hub) (n : Nat) (p : Poly), h.lnPoly n = some p →
    h.txCheck n = if h.txAppends n then crcBytes p (crc p (h.lane n).tx.bytes) else []) ∧
  (∀ (s : State) (n : Fin 96),
    let l := s.hub.lane n
    let c := (s.hub.count (Reg.LN_CNT_TX_UNDERRUN n)).lnEvt n F.LN_EVT_TX_UNDERRUN
    s.hub.held = false → s.hub.txFree n = true → l.tx.on = true → l.tx.bytes ≠ [] → l.txq.ready s.hub.now = 0 →
    isAsync (s.hub.lnMode n) = true → s.hub.lnEofIdle n ≠ 0 →
    Makes (.laneTxUnderrun n) s ((if l.tx.counted then s.hub else c).setLane n
      { l with tx := { l.tx with underrun := some (l.tx.underrun.getD s.hub.now), counted := true } })) ∧
  (∀ (s : State) (n : Fin 96) (t : Nat),
    let l := s.hub.lane n
    s.hub.held = false → l.tx.underrun = some t → l.tx.on = true → isAsync (s.hub.lnMode n) = true → l.txq.items = [] →
    t + s.hub.lnEofIdle n * 100 * tuNs ≤ s.hub.now → Makes (.laneTxUnderrunClose n) s (s.hub.txClose n)) ∧
  (∀ (s : State) (n : Fin 96) (t : Nat),
    let l := s.hub.lane n
    let lim := s.hub.lnM2 n F.LN_MCFG2_STRETCH_MS
    s.hub.held = false → l.st ≠ .stopped → s.hub.lnMode n = 5 → l.tx.on = true → lim ≠ 0 → l.tx.underrun = some t →
    t + lim * tuMs ≤ s.hub.now → Makes (.i2cStretchTimeout n) s (((s.hub.lineOut n .stop).txClose n).rxClose n 7)) ∧
  (∀ (s : State) (n : Fin 96),
    let l := s.hub.lane n
    let ns := s.hub.baseNs (s.hub.lnF Reg.LN_MODE n F.LN_MODE_TS_TB)
    let sec := ns / 1000000000
    s.hub.held = false → l.st = .running → s.hub.lnMode n = 12 →
    (ns % 1000000000 < 5 → l.irigSec ≠ sec + 1 →
      Makes (.laneIrigOutFrame n) s ((s.hub.setLane n { l with irigSec := sec + 1 }).lineOut n (.code (irigPulses sec)))) ∧
    (5 ≤ ns % 1000000000 ∨ l.irigSec = sec + 1 → Makes (.laneIrigOutFrame n) s s.hub))

/-- The lane commands, the end of a stop, and the supply of a bank (R75, R83, R108). Where it rests on readings or choices of the
model's own, they are those of log entry 29. -/
def Obligations.LaneCommandsAndStops : Prop :=
  (∀ (s : State) (src : CmdSrc) (tag : Byte) (w : Word),
    let c := mkCmd src 0x0601 tag [w]
    let n := w.toNat
    let l := s.hub.lane n
    let vio := s.hub.fld (Reg.LANE_BANK (n / 12)) F.LANE_BANK_VIO
    Accepts s c → n < 96 → s.hub.laneCfgOk n = true → l.st = .stopped → vio ≠ 0 →
    vio = s.hub.fld (Reg.LANE_BANK (n / 12)) F.LANE_BANK_VIO_MEAS →
    (∀ g ∈ s.hub.needPins n, s.hub.pinOwned g = false ∧ ∀ m ∈ s.hub.liveLanes, m ≠ n → g / 3 ≠ m ∧ g ∉ s.hub.csPin m) →
    Gives (.laneStart src tag w) s fun t => Answered c sOK [] s t ∧ CmdOnly [.ln] [] c s t ∧
      t.hub.ln = (s.hub.setLane n { st := .running, rxq := l.rxq, txq := l.txq, priorLoss := l.priorLoss }).ln) ∧
  (∀ (s : State) (src : CmdSrc) (tag : Byte) (w mode : Word),
    let c := mkCmd src 0x0602 tag [w, mode]
    let n := w.toNat
    let l := s.hub.lane n
    Accepts s c → n < 96 → mode.toNat ≤ 1 → l.st = .running → l.de = false →
    Gives (.laneStop src tag w mode) s fun t => InProgress c s t ∧ CmdOnly [.ln] [] c s t ∧
      t.hub.ln = (s.hub.setLane n { l with
        st := .stopping (mode.toNat == 1), stopAt := s.hub.now, stopRefs := [c.ref], rx := {}, loop := [], seen := none }).ln) ∧
  (∀ (s : State) (src : CmdSrc) (tag : Byte) (w mask : Word),
    let c := mkCmd src 0x0603 tag [w, mask]
    let n := w.toNat
    let l := s.hub.lane n
    Accepts s c → n < 96 → mask.toNat = 3 → l.st = .stopped →
    Gives (.laneFlush src tag w mask) s fun t => Answered c sOK [] s t ∧
      CmdOnly [.ln] [Reg.LN_RXQ_STAT n, Reg.LN_TXQ_STAT n] c s t ∧
      t.hub.fld (Reg.LN_RXQ_STAT n) F.LN_RXQ_STAT_WM_CROSS = 0 ∧ t.hub.fld (Reg.LN_TXQ_STAT n) F.LN_TXQ_STAT_WM_CROSS = 0 ∧
      t.hub.lane n = { l with rxq := l.rxq.flushed, txq := l.txq.flushed } ∧ ∀ m, m ≠ n → t.hub.lane m = s.hub.lane m) ∧
  (∀ (s : State) (src : CmdSrc) (tag : Byte) (w mask levels : Word),
    let c := mkCmd src 0x0604 tag [w, mask, levels]
    let n := w.toNat
    let old := s.hub.fld (Reg.LN_DOUT n) F.LN_DOUT_LEVEL
    let new := Nat.lor (Nat.land old (7 - mask.toNat)) (Nat.land levels.toNat mask.toNat)
    Accepts s c → n < 96 → mask.toNat ≤ 7 → levels.toNat ≤ 7 → Nat.land mask.toNat (s.hub.outMask n) = mask.toNat → s.hub.acts = true →
    Gives (.laneDout src tag w mask levels) s fun t => Answered c sOK [] s t ∧ CmdOnly [.out] [Reg.LN_DOUT n] c s t ∧
      t.hub.fld (Reg.LN_DOUT n) F.LN_DOUT_LEVEL = new % 8 ∧
      t.hub.out = s.hub.out ++ [.line n (.dout mask.toNat (Nat.land new mask.toNat))]) ∧
  (∀ (s : State) (n : Fin 96),
    let l := s.hub.lane n
    s.hub.held = false → l.st = .stopping false ∨ (l.st = .stopping true ∧ l.stopEof = true) → l.busyUntil ≤ s.hub.now →
    (l.de = false ∧ l.deOff = none) ∨ (∃ t, l.deOff = some t ∧ t ≤ s.hub.now) →
    Makes (.laneStopComplete n) s (l.stopRefs.foldl (fun h r => h.answer r sOK [])
      ((s.hub.setLane n { st := .stopped, rxq := l.rxq, txq := l.txq, priorLoss := l.priorLoss, kept := s.hub.outMask n }).lnEvt n
        F.LN_EVT_STOPPED))) ∧
  (∀ (s : State) (n : Fin 96),
    let l := s.hub.lane n
    s.hub.held = false → l.st = .stopping true → l.stopAt + 10 * tuMs ≤ s.hub.now →
    Makes (.laneStopTimeout n) s (((s.hub.setLane n { l with st := .stopping false }).releaseDe n).laneStopComplete n)) ∧
  (∀ (s : State) (k : Fin 8) (v : Fin 4), s.hub.held = false → s.hub.fld (Reg.LANE_BANK k) F.LANE_BANK_VIO_MEAS ≠ v.val →
    s.hub.bankRuns k = false → s.hub.troupeRuns k = false →
    let h := s.hub.setFld (Reg.LANE_BANK k) F.LANE_BANK_VIO_MEAS v.val
    Makes (.bankVioChange k v) s (h.frDrive h k)) ∧
  (∀ (s : State) (k : Fin 8) (v : Fin 4), s.hub.held = false → s.hub.fld (Reg.LANE_BANK k) F.LANE_BANK_VIO_MEAS ≠ v.val →
    s.hub.bankRuns k = true →
    let h := s.hub.setFld (Reg.LANE_BANK k) F.LANE_BANK_VIO_MEAS v.val
    let h1 := (h.evtN Reg.LANE_EVT F.LANE_EVT_BANK_VIO k).bankStop k
    Makes (.bankVioChange k v) s (((h1.evtN Reg.FRET_EVT F.FRET_EVT_TROUPE_VIO k).troupeStop k).frDrive h k))

/-- Each Fret instruction, executed by the engine whose `PC` is at it (R111, R112, R118, R119); `x` is its word. Where it rests on
readings or choices of the model's own, they are those of log entry 26. -/
def Obligations.FretInstructions : Prop :=
  (∀ (s : State) (e : Fin 32) (x : Nat), s.hub.held = false → s.hub.frAt e 0 x →
    let k := s.hub.frStrobe e x
    Makes (.hold e) s
      ((k.setEng e { k.eng e with cyc := s.hub.frCycle e + x % 2 ^ 10 + 1, holding := true }).frDrive s.hub (e / 4))) ∧
  (∀ (s : State) (e : Fin 32) (x : Nat) (levels : BitVec 36),
    let g := s.hub.eng e
    let cond := x / 2 ^ 7 % 2 ^ 3
    let taken := match cond with
      | 0 => true
      | 1 => decide (g.a ≠ 0)
      | 2 => decide (g.b ≠ 0)
      | 3 => pinIn levels.toNat (s.hub.frCtl e F.FR_CTL_JPIN)
      | 4 => decide (g.txc = 0)
      | 5 => g.i
      | 6 => decide (g.a ≠ g.b)
      | _ => decide (g.txq.ready s.hub.now ≠ 0)
    let k := match cond with
      | 1 => s.hub.setEng e { g with a := g.a - 1 }
      | 2 => s.hub.setEng e { g with b := g.b - 1 }
      | _ => s.hub
    s.hub.held = false → s.hub.frAt e 1 x →
    Makes (.jmp e levels) s (s.hub.frEnd (if taken then k else s.hub) e x (if taken then x % 2 ^ 7 else s.hub.frNext e g.pc))) ∧
  (∀ (s : State) (e : Fin 32) (x : Nat) (levels : BitVec 36), s.hub.held = false → s.hub.frAt e 2 x →
    (pinIn levels.toNat (x % 2 ^ 6) = testBit x 6 → testBit x 7 = false ∨ (s.hub.eng e).saw = true →
      Makes (.waitp e levels) s (s.hub.frEnd s.hub e x (s.hub.frNext e (s.hub.eng e).pc))) ∧
    (pinIn levels.toNat (x % 2 ^ 6) ≠ testBit x 6 → Makes (.waitp e levels) s (s.hub.frStall e 1 true))) ∧
  (∀ (s : State) (e : Fin 32) (x : Nat),
    let b := flagBit (e / 4) (x % 2 ^ 5)
    s.hub.held = false → s.hub.frAt e 3 x →
    (testBit s.hub.flagsNow b = testBit x 5 → Makes (.waitf e) s
      (s.hub.frEnd (if testBit x 6 && testBit x 5 then s.hub.flagChange ⟨e, b, 1⟩ else s.hub) e x (s.hub.frNext e (s.hub.eng e).pc))) ∧
    (testBit s.hub.flagsNow b ≠ testBit x 5 → Makes (.waitf e) s (s.hub.frStall e 2 false))) ∧
  (∀ (s : State) (e : Fin 32) (x : Nat),
    let n := x % 2 ^ 3 + 1
    let h := s.hub.each n fun h j => h.frShiftOut e j
    s.hub.held = false → s.hub.frAt e 4 x → s.hub.frCtlB e F.FR_CTL_AUTOFETCH = false ∨ (s.hub.eng e).txc ≠ 0 →
    Makes (.sho e) s (s.hub.frEnd (h.setEng e { h.eng e with txc := (h.eng e).txc - n }) e x (s.hub.frNext e (s.hub.eng e).pc))) ∧
  (∀ (s : State) (e : Fin 32) (x : Nat) (levels : BitVec 36),
    let n := x % 2 ^ 3 + 1
    let c := min ((s.hub.eng e).rxc + n) 32
    let h := s.hub.each n fun h j => h.frShiftIn e levels.toNat j
    let k := h.setEng e { h.eng e with rxc := c }
    s.hub.held = false → s.hub.frAt e 5 x →
    (s.hub.frCtlB e F.FR_CTL_AUTOPOST = false ∨ c < s.hub.postAt e →
      Makes (.shi e levels) s (s.hub.frEnd k e x (s.hub.frNext e (s.hub.eng e).pc))) ∧
    (s.hub.frCtlB e F.FR_CTL_AUTOPOST = true → s.hub.postAt e ≤ c → s.hub.frNoRx e = false → s.hub.frRxCredit e = true →
      Makes (.shi e levels) s (s.hub.frEnd (k.frPost e) e x (s.hub.frNext e (s.hub.eng e).pc)))) ∧
  (∀ (s : State) (e : Fin 32) (x : Nat) (w : Word) (r : List Word),
    let g := s.hub.eng e
    let n := s.hub.pullBits e
    let t := w &&& word (2 ^ n - 1)
    let k := (s.hub.setEng e { g with txq := g.txq.drop1 s.hub.now }).count (Reg.FR_CNT_TX_WORDS e)
    s.hub.held = false → s.hub.frAt e 6 x → s.hub.frNoTx e = false → g.txq.items = w :: r → g.txq.ready s.hub.now ≠ 0 →
    Makes (.fetch e) s (s.hub.frEnd (k.setEng e { k.eng e with
      txs := if k.frCtlB e F.FR_CTL_TX_MSB then t <<< (32 - n) else t, txc := n, i := false }) e x (s.hub.frNext e g.pc))) ∧
  (∀ (s : State) (e : Fin 32) (x : Nat), s.hub.held = false → s.hub.frAt e 7 x → s.hub.frNoRx e = false →
    (s.hub.frRxCredit e = true → Makes (.post e) s (s.hub.frEnd (s.hub.frPost e) e x (s.hub.frNext e (s.hub.eng e).pc))) ∧
    (s.hub.frRxCredit e = false → testBit x 0 = true →
      Makes (.post e) s (s.hub.frEnd (s.hub.frLose e) e x (s.hub.frNext e (s.hub.eng e).pc))) ∧
    (s.hub.frRxCredit e = false → testBit x 0 = false → Makes (.post e) s (s.hub.frStall e 4 false))) ∧
  (∀ (s : State) (e : Fin 32) (x : Nat), s.hub.held = false → s.hub.frAt e 8 x →
    Makes (.setp e) s (s.hub.frEnd (s.hub.frOut e (testBit x 8) (x % 2 ^ 8) 8) e x (s.hub.frNext e (s.hub.eng e).pc))) ∧
  (∀ (s : State) (e : Fin 32) (x : Nat), s.hub.held = false → s.hub.frAt e 9 x →
    Makes (.ldi e) s (s.hub.frEnd (s.hub.setEng e (if testBit x 9 then { s.hub.eng e with b := word (x % 2 ^ 9) }
      else { s.hub.eng e with a := word (x % 2 ^ 9) })) e x (s.hub.frNext e (s.hub.eng e).pc))) ∧
  (∀ (s : State) (e : Fin 32) (x : Nat) (levels : BitVec 36) (src : Word),
    let g := s.hub.eng e
    let v := if x / 2 ^ 6 % 2 ^ 2 = 1 then ~~~ src else if x / 2 ^ 6 % 2 ^ 2 = 2 then revWord src else src
    s.hub.held = false → s.hub.frAt e 10 x →
    (x % 2 ^ 3 = 0 ∧ src = 0) ∨ (x % 2 ^ 3 = 1 ∧ src = g.a) ∨ (x % 2 ^ 3 = 2 ∧ src = g.b) ∨ (x % 2 ^ 3 = 3 ∧ src = g.txs) ∨
      (x % 2 ^ 3 = 4 ∧ src = g.rxs) →
    let fin := fun k => s.hub.frEnd k e x (s.hub.frNext e g.pc)
    (x / 2 ^ 3 % 2 ^ 3 = 0 → Makes (.mov e levels) s (fin (s.hub.setEng e { g with a := v }))) ∧
    (x / 2 ^ 3 % 2 ^ 3 = 1 → Makes (.mov e levels) s (fin (s.hub.setEng e { g with b := v }))) ∧
    (x / 2 ^ 3 % 2 ^ 3 = 2 → Makes (.mov e levels) s (fin (s.hub.setEng e { g with txs := v, txc := s.hub.pullBits e }))) ∧
    (x / 2 ^ 3 % 2 ^ 3 = 3 → Makes (.mov e levels) s (fin (s.hub.setEng e { g with rxs := v }))) ∧
    (x / 2 ^ 3 % 2 ^ 3 = 4 → Makes (.mov e levels) s (fin (s.hub.frOut e false v.toNat 32))) ∧
    (x / 2 ^ 3 % 2 ^ 3 = 5 → Makes (.mov e levels) s (fin (s.hub.frOut e true v.toNat 32)))) ∧
  (∀ (s : State) (e : Fin 32) (x : Nat),
    let k := s.hub.flagChange ⟨e, flagBit (e / 4) (x % 2 ^ 5), x / 2 ^ 5 % 2 ^ 2⟩
    s.hub.held = false → s.hub.frAt e 11 x →
    Makes (.flag e) s (s.hub.frEnd (if testBit x 7 then k.frEvt e F.FR_EVT_FLAG_EVT else k) e x (s.hub.frNext e (s.hub.eng e).pc))) ∧
  (∀ (s : State) (e : Fin 32) (x : Nat), s.hub.held = false → s.hub.frAt e 12 x →
    Makes (.halt e) s ((s.hub.frEnd s.hub e x (s.hub.frNext e (s.hub.eng e).pc)).frStopEng e 2)) ∧
  (∀ (s : State) (e : Fin 32) (x : Nat) (levels : BitVec 36),
    let g := s.hub.eng e
    s.hub.held = false → g.run = true → g.stall ≠ 0 → g.cyc ≤ s.hub.frCycle e → s.hub.frWord e g.pc = x → x / 2 ^ 12 = 2 →
    (pinIn levels.toNat (x % 2 ^ 6) = testBit x 6 → testBit x 7 = false ∨ g.saw = true →
      Makes (.fretWaitMet e levels) s (s.hub.frEnd s.hub e x (s.hub.frNext e g.pc))) ∧
    (pinIn levels.toNat (x % 2 ^ 6) ≠ testBit x 6 → Makes (.fretWaitMet e levels) s (s.hub.frStall e 1 true)))

/-- The host's accesses to Fret queues, programs and flags, and the Fret commands (R107, R113, R116, R121 to R125). Where it rests on
readings or choices of the model's own, they are those of log entry 26. -/
def Obligations.FretCommandsAndQueues : Prop :=
  (∀ (s : State) (e : Fin 32) (x : Word),
    let g := s.hub.eng e
    s.hub.held = false → s.hub.fld (Reg.FR_TXQ_CFG e) F.FR_TXQ_CFG_PEER ≠ 0 →
    (0 < g.txq.credit s.hub.now (s.hub.frTxCap e) → Makes (.frTxqPush e x) s
      ((s.hub.setEng e { g with txq := g.txq.push s.hub.now x }).snoopBytes 4 e 1 (beBytes 4 x.toNat))) ∧
    (g.txq.credit s.hub.now (s.hub.frTxCap e) = 0 → Makes (.frTxqPush e x) s (s.hub.frEvt e F.FR_EVT_CREDIT_OVERRUN))) ∧
  (∀ (s : State) (e : Fin 32),
    let g := s.hub.eng e
    s.hub.held = false → s.hub.fld (Reg.FR_RXQ_CFG e) F.FR_RXQ_CFG_PEER ≠ 0 →
    (∀ x r, g.rxq.items = x :: r → g.rxq.ready s.hub.now ≠ 0 →
      Makes (.frRxqPop e) s ((s.hub.setEng e { g with rxq := g.rxq.drop1 s.hub.now }).emit (.words [x]))) ∧
    (g.rxq.items = [] → Makes (.frRxqPop e) s (s.hub.emit (.words [s.hub.rd (Reg.FR_RXQ_IDLE e)])))) ∧
  (∀ (s : State) (e : Fin 32) (w : Word),
    let k := s.hub.regWrite (Reg.FR_CTL e) w false fun h => h.frEvt e F.FR_EVT_WRITE_REFUSED
    s.hub.held = false → (s.hub.eng e).run = false →
    Makes (.fretJoinWrite e w) s
      (if k.frCtl e F.FR_CTL_JOIN = s.hub.frCtl e F.FR_CTL_JOIN then k else k.frFlush e true true)) ∧
  (∀ (s : State) (k : Fin 8) (i : Fin 128) (w : Word), s.hub.held = false →
    (∀ e ∈ s.hub.frCovering k i, (s.hub.eng e).run = false) →
    Makes (.fretProgWrite k i w) s ((s.hub.frCovering k i).foldl (fun h e => h.setFld (Reg.FR_PROG e) F.FR_PROG_VALID 0)
      (s.hub.wr (Reg.FRET_INSTR k i) (w &&& 0xFFFF)))) ∧
  (∀ (s : State) (k : Fin 9) (i : Nat), s.hub.held = false → i < 16 →
    Makes (.flagHostSet k (word (2 ^ i))) s (s.hub.flagChange ⟨32, 16 * k + i, 0⟩) ∧
    Makes (.flagHostClear k (word (2 ^ i))) s (s.hub.flagChange ⟨32, 16 * k + i, 1⟩)) ∧
  (∀ (h : Hub) (o : FlagOp), h.fret.flagCyc ≠ h.fretCyc →
    let k := h.flagChange o
    k.flagsNow = h.flagsNow ∧ ({ k with now := k.now + 200 } : Hub).flagsNow = flagDo h.flagsNow o) ∧
  (∀ (s : State) (src : CmdSrc) (tag : Byte) (ew lo hi entry : Word),
    let c := mkCmd src 0x0501 tag [ew, lo, hi, entry]
    let e := ew.toNat
    let g := s.hub.eng e
    Accepts s c → e < 32 → g.run = false → lo.toNat ≤ entry.toNat → entry.toNat ≤ hi.toNat → hi.toNat ≤ 127 →
    (∀ i, lo.toNat ≤ i → i ≤ hi.toNat → frWordOk lo.toNat hi.toNat (s.hub.frWord e i) = true) →
    Gives (.fretLoad src tag ew lo hi entry) s fun t => Answered c sOK [] s t ∧ CmdOnly [.fret] [Reg.FR_PROG e] c s t ∧
      t.hub.rd (Reg.FR_PROG e) = word (lo.toNat + hi.toNat * 2 ^ 8 + entry.toNat * 2 ^ 16 + 2 ^ 31) ∧
      t.hub.fret = (s.hub.setEng e { g with
        txs := 0, rxs := 0, txc := 0, rxc := 0, a := 0, b := 0, i := false, pc := entry.toNat }).fret) ∧
  (∀ (s : State) (src : CmdSrc) (tag : Byte) (kw m : Word) (j : Nat),
    let c := mkCmd src 0x0502 tag [kw, m]
    let e := 4 * kw.toNat + j
    Accepts s c → kw.toNat < 8 → j < 4 → m.toNat = 2 ^ j → s.hub.frCfgOk e = true → s.hub.frCanStart e = true →
    s.hub.frCtlB e F.FR_CTL_STROBE_EN = false →
    Gives (.fretStart src tag kw m) s fun t => Answered c sOK [] s t ∧ CmdOnly [.fret] [] c s t ∧
      t.hub.fret = (s.hub.setEng e { s.hub.eng e with
        run := true, startAt := s.hub.fretCyc * 200, cyc := 0, stall := 0, saw := false, holding := false }).fret) ∧
  (∀ (s : State) (src : CmdSrc) (tag : Byte) (kw m : Word) (j : Nat),
    let c := mkCmd src 0x0503 tag [kw, m]
    let e := 4 * kw.toNat + j
    Accepts s c → kw.toNat < 8 → j < 4 → m.toNat = 2 ^ j → (s.hub.eng e).run = true →
    Gives (.fretStop src tag kw m) s fun t => Answered c sOK [] s t ∧ CmdOnly [.fret] [] c s t ∧
      t.hub.fret = (s.hub.setEng e { s.hub.eng e with stopping := true, stopCyc := s.hub.fretCyc + 1 }).fret) ∧
  (∀ (h : Hub) (e : Nat), (h.eng e).stopping = true → (h.eng e).holding = false →
    (h.fretCyc < (h.eng e).stopCyc → h.frTick e = h) ∧
    ((h.eng e).stopCyc ≤ h.fretCyc → h.frTick e = (h.setEng e { h.eng e with
      run := false, stall := 0, saw := false, holding := false, stopping := false, cause := 1 }).evt (Reg.FR_EVT e) F.FR_EVT_STOPPED)) ∧
  (∀ (s : State) (src : CmdSrc) (tag : Byte) (ew m : Word),
    let c := mkCmd src 0x0504 tag [ew, m]
    let e := ew.toNat
    let g := s.hub.eng e
    Accepts s c → e < 32 → m.toNat = 3 → g.run = false →
    Gives (.fretFlush src tag ew m) s fun t => Answered c sOK [] s t ∧
      CmdOnly [.fret] [Reg.FR_RXQ_STAT e, Reg.FR_TXQ_STAT e] c s t ∧
      t.hub.fld (Reg.FR_RXQ_STAT e) F.FR_RXQ_STAT_WM_CROSS = 0 ∧ t.hub.fld (Reg.FR_TXQ_STAT e) F.FR_TXQ_STAT_WM_CROSS = 0 ∧
      t.hub.eng e = { g with rxq := g.rxq.flushed, txq := g.txq.flushed } ∧ ∀ d, d ≠ e → t.hub.eng d = s.hub.eng d)

/-- CAN controllers: commands, states, transmission, reception, errors and the host's queue accesses (R133 to R151). Where it rests on
readings or choices of the model's own, they are those of log entries 3, 4 and 27. -/
def Obligations.CanControllers : Prop :=
  (∀ (s : State) (src : CmdSrc) (tag : Byte) (w : Word),
    let c := mkCmd src 0x0701 tag [w]
    let n := w.toNat
    Accepts s c → n < 16 → s.hub.canCfgOk n = true → (s.hub.can1 n).st = .stopped →
    Gives (.canStart src tag w) s fun t => Answered c sOK [] s t ∧ CmdOnly [.can] [Reg.CAN_EVT n] c s t ∧
      t.hub.flag (Reg.CAN_EVT n) F.CAN_EVT_STATE_CHANGE = true ∧
      t.hub.can = (s.hub.setCan n { s.hub.can1 n with st := .syncing }).can) ∧
  (∀ (s : State) (src : CmdSrc) (tag : Byte) (w : Word),
    let c := mkCmd src 0x0702 tag [w]
    let n := w.toNat
    let x := s.hub.can1 n
    Accepts s c → n < 16 → x.st = .syncing ∨ x.st = .active ∨ x.st = .passive →
    Gives (.canStop src tag w) s fun t => InProgress c s t ∧ CmdOnly [.can] [Reg.CAN_EVT n] c s t ∧
      t.hub.flag (Reg.CAN_EVT n) F.CAN_EVT_STATE_CHANGE = true ∧
      t.hub.can1 n = { x with st := .stopping, stopRefs := [c.ref] } ∧ ∀ m, m ≠ n → t.hub.can1 m = s.hub.can1 m) ∧
  (∀ (s : State) (src : CmdSrc) (tag : Byte) (w mask : Word),
    let c := mkCmd src 0x0703 tag [w, mask]
    let n := w.toNat
    let x := s.hub.can1 n
    Accepts s c → n < 16 → mask.toNat = 3 → x.st = .stopped ∨ x.st = .busOff →
    Gives (.canFlush src tag w mask) s fun t => Answered c sOK [] s t ∧
      CmdOnly [.can] [Reg.CAN_RXQ_STAT n, Reg.CAN_TXQ_STAT n] c s t ∧
      t.hub.can1 n = { x with rxq := [], popped := 0, mark := 0, txq := [], part := none,
                              rxc := { x.rxc with high := false }, txc := { x.txc with high := false } } ∧
      ∀ m, m ≠ n → t.hub.can1 m = s.hub.can1 m) ∧
  (∀ (s : State) (src : CmdSrc) (tag : Byte) (w : Word),
    let c := mkCmd src 0x0704 tag [w]
    let n := w.toNat
    Accepts s c → n < 16 → (s.hub.can1 n).st = .busOff →
    Gives (.canRecover src tag w) s fun t => Answered c sOK [] s t ∧ CmdOnly [.can] [Reg.CAN_EVT n] c s t ∧
      t.hub.flag (Reg.CAN_EVT n) F.CAN_EVT_STATE_CHANGE = true ∧
      t.hub.can = (s.hub.setCan n { s.hub.can1 n with st := .recovering }).can) ∧
  (∀ (s : State) (n : Fin 16), s.hub.held = false → (s.hub.can1 n).st = .syncing →
    Makes (.canBusIntegrated n) s ((s.hub.canTo n .active).canErrState n)) ∧
  (∀ (s : State) (n : Fin 16), s.hub.held = false → (s.hub.can1 n).st = .recovering →
    Makes (.canRecoveryDone n) s ((s.hub.setCan n { s.hub.can1 n with tec := 0, rec_ := 0 }).canTo n .active)) ∧
  (∀ (s : State) (n : Fin 16), s.hub.held = false → (s.hub.can1 n).st = .stopping → (s.hub.can1 n).cur = none → (s.hub.can1 n).rxBusy = false →
    let h := (s.hub.canTo n .stopped).canEvt n F.CAN_EVT_STOPPED
    Makes (.canStopComplete n) s
      ((s.hub.can1 n).stopRefs.foldl (fun h r => h.answer r sOK []) (h.setCan n { h.can1 n with stopRefs := [], cur := none, rxBusy := false }))) ∧
  (∀ (s : State) (n : Fin 16) (i j : Nat) (x y : CanTx),
    let c := s.hub.can1 n
    let k := s.hub.setCan n { c with cur := some i, stamp := s.hub.canShort n 0 0, rxBusy := decide (2 ≤ s.hub.canMode n) }
    s.hub.held = false → c.st = .active ∨ c.st = .passive → c.cur = none → c.rxBusy = false → s.hub.canHead n = some (j, y) →
    s.hub.canRefused n y = false → s.hub.canHeadOf n (s.hub.canReady n) = some (i, x) →
    Makes (.canTxStart n) s (if s.hub.canMode n = 2 then k else k.drive (.can n x.words))) ∧
  (∀ (s : State) (n : Fin 16) (i : Nat) (x : CanTx) (more : Nat),
    let c := s.hub.can1 n
    let k := s.hub.setRxBusy n false
    s.hub.held = false → c.cur = some i → c.txq[i]? = some x → s.hub.canMode n ≠ 2 → s.hub.canMode n ≠ 3 →
    Makes (.canTxAttemptEnd n .arbLost none more) s (k.setCan n { k.can1 n with cur := none, rxBusy := true }) ∧
    (let h := k.canRemove n i
     let h1 := ((h.setCan n { h.can1 n with tec := (h.can1 n).tec - 1 }).count (Reg.CAN_CNT_TX_OK n)).canEvt n F.CAN_EVT_TX_DONE
     Makes (.canTxAttemptEnd n .ok none more) s (Hub.canSift canTxCap n ((h1.canComplete n x 0 c.stamp).canErrState n)))) ∧
  (∀ (s : State) (n : Fin 16) (w0 w1 : Word) (data : List Byte) (ago : Nat),
    let st := (s.hub.can1 n).st
    let k := s.hub.setRxBusy n false
    let tb := s.hub.canF n F.CAN_CTL_TS_TB
    let t : Int := (s.hub.nsAt tb (s.hub.now / 750 * 750 - ago * 750) : Int) - (25 + toSigned 16 (s.hub.fld (Reg.CAN_TS n) F.CAN_TS_TS_ADJ))
    s.hub.held = false → st = .active ∨ st = .passive ∨ st = .stopping → s.hub.canMode n ≠ 2 →
    Makes (.canFrameRx n w0 w1 data (.whole ago)) s (((k.canRecDown n).canJudge n w0 w1 data (ofSigned 40 t)).canErrState n) ∧
    ((s.hub.can1 n).cur = none → Makes (.canFrameRx n w0 w1 data .start) s (s.hub.setRxBusy n true)) ∧
    ((s.hub.can1 n).cur ≠ none → Makes (.canFrameRx n w0 w1 data .start) s s.hub)) ∧
  (∀ (s : State) (n : Fin 16) (crc dominant : Bool) (more : Nat),
    let c := s.hub.can1 n
    let h := ((s.hub.setRxBusy n false).count (if crc then Reg.CAN_CNT_ERR_CRC n else Reg.CAN_CNT_ERR_OTHER n)).canEvt n F.CAN_EVT_BUS_ERR
    s.hub.held = false →
    (c.st = .active ∨ c.st = .passive ∨ c.st = .stopping → s.hub.canMode n ≠ 2 → c.cur = none →
      Makes (.canRxBusError n crc dominant more) s ((h.setCan n { h.can1 n with
        rec_ := min 255 (c.rec_ + 1 + (if dominant then 8 else 0) + 8 * more) }).canErrState n)) ∧
    (s.hub.canMode n = 2 → Makes (.canRxBusError n crc dominant more) s s.hub)) ∧
  (∀ (s : State) (n : Fin 16) (x : Word),
    let c := s.hub.can1 n
    s.hub.held = false → s.hub.fld (Reg.CAN_TXQ_CFG n) F.CAN_TXQ_CFG_PEER ≠ 0 → c.part = none →
    c.txq.length + c.txc.fresh s.hub.now < 32 →
    Makes (.canTxqPush n x) s (s.hub.setCan n { c with part := some ⟨[x], false, 256, s.hub.now⟩ })) ∧
  (∀ (s : State) (n : Fin 16) (p : CanPart),
    let c := s.hub.can1 n
    s.hub.held = false → c.part = some p → s.hub.fld (Reg.CAN_TXQ_CFG n) F.CAN_TXQ_CFG_PEER = 1 → p.at_ + 10 * tuMs ≤ s.hub.now →
    p.drop = false →
    Makes (.canTxEntryTimeout n) s
      ((s.hub.setCan n { c with part := none, txc := c.txc.pop s.hub.now }).canEvt n F.CAN_EVT_TX_MALFORMED)) ∧
  (∀ (s : State) (n : Fin 16) (ws : List Word) (rest : List (List Word)),
    let c := s.hub.can1 n
    s.hub.held = false → s.hub.fld (Reg.CAN_RXQ_CFG n) F.CAN_RXQ_CFG_PEER ≠ 0 → c.rxq = ws :: rest →
    c.rxc.putNow s.hub.now < c.rxq.length →
    (c.popped + 1 < ws.length → Makes (.canRxqPop n) s
      ((s.hub.setCan n { c with popped := c.popped + 1 }).emit (.words [ws.getD c.popped 0]))) ∧
    (ws.length ≤ c.popped + 1 → Makes (.canRxqPop n) s ((s.hub.setCan n { c with
      rxq := rest, popped := 0, mark := c.mark - 1, rxc := c.rxc.pop s.hub.now }).emit (.words [ws.getD c.popped 0]))))

/-- The arithmetic of the Carousel (R187, R190, R191): `i` is the word at the context's `PC`, `x` the context as the instruction sees
it. Where it rests on readings or choices of the model's own, they are those of log entry 28. -/
def Obligations.CarouselArithmetic : Prop :=
  (∀ (s : State) (c : Byte) (i : Word) (p : (Byte → Instr) × Nat),
    let x := s.hub.ctxNow c.toNat
    let r := aluOp p.2 (x.reg (fRs1 i)) (x.reg (fRs2 i)) x.c (fFn i % 1024)
    p ∈ [(Instr.add, 0), (Instr.sub, 1), (Instr.adc, 2), (Instr.sbc, 3), (Instr.and, 4), (Instr.or, 5), (Instr.xor, 6),
      (Instr.shl, 7), (Instr.shr, 8), (Instr.sar, 9), (Instr.mulu, 10), (Instr.muls, 11), (Instr.clz, 12), (Instr.bfx, 13),
      (Instr.bfxs, 14), (Instr.bfi, 15)] →
    s.hub.held = false → s.hub.ctxAt c.toNat (0, p.2) i →
    Makes (p.1 c) s (((s.hub.ctxSees c.toNat).setCtx c.toNat (Ctx.set
      { x with z := r.val == 0, n := r.val.msb, c := r.c.getD x.c, v := r.v.getD x.v } (fRd i) r.val)).ctxDone c.toNat 1)) ∧
  (∀ (a b : Word) (cin : Bool) (k : Nat), k < 32 →
    (aluOp 0 a b cin 0).val = a + b ∧ (aluOp 0 a b cin 0).c = some (decide (2 ^ 32 ≤ a.toNat + b.toNat)) ∧
    (aluOp 1 a b cin 0).val = a - b ∧ (aluOp 1 a b cin 0).c = some (decide (b.toNat ≤ a.toNat)) ∧
    (aluOp 2 a b cin 0).val = a + b + word (bitB cin) ∧ (aluOp 3 a b cin 0).val = a + ~~~ b + word (bitB cin) ∧
    aluOp 4 a b cin 0 = { val := a &&& b } ∧ aluOp 5 a b cin 0 = { val := a ||| b } ∧ aluOp 6 a b cin 0 = { val := a ^^^ b } ∧
    (aluOp 7 a b cin (32 + k)).val = a <<< k ∧ (aluOp 8 a b cin (32 + k)).val = a >>> k ∧
    (aluOp 9 a b cin (32 + k)).val = a.sshiftRight k ∧
    (aluOp 10 a b cin 0).val.toNat = a.toNat % 65536 * (b.toNat % 65536)) ∧
  (∀ (s : State) (c : Byte) (i : Word) (p : (Byte → Instr) × Nat × (Word → AluOut)),
    let x := s.hub.ctxNow c.toNat
    let a := x.reg (fRs1 i)
    let r := p.2.2 a
    p ∈ [(Instr.addi, 1, fun a => addFlags a (fSimm i) false), (Instr.andi, 2, fun a => { val := a &&& word (fImm i) }),
      (Instr.ori, 3, fun a => { val := a ||| word (fImm i) }), (Instr.xori, 4, fun a => { val := a ^^^ word (fImm i) }),
      (Instr.lui, 5, fun _ => { val := word (fImm i * 65536) }), (Instr.cmpi, 6, fun a => subFlags a (fSimm i) true)] →
    s.hub.held = false → s.hub.ctxAt c.toNat (p.2.1, 0) i →
    Makes (p.1 c) s (((s.hub.ctxSees c.toNat).setCtx c.toNat (Ctx.set
      { x with z := r.val == 0, n := r.val.msb, c := r.c.getD x.c, v := r.v.getD x.v } (fRd i) r.val)).ctxDone c.toNat 1))

/-- R192: `B` branches to `imm` when the condition in its `rd` field holds, by the table of conditions; `rs1` must be 0. `x` is the
context as the instruction sees it. Where it rests on readings or choices of the model's own, they are those of log entry 28. -/
def Obligations.BranchesByCondition : Prop :=
  (∀ (s : State) (c : Byte) (i : Word),
    let x := s.hub.ctxNow c.toNat
    let k := s.hub.ctxSees c.toNat
    let holds : List Bool := [true, x.z, !x.z, decide (x.n ≠ x.v), decide (x.n = x.v), x.z || decide (x.n ≠ x.v),
      !x.z && decide (x.n = x.v), !x.c, x.c, !x.c || x.z, x.c && !x.z, x.n, !x.n, x.i, !x.i, x.l]
    s.hub.held = false → s.hub.ctxAt c.toNat (8, 0) i →
    (holds[fRd i]? = some true → Makes (.b c) s (k.ctxJump c.toNat (fImm i))) ∧
    (holds[fRd i]? = some false → Makes (.b c) s (k.ctxDone c.toNat 1)) ∧
    (holds[fRd i]? ≠ none)) ∧
  (∀ i : Word, rowOf i = (8, 0) → fRs1 i ≠ 0 → wordDefined i = false)

/-- R193: `JAL` and `JR` link and jump; a `JR` whose target lies outside the context's program, or whose `rs1` has a high half, faults
with `PC_RANGE` (2) and does not write `rd`; `rs2` and `fn` of `JR` are 0. Where it rests on readings or choices of the model's own,
they are those of log entry 28. -/
def Obligations.JumpsAndLinks : Prop :=
  (∀ (s : State) (c : Byte) (i : Word),
    let x := s.hub.ctxNow c.toNat
    let k := (s.hub.ctxSees c.toNat).setCtx c.toNat (x.set (fRd i) (word (x.pc + 1)))
    s.hub.held = false → s.hub.ctxAt c.toNat (9, 0) i → Makes (.jal c) s (k.ctxJump c.toNat (fImm i))) ∧
  (∀ (s : State) (c : Byte) (i : Word),
    let x := s.hub.ctxNow c.toNat
    let w := x.reg (fRs1 i)
    let dest := w.toNat % 65536
    let k := (s.hub.ctxSees c.toNat).setCtx c.toNat (x.set (fRd i) (word (x.pc + 1)))
    s.hub.held = false → s.hub.ctxAt c.toNat (10, 0) i →
    (w.toNat / 65536 = 0 → s.hub.progLo c.toNat ≤ dest → dest ≤ s.hub.progHi c.toNat → Makes (.jr c) s (k.ctxJump c.toNat dest)) ∧
    (w.toNat / 65536 ≠ 0 ∨ dest < s.hub.progLo c.toNat ∨ s.hub.progHi c.toNat < dest →
      Makes (.jr c) s ((s.hub.ctxSees c.toNat).useSlot.carFault c.toNat 2))) ∧
  (∀ i : Word, rowOf i = (10, 0) → fRs2 i ≠ 0 ∨ fFn i ≠ 0 → wordDefined i = false)

/-- The Carousel's loads, stores and queue instructions (R161, R194 to R198): `i` is the word at the context's `PC`, `x` the context as
the instruction sees it, `k` the hub in which it acts. Where it rests on readings or choices of the model's own, they are those of log
entry 28. -/
def Obligations.CarouselMemoryAndQueues : Prop :=
  (∀ (s : State) (c : Byte) (i : Word),
    let x := s.hub.ctxNow c.toNat
    let k := s.hub.ctxSees c.toNat
    let a := memAddr (x.reg (fRs1 i)) i
    let n := 2 ^ fSz i
    s.hub.held = false → a % n = 0 →
    (s.hub.ctxAt c.toNat (0x10, 0) i → a ≤ 0x3FF → s.hub.car.bad.contains (dataMark c.toNat a) = false →
      Makes (.ldl c) s ((k.setCtx c.toNat
        (x.set (fRd i) (word (leNat (mread 0 s.hub.car.data (0x400 * c.toNat + a) n))))).ctxDone c.toNat 1)) ∧
    (s.hub.ctxAt c.toNat (0x11, 0) i → a ≤ 0x3FF →
      Makes (.stl c) s (Hub.ctxDone { k with car := { k.car with
        data := mwrite 0 s.hub.car.data (0x400 * c.toNat + a) (leBytes n (x.reg (fRd i)).toNat) } } c.toNat 1)) ∧
    (s.hub.ctxAt c.toNat (0x12, 0) i → a < 0x20000 → s.hub.car.bad.contains (scratchMark a) = false →
      Makes (.lds c) s ((k.setCtx c.toNat (x.set (fRd i) (word (leNat (mread 0 s.hub.car.scratch a n))))).ctxDone c.toNat 2)) ∧
    (s.hub.ctxAt c.toNat (0x12, 0) i → 0x20000 ≤ a → a < 0x20058 →
      Makes (.lds c) s ((k.setCtx c.toNat (x.set (fRd i)
        (word (bitsN (frozenWord x.page ((a - 0x20000) / 4)).toNat (8 * (a % 4)) (8 * n))))).ctxDone c.toNat 2)) ∧
    (s.hub.ctxAt c.toNat (0x13, 0) i → a < 0x20000 →
      Makes (.sts c) s (Hub.ctxDone { k with car := { k.car with
        scratch := mwrite 0 s.hub.car.scratch a (leBytes n (x.reg (fRd i)).toNat) } } c.toNat 1))) ∧
  (∀ (s : State) (c : Byte) (i : Word),
    let x := s.hub.ctxNow c.toNat
    let k := s.hub.ctxSees c.toNat
    let a := memAddr (x.reg (fRs1 i)) i
    s.hub.held = false →
    (s.hub.ctxAt c.toNat (0x10, 0) i → 0x3FF < a → Makes (.ldl c) s (k.useSlot.carFault c.toNat 3)) ∧
    (s.hub.ctxAt c.toNat (0x11, 0) i → a ≤ 0x3FF → a % 2 ^ fSz i ≠ 0 → Makes (.stl c) s (k.useSlot.carFault c.toNat 5)) ∧
    (s.hub.ctxAt c.toNat (0x13, 0) i → 0x20000 ≤ a → Makes (.sts c) s (k.useSlot.carFault c.toNat 4))) ∧
  (∀ (s : State) (c : Byte) (i : Word),
    let x := s.hub.ctxNow c.toNat
    let k := s.hub.ctxSees c.toNat
    let b := k.bind c.toNat (fImm i % 16)
    s.hub.held = false → b.kind ≠ 0 → b.tx = false →
    (∀ w, k.qNext b = some w →
      (s.hub.ctxAt c.toNat (0x18, 0) i →
        Makes (.qpop c) s (((k.qDrop b).setCtx c.toNat (Ctx.set { x with i := false } (fRd i) w)).ctxDone c.toNat 1)) ∧
      (s.hub.ctxAt c.toNat (0x19, 0) i →
        Makes (.qpeek c) s ((k.setCtx c.toNat (Ctx.set { x with i := false } (fRd i) w)).ctxDone c.toNat 1))) ∧
    (k.qNext b = none →
      (s.hub.ctxAt c.toNat (0x18, 0) i →
        Makes (.qpop c) s ((k.setCtx c.toNat (Ctx.set { x with i := true } (fRd i) (k.qIdle b))).ctxDone c.toNat 1)) ∧
      (s.hub.ctxAt c.toNat (0x19, 0) i →
        Makes (.qpeek c) s ((k.setCtx c.toNat (Ctx.set { x with i := true } (fRd i) (k.qIdle b))).ctxDone c.toNat 1)))) ∧
  (∀ (s : State) (c : Byte) (i : Word) (h : Hub),
    let x := s.hub.ctxNow c.toNat
    let k := s.hub.ctxSees c.toNat
    let b := k.bind c.toNat (fImm i % 16)
    s.hub.held = false → s.hub.ctxAt c.toNat (0x1A, 0) i → b.kind ≠ 0 → b.tx = true →
    (k.qPush c.toNat b (x.reg (fRd i)) = (true, h) → Makes (.qpush c) s ((h.setCtx c.toNat { x with c := false }).ctxDone c.toNat 1)) ∧
    (k.qPush c.toNat b (x.reg (fRd i)) = (false, h) →
      Makes (.qpush c) s (((h.carEvt F.CAR_EVT_CREDIT_OVERRUN).setCtx c.toNat { x with c := true }).ctxDone c.toNat 1))) ∧
  (∀ (s : State) (c : Byte) (i : Word),
    let k := s.hub.ctxSees c.toNat
    let b := k.bind c.toNat (fImm i % 16)
    let r := if b.tx then k.qCredit b else k.qBefore b
    let h := k.timedRecord c.toNat 0x1B r
    s.hub.held = false → s.hub.ctxAt c.toNat (0x1B, 0) i → b.kind ≠ 0 → s.hub.twin.role ≠ .standby →
    Makes (.qcred c) s ((h.setCtx c.toNat (Ctx.set { h.ctx c.toNat with z := r % 2 ^ 32 == 0 } (fRd i) (word r))).ctxDone c.toNat 1))

/-- The Carousel's point, frame, check and time instructions (R199 to R206): `i` is the word at the context's `PC`, `x` the context as
the instruction sees it. Where it rests on readings or choices of the model's own, they are those of log entries 28 and 49. -/
def Obligations.CarouselPointsChecksAndTime : Prop :=
  (∀ (s : State) (c : Byte) (i : Word),
    let x := s.hub.ctxNow c.toNat
    let k := s.hub.ctxSees c.toNat
    let a := (x.reg (fRs1 i)).toNat
    let p := (x.reg (fRs2 i)).toNat
    let r := k.prdRec x.page a
    s.hub.held = false → s.hub.ctxAt c.toNat (0x20, 0) i → a < 2 ^ 24 → a / 65536 ≠ 0xFF →
    (testBit (fFn i) 0 = false → Makes (.prd c) s
      ((k.setCtx c.toNat (Ctx.set { x with z := r.good } (fRd i) r.value)).ctxDone c.toNat 2)) ∧
    (testBit (fFn i) 0 = true → p ≤ 0x3F0 → p % 16 = 0 →
      let h := { k with car := { k.car with data := mwrite 0 k.car.data (0x400 * c.toNat + p) (r.words.flatMap fun (w : Word) => leBytes 4 w.toNat) } }
      Makes (.prd c) s ((h.setCtx c.toNat (Ctx.set { x with z := r.good } (fRd i) r.value)).ctxDone c.toNat 2))) ∧
  (∀ (s : State) (c : Byte) (i : Word),
    let x := s.hub.ctxNow c.toNat
    let k := s.hub.ctxSees c.toNat
    let a := (x.reg (fRs1 i)).toNat
    let own := k.ownNode (a / 65536)
    s.hub.held = false → s.hub.ctxAt c.toNat (0x21, 0) i → a < 2 ^ 24 → a / 65536 ≠ 0xFF → own = false ∨ a % 65536 < 0xFF00 →
    x.stage.length < 64 → testBit (fFn i) 0 = false →
    Makes (.pwr c) s ((k.setCtx c.toNat { x with stage := x.stage ++
      [.pwr (word (if own then a % 65536 else a)) (x.reg (fRs2 i)) (x.reg (fRd i)) none] }).ctxDone c.toNat 1)) ∧
  (∀ (s : State) (c : Byte) (i : Word),
    let x := s.hub.ctxNow c.toNat
    let k := s.hub.ctxSees c.toNat
    let e := (x.reg (fRs1 i)).toNat
    s.hub.held = false → s.hub.ctxAt c.toNat (0x22, 0) i → e ≤ 4095 → x.stage.length < 64 →
    Makes (.psub c) s ((k.setCtx c.toNat { x with stage := x.stage ++ [.psub e] }).ctxDone c.toNat 1)) ∧
  (∀ (s : State) (c : Byte) (i : Word),
    let x := s.hub.ctxNow c.toNat
    let k := s.hub.ctxSees c.toNat
    let a := (x.reg (fRs1 i)).toNat
    let b := (x.reg (fRs2 i)).toNat
    let frame := testBit (fFn i) 8
    s.hub.held = false → s.hub.ctxAt c.toNat (0x23, 0) i → x.stage.length < 64 →
    (frame = false → a < 2 ^ 24 ∧ 1 ≤ a / 65536 ∧ a / 65536 ≤ 122 ∧ a % 65536 + a / 65536 ≤ 0xFF00) →
    (frame = true → 1 ≤ b ∧ b ≤ 1024 ∧ a + b ≤ 0x20000 ∧ a % 4 = 0) →
    Makes (.femit c) s ((k.setCtx c.toNat { x with stage := x.stage ++
      [.femit (word a) (word b) frame (fFn i % 256)] }).ctxDone c.toNat 1)) ∧
  (∀ (s : State) (c : Byte) (i : Word),
    let x := s.hub.ctxNow c.toNat
    let k := s.hub.ctxSees c.toNat
    let u := fFn i % 16
    let v := (x.reg (fRs1 i)).toNat
    let init := testBit (fFn i) 4
    s.hub.held = false →
    (s.hub.ctxAt c.toNat (0x28, 0) i → k.snoopMine c.toNat u = true → Makes (.crcb c) s ((k.snoopGive c.toNat u [byte v]).ctxDone c.toNat 1)) ∧
    (s.hub.ctxAt c.toNat (0x29, 0) i → k.snoopMine c.toNat u = true →
      Makes (.crcw c) s ((k.snoopGive c.toNat u (if init then leBytes 4 v else beBytes 4 v)).ctxDone c.toNat 1)) ∧
    (s.hub.ctxAt c.toNat (0x2A, 0) i → init = false ∨ k.snoopMine c.toNat u = true →
      let j := k.setSnoop u { k.snoop u with read := some (k.now, c.toNat, fRd i) }
      let h := if init then j.snoopEnd u true false else j
      let r := word (h.snoopOut u)
      Makes (.crcr c) s ((h.setCtx c.toNat (Ctx.set { x with z := r == 0 } (fRd i) r)).ctxDone c.toNat 1))) ∧
  (∀ (h : Hub) (u : Nat), (h.snoop u).ended h.now = none → h.snoopOut u = h.snoopResult u) ∧
  (∀ (s : State) (c : Byte) (i : Word),
    let k := s.hub.ctxSees c.toNat
    let r := k.short (fFn i % 4)
    let h := k.timedRecord c.toNat 0x30 r
    s.hub.held = false → s.hub.ctxAt c.toNat (0x30, 0) i → s.hub.twin.role ≠ .standby →
    Makes (.tnow c) s ((h.setCtx c.toNat
      (((h.ctx c.toNat).set (fRd i) (word r)).set (fRd i + 1) (word (r / 2 ^ 32 % 256)))).ctxDone c.toNat 1)) ∧
  (∀ (s : State) (c : Byte) (i : Word),
    let x := s.hub.ctxNow c.toNat
    let k := s.hub.ctxSees c.toNat
    let d := max (-2 ^ 31) (min (2 ^ 31 - 1) (k.since (fFn i % 4) (x.target i)))
    let r := word (ofSigned 32 d)
    let h := k.timedRecord c.toNat 0x31 (ofSigned 32 d)
    s.hub.held = false → s.hub.ctxAt c.toNat (0x31, 0) i → s.hub.twin.role ≠ .standby →
    Makes (.tcmp c) s ((h.setCtx c.toNat
      (Ctx.set { h.ctx c.toNat with z := r == 0, n := r.msb, c := !r.msb, v := false } (fRd i) r)).ctxDone c.toNat 1))

/-- Waits and the course of a job (R164 to R166, R170, R173 to R176, R208 to R213), `i` and `x` as before; a commit in the exact words
of the hub's own application of its entries. Where it rests on readings or choices of the model's own, they are those of log entry 28. -/
def Obligations.CarouselWaitsAndJobs : Prop :=
  (∀ (s : State) (c : Byte) (i : Word),
    let x := s.hub.ctxNow c.toNat
    let k := s.hub.ctxSees c.toNat
    let q : Wait := .queue (fRd i) (if fImm i = 0 then none else some (s.hub.now + fImm i * 100 * tuNs))
    let t : Wait := .until_ (fFn i % 4) (x.target i)
    let y : Wait := .slots (fImm i)
    let waits := fun w => (k.setCtx c.toNat { k.ctx c.toNat with st := .waiting, wait := some w }).useSlot
    let goes := fun (w : Wait) => ((k.waitDone c.toNat w true).timedRecord c.toNat w.op 1).ctxDone c.toNat 1
    s.hub.held = false → s.hub.twin.role ≠ .standby →
    (s.hub.ctxAt c.toNat (0x38, 0) i → (k.bind c.toNat (fRd i)).kind ≠ 0 →
      Makes (.waitq c) s (if k.waitMet c.toNat q then goes q else waits q)) ∧
    (s.hub.ctxAt c.toNat (0x39, 0) i → Makes (.waitt c) s (if k.waitMet c.toNat t then goes t else waits t)) ∧
    (s.hub.ctxAt c.toNat (0x3A, 0) i → Makes (.yield c) s (if fImm i = 0 then goes y else waits y))) ∧
  (∀ (s : State) (c : Byte) (i : Word), s.hub.held = false →
    (s.hub.ctxAt c.toNat (0x38, 0) i → ((s.hub.ctxSees c.toNat).bind c.toNat (fRd i)).kind = 0 →
      Makes (.waitq c) s ((s.hub.ctxSees c.toNat).useSlot.carFault c.toNat 6)) ∧
    (s.hub.ctxAt c.toNat (0x3C, 0) i → s.hub.twin.role ≠ .standby →
      Makes (.done c) s ((s.hub.ctxSees c.toNat).useSlot.startCommit c.toNat)) ∧
    (s.hub.ctxAt c.toNat (0x3D, 0) i →
      Makes (.trap c) s ((s.hub.ctxSees c.toNat).useSlot.carFault c.toNat (0x80 + fImm i % 128)))) ∧
  (∀ (s : State) (c : Fin 252) (w : Wait),
    let x := s.hub.ctx c
    let goes := fun (h : Hub) => (h.setCtx c { h.ctx c with st := .running, wait := none, wokeAt := some h.now }).advance c
    s.hub.held = false → s.hub.twin.role ≠ .standby → x.st = .waiting → x.wait = some w →
    s.hub.pastDeadline c = false →
    (s.hub.waitMet c w = true → Makes (.waitEnd c) s (goes ((s.hub.waitDone c w true).timedRecord c w.op 1))) ∧
    (s.hub.waitMet c w = false → s.hub.waitLimit w = true →
      Makes (.waitEnd c) s (goes ((s.hub.waitDone c w false).timedRecord c w.op 0)))) ∧
  (∀ (h : Hub) (c : Nat), (h.ctx c).wokeAt = some h.now → ∀ p f, h.issue c p f = h) ∧
  (∀ (s : State) (c : Fin 252) (p : JobPage) (t : Nat),
    let x := s.hub.ctx c
    s.hub.held = false → x.next = some (p, t) → t + 256 * tuCore ≤ s.hub.now → x.st = .idle →
    Makes (.contextReady c) s (s.hub.setCtx c { x with st := .ready, page := p, next := none })) ∧
  (∀ (s : State) (c : Fin 252),
    let x := s.hub.ctx c
    s.hub.held = false → x.st = .ready → s.hub.ownsSlot c = true → s.hub.pastDeadline c = false →
    ∃ y : Ctx, Makes (.jobEntry c) s (s.hub.setCtx c y) ∧
      y.st = .running ∧ y.pc = s.hub.fld (Reg.CTX_ENTRY c) F.CTX_ENTRY_ENTRY ∧ y.stage = [] ∧
      y.saved = (x.w.filter fun r => decide (8 ≤ r.1)) ∧ (∀ r, r < 8 → y.reg r = 0) ∧
      [y.z, y.n, y.c, y.v, y.i, y.l] = [false, false, false, false, false, false] ∧ y.page = x.page) ∧
  (∀ (s : State) (c : Fin 252),
    let h := s.hub.lateAbort c
    s.hub.held = false → s.hub.twin.role ≠ .standby → (s.hub.ctx c).inJob = true → (s.hub.ctx c).held = false →
    (s.hub.ctx c).page.deadline ≤ s.hub.baseNs (s.hub.ctx c).page.tb →
    Makes (.jobDeadline c) s h) ∧
  (∀ (s : State) (c : Commit) (r : List Commit), s.hub.held = false → s.hub.car.commits = c :: r → c.due ≤ s.hub.now →
    Makes .commitApply s (({ s.hub with car := { s.hub.car with commits := r } } : Hub).applyCommit c)) ∧
  (∀ (h : Hub) (c : Nat),
    let x := h.ctx c
    let k := h.carFault c 0x81
    (k.ctx c).st = .faulted ∧ (k.ctx c).cause = 0x81 ∧ (k.ctx c).faultPc = x.pc ∧ (k.ctx c).stage = [] ∧
    ((h.lateAbort c).ctx c).st = .idle ∧ ((h.lateAbort c).ctx c).late = true ∧ ((h.lateAbort c).ctx c).stage = [] ∧
    ((h.startCommit c).ctx c).st = .idle ∧ ((h.startCommit c).ctx c).stage = [])

/-- The Carousel's host commands on contexts, calendar and Strum, and what they leave for the Carousel to complete (R163 to R165, R172,
R181). Where it rests on readings or choices of the model's own, they are those of log entries 10, 28 and 48. -/
def Obligations.CarouselCommands : Prop :=
  (∀ (s : State) (src : CmdSrc) (tag : Byte) (nw lo hi entry : Word),
    let c := mkCmd src 0x0401 tag [nw, lo, hi, entry]
    let n := nw.toNat
    Accepts s c → n < 252 → lo.toNat ≤ entry.toNat → entry.toNat ≤ hi.toNat → hi.toNat ≤ 65535 →
    (∀ i, lo.toNat ≤ i → i ≤ hi.toNat → loadable lo.toNat hi.toNat (s.hub.progWord i) = true) → s.hub.ctxStopped n = true →
    Gives (.ctxLoad src tag nw lo hi entry) s fun t => Answered c sOK [] s t ∧
      CmdOnly [.car] [Reg.CTX_PROG n, Reg.CTX_ENTRY n] c s t ∧
      t.hub.rd (Reg.CTX_PROG n) = word (lo.toNat + hi.toNat * 65536) ∧ t.hub.rd (Reg.CTX_ENTRY n) = word (entry.toNat + 2 ^ 31) ∧
      t.hub.car = (s.hub.setCtx n { pc := entry.toNat, page := (s.hub.ctx n).page, faultPc := (s.hub.ctx n).faultPc }).car) ∧
  (∀ (s : State) (src : CmdSrc) (tag : Byte) (nw : Word),
    let c := mkCmd src 0x0402 tag [nw]
    let n := nw.toNat
    let bs := s.hub.binds n
    Accepts s c → n < 252 → s.hub.deadline100 n ≠ 0 → s.hub.deadline100 n * 100 ≤ s.hub.groupPeriod100 (s.hub.ctxGroup n) →
    (∀ b ∈ bs, b.bad = false ∧ s.hub.bindPeer b = false) → hasRepeat bs = false → s.hub.ctxStopped n = true →
    s.hub.ctxValid n = true → (∃ i, i < 1024 ∧ s.hub.calEntry s.hub.car.bankB i = n) →
    (∀ m ∈ s.hub.usedCtx, m ≠ n → ∀ b ∈ s.hub.binds m, b ∉ bs) →
    Gives (.ctxStart src tag nw) s fun t => InProgress c s t ∧ CmdOnly [.car] [] c s t ∧
      t.hub.car = { s.hub.car with reqs := s.hub.car.reqs ++ [{ ctx := n, start := true, at_ := s.hub.now, ref := c.ref }] }) ∧
  (∀ (s : State) (src : CmdSrc) (tag : Byte) (nw : Word),
    let c := mkCmd src 0x0403 tag [nw]
    Accepts s c → nw.toNat < 252 → (s.hub.ctx nw.toNat).st ≠ .parked ∨ s.hub.starting nw.toNat = true →
    Gives (.ctxStop src tag nw) s fun t => InProgress c s t ∧ CmdOnly [.car] [] c s t ∧
      t.hub.car = { s.hub.car with reqs := s.hub.car.reqs ++ [{ ctx := nw.toNat, start := false, at_ := s.hub.now, ref := c.ref }] }) ∧
  (∀ (s : State) (n : Fin 252),
    let mine := s.hub.car.reqs.filter fun r => r.ctx == n.val && s.hub.ctxReqDue r
    let k := s.hub.useSlot
    let h : Hub := { k with car := { k.car with reqs := k.car.reqs.filter fun r => !(r.ctx == n.val && s.hub.ctxReqDue r) } }
    s.hub.held = false → (∃ r ∈ mine, r.start = false) →
    Makes (.ctxStopApply n) s (mine.foldl Hub.ctxReqDo h)) ∧
  (∀ (h : Hub) (r : CtxReq), h.ctxReqDue r = true ↔ h.slotCtx = 254 ∧ r.at_ < h.now ∧ (h.ctx r.ctx).skip = 0) ∧
  (∀ (h : Hub) (r : CtxReq),
    let x := h.ctx r.ctx
    let k := if x.inJob then (h.jobCan r.ctx).jobRecord r.ctx 3 0 else h
    (r.start = true → h.ctxReqDo r = (h.setCtx r.ctx { x with st := .idle, next := none }).answer r.ref sOK []) ∧
    (r.start = false → h.ctxReqDo r = (k.setCtx r.ctx { x.restore.over .parked with next := none }).answer r.ref sOK [])) ∧
  (∀ (s : State) (src : CmdSrc) (tag : Byte),
    let c := mkCmd src 0x0404 tag []
    Accepts s c → s.hub.calCheck (s.hub.calBank (!s.hub.car.bankB)) = none → s.hub.car.swap = false →
    Gives (.calSwap src tag) s fun t => Answered c sOK [] s t ∧ CmdOnly [.car] [] c s t ∧
      t.hub.car = { s.hub.car with swap := true }) ∧
  (∀ (s : State) (src : CmdSrc) (tag : Byte) (i why st : Nat),
    let c := mkCmd src 0x0404 tag []
    Accepts s c → s.hub.calCheck (s.hub.calBank (!s.hub.car.bankB)) = some (i, why, st) → i < 1024 → why < 4 →
    Gives (.calSwap src tag) s fun t => t.hub.car = s.hub.car ∧ t.hub.flag Reg.CAR_EVT F.CAR_EVT_CAL_REFUSED = true ∧
      t.hub.fld Reg.CAR_CAL_CHECK F.CAR_CAL_CHECK_SLOT = i ∧ t.hub.fld Reg.CAR_CAL_CHECK F.CAR_CAL_CHECK_REASON = why) ∧
  (∀ (s : State),
    let old := s.hub.calBank s.hub.car.bankB
    let last := (List.range 7).map fun i => (old.getD (1017 + i) 255, s.hub.coreCyc + i + 1)
    s.hub.held = false → s.hub.car.swap = true → s.hub.slotNo = 0 →
    Makes .calSwapApply s (Hub.carEvt { s.hub with car := { s.hub.car with
      bankB := !s.hub.car.bankB, swap := false, withheld := last.filter fun x => x.1 != 255 } } F.CAR_EVT_CAL_SWAPPED)) ∧
  (∀ (s : State) (b : Bool) (j : Fin 256) (w : Word), s.hub.held = false →
    Makes (.calBankWrite b j w) s
      (if b = s.hub.car.bankB ∨ s.hub.car.swap = true then s.hub.carEvt F.CAR_EVT_WRITE_REFUSED
       else s.hub.wr (if b then Reg.CAL_B j else Reg.CAL_A j) w)) ∧
  (∀ (s : State) (src : CmdSrc) (tag : Byte),
    let c := mkCmd src 0x0405 tag []
    let p := s.hub.fld Reg.CAR_STRUM_BASE F.CAR_STRUM_BASE_PERIOD
    Accepts s c → 5000 ≤ p → p ≤ 200000000 → (∀ g, g < 8 → s.hub.fld (Reg.CAR_GRP_N g) F.CAR_GRP_N_N ≠ 0) →
    (∀ x ∈ s.hub.usedCtx, s.hub.deadline100 x * 100 ≤ s.hub.groupPeriod100 (s.hub.ctxGroup x)) →
    (s.hub.twin.role = .solo ∨ s.hub.strumTb ≠ 3) → s.hub.car.strum = false →
    Gives (.strumStart src tag) s fun t => Answered c sOK [] s t ∧ CmdOnly [.car] [] c s t ∧
      t.hub.car = { s.hub.car with
        strum := true, kNext := ceilDiv (s.hub.baseNs s.hub.strumTb + 10000) (p * 5), produced := false }) ∧
  (∀ (s : State) (src : CmdSrc) (tag : Byte),
    let c := mkCmd src 0x0406 tag []
    Accepts s c → s.hub.car.strum = true →
    Gives (.strumStop src tag) s fun t => Answered c sOK [] s t ∧ CmdOnly [.car] [] c s t ∧
      t.hub.car = { s.hub.car with strum := false })

/-- The Carousel's memories and the base edge of the Strum (R23 to R25, R159, R160, R162), and the snoop units (R219 to R221). Where it
rests on readings or choices of the model's own, they are those of log entries 3, 28, 48 and 49. -/
def Obligations.CarouselMemoriesStrumAndSnoop : Prop :=
  (∀ (s : State) (i : Half) (w : Word), s.hub.held = false →
    Makes (.carProgWrite i w) s
      (if (s.hub.ctxCovering i.toNat).any fun c => !s.hub.ctxStopped c then s.hub.carEvt F.CAR_EVT_WRITE_REFUSED
       else (s.hub.ctxCovering i.toNat).foldl (fun h c => h.setFld (Reg.CTX_ENTRY c) F.CTX_ENTRY_VALID 0)
         { s.hub with car := { s.hub.car with prog := tset 0 s.hub.car.prog i.toNat w } })) ∧
  (∀ (s : State) (c i : Byte) (w : Word), s.hub.held = false → c.toNat < 252 →
    Makes (.carCtxDataWrite c i w) s
      (if s.hub.ctxStopped c.toNat then { s.hub with car := { s.hub.car with
         data := mwrite 0 s.hub.car.data (0x400 * c.toNat + 4 * i.toNat) (leBytes 4 w.toNat) } }
       else s.hub.carEvt F.CAR_EVT_WRITE_REFUSED)) ∧
  (∀ (s : State) (w : Word),
    let a := s.hub.fld Reg.CAR_SCR_ADDR F.CAR_SCR_ADDR_ADDR
    let h := if s.hub.flag Reg.CAR_SCR_ADDR F.CAR_SCR_ADDR_AUTOINC
      then s.hub.setFld Reg.CAR_SCR_ADDR F.CAR_SCR_ADDR_ADDR (a + 1) else s.hub
    s.hub.held = false → s.hub.car.scr = [] →
    (s.hub.ownsSlot 254 = true →
      Makes .scrDataRead s (h.useSlot.emit (.words [word (leNat (mread 0 s.hub.car.scratch (4 * a) 4))])) ∧
      Makes (.scrDataWrite w) s (Hub.useSlot { h with car := { h.car with
        scratch := mwrite 0 s.hub.car.scratch (4 * a) (leBytes 4 w.toNat) } })) ∧
    (s.hub.ownsSlot 254 = false →
      Makes .scrDataRead s { h with car := { h.car with scr := [{ addr := a, val := none }] } } ∧
      Makes (.scrDataWrite w) s { h with car := { h.car with scr := [{ addr := a, val := some w }] } })) ∧
  (∀ (s : State) (temp : Half) (sig : BitVec 2),
    s.hub.held = false → s.hub.car.strum = true → s.hub.follows = false →
    s.hub.car.kNext * s.hub.strumNs ≤ s.hub.baseNs s.hub.strumTb →
    Makes (.baseStrumEdge temp sig) s ((s.hub.noteSig sig.toNat).ownEdge temp.toInt)) ∧
  (∀ (h : Hub) (k g : Nat),
    h.edgeOf k g = true ↔ h.fld (Reg.CAR_GRP_N g) F.CAR_GRP_N_N ≠ 0 ∧ h.fld (Reg.CAR_GRP_N g) F.CAR_GRP_N_N ∣ k) ∧
  (∀ (h : Hub) (g k ns c : Nat), c ∈ h.liveCtx → h.ctxGroup c = g → (h.ctx c).st = .idle →
    ((h.startJobs g k ns).ctx c).next = some (h.jobPage c k ns, h.now)) ∧
  (∀ (s : State) (u : Fin 16) (w : Word),
    let w1 := (w ||| 1) &&& 0x000FFF3F
    s.hub.held = false → s.hub.flag (Reg.SNP_CFG u) F.SNP_CFG_EN = false →
    (∀ p, s.hub.snoopCfgOk w1 = true → s.hub.polyOf (bits w1 F.SNP_CFG_POLY) = some p →
      Makes (.snoopEnable u w) s ((s.hub.wr (Reg.SNP_CFG u) w1).setSnoop u { poly := some p, reg := p.init, since := some s.hub.now })) ∧
    (s.hub.snoopCfgOk w1 = false → Makes (.snoopEnable u w) s (s.hub.evt Reg.CRC_EVT F.CRC_EVT_WRITE_REFUSED))) ∧
  (∀ (s : State) (u : Fin 16), s.hub.held = false →
    Gives (.snoopInit u) s fun t => Only [.regs, .chk] s t ∧ RegsBut [Reg.SNP_LAST u, Reg.SNP_FRAMES u] s t ∧
      ((s.hub.snoop u).ended s.hub.now = none → t.hub.rd (Reg.SNP_LAST u) = word (s.hub.snoopResult u)) ∧ t.hub.flag (Reg.SNP_FRAMES u) F.SNP_FRAMES_LAST_VALID = true ∧
      (t.hub.snoop u).count = 0 ∧ ∀ p, s.hub.snoopPoly u = some p → (t.hub.snoop u).reg = p.init)

/-- The Carousel issues at most one instruction in a `CLK_CORE` cycle, in the slot of the context that issues it (R153, R534): in
another context's slot, in a slot already used, while the context does not run, or in the cycle in which its wait ended (R208), an
instruction's row does nothing, and once a slot is used no context owns it. Where it rests on readings or choices of the model's own,
they are those of log entry 28. -/
def Obligations.OneInstructionPerSlot : Prop :=
  (∀ (s : State) (c : Byte) (r : Byte → Instr),
    r ∈ [Instr.add, Instr.sub, Instr.adc, Instr.sbc, Instr.and, Instr.or, Instr.xor, Instr.shl, Instr.shr, Instr.sar, Instr.mulu,
      Instr.muls, Instr.clz, Instr.bfx, Instr.bfxs, Instr.bfi, Instr.addi, Instr.andi, Instr.ori, Instr.xori, Instr.lui, Instr.cmpi] ++
      [Instr.b, Instr.jal, Instr.jr, Instr.ldl, Instr.stl, Instr.lds, Instr.sts, Instr.qpop, Instr.qpeek, Instr.qpush, Instr.qcred,
      Instr.prd, Instr.pwr, Instr.psub, Instr.femit, Instr.crcb, Instr.crcw, Instr.crcr, Instr.tnow, Instr.tcmp, Instr.waitq,
      Instr.waitt, Instr.yield, Instr.done, Instr.trap] →
    s.hub.ownsSlot c.toNat = false ∨ (s.hub.ctx c.toNat).st ≠ .running ∨ (s.hub.ctx c.toNat).skip ≠ 0 ∨
      (s.hub.ctx c.toNat).wokeAt = some s.hub.now → exec (r c) s = .next s) ∧
  (∀ (h : Hub) (c : Nat), h.useSlot.ownsSlot c = false) ∧
  (∀ (h : Hub) (c d : Nat), h.ownsSlot c = true → h.ownsSlot d = true → c = d)

/-- The traffic manager: enabling and flushing queues, policers, the choice of a port's next frame, launch times and the timing wheel
(R240 to R254, R258). Where it rests on readings or choices of the model's own, they are those of log entries 18 and 37. -/
def Obligations.TrafficManager : Prop :=
  (∀ (s : State) (q : Fin 256) (w : Word),
    let w1 := (w ||| 1) &&& 0x0003FFFF
    let k := s.hub.wr (Reg.TM_Q_CFG q) w1
    let x := s.hub.tq q
    s.hub.held = false → s.hub.tqStopped q = true →
    (s.hub.tqCfgOk q w1 = true → Makes (.tmQueueEnable q w) s
      (k.setTq q { x with pa := { x.pa with e := 0, hold := .none }, pb := { x.pb with e := 0, hold := .none } })) ∧
    (s.hub.tqCfgOk q w1 = false → Makes (.tmQueueEnable q w) s (s.hub.evt Reg.TM_EVT F.TM_EVT_WRITE_REFUSED))) ∧
  (∀ (s : State) (i : Fin 256) (w : Word), s.hub.held = false → s.hub.flag (Reg.POL_CFG i) F.POL_CFG_EN = false →
    Gives (.policerEnable i w) s fun t => Only [.regs, .tm] s t ∧ RegsBut [Reg.POL_CFG i] s t ∧
      t.hub.rd (Reg.POL_CFG i) = (w ||| 0x80000000) &&& 0x80FFFFFF ∧
      t.hub.bucket i = { tokens := s.hub.cbs i, at_ := s.hub.baseNs 3 } ∧ ∀ j, j ≠ i.val → t.hub.bucket j = s.hub.bucket j) ∧
  (∀ (s : State) (src : CmdSrc) (tag : Byte) (iw : Word),
    let c := mkCmd src 0x0302 tag [iw]
    Accepts s c → iw.toNat < 256 →
    Gives (.tmPolFill src tag iw) s fun t => Answered c sOK [] s t ∧ CmdOnly [.tm] [] c s t ∧
      t.hub.tm = (s.hub.setBucket iw.toNat { tokens := s.hub.cbs iw.toNat, at_ := s.hub.baseNs 3 }).tm) ∧
  (∀ (s : State) (src : CmdSrc) (tag : Byte) (qw : Word),
    let c := mkCmd src 0x0301 tag [qw]
    let q := qw.toNat
    Accepts s c → q < 256 → s.hub.tqOn q = false →
    Gives (.tmQFlush src tag qw) s fun t => Answered c sOK [] s t ∧
      CmdOnly [.tm, .swc, .twin] [Reg.TM_Q_CNT_FLUSHED q, Reg.TM_Q_STAT q, Reg.TWIN_CNT_JNL_OVERFLOW, Reg.TWIN_EVT] c s t ∧
      t.hub.tm = (s.hub.tqFlush q).tm ∧ t.hub.swc = (s.hub.tqFlush q).swc ∧ (t.hub.tq q).ents = [] ∧ (t.hub.tq q).mark = 0 ∧
      t.hub.fld (Reg.TM_Q_STAT q) F.TM_Q_STAT_WM_CROSS = 0) ∧
  (∀ (s : State) (p : Fin 7) (q id : Nat) (second : Bool),
    let h := s.hub.endTx p
    let k := if p.val ≤ 2 then h.expireHeads p else h
    s.hub.held = false → p.val ≠ 3 → p.val ≠ 4 → h.portFree p = true →
    (∀ t, p.val ≤ 2 → k.dueHead p = some (q, id, second, t) →
      Makes (.portFrameChoice p) s ((k.dueFrom p q t).sendCopy p q id second)) ∧
    (2 < p.val ∨ k.dueHead p = none → k.normalHead p = some (q, id, second) →
      Makes (.portFrameChoice p) s
        (if k.fitsBefore p q (k.copyWire p q (k.frame id)) then k.sendCopy p q id second else k))) ∧
  (∀ (s : State) (p : Fin 3) (q id t : Nat) (second : Bool),
    let k := s.hub.endTx p
    s.hub.held = false → k.portFree p = true → k.dueHead p = some (q, id, second, t) →
    Makes (.launchDue p) s ((k.dueFrom p q t).sendCopy p q id second)) ∧
  (∀ (s : State) (p : Fin 3) (q id t : Nat) (second : Bool),
    s.hub.held = false → s.hub.launchHeads p = [(q, id, second, t)] →
    Makes (.launchWindowExpiry p) s
      (if s.hub.tooLate p q t then
        (((s.hub.count (Reg.TM_Q_CNT_LATE q)).count Reg.TM_CNT_LATE_DROP).evt Reg.TM_EVT F.TM_EVT_LATE_DROP).dropCopy q id second
       else s.hub)) ∧
  (∀ (s : State) (j : Fin 4096),
    let k := s.hub.baseNs 3 / 50
    let h := if j.val = 0 then s.hub.farScan else s.hub
    s.hub.held = false →
    (k % 4096 = j.val → k ≠ s.hub.start.tb3 / 50 → Makes (.wheelSlot j) s (h.busyQueues.foldl (fun h q =>
      let h := if (h.tq q).pa.hold.reached k then h.makeEligible q false else h
      if (h.tq q).pb.hold.reached k then h.makeEligible q true else h) h)) ∧
    (k % 4096 ≠ j.val ∨ k = s.hub.start.tb3 / 50 → Makes (.wheelSlot j) s s.hub)) ∧
  (∀ (h : Hub) (p q id : Nat) (second : Bool), h.headOn p q = some (id, second) →
    h.tqOnPort q p = some second ∧ ∃ e ∈ (h.tq q).ents, e.id = id ∧ e.at_ < h.now ∧ (if second then e.b else e.a) = true) ∧
  (∀ (h : Hub) (x : OwnIn) (i : Nat), h.defPol x.port = some i → (h.police i (frameLen x.frame.bytes)).1 = false →
    h.ownIn x = (h.police i (frameLen x.frame.bytes)).2.departed x.frame) ∧
  (∀ (h : Hub) (q id : Nat) (need : Option Nat) (lossy : Bool), h.tqOn q = true → h.tqLaunch q = false →
    need = none ∨ need = some (h.tqOut q) →
    h.place q id need lossy =
      if h.tqCredit q then h.tqPush q id
      else if lossy then
        (((h.count (Reg.TM_Q_CNT_NOCREDIT q)).count Reg.TM_CNT_NOCREDIT_DROP).evt Reg.TM_EVT F.TM_EVT_NOCREDIT_DROP).release id
      else (h.setTq q { h.tq q with waiting := (h.tq q).waiting ++ [id] }).setFrame id { h.frame id with need := need }) ∧
  (∀ (h : Hub) (i l : Nat), h.flag (Reg.POL_CFG i) F.POL_CFG_EN = true →
    (h.police i l).1 = decide (l * 8000000 ≤ (h.refill i).tokens) ∧
    ((h.police i l).1 = true → ((h.police i l).2.bucket i).tokens + l * 8000000 = (h.refill i).tokens))

/-- Midway: frames entering its virtual output queues, the crossbar's grants, `FENCE`, the MAC table and the auditor (R262 to R287).
Where it rests on readings or choices of the model's own, they are those of log entries 31 and 37. -/
def Obligations.Midway : Prop :=
  (∀ (s : State), s.hub.held = false →
    (∀ bs, Makes (.midwayFrameIn (.p2 bs)) s (s.hub.p2Rx bs)) ∧
    (∀ (p : Fin 3) bs, Makes (.midwayFrameIn (.head p bs)) s (s.hub.headRx p bs)) ∧
    (∀ a, (s.hub.swc.arrivals.find? fun a => decide (a.at_ < s.hub.now)) = some a →
      let k : Hub := { s.hub with swc := { s.hub.swc with arrivals := s.hub.swc.arrivals.erase a } }
      Makes (.midwayFrameIn .next) s (if a.whole then k.wholeIn a else k.headIn a.port a.id)) ∧
    ((∀ a ∈ s.hub.swc.arrivals, s.hub.now ≤ a.at_) → Makes (.midwayFrameIn .next) s s.hub)) ∧
  (∀ (h : Hub) (a : Arrival),
    let f := h.frame a.id
    let l := h.lookup a.port f.bytes
    let k := h.lookFrame a.port a.id
    let r := k.policeBy l.pol (frameLen f.bytes)
    f.look = none → f.cut = false →
    (r.1 = true → h.wholeIn a =
      (r.2.enterVoqs a.port a.id (l.outs.filter fun o => a.keepLocal || !r.2.localOut f.bytes o)).release a.id) ∧
    (r.1 = false → h.wholeIn a = r.2.release a.id)) ∧
  (∀ (h : Hub) (p : Nat) (n : Nrp), 2 ≤ n.ver → n.hops = 0 → ∀ o ∈ (h.lookNrp p n).outs, o = 5) ∧
  (∀ (h : Hub) (free : List Nat) (o i : Nat), h.grant free o = some i →
    i ∈ free ∧ ∃ c, h.request i o = some c ∧ ∀ j ∈ free, ∀ d, h.request j o = some d → d ≤ c) ∧
  (∀ (s : State),
    let h : Hub := { s.hub with swc := { s.hub.swc with roundAt := some s.hub.now } }
    let ins := [0, 1, 2].filter fun i => !h.swc.xfers.any fun x => x.inp == i
    let outs := [0, 1, 2, 4, 5, 6].filter fun o => !h.swc.xfers.any fun x => x.outp == o
    let k := ins.foldl (fun h i => outs.foldl (fun h o =>
      [0, 1, 2, 3, 4, 5, 6, 7].foldl (fun h c => Hub.dropHeads (h.voqAt i o c).length i o c h) h) h) h
    let grants := outs.filterMap fun o => (k.grant ins o).map fun i => (o, i)
    s.hub.held = false →
    (s.hub.swc.roundAt ≠ some s.hub.now →
      Makes .crossbarMatch s ((ins.filterMap fun i => (k.acceptIn grants i).map fun o => (i, o)).foldl (fun h m => h.matchUp m.1 m.2) k)) ∧
    (s.hub.swc.roundAt = some s.hub.now → Makes .crossbarMatch s s.hub)) ∧
  (∀ (h : Hub) (x : Xfer) (e : VEnt) (r : List VEnt),
    let q := h.fwdQueue x.outp x.cls
    let f := h.frame e.id
    let t := if f.arriving then none else some (h.now + ceilDiv (frameLen f.bytes) 16 * tuCore)
    h.voqAt x.inp x.outp x.cls = e :: r → h.judgePlace q e.id (some (outCode x.outp)) true = .placed →
    (h.xferBegin x).swc.xfers = h.swc.xfers.erase x ++ [{ x with id := some e.id, beginAt := h.now, endAt := t }] ∧
    ((h.xferBegin x).tq q).ents = (h.tq q).ents ++ [⟨e.id, decide (h.tqOut q ≠ 7), h.tqOut q == 2, h.now⟩] ∧
    (h.xferBegin x).voqAt x.inp x.outp x.cls = r) ∧
  (∀ (s : State) (src : CmdSrc) (tag : Byte) (mask timeout : Word),
    let c := mkCmd src 0x0281 tag [mask, timeout]
    let m := mask.toNat
    let k := s.hub.genAdvance m
    Accepts s c → m ≠ 0 → m < 8 → Nat.land m s.hub.fencePend = 0 →
    (∀ t, t < 3 → testBit m t = true → tget 0 s.hub.swc.genCnt (16 * t + (s.hub.genOf t + 1) % 16) = 0) →
    Gives (.fence src tag mask timeout) s fun t => InProgress c s t ∧ CmdOnly [.swc] [] c s t ∧
      t.hub.swc = { k.swc with fences := k.swc.fences ++
        [⟨m, if timeout.toNat = 0 then none else some (s.hub.now + timeout.toNat * tuUs), c.ref, s.hub.now⟩] }) ∧
  (∀ (s : State) (f : Fence),
    let k : Hub := { s.hub with swc := { s.hub.swc with fences := [] } }
    let done := f.inTime s.hub.now && s.hub.fenceClear f.mask
    s.hub.held = false → s.hub.swc.fences = [f] →
    (done = true → Makes .fenceTimeout s s.hub ∧
      (f.at_ < s.hub.now → Makes .fenceDone s ((k.evt Reg.SWC_EVT F.SWC_EVT_FENCE_DONE).answer f.ref sOK []))) ∧
    (done = false ∨ s.hub.now ≤ f.at_ → Makes .fenceDone s s.hub) ∧
    (done = false → ∀ t, f.due = some t → t ≤ s.hub.now → Makes .fenceTimeout s (k.answer f.ref sETIMEOUT []))) ∧
  (∀ (s : State),
    let x := fun (op : Nat) => ({ op := op, mac := s.hub.macKey.1, vid := s.hub.macKey.2, data := s.hub.rd Reg.SWC_MAC_DATA,
                                  due := s.hub.now + s.hub.freeNow.toNat % 64 * tuCore } : MacOp)
    let k := fun (op : Nat) => (Hub.setFld { s.hub.tick with swc := { s.hub.swc with macOp := some (x op) } }
      Reg.SWC_MAC_CMD F.SWC_MAC_CMD_OP op).setFld Reg.SWC_MAC_CMD F.SWC_MAC_CMD_GO 1
    let refused := s.hub.evt Reg.SWC_EVT F.SWC_EVT_WRITE_REFUSED
    s.hub.held = false →
    (s.hub.swc.macOp = none → Makes .macRead s (k 1) ∧ Makes .macWrite s (k 2) ∧ Makes .macDelete s (k 3)) ∧
    (s.hub.swc.macOp.isSome = true → Makes .macRead s refused ∧ Makes .macWrite s refused ∧ Makes .macDelete s refused)) ∧
  (∀ (h : Hub) (x : MacOp),
    let k : Hub := { h with swc := { h.swc with macOp := none } }
    h.swc.macOp = some x → x.due ≤ h.now →
    (∀ i, k.macFind x.mac x.vid = some i →
      (x.op = 1 → h.macFinish = (k.wr Reg.SWC_MAC_DATA (k.macEnt i).dataWord).macDone x true false i) ∧
      (x.op = 2 → h.macFinish = (k.setMac i (k.macFrom x)).macDone x true false i) ∧
      (x.op = 3 → h.macFinish = (k.setMac i { k.macEnt i with valid := false }).macDone x true false i)) ∧
    (k.macFind x.mac x.vid = none →
      (x.op = 1 → h.macFinish = (k.wr Reg.SWC_MAC_DATA 0).macDone x false false 0) ∧
      (x.op = 2 → ∀ i, k.macFree x.mac x.vid = some i → h.macFinish = (k.setMac i (k.macFrom x)).macDone x false false i) ∧
      (x.op = 2 → k.macFree x.mac x.vid = none → h.macFinish = k.macDone x false true 0) ∧
      (x.op = 3 → h.macFinish = k.macDone x false false 0))) ∧
  (∀ (s : State) (i : Fin 4096),
    let e := s.hub.macEnt i
    let age := s.hub.fld Reg.SWC_MAC_AGE F.SWC_MAC_AGE_AGE_S
    s.hub.held = false → e.valid = true → e.static = false → age ≠ 0 →
    Makes (.macAgeOut i) s (if e.at_ + age * tuS ≤ s.hub.now then s.hub.setMac i {} else s.hub)) ∧
  (∀ (s : State) (src : CmdSrc) (tag : Byte) (mask : Word),
    let c := mkCmd src 0x0282 tag [mask]
    Accepts s c → mask.toNat ≠ 0 → mask.toNat < 128 →
    Gives (.macFlush src tag mask) s fun t => Answered c sOK [] s t ∧ CmdOnly [.swc] [] c s t ∧
      t.hub.swc = { s.hub.swc with mac := s.hub.swc.mac.filter fun x => x.2.static || Nat.land x.2.ports mask.toNat == 0 }) ∧
  (∀ (s : State),
    let period := s.hub.fld Reg.SWC_AUDIT_CFG F.SWC_AUDIT_CFG_PERIOD_MS * tuMs
    s.hub.held = false → s.hub.flag Reg.SWC_CTL F.SWC_CTL_AUDIT_EN = true → s.hub.swc.auditBusy = false →
    Makes .auditPassStart s (if s.hub.swc.auditFrom + period ≤ s.hub.now then s.hub.auditStart else s.hub)) ∧
  (∀ (s : State),
    let cells := s.hub.swc.cell.foldl (fun t x => tset ({} : Cell) t x.1 (s.hub.cellJudge x.1 x.2)) ([] : Table Cell)
    let lost := s.hub.swc.cell.filter fun x => x.2.used && !(s.hub.cellJudge x.1 x.2).used
    let k : Hub := { s.hub with swc := { s.hub.swc with cell := cells, auditBusy := false } }
    s.hub.held = false → s.hub.swc.auditBusy = true → s.hub.swc.auditRefs = [] → s.hub.swc.auditAgain = false →
    (lost = [] → Makes .auditPassEnd s (k.count Reg.SWC_CNT_AUDIT_PASSES)) ∧
    (lost ≠ [] → Makes .auditPassEnd s ((((k.countN Reg.SWC_CNT_LEAK_RECLAIM lost.length).giveCells []).evt Reg.SWC_EVT
      F.SWC_EVT_LEAK).count Reg.SWC_CNT_AUDIT_PASSES))) ∧
  (∀ (h : Hub) (k : Nat) (c : Cell), c.used = true → h.cellOwned k = false → c.stamp = false →
    h.cellJudge k c = if 1 ≤ c.miss then {} else { used := true, miss := c.miss + 1 }) ∧
  (∀ (s : State) (src : CmdSrc) (tag : Byte),
    let c := mkCmd src 0x0C04 tag []
    let k : Hub := { s.hub with swc := { s.hub.swc with auditNext := s.hub.swc.auditNext ++ [c.ref] } }
    Accepts s c →
    Gives (.maintLeakAuditNow src tag) s fun t => InProgress c s t ∧ CmdOnly [.swc] [] c s t ∧
      t.hub.swc = if s.hub.swc.auditBusy then { k.swc with auditAgain := true } else k.auditStart.swc)

/-- Ring links and their HELLO, ages and hold-off, the ring's state and its check, and the writes that run the block (R16, R22, R288 to
R292, R305, R308, R311 to R313, R323, R326, R327). Where it rests on readings or choices of the model's own, they are those of log
entries 36 and 42. -/
def Obligations.RingLinksAndState : Prop :=
  (∀ (s : State) (p : Fin 4) (pause asm_ : Bool),
    let x := s.hub.rport p
    let mode := s.hub.fld (Reg.RING_P_CFG p) F.RING_P_CFG_MODE
    s.hub.held = false → s.hub.ringOn = true → mode ≠ 0 → x.link = .down → x.loop = false →
    (p = 3 → s.hub.flag Reg.GLB_STRAPS F.GLB_STRAPS_TWIN_EN = true) →
    Gives (.linkLock p pause asm_) s fun t => Only [.regs, .ring] s t ∧ RegsBut [Reg.RING_EVT] s t ∧
      t.hub.flag Reg.RING_EVT F.RING_EVT_LINK_CHANGE = true ∧ (∀ q, q ≠ p.val → t.hub.rport q = s.hub.rport q) ∧
      t.hub.rport p = { x with link := .locked, ver := 0, pauseRx := decide (p = 2) &&
        (mode == 2 && s.hub.flag (Reg.RING_P_CFG p) F.RING_P_CFG_AN_EN) && (pause || asm_) }) ∧
  (∀ (s : State) (p : Fin 4) (pause asm_ : Bool), s.hub.held = false →
    (s.hub.ringOn = false ∨ s.hub.fld (Reg.RING_P_CFG p) F.RING_P_CFG_MODE = 0 ∨
      (p = 3 ∧ s.hub.flag Reg.GLB_STRAPS F.GLB_STRAPS_TWIN_EN = false)) → Makes (.linkLock p pause asm_) s s.hub) ∧
  (∀ (s : State) (p : Fin 4), s.hub.held = false → (s.hub.rport p).link ≠ .down → s.hub.comingOn p = none →
    Gives (.linkLoss p) s fun t => Only [.regs, .ring] s t ∧ RegsBut [Reg.RING_EVT, Reg.RING_P_CNT_LINK_DOWNS p] s t ∧
      t.hub.flag Reg.RING_EVT F.RING_EVT_LINK_CHANGE = true ∧ (∀ q, q ≠ p.val → t.hub.rport q = s.hub.rport q) ∧
      t.hub.rport p = { s.hub.rport p with link := .down, ver := 0, pauseRx := false }) ∧
  (∀ (s : State) (p : Fin 4), s.hub.held = false → Makes (.linkLoss p) s (s.hub.linkDown p)) ∧
  (∀ (h : Hub) (p : Nat), (h.rport p).link ≠ .down → ∃ k : Hub, h.linkDown p = k.cutEnd p [] ∧ k.swc = h.swc ∧ k.tm = h.tm ∧
    k.rport p = { h.rport p with link := .down, ver := 0, pauseRx := false }) ∧
  (∀ (s : State) (n : Half), s.hub.held = false → (s.hub.rport 2).pauseRx = true → (s.hub.rport 2).link ≠ .down →
    Makes (.pauseFrameRx 2 n) s
      (s.hub.setRport 2 { s.hub.rport 2 with pauseUntil := s.hub.now + s.hub.byteTime 2 (n.toNat * 64) })) ∧
  (∀ (s : State), s.hub.held = false →
    Makes .helloTx s ([0, 1].foldl (fun h p =>
      if (h.rport p).link = .down then h else h.coreSend p tHello 0 0 (h.helloBytes p)) s.hub)) ∧
  (∀ (s : State) (p : Fin 2), s.hub.held = false →
    ((s.hub.rport p).link = .up ∨ (s.hub.rport p).link = .incompat) → (s.hub.rport p).helloAt + 3 * tuMs ≤ s.hub.now →
    Makes (.helloTimeout p) s ((s.hub.setLink p .locked).count (Reg.RING_P_CNT_HELLO_MISS p))) ∧
  (∀ (s : State) (p : Fin 2),
    let keep := fun (e : DdEnt) => decide (s.hub.now ≤ e.at_ + s.hub.fld Reg.RING_DD_CFG F.RING_DD_CFG_DD_AGE_US * tuUs)
    let l := s.hub.ddTable p
    s.hub.held = false →
    Makes (.ddEntryAgeOut p) s
      ((s.hub.setDd p (l.filter keep)).countN Reg.RING_CNT_DD_SINGLE (l.filter fun e => !keep e).length)) ∧
  (∀ (s : State) (n : Byte), s.hub.held = false → (s.hub.source n.toNat).known = true →
    (s.hub.source n.toNat).heard + s.hub.ringMs F.RING_PAR_CFG_SRC_AGE_MS ≤ s.hub.now →
    Makes (.sourceAgeOut n) s (s.hub.setSource n.toNat { s.hub.source n.toNat with known := false })) ∧
  (∀ (s : State), s.hub.held = false → s.hub.ring.state ≠ .forming → s.hub.ring.state ≠ s.hub.judgedState →
    Makes .ringStateTimeout s (Hub.evt { s.hub with ring := { s.hub.ring with state := s.hub.judgedState } }
      Reg.RING_EVT F.RING_EVT_STATE_CHANGE)) ∧
  (∀ (s : State) (q : Nat), s.hub.held = false → s.hub.mayOriginate = true → s.hub.acts = true → s.hub.txnQueue = some q →
    Makes .ringCheckTx s
      (s.hub.originate tCheck 0 s.hub.ring.addr false 0 0 0 q none none false fun _ => .inl (List.replicate 8 0))) ∧
  (∀ (s : State) (t : Nat), s.hub.held = false → s.hub.ring.upAt = some t →
    t + s.hub.ringMs F.RING_PAR_CFG_SRC_AGE_MS + tuMs ≤ s.hub.now →
    Makes .holdoffEnd s { s.hub with ring := { s.hub.ring with holdoff := false } }) ∧
  (∀ (s : State), s.hub.held = false → s.hub.flag Reg.RING_CTL F.RING_CTL_HSR_EN = true → s.hub.ringOn = true → s.hub.acts = true →
    s.hub.originates = true →
    let macs := ((s.hub.swc.mac.filter fun x => x.2.valid && !x.2.static && testBit x.2.ports 2).take 512).map (·.2.mac)
    let one := fun (h : Hub) (mac : Nat) =>
      let seq := h.ring.hsrSeq
      let bs := h.superFrame mac
      let k : Hub := { h with ring := { h.ring with hsrSeq := (seq + 1) % 65536 } }
      k.corePlace 2 { bytes := bs, hsr := some seq }
    Makes .hsrSupervisionTx s ((s.hub.ringMac :: macs).foldl one s.hub)) ∧
  (∀ (s : State), s.hub.held = false → (s.hub.flag Reg.RING_CTL F.RING_CTL_HSR_EN = false ∨ s.hub.acts = false ∨ s.hub.originates = false) →
    Makes .hsrSupervisionTx s s.hub) ∧
  (∀ (s : State) (w : Word), s.hub.held = false → s.hub.ringOn = false →
    Makes (.ringEnable w) s (if s.hub.verMin = 0 ∨ s.hub.verMax = 0 ∨ s.hub.verMax < s.hub.verMin
      then s.hub.evt Reg.RING_EVT F.RING_EVT_WRITE_REFUSED else s.hub.wr Reg.RING_CTL ((w ||| 1) &&& 7))) ∧
  (∀ (s : State) (w : Word), s.hub.held = false → s.hub.ringOn = true →
    Makes (.ringEnable w) s (if (w &&& 6) = (s.hub.rd Reg.RING_CTL &&& 6) then s.hub
      else s.hub.evt Reg.RING_EVT F.RING_EVT_WRITE_REFUSED)) ∧
  (∀ (s : State) (src : CmdSrc) (tag : Byte) (pw : Word),
    let c := mkCmd src 0x0202 tag [pw]
    let p := pw.toNat
    Accepts s c → p < 3 → s.hub.ringOn = true → s.hub.fld (Reg.RING_P_CFG p) F.RING_P_CFG_MODE ≠ 0 →
    runRingLinkRestart s.hub c = .done (s.hub.linkDown p) [] ∧ (s.hub.comingOn p = none →
    Gives (.ringLinkRestart src tag pw) s fun t => Answered c sOK [] s t ∧
      CmdOnly [.ring] [Reg.RING_EVT, Reg.RING_P_CNT_LINK_DOWNS p] c s t ∧ (t.hub.rport p).link = .down))

/-- Frames received on the ring ports, and the Parade (R275, R290, R301 to R307, R314 to R320, R326). `body` is the frame without its
FCS. Where it rests on readings or choices of the model's own, they are those of log entries 6, 32, 33, 34 and 35. -/
def Obligations.RingReceptionAndParade : Prop :=
  (∀ (s : State) (p : Fin 2) (b f : List Byte),
    let bs := b ++ f
    s.hub.held = false →
    (s.hub.ringOn = false ∨ (s.hub.rport p).link = .down → Makes (.ringFrameRx p b f) s s.hub) ∧
    (s.hub.ringOn = true → (s.hub.rport p).link ≠ .down → bs.length < 64 →
      Makes (.ringFrameRx p b f) s ((s.hub.count (Reg.RING_P_CNT_RUNT p)).cutEnd p bs))) ∧
  (∀ (s : State) (p : Fin 2) (b f : List Byte),
    let bs := b ++ f
    let body := bs.take (bs.length - 4)
    let n := nrpParse body
    let h := s.hub.sourceAge n.src
    let seen := h.seen n
    let h := if countedType n.typ then (h.observe n).ringJudge else h
    let keep := (h.deliveryFirst n seen p).1
    let h := (h.deliveryFirst n seen p).2
    let h := if 2 ≤ n.ver ∧ n.hops = 0 then (h.count Reg.RING_CNT_HOP_DROP).evt Reg.RING_EVT F.RING_EVT_HOP_DROP else h
    s.hub.held = false → s.hub.ringOn = true → s.hub.linkUp p = true → 64 ≤ bs.length → bs.length ≤ 2048 → judgeFcs bs = .good →
    s.hub.isNrp bs = true → badHeader body = false → n.typ ≠ tHello → n.typ ≠ tParade → n.typ ≠ tLate →
    (s.hub.ownFrame n = true → Makes (.ringFrameRx p b f) s ((s.hub.removeOwn n p true).cutEnd p body)) ∧
    (s.hub.ownFrame n = false → badNodes n = true → Makes (.ringFrameRx p b f) s (s.hub.cutEnd p body)) ∧
    (s.hub.ownFrame n = false → badNodes n = false → Makes (.ringFrameRx p b f) s
      ((if h.toSelf n && !keep && h.outerPort != some p.val then h else h.toMidway p body keep (h.rxStamps p bs.length)).cutEnd p body))) ∧
  (∀ (h : Hub) (n : Nrp) (k : Seen) (p : Nat), p ≠ 0 ∨ h.sameCycle (h.twinOf n) = none → h.deliveryFirst n k p = h.deliveryJudge n k p) ∧
  (∀ (h : Hub) (p : Nat) (bs : List Byte), h.comingOn p = none → h.cutEnd p bs = h) ∧
  (∀ (s : State) (p : Fin 2) (bs : List Byte),
    let body := bs.take (bs.length - 4)
    let n := nrpParse body
    let x := nrpPayload body
    s.hub.held = false → s.hub.ringOn = true → (s.hub.rport p).link ≠ .down → 64 ≤ bs.length → bs.length ≤ 2048 →
    judgeFcs bs = .good → s.hub.isNrp bs = true → badHeader body = false → (nrpParse bs).typ = n.typ →
    (n.typ = tHello → Makes (.helloRx p bs) s ((s.hub.helloRx p x).cutEnd p body)) ∧
    (n.typ = tLate → s.hub.linkUp p = true → Makes (.lateReqRx p bs) s ((s.hub.lateRx p n x).cutEnd p body)) ∧
    (∀ d, n.typ = tParade → s.hub.linkUp p = true → paradeParse x = some d →
      beAt bs (14 + nrpHdrLen (nrpParse bs).ver) 1 = d.phase →
      (d.phase = 1 → Makes (.paradeSurveyRx p bs) s ((s.hub.surveyRx p n.turned d).cutEnd p body)) ∧
      (d.phase = 2 → Makes (.paradeAssignmentRx p bs) s ((s.hub.assignmentRx p d).cutEnd p body)))) ∧
  (∀ (h : Hub) (p : Nat) (b : List Byte),
    let v := min h.verMax (beAt b 1 1)
    (h.rport p).link = .locked → 16 ≤ b.length → h.verMin ≤ v → beAt b 0 1 ≤ v →
    ((h.helloRx p b).rport p).link = .up ∧ ((h.helloRx p b).rport p).ver = v ∧ ((h.helloRx p b).rport p).helloAt = h.now) ∧
  (∀ (l : List PEntry), (assignAll l).length = l.length ∧ (((assignAll l).map (·.given)).filter (· ≠ 0)).Nodup) ∧
  (∀ (s : State) (t : Nat), s.hub.held = false → s.hub.ring.relaunchAt = some t → t ≤ s.hub.now →
    Makes .paradeWaitExpiry s (s.hub.launchSurvey 1)) ∧
  (∀ (s : State) (t : Nat), s.hub.held = false → s.hub.ring.relaunchAt = none → s.hub.ring.firstUp = some t →
    t + s.hub.ringMs F.RING_PAR_CFG_PARADE_WAIT_MS ≤ s.hub.now → s.hub.ring.state = .forming → s.hub.paradeBusy = false →
    Makes .paradeWaitExpiry s (if s.hub.ring.paradeSeen then s.hub.lateReq else s.hub.launchSurvey 1)) ∧
  (∀ (s : State) (v : Survey), s.hub.held = false → s.hub.ring.survey = some v →
    v.at_ + s.hub.ringMs F.RING_PAR_CFG_PARADE_TMO_MS ≤ s.hub.now →
    Makes .paradeTimeout s (if v.tries < 3 then s.hub.launchSurvey (v.tries + 1)
      else Hub.evt { s.hub with ring := { s.hub.ring with survey := none } } Reg.RING_EVT F.RING_EVT_PARADE_FAIL)) ∧
  (∀ (s : State) (src : CmdSrc) (tag : Byte),
    let c := mkCmd src 0x0201 tag []
    let k := if s.hub.ring.leader then s.hub.launchSurvey 1 else s.hub.lateReq
    Accepts s c → s.hub.ringOn = true → s.hub.upPorts ≠ [] → s.hub.paradeBusy = false →
    Gives (.ringParade src tag) s fun t => InProgress c s t ∧ CmdOnly [.ring, .swc] [] c s t ∧ t.hub.swc = k.swc ∧
      t.hub.ring = { k.ring with cmds := k.ring.cmds ++ [(c.ref, s.hub.now)] }) ∧
  (∀ (s : State),
    let timedOut := fun (c : CmdRef × Nat) => decide (c.2 + 4 * s.hub.ringMs F.RING_PAR_CFG_PARADE_TMO_MS ≤ s.hub.now)
    let k : Hub := { s.hub with ring := { s.hub.ring with cmds := s.hub.ring.cmds.filter fun c => !timedOut c } }
    s.hub.held = false →
    Makes .ringParadeTimeout s ((s.hub.ring.cmds.filter timedOut).foldl (fun h c => h.answer c.1 sETIMEOUT []) k))

/-- The time bases: their advance, the judgement of steps, the time commands, permits and slews, and the servos (R331 to R338, R347,
R348, R353). Where it rests on readings or choices of the model's own, they are those of log entries 3 and 23. -/
def Obligations.TimeBasesAndServos : Prop :=
  (∀ (h : Hub), (h.tb 3).ops = [] → (h.tb 3).slew = none → (h.tb 3).sub < subNs →
    ((h.tbTick 3).tb 3).ns = ((h.tb 3).ns + 5) % nsWrap ∧ ((h.tbTick 3).tb 3).sub = (h.tb 3).sub) ∧
  (∀ (h : Hub) (b : Nat) (z : Int), b < 3 → (h.tb b).servo ≠ .unset → (h.tb b).servo ≠ .refused → z ≠ 0 →
    (z.natAbs ≤ h.jumpNs b → h.judgeStep b z =
      (true, ((h.setTb b { h.tb b with ops := (h.tb b).ops ++ [.step z] }).evtN Reg.TIME_EVT F.TIME_EVT_STEPPED b).count
        (Reg.TB_CNT_STEPS b))) ∧
    (h.jumpNs b < z.natAbs → (h.tb b).permit.isSome = true → (h.judgeStep b z).1 = true ∧
      (h.judgeStep b z).2.tb b = { h.tb b with permit := none, ops := (h.tb b).ops ++ [.step z] }) ∧
    (h.jumpNs b < z.natAbs → (h.tb b).permit = none → h.judgeStep b z =
      (false, ((h.evtN Reg.TIME_EVT F.TIME_EVT_TIME_JUMP_REFUSED b).count (Reg.TB_CNT_REFUSED b)).wr (Reg.TB_REFUSED_OFS b)
        (sat32 z)))) ∧
  (∀ (s : State) (src : CmdSrc) (tag : Byte) (bw lo hi ns : Word),
    let c := mkCmd src 0x0801 tag [bw, lo, hi, ns]
    let b := bw.toNat
    let z : Int := (((lo.toNat + hi.toNat * 2 ^ 32) * 1000000000 + ns.toNat : Nat) : Int) - (s.hub.baseNs b : Int)
    Accepts s c → b < 3 → hi.toNat < 65536 → ns.toNat < 1000000000 → s.hub.tbSrc b = 0 → (s.hub.judgeStep b z).1 = true →
    Gives (.timeSet src tag bw lo hi ns) s fun t => Answered c sOK [] s t ∧
      CmdOnly [.tim] [Reg.TIME_EVT, Reg.TB_CNT_STEPS b] c s t ∧ t.hub.tim = (s.hub.judgeStep b z).2.tim) ∧
  (∀ (s : State) (src : CmdSrc) (tag : Byte) (bw lo hi : Word),
    let c := mkCmd src 0x0802 tag [bw, lo, hi]
    let b := bw.toNat
    let z := toSigned 64 (lo.toNat + hi.toNat * 2 ^ 32)
    Accepts s c → b < 3 → s.hub.tbSrc b = 0 →
    ((s.hub.judgeStep b z).1 = true → Gives (.timeStep src tag bw lo hi) s fun t => Answered c sOK [] s t ∧
      CmdOnly [.tim] [Reg.TIME_EVT, Reg.TB_CNT_STEPS b] c s t ∧ t.hub.tim = (s.hub.judgeStep b z).2.tim) ∧
    ((s.hub.judgeStep b z).1 = false → (∃ q, src = .queue q) → Gives (.timeStep src tag bw lo hi) s fun t =>
      t.hub.tim = s.hub.tim ∧ t.hub.rd (Reg.TB_REFUSED_OFS b) = sat32 z)) ∧
  (∀ (s : State) (src : CmdSrc) (tag : Byte) (bw arm : Word),
    let c := mkCmd src 0x0803 tag [bw, arm]
    let b := bw.toNat
    Accepts s c → b < 3 → arm.toNat < 2 →
    Gives (.timeStepPermit src tag bw arm) s fun t => Answered c sOK [] s t ∧ CmdOnly [.tim] [] c s t ∧
      t.hub.tim = (s.hub.setTb b { s.hub.tb b with ops := (s.hub.tb b).ops ++ [.permit (arm.toNat == 1)] }).tim) ∧
  (∀ (s : State) (src : CmdSrc) (tag : Byte) (bw ofs rate : Word),
    let c := mkCmd src 0x0804 tag [bw, ofs, rate]
    let b := bw.toNat
    Accepts s c → b < 3 → rate.toNat ≠ 0 → rate.toNat ≤ 1000 → s.hub.tbSrc b = 0 → (s.hub.tb b).slewing = false →
    Gives (.timeSlew src tag bw ofs rate) s fun t => Answered c sOK [] s t ∧ CmdOnly [.tim] [] c s t ∧
      t.hub.tim = (s.hub.setTb b { s.hub.tb b with
        ops := (s.hub.tb b).ops ++ [.slew (toSigned 32 ofs.toNat) rate.toNat] }).tim) ∧
  (∀ (s : State) (b : Fin 3) (t : Nat), s.hub.held = false → (s.hub.tb b).permit = some t →
    Makes (.permitExpiry b) s (if t + 60 * tuS ≤ s.hub.now
      then (s.hub.setTb b { s.hub.tb b with permit := none }).evtN Reg.TIME_EVT F.TIME_EVT_PERMIT_EXPIRED b else s.hub)) ∧
  (∀ (s : State) (b : Fin 3) (x : Slew), s.hub.held = false → (s.hub.tb b).slew = some x → x.rem = 0 →
    Makes (.slewComplete b) s
      (let k := s.hub.setTb b { s.hub.tb b with slew := none }
       if (s.hub.tb b).servo = .refused then k.servoTo b .acquiring else k)) ∧
  (∀ (s : State) (b : Fin 3) (i : ServoIn) (ofs : Int),
    let h := s.hub.wr (Reg.TB_OFS b) (sat32 ofs)
    let k := h.setTb b { h.tb b with lastIn := h.now, freqs := ((h.freqPpt b) :: (h.tb b).freqs).take 16 }
    s.hub.held = false → s.hub.acts = true → s.hub.servoOffset b i = some ofs →
    ((s.hub.tb b).servo ≠ .refused → Makes (.servoInput b i) s
      (let k := (if (s.hub.tb b).servo = .holdover then k.servoTo b .acquiring else k).servoCount b ofs
       if ofs.natAbs ≤ 4 * k.lockNs b then k.servoFreq b else k.servoStep b ofs)) ∧
    ((s.hub.tb b).servo = .refused → s.hub.flag (Reg.TB_SRC b) F.TB_SRC_AUTO_SLEW = false → Makes (.servoInput b i) s
      (if (s.hub.tb b).permit.isSome then k.servoStep b ofs else k)) ∧
    ((s.hub.tb b).servo = .refused → s.hub.flag (Reg.TB_SRC b) F.TB_SRC_AUTO_SLEW = true → Makes (.servoInput b i) s
      (if (s.hub.tb b).slewing then k else k.setTb b { k.tb b with
        ops := (k.tb b).ops ++ [.slew (toSigned 32 (s.hub.rd (Reg.TB_REFUSED_OFS b)).toNat) (s.hub.slewMax b)] }))) ∧
  (∀ (s : State) (b : Fin 3) (i : ServoIn), s.hub.held = false → s.hub.acts = false ∨ s.hub.servoOffset b i = none →
    Makes (.servoInput b i) s s.hub) ∧
  (∀ (s : State) (b : Fin 3), s.hub.held = false →
    (s.hub.tbSrc b = 1 ∨ (2 ≤ s.hub.tbSrc b ∧ (s.hub.tb b).lastIn + 3 * tuS ≤ s.hub.now)) →
    ((s.hub.tb b).servo = .acquiring ∨ (s.hub.tb b).servo = .locked) → (s.hub.tb b).freqs ≠ [] →
    Makes (.servoSourceLost b) s ((s.hub.wr (Reg.TB_FREQ b)
      (word (ofSigned 32 ((s.hub.tb b).freqs.foldl (· + ·) 0 / ((s.hub.tb b).freqs.length : Int))))).servoTo b .holdover)) ∧
  (∀ (s : State) (b : Fin 3) (w : Word),
    let v := bits w F.TB_SRC_SRC
    let r := s.hub.regWrite (Reg.TB_SRC b) w false id
    let k := r.setTb b { r.tb b with lastIn := r.now }
    let st := (s.hub.tb b).servo
    s.hub.held = false →
    (5 ≤ v ∨ (v = 1 ∧ b = 2) → Makes (.servoSrcWrite b.castSucc w) s (s.hub.timeEvt F.TIME_EVT_WRITE_REFUSED)) ∧
    (v = 0 → Makes (.servoSrcWrite b.castSucc w) s (if st = .unset then k else k.servoTo b .free)) ∧
    (1 ≤ v → v < 5 → (v = 1 → b ≠ 2) →
      Makes (.servoSrcWrite b.castSucc w) s (if st = .free then k.servoTo b .acquiring else k))) ∧
  (∀ (s : State) (w : Word), s.hub.held = false → Makes (.servoSrcWrite 3 w) s s.hub) ∧
  (∀ (s : State) (b : Fin 2) (gm : Dword),
    let k := s.hub.setTb b { s.hub.tb b with gm := gm.toNat }
    s.hub.held = false → s.hub.acts = true → s.hub.tbSrc b = 1 → (s.hub.tb b).gm ≠ gm.toNat →
    (s.hub.tb b).servo = .acquiring ∨ (s.hub.tb b).servo = .locked ∨ (s.hub.tb b).servo = .holdover →
    Makes (.ptpAnnounceRx b gm) s ((k.servoTo b .acquiring).evtN Reg.TIME_EVT F.TIME_EVT_GM_CHANGE b))

/-- Event capture and the entry of its edges into the event FIFO, the latch of the seconds, pulse outputs and the PTP messages of the
control core (R339 to R343, R346, R350 to R352, R355, R356). Where it rests on readings or choices of the model's own, they are those
of log entries 6, 23, 41 and 50. -/
def Obligations.EventsPulsesAndPtp : Prop :=
  (∀ (s : State) (i : Fin 66) (level : Bool) (ago : Nat),
    let a := Reg.TIME_ETI i
    let b := s.hub.fld a F.TIME_ETI_TB
    let st := s.hub.edgeStamp b ago (toSigned 16 (s.hub.fld a F.TIME_ETI_ADJ_PS))
    let x := st / 256 % 2 ^ 40
    let w0 := word (x / 2 ^ 32 + st % 256 * 256 + i * 2 ^ 16 + bitB level * 2 ^ 23 + b * 2 ^ 24 + 2 * 2 ^ 28)
    s.hub.held = false → s.hub.flag a (if level then F.TIME_ETI_RISE else F.TIME_ETI_FALL) = true →
    s.hub.fld a F.TIME_ETI_FILT * 300 ≤ ago →
    let cyc := (s.hub.now - ago) / 300
    let same := s.hub.tim.caught.any fun e => e.pin == i.val && e.cyc == cyc
    (same = false → Makes (.eventPinEdge i level false ago) s
      { s.hub with tim := { s.hub.tim with caught := caughtIn ⟨cyc, i, w0, word x⟩ s.hub.tim.caught } }) ∧
    (same = true → Makes (.eventPinEdge i level false ago) s (Hub.count { s.hub with tim := { s.hub.tim with
      caught := s.hub.tim.caught.filter fun e => !(e.pin == i.val && e.cyc == cyc) } } Reg.TIME_CNT_ETI_NARROW))) ∧
  (∀ (s : State) (i : Fin 66) (level : Bool) (ago : Nat), s.hub.held = false →
    let a := Reg.TIME_ETI i
    Makes (.eventPinEdge i level true ago) s
      (if s.hub.fld a F.TIME_ETI_FILT = 0 ∧ (s.hub.flag a F.TIME_ETI_RISE = true ∨ s.hub.flag a F.TIME_ETI_FALL = true)
        then s.hub.count Reg.TIME_CNT_ETI_NARROW else s.hub)) ∧
  (∀ (h : Hub), h.evEnter = if (h.now + tuCore) / 300 = h.now / 300 then h
    else h.tim.caught.foldl (fun h e => h.feed jEvent 0 [e.w0, e.w1] fun h => h.evqIn e.w0 e.w1) { h with tim := { h.tim with caught := [] } }) ∧
  (∀ (s : State) (i : Fin 66) (level : Bool) (ago : Nat), s.hub.held = false →
    s.hub.flag (Reg.TIME_ETI i) (if level then F.TIME_ETI_RISE else F.TIME_ETI_FALL) = false ∨
      ago < s.hub.fld (Reg.TIME_ETI i) F.TIME_ETI_FILT * 300 →
    Makes (.eventPinEdge i level false ago) s s.hub) ∧
  (∀ (h : Hub) (w0 w1 : Word),
    let n := h.tim.evq.length + h.tim.evc.fresh h.now
    let k := h.evqIn w0 w1
    (n < 4096 → k.tim.evq = h.tim.evq ++ [(if h.tim.evLoss then w0 ||| 0x04000000 else w0, w1)] ∧ k.tim.evLoss = false) ∧
    (4096 ≤ n → k.tim.evq = h.tim.evq ∧ k.tim.evLoss = true ∧ k.flag Reg.TIME_EVT F.TIME_EVT_EVQ_LOST = true)) ∧
  (∀ (s : State) (w0 w1 : Word) (r : List (Word × Word)), s.hub.held = false → s.hub.tim.evq = (w0, w1) :: r →
    s.hub.tim.evc.putNow s.hub.now ≤ r.length →
    (s.hub.tim.evHalf = false → Makes .evqPop s (Hub.emit { s.hub with tim := { s.hub.tim with evHalf := true } } (.words [w0]))) ∧
    (s.hub.tim.evHalf = true → Makes .evqPop s (Hub.emit { s.hub with tim := { s.hub.tim with
      evq := r, evHalf := false, evc := s.hub.tim.evc.pop s.hub.now } } (.words [w1])))) ∧
  (∀ (s : State), s.hub.held = false → s.hub.tim.evq = [] → Makes .evqPop s (s.hub.emit (.words [0xF0000000]))) ∧
  (∀ (s : State), s.hub.held = false →
    Makes .evqFlush s (Hub.setFld { s.hub with tim := { s.hub.tim with
      evq := [], evHalf := false, evc := { s.hub.tim.evc with high := false } } } Reg.EVQ_STAT F.EVQ_STAT_WM_CROSS 0)) ∧
  (∀ (s : State) (b : Fin 4),
    let t := s.hub.baseNs b
    let sec := t / 1000000000
    s.hub.held = false →
    Makes (.timeNowRead b) s (((s.hub.wr (Reg.TB_NOW_SEC_LO b) (word sec)).wr (Reg.TB_NOW_SEC_HI b) (word (sec / 2 ^ 32 % 65536))).emit
      (.words [word (t % 1000000000)]))) ∧
  (∀ (s : State) (k : Fin 16) (w : Word),
    let width := (s.hub.rd (Reg.PPO_WIDTH k)).toNat
    let period := (s.hub.rd (Reg.PPO_PERIOD k)).toNat
    let bad := width < 5 ∨ (bits w F.PPO_CFG_PERIODIC = 1 ∧ (period < 20 ∨ period ≤ width))
    s.hub.held = false → s.hub.flag (Reg.PPO_CFG k) F.PPO_CFG_EN = false → bits w F.PPO_CFG_EN = 1 →
    (bad → Makes (.ppoEnable k w) s (s.hub.timeEvt F.TIME_EVT_WRITE_REFUSED)) ∧
    (¬ bad → Makes (.ppoEnable k w) s
      (((s.hub.regWrite (Reg.PPO_CFG k) w false id).setFld (Reg.PPO_STAT k) F.PPO_STAT_ARMED 1).ppoPassed k))) ∧
  (∀ (s : State) (k : Fin 16),
    let b := s.hub.fld (Reg.PPO_CFG k) F.PPO_CFG_TB
    let per := s.hub.flag (Reg.PPO_CFG k) F.PPO_CFG_PERIODIC
    let n := s.hub.fld (Reg.PPO_STAT k) F.PPO_STAT_COUNT
    let h := (s.hub.setFld (Reg.PPO_STAT k) F.PPO_STAT_ACTIVE 1).setFld (Reg.PPO_STAT k) F.PPO_STAT_COUNT (n + 1)
    let h := h.setPulse k (some (s.hub.now + (s.hub.rd (Reg.PPO_WIDTH k)).toNat * tuNs))
    s.hub.held = false → s.hub.flag (Reg.PPO_CFG k) F.PPO_CFG_EN = true → s.hub.ppoArmed k = true → s.hub.ppoActive k = false →
    0 ≤ s.hub.ppoLag k → s.hub.ppoLag k < s.hub.tbInc b →
    (s.hub.squelched (s.hub.flag (Reg.PPO_CFG k) F.PPO_CFG_SQUELCH) b = false →
      Makes (.ppoFire k) s ((if per then h else h.ppoDisarm k).drive
        (.pulse k (!s.hub.flag (Reg.PPO_CFG k) F.PPO_CFG_POL)))) ∧
    (s.hub.squelched (s.hub.flag (Reg.PPO_CFG k) F.PPO_CFG_SQUELCH) b = true →
      Makes (.ppoFire k) s (if per then s.hub.ppoAdvance k 1 else s.hub.ppoDisarm k))) ∧
  (∀ (s : State) (k : Fin 16) (t : Nat), s.hub.held = false → tget none s.hub.tim.pulse k = some t → t ≤ s.hub.now →
    s.hub.flag (Reg.PPO_CFG k) F.PPO_CFG_PERIODIC = false →
    Makes (.ppoPulseEnd k) s (s.hub.ppoOff k)) ∧
  (∀ (s : State) (k : Fin 16) (t : Nat), s.hub.held = false → tget none s.hub.tim.pulse k = some t → t ≤ s.hub.now →
    s.hub.flag (Reg.PPO_CFG k) F.PPO_CFG_PERIODIC = true →
    Makes (.ppoPulseEnd k) s (((s.hub.ppoOff k).ppoAdvance k 1).ppoPassed k)) ∧
  (∀ (s : State) (j : Fin 2),
    let a := Reg.PPSO_CFG j
    let t := s.hub.tb (s.hub.fld a F.PPSO_CFG_TB)
    let adj := toSigned 16 (s.hub.fld (Reg.PPSO_ADJ j) F.PPSO_ADJ_ADJ_PS) * 1000000000
    s.hub.held = false → s.hub.flag a F.PPSO_CFG_EN = true →
    s.hub.squelched (s.hub.flag a F.PPSO_CFG_SQUELCH) (s.hub.fld a F.PPSO_CFG_TB) = false → tget none s.hub.tim.pulse (16 + j) = none →
    (((t.ns * subNs + t.sub : Nat) : Int) + adj) % ((1000000000 * subNs : Nat) : Int) < s.hub.tbInc (s.hub.fld a F.PPSO_CFG_TB) →
    Makes (.ppsoPulse j) s ((s.hub.setPulse (16 + j) (some (s.hub.now + s.hub.fld a F.PPSO_CFG_WIDTH_US * tuUs))).drive
      (.pulse (16 + j) true))) ∧
  (∀ (s : State) (p : Fin 3) (bs : List Byte) (reqAt : Nat), s.hub.held = false → s.hub.ptpPort p = true → (stdParse bs).etype = etPtp →
    Makes (.ptpEventTx p bs reqAt) s (s.hub.ptpSend p bs reqAt)) ∧
  (∀ (s : State) (p : Fin 3) (bs : List Byte),
    let m := stdParse bs
    let st := s.hub.rxStamps p (bs.length + 4)
    s.hub.held = false → s.hub.ptpTaken p bs = true → m.etype = etPtp →
    (beAt bs m.data 1 % 16 = 2 → s.hub.ptpPort p = true → Makes (.ptpPdelayRx p bs) s
      (s.hub.ptpSend p (s.hub.pdelayResp p bs) (st.getD (s.hub.ptpBase (beAt bs (m.data + 4) 1)) 0))) ∧
    (beAt bs m.data 1 % 16 = 3 → Makes (.ptpPdelayRx p bs) s (s.hub.wr (Reg.TIME_P_DELAY p)
      (word (ofSigned 32 ((((st.getD 3 0 : Nat) : Int) - ((tget 0 s.hub.tim.pdReq p : Nat) : Int) -
        toSigned 64 (beAt bs (m.data + 8) 8)) / 2)))))) ∧
  (∀ (s : State) (p : Fin 3) (bs : List Byte) (reqAt : Nat), s.hub.held = false →
    (s.hub.ptpPort p = false ∨ (stdParse bs).etype ≠ etPtp → Makes (.ptpEventTx p bs reqAt) s s.hub) ∧
    (s.hub.ptpTaken p bs = false ∨ (stdParse bs).etype ≠ etPtp → Makes (.ptpPdelayRx p bs) s s.hub))

/-- Twin hubs: heartbeats, silence, takeover, hand-over and revert (R358, R361 to R363, R377, R382 to R384, R471). Where it rests on
readings or choices of the model's own, they are those of log entries 6, 21 and 50. -/
def Obligations.TwinHeartbeatsAndTakeover : Prop :=
  (∀ (s : State), s.hub.held = false → s.hub.twin.role ≠ .solo → s.hub.twin.hbAt + tuUs ≤ s.hub.now →
    let n := (s.hub.twin.hb + 1) % 256
    let k := s.hub.setTwin { s.hub.twin with hb := n, hbAt := s.hub.now }
    Makes .heartbeatTx s (k.emit (.heartbeat ((k.rport 3).link != .down) (k.hbWord k.twin.role.code n) (word k.twin.image) (k.twin.jseqRx.getD 0) k.twin.digestRun))) ∧
  (∀ (s : State) (w : Word), s.hub.held = false → s.hub.twin.role ≠ .solo → hbSeal w.toNat = w →
    let cnt := w.toNat / 256 % 256
    let p : HbPath := { at_ := s.hub.now, cnt := some cnt, silent := false, live := true }
    (s.hub.twin.lvds.cnt ≠ some cnt → Makes (.heartbeatRx .lvds w) s
      ((s.hub.setTwin { s.hub.twin with lvds := p }).hbGood s.nv true w.toNat none none none)) ∧
    (∀ mac img js run, s.hub.twin.ser.cnt ≠ some cnt → (s.hub.rport 3).link ≠ .down → Makes (.heartbeatRx (.serial mac img js run) w) s
      ((s.hub.setTwin { s.hub.twin with ser := p }).hbGood s.nv false w.toNat (some mac.toNat) (some img.toNat) (some run.toNat)))) ∧
  (∀ (s : State) (rx : HbRx) (w : Word), s.hub.held = false → hbSeal w.toNat ≠ w → Makes (.heartbeatRx rx w) s s.hub) ∧
  (∀ (s : State),
    let tw := s.hub.twin
    let tmo := s.hub.fld Reg.TWIN_CFG F.TWIN_CFG_T_MISS_US * tuUs
    s.hub.held = false → tw.role ≠ .solo →
    (tw.lvds.silent = false → tw.lvds.at_ + tmo ≤ s.hub.now →
      let k := (s.hub.setTwin { tw with lvds := { tw.lvds with silent := true } }).count Reg.TWIN_CNT_HB_MISS_LVDS
      Makes (.heartbeatPathSilent false) s (if tw.ser.silent then k.peerFailed s.nv else k.twinEvt F.TWIN_EVT_DEGRADED)) ∧
    (tw.ser.silent = false → tw.ser.at_ + tmo ≤ s.hub.now →
      let k := (s.hub.setTwin { tw with ser := { tw.ser with silent := true } }).count Reg.TWIN_CNT_HB_MISS_SER
      Makes (.heartbeatPathSilent true) s (if tw.lvds.silent then k.peerFailed s.nv else k.twinEvt F.TWIN_EVT_DEGRADED))) ∧
  (∀ (h : Hub) (nv : NonVol), h.twin.peerDead = false → h.twin.role = .standby → h.failing = false →
    h.peerFailed nv = (h.setTwin { h.twin with peerDead := true, revertPend := none, revertReq := false, revertSince := none }).takeover) ∧
  (∀ (s : State), s.hub.held = false → s.hub.twin.role = .joining →
    max s.hub.twin.joinAt (max s.hub.twin.ser.at_ s.hub.twin.lvds.at_) + s.hub.fld Reg.TWIN_TMO F.TWIN_TMO_JOIN_MS * tuMs ≤ s.hub.now →
    Makes .joinTimeout s ((s.hub.setRole .active).driveAll)) ∧
  (∀ (s : State), s.hub.held = false → s.hub.twin.role = .active → s.hub.hasFatal = true → s.hub.peerReady = true →
    s.hub.twin.halted = false → Makes .fatalHandover s ((s.hub.setTwin { s.hub.twin with fatal := true }).switchOut s.hub.car.k)) ∧
  (∀ (s : State) (t : Nat), s.hub.held = false → s.hub.twin.fatalAt = some t → t ≤ s.hub.now →
    Makes .fatalResetDelay s ((s.hub.setTwin { s.hub.twin with fatalAt := none }).askWarm 7)) ∧
  (∀ (s : State) (t : Nat), s.hub.held = false → s.hub.revertOk = true → s.hub.twin.revertSince = some t →
    Makes .revertRequest s (if t + s.hub.fld Reg.TWIN_CFG F.TWIN_CFG_T_REVERT_S * tuS ≤ s.hub.now
      then s.hub.setTwin { s.hub.twin with revertReq := true } else s.hub)) ∧
  (∀ (s : State), s.hub.held = false → s.hub.twin.takeAt + 10 * tuMs ≤ s.hub.now →
    Makes .takeTransmitterLimit s (s.hub.setTwin { s.hub.twin with keep := [] })) ∧
  (∀ (s : State), s.hub.held = false →
    Gives .pllUnlock s fun t => t.hub.glb.pllHold = true ∧ t.hub.glb.pllLock = false ∧ t.hub.held = true)

/-- Twin hubs: the state transfer's blocks and timeout, the scrubber, the frames of the journal, and the twin commands (R366, R375,
R376, R381, R387, R388). Where it rests on readings or choices of the model's own, they are those of log entries 21, 22 and 50. -/
def Obligations.TwinTransferScrubberAndCommands : Prop :=
  (∀ (s : State) (t : Nat), s.hub.held = false → s.hub.twin.syncAt = some t →
    t + s.hub.fld Reg.TWIN_TMO F.TWIN_TMO_SYNC_TMO_MS * tuMs ≤ s.hub.now →
    (s.hub.twin.role = .syncing ∨ (s.hub.twin.role = .active ∧ s.hub.peerPresent = true)) →
    let n := s.hub.twin.syncTries + 1
    let k := (s.hub.setTwin { s.hub.twin with syncAt := some s.hub.now, syncTries := n, sent := [] }).count Reg.TWIN_CNT_SYNC_TMO
    Makes .syncTimeout s (if n < 3 then k else s.hub.twin.syncRefs.foldl (fun h r => h.answer r sETIMEOUT [])
      (k.setTwin { k.twin with syncRefs := [], syncTries := 0 }))) ∧
  (∀ (s : State), s.hub.held = false → s.hub.twin.scrubRefs = [] →
    Makes (.scrubPassEnd 0 [] 0) s (s.hub.setTwin { s.hub.twin with
      scrubs := (s.hub.twin.scrubs + 1) % 256, scrubLate := decide (s.hub.twin.scrubAt + 60 * tuS < s.hub.now), scrubAt := s.hub.now,
      scrubRefs := s.hub.twin.scrubNext, scrubNext := [], eccCorr := min 65535 s.hub.twin.eccCorr })) ∧
  (∀ (s : State) (corr : Half) (bad : List (BitVec 20)) (other : Half), s.hub.held = false →
    Gives (.scrubPassEnd corr bad other) s fun t => ∀ w ∈ bad, w.toNat ∈ t.hub.car.bad) ∧
  (∀ (s : State) (src : CmdSrc) (tag : Byte),
    let c := mkCmd src 0x0C05 tag []
    Accepts s c → Gives (.maintScrubNow src tag) s fun t => InProgress c s t ∧ CmdOnly [.twin] [] c s t ∧
      t.hub.twin = { s.hub.twin with scrubNext := s.hub.twin.scrubNext ++ [c.ref] }) ∧
  (∀ (s : State) (q : Fin 4) (tag : Byte),
    let c := mkCmd (.queue q) 0x0901 tag []
    s.hub.held = false → s.hub.served c = true → s.hub.precheck c = none → s.hub.twin.role = .active → s.hub.twin.peerRole = 3 →
    Gives (.twinResync (.queue q) tag) s fun t => InProgress c s t ∧ t.hub.twin.syncRefs = s.hub.twin.syncRefs ++ [c.ref] ∧
      t.hub.twin.syncTries = 0 ∧ t.hub.twin.syncAt = some s.hub.now) ∧
  (∀ (s : State) (src : CmdSrc) (tag : Byte) (hold : Word),
    let c := mkCmd src 0x0902 tag [hold]
    Accepts s c → hold.toNat ≤ 1 → s.hub.twinEn = true →
    Gives (.twinRevertHold src tag hold) s fun t => Answered c sOK [] s t ∧ CmdOnly [] [Reg.TWIN_CFG] c s t ∧
      t.hub.fld Reg.TWIN_CFG F.TWIN_CFG_REVERT_HOLD = hold.toNat) ∧
  (∀ (s : State) (q : Fin 4) (tag : Byte),
    let c := mkCmd (.queue q) 0x0C02 tag []
    let tw := s.hub.twin
    s.hub.held = false → s.hub.served c = true → s.hub.precheck c = none → tw.peerRole = 3 → tw.notInStep = false → tw.peerNis = false →
    tw.ser.ok = true → tw.lvds.ok = true → s.hub.failing = false → tw.peerFail = false → s.hub.maintFree = true →
    Gives (.maintTwinDrill (.queue q) tag) s fun t => InProgress c s t ∧
      t.hub.host = { s.hub.host with maint := .drill s.hub.now c.ref }) ∧
  (∀ (s : State) (r : JRec) (rs : List JRec), s.hub.held = false → (s.hub.rport 3).link ≠ .down → s.hub.twin.store = r :: rs →
    (1024 ≤ jstoreSize s.hub.twin.store ∨ r.at_ + 200 * tuNs ≤ s.hub.now) →
    let now := (frameFill 1500 s.hub.twin.store).1
    let bs := padTo 60 (beBytes 6 (2 ^ 48 - 1) ++ beBytes 6 s.hub.ringMac ++ [0x88, 0xB5] ++ now.flatMap JRec.encode)
    Makes .journalFrameTx s ((s.hub.setTwin { s.hub.twin with store := (frameFill 1500 s.hub.twin.store).2 }).emit
      (.frame 3 bs (word (fcsOf bs))))) ∧
  (∀ (s : State), s.hub.held = false → (s.hub.rport 3).link ≠ .down → s.hub.twin.store = [] → s.hub.twin.role = .active →
    s.hub.twin.peerRole = 2 →
    match (List.range s.hub.stateBlocks.length).zip s.hub.stateBlocks |>.find? fun x => tget none s.hub.twin.sent x.1 != some x.2 with
    | some (i, b) =>
      let tw := { s.hub.twin with jseq := (s.hub.twin.jseq + 1) % 65536, worked := true, sent := tset none s.hub.twin.sent i (some b) }
      Makes .journalFrameTx s ((s.hub.setTwin tw).emit (.state s.hub.twin.jseq (s.hub.baseNs s.hub.strumTb % 2 ^ 32) b))
    | none => Makes .journalFrameTx s s.hub) ∧
  (∀ (room : Nat) (l : List JRec), (frameFill room l).1 ++ (frameFill room l).2 = l ∧
    ((frameFill room l).1.map JRec.size).sum ≤ room) ∧
  (∀ (s : State) (w : Word), s.hub.held = false → bits w F.TWIN_LAG_LAG_CLR = 1 →
    Gives (.lagClear w) s fun t => Only [.regs] s t ∧ RegsBut [Reg.TWIN_LAG] s t ∧ t.hub.fld Reg.TWIN_LAG F.TWIN_LAG_LAG_MAX = 0)

/-- The standby applies the active's journal, record by record (R366 to R376, R382): `k` is the hub that has noted the record's
sequence number and lag. Where it rests on readings or choices of the model's own, they are those of log entries 22 and 50. -/
def Obligations.JournalRecords : Prop :=
  (∀ (s : State) (jseq : Half) (act : Word),
    let k := (s.hub.setTwin { s.hub.twin with jseqRx := some jseq.toNat, worked := true }).jnlLag act.toNat
    s.hub.held = false → s.hub.twin.role = .standby →
    (s.hub.twin.jseqRx = none ∨ ∃ q, s.hub.twin.jseqRx = some q ∧ jseq.toNat = (q + 1) % 65536) →
    (∀ e (g : Byte) (t : BitVec 40) (temp : Half) (sig : BitVec 2) b, Makes (.jnlEdge jseq act e g t ⟨temp, sig⟩ b) s
      ((k.noteSig sig.toNat).edgeRecord e.toNat g.toNat t.toNat temp.toInt)) ∧
    (∀ (n : Fin 96) count items, Makes (.jnlLaneRx jseq act n count items) s
      (k.sourceRecord (srcKey jLane n) count.toNat (items.map fun w => [w]))) ∧
    (∀ (e : Fin 32) count ws, Makes (.jnlFretRx jseq act e count ws) s
      (k.sourceRecord (srcKey jFret e) count.toNat (ws.map fun w => [w]))) ∧
    (∀ (n : Fin 16) count ws, Makes (.jnlCanRx jseq act n count ws) s (k.sourceRecord (srcKey jCan n) count.toNat [ws])) ∧
    (∀ count w0 w1, Makes (.jnlEvent jseq act count w0 w1) s (k.sourceRecord (srcKey jEvent 0) count.toNat [[w0, w1]])) ∧
    (∀ (g : Fin 8) ws, Makes (.jnlDsnap jseq act g ws) s (k.dsnapRecord g ws)) ∧
    (∀ (port src : Byte) (seq : Half) (fcs : Word) bs, Makes (.jnlRingRx jseq act port src seq fcs bs) s
      (k.ringRecord port.toNat src.toNat seq.toNat fcs.toNat bs)) ∧
    (∀ (c : Fin 252) (op : Byte) (v : BitVec 40), Makes (.jnlTimed jseq act c op v) s
      (k.setCtx c { k.ctx c with timed := (k.ctx c).timed ++ [(op.toNat, v.toNat)] })) ∧
    (∀ (c : Fin 252) (i : Fin 16) (m : Half), Makes (.jnlMark jseq act c i m) s (k.qMark (k.bind c i) m.toNat)) ∧
    (∀ (c : Fin 252) (o : BitVec 2) (cause : Byte), Makes (.jnlJob jseq act c o cause) s (k.jobOutcome c o.toNat cause.toNat)) ∧
    (∀ (seq : Half) (ports : Byte), Makes (.jnlTxDone jseq act seq ports) s (k.txDone seq.toNat)) ∧
    (∀ (b : Fin 4) (sec : BitVec 48) (ns freq : Word) (sv : BitVec 3) (delay : Word),
      Makes (.jnlTime jseq act b sec ns freq sv delay) s (k.timeRecord b sec.toNat ns.toNat freq sv.toNat delay.toInt)) ∧
    (∀ (g : Fin 8) (st : Half) (crc : Word), Makes (.jnlDigest jseq act g st crc) s (k.digestRecord g crc.toNat)) ∧
    (∀ (e : Dword), Makes (.jnlSwitch jseq act e) s k.switchIn)) ∧
  (∀ (s : State) (jseq : Half) (act : Word) e (g : Byte) (t : BitVec 40) (temp : Half) (sig : BitVec 2),
    let k := (s.hub.syncDone.setTwin { s.hub.syncDone.twin with jseqRx := some jseq.toNat, worked := true }).jnlLag act.toNat
    s.hub.held = false → s.hub.twin.role = .syncing →
    Makes (.jnlEdge jseq act e g t ⟨temp, sig⟩ true) s ((k.noteSig sig.toNat).edgeRecord e.toNat g.toNat t.toNat temp.toInt)) ∧
  (∀ (s : State) (jseq : Half) (act : Word) (q : Nat) (g : Fin 8) (ws : List Word),
    s.hub.held = false → s.hub.twin.role = .standby → s.hub.twin.jseqRx = some q → jseq.toNat ≠ (q + 1) % 65536 →
    s.hub.flag Reg.TWIN_CFG F.TWIN_CFG_AUTO_RESYNC = true → s.hub.twin.notInStep = false →
    Gives (.jnlDsnap jseq act g ws) s fun t => t.hub.twin.role = .syncing ∧ t.hub.twin.notInStep = true ∧
      t.hub.flag Reg.TWIN_EVT F.TWIN_EVT_NOT_IN_STEP = true ∧ t.hub.twin.syncAt = some s.hub.now) ∧
  (∀ (s : State) (jseq : Half) (act : Word) (g : Fin 8) (ws : List Word), s.hub.held = false → s.hub.twin.role ≠ .standby →
    Makes (.jnlDsnap jseq act g ws) s s.hub) ∧
  (∀ (s : State) (jseq : Half) (act : Word) (b : StateBlk), s.hub.held = false → s.hub.twin.role = .syncing →
    Makes (.jnlState jseq act b) s
      (((s.hub.setTwin { s.hub.twin with jseqRx := some jseq.toNat, worked := true }).jnlLag act.toNat).stateBlock b)) ∧
  (∀ (s : State) (x : Named) (r : List Named), s.hub.held = false → s.hub.twin.named = x :: r → x.at_ + 4 * tuUs ≤ s.hub.now →
    Makes .jnlRingMiss s (Hub.deliverNamed r.length
      (((s.hub.setTwin { s.hub.twin with named := r }).count Reg.TWIN_CNT_RING_MISS).noteBit 17))) ∧
  (∀ (h : Hub) (b sec ns : Nat) (freq : Word) (sv : Nat) (delay : Int), b < 3 →
    ((h.timeRecord b sec ns freq sv delay).tb b).ns = ((((sec * 1000000000 + ns : Nat) : Int) + delay) % (nsWrap : Int)).toNat ∧
    (h.timeRecord b sec ns freq sv delay).rd (Reg.TB_FREQ b) = freq ∧
    ((h.timeRecord b sec ns freq sv delay).tb b).servo = servoOf sv)

/-- The standard requests on endpoint 0 of the hub and of the embedded function (R404 to R406, R411): `k` is the hub once the SETUP has
cleared a protocol STALL; a device that is not there gives no answer. Where it rests on readings or choices of the model's own, they
are those of log entries 25 and 40. -/
def Obligations.UsbStandardRequests : Prop :=
  (∀ (s : State) (fn : Bool),
    let k := s.hub.setUdev fn { s.hub.udev fn with stall := false }
    let d := k.udev fn
    let stalled := (k.setUdev fn { d with stall := true }).stallEp []
    s.hub.held = false → (s.hub.udev fn).state ≠ 0 → (fn = true → s.hub.fnReached = true) →
    (∀ x : Half, Makes (.getStatus fn 0 x) s (k.ackData [byte (1 + bitB d.rwake * 2), 0])) ∧
    (∀ x : Half, (fn = true → x.toNat % 128 ≠ 0) → ∀ i, k.reqEp fn x.toNat = some i →
      Makes (.getStatus fn 2 x) s (k.ackData [byte (bitB (k.uep i).halted), 0]) ∧
      Makes (.clearFeature fn 2 0 x) s ((k.setUep i { k.uep i with halted := false, toggle := false }).ackData []) ∧
      Makes (.setFeature fn 2 0 x) s
        (let h := k.setUep i { k.uep i with halted := true }
         (if fn && !(k.uep i).halted then (h.count Reg.USB_CNT_EP_HALT).evt Reg.USB_EVT F.USB_EVT_EP_HALT else h).ackData [])) ∧
    (∀ x : Half, (fn = true → x.toNat % 128 ≠ 0) → k.reqEp fn x.toNat = none → Makes (.getStatus fn 2 x) s stalled ∧
      Makes (.clearFeature fn 2 0 x) s stalled ∧ Makes (.setFeature fn 2 0 x) s stalled) ∧
    (∀ x : Half, Makes (.clearFeature fn 0 1 x) s ((k.setUdev fn { d with rwake := false }).ackData []) ∧
      Makes (.setFeature fn 0 1 x) s ((k.setUdev fn { d with rwake := true }).ackData [])) ∧
    (∀ x : Half, fn = true → x.toNat % 128 = 0 → Makes (.getStatus fn 2 x) s (k.ackData [0, 0])) ∧
    Makes (.getStatus fn 1 0) s (if d.state = 3 then k.ackData [0, 0] else stalled) ∧
    (∀ x : Half, fn = false → 1 ≤ x.toNat / 256 → x.toNat / 256 ≤ 5 →
      Makes (.setFeature fn 0 2 x) s ((k.setUport 8 { k.uport 8 with st := .testing, test := x.toNat / 256 }).ackData [])) ∧
    (∀ x : Half, fn = true ∨ x.toNat / 256 = 0 ∨ 5 < x.toNat / 256 → Makes (.setFeature fn 0 2 x) s stalled) ∧
    (∀ a : Half, Makes (.setAddress fn a) s
      (if 1 ≤ a.toNat ∧ a.toNat ≤ 127 ∧ d.state ≤ 2 then (k.setUdev fn { d with addr := a.toNat, state := 2 }).ackData [] else stalled)) ∧
    (∀ (typ idx : Byte) (n : Half), Makes (.getDescriptor fn typ idx n) s
      (match k.descriptor fn typ.toNat idx.toNat with
        | some x => k.ackData (x.take n.toNat)
        | none => stalled)) ∧
    Makes (.getConfiguration fn) s (k.ackData [byte (bitB (d.state == 3))]) ∧
    (∀ v : Byte, v.toNat ≤ 1 → 2 ≤ d.state → Gives (.setConfiguration fn v) s fun t => Only [.usb, .out] s t ∧ RegsBut [] s t ∧
      (t.hub.udev fn).state = 2 + v.toNat ∧ (t.hub.udev fn).alt = 0 ∧ t.hub.out = (k.ackData []).out ∧
      (∀ i, (i = 33 ↔ fn = false) → t.hub.uep i = {}) ∧ ∀ i, (i = 33 ↔ fn = true) → t.hub.uep i = s.hub.uep i) ∧
    (∀ v : Byte, 1 < v.toNat ∨ d.state < 2 → Makes (.setConfiguration fn v) s stalled) ∧
    (∀ x : Half, Makes (.getInterface fn x) s (if d.state = 3 ∧ x = 0 then k.ackData [byte d.alt] else stalled)) ∧
    (∀ alt x : Half, Makes (.setInterface fn alt x) s
      (let h := k.setUdev fn { d with alt := alt.toNat }
       if d.state = 3 ∧ x.toNat = 0 ∧ (alt.toNat = 0 ∨ (alt.toNat = 1 ∧ fn = false ∧ k.usb.speed = 2)) then
         Hub.ackData (if fn then h else { h with usb := { h.usb with tt := [] } }) []
       else stalled)) ∧
    Makes (.unsupportedRequest fn) s stalled) ∧
  (∀ (s : State) (fn : Bool) (b c : Byte) (x y : Half), s.hub.held = false →
    ((s.hub.udev fn).state = 0 ∨ (fn = true ∧ s.hub.fnReached = false)) →
    ∀ r, r ∈ [Instr.getStatus fn b x, .clearFeature fn b x y, .setFeature fn b x y, .setAddress fn x, .getDescriptor fn b c x, .getConfiguration fn,
      .setConfiguration fn b, .getInterface fn x, .setInterface fn x y, .unsupportedRequest fn] → Makes r s s.hub)

/-- The hub-class requests of a configured hub (R392 to R396, R400, R405): `k` is the hub once the SETUP has cleared a protocol STALL,
`i` the port's number from 0. Where it rests on readings or choices of the model's own, they are those of log entries 25 and 40. -/
def Obligations.UsbHubClassRequests : Prop :=
  ∀ (s : State), s.hub.held = false → s.hub.usb.hub.state = 3 →
    let k := s.hub.setUdev false { s.hub.usb.hub with stall := false }
    let stalled := (k.setUdev false { k.usb.hub with stall := true }).stallEp []
    Makes .getHubStatus s (k.ackData [0, 0, 0, 0]) ∧
    (∀ f : Half, Makes (.clearHubFeature f) s (if f.toNat ≤ 1 then k.ackData [] else stalled)) ∧
    (∀ n : Byte, n.toNat = 0 ∨ 8 < n.toNat → Makes (.getPortStatus n) s stalled ∧ Makes (.setPortPower n) s stalled) ∧
    (∀ n : Byte, 1 ≤ n.toNat → n.toNat ≤ 8 →
      let i := n.toNat - 1
      let p := k.uport i
      Makes (.getPortStatus n) s (k.ackData (leBytes 2 p.status ++ leBytes 2 p.change)) ∧
      Makes (.setPortPower n) s ((k.portPower i).ackData []) ∧
      Makes (.setPortReset n) s (Hub.ackData (if p.st = .disabled ∨ p.st = .enabled then
        (let h := k.setUport i { p with st := .resetting, at_ := k.now }
         if i = 7 then h.fnReset else h) else k) []) ∧
      Makes (.setPortSuspend n) s (Hub.ackData (if p.st = .enabled then k.setUport i { p with st := .suspended } else k) []) ∧
      Makes (.clearPortEnable n) s (Hub.ackData (if p.st = .enabled then k.setUport i { p with st := .disabled } else k) []) ∧
      Makes (.clearPortSuspend n) s
        (Hub.ackData (if p.st = .suspended then k.setUport i { p with st := .resuming, at_ := k.now } else k) []) ∧
      (i ≠ 7 → Makes (.clearPortPower n) s (((k.setUport i { change := p.change, oc := p.oc }).portOff i).ackData [])) ∧
      (i = 7 → ∀ t, exec (.clearPortPower n) s = .next t → t.hub.usb.fn = {} ∧ (t.hub.uport 7).st = .poweredOff) ∧
      (i = 7 → ∃ t, exec (.clearPortPower n) s = .next t) ∧
      (∀ b : Fin 5, Gives (.clearPortChange n b) s fun t => Only [.usb, .out] s t ∧ RegsBut [] s t ∧
        (t.hub.uport i).change = p.change - bitB (testBit p.change b) * 2 ^ b.val ∧ (t.hub.uport i).st = p.st ∧
        (∀ j, j ≠ i → t.hub.uport j = s.hub.uport j)) ∧
      (∀ w : Byte, i = 7 ∨ w.toNat = 0 ∨ 5 < w.toNat → Makes (.setPortTest n w) s stalled) ∧
      (∀ w : Byte, i ≠ 7 → 1 ≤ w.toNat → w.toNat ≤ 5 → Makes (.setPortTest n w) s (Hub.ackData
        (if (p.st = .disconnected ∨ p.st = .disabled ∨ p.st = .suspended) ∧ (List.range 8).all (fun j => (k.uport j).st != .enabled) = true
          then k.setUport i { p with st := .testing, test := w.toNat } else k) [])) ∧
      (i ≠ 7 → k.ttOf i = i →
        Makes (.resetTt n) s (Hub.ackData { k with usb := { k.usb with tt := tset [] k.usb.tt i [] } } []) ∧
        ∀ b : Half, Makes (.clearTtBuffer n b) s (Hub.ackData
          { k with usb := { k.usb with tt := tset [] k.usb.tt i ((tget [] k.usb.tt i).filter fun x => x.1 != b.toNat) } } [])) ∧
      (i = 7 ∨ k.ttOf i ≠ i → Makes (.resetTt n) s stalled ∧ ∀ b : Half, Makes (.clearTtBuffer n b) s stalled))

/-- The USB hub's upstream events, its ports and the endpoint services of the function (R390 to R402, R408 to R413). Where it rests on
readings or choices of the model's own, they are those of log entries 3 and 25. -/
def Obligations.UsbEventsPortsAndEndpoints : Prop :=
  (∀ (s : State), s.hub.held = false →
    (s.hub.usb.vbus = false → Makes (.usbVbusChange true) s { s.hub with usb := { s.hub.usb with vbus := true } }) ∧
    (s.hub.usb.vbus = true → Gives (.usbVbusChange false) s fun t => t.hub.usb.vbus = false ∧ t.hub.usb.hub = {} ∧
      t.hub.usb.suspAt = none ∧ t.hub.flag Reg.USB_EVT F.USB_EVT_VBUS_CHANGE = true ∧ t.hub.flag Reg.USB_EVT F.USB_EVT_BUS_RESET = true)) ∧
  (∀ (s : State) (v : Bool), s.hub.held = true → Makes (.usbVbusChange v) s { s.hub with usb := { s.hub.usb with vbus := v } }) ∧
  (∀ (s : State) (high : Bool), s.hub.held = false → s.hub.attached = false → Makes (.usbBusReset high) s s.hub) ∧
  (∀ (s : State) (high : Bool), s.hub.held = false → s.hub.attached = true →
    Makes (.usbBusReset high) s (((s.hub.usbHubReset 1 (if high then 2 else 1)).count Reg.USB_CNT_BUS_RESET).evt
      Reg.USB_EVT F.USB_EVT_BUS_RESET)) ∧
  (∀ (h : Hub) (st v : Nat), (h.usbHubReset st v).usb.hub = { state := st } ∧ (h.usbHubReset st v).usb.speed = v ∧
    (h.usbHubReset st v).usb.ep = [] ∧ (h.usbHubReset st v).usb.tt = [] ∧ (h.usbHubReset st v).usb.suspAt = none ∧
    (h.usbHubReset st v).usb.wakeAt = none ∧ (h.usbHubReset st v).usb.kAt = none ∧ (h.usbHubReset st v).usb.report = 0 ∧
    ∀ i, i < 8 → (h.usbHubReset st v).uport i = { oc := (h.uport i).oc }) ∧
  (∀ (s : State) (w : Word) (e d r : Nat), s.hub.held = false → s.hub.flag Reg.USB_CTL F.USB_CTL_ATTACH = false →
    bits w F.USB_CTL_ATTACH = 1 → s.hub.epCheck = some (e, d, r) →
    Makes (.usbAttach w) s ((s.hub.wr Reg.USB_EP_CHECK (word (e + d * 16 + r * 32))).evt Reg.USB_EVT F.USB_EVT_WRITE_REFUSED)) ∧
  (∀ (s : State) (w : Word), s.hub.held = false → s.hub.flag Reg.USB_CTL F.USB_CTL_ATTACH = false → s.hub.usbEn = true →
    bits w F.USB_CTL_ATTACH = 1 → s.hub.epCheck = none →
    Makes (.usbAttach w) s (s.hub.regWrite Reg.USB_CTL w false fun h => h.evt Reg.USB_EVT F.USB_EVT_WRITE_REFUSED)) ∧
  (∀ (s : State) (w : Word), s.hub.held = false → s.hub.attached = true → s.hub.usbEn = true → bits w F.USB_CTL_ATTACH = 0 →
    Makes (.usbAttach w) s ((s.hub.regWrite Reg.USB_CTL w true Hub.usbRefuse).usbHubReset 0 0)) ∧
  (∀ (s : State), s.hub.held = false → s.hub.attached = true → s.hub.usb.suspAt = none →
    Makes .usbSuspend s (Hub.evt { s.hub with usb := { s.hub.usb with suspAt := some s.hub.now } } Reg.USB_EVT F.USB_EVT_SUSPEND)) ∧
  (∀ (s : State) (t t0 : Nat), s.hub.held = false → s.hub.usb.wakeAt = some t → s.hub.usb.suspAt = some t0 →
    t + tuMs ≤ s.hub.now → t0 + 5 * tuMs ≤ s.hub.now → s.hub.usb.kAt = none →
    Makes .usbWakeWindowEnd s { s.hub with usb := { s.hub.usb with kAt := some s.hub.now, wakeAt := none, wakeFn := false } }) ∧
  (∀ (h : Hub) (t : Nat), h.usb.kAt = some t →
    h.wakeSent = if t + 2 * tuMs ≤ h.now then (h.evt Reg.USB_EVT F.USB_EVT_WAKE_SENT).usbResume else h) ∧
  (∀ (s : State) (t : Nat), s.hub.held = false → s.hub.usb.suspAt = some t → s.hub.usb.kAt = none →
    Makes .usbHostResume s (if s.hub.usb.wakeAt.isSome && s.hub.usb.wakeFn then
      (s.hub.usbResume.count Reg.USB_CNT_WAKE_WITHDRAWN).evt Reg.USB_EVT F.USB_EVT_WAKE_WITHDRAWN else s.hub.usbResume)) ∧
  (∀ (h : Hub), h.usbResume.usb.suspAt = none ∧ h.usbResume.usb.wakeAt = none ∧ h.usbResume.usb.kAt = none ∧
    h.usbResume.flag Reg.USB_EVT F.USB_EVT_RESUME = true ∧ ∀ i, i ∈ h.usb.kPorts → (h.uport i).st = .suspended → (h.usbResume.uport i).st = .resuming) ∧
  (∀ (s : State) (i : Fin 7) (low : Bool), s.hub.held = false → (s.hub.uport i).st = .disconnected →
    Makes (.usbPortConnect i low) s (((s.hub.setUport i { s.hub.uport i with st := .disabled, conn := true, low := low, high := false }).uportChange
      i 0).wakeEvent false)) ∧
  (∀ (s : State) (i : Fin 7), s.hub.held = false →
    ((s.hub.uport i).st = .disabled ∨ (s.hub.uport i).st = .enabled ∨ (s.hub.uport i).st = .suspended ∨ (s.hub.uport i).st = .resuming) →
    Makes (.usbPortDisconnect i) s
      (((s.hub.setUport i { s.hub.uport i with st := .disconnected, conn := false, low := false, high := false }).uportChange i 0).wakeEvent false)) ∧
  (∀ (s : State) (i : Fin 8), s.hub.held = false →
    ((s.hub.uport i).st = .resetting → (s.hub.uport i).at_ + 10 * tuMs ≤ s.hub.now → ∀ chirp, Makes (.usbPortResetEnd i chirp) s
      (let high := s.hub.usb.speed == 2 && (chirp || i.val == 7)
       (s.hub.setUport i { s.hub.uport i with st := .enabled, high := high, low := (s.hub.uport i).low && !high }).uportChange i 4)) ∧
    ((s.hub.uport i).st = .enabled → Makes (.usbPortBabble i) s
      ((s.hub.setUport i { s.hub.uport i with st := .disabled }).uportChange i 1)) ∧
    ((s.hub.uport i).st = .suspended → s.hub.usb.suspAt = none → Makes (.usbPortRemoteK i) s
      (s.hub.setUport i { s.hub.uport i with st := .resuming, at_ := s.hub.now })) ∧
    (s.hub.usb.suspAt.isSome = true → (s.hub.uport i).st = .enabled → Makes (.usbPortRemoteK i) s (s.hub.wakeEvent false)) ∧
    (s.hub.usb.suspAt.isSome = true → (s.hub.uport i).st = .suspended → s.hub.usb.kPorts.contains i.val = false →
      Makes (.usbPortRemoteK i) s (Hub.wakeEvent { s.hub with usb := { s.hub.usb with kPorts := s.hub.usb.kPorts ++ [i.val] } } false)) ∧
    ((s.hub.uport i).st = .resuming → (s.hub.uport i).at_ + 20 * tuMs ≤ s.hub.now → Makes (.usbPortResumeEnd i) s
      ((s.hub.setUport i { s.hub.uport i with st := .enabled }).uportChange i 2))) ∧
  (∀ (s : State) (e : Fin 16) (bs : List Byte),
    let serves := fun (d svc : Nat) => e ≠ 0 ∧ s.hub.usb.fn.state = 3 ∧ s.hub.fnReached = true ∧ s.hub.epOn e d = true ∧
      s.hub.epSvc e d = svc
    let live := fun (d : Nat) => (s.hub.uep (2 * e + d)).halted = false ∧ s.hub.svcUp e d = true
    s.hub.held = false →
    (serves 0 1 → live 0 → bs.length ≤ s.hub.epMps e 0 →
      let q := s.hub.epQueue e 0
      let all := (s.hub.uep (2 * e)).data ++ bs
      let r := Hub.cmdBytes (all.length / 32) s.hub q all
      let short := decide (bs.length < s.hub.epMps e 0)
      let k := if short && !r.2.isEmpty then (r.1.count Reg.USB_CNT_CMD_DISCARDED).evt Reg.USB_EVT F.USB_EVT_CMD_DISCARDED else r.1
      Makes (.usbCmdOut e bs) s (if 16 < s.hub.hqWaiting q + s.hub.epF e 0 F.USB_EP_CFG_MPS / 32 then s.hub.nak else
        ((k.setUep (2 * e) { k.uep (2 * e) with data := if short then [] else r.2 }).flip (2 * e)).ackData [])) ∧
    (serves 1 2 → live 1 →
      let q := s.hub.epQueue e 1
      let r := Hub.rspTake (max 1 (s.hub.epMps e 1 / 32)) s.hub q []
      Makes (.usbRspIn e) s (if s.hub.hqUnread q = 0 then s.hub.nak else (r.1.flip (2 * e + 1)).ackData r.2)) ∧
    (serves 1 3 → live 1 →
      Makes (.usbNotifyIn e) s (if s.hub.notifyDue then
        (Hub.flip { s.hub with usb := { s.hub.usb with notified := s.hub.notifyBits, owes := false } } (2 * e + 1)).ackData (leBytes 8 s.hub.notifyBits)
        else s.hub.notifySample.nak)) ∧
    (serves 0 4 → live 0 → (s.hub.uep (2 * e + 1)).data = [] → pointReqOk bs = false →
      Makes (.usbPointReadReq e bs) s (((s.hub.haltEp e 1).flip (2 * e)).ackData [])) ∧
    (serves 0 4 → live 0 → (s.hub.uep (2 * e + 1)).data = [] → pointReqOk bs = true →
      Makes (.usbPointReadReq e bs) s (((s.hub.setUep (2 * e + 1) { s.hub.uep (2 * e + 1) with
        data := (List.range (beAt bs 4 2)).flatMap fun j =>
          ((s.hub.w2rec (beAt bs 0 1) (beAt bs 2 2 + j)).words).flatMap fun (w : Word) => leBytes 4 w.toNat }).flip (2 * e)).ackData [])) ∧
    (serves 1 4 → live 1 →
      let x := s.hub.uep (2 * e + 1)
      Makes (.usbPointReadIn e) s (if x.data = [] then s.hub.nak else
        ((s.hub.setUep (2 * e + 1) { x with data := x.data.drop (s.hub.epMps e 1) }).flip (2 * e + 1)).ackData (x.data.take (s.hub.epMps e 1)))))

/-- A Net channel's course: what the Net die sees of a channel in a `CLK_NET` cycle waits for the cycle's end, runs on through a cold
reset that the die does not see, and takes effect in the order of R432; presence, window, ramp and gate, trips and board faults (R20,
R419 to R432, R434, R436). Where it rests on readings or choices of the model's own, they are those of log entries 3, 24 and 51. -/
def Obligations.NetChannels : Prop :=
  (∀ (h : Hub) (n cause : Nat), n < 16 →
    let k := h.netTrip n cause
    let most := if h.netOwned n then 0 else h.fld (Reg.NET_N_CFG n) F.NET_N_CFG_RETRY_MAX
    (k.net1 n).st = (if (h.net1 n).retries < most then .retryWait else .latched) ∧ (k.net1 n).pg = false ∧ (k.net1 n).cause = cause ∧
    k.flag (Reg.NET_N_EVT n) F.NET_N_EVT_TRIP = true ∧ ∀ m, m ≠ n → k.net1 m = h.net1 m) ∧
  (∀ (h : Hub) (n cause : Nat), n < 16 →
    let k := h.netBoard n cause
    (k.net1 n).st = .latched ∧ (k.net1 n).board = true ∧ (k.net1 n).pg = false ∧ (k.net1 n).cause = cause ∧
    k.flag (Reg.NET_N_EVT n) F.NET_N_EVT_LATCHED = true ∧ ∀ m, m ≠ n → k.net1 m = h.net1 m) ∧
  (∀ (s : State) (n : Fin 16) (mv us vout ms : Half) (vgs : Byte) (codes : List (BitVec 10)) (r : Instr) (x : NetHap),
    (r, x) ∈ [(Instr.netCardPresent n, NetHap.present), (.netCardAbsent n, .absent), (.netVsWindowChange n mv, .vs mv.toNat),
      (.netInsertDelayEnd n, .insertEnd), (.netRetryWaitEnd n, .retryEnd), (.netRetriesReset n, .retriesReset), (.netRampTimeout n, .rampTmo),
      (.netRampDone n vout, .rampDone vout.toNat), (.netGateRiseDone n vout vgs, .riseDone vout.toNat vgs.toNat),
      (.netPgLoss n vout vgs, .pgLoss vout.toNat vgs.toNat), (.netGriseTimeout n vgs, .grise vgs.toNat),
      (.netGateLowFault n vgs us, .gateLow vgs.toNat us.toNat), (.netDsShort n vout ms, .ds vout.toNat ms.toNat),
      (.netHardShort n mv, .short mv.toNat), (.netSoaTrip n us, .soa us.toNat), (.netCurveTrip n codes, .curve codes)] →
    (s.hub.glb.inCold = true → s.hub.net.hold = false → Makes r s s.hub) ∧
    (s.hub.glb.inCold = false ∨ s.hub.net.hold = true → Makes r s (if s.hub.net.locked then s.hub else
      { s.hub with net := { s.hub.net with inbox := s.hub.net.inbox ++ [(n.val, x)] } }))) ∧
  (∀ (h : Hub), h.net.inbox = [] → h.netSettle = h) ∧
  (∀ (h : Hub) (n : Nat) (x : NetHap), h.net.inbox = [(n, x)] →
    h.netSettle = Hub.netHap { h with net := { h.net with inbox := [] } } n x) ∧
  (∀ (h : Hub) (n mv vout ms : Nat), h.net.inbox = [(n, .short mv), (n, .ds vout ms)] → h.netSettle =
    Hub.netHap (Hub.netHap { h with net := { h.net with inbox := [] } } n (.ds vout ms)) n (.short mv)) ∧
  (∀ (h : Hub) (n mv : Nat), n < 16 → h.net.inbox = [(n, .cmdOff), (n, .short mv)] → (h.net1 n).st = .on →
    h.fld (Reg.NET_N_CFG n) F.NET_N_CFG_SHORT_MV ≤ mv → (h.netSettle.net1 n).st = .off ∧ (h.netSettle.net1 n).cause = 4) ∧
  (∀ (h : Hub) (n : Nat),
    let x := h.net1 n
    (h.netCfg n F.NET_N_CFG_PRES_EN = true → x.present = false →
      let k := (h.setNet n { x with present := true }).netEvt n F.NET_N_EVT_PRES_CHANGE
      h.netHap n .present = (if x.st = .removed then (k.count (Reg.NET_N_CNT_INSERT n)).netWait n false else k)) ∧
    (h.netCfg n F.NET_N_CFG_PRES_EN = true → x.present = true →
      x.st ≠ .off → x.st ≠ .removed → ¬ (x.st = .latched ∧ x.board = true) →
      let k := (h.netHap n .absent).net1 n
      k.st = .removed ∧ k.present = false ∧ k.pg = false ∧ k.retries = 0)) ∧
  (∀ (h : Hub) (n : Nat) (mv : Nat),
    let k := h.setNet n { h.net1 n with vs := mv }
    ((h.net1 n).st.driven = true → mv ≤ h.netUv n →
      h.netHap n (.vs mv) = ((k.netDown n 7).netWait n false)) ∧
    ((h.net1 n).st.driven = true → h.netUv n < mv → h.netOv n ≤ mv →
      h.netHap n (.vs mv) = (k.netTrip n 6)) ∧
    ((h.net1 n).st = .waitWindow → h.netUv n < mv → mv < h.netOv n →
      h.netHap n (.vs mv) = (if (h.net1 n).again then k.netRamp n else k.netTo n .insertDelay))) ∧
  (∀ (h : Hub) (n : Nat),
    let x := h.net1 n
    (x.st = .insertDelay → x.at_ + h.netMs (Reg.NET_N_TIME n) F.NET_N_TIME_INSERT_MS ≤ h.now →
      h.netHap n .insertEnd = (h.netRamp n)) ∧
    (x.st = .retryWait → x.at_ + h.netMs (Reg.NET_N_RETRY n) F.NET_N_RETRY_RETRY_MS ≤ h.now →
      h.netHap n .retryEnd = ((h.setNet n { x with retries := x.retries + 1 }).netWait n true)) ∧
    (x.st = .on → x.pg = true → x.pgAt + h.netDur (10 * tuS) ≤ h.now →
      h.netHap n .retriesReset = (h.setNet n { x with retries := 0 })) ∧
    ((x.st = .ramp ∨ x.st = .gateRise) → x.rampAt + h.netMs (Reg.NET_N_TIME n) F.NET_N_TIME_RAMP_TMO_MS ≤ h.now →
      h.netHap n .rampTmo = (if h.netGriseDue n then h.netBoard n 8 else h.netTrip n 3))) ∧
  (∀ (h : Hub) (n : Nat) (vout vgs : Nat),
    let x := h.net1 n
    let k := h.setNet n { x with vout := vout, vgs := vgs }
    (x.st = .ramp → x.vs ≤ vout + 500 →
      (h.netHap n (.rampDone vout)).net1 n = { x with vout := vout, st := .gateRise, at_ := h.now, riseAt := h.now, counts := [] }) ∧
    (x.st = .gateRise → x.vs ≤ vout + 500 → 80 ≤ vgs →
      let y := (h.netHap n (.riseDone vout vgs)).net1 n
      y.st = .on ∧ y.pg = true ∧ y.pgAt = h.now) ∧
    (x.st = .on → vout + 500 < x.vs ∨ (h.inPulse n = false ∧ vgs < 80) → h.netHap n (.pgLoss vout vgs) = (k.pgDown n)) ∧
    (x.st = .gateRise → x.riseAt + h.netGrise n ≤ h.now → vgs < 40 →
      h.netHap n (.grise vgs) = ((h.setNet n { x with vgs := vgs }).netBoard n 8)) ∧
    (∀ us : Nat, x.st = .on → vgs < 40 → 100 ≤ us →
      h.netHap n (.gateLow vgs us) = ((h.setNet n { x with vgs := vgs }).netBoard n 8)) ∧
    (∀ ms : Nat, x.st ≠ .off → x.st.driven = false → h.netInWindow n = true → x.vs ≤ 2 * vout →
      h.fld (Reg.NET_N_GATE n) F.NET_N_GATE_DS_MS ≤ ms → ¬ (x.st = .latched ∧ x.board = true) →
      h.netHap n (.ds vout ms) = ((h.setNet n { x with vout := vout }).netBoard n 9))) ∧
  (∀ (h : Hub) (n : Nat) (v : Nat),
    let x := h.net1 n
    (x.st.driven = true → h.netHap n (.short v) = (if h.fld (Reg.NET_N_CFG n) F.NET_N_CFG_SHORT_MV ≤ v then
      (h.count (Reg.NET_N_CNT_SHORT n)).netTrip n (if x.st = .ramp then 1 else 4) else h)) ∧
    (x.st = .ramp → h.netHap n (.soa v) =
      (let k := h.setNet n { x with soa := x.soa + v }
       if h.fld (Reg.NET_N_RETRY n) F.NET_N_RETRY_SOA * 10 ≤ x.soa + v then k.netTrip n 2 else k))) ∧
  (∀ (h : Hub) (n : Nat) (code : BitVec 10),
    let x := h.net1 n
    let uohm := h.fld (Reg.NET_N_ILIM n) F.NET_N_ILIM_SHUNT_UOHM
    let k := h.wr (Reg.NET_N_I_MA n) (word (code.toNat * 100000000 / (1024 * max 1 uohm)))
    let counts := (List.range 8).map fun p =>
      if h.curveOn n p = true ∧ h.fld (Reg.NET_N_CURVE n p) F.NET_N_CURVE_LEVEL < code.toNat then x.counts.getD p 0 + 1 else 0
    x.st = .gateRise ∨ x.st = .on → h.inPulse n = false →
    (∀ p, ((List.range 8).find? fun p => h.curveOn n p && decide (h.curveTime n p < counts.getD p 0)) = some p →
      h.netHap n (.curve [code]) =
        (((k.setNet n { x with counts := counts, point := p }).count (Reg.NET_N_CNT_CURVE n)).netTrip n 5)) ∧
    (((List.range 8).find? fun p => h.curveOn n p && decide (h.curveTime n p < counts.getD p 0)) = none →
      h.netHap n (.curve [code]) = (k.setNet n { x with counts := counts })))

/-- The Net commands on a mask of channels, the die's link, clock and supply, and the gate test (R433, R434, R436, R437, R530). Where
it rests on readings or choices of the model's own, they are those of log entries 24 and 51. -/
def Obligations.NetCommandsAndDie : Prop :=
  (∀ (s : State) (src : CmdSrc) (tag : Byte) (mask : Word) (r : Instr) (op : Nat) (x : NetHap),
    (r, op, x) ∈ [(Instr.netOn src tag mask, 0x0B01, NetHap.cmdOn), (.netOff src tag mask, 0x0B02, .cmdOff),
      (.netClear src tag mask, 0x0B03, .cmdClear)] →
    let c := mkCmd src op tag [mask]
    let m := mask.toNat
    Accepts s c → m < 65536 → (∀ n, n < 16 → testBit m n = true →
      (x = .cmdOn → s.hub.netSettingsOk n = true ∧ (s.hub.netSeen n).canOn = true ∧ s.hub.netOwned n = false) ∧
      (x = .cmdOff → (s.hub.netSeen n).st.stopped = false ∧ s.hub.netOwned n = false) ∧
      (x = .cmdClear → (s.hub.netSeen n).st = .latched)) →
    let inbox := s.hub.net.inbox ++ (if s.hub.net.locked then [] else (maskBits m).map fun n => (n, x))
    Gives r s fun t => Answered c sOK [] s t ∧ CmdOnly [.net] [] c s t ∧
      t.hub.net = { s.hub.net with linkOk := true, silent := false, inbox := inbox }) ∧
  (∀ (h : Hub) (n : Nat), (∀ x, x ∈ h.net.inbox → x.1 ≠ n) → h.netSeen n = h.net1 n) ∧
  (∀ (h : Hub) (n : Nat),
    let x := h.net1 n
    let k := h.setNet n { x with retries := 0, cause := 0 }
    (x.canOn = true → h.netHap n .cmdOn =
      (if h.netCfg n F.NET_N_CFG_PRES_EN = true ∧ x.present = false then k.netTo n .removed else k.netWait n false)) ∧
    (x.canOn = false → h.netHap n .cmdOn = h) ∧
    (x.st.stopped = false → ((h.netHap n .cmdOff).net1 n).st = .off ∧ ((h.netHap n .cmdOff).net1 n).pg = false) ∧
    (x.st = .latched → x.board = false → ((h.netHap n .cmdOff).net1 n).st = .off) ∧
    (x.st = .latched → ((h.netHap n .cmdClear).net1 n).st = .off ∧ ((h.netHap n .cmdClear).net1 n).board = false) ∧
    ∀ m y, m ≠ n → y ∈ [NetHap.cmdOn, .cmdOff, .cmdClear] → (h.netHap n y).net1 m = h.net1 m) ∧
  (∀ (s : State), s.hub.glb.inCold = false ∨ s.hub.net.hold = true →
    Makes .netLinkSilent s (Hub.evt { s.hub with net := { s.hub.net with linkOk := false, silent := true } }
      Reg.NET_EVT F.NET_EVT_LINK_LOST) ∧
    Makes .netClockStop s (Hub.evt { s.hub with net := { s.hub.net with osc := true } } Reg.NET_EVT F.NET_EVT_OSC_FALLBACK) ∧
    Makes .netClockRestored s { s.hub with net := { s.hub.net with osc := false } }) ∧
  (∀ (s : State) (mv : Half), mv.toNat < 4000 →
    Gives (.netVinLockout mv) s fun t => t.hub.net.locked = true ∧ t.hub.net.vin = mv.toNat ∧ t.hub.net.ch = [] ∧ t.hub.net.inbox = [] ∧ t.hub.net.hold = false ∧
      ∀ a, 0x68000 ≤ a → a < 0x6C000 → t.hub.rd a = resetWord a) ∧
  (∀ (s : State) (mv : Half), 4000 ≤ mv.toNat →
    Makes (.netVinLockout mv) s { s.hub with net := { s.hub.net with vin := mv.toNat } }) ∧
  (∀ (s : State) (mv : Half),
    Makes (.netVinRestored mv) s (if 4300 ≤ mv.toNat
      then { s.hub with net := { s.hub.net with locked := false, vin := mv.toNat, linkOk := true, silent := false } }
      else { s.hub with net := { s.hub.net with vin := mv.toNat } })) ∧
  (∀ (s : State) (src : CmdSrc) (tag : Byte) (nw w : Word),
    let c := mkCmd src 0x0C03 tag [nw, w]
    let n := nw.toNat
    Accepts s c → n < 16 → w.toNat ≠ 0 → w.toNat ≤ 100 → (s.hub.netSeen n).st = .on → s.hub.host.maint = .idle →
    Gives (.maintNetGateTest src tag nw w) s fun t => InProgress c s t ∧ CmdOnly [.host] [] c s t ∧
      t.hub.host = { s.hub.host with maint := .gate n w.toNat s.hub.now c.ref }) ∧
  (∀ (s : State) (fall rise : Half) (n w t0 : Nat) (ref : CmdRef),
    let off := decide (100 < fall.toNat)
    let on := decide (s.hub.fld (Reg.NET_N_GATE n) F.NET_N_GATE_GRISE * 100 < rise.toNat)
    let k := (s.hub.wr (Reg.NET_N_TEST n) (word (1 + bitB (!off && !on) * 2 + bitB off * 4 + bitB on * 8 + min 255 fall.toNat * 256 +
      min 65535 rise.toNat * 65536))).netEvt n F.NET_N_EVT_TEST_DONE
    s.hub.held = false → s.hub.host.maint = .gate n w t0 ref → t0 + w * tuUs ≤ s.hub.now →
    Makes (.netGateTestResult fall rise) s (Hub.answer (Hub.maintEnd
      (if off || on then k.netIn n .testFault else k)) ref sOK [])) ∧
  (∀ (h : Hub) (n : Nat), (h.net1 n).st = .on → h.netHap n .testFault = h.netBoard n 8)

/-- The PCIe link, its reset and its vectors, and frame DMA on `P4` (R248, R268, R440, R442, R459 to R462, R504). Where it rests on
readings or choices of the model's own, they are those of log entries 6, 12 and 13. -/
def Obligations.PcieAndFrameDma : Prop :=
  (∀ (s : State),
    Makes (.pciePerst true) s { s.hub with
      regs := s.hub.regs.filter fun x => !msixPage x.1,
      host := { s.hub.host with perst := true, pcieUp := false, pcieGen := 0, pcieWidth := 0 } } ∧
    Makes (.pciePerst false) s { s.hub with host := { s.hub.host with perst := false } } ∧
    Gives (.pciePerst true) s fun t => ∀ v, v < 32 → t.hub.msixMasked v = true) ∧
  (∀ (s : State) (gen2 x2 : Bool), s.hub.held = false → s.hub.pathOn .pcie = true → s.hub.host.perst = false →
    s.hub.flag Reg.GLB_BOOT F.GLB_BOOT_IDENT_BAD = false →
    Makes (.pcieLinkUp gen2 x2) s { s.hub with
      host := { s.hub.host with pcieUp := true, pcieGen := if gen2 then 2 else 1, pcieWidth := if x2 then 2 else 1 } }) ∧
  (∀ (s : State) (gen2 x2 : Bool), s.hub.held = false →
    (s.hub.pathOn .pcie = false ∨ s.hub.host.perst = true ∨ s.hub.flag Reg.GLB_BOOT F.GLB_BOOT_IDENT_BAD = true) →
    Makes (.pcieLinkUp gen2 x2) s s.hub) ∧
  (∀ (s : State) (v : Fin 32), s.hub.held = false → s.hub.pathOpen .pcie = true →
    Gives (.msixVectorUnmask v) s fun t => t.hub.msixMasked v = false ∧ RegsBut [Reg.MSIX_TABLE (4 * v + 3)] s t ∧
      (s.hub.msixMasked v = true → s.hub.host.pcieUp = true → testBit s.hub.vectors v = true →
        t.hub.out.getLast? = some (.msix v.val)) ∧
      (s.hub.msixMasked v = false → Only [.regs] s t)) ∧
  (∀ (s : State) (p : HostPath) (w : Word), s.hub.held = false → s.hub.pathOpen p = true →
    let tn := 2 ^ max 4 (min 12 (s.hub.fld Reg.DMA_TX_SIZE F.DMA_TX_SIZE_TX_SIZE_LOG2))
    let rn := 2 ^ max 4 (min 12 (s.hub.fld Reg.DMA_RX_SIZE F.DMA_TX_SIZE_TX_SIZE_LOG2))
    let t := bits w F.DMA_TX_TAIL
    Makes (.dmaTxTailWrite p w) s (if (t % tn + 1) % tn = s.hub.fld Reg.DMA_TX_HEAD F.DMA_TX_HEAD % tn
      then s.hub.evt Reg.HOST_EVT F.HOST_EVT_CREDIT_OVERRUN else s.hub.setFld Reg.DMA_TX_TAIL F.DMA_TX_TAIL (t % tn)) ∧
    Makes (.dmaRxTailWrite p w) s (if (t % rn + 1) % rn = s.hub.fld Reg.DMA_RX_HEAD F.DMA_TX_HEAD % rn
      then s.hub.evt Reg.HOST_EVT F.HOST_EVT_CREDIT_OVERRUN else s.hub.setFld Reg.DMA_RX_TAIL F.DMA_TX_TAIL (t % rn))) ∧
  (∀ (s : State) (w2 w3 w4 : Word) (buf : List Byte),
    let len := bits w2 (0, 11)
    let q := bits w2 (16, 8)
    let lt := if bits w2 (24, 1) = 1 then some (w3.toNat + bits w4 (0, 8) * 2 ^ 32) else none
    let bs := padTo 60 (padTo len (buf.take len))
    let n := s.hub.enterOwn 4 { bytes := bs, own := s.hub.isNrp bs, launch := lt, cls := s.hub.tqClass q } q none false
    let ready := s.hub.dmaReady F.DMA_CTL_TX_EN Reg.DMA_TX_TAIL Reg.DMA_TX_HEAD
    s.hub.held = false →
    (ready = false ∨ s.hub.host.dma.isSome = true → Makes (.dmaTxDescriptor w2 w3 w4 buf) s s.hub) ∧
    (ready = true → s.hub.host.dma = none →
      (len < 60 ∨ 2044 < len → Makes (.dmaTxDescriptor w2 w3 w4 buf) s (s.hub.dmaTxDone 2)) ∧
      (60 ≤ len → len ≤ 2044 →
        Makes (.dmaTxDescriptor w2 w3 w4 buf) s { n.1 with host := { n.1.host with dma := some (q, n.2) } }))) ∧
  (∀ (h : Hub) (n p : Nat) (x : OwnIn), (h.swc.own.find? fun y => y.port == p) = some x →
    (h.now ≤ x.at_ ∨ h.freeCells < cellsFor x.frame.bytes → Hub.ownPort (n + 1) p h = h) ∧
    (x.at_ < h.now → cellsFor x.frame.bytes ≤ h.freeCells →
      Hub.ownPort (n + 1) p h = Hub.ownPort n p (Hub.ownIn { h with swc := { h.swc with own := h.swc.own.erase x } } x))) ∧
  (∀ (h : Hub) (x : OwnIn),
    let l := frameLen x.frame.bytes
    let r := h.policeBy (h.defPol x.port) l
    h.ownIn x = if r.1 then (r.2.bufferAs x.id x.frame l).place x.queue x.id x.frame.need x.lossy else r.2.departed x.frame) ∧
  (∀ (h : Hub) (q id : Nat), h.host.dma = some (q, id) →
    h.dmaSettle = if (h.swc.own.any fun x => x.id == id) || (h.tq q).waiting.contains id then h
      else Hub.dmaTxDone { h with host := { h.host with dma := none } } (if (h.tq q).holds id then 0 else 1)) ∧
  (∀ (h : Hub) (d : Nat),
    let k := h.dmaTxDone d
    let i := h.fld Reg.DMA_TX_HEAD F.DMA_TX_HEAD
    let a := ((h.rd Reg.DMA_TX_BASE_HI).toNat * 2 ^ 32 + (h.rd Reg.DMA_TX_BASE_LO).toNat + 32 * i) % 2 ^ 64 + 20
    k.out = h.out ++ [.dma a (leBytes 4 d)] ∧
    k.fld Reg.DMA_TX_HEAD F.DMA_TX_HEAD = (i + 1) % 2 ^ max 4 (min 12 (h.fld Reg.DMA_TX_SIZE F.DMA_TX_SIZE_TX_SIZE_LOG2)) ∧
    k.flag Reg.HOST_EVT F.HOST_EVT_DMA_TX_DONE = true ∧ (d ≠ 0 → k.flag Reg.HOST_EVT F.HOST_EVT_DMA_ERR = true) ∧
    (if d = 0 then k.rd Reg.HOST_CNT_DMA_TX = word (min 0xFFFFFFFF ((h.rd Reg.HOST_CNT_DMA_TX).toNat + 1))
     else k.rd Reg.HOST_CNT_DMA_DROP = word (min 0xFFFFFFFF ((h.rd Reg.HOST_CNT_DMA_DROP).toNat + 1)))) ∧
  (∀ (s : State) (addr : Dword) (q id : Nat) (second : Bool) (t : Nat),
    let k := s.hub.endTx 4
    let f := k.frame id
    let bs := k.copyBytes 4 q (k.finishDraft f (k.launchDelta 4 q f))
    let m := k.sendCopy 4 q id second
    let ns := t / 65536 % 2 ^ 40
    let w2 := word (bs.length + q * 2 ^ 16 + f.inPort * 2 ^ 24 + 2 ^ 31)
    let a := m.dmaAddr Reg.DMA_RX_BASE_LO Reg.DMA_RX_BASE_HI (m.fld Reg.DMA_RX_HEAD F.DMA_RX_HEAD_DMA_TX_HEAD)
    s.hub.held = false → k.dmaReady F.DMA_CTL_RX_EN Reg.DMA_RX_TAIL Reg.DMA_RX_HEAD = true → k.portFree 4 = true →
    k.normalHead 4 = some (q, id, second) → f.stamps[m.fld Reg.DMA_CTL F.DMA_CTL_TS_TB]? = some t →
    Makes (.dmaRxFrame addr) s
      ((((m.emit (.dma addr.toNat bs)).emit (.dma (a + 8) ([w2, word ns, word (ns / 2 ^ 32)].flatMap fun w => leBytes 4 w.toNat))
        |>.dmaNext Reg.DMA_RX_SIZE Reg.DMA_RX_HEAD).evt Reg.HOST_EVT F.HOST_EVT_DMA_RX).count Reg.HOST_CNT_DMA_RX)) ∧
  (∀ (s : State) (addr : Dword),
    let k := s.hub.endTx 4
    s.hub.held = false → k.dmaReady F.DMA_CTL_RX_EN Reg.DMA_RX_TAIL Reg.DMA_RX_HEAD = false ∨ k.portFree 4 = false ∨ k.normalHead 4 = none →
    Makes (.dmaRxFrame addr) s k)

/-- The resets, what they keep, and how they boot (R333, R434, R471 to R474, R481, R482, R484, R487). Where it rests on readings or
choices of the model's own, they are those of log entry 16. -/
def Obligations.ResetsAndBoot : Prop :=
  (∀ (s : State) (i : Instr) (cause : Nat), (i, cause) = (.powerFail, 0) ∨ (i, cause) = (.rstNLow, 1) →
    Gives i s fun t => t.pending = s.pending ∧ t.nv = s.nv ∧ t.hub.now = s.hub.now ∧ t.hub.held = true ∧
      (∀ a, 0x8000 ≤ a → netPage a = false → (a < 0x46000 ∨ 0x46200 ≤ a) → t.hub.rd a = resetWord a) ∧
      (s.hub.net.hold = true → t.hub.net = s.hub.net ∧ ∀ a, netPage a = true → t.hub.rd a = s.hub.rd a) ∧
      (s.hub.net.hold = false → t.hub.net.ch = [] ∧ ∀ a, netPage a = true → t.hub.rd a = resetWord a) ∧
      (s.hub.glb.inCold = false → t.hub.fld Reg.GLB_RESET_CAUSE F.GLB_RESET_CAUSE_CAUSE = cause ∧
        t.hub.fld Reg.GLB_RESET_CAUSE F.GLB_RESET_CAUSE_WARM = 0) ∧
      t.hub.tim = {} ∧ t.hub.twin = {} ∧ t.hub.ring = {} ∧ t.hub.swc = {} ∧ t.hub.tm = {} ∧ t.hub.pt = {} ∧ t.hub.car = {} ∧
      t.hub.fret = {} ∧ t.hub.can = {} ∧ t.hub.chk = {}) ∧
  (∀ (s : State) (straps : Half), s.hub.glb.inCold = true →
    let g : Hub := { s.hub with glb := { s.hub.glb with inCold := false, pllLock := true, refOk := true } }
    let k := g.wr Reg.GLB_STRAPS (word straps.toNat)
    Makes (.coldResetEnd straps) s
      (Hub.boot { k with net := { k.net with hold := testBit straps.toNat 13, linkOk := !k.net.silent && !k.net.locked } } s.nv)) ∧
  (∀ (s : State) (straps : Half), s.hub.glb.inCold = false → Makes (.coldResetEnd straps) s s.hub) ∧
  (∀ (s : State) (c : Nat), s.hub.held = false → [8, 7, 6, 3, 5].find? s.hub.glb.sources.contains = some c →
    Makes .warmReset s ((s.hub.startWarm c).boot s.nv)) ∧
  (∀ (s : State), s.hub.held = false →
    Makes .watchdogExpiry s { s.hub with glb := { s.hub.glb with sources := 6 :: s.hub.glb.sources } }) ∧
  (∀ (h : Hub) (c : Nat), c < 16 →
    let k := h.startWarm c
    k.now = h.now ∧ k.net = h.net ∧ k.fld Reg.GLB_RESET_CAUSE F.GLB_RESET_CAUSE_CAUSE = c ∧
    k.fld Reg.GLB_RESET_CAUSE F.GLB_RESET_CAUSE_WARM = 1 ∧
    k.rd Reg.GLB_CNT_WARM = word (min 0xFFFFFFFF ((h.rd Reg.GLB_CNT_WARM).toNat + 1)) ∧
    k.rd Reg.GLB_STRAPS = h.rd Reg.GLB_STRAPS ∧ (∀ a, netPage a = true ∨ timeKept a = true → k.rd a = h.rd a) ∧
    (∀ b, b < 4 → (k.tb b).ns = (h.tb b).ns ∧ ((k.tb b).servo = .unset ↔ (h.tb b).servo = .unset)) ∧
    (∀ a, 0x10000 ≤ a → netPage a = false → (a < 0x46000 ∨ 0x46200 ≤ a) → k.rd a = resetWord a) ∧
    k.ring = {} ∧ k.swc = {} ∧ k.tm = {} ∧ k.pt = {} ∧ k.car = {} ∧ k.fret = {} ∧ k.can = {}) ∧
  (∀ (s : State), s.hub.glb.pllHold = true →
    Makes .pllRelockEnd s (Hub.boot { s.hub with glb := { s.hub.glb with pllHold := false, pllLock := true } } s.nv)) ∧
  (∀ (h : Hub) (nv : NonVol), (trySlots nv (h.fld Reg.GLB_ID F.GLB_ID_STEPPING) (h.bootOrder nv).1).2 = none →
    (h.bootSlots nv).flag Reg.GLB_BOOT F.GLB_BOOT_RECOVERY = true ∧ (h.bootSlots nv).ready = true ∧ (h.bootSlots nv).hostOpen = false) ∧
  (∀ (h : Hub) (nv : NonVol),
    let got := (h.bootOrder nv).1.find? fun x => decide (slotResult nv (h.fld Reg.GLB_ID F.GLB_ID_STEPPING) x = 0)
    let k := h.bootSlots nv
    (trySlots nv (h.fld Reg.GLB_ID F.GLB_ID_STEPPING) (h.bootOrder nv).1).2 = got ∧ k.glb.booted = got.or h.glb.booted ∧
    k.twin.image = (got.map (slotCrc nv)).getD h.twin.image ∧
    k.fld Reg.GLB_BOOT F.GLB_BOOT_BOOT_SLOT = got.getD (h.fld Reg.GLB_BOOT F.GLB_BOOT_BOOT_SLOT) ∧
    k.glb.script = got.map fun x => { secs := slotScripts nv x, off := 0, rec_ := 0, wait := none, cmdAt := none }) ∧
  (∀ (s : State), s.hub.held = false → s.hub.ready = true → s.hub.glb.readyAt + 10 * tuS ≤ s.hub.now →
    Gives .wdRunClear s fun t => Only [.regs] s t ∧ RegsBut [Reg.GLB_RESET_CAUSE] s t ∧
      t.hub.fld Reg.GLB_RESET_CAUSE F.GLB_RESET_CAUSE_WD_RUN = 0 ∧
      t.hub.fld Reg.GLB_RESET_CAUSE F.GLB_RESET_CAUSE_CAUSE = s.hub.fld Reg.GLB_RESET_CAUSE F.GLB_RESET_CAUSE_CAUSE)

/-- The watch over the reference clock and its return (R468 to R470). Where it rests on readings or choices of the model's own, they
are those of log entries 3 and 16. -/
def Obligations.ReferenceClockWatch : Prop :=
  (∀ (s : State) (edges : Bool) (ppm : Half), s.hub.glb.inCold = false →
    let locked := s.hub.rxLocked 0 || s.hub.rxLocked 1
    let lost := edges = false ∨ (locked = true ∧ s.hub.fld Reg.GLB_CLK_CTL F.GLB_CLK_CTL_REF_TOL_PPM < ppm.toNat)
    (lost → Makes (.refclkLost edges ppm) s { s.hub with glb := { s.hub.glb with refOk := false } }) ∧
    (¬ lost → Makes (.refclkLost edges ppm) s s.hub)) ∧
  (∀ (h : Hub), let k := h.clkWatch
    let src := if h.rxLocked 0 then 1 else if h.rxLocked 1 then 2 else 3
    k.now = h.now ∧
    (h.glb.src = 0 → h.glb.refOk = true → k = h) ∧
    (h.glb.src = 0 → h.glb.refOk = false → k.glb = { h.glb with src := src } ∧
      k.flag Reg.GLB_EVT F.GLB_EVT_REF_LOST = true ∧ (src = 3 → k.flag Reg.GLB_EVT F.GLB_EVT_HOLDOVER = true) ∧
      k.rd Reg.GLB_CNT_REF_LOST = word (min 0xFFFFFFFF ((h.rd Reg.GLB_CNT_REF_LOST).toNat + 1))) ∧
    (h.glb.src = 1 → h.rxLocked 0 = true → k = h) ∧ (h.glb.src = 2 → h.rxLocked 1 = true → k = h) ∧
    ((h.glb.src = 1 ∧ h.rxLocked 0 = false) ∨ (h.glb.src = 2 ∧ h.rxLocked 1 = false) ∨ h.glb.src = 3 →
      k.glb = { h.glb with src := src }) ∧
    ((h.glb.src = 1 ∨ h.glb.src = 2) → src = 3 → k.flag Reg.GLB_EVT F.GLB_EVT_HOLDOVER = true)) ∧
  (∀ (s : State) (ms : Word), s.hub.glb.inCold = false →
    let k : Hub := { s.hub with glb := { s.hub.glb with refOk := true } }
    let due := s.hub.fld Reg.GLB_CLK_CTL F.GLB_CLK_CTL_RETURN_S * 1000
    Makes (.refclkReturn ms) s (if s.hub.glb.src ≠ 0 ∧ s.hub.flag Reg.GLB_CLK_CTL F.GLB_CLK_CTL_AUTO_RETURN = true ∧ due ≤ ms.toNat
      then Hub.evt { k with glb := { k.glb with src := 0 } } Reg.GLB_EVT F.GLB_EVT_REF_RESTORED else k)) ∧
  (∀ (s : State) (w : Word), s.hub.held = false → bits w F.GLB_CLK_CTL_RETURN_NOW = 1 →
    Gives (.returnNow w) s fun t => Only [.regs, .glb] s t ∧ RegsBut [Reg.GLB_CLK_CTL, Reg.GLB_EVT] s t ∧
      t.hub.fld Reg.GLB_CLK_CTL F.GLB_CLK_CTL_AUTO_RETURN = bits w F.GLB_CLK_CTL_AUTO_RETURN ∧
      (s.hub.glb.refOk = false ∨ bits w F.GLB_CLK_CTL_AUTO_RETURN = 1 →
        t.hub.glb = s.hub.glb ∧ t.hub.flag Reg.GLB_EVT F.GLB_EVT_WRITE_REFUSED = true) ∧
      (s.hub.glb.refOk = true → bits w F.GLB_CLK_CTL_AUTO_RETURN = 0 → t.hub.glb = { s.hub.glb with src := 0 } ∧
        (s.hub.glb.src ≠ 0 → t.hub.flag Reg.GLB_EVT F.GLB_EVT_REF_RESTORED = true)))

/-- The setup scripts of the booted image: what a record says, its effect, and a record that fails (R480, R484 to R486, R435). `x` is
the script, `a` and `len` the flash address and length of its present section. Where it rests on readings or choices of the model's
own, they are those of log entry 15. -/
def Obligations.SetupScripts : Prop :=
  (∀ (nv : NonVol) (a len off : Nat),
    let w := beNat (nv.bytes (a + off) 4)
    let n := w % 2 ^ 24
    let addr := beNat (nv.bytes (a + off + 4) 4)
    off + 4 ≤ len →
    (w / 2 ^ 24 = 1 → 1 ≤ n → n ≤ 65535 → off + 8 + 4 * n ≤ len → addr % 4 = 0 → addr + 4 * n ≤ 2 ^ 20 →
      scriptRec nv a len off = (.write addr ((List.range n).map fun i => word (beNat (nv.bytes (a + off + 8 + 4 * i) 4))), 8 + 4 * n)) ∧
    (w / 2 ^ 24 = 2 → n = 8 → off + 36 ≤ len → scriptRec nv a len off =
      (.command ((List.range 8).map fun i => word (beNat (nv.bytes (a + off + 4 + 4 * i) 4))), 36)) ∧
    (w / 2 ^ 24 = 3 → scriptRec nv a len off = (.wait n, 4)) ∧
    (w / 2 ^ 24 = 4 → scriptRec nv a len off = (.end_, 4)) ∧
    (w / 2 ^ 24 = 0 ∨ 4 < w / 2 ^ 24 → (scriptRec nv a len off).1 = .bad)) ∧
  (∀ (s : State) (x : Script) (i a len : Nat) (rest : List (Nat × Nat × Nat)),
    let next := fun (h : Hub) n => h.setGlb { h.glb with
      script := some { x with off := x.off + n, rec_ := x.rec_ + 1, wait := none, cmdAt := none }, scriptAns := none }
    s.hub.held = false → s.hub.glb.script = some x → x.secs = (i, a, len) :: rest →
    (∀ addr ws n, scriptRec s.nv a len x.off = (.write addr ws, n) → Makes .scriptWrite s (next (s.hub.scriptPuts addr ws) n)) ∧
    (∀ us n, scriptRec s.nv a len x.off = (.wait us, n) →
      let t := x.wait.getD (s.hub.now + us * tuUs)
      Makes .scriptWait s (if t ≤ s.hub.now then next s.hub n
        else s.hub.setGlb { s.hub.glb with script := some { x with wait := some t } })) ∧
    (∀ n, scriptRec s.nv a len x.off = (.end_, n) →
      (rest ≠ [] → Makes .scriptEnd s
        (s.hub.setGlb { s.hub.glb with script := some { secs := rest, off := 0, rec_ := 0, wait := none, cmdAt := none } })) ∧
      (rest = [] → s.hub.ready = false → Gives .scriptEnd s fun t => Only [.regs, .glb] s t ∧ RegsBut [Reg.GLB_BOOT] s t ∧
        t.hub.ready = true ∧ t.hub.glb = { s.hub.glb with script := none, readyAt := s.hub.now })) ∧
    (∀ ws n, scriptRec s.nv a len x.off = (.command ws, n) → x.cmdAt = none →
      let k := Hub.doCmd (s.hub.setGlb { s.hub.glb with scriptAns := none })
        (Hub.scriptCmd (s.hub.setGlb { s.hub.glb with scriptAns := none }) ws)
      Makes .scriptCommand s (match k.glb.scriptAns with
        | some st => k.scriptAnswered s.nv x ws n st
        | none => k.setGlb { k.glb with script := some { x with cmdAt := some s.hub.now } })) ∧
    (∀ ws n t, scriptRec s.nv a len x.off = (.command ws, n) → x.cmdAt = some t → s.hub.glb.scriptAns = none →
      Makes .scriptCommand s (if t + 100 * tuMs ≤ s.hub.now then next (s.hub.scriptLeave ws) n else s.hub)) ∧
    (∀ ws n t st, scriptRec s.nv a len x.off = (.command ws, n) → x.cmdAt = some t → s.hub.glb.scriptAns = some st →
      Makes .scriptCommand s (s.hub.scriptAnswered s.nv x ws n st)) ∧
    (∀ n (c : Instr), scriptRec s.nv a len x.off = (.bad, n) → s.hub.ready = false →
      c ∈ [.scriptWrite, .scriptCommand, .scriptWait, .scriptEnd] →
      Gives c s fun t => Only [.regs, .glb] s t ∧ RegsBut [Reg.GLB_BOOT, Reg.GLB_SCRIPT_ERR, Reg.GLB_EVT] s t ∧ t.hub.ready = true ∧
        t.hub.flag Reg.GLB_BOOT F.GLB_BOOT_SCRIPT_FAIL = true ∧ t.hub.flag Reg.GLB_EVT F.GLB_EVT_SCRIPT_FAIL = true ∧
        t.hub.rd Reg.GLB_SCRIPT_ERR = word (i % 64 + sEARG * 2 ^ 8 + x.rec_ % 65536 * 2 ^ 16) ∧ t.hub.glb.script = none)) ∧
  (∀ (h : Hub) (nv : NonVol) (x : Script) (ws : List Word) (n st : Nat), st ≠ sOK →
    (h.scriptAnswered nv x ws n st).flag Reg.GLB_BOOT F.GLB_BOOT_SCRIPT_FAIL = true ∧
    (h.scriptAnswered nv x ws n st).ready = true ∧
    (h.scriptAnswered nv x ws n st).fld Reg.GLB_SCRIPT_ERR F.GLB_SCRIPT_ERR_STATUS = st % 256 ∧
    (h.scriptAnswered nv x ws n st).glb.script = none) ∧
  (∀ (h : Hub) (nv : NonVol) (x : Script) (ws : List Word) (n : Nat),
    (h.scriptAnswered nv x ws n sOK).glb.script =
      some { x with off := x.off + n, rec_ := x.rec_ + 1, wait := none, cmdAt := none }) ∧
  (∀ (h : Hub) (a : Nat) (w : Word), 0x68000 ≤ a → a < 0x68800 → (h.netSeen ((a - 0x68000) / 0x80)).st ≠ .off →
    h.scriptPut a w = h ∨ h.scriptPut a w = h.evt Reg.NET_EVT F.NET_EVT_HELD_DIFF) ∧
  (∀ (h : Hub) (ws : List Word), (ws.getD 0 0).toNat % 65536 = 0x0B01 →
    ∀ n, n < 16 → testBit ((h.scriptCmd ws).arg 1) n = (testBit (ws.getD 1 0).toNat n && decide ((h.netSeen n).st = .off)))

/-- The service port: repetition, the requests that need no write protection, undefined types, bad frames, and its times (R472, R488 to
R490). Where it rests on readings or choices of the model's own, they are those of log entries 6 and 17. -/
def Obligations.ServicePortRequests : Prop :=
  (∀ (s : State) (q : Byte) (div addr len : Word) (n : Half) (wp : Bool) (sel kind : Byte) (bs : List Byte) (out : FlashEnd),
    let reqs : List (Instr × Nat) := [(.svcHello q, 1), (.svcBaud q div, 2), (.svcRead q addr n, 3), (.svcStageOpen q wp sel len, 4),
      (.svcStageWrite q wp addr bs out, 5), (.svcStageClose q wp, 6), (.svcStageAbort q, 7), (.svcIdentWrite q wp bs, 8),
      (.svcFuseKey q wp bs, 9), (.svcStatus q, 10), (.svcReset q kind, 11)]
    ∀ r ∈ reqs, (s.hub.held = true → exec r.1 s = .next s) ∧
      ∀ rsp, s.hub.held = false → s.hub.glb.svcPrev = some (r.2, q.toNat, rsp) → Makes r.1 s (s.hub.svcHeard.emit (.bytes rsp))) ∧
  (∀ (s : State) (q : Byte), s.hub.held = false →
    let g := s.hub.svcHeard
    (s.hub.svcFresh 1 q.toNat → exec (.svcHello q) s = .next (s.svcDone 1 q.toNat g s.nv sOK
      (byte 1 :: ([Reg.GLB_ID, Reg.GLB_BOOT, Reg.GLB_SEQ_A, Reg.GLB_SEQ_B].flatMap fun a => beBytes 4 (s.hub.rd a).toNat)))) ∧
    (∀ div : Word, s.hub.svcFresh 2 q.toNat → exec (.svcBaud q div) s = .next
      (if 200 ≤ div.toNat ∧ div.toNat ≤ 250000 then s.svcDone 2 q.toNat (g.setGlb { g.glb with svcDiv := div.toNat }) s.nv sOK []
       else s.svcDone 2 q.toNat g s.nv sEARG [])) ∧
    (∀ (a : Word) (n : Half), s.hub.svcFresh 3 q.toNat → exec (.svcRead q a n) s = .next
      (if 1 ≤ n.toNat ∧ n.toNat ≤ 4096 ∧ a.toNat + n.toNat ≤ flashSize
       then s.svcDone 3 q.toNat g s.nv sOK (s.nv.bytes a.toNat n.toNat) else s.svcDone 3 q.toNat g s.nv sEARG [])) ∧
    (s.hub.svcFresh 10 q.toNat → exec (.svcStatus q) s = .next (s.svcDone 10 q.toNat g s.nv sOK
      ([s.hub.rd Reg.GLB_RESET_CAUSE, s.hub.clkStat, s.hub.rd Reg.TWIN_HEALTH_HI, s.hub.rd Reg.TWIN_HEALTH_LO].flatMap fun w =>
        beBytes 4 w.toNat))) ∧
    (∀ kind : Byte, s.hub.svcFresh 11 q.toNat → exec (.svcReset q kind) s = .next
      (if kind = 1 ∨ kind = 2 then
         s.svcDone 11 q.toNat (g.setGlb { g.glb with svcReset := some (kind == 2, s.hub.now + tuMs) }) s.nv sOK []
       else s.svcDone 11 q.toNat g s.nv sEARG []))) ∧
  (∀ (s : State) (cold : Bool) (t : Nat), s.hub.held = false → s.hub.glb.svcReset = some (cold, t) →
    let k := s.hub.setGlb { s.hub.glb with svcReset := none }
    Makes .svcResetFire s (if t ≤ s.hub.now then (if cold then k.startCold 4 else k.askWarm 5) else s.hub)) ∧
  (∀ (s : State) (t q : Nat) (pay : List Byte), s.hub.held = false → t < 256 → q < 256 → pay.length ≤ 4100 → (t = 0 ∨ 0x0B < t) →
    s.hub.svcFresh t q →
    exec (.svcBadFrame ((svcFrame t q pay).drop 2)) s = .next (s.svcDone t q s.hub.svcHeard s.nv sENOTSUP [])) ∧
  (∀ (s : State) (bs : List Byte), bs.length ≠ beAt bs 0 2 + 8 ∨ 4100 < beAt bs 0 2 ∨
    crc poly0 (bs.take (beAt bs 0 2 + 4)) ≠ beAt bs (beAt bs 0 2 + 4) 4 → exec (.svcBadFrame bs) s = .next s) ∧
  (∀ (s : State), exec .svcFrameTimeout s = .next s) ∧
  (∀ (s : State), s.hub.held = false → Makes .svcBaudRevert s
    (if s.hub.glb.svcGood + 5 * tuS ≤ s.hub.now then s.hub.setGlb { s.hub.glb with svcDiv := 2604 } else s.hub))

/-- Staging an image, the identity block and the key fuses (R476, R478, R483, R490 to R494). What a flash operation that ends badly
leaves in the flash is left open (log entry 4). Where it rests on readings or choices of the model's own, they are those of log entry
17. -/
def Obligations.StagingIdentityAndFuses : Prop :=
  (∀ (s : State) (q : Byte) (addr len : Word) (sel : Byte) (bs : List Byte) (out : FlashEnd), s.hub.held = false →
    ∀ r ∈ ([(.svcStageOpen q false sel len, 4), (.svcStageWrite q false addr bs out, 5), (.svcStageClose q false, 6),
      (.svcIdentWrite q false bs, 8), (.svcFuseKey q false bs, 9)] : List (Instr × Nat)),
    s.hub.svcFresh r.2 q.toNat → exec r.1 s = .next (s.svcDone r.2 q.toNat
      (if s.hub.glb.stage.isSome then (s.hub.svcHeard.setWp false).stageEnd false else s.hub.svcHeard.setWp false) s.nv sEDENIED [])) ∧
  (∀ (s : State) (q sel : Byte) (len : Word) (slot : Nat),
    let g := s.hub.svcHeard.setWp true
    s.hub.held = false → s.hub.svcFresh 4 q.toNat → s.hub.glb.stage = none → 4096 ≤ len.toNat → len.toNat ≤ 0x800000 →
    (sel = 1 ∧ slot = 0 ∨ sel = 2 ∧ slot = 1 ∨ sel = 0 ∧ ((s.hub.glb.booted = none ∧ slot = 1) ∨
      ∃ b, s.hub.glb.booted = some b ∧ slot = 1 - b)) → s.hub.glb.booted ≠ some slot →
    exec (.svcStageOpen q true sel len) s = .next (s.svcDone 4 q.toNat
      (g.setGlb { g.glb with stage := some { slot := slot, len := len.toNat, written := 0, manifest := [], at_ := s.hub.now } })
      (s.nv.erase (slotBase slot) 0x10000) sOK [byte (slot + 1)])) ∧
  (∀ (s : State) (q : Byte) (off : Word) (bs : List Byte) (x : Stage),
    let g := s.hub.svcHeard.setWp true
    let n := bs.length
    let a := slotBase x.slot + off.toNat
    let nv := if off.toNat % 0x10000 = 0 then s.nv.erase a 0x10000 else s.nv
    let free := (List.range n).map fun i => byte (Config.freeWord (s.hub.freeCtr + i)).toNat
    let touched := g.setGlb { g.glb with stage := some { x with at_ := s.hub.now } }
    s.hub.held = false → s.hub.svcFresh 5 q.toNat → s.hub.glb.stage = some x → off.toNat = x.written → 1 ≤ n →
    off.toNat + n ≤ x.len → (n = 4096 ∨ (n < 4096 ∧ off.toNat + n = x.len)) →
    (off.toNat = 0 → ∀ out, exec (.svcStageWrite q true off bs out) s = .next (s.svcDone 5 q.toNat
      (g.setGlb { g.glb with stage := some { x with written := n, manifest := bs, at_ := s.hub.now } }) s.nv sOK [])) ∧
    (off.toNat ≠ 0 →
      exec (.svcStageWrite q true off bs .ok) s = .next (s.svcDone 5 q.toNat
        (g.setGlb { g.glb with stage := some { x with written := off.toNat + n, at_ := s.hub.now } }) (nv.writeFlash a bs) sOK []) ∧
      exec (.svcStageWrite q true off bs .differs) s = .next (s.svcDone 5 q.toNat
        { touched with freeCtr := s.hub.freeCtr + n } (nv.writeFlash a free) sENORES []) ∧
      exec (.svcStageWrite q true off bs .timeout) s = .next (s.svcDone 5 q.toNat
        { touched with freeCtr := s.hub.freeCtr + n } (nv.writeFlash a free) sETIMEOUT []))) ∧
  (∀ (s : State) (q : Byte) (x : Stage), s.hub.held = false → s.hub.glb.stage = some x →
    let nv := s.nv.writeFlash (slotBase x.slot) x.manifest
    (x.written = x.len → s.hub.svcFresh 6 q.toNat → exec (.svcStageClose q true) s = .next (s.svcDone 6 q.toNat
      ((s.hub.svcHeard.setWp true).stageEnd true) nv sOK
      (beBytes 4 (crc poly0 (nv.bytes (slotBase x.slot) x.len)) ++ beBytes 4 (imgSeq (nv.manifest x.slot))))) ∧
    (s.hub.svcFresh 7 q.toNat →
      exec (.svcStageAbort q) s = .next (s.svcDone 7 q.toNat (s.hub.svcHeard.stageEnd false) s.nv sOK [])) ∧
    Makes .svcWpDeassert s ((s.hub.setWp false).stageEnd false) ∧
    Makes .stageIdleTimeout s (if x.at_ + 60 * tuS ≤ s.hub.now then s.hub.stageEnd false else s.hub)) ∧
  (∀ (h : Hub) (good : Bool),
    let k := h.stageEnd good
    k.glb = { h.glb with stage := none } ∧ k.flag Reg.GLB_BOOT F.GLB_BOOT_STAGE_OK = good ∧
    k.flag Reg.GLB_EVT F.GLB_EVT_STAGED = true ∧ k.flag Reg.HOST_EVT F.HOST_EVT_MAINT_DONE = true ∧
    ∀ a, a ∉ [Reg.GLB_BOOT, Reg.GLB_EVT, Reg.HOST_EVT] → k.rd a = h.rd a) ∧
  (∀ (s : State) (q : Byte) (bs : List Byte), s.hub.held = false →
    let g := s.hub.svcHeard.setWp true
    (s.hub.svcFresh 8 q.toNat → s.hub.glb.stage = none → bs.length = 256 → identOk bs = true →
      exec (.svcIdentWrite q true bs) s = .next (s.svcDone 8 q.toNat g ((s.nv.erase 0 0x10000).writeFlash 0 bs) sOK [])) ∧
    (s.hub.svcFresh 9 q.toNat → s.nv.fuse = none → bs.length = 32 →
      exec (.svcFuseKey q true bs) s = .next (s.svcDone 9 q.toNat (g.readFuses { s.nv with fuse := some bs }) { s.nv with fuse := some bs }
        sOK [])) ∧
    (s.hub.svcFresh 9 q.toNat → s.nv.fuse ≠ none →
      exec (.svcFuseKey q true bs) s = .next (s.svcDone 9 q.toNat g s.nv sEDENIED []))) ∧
  (∀ (nv : NonVol) (a x : Nat) (bs : List Byte),
    (nv.writeFlash a bs).bytes x 1 = [if a ≤ x then (bs[x - a]?).getD (mget 0xFF nv.flash x) else mget 0xFF nv.flash x] ∧
    ∀ n, (nv.erase a n).bytes x 1 = [if a ≤ x ∧ x < a + n then 0xFF else mget 0xFF nv.flash x])
end

