-- ==== Sys2Proof/Laws/Tables.lean ====
section
/-! SUPPORT. Banks and memories: reading what was written, leaving every other entry alone, and the canonical form. -/

namespace Sys2Proof.Machine

variable {α : Type}

theorem tget_terase_same (d : α) (t : Table α) (k : Nat) : tget d (terase k t) k = d := by
  induction t with
  | nil => rfl
  | cons x t ih =>
    obtain ⟨j, v⟩ := x
    by_cases h : j = k <;> simp [terase, tget, h, ih]

theorem tget_terase_ne (d : α) (t : Table α) {k m : Nat} (hm : m ≠ k) : tget d (terase k t) m = tget d t m := by
  induction t with
  | nil => rfl
  | cons x t ih =>
    obtain ⟨j, v⟩ := x
    by_cases h : j = k
    · subst h; simp [terase, tget, ih, Ne.symm hm]
    · simp [terase, tget, h, ih]

theorem tget_tins_same (d : α) (t : Table α) (k : Nat) (v : α) (hk : ∀ x ∈ t, x.1 ≠ k) : tget d (tins k v t) k = v := by
  induction t with
  | nil => simp [tins, tget]
  | cons x t ih =>
    obtain ⟨j, w⟩ := x
    have hj : j ≠ k := hk (j, w) (by simp)
    by_cases h : k < j
    · simp [tins, tget, h]
    · simp only [tins, h, if_false, tget, hj]
      exact ih fun y hy => hk y (by simp [hy])

theorem tget_tins_ne (d : α) (t : Table α) {k m : Nat} (v : α) (hm : m ≠ k) : tget d (tins k v t) m = tget d t m := by
  induction t with
  | nil => simp [tins, tget, Ne.symm hm]
  | cons x t ih =>
    obtain ⟨j, w⟩ := x
    by_cases h : k < j
    · simp [tins, tget, h, Ne.symm hm]
    · simp [tins, tget, h, ih]

theorem terase_keys (t : Table α) (k : Nat) : ∀ x ∈ terase k t, x.1 ≠ k := by
  induction t with
  | nil => simp [terase]
  | cons x t ih =>
    obtain ⟨j, v⟩ := x
    by_cases h : j = k
    · simpa [terase, h] using ih
    · intro y hy
      simp [terase, h] at hy
      rcases hy with rfl | hy
      · exact h
      · exact ih y hy

/-- An entry that does not read as the default is listed. -/
theorem tget_mem {d : α} {t : Table α} {k : Nat} (h : tget d t k ≠ d) : (k, tget d t k) ∈ t := by
  induction t with
  | nil => exact absurd rfl h
  | cons x t ih =>
    obtain ⟨j, v⟩ := x
    by_cases e : j = k
    · subst e; simp [tget]
    · have : tget d ((j, v) :: t) k = tget d t k := if_neg e
      rw [this] at h ⊢
      exact List.mem_cons_of_mem _ (ih h)

@[simp] theorem tget_nil (d : α) (k : Nat) : tget d ([] : Table α) k = d := rfl

variable [DecidableEq α]

/-- Reading the entry that was written, and any other. -/
theorem tget_tset (d : α) (t : Table α) (k m : Nat) (v : α) : tget d (tset d t k v) m = if m = k then v else tget d t m := by
  by_cases hm : m = k
  · subst hm
    by_cases hv : v = d
    · simp [tset, hv, tget_terase_same]
    · simp [tset, hv, tget_tins_same d _ m v (terase_keys t m)]
  · by_cases hv : v = d
    · simp [tset, hv, hm, tget_terase_ne d t hm]
    · simp [tset, hv, hm, tget_tins_ne d _ v hm, tget_terase_ne d t hm]

/-- An entry other than the one written, whatever the defaults. -/
theorem tget_tset_other (d d' : α) (t : Table α) {k m : Nat} (v : α) (hm : m ≠ k) : tget d' (tset d t k v) m = tget d' t m := by
  by_cases hv : v = d
  · simp [tset, hv, tget_terase_ne d' t hm]
  · simp [tset, hv, tget_tins_ne d' _ v hm, tget_terase_ne d' t hm]

@[simp] theorem tget_tset_same (d : α) (t : Table α) (k : Nat) (v : α) : tget d (tset d t k v) k = v := by simp [tget_tset]

theorem tget_tset_ne (d : α) (t : Table α) {k m : Nat} (v : α) (hm : m ≠ k) : tget d (tset d t k v) m = tget d t m := by
  simp [tget_tset, hm]

/-! ## The canonical form is kept -/

theorem twfFrom_mono (d : α) {lo lo' : Nat} (t : Table α) (hl : lo ≤ lo') (h : twfFrom d lo' t = true) : twfFrom d lo t = true := by
  cases t with
  | nil => rfl
  | cons x t =>
    obtain ⟨k, v⟩ := x
    simp [twfFrom] at h ⊢
    exact ⟨⟨by omega, h.1.2⟩, h.2⟩

theorem twfFrom_terase (d : α) (k : Nat) (t : Table α) : ∀ lo, twfFrom d lo t = true → twfFrom d lo (terase k t) = true := by
  induction t with
  | nil => intro lo h; exact h
  | cons x t ih =>
    obtain ⟨j, v⟩ := x
    intro lo h
    simp [twfFrom] at h
    by_cases hj : j = k
    · simp [terase, hj]
      exact twfFrom_mono d _ (by omega) (ih (j + 1) h.2)
    · simp [terase, hj, twfFrom]
      exact ⟨h.1, ih (j + 1) h.2⟩

theorem twfFrom_tins (d : α) (k : Nat) (v : α) (hv : v ≠ d) (t : Table α) :
    ∀ lo, lo ≤ k → (∀ x ∈ t, x.1 ≠ k) → twfFrom d lo t = true → twfFrom d lo (tins k v t) = true := by
  induction t with
  | nil => intro lo hl _ _; simp [tins, twfFrom, hl, hv]
  | cons x t ih =>
    obtain ⟨j, w⟩ := x
    intro lo hl hk h
    simp [twfFrom] at h
    have hj : j ≠ k := hk (j, w) (by simp)
    by_cases hlt : k < j
    · simp [tins, hlt, twfFrom, hl, hv]
      have h1 := h.1
      have h2 := h.2
      have hk' : k + 1 ≤ j := hlt
      simp_all
    · simp [tins, hlt, twfFrom]
      exact ⟨h.1, ih (j + 1) (by omega) (fun y hy => hk y (by simp [hy])) h.2⟩

/-- A bank keeps its canonical form when an entry is set. -/
theorem twf_tset (d : α) (t : Table α) (k : Nat) (v : α) (h : twf d t = true) : twf d (tset d t k v) = true := by
  unfold twf tset at *
  split
  · exact twfFrom_terase d k t 0 h
  · exact twfFrom_tins d k v ‹_› _ 0 (by omega) (terase_keys t k) (twfFrom_terase d k t 0 h)

end Sys2Proof.Machine

namespace Sys2Proof.Machine

/-- A memory keeps its canonical form when a byte is written. -/
theorem wf_mset (d : Byte) (m : Memory) (a : Nat) (b : Byte) (h : Memory.wf d m = true) : Memory.wf d (mset d m a b) = true :=
  twf_tset d m a b h

/-- A memory keeps its canonical form when bytes are written. -/
theorem wf_mwrite (d : Byte) (bs : List Byte) : ∀ (m : Memory) (a : Nat), Memory.wf d m = true → Memory.wf d (mwrite d m a bs) = true := by
  induction bs with
  | nil => intro m a h; exact h
  | cons b bs ih => intro m a h; exact ih _ _ (wf_mset d m a b h)

theorem mget_mset (d : Byte) (m : Memory) (a x : Nat) (b : Byte) : mget d (mset d m a b) x = if x = a then b else mget d m x :=
  tget_tset d m a x b

/-- Bytes outside those written read as before. -/
theorem mget_mwrite_of_lt (d : Byte) (bs : List Byte) :
    ∀ (m : Memory) (a x : Nat), x < a ∨ a + bs.length ≤ x → mget d (mwrite d m a bs) x = mget d m x := by
  induction bs with
  | nil => intro m a x _; rfl
  | cons b bs ih =>
    intro m a x h
    simp only [mwrite]
    rw [ih _ _ _ (by simp at h; omega), mget_mset]
    simp at h
    rw [if_neg (by omega)]

end Sys2Proof.Machine
end

