-- ==== Sys2Proof/Laws/Bits.lean ====
section
/-! SUPPORT. Fields of register words: reading a field that was written, fields that do not meet, sticky bits. -/

namespace Sys2Proof.Machine

theorem testBit_bits (x : Word) (f : Nat × Nat) (i : Nat) :
    Nat.testBit (bits x f) i = (decide (i < f.2) && x.getLsbD (f.1 + i)) := by
  unfold bits bitsN
  rw [Nat.testBit_mod_two_pow, Nat.testBit_div_two_pow, BitVec.getLsbD, Nat.add_comm]

theorem getLsbD_mask (f : Nat × Nat) (i : Nat) :
    (BitVec.ofNat 32 ((2 ^ f.2 - 1) * 2 ^ f.1)).getLsbD i = (decide (i < 32) && (decide (f.1 ≤ i) && decide (i - f.1 < f.2))) := by
  rw [BitVec.getLsbD_ofNat, Nat.testBit_mul_two_pow]
  by_cases h : f.1 ≤ i <;> simp [h, Nat.testBit_two_pow_sub_one]

theorem getLsbD_val (f : Nat × Nat) (v i : Nat) :
    (BitVec.ofNat 32 (v % 2 ^ f.2 * 2 ^ f.1)).getLsbD i =
      (decide (i < 32) && (decide (f.1 ≤ i) && (decide (i - f.1 < f.2) && Nat.testBit v (i - f.1)))) := by
  rw [BitVec.getLsbD_ofNat, Nat.testBit_mul_two_pow, Nat.testBit_mod_two_pow]

theorem getLsbD_putBits (x : Word) (f : Nat × Nat) (v i : Nat) :
    (putBits x f v).getLsbD i =
      if f.1 ≤ i ∧ i < f.1 + f.2 then decide (i < 32) && Nat.testBit v (i - f.1) else x.getLsbD i := by
  unfold putBits
  simp only [BitVec.getLsbD_or, BitVec.getLsbD_and, BitVec.getLsbD_not, getLsbD_mask, getLsbD_val]
  by_cases h1 : i < 32
  · by_cases h2 : f.1 ≤ i
    · by_cases h3 : i < f.1 + f.2
      · have : i - f.1 < f.2 := by omega
        simp [h1, h2, h3, this]
      · have : ¬ i - f.1 < f.2 := by omega
        simp [h1, h2, h3, this]
    · simp [h1, h2]
  · have : x.getLsbD i = false := BitVec.getLsbD_of_ge _ _ (by omega)
    simp [h1, this]

/-- The field that was written reads as the value, cut to its width. -/
theorem bits_putBits_same (x : Word) (f : Nat × Nat) (v : Nat) (hf : f.1 + f.2 ≤ 32) : bits (putBits x f v) f = v % 2 ^ f.2 := by
  apply Nat.eq_of_testBit_eq
  intro i
  rw [testBit_bits, getLsbD_putBits, Nat.testBit_mod_two_pow]
  by_cases h : i < f.2
  · rw [if_pos ⟨by omega, by omega⟩]
    have : f.1 + i < 32 := by omega
    simp [h, this]
  · simp [h]

/-- A field that does not meet the one written keeps its value. -/
theorem bits_putBits_ne (x : Word) (f g : Nat × Nat) (v : Nat) (hd : f.1 + f.2 ≤ g.1 ∨ g.1 + g.2 ≤ f.1) :
    bits (putBits x f v) g = bits x g := by
  apply Nat.eq_of_testBit_eq
  intro i
  rw [testBit_bits, testBit_bits, getLsbD_putBits]
  by_cases h : i < g.2
  · rw [if_neg (by omega)]
  · simp [h]

theorem getLsbD_or_two_pow (x : Word) (n i : Nat) (hn : n < 32) :
    (x ||| BitVec.ofNat 32 (2 ^ n)).getLsbD i = (x.getLsbD i || decide (n = i)) := by
  rw [BitVec.getLsbD_or, BitVec.getLsbD_ofNat, Nat.testBit_two_pow]
  by_cases h : n = i
  · subst h; simp [hn]
  · simp [h]

/-- Setting bit `n` of a word sets that bit of the field that holds it. -/
theorem testBit_bits_or (x : Word) (f : Nat × Nat) (n i : Nat) (hn : n < 32) :
    Nat.testBit (bits (x ||| BitVec.ofNat 32 (2 ^ n)) f) i = (Nat.testBit (bits x f) i || (decide (i < f.2) && decide (n = f.1 + i))) := by
  rw [testBit_bits, testBit_bits, getLsbD_or_two_pow _ _ _ hn]
  by_cases h : i < f.2 <;> simp [h]

/-- A sticky bit outside a field leaves the field. -/
theorem bits_or_ne (x : Word) (f : Nat × Nat) (n : Nat) (hn : n < 32) (hd : n < f.1 ∨ f.1 + f.2 ≤ n) :
    bits (x ||| BitVec.ofNat 32 (2 ^ n)) f = bits x f := by
  apply Nat.eq_of_testBit_eq
  intro i
  rw [testBit_bits_or _ _ _ _ hn]
  by_cases h : i < f.2
  · have : n ≠ f.1 + i := by omega
    simp [this]
  · simp [h]

/-- A one-bit field whose bit is set reads 1. -/
theorem bits_or_flag (x : Word) (n : Nat) (hn : n < 32) : bits (x ||| BitVec.ofNat 32 (2 ^ n)) (n, 1) = 1 := by
  have h := testBit_bits_or x (n, 1) n 0 hn
  generalize hb : bits (x ||| BitVec.ofNat 32 (2 ^ n)) (n, 1) = b at h ⊢
  have hl : b < 2 := hb ▸ Nat.mod_lt _ (by simp)
  simp at h
  omega

end Sys2Proof.Machine
end

