-- ==== Sys2Proof/Laws/State.lean ====
section
/-! SUPPORT. What each update of the state leaves unchanged, field by field, and what it makes a later read answer. -/

namespace Sys2Proof.Machine

/-! ## Register words -/

@[simp] theorem Hub.wr_now (h : Hub) (a : Nat) (w : Word) : (h.wr a w).now = h.now := rfl
@[simp] theorem Hub.wr_freeCtr (h : Hub) (a : Nat) (w : Word) : (h.wr a w).freeCtr = h.freeCtr := rfl
@[simp] theorem Hub.wr_out (h : Hub) (a : Nat) (w : Word) : (h.wr a w).out = h.out := rfl
@[simp] theorem Hub.wr_glb (h : Hub) (a : Nat) (w : Word) : (h.wr a w).glb = h.glb := rfl
@[simp] theorem Hub.wr_host (h : Hub) (a : Nat) (w : Word) : (h.wr a w).host = h.host := rfl
@[simp] theorem Hub.wr_tim (h : Hub) (a : Nat) (w : Word) : (h.wr a w).tim = h.tim := rfl
@[simp] theorem Hub.wr_twin (h : Hub) (a : Nat) (w : Word) : (h.wr a w).twin = h.twin := rfl
@[simp] theorem Hub.wr_ring (h : Hub) (a : Nat) (w : Word) : (h.wr a w).ring = h.ring := rfl
@[simp] theorem Hub.wr_swc (h : Hub) (a : Nat) (w : Word) : (h.wr a w).swc = h.swc := rfl
@[simp] theorem Hub.wr_tm (h : Hub) (a : Nat) (w : Word) : (h.wr a w).tm = h.tm := rfl
@[simp] theorem Hub.wr_chk (h : Hub) (a : Nat) (w : Word) : (h.wr a w).chk = h.chk := rfl
@[simp] theorem Hub.wr_pt (h : Hub) (a : Nat) (w : Word) : (h.wr a w).pt = h.pt := rfl
@[simp] theorem Hub.wr_car (h : Hub) (a : Nat) (w : Word) : (h.wr a w).car = h.car := rfl
@[simp] theorem Hub.wr_ln (h : Hub) (a : Nat) (w : Word) : (h.wr a w).ln = h.ln := rfl
@[simp] theorem Hub.wr_fret (h : Hub) (a : Nat) (w : Word) : (h.wr a w).fret = h.fret := rfl
@[simp] theorem Hub.wr_can (h : Hub) (a : Nat) (w : Word) : (h.wr a w).can = h.can := rfl
@[simp] theorem Hub.wr_usb (h : Hub) (a : Nat) (w : Word) : (h.wr a w).usb = h.usb := rfl
@[simp] theorem Hub.wr_net (h : Hub) (a : Nat) (w : Word) : (h.wr a w).net = h.net := rfl
@[simp] theorem Hub.wr_start (h : Hub) (a : Nat) (w : Word) : (h.wr a w).start = h.start := rfl
@[simp] theorem Hub.setFld_now (h : Hub) (a : Nat) (f : Nat × Nat) (v : Nat) : (h.setFld a f v).now = h.now := rfl
@[simp] theorem Hub.setFld_freeCtr (h : Hub) (a : Nat) (f : Nat × Nat) (v : Nat) : (h.setFld a f v).freeCtr = h.freeCtr := rfl
@[simp] theorem Hub.setFld_out (h : Hub) (a : Nat) (f : Nat × Nat) (v : Nat) : (h.setFld a f v).out = h.out := rfl
@[simp] theorem Hub.setFld_glb (h : Hub) (a : Nat) (f : Nat × Nat) (v : Nat) : (h.setFld a f v).glb = h.glb := rfl
@[simp] theorem Hub.setFld_host (h : Hub) (a : Nat) (f : Nat × Nat) (v : Nat) : (h.setFld a f v).host = h.host := rfl
@[simp] theorem Hub.setFld_tim (h : Hub) (a : Nat) (f : Nat × Nat) (v : Nat) : (h.setFld a f v).tim = h.tim := rfl
@[simp] theorem Hub.setFld_twin (h : Hub) (a : Nat) (f : Nat × Nat) (v : Nat) : (h.setFld a f v).twin = h.twin := rfl
@[simp] theorem Hub.setFld_ring (h : Hub) (a : Nat) (f : Nat × Nat) (v : Nat) : (h.setFld a f v).ring = h.ring := rfl
@[simp] theorem Hub.setFld_swc (h : Hub) (a : Nat) (f : Nat × Nat) (v : Nat) : (h.setFld a f v).swc = h.swc := rfl
@[simp] theorem Hub.setFld_tm (h : Hub) (a : Nat) (f : Nat × Nat) (v : Nat) : (h.setFld a f v).tm = h.tm := rfl
@[simp] theorem Hub.setFld_chk (h : Hub) (a : Nat) (f : Nat × Nat) (v : Nat) : (h.setFld a f v).chk = h.chk := rfl
@[simp] theorem Hub.setFld_pt (h : Hub) (a : Nat) (f : Nat × Nat) (v : Nat) : (h.setFld a f v).pt = h.pt := rfl
@[simp] theorem Hub.setFld_car (h : Hub) (a : Nat) (f : Nat × Nat) (v : Nat) : (h.setFld a f v).car = h.car := rfl
@[simp] theorem Hub.setFld_ln (h : Hub) (a : Nat) (f : Nat × Nat) (v : Nat) : (h.setFld a f v).ln = h.ln := rfl
@[simp] theorem Hub.setFld_fret (h : Hub) (a : Nat) (f : Nat × Nat) (v : Nat) : (h.setFld a f v).fret = h.fret := rfl
@[simp] theorem Hub.setFld_can (h : Hub) (a : Nat) (f : Nat × Nat) (v : Nat) : (h.setFld a f v).can = h.can := rfl
@[simp] theorem Hub.setFld_usb (h : Hub) (a : Nat) (f : Nat × Nat) (v : Nat) : (h.setFld a f v).usb = h.usb := rfl
@[simp] theorem Hub.setFld_net (h : Hub) (a : Nat) (f : Nat × Nat) (v : Nat) : (h.setFld a f v).net = h.net := rfl
@[simp] theorem Hub.setFld_start (h : Hub) (a : Nat) (f : Nat × Nat) (v : Nat) : (h.setFld a f v).start = h.start := rfl
@[simp] theorem Hub.evt_now (h : Hub) (a : Nat) (f : Nat × Nat) : (h.evt a f).now = h.now := rfl
@[simp] theorem Hub.evt_freeCtr (h : Hub) (a : Nat) (f : Nat × Nat) : (h.evt a f).freeCtr = h.freeCtr := rfl
@[simp] theorem Hub.evt_out (h : Hub) (a : Nat) (f : Nat × Nat) : (h.evt a f).out = h.out := rfl
@[simp] theorem Hub.evt_glb (h : Hub) (a : Nat) (f : Nat × Nat) : (h.evt a f).glb = h.glb := rfl
@[simp] theorem Hub.evt_host (h : Hub) (a : Nat) (f : Nat × Nat) : (h.evt a f).host = h.host := rfl
@[simp] theorem Hub.evt_tim (h : Hub) (a : Nat) (f : Nat × Nat) : (h.evt a f).tim = h.tim := rfl
@[simp] theorem Hub.evt_twin (h : Hub) (a : Nat) (f : Nat × Nat) : (h.evt a f).twin = h.twin := rfl
@[simp] theorem Hub.evt_ring (h : Hub) (a : Nat) (f : Nat × Nat) : (h.evt a f).ring = h.ring := rfl
@[simp] theorem Hub.evt_swc (h : Hub) (a : Nat) (f : Nat × Nat) : (h.evt a f).swc = h.swc := rfl
@[simp] theorem Hub.evt_tm (h : Hub) (a : Nat) (f : Nat × Nat) : (h.evt a f).tm = h.tm := rfl
@[simp] theorem Hub.evt_chk (h : Hub) (a : Nat) (f : Nat × Nat) : (h.evt a f).chk = h.chk := rfl
@[simp] theorem Hub.evt_pt (h : Hub) (a : Nat) (f : Nat × Nat) : (h.evt a f).pt = h.pt := rfl
@[simp] theorem Hub.evt_car (h : Hub) (a : Nat) (f : Nat × Nat) : (h.evt a f).car = h.car := rfl
@[simp] theorem Hub.evt_ln (h : Hub) (a : Nat) (f : Nat × Nat) : (h.evt a f).ln = h.ln := rfl
@[simp] theorem Hub.evt_fret (h : Hub) (a : Nat) (f : Nat × Nat) : (h.evt a f).fret = h.fret := rfl
@[simp] theorem Hub.evt_can (h : Hub) (a : Nat) (f : Nat × Nat) : (h.evt a f).can = h.can := rfl
@[simp] theorem Hub.evt_usb (h : Hub) (a : Nat) (f : Nat × Nat) : (h.evt a f).usb = h.usb := rfl
@[simp] theorem Hub.evt_net (h : Hub) (a : Nat) (f : Nat × Nat) : (h.evt a f).net = h.net := rfl
@[simp] theorem Hub.evt_start (h : Hub) (a : Nat) (f : Nat × Nat) : (h.evt a f).start = h.start := rfl
@[simp] theorem Hub.evtN_now (h : Hub) (a : Nat) (f : Nat × Nat) (n : Nat) : (h.evtN a f n).now = h.now := rfl
@[simp] theorem Hub.evtN_freeCtr (h : Hub) (a : Nat) (f : Nat × Nat) (n : Nat) : (h.evtN a f n).freeCtr = h.freeCtr := rfl
@[simp] theorem Hub.evtN_out (h : Hub) (a : Nat) (f : Nat × Nat) (n : Nat) : (h.evtN a f n).out = h.out := rfl
@[simp] theorem Hub.evtN_glb (h : Hub) (a : Nat) (f : Nat × Nat) (n : Nat) : (h.evtN a f n).glb = h.glb := rfl
@[simp] theorem Hub.evtN_host (h : Hub) (a : Nat) (f : Nat × Nat) (n : Nat) : (h.evtN a f n).host = h.host := rfl
@[simp] theorem Hub.evtN_tim (h : Hub) (a : Nat) (f : Nat × Nat) (n : Nat) : (h.evtN a f n).tim = h.tim := rfl
@[simp] theorem Hub.evtN_twin (h : Hub) (a : Nat) (f : Nat × Nat) (n : Nat) : (h.evtN a f n).twin = h.twin := rfl
@[simp] theorem Hub.evtN_ring (h : Hub) (a : Nat) (f : Nat × Nat) (n : Nat) : (h.evtN a f n).ring = h.ring := rfl
@[simp] theorem Hub.evtN_swc (h : Hub) (a : Nat) (f : Nat × Nat) (n : Nat) : (h.evtN a f n).swc = h.swc := rfl
@[simp] theorem Hub.evtN_tm (h : Hub) (a : Nat) (f : Nat × Nat) (n : Nat) : (h.evtN a f n).tm = h.tm := rfl
@[simp] theorem Hub.evtN_chk (h : Hub) (a : Nat) (f : Nat × Nat) (n : Nat) : (h.evtN a f n).chk = h.chk := rfl
@[simp] theorem Hub.evtN_pt (h : Hub) (a : Nat) (f : Nat × Nat) (n : Nat) : (h.evtN a f n).pt = h.pt := rfl
@[simp] theorem Hub.evtN_car (h : Hub) (a : Nat) (f : Nat × Nat) (n : Nat) : (h.evtN a f n).car = h.car := rfl
@[simp] theorem Hub.evtN_ln (h : Hub) (a : Nat) (f : Nat × Nat) (n : Nat) : (h.evtN a f n).ln = h.ln := rfl
@[simp] theorem Hub.evtN_fret (h : Hub) (a : Nat) (f : Nat × Nat) (n : Nat) : (h.evtN a f n).fret = h.fret := rfl
@[simp] theorem Hub.evtN_can (h : Hub) (a : Nat) (f : Nat × Nat) (n : Nat) : (h.evtN a f n).can = h.can := rfl
@[simp] theorem Hub.evtN_usb (h : Hub) (a : Nat) (f : Nat × Nat) (n : Nat) : (h.evtN a f n).usb = h.usb := rfl
@[simp] theorem Hub.evtN_net (h : Hub) (a : Nat) (f : Nat × Nat) (n : Nat) : (h.evtN a f n).net = h.net := rfl
@[simp] theorem Hub.evtN_start (h : Hub) (a : Nat) (f : Nat × Nat) (n : Nat) : (h.evtN a f n).start = h.start := rfl
@[simp] theorem Hub.countN_now (h : Hub) (a n : Nat) : (h.countN a n).now = h.now := rfl
@[simp] theorem Hub.countN_freeCtr (h : Hub) (a n : Nat) : (h.countN a n).freeCtr = h.freeCtr := rfl
@[simp] theorem Hub.countN_out (h : Hub) (a n : Nat) : (h.countN a n).out = h.out := rfl
@[simp] theorem Hub.countN_glb (h : Hub) (a n : Nat) : (h.countN a n).glb = h.glb := rfl
@[simp] theorem Hub.countN_host (h : Hub) (a n : Nat) : (h.countN a n).host = h.host := rfl
@[simp] theorem Hub.countN_tim (h : Hub) (a n : Nat) : (h.countN a n).tim = h.tim := rfl
@[simp] theorem Hub.countN_twin (h : Hub) (a n : Nat) : (h.countN a n).twin = h.twin := rfl
@[simp] theorem Hub.countN_ring (h : Hub) (a n : Nat) : (h.countN a n).ring = h.ring := rfl
@[simp] theorem Hub.countN_swc (h : Hub) (a n : Nat) : (h.countN a n).swc = h.swc := rfl
@[simp] theorem Hub.countN_tm (h : Hub) (a n : Nat) : (h.countN a n).tm = h.tm := rfl
@[simp] theorem Hub.countN_chk (h : Hub) (a n : Nat) : (h.countN a n).chk = h.chk := rfl
@[simp] theorem Hub.countN_pt (h : Hub) (a n : Nat) : (h.countN a n).pt = h.pt := rfl
@[simp] theorem Hub.countN_car (h : Hub) (a n : Nat) : (h.countN a n).car = h.car := rfl
@[simp] theorem Hub.countN_ln (h : Hub) (a n : Nat) : (h.countN a n).ln = h.ln := rfl
@[simp] theorem Hub.countN_fret (h : Hub) (a n : Nat) : (h.countN a n).fret = h.fret := rfl
@[simp] theorem Hub.countN_can (h : Hub) (a n : Nat) : (h.countN a n).can = h.can := rfl
@[simp] theorem Hub.countN_usb (h : Hub) (a n : Nat) : (h.countN a n).usb = h.usb := rfl
@[simp] theorem Hub.countN_net (h : Hub) (a n : Nat) : (h.countN a n).net = h.net := rfl
@[simp] theorem Hub.countN_start (h : Hub) (a n : Nat) : (h.countN a n).start = h.start := rfl
@[simp] theorem Hub.count_now (h : Hub) (a : Nat) : (h.count a).now = h.now := rfl
@[simp] theorem Hub.count_freeCtr (h : Hub) (a : Nat) : (h.count a).freeCtr = h.freeCtr := rfl
@[simp] theorem Hub.count_out (h : Hub) (a : Nat) : (h.count a).out = h.out := rfl
@[simp] theorem Hub.count_glb (h : Hub) (a : Nat) : (h.count a).glb = h.glb := rfl
@[simp] theorem Hub.count_host (h : Hub) (a : Nat) : (h.count a).host = h.host := rfl
@[simp] theorem Hub.count_tim (h : Hub) (a : Nat) : (h.count a).tim = h.tim := rfl
@[simp] theorem Hub.count_twin (h : Hub) (a : Nat) : (h.count a).twin = h.twin := rfl
@[simp] theorem Hub.count_ring (h : Hub) (a : Nat) : (h.count a).ring = h.ring := rfl
@[simp] theorem Hub.count_swc (h : Hub) (a : Nat) : (h.count a).swc = h.swc := rfl
@[simp] theorem Hub.count_tm (h : Hub) (a : Nat) : (h.count a).tm = h.tm := rfl
@[simp] theorem Hub.count_chk (h : Hub) (a : Nat) : (h.count a).chk = h.chk := rfl
@[simp] theorem Hub.count_pt (h : Hub) (a : Nat) : (h.count a).pt = h.pt := rfl
@[simp] theorem Hub.count_car (h : Hub) (a : Nat) : (h.count a).car = h.car := rfl
@[simp] theorem Hub.count_ln (h : Hub) (a : Nat) : (h.count a).ln = h.ln := rfl
@[simp] theorem Hub.count_fret (h : Hub) (a : Nat) : (h.count a).fret = h.fret := rfl
@[simp] theorem Hub.count_can (h : Hub) (a : Nat) : (h.count a).can = h.can := rfl
@[simp] theorem Hub.count_usb (h : Hub) (a : Nat) : (h.count a).usb = h.usb := rfl
@[simp] theorem Hub.count_net (h : Hub) (a : Nat) : (h.count a).net = h.net := rfl
@[simp] theorem Hub.count_start (h : Hub) (a : Nat) : (h.count a).start = h.start := rfl
@[simp] theorem Hub.countFld_now (h : Hub) (a : Nat) (f : Nat × Nat) : (h.countFld a f).now = h.now := rfl
@[simp] theorem Hub.countFld_freeCtr (h : Hub) (a : Nat) (f : Nat × Nat) : (h.countFld a f).freeCtr = h.freeCtr := rfl
@[simp] theorem Hub.countFld_out (h : Hub) (a : Nat) (f : Nat × Nat) : (h.countFld a f).out = h.out := rfl
@[simp] theorem Hub.countFld_glb (h : Hub) (a : Nat) (f : Nat × Nat) : (h.countFld a f).glb = h.glb := rfl
@[simp] theorem Hub.countFld_host (h : Hub) (a : Nat) (f : Nat × Nat) : (h.countFld a f).host = h.host := rfl
@[simp] theorem Hub.countFld_tim (h : Hub) (a : Nat) (f : Nat × Nat) : (h.countFld a f).tim = h.tim := rfl
@[simp] theorem Hub.countFld_twin (h : Hub) (a : Nat) (f : Nat × Nat) : (h.countFld a f).twin = h.twin := rfl
@[simp] theorem Hub.countFld_ring (h : Hub) (a : Nat) (f : Nat × Nat) : (h.countFld a f).ring = h.ring := rfl
@[simp] theorem Hub.countFld_swc (h : Hub) (a : Nat) (f : Nat × Nat) : (h.countFld a f).swc = h.swc := rfl
@[simp] theorem Hub.countFld_tm (h : Hub) (a : Nat) (f : Nat × Nat) : (h.countFld a f).tm = h.tm := rfl
@[simp] theorem Hub.countFld_chk (h : Hub) (a : Nat) (f : Nat × Nat) : (h.countFld a f).chk = h.chk := rfl
@[simp] theorem Hub.countFld_pt (h : Hub) (a : Nat) (f : Nat × Nat) : (h.countFld a f).pt = h.pt := rfl
@[simp] theorem Hub.countFld_car (h : Hub) (a : Nat) (f : Nat × Nat) : (h.countFld a f).car = h.car := rfl
@[simp] theorem Hub.countFld_ln (h : Hub) (a : Nat) (f : Nat × Nat) : (h.countFld a f).ln = h.ln := rfl
@[simp] theorem Hub.countFld_fret (h : Hub) (a : Nat) (f : Nat × Nat) : (h.countFld a f).fret = h.fret := rfl
@[simp] theorem Hub.countFld_can (h : Hub) (a : Nat) (f : Nat × Nat) : (h.countFld a f).can = h.can := rfl
@[simp] theorem Hub.countFld_usb (h : Hub) (a : Nat) (f : Nat × Nat) : (h.countFld a f).usb = h.usb := rfl
@[simp] theorem Hub.countFld_net (h : Hub) (a : Nat) (f : Nat × Nat) : (h.countFld a f).net = h.net := rfl
@[simp] theorem Hub.countFld_start (h : Hub) (a : Nat) (f : Nat × Nat) : (h.countFld a f).start = h.start := rfl

/-! ## Free values and outputs -/

@[simp] theorem Hub.tick_now (h : Hub)  : (h.tick).now = h.now := rfl
@[simp] theorem Hub.tick_regs (h : Hub)  : (h.tick).regs = h.regs := rfl
@[simp] theorem Hub.tick_out (h : Hub)  : (h.tick).out = h.out := rfl
@[simp] theorem Hub.tick_glb (h : Hub)  : (h.tick).glb = h.glb := rfl
@[simp] theorem Hub.tick_host (h : Hub)  : (h.tick).host = h.host := rfl
@[simp] theorem Hub.tick_tim (h : Hub)  : (h.tick).tim = h.tim := rfl
@[simp] theorem Hub.tick_twin (h : Hub)  : (h.tick).twin = h.twin := rfl
@[simp] theorem Hub.tick_ring (h : Hub)  : (h.tick).ring = h.ring := rfl
@[simp] theorem Hub.tick_swc (h : Hub)  : (h.tick).swc = h.swc := rfl
@[simp] theorem Hub.tick_tm (h : Hub)  : (h.tick).tm = h.tm := rfl
@[simp] theorem Hub.tick_chk (h : Hub)  : (h.tick).chk = h.chk := rfl
@[simp] theorem Hub.tick_pt (h : Hub)  : (h.tick).pt = h.pt := rfl
@[simp] theorem Hub.tick_car (h : Hub)  : (h.tick).car = h.car := rfl
@[simp] theorem Hub.tick_ln (h : Hub)  : (h.tick).ln = h.ln := rfl
@[simp] theorem Hub.tick_fret (h : Hub)  : (h.tick).fret = h.fret := rfl
@[simp] theorem Hub.tick_can (h : Hub)  : (h.tick).can = h.can := rfl
@[simp] theorem Hub.tick_usb (h : Hub)  : (h.tick).usb = h.usb := rfl
@[simp] theorem Hub.tick_net (h : Hub)  : (h.tick).net = h.net := rfl
@[simp] theorem Hub.tick_start (h : Hub)  : (h.tick).start = h.start := rfl
@[simp] theorem Hub.emit_now (h : Hub) (o : Output) : (h.emit o).now = h.now := rfl
@[simp] theorem Hub.emit_regs (h : Hub) (o : Output) : (h.emit o).regs = h.regs := rfl
@[simp] theorem Hub.emit_freeCtr (h : Hub) (o : Output) : (h.emit o).freeCtr = h.freeCtr := rfl
@[simp] theorem Hub.emit_glb (h : Hub) (o : Output) : (h.emit o).glb = h.glb := rfl
@[simp] theorem Hub.emit_host (h : Hub) (o : Output) : (h.emit o).host = h.host := rfl
@[simp] theorem Hub.emit_tim (h : Hub) (o : Output) : (h.emit o).tim = h.tim := rfl
@[simp] theorem Hub.emit_twin (h : Hub) (o : Output) : (h.emit o).twin = h.twin := rfl
@[simp] theorem Hub.emit_ring (h : Hub) (o : Output) : (h.emit o).ring = h.ring := rfl
@[simp] theorem Hub.emit_swc (h : Hub) (o : Output) : (h.emit o).swc = h.swc := rfl
@[simp] theorem Hub.emit_tm (h : Hub) (o : Output) : (h.emit o).tm = h.tm := rfl
@[simp] theorem Hub.emit_chk (h : Hub) (o : Output) : (h.emit o).chk = h.chk := rfl
@[simp] theorem Hub.emit_pt (h : Hub) (o : Output) : (h.emit o).pt = h.pt := rfl
@[simp] theorem Hub.emit_car (h : Hub) (o : Output) : (h.emit o).car = h.car := rfl
@[simp] theorem Hub.emit_ln (h : Hub) (o : Output) : (h.emit o).ln = h.ln := rfl
@[simp] theorem Hub.emit_fret (h : Hub) (o : Output) : (h.emit o).fret = h.fret := rfl
@[simp] theorem Hub.emit_can (h : Hub) (o : Output) : (h.emit o).can = h.can := rfl
@[simp] theorem Hub.emit_usb (h : Hub) (o : Output) : (h.emit o).usb = h.usb := rfl
@[simp] theorem Hub.emit_net (h : Hub) (o : Output) : (h.emit o).net = h.net := rfl
@[simp] theorem Hub.emit_start (h : Hub) (o : Output) : (h.emit o).start = h.start := rfl

/-! ## Banks of units -/

@[simp] theorem Hub.setLane_now (h : Hub) (n : Nat) (x : Lane) : (h.setLane n x).now = h.now := rfl
@[simp] theorem Hub.setLane_regs (h : Hub) (n : Nat) (x : Lane) : (h.setLane n x).regs = h.regs := rfl
@[simp] theorem Hub.setLane_freeCtr (h : Hub) (n : Nat) (x : Lane) : (h.setLane n x).freeCtr = h.freeCtr := rfl
@[simp] theorem Hub.setLane_out (h : Hub) (n : Nat) (x : Lane) : (h.setLane n x).out = h.out := rfl
@[simp] theorem Hub.setLane_glb (h : Hub) (n : Nat) (x : Lane) : (h.setLane n x).glb = h.glb := rfl
@[simp] theorem Hub.setLane_host (h : Hub) (n : Nat) (x : Lane) : (h.setLane n x).host = h.host := rfl
@[simp] theorem Hub.setLane_tim (h : Hub) (n : Nat) (x : Lane) : (h.setLane n x).tim = h.tim := rfl
@[simp] theorem Hub.setLane_twin (h : Hub) (n : Nat) (x : Lane) : (h.setLane n x).twin = h.twin := rfl
@[simp] theorem Hub.setLane_ring (h : Hub) (n : Nat) (x : Lane) : (h.setLane n x).ring = h.ring := rfl
@[simp] theorem Hub.setLane_swc (h : Hub) (n : Nat) (x : Lane) : (h.setLane n x).swc = h.swc := rfl
@[simp] theorem Hub.setLane_tm (h : Hub) (n : Nat) (x : Lane) : (h.setLane n x).tm = h.tm := rfl
@[simp] theorem Hub.setLane_chk (h : Hub) (n : Nat) (x : Lane) : (h.setLane n x).chk = h.chk := rfl
@[simp] theorem Hub.setLane_pt (h : Hub) (n : Nat) (x : Lane) : (h.setLane n x).pt = h.pt := rfl
@[simp] theorem Hub.setLane_car (h : Hub) (n : Nat) (x : Lane) : (h.setLane n x).car = h.car := rfl
@[simp] theorem Hub.setLane_fret (h : Hub) (n : Nat) (x : Lane) : (h.setLane n x).fret = h.fret := rfl
@[simp] theorem Hub.setLane_can (h : Hub) (n : Nat) (x : Lane) : (h.setLane n x).can = h.can := rfl
@[simp] theorem Hub.setLane_usb (h : Hub) (n : Nat) (x : Lane) : (h.setLane n x).usb = h.usb := rfl
@[simp] theorem Hub.setLane_net (h : Hub) (n : Nat) (x : Lane) : (h.setLane n x).net = h.net := rfl
@[simp] theorem Hub.setLane_start (h : Hub) (n : Nat) (x : Lane) : (h.setLane n x).start = h.start := rfl
@[simp] theorem Hub.setLane_ln_pin (h : Hub) (n : Nat) (x : Lane) : (h.setLane n x).ln.pin = h.ln.pin := rfl
@[simp] theorem Hub.setLane_ln_pinAt (h : Hub) (n : Nat) (x : Lane) : (h.setLane n x).ln.pinAt = h.ln.pinAt := rfl
theorem Hub.lane_setLane (h : Hub) (n m : Nat) (x : Lane) : (h.setLane n x).lane m = if m = n then x else h.lane m := tget_tset _ _ _ _ _
@[simp] theorem Hub.lane_setLane_same (h : Hub) (n : Nat) (x : Lane) : (h.setLane n x).lane n = x := tget_tset_same _ _ _ _
theorem Hub.lane_congr {h h' : Hub} (e : h'.ln.lane = h.ln.lane) (m : Nat) : h'.lane m = h.lane m := by unfold Hub.lane; rw [e]
@[simp] theorem Hub.setEng_now (h : Hub) (e : Nat) (x : Eng) : (h.setEng e x).now = h.now := rfl
@[simp] theorem Hub.setEng_regs (h : Hub) (e : Nat) (x : Eng) : (h.setEng e x).regs = h.regs := rfl
@[simp] theorem Hub.setEng_freeCtr (h : Hub) (e : Nat) (x : Eng) : (h.setEng e x).freeCtr = h.freeCtr := rfl
@[simp] theorem Hub.setEng_out (h : Hub) (e : Nat) (x : Eng) : (h.setEng e x).out = h.out := rfl
@[simp] theorem Hub.setEng_glb (h : Hub) (e : Nat) (x : Eng) : (h.setEng e x).glb = h.glb := rfl
@[simp] theorem Hub.setEng_host (h : Hub) (e : Nat) (x : Eng) : (h.setEng e x).host = h.host := rfl
@[simp] theorem Hub.setEng_tim (h : Hub) (e : Nat) (x : Eng) : (h.setEng e x).tim = h.tim := rfl
@[simp] theorem Hub.setEng_twin (h : Hub) (e : Nat) (x : Eng) : (h.setEng e x).twin = h.twin := rfl
@[simp] theorem Hub.setEng_ring (h : Hub) (e : Nat) (x : Eng) : (h.setEng e x).ring = h.ring := rfl
@[simp] theorem Hub.setEng_swc (h : Hub) (e : Nat) (x : Eng) : (h.setEng e x).swc = h.swc := rfl
@[simp] theorem Hub.setEng_tm (h : Hub) (e : Nat) (x : Eng) : (h.setEng e x).tm = h.tm := rfl
@[simp] theorem Hub.setEng_chk (h : Hub) (e : Nat) (x : Eng) : (h.setEng e x).chk = h.chk := rfl
@[simp] theorem Hub.setEng_pt (h : Hub) (e : Nat) (x : Eng) : (h.setEng e x).pt = h.pt := rfl
@[simp] theorem Hub.setEng_car (h : Hub) (e : Nat) (x : Eng) : (h.setEng e x).car = h.car := rfl
@[simp] theorem Hub.setEng_ln (h : Hub) (e : Nat) (x : Eng) : (h.setEng e x).ln = h.ln := rfl
@[simp] theorem Hub.setEng_can (h : Hub) (e : Nat) (x : Eng) : (h.setEng e x).can = h.can := rfl
@[simp] theorem Hub.setEng_usb (h : Hub) (e : Nat) (x : Eng) : (h.setEng e x).usb = h.usb := rfl
@[simp] theorem Hub.setEng_net (h : Hub) (e : Nat) (x : Eng) : (h.setEng e x).net = h.net := rfl
@[simp] theorem Hub.setEng_start (h : Hub) (e : Nat) (x : Eng) : (h.setEng e x).start = h.start := rfl
@[simp] theorem Hub.setEng_fret_flags (h : Hub) (e : Nat) (x : Eng) : (h.setEng e x).fret.flags = h.fret.flags := rfl
@[simp] theorem Hub.setEng_fret_flagCyc (h : Hub) (e : Nat) (x : Eng) : (h.setEng e x).fret.flagCyc = h.fret.flagCyc := rfl
@[simp] theorem Hub.setEng_fret_flagOps (h : Hub) (e : Nat) (x : Eng) : (h.setEng e x).fret.flagOps = h.fret.flagOps := rfl
@[simp] theorem Hub.setEng_fret_lvl (h : Hub) (e : Nat) (x : Eng) : (h.setEng e x).fret.lvl = h.fret.lvl := rfl
@[simp] theorem Hub.setEng_fret_dir (h : Hub) (e : Nat) (x : Eng) : (h.setEng e x).fret.dir = h.fret.dir := rfl
@[simp] theorem Hub.setEng_fret_wrote (h : Hub) (e : Nat) (x : Eng) : (h.setEng e x).fret.wrote = h.fret.wrote := rfl
theorem Hub.eng_setEng (h : Hub) (e m : Nat) (x : Eng) : (h.setEng e x).eng m = if m = e then x else h.eng m := tget_tset _ _ _ _ _
@[simp] theorem Hub.eng_setEng_same (h : Hub) (e : Nat) (x : Eng) : (h.setEng e x).eng e = x := tget_tset_same _ _ _ _
theorem Hub.eng_congr {h h' : Hub} (e : h'.fret.eng = h.fret.eng) (m : Nat) : h'.eng m = h.eng m := by unfold Hub.eng; rw [e]
@[simp] theorem Hub.setCan_now (h : Hub) (n : Nat) (x : CanCtl) : (h.setCan n x).now = h.now := rfl
@[simp] theorem Hub.setCan_regs (h : Hub) (n : Nat) (x : CanCtl) : (h.setCan n x).regs = h.regs := rfl
@[simp] theorem Hub.setCan_freeCtr (h : Hub) (n : Nat) (x : CanCtl) : (h.setCan n x).freeCtr = h.freeCtr := rfl
@[simp] theorem Hub.setCan_out (h : Hub) (n : Nat) (x : CanCtl) : (h.setCan n x).out = h.out := rfl
@[simp] theorem Hub.setCan_glb (h : Hub) (n : Nat) (x : CanCtl) : (h.setCan n x).glb = h.glb := rfl
@[simp] theorem Hub.setCan_host (h : Hub) (n : Nat) (x : CanCtl) : (h.setCan n x).host = h.host := rfl
@[simp] theorem Hub.setCan_tim (h : Hub) (n : Nat) (x : CanCtl) : (h.setCan n x).tim = h.tim := rfl
@[simp] theorem Hub.setCan_twin (h : Hub) (n : Nat) (x : CanCtl) : (h.setCan n x).twin = h.twin := rfl
@[simp] theorem Hub.setCan_ring (h : Hub) (n : Nat) (x : CanCtl) : (h.setCan n x).ring = h.ring := rfl
@[simp] theorem Hub.setCan_swc (h : Hub) (n : Nat) (x : CanCtl) : (h.setCan n x).swc = h.swc := rfl
@[simp] theorem Hub.setCan_tm (h : Hub) (n : Nat) (x : CanCtl) : (h.setCan n x).tm = h.tm := rfl
@[simp] theorem Hub.setCan_chk (h : Hub) (n : Nat) (x : CanCtl) : (h.setCan n x).chk = h.chk := rfl
@[simp] theorem Hub.setCan_pt (h : Hub) (n : Nat) (x : CanCtl) : (h.setCan n x).pt = h.pt := rfl
@[simp] theorem Hub.setCan_car (h : Hub) (n : Nat) (x : CanCtl) : (h.setCan n x).car = h.car := rfl
@[simp] theorem Hub.setCan_ln (h : Hub) (n : Nat) (x : CanCtl) : (h.setCan n x).ln = h.ln := rfl
@[simp] theorem Hub.setCan_fret (h : Hub) (n : Nat) (x : CanCtl) : (h.setCan n x).fret = h.fret := rfl
@[simp] theorem Hub.setCan_usb (h : Hub) (n : Nat) (x : CanCtl) : (h.setCan n x).usb = h.usb := rfl
@[simp] theorem Hub.setCan_net (h : Hub) (n : Nat) (x : CanCtl) : (h.setCan n x).net = h.net := rfl
@[simp] theorem Hub.setCan_start (h : Hub) (n : Nat) (x : CanCtl) : (h.setCan n x).start = h.start := rfl
theorem Hub.can1_setCan (h : Hub) (n m : Nat) (x : CanCtl) : (h.setCan n x).can1 m = if m = n then x else h.can1 m := tget_tset _ _ _ _ _
@[simp] theorem Hub.can1_setCan_same (h : Hub) (n : Nat) (x : CanCtl) : (h.setCan n x).can1 n = x := tget_tset_same _ _ _ _
theorem Hub.can1_congr {h h' : Hub} (e : h'.can.ctl = h.can.ctl) (m : Nat) : h'.can1 m = h.can1 m := by unfold Hub.can1; rw [e]
@[simp] theorem Hub.setCtx_now (h : Hub) (c : Nat) (x : Ctx) : (h.setCtx c x).now = h.now := rfl
@[simp] theorem Hub.setCtx_regs (h : Hub) (c : Nat) (x : Ctx) : (h.setCtx c x).regs = h.regs := rfl
@[simp] theorem Hub.setCtx_freeCtr (h : Hub) (c : Nat) (x : Ctx) : (h.setCtx c x).freeCtr = h.freeCtr := rfl
@[simp] theorem Hub.setCtx_out (h : Hub) (c : Nat) (x : Ctx) : (h.setCtx c x).out = h.out := rfl
@[simp] theorem Hub.setCtx_glb (h : Hub) (c : Nat) (x : Ctx) : (h.setCtx c x).glb = h.glb := rfl
@[simp] theorem Hub.setCtx_host (h : Hub) (c : Nat) (x : Ctx) : (h.setCtx c x).host = h.host := rfl
@[simp] theorem Hub.setCtx_tim (h : Hub) (c : Nat) (x : Ctx) : (h.setCtx c x).tim = h.tim := rfl
@[simp] theorem Hub.setCtx_twin (h : Hub) (c : Nat) (x : Ctx) : (h.setCtx c x).twin = h.twin := rfl
@[simp] theorem Hub.setCtx_ring (h : Hub) (c : Nat) (x : Ctx) : (h.setCtx c x).ring = h.ring := rfl
@[simp] theorem Hub.setCtx_swc (h : Hub) (c : Nat) (x : Ctx) : (h.setCtx c x).swc = h.swc := rfl
@[simp] theorem Hub.setCtx_tm (h : Hub) (c : Nat) (x : Ctx) : (h.setCtx c x).tm = h.tm := rfl
@[simp] theorem Hub.setCtx_chk (h : Hub) (c : Nat) (x : Ctx) : (h.setCtx c x).chk = h.chk := rfl
@[simp] theorem Hub.setCtx_pt (h : Hub) (c : Nat) (x : Ctx) : (h.setCtx c x).pt = h.pt := rfl
@[simp] theorem Hub.setCtx_ln (h : Hub) (c : Nat) (x : Ctx) : (h.setCtx c x).ln = h.ln := rfl
@[simp] theorem Hub.setCtx_fret (h : Hub) (c : Nat) (x : Ctx) : (h.setCtx c x).fret = h.fret := rfl
@[simp] theorem Hub.setCtx_can (h : Hub) (c : Nat) (x : Ctx) : (h.setCtx c x).can = h.can := rfl
@[simp] theorem Hub.setCtx_usb (h : Hub) (c : Nat) (x : Ctx) : (h.setCtx c x).usb = h.usb := rfl
@[simp] theorem Hub.setCtx_net (h : Hub) (c : Nat) (x : Ctx) : (h.setCtx c x).net = h.net := rfl
@[simp] theorem Hub.setCtx_start (h : Hub) (c : Nat) (x : Ctx) : (h.setCtx c x).start = h.start := rfl
@[simp] theorem Hub.setCtx_car_prog (h : Hub) (c : Nat) (x : Ctx) : (h.setCtx c x).car.prog = h.car.prog := rfl
@[simp] theorem Hub.setCtx_car_data (h : Hub) (c : Nat) (x : Ctx) : (h.setCtx c x).car.data = h.car.data := rfl
@[simp] theorem Hub.setCtx_car_scratch (h : Hub) (c : Nat) (x : Ctx) : (h.setCtx c x).car.scratch = h.car.scratch := rfl
@[simp] theorem Hub.setCtx_car_bad (h : Hub) (c : Nat) (x : Ctx) : (h.setCtx c x).car.bad = h.car.bad := rfl
@[simp] theorem Hub.setCtx_car_bankB (h : Hub) (c : Nat) (x : Ctx) : (h.setCtx c x).car.bankB = h.car.bankB := rfl
@[simp] theorem Hub.setCtx_car_swap (h : Hub) (c : Nat) (x : Ctx) : (h.setCtx c x).car.swap = h.car.swap := rfl
@[simp] theorem Hub.setCtx_car_withheld (h : Hub) (c : Nat) (x : Ctx) : (h.setCtx c x).car.withheld = h.car.withheld := rfl
@[simp] theorem Hub.setCtx_car_issuedAt (h : Hub) (c : Nat) (x : Ctx) : (h.setCtx c x).car.issuedAt = h.car.issuedAt := rfl
@[simp] theorem Hub.setCtx_car_reqs (h : Hub) (c : Nat) (x : Ctx) : (h.setCtx c x).car.reqs = h.car.reqs := rfl
@[simp] theorem Hub.setCtx_car_scr (h : Hub) (c : Nat) (x : Ctx) : (h.setCtx c x).car.scr = h.car.scr := rfl
@[simp] theorem Hub.setCtx_car_commits (h : Hub) (c : Nat) (x : Ctx) : (h.setCtx c x).car.commits = h.car.commits := rfl
@[simp] theorem Hub.setCtx_car_strum (h : Hub) (c : Nat) (x : Ctx) : (h.setCtx c x).car.strum = h.car.strum := rfl
@[simp] theorem Hub.setCtx_car_k (h : Hub) (c : Nat) (x : Ctx) : (h.setCtx c x).car.k = h.car.k := rfl
@[simp] theorem Hub.setCtx_car_kNext (h : Hub) (c : Nat) (x : Ctx) : (h.setCtx c x).car.kNext = h.car.kNext := rfl
@[simp] theorem Hub.setCtx_car_produced (h : Hub) (c : Nat) (x : Ctx) : (h.setCtx c x).car.produced = h.car.produced := rfl
@[simp] theorem Hub.setCtx_car_edgeAt (h : Hub) (c : Nat) (x : Ctx) : (h.setCtx c x).car.edgeAt = h.car.edgeAt := rfl
@[simp] theorem Hub.setCtx_car_late (h : Hub) (c : Nat) (x : Ctx) : (h.setCtx c x).car.late = h.car.late := rfl
@[simp] theorem Hub.setCtx_car_digest (h : Hub) (c : Nat) (x : Ctx) : (h.setCtx c x).car.digest = h.car.digest := rfl
@[simp] theorem Hub.setCtx_car_jobOrder (h : Hub) (c : Nat) (x : Ctx) : (h.setCtx c x).car.jobOrder = h.car.jobOrder := rfl
@[simp] theorem Hub.setCtx_car_digWant (h : Hub) (c : Nat) (x : Ctx) : (h.setCtx c x).car.digWant = h.car.digWant := rfl
theorem Hub.ctx_setCtx (h : Hub) (c m : Nat) (x : Ctx) : (h.setCtx c x).ctx m = if m = c then x else h.ctx m := tget_tset _ _ _ _ _
@[simp] theorem Hub.ctx_setCtx_same (h : Hub) (c : Nat) (x : Ctx) : (h.setCtx c x).ctx c = x := tget_tset_same _ _ _ _
theorem Hub.ctx_congr {h h' : Hub} (e : h'.car.ctx = h.car.ctx) (m : Nat) : h'.ctx m = h.ctx m := by unfold Hub.ctx; rw [e]
@[simp] theorem Hub.setTag_now (h : Hub) (t : Nat) (x : Tag) : (h.setTag t x).now = h.now := rfl
@[simp] theorem Hub.setTag_regs (h : Hub) (t : Nat) (x : Tag) : (h.setTag t x).regs = h.regs := rfl
@[simp] theorem Hub.setTag_freeCtr (h : Hub) (t : Nat) (x : Tag) : (h.setTag t x).freeCtr = h.freeCtr := rfl
@[simp] theorem Hub.setTag_out (h : Hub) (t : Nat) (x : Tag) : (h.setTag t x).out = h.out := rfl
@[simp] theorem Hub.setTag_glb (h : Hub) (t : Nat) (x : Tag) : (h.setTag t x).glb = h.glb := rfl
@[simp] theorem Hub.setTag_host (h : Hub) (t : Nat) (x : Tag) : (h.setTag t x).host = h.host := rfl
@[simp] theorem Hub.setTag_tim (h : Hub) (t : Nat) (x : Tag) : (h.setTag t x).tim = h.tim := rfl
@[simp] theorem Hub.setTag_twin (h : Hub) (t : Nat) (x : Tag) : (h.setTag t x).twin = h.twin := rfl
@[simp] theorem Hub.setTag_ring (h : Hub) (t : Nat) (x : Tag) : (h.setTag t x).ring = h.ring := rfl
@[simp] theorem Hub.setTag_swc (h : Hub) (t : Nat) (x : Tag) : (h.setTag t x).swc = h.swc := rfl
@[simp] theorem Hub.setTag_tm (h : Hub) (t : Nat) (x : Tag) : (h.setTag t x).tm = h.tm := rfl
@[simp] theorem Hub.setTag_chk (h : Hub) (t : Nat) (x : Tag) : (h.setTag t x).chk = h.chk := rfl
@[simp] theorem Hub.setTag_car (h : Hub) (t : Nat) (x : Tag) : (h.setTag t x).car = h.car := rfl
@[simp] theorem Hub.setTag_ln (h : Hub) (t : Nat) (x : Tag) : (h.setTag t x).ln = h.ln := rfl
@[simp] theorem Hub.setTag_fret (h : Hub) (t : Nat) (x : Tag) : (h.setTag t x).fret = h.fret := rfl
@[simp] theorem Hub.setTag_can (h : Hub) (t : Nat) (x : Tag) : (h.setTag t x).can = h.can := rfl
@[simp] theorem Hub.setTag_usb (h : Hub) (t : Nat) (x : Tag) : (h.setTag t x).usb = h.usb := rfl
@[simp] theorem Hub.setTag_net (h : Hub) (t : Nat) (x : Tag) : (h.setTag t x).net = h.net := rfl
@[simp] theorem Hub.setTag_start (h : Hub) (t : Nat) (x : Tag) : (h.setTag t x).start = h.start := rfl
@[simp] theorem Hub.setTag_pt_pts (h : Hub) (t : Nat) (x : Tag) : (h.setTag t x).pt.pts = h.pt.pts := rfl
@[simp] theorem Hub.setTag_pt_mir (h : Hub) (t : Nat) (x : Tag) : (h.setTag t x).pt.mir = h.pt.mir := rfl
@[simp] theorem Hub.setTag_pt_sub (h : Hub) (t : Nat) (x : Tag) : (h.setTag t x).pt.sub = h.pt.sub := rfl
@[simp] theorem Hub.setTag_pt_fresh (h : Hub) (t : Nat) (x : Tag) : (h.setTag t x).pt.fresh = h.pt.fresh := rfl
@[simp] theorem Hub.setTag_pt_wrote (h : Hub) (t : Nat) (x : Tag) : (h.setTag t x).pt.wrote = h.pt.wrote := rfl
@[simp] theorem Hub.setTag_pt_wroteAt (h : Hub) (t : Nat) (x : Tag) : (h.setTag t x).pt.wroteAt = h.pt.wroteAt := rfl
@[simp] theorem Hub.setTag_pt_mapPend (h : Hub) (t : Nat) (x : Tag) : (h.setTag t x).pt.mapPend = h.pt.mapPend := rfl
@[simp] theorem Hub.setTag_pt_mapLoaded (h : Hub) (t : Nat) (x : Tag) : (h.setTag t x).pt.mapLoaded = h.pt.mapLoaded := rfl
@[simp] theorem Hub.setTag_pt_mapLast (h : Hub) (t : Nat) (x : Tag) : (h.setTag t x).pt.mapLast = h.pt.mapLast := rfl
@[simp] theorem Hub.setTag_pt_w2latch (h : Hub) (t : Nat) (x : Tag) : (h.setTag t x).pt.w2latch = h.pt.w2latch := rfl
@[simp] theorem Hub.setTag_pt_view (h : Hub) (t : Nat) (x : Tag) : (h.setTag t x).pt.view = h.pt.view := rfl
@[simp] theorem Hub.setTag_pt_inbox (h : Hub) (t : Nat) (x : Tag) : (h.setTag t x).pt.inbox = h.pt.inbox := rfl
@[simp] theorem Hub.setTag_pt_guardFails (h : Hub) (t : Nat) (x : Tag) : (h.setTag t x).pt.guardFails = h.pt.guardFails := rfl
theorem Hub.tag_setTag (h : Hub) (t m : Nat) (x : Tag) : (h.setTag t x).tag m = if m = t then x else h.tag m := tget_tset _ _ _ _ _
@[simp] theorem Hub.tag_setTag_same (h : Hub) (t : Nat) (x : Tag) : (h.setTag t x).tag t = x := tget_tset_same _ _ _ _
theorem Hub.tag_congr {h h' : Hub} (e : h'.pt.tags = h.pt.tags) (m : Nat) : h'.tag m = h.tag m := by unfold Hub.tag; rw [e]
@[simp] theorem Hub.setSlot_now (h : Hub) (i : Nat) (x : Rec) : (h.setSlot i x).now = h.now := rfl
@[simp] theorem Hub.setSlot_regs (h : Hub) (i : Nat) (x : Rec) : (h.setSlot i x).regs = h.regs := rfl
@[simp] theorem Hub.setSlot_freeCtr (h : Hub) (i : Nat) (x : Rec) : (h.setSlot i x).freeCtr = h.freeCtr := rfl
@[simp] theorem Hub.setSlot_out (h : Hub) (i : Nat) (x : Rec) : (h.setSlot i x).out = h.out := rfl
@[simp] theorem Hub.setSlot_glb (h : Hub) (i : Nat) (x : Rec) : (h.setSlot i x).glb = h.glb := rfl
@[simp] theorem Hub.setSlot_host (h : Hub) (i : Nat) (x : Rec) : (h.setSlot i x).host = h.host := rfl
@[simp] theorem Hub.setSlot_tim (h : Hub) (i : Nat) (x : Rec) : (h.setSlot i x).tim = h.tim := rfl
@[simp] theorem Hub.setSlot_twin (h : Hub) (i : Nat) (x : Rec) : (h.setSlot i x).twin = h.twin := rfl
@[simp] theorem Hub.setSlot_ring (h : Hub) (i : Nat) (x : Rec) : (h.setSlot i x).ring = h.ring := rfl
@[simp] theorem Hub.setSlot_swc (h : Hub) (i : Nat) (x : Rec) : (h.setSlot i x).swc = h.swc := rfl
@[simp] theorem Hub.setSlot_tm (h : Hub) (i : Nat) (x : Rec) : (h.setSlot i x).tm = h.tm := rfl
@[simp] theorem Hub.setSlot_chk (h : Hub) (i : Nat) (x : Rec) : (h.setSlot i x).chk = h.chk := rfl
@[simp] theorem Hub.setSlot_car (h : Hub) (i : Nat) (x : Rec) : (h.setSlot i x).car = h.car := rfl
@[simp] theorem Hub.setSlot_ln (h : Hub) (i : Nat) (x : Rec) : (h.setSlot i x).ln = h.ln := rfl
@[simp] theorem Hub.setSlot_fret (h : Hub) (i : Nat) (x : Rec) : (h.setSlot i x).fret = h.fret := rfl
@[simp] theorem Hub.setSlot_can (h : Hub) (i : Nat) (x : Rec) : (h.setSlot i x).can = h.can := rfl
@[simp] theorem Hub.setSlot_usb (h : Hub) (i : Nat) (x : Rec) : (h.setSlot i x).usb = h.usb := rfl
@[simp] theorem Hub.setSlot_net (h : Hub) (i : Nat) (x : Rec) : (h.setSlot i x).net = h.net := rfl
@[simp] theorem Hub.setSlot_start (h : Hub) (i : Nat) (x : Rec) : (h.setSlot i x).start = h.start := rfl
@[simp] theorem Hub.setSlot_pt_mir (h : Hub) (i : Nat) (x : Rec) : (h.setSlot i x).pt.mir = h.pt.mir := rfl
@[simp] theorem Hub.setSlot_pt_sub (h : Hub) (i : Nat) (x : Rec) : (h.setSlot i x).pt.sub = h.pt.sub := rfl
@[simp] theorem Hub.setSlot_pt_fresh (h : Hub) (i : Nat) (x : Rec) : (h.setSlot i x).pt.fresh = h.pt.fresh := rfl
@[simp] theorem Hub.setSlot_pt_wrote (h : Hub) (i : Nat) (x : Rec) : (h.setSlot i x).pt.wrote = h.pt.wrote := rfl
@[simp] theorem Hub.setSlot_pt_wroteAt (h : Hub) (i : Nat) (x : Rec) : (h.setSlot i x).pt.wroteAt = h.pt.wroteAt := rfl
@[simp] theorem Hub.setSlot_pt_tags (h : Hub) (i : Nat) (x : Rec) : (h.setSlot i x).pt.tags = h.pt.tags := rfl
@[simp] theorem Hub.setSlot_pt_mapPend (h : Hub) (i : Nat) (x : Rec) : (h.setSlot i x).pt.mapPend = h.pt.mapPend := rfl
@[simp] theorem Hub.setSlot_pt_mapLoaded (h : Hub) (i : Nat) (x : Rec) : (h.setSlot i x).pt.mapLoaded = h.pt.mapLoaded := rfl
@[simp] theorem Hub.setSlot_pt_mapLast (h : Hub) (i : Nat) (x : Rec) : (h.setSlot i x).pt.mapLast = h.pt.mapLast := rfl
@[simp] theorem Hub.setSlot_pt_w2latch (h : Hub) (i : Nat) (x : Rec) : (h.setSlot i x).pt.w2latch = h.pt.w2latch := rfl
@[simp] theorem Hub.setSlot_pt_view (h : Hub) (i : Nat) (x : Rec) : (h.setSlot i x).pt.view = h.pt.view := rfl
@[simp] theorem Hub.setSlot_pt_inbox (h : Hub) (i : Nat) (x : Rec) : (h.setSlot i x).pt.inbox = h.pt.inbox := rfl
@[simp] theorem Hub.setSlot_pt_guardFails (h : Hub) (i : Nat) (x : Rec) : (h.setSlot i x).pt.guardFails = h.pt.guardFails := rfl
theorem Hub.slot_setSlot (h : Hub) (i m : Nat) (x : Rec) : (h.setSlot i x).slot m = if m = i then x else h.slot m := tget_tset _ _ _ _ _
@[simp] theorem Hub.slot_setSlot_same (h : Hub) (i : Nat) (x : Rec) : (h.setSlot i x).slot i = x := tget_tset_same _ _ _ _
theorem Hub.slot_congr {h h' : Hub} (e : h'.pt.pts = h.pt.pts) (m : Nat) : h'.slot m = h.slot m := by unfold Hub.slot; rw [e]
@[simp] theorem Hub.setMirE_now (h : Hub) (i : Nat) (x : Rec) : (h.setMirE i x).now = h.now := rfl
@[simp] theorem Hub.setMirE_regs (h : Hub) (i : Nat) (x : Rec) : (h.setMirE i x).regs = h.regs := rfl
@[simp] theorem Hub.setMirE_freeCtr (h : Hub) (i : Nat) (x : Rec) : (h.setMirE i x).freeCtr = h.freeCtr := rfl
@[simp] theorem Hub.setMirE_out (h : Hub) (i : Nat) (x : Rec) : (h.setMirE i x).out = h.out := rfl
@[simp] theorem Hub.setMirE_glb (h : Hub) (i : Nat) (x : Rec) : (h.setMirE i x).glb = h.glb := rfl
@[simp] theorem Hub.setMirE_host (h : Hub) (i : Nat) (x : Rec) : (h.setMirE i x).host = h.host := rfl
@[simp] theorem Hub.setMirE_tim (h : Hub) (i : Nat) (x : Rec) : (h.setMirE i x).tim = h.tim := rfl
@[simp] theorem Hub.setMirE_twin (h : Hub) (i : Nat) (x : Rec) : (h.setMirE i x).twin = h.twin := rfl
@[simp] theorem Hub.setMirE_ring (h : Hub) (i : Nat) (x : Rec) : (h.setMirE i x).ring = h.ring := rfl
@[simp] theorem Hub.setMirE_swc (h : Hub) (i : Nat) (x : Rec) : (h.setMirE i x).swc = h.swc := rfl
@[simp] theorem Hub.setMirE_tm (h : Hub) (i : Nat) (x : Rec) : (h.setMirE i x).tm = h.tm := rfl
@[simp] theorem Hub.setMirE_chk (h : Hub) (i : Nat) (x : Rec) : (h.setMirE i x).chk = h.chk := rfl
@[simp] theorem Hub.setMirE_car (h : Hub) (i : Nat) (x : Rec) : (h.setMirE i x).car = h.car := rfl
@[simp] theorem Hub.setMirE_ln (h : Hub) (i : Nat) (x : Rec) : (h.setMirE i x).ln = h.ln := rfl
@[simp] theorem Hub.setMirE_fret (h : Hub) (i : Nat) (x : Rec) : (h.setMirE i x).fret = h.fret := rfl
@[simp] theorem Hub.setMirE_can (h : Hub) (i : Nat) (x : Rec) : (h.setMirE i x).can = h.can := rfl
@[simp] theorem Hub.setMirE_usb (h : Hub) (i : Nat) (x : Rec) : (h.setMirE i x).usb = h.usb := rfl
@[simp] theorem Hub.setMirE_net (h : Hub) (i : Nat) (x : Rec) : (h.setMirE i x).net = h.net := rfl
@[simp] theorem Hub.setMirE_start (h : Hub) (i : Nat) (x : Rec) : (h.setMirE i x).start = h.start := rfl
@[simp] theorem Hub.setMirE_pt_pts (h : Hub) (i : Nat) (x : Rec) : (h.setMirE i x).pt.pts = h.pt.pts := rfl
@[simp] theorem Hub.setMirE_pt_sub (h : Hub) (i : Nat) (x : Rec) : (h.setMirE i x).pt.sub = h.pt.sub := rfl
@[simp] theorem Hub.setMirE_pt_fresh (h : Hub) (i : Nat) (x : Rec) : (h.setMirE i x).pt.fresh = h.pt.fresh := rfl
@[simp] theorem Hub.setMirE_pt_wrote (h : Hub) (i : Nat) (x : Rec) : (h.setMirE i x).pt.wrote = h.pt.wrote := rfl
@[simp] theorem Hub.setMirE_pt_wroteAt (h : Hub) (i : Nat) (x : Rec) : (h.setMirE i x).pt.wroteAt = h.pt.wroteAt := rfl
@[simp] theorem Hub.setMirE_pt_tags (h : Hub) (i : Nat) (x : Rec) : (h.setMirE i x).pt.tags = h.pt.tags := rfl
@[simp] theorem Hub.setMirE_pt_mapPend (h : Hub) (i : Nat) (x : Rec) : (h.setMirE i x).pt.mapPend = h.pt.mapPend := rfl
@[simp] theorem Hub.setMirE_pt_mapLoaded (h : Hub) (i : Nat) (x : Rec) : (h.setMirE i x).pt.mapLoaded = h.pt.mapLoaded := rfl
@[simp] theorem Hub.setMirE_pt_mapLast (h : Hub) (i : Nat) (x : Rec) : (h.setMirE i x).pt.mapLast = h.pt.mapLast := rfl
@[simp] theorem Hub.setMirE_pt_w2latch (h : Hub) (i : Nat) (x : Rec) : (h.setMirE i x).pt.w2latch = h.pt.w2latch := rfl
@[simp] theorem Hub.setMirE_pt_view (h : Hub) (i : Nat) (x : Rec) : (h.setMirE i x).pt.view = h.pt.view := rfl
@[simp] theorem Hub.setMirE_pt_inbox (h : Hub) (i : Nat) (x : Rec) : (h.setMirE i x).pt.inbox = h.pt.inbox := rfl
@[simp] theorem Hub.setMirE_pt_guardFails (h : Hub) (i : Nat) (x : Rec) : (h.setMirE i x).pt.guardFails = h.pt.guardFails := rfl
theorem Hub.mirE_setMirE (h : Hub) (i m : Nat) (x : Rec) : (h.setMirE i x).mirE m = if m = i then x else h.mirE m := tget_tset _ _ _ _ _
@[simp] theorem Hub.mirE_setMirE_same (h : Hub) (i : Nat) (x : Rec) : (h.setMirE i x).mirE i = x := tget_tset_same _ _ _ _
theorem Hub.mirE_congr {h h' : Hub} (e : h'.pt.mir = h.pt.mir) (m : Nat) : h'.mirE m = h.mirE m := by unfold Hub.mirE; rw [e]
@[simp] theorem Hub.setSub_now (h : Hub) (i : Nat) (x : SubState) : (h.setSub i x).now = h.now := rfl
@[simp] theorem Hub.setSub_regs (h : Hub) (i : Nat) (x : SubState) : (h.setSub i x).regs = h.regs := rfl
@[simp] theorem Hub.setSub_freeCtr (h : Hub) (i : Nat) (x : SubState) : (h.setSub i x).freeCtr = h.freeCtr := rfl
@[simp] theorem Hub.setSub_out (h : Hub) (i : Nat) (x : SubState) : (h.setSub i x).out = h.out := rfl
@[simp] theorem Hub.setSub_glb (h : Hub) (i : Nat) (x : SubState) : (h.setSub i x).glb = h.glb := rfl
@[simp] theorem Hub.setSub_host (h : Hub) (i : Nat) (x : SubState) : (h.setSub i x).host = h.host := rfl
@[simp] theorem Hub.setSub_tim (h : Hub) (i : Nat) (x : SubState) : (h.setSub i x).tim = h.tim := rfl
@[simp] theorem Hub.setSub_twin (h : Hub) (i : Nat) (x : SubState) : (h.setSub i x).twin = h.twin := rfl
@[simp] theorem Hub.setSub_ring (h : Hub) (i : Nat) (x : SubState) : (h.setSub i x).ring = h.ring := rfl
@[simp] theorem Hub.setSub_swc (h : Hub) (i : Nat) (x : SubState) : (h.setSub i x).swc = h.swc := rfl
@[simp] theorem Hub.setSub_tm (h : Hub) (i : Nat) (x : SubState) : (h.setSub i x).tm = h.tm := rfl
@[simp] theorem Hub.setSub_chk (h : Hub) (i : Nat) (x : SubState) : (h.setSub i x).chk = h.chk := rfl
@[simp] theorem Hub.setSub_car (h : Hub) (i : Nat) (x : SubState) : (h.setSub i x).car = h.car := rfl
@[simp] theorem Hub.setSub_ln (h : Hub) (i : Nat) (x : SubState) : (h.setSub i x).ln = h.ln := rfl
@[simp] theorem Hub.setSub_fret (h : Hub) (i : Nat) (x : SubState) : (h.setSub i x).fret = h.fret := rfl
@[simp] theorem Hub.setSub_can (h : Hub) (i : Nat) (x : SubState) : (h.setSub i x).can = h.can := rfl
@[simp] theorem Hub.setSub_usb (h : Hub) (i : Nat) (x : SubState) : (h.setSub i x).usb = h.usb := rfl
@[simp] theorem Hub.setSub_net (h : Hub) (i : Nat) (x : SubState) : (h.setSub i x).net = h.net := rfl
@[simp] theorem Hub.setSub_start (h : Hub) (i : Nat) (x : SubState) : (h.setSub i x).start = h.start := rfl
@[simp] theorem Hub.setSub_pt_pts (h : Hub) (i : Nat) (x : SubState) : (h.setSub i x).pt.pts = h.pt.pts := rfl
@[simp] theorem Hub.setSub_pt_mir (h : Hub) (i : Nat) (x : SubState) : (h.setSub i x).pt.mir = h.pt.mir := rfl
@[simp] theorem Hub.setSub_pt_fresh (h : Hub) (i : Nat) (x : SubState) : (h.setSub i x).pt.fresh = h.pt.fresh := rfl
@[simp] theorem Hub.setSub_pt_wrote (h : Hub) (i : Nat) (x : SubState) : (h.setSub i x).pt.wrote = h.pt.wrote := rfl
@[simp] theorem Hub.setSub_pt_wroteAt (h : Hub) (i : Nat) (x : SubState) : (h.setSub i x).pt.wroteAt = h.pt.wroteAt := rfl
@[simp] theorem Hub.setSub_pt_tags (h : Hub) (i : Nat) (x : SubState) : (h.setSub i x).pt.tags = h.pt.tags := rfl
@[simp] theorem Hub.setSub_pt_mapPend (h : Hub) (i : Nat) (x : SubState) : (h.setSub i x).pt.mapPend = h.pt.mapPend := rfl
@[simp] theorem Hub.setSub_pt_mapLoaded (h : Hub) (i : Nat) (x : SubState) : (h.setSub i x).pt.mapLoaded = h.pt.mapLoaded := rfl
@[simp] theorem Hub.setSub_pt_mapLast (h : Hub) (i : Nat) (x : SubState) : (h.setSub i x).pt.mapLast = h.pt.mapLast := rfl
@[simp] theorem Hub.setSub_pt_w2latch (h : Hub) (i : Nat) (x : SubState) : (h.setSub i x).pt.w2latch = h.pt.w2latch := rfl
@[simp] theorem Hub.setSub_pt_view (h : Hub) (i : Nat) (x : SubState) : (h.setSub i x).pt.view = h.pt.view := rfl
@[simp] theorem Hub.setSub_pt_inbox (h : Hub) (i : Nat) (x : SubState) : (h.setSub i x).pt.inbox = h.pt.inbox := rfl
@[simp] theorem Hub.setSub_pt_guardFails (h : Hub) (i : Nat) (x : SubState) : (h.setSub i x).pt.guardFails = h.pt.guardFails := rfl
theorem Hub.subSt_setSub (h : Hub) (i m : Nat) (x : SubState) : (h.setSub i x).subSt m = if m = i then x else h.subSt m := tget_tset _ _ _ _ _
@[simp] theorem Hub.subSt_setSub_same (h : Hub) (i : Nat) (x : SubState) : (h.setSub i x).subSt i = x := tget_tset_same _ _ _ _
theorem Hub.subSt_congr {h h' : Hub} (e : h'.pt.sub = h.pt.sub) (m : Nat) : h'.subSt m = h.subSt m := by unfold Hub.subSt; rw [e]
@[simp] theorem Hub.setTb_now (h : Hub) (b : Nat) (x : TimeBase) : (h.setTb b x).now = h.now := rfl
@[simp] theorem Hub.setTb_regs (h : Hub) (b : Nat) (x : TimeBase) : (h.setTb b x).regs = h.regs := rfl
@[simp] theorem Hub.setTb_freeCtr (h : Hub) (b : Nat) (x : TimeBase) : (h.setTb b x).freeCtr = h.freeCtr := rfl
@[simp] theorem Hub.setTb_out (h : Hub) (b : Nat) (x : TimeBase) : (h.setTb b x).out = h.out := rfl
@[simp] theorem Hub.setTb_glb (h : Hub) (b : Nat) (x : TimeBase) : (h.setTb b x).glb = h.glb := rfl
@[simp] theorem Hub.setTb_host (h : Hub) (b : Nat) (x : TimeBase) : (h.setTb b x).host = h.host := rfl
@[simp] theorem Hub.setTb_twin (h : Hub) (b : Nat) (x : TimeBase) : (h.setTb b x).twin = h.twin := rfl
@[simp] theorem Hub.setTb_ring (h : Hub) (b : Nat) (x : TimeBase) : (h.setTb b x).ring = h.ring := rfl
@[simp] theorem Hub.setTb_swc (h : Hub) (b : Nat) (x : TimeBase) : (h.setTb b x).swc = h.swc := rfl
@[simp] theorem Hub.setTb_tm (h : Hub) (b : Nat) (x : TimeBase) : (h.setTb b x).tm = h.tm := rfl
@[simp] theorem Hub.setTb_chk (h : Hub) (b : Nat) (x : TimeBase) : (h.setTb b x).chk = h.chk := rfl
@[simp] theorem Hub.setTb_pt (h : Hub) (b : Nat) (x : TimeBase) : (h.setTb b x).pt = h.pt := rfl
@[simp] theorem Hub.setTb_car (h : Hub) (b : Nat) (x : TimeBase) : (h.setTb b x).car = h.car := rfl
@[simp] theorem Hub.setTb_ln (h : Hub) (b : Nat) (x : TimeBase) : (h.setTb b x).ln = h.ln := rfl
@[simp] theorem Hub.setTb_fret (h : Hub) (b : Nat) (x : TimeBase) : (h.setTb b x).fret = h.fret := rfl
@[simp] theorem Hub.setTb_can (h : Hub) (b : Nat) (x : TimeBase) : (h.setTb b x).can = h.can := rfl
@[simp] theorem Hub.setTb_usb (h : Hub) (b : Nat) (x : TimeBase) : (h.setTb b x).usb = h.usb := rfl
@[simp] theorem Hub.setTb_net (h : Hub) (b : Nat) (x : TimeBase) : (h.setTb b x).net = h.net := rfl
@[simp] theorem Hub.setTb_start (h : Hub) (b : Nat) (x : TimeBase) : (h.setTb b x).start = h.start := rfl
@[simp] theorem Hub.setTb_tim_evq (h : Hub) (b : Nat) (x : TimeBase) : (h.setTb b x).tim.evq = h.tim.evq := rfl
@[simp] theorem Hub.setTb_tim_evHalf (h : Hub) (b : Nat) (x : TimeBase) : (h.setTb b x).tim.evHalf = h.tim.evHalf := rfl
@[simp] theorem Hub.setTb_tim_evLoss (h : Hub) (b : Nat) (x : TimeBase) : (h.setTb b x).tim.evLoss = h.tim.evLoss := rfl
@[simp] theorem Hub.setTb_tim_evc (h : Hub) (b : Nat) (x : TimeBase) : (h.setTb b x).tim.evc = h.tim.evc := rfl
@[simp] theorem Hub.setTb_tim_caught (h : Hub) (b : Nat) (x : TimeBase) : (h.setTb b x).tim.caught = h.tim.caught := rfl
@[simp] theorem Hub.setTb_tim_pulse (h : Hub) (b : Nat) (x : TimeBase) : (h.setTb b x).tim.pulse = h.tim.pulse := rfl
@[simp] theorem Hub.setTb_tim_pdReq (h : Hub) (b : Nat) (x : TimeBase) : (h.setTb b x).tim.pdReq = h.tim.pdReq := rfl
theorem Hub.tb_setTb (h : Hub) (b m : Nat) (x : TimeBase) : (h.setTb b x).tb m = if m = b then x else h.tb m := tget_tset _ _ _ _ _
@[simp] theorem Hub.tb_setTb_same (h : Hub) (b : Nat) (x : TimeBase) : (h.setTb b x).tb b = x := tget_tset_same _ _ _ _
theorem Hub.tb_congr {h h' : Hub} (e : h'.tim.base = h.tim.base) (m : Nat) : h'.tb m = h.tb m := by unfold Hub.tb; rw [e]
@[simp] theorem Hub.setRport_now (h : Hub) (p : Nat) (x : RPort) : (h.setRport p x).now = h.now := rfl
@[simp] theorem Hub.setRport_regs (h : Hub) (p : Nat) (x : RPort) : (h.setRport p x).regs = h.regs := rfl
@[simp] theorem Hub.setRport_freeCtr (h : Hub) (p : Nat) (x : RPort) : (h.setRport p x).freeCtr = h.freeCtr := rfl
@[simp] theorem Hub.setRport_out (h : Hub) (p : Nat) (x : RPort) : (h.setRport p x).out = h.out := rfl
@[simp] theorem Hub.setRport_glb (h : Hub) (p : Nat) (x : RPort) : (h.setRport p x).glb = h.glb := rfl
@[simp] theorem Hub.setRport_host (h : Hub) (p : Nat) (x : RPort) : (h.setRport p x).host = h.host := rfl
@[simp] theorem Hub.setRport_tim (h : Hub) (p : Nat) (x : RPort) : (h.setRport p x).tim = h.tim := rfl
@[simp] theorem Hub.setRport_twin (h : Hub) (p : Nat) (x : RPort) : (h.setRport p x).twin = h.twin := rfl
@[simp] theorem Hub.setRport_swc (h : Hub) (p : Nat) (x : RPort) : (h.setRport p x).swc = h.swc := rfl
@[simp] theorem Hub.setRport_tm (h : Hub) (p : Nat) (x : RPort) : (h.setRport p x).tm = h.tm := rfl
@[simp] theorem Hub.setRport_chk (h : Hub) (p : Nat) (x : RPort) : (h.setRport p x).chk = h.chk := rfl
@[simp] theorem Hub.setRport_pt (h : Hub) (p : Nat) (x : RPort) : (h.setRport p x).pt = h.pt := rfl
@[simp] theorem Hub.setRport_car (h : Hub) (p : Nat) (x : RPort) : (h.setRport p x).car = h.car := rfl
@[simp] theorem Hub.setRport_ln (h : Hub) (p : Nat) (x : RPort) : (h.setRport p x).ln = h.ln := rfl
@[simp] theorem Hub.setRport_fret (h : Hub) (p : Nat) (x : RPort) : (h.setRport p x).fret = h.fret := rfl
@[simp] theorem Hub.setRport_can (h : Hub) (p : Nat) (x : RPort) : (h.setRport p x).can = h.can := rfl
@[simp] theorem Hub.setRport_usb (h : Hub) (p : Nat) (x : RPort) : (h.setRport p x).usb = h.usb := rfl
@[simp] theorem Hub.setRport_net (h : Hub) (p : Nat) (x : RPort) : (h.setRport p x).net = h.net := rfl
@[simp] theorem Hub.setRport_start (h : Hub) (p : Nat) (x : RPort) : (h.setRport p x).start = h.start := rfl
@[simp] theorem Hub.setRport_ring_addr (h : Hub) (p : Nat) (x : RPort) : (h.setRport p x).ring.addr = h.ring.addr := rfl
@[simp] theorem Hub.setRport_ring_strapped (h : Hub) (p : Nat) (x : RPort) : (h.setRport p x).ring.strapped = h.ring.strapped := rfl
@[simp] theorem Hub.setRport_ring_leader (h : Hub) (p : Nat) (x : RPort) : (h.setRport p x).ring.leader = h.ring.leader := rfl
@[simp] theorem Hub.setRport_ring_quiet (h : Hub) (p : Nat) (x : RPort) : (h.setRport p x).ring.quiet = h.ring.quiet := rfl
@[simp] theorem Hub.setRport_ring_holdoff (h : Hub) (p : Nat) (x : RPort) : (h.setRport p x).ring.holdoff = h.ring.holdoff := rfl
@[simp] theorem Hub.setRport_ring_upAt (h : Hub) (p : Nat) (x : RPort) : (h.setRport p x).ring.upAt = h.ring.upAt := rfl
@[simp] theorem Hub.setRport_ring_firstUp (h : Hub) (p : Nat) (x : RPort) : (h.setRport p x).ring.firstUp = h.ring.firstUp := rfl
@[simp] theorem Hub.setRport_ring_gen (h : Hub) (p : Nat) (x : RPort) : (h.setRport p x).ring.gen = h.ring.gen := rfl
@[simp] theorem Hub.setRport_ring_leaderAddr (h : Hub) (p : Nat) (x : RPort) : (h.setRport p x).ring.leaderAddr = h.ring.leaderAddr := rfl
@[simp] theorem Hub.setRport_ring_state (h : Hub) (p : Nat) (x : RPort) : (h.setRport p x).ring.state = h.ring.state := rfl
@[simp] theorem Hub.setRport_ring_nodes (h : Hub) (p : Nat) (x : RPort) : (h.setRport p x).ring.nodes = h.ring.nodes := rfl
@[simp] theorem Hub.setRport_ring_src (h : Hub) (p : Nat) (x : RPort) : (h.setRport p x).ring.src = h.ring.src := rfl
@[simp] theorem Hub.setRport_ring_dd0 (h : Hub) (p : Nat) (x : RPort) : (h.setRport p x).ring.dd0 = h.ring.dd0 := rfl
@[simp] theorem Hub.setRport_ring_dd1 (h : Hub) (p : Nat) (x : RPort) : (h.setRport p x).ring.dd1 = h.ring.dd1 := rfl
@[simp] theorem Hub.setRport_ring_seq (h : Hub) (p : Nat) (x : RPort) : (h.setRport p x).ring.seq = h.ring.seq := rfl
@[simp] theorem Hub.setRport_ring_hsrSeq (h : Hub) (p : Nat) (x : RPort) : (h.setRport p x).ring.hsrSeq = h.ring.hsrSeq := rfl
@[simp] theorem Hub.setRport_ring_survey (h : Hub) (p : Nat) (x : RPort) : (h.setRport p x).ring.survey = h.ring.survey := rfl
@[simp] theorem Hub.setRport_ring_away (h : Hub) (p : Nat) (x : RPort) : (h.setRport p x).ring.away = h.ring.away := rfl
@[simp] theorem Hub.setRport_ring_led (h : Hub) (p : Nat) (x : RPort) : (h.setRport p x).ring.led = h.ring.led := rfl
@[simp] theorem Hub.setRport_ring_joined (h : Hub) (p : Nat) (x : RPort) : (h.setRport p x).ring.joined = h.ring.joined := rfl
@[simp] theorem Hub.setRport_ring_relaunchAt (h : Hub) (p : Nat) (x : RPort) : (h.setRport p x).ring.relaunchAt = h.ring.relaunchAt := rfl
@[simp] theorem Hub.setRport_ring_paradeSeen (h : Hub) (p : Nat) (x : RPort) : (h.setRport p x).ring.paradeSeen = h.ring.paradeSeen := rfl
@[simp] theorem Hub.setRport_ring_cmds (h : Hub) (p : Nat) (x : RPort) : (h.setRport p x).ring.cmds = h.ring.cmds := rfl
theorem Hub.rport_setRport (h : Hub) (p m : Nat) (x : RPort) : (h.setRport p x).rport m = if m = p then x else h.rport m := tget_tset _ _ _ _ _
@[simp] theorem Hub.rport_setRport_same (h : Hub) (p : Nat) (x : RPort) : (h.setRport p x).rport p = x := tget_tset_same _ _ _ _
theorem Hub.rport_congr {h h' : Hub} (e : h'.ring.port = h.ring.port) (m : Nat) : h'.rport m = h.rport m := by unfold Hub.rport; rw [e]
@[simp] theorem Hub.setSource_now (h : Hub) (n : Nat) (x : SrcState) : (h.setSource n x).now = h.now := rfl
@[simp] theorem Hub.setSource_regs (h : Hub) (n : Nat) (x : SrcState) : (h.setSource n x).regs = h.regs := rfl
@[simp] theorem Hub.setSource_freeCtr (h : Hub) (n : Nat) (x : SrcState) : (h.setSource n x).freeCtr = h.freeCtr := rfl
@[simp] theorem Hub.setSource_out (h : Hub) (n : Nat) (x : SrcState) : (h.setSource n x).out = h.out := rfl
@[simp] theorem Hub.setSource_glb (h : Hub) (n : Nat) (x : SrcState) : (h.setSource n x).glb = h.glb := rfl
@[simp] theorem Hub.setSource_host (h : Hub) (n : Nat) (x : SrcState) : (h.setSource n x).host = h.host := rfl
@[simp] theorem Hub.setSource_tim (h : Hub) (n : Nat) (x : SrcState) : (h.setSource n x).tim = h.tim := rfl
@[simp] theorem Hub.setSource_twin (h : Hub) (n : Nat) (x : SrcState) : (h.setSource n x).twin = h.twin := rfl
@[simp] theorem Hub.setSource_swc (h : Hub) (n : Nat) (x : SrcState) : (h.setSource n x).swc = h.swc := rfl
@[simp] theorem Hub.setSource_tm (h : Hub) (n : Nat) (x : SrcState) : (h.setSource n x).tm = h.tm := rfl
@[simp] theorem Hub.setSource_chk (h : Hub) (n : Nat) (x : SrcState) : (h.setSource n x).chk = h.chk := rfl
@[simp] theorem Hub.setSource_pt (h : Hub) (n : Nat) (x : SrcState) : (h.setSource n x).pt = h.pt := rfl
@[simp] theorem Hub.setSource_car (h : Hub) (n : Nat) (x : SrcState) : (h.setSource n x).car = h.car := rfl
@[simp] theorem Hub.setSource_ln (h : Hub) (n : Nat) (x : SrcState) : (h.setSource n x).ln = h.ln := rfl
@[simp] theorem Hub.setSource_fret (h : Hub) (n : Nat) (x : SrcState) : (h.setSource n x).fret = h.fret := rfl
@[simp] theorem Hub.setSource_can (h : Hub) (n : Nat) (x : SrcState) : (h.setSource n x).can = h.can := rfl
@[simp] theorem Hub.setSource_usb (h : Hub) (n : Nat) (x : SrcState) : (h.setSource n x).usb = h.usb := rfl
@[simp] theorem Hub.setSource_net (h : Hub) (n : Nat) (x : SrcState) : (h.setSource n x).net = h.net := rfl
@[simp] theorem Hub.setSource_start (h : Hub) (n : Nat) (x : SrcState) : (h.setSource n x).start = h.start := rfl
@[simp] theorem Hub.setSource_ring_port (h : Hub) (n : Nat) (x : SrcState) : (h.setSource n x).ring.port = h.ring.port := rfl
@[simp] theorem Hub.setSource_ring_addr (h : Hub) (n : Nat) (x : SrcState) : (h.setSource n x).ring.addr = h.ring.addr := rfl
@[simp] theorem Hub.setSource_ring_strapped (h : Hub) (n : Nat) (x : SrcState) : (h.setSource n x).ring.strapped = h.ring.strapped := rfl
@[simp] theorem Hub.setSource_ring_leader (h : Hub) (n : Nat) (x : SrcState) : (h.setSource n x).ring.leader = h.ring.leader := rfl
@[simp] theorem Hub.setSource_ring_quiet (h : Hub) (n : Nat) (x : SrcState) : (h.setSource n x).ring.quiet = h.ring.quiet := rfl
@[simp] theorem Hub.setSource_ring_holdoff (h : Hub) (n : Nat) (x : SrcState) : (h.setSource n x).ring.holdoff = h.ring.holdoff := rfl
@[simp] theorem Hub.setSource_ring_upAt (h : Hub) (n : Nat) (x : SrcState) : (h.setSource n x).ring.upAt = h.ring.upAt := rfl
@[simp] theorem Hub.setSource_ring_firstUp (h : Hub) (n : Nat) (x : SrcState) : (h.setSource n x).ring.firstUp = h.ring.firstUp := rfl
@[simp] theorem Hub.setSource_ring_gen (h : Hub) (n : Nat) (x : SrcState) : (h.setSource n x).ring.gen = h.ring.gen := rfl
@[simp] theorem Hub.setSource_ring_leaderAddr (h : Hub) (n : Nat) (x : SrcState) : (h.setSource n x).ring.leaderAddr = h.ring.leaderAddr := rfl
@[simp] theorem Hub.setSource_ring_state (h : Hub) (n : Nat) (x : SrcState) : (h.setSource n x).ring.state = h.ring.state := rfl
@[simp] theorem Hub.setSource_ring_nodes (h : Hub) (n : Nat) (x : SrcState) : (h.setSource n x).ring.nodes = h.ring.nodes := rfl
@[simp] theorem Hub.setSource_ring_dd0 (h : Hub) (n : Nat) (x : SrcState) : (h.setSource n x).ring.dd0 = h.ring.dd0 := rfl
@[simp] theorem Hub.setSource_ring_dd1 (h : Hub) (n : Nat) (x : SrcState) : (h.setSource n x).ring.dd1 = h.ring.dd1 := rfl
@[simp] theorem Hub.setSource_ring_seq (h : Hub) (n : Nat) (x : SrcState) : (h.setSource n x).ring.seq = h.ring.seq := rfl
@[simp] theorem Hub.setSource_ring_hsrSeq (h : Hub) (n : Nat) (x : SrcState) : (h.setSource n x).ring.hsrSeq = h.ring.hsrSeq := rfl
@[simp] theorem Hub.setSource_ring_survey (h : Hub) (n : Nat) (x : SrcState) : (h.setSource n x).ring.survey = h.ring.survey := rfl
@[simp] theorem Hub.setSource_ring_away (h : Hub) (n : Nat) (x : SrcState) : (h.setSource n x).ring.away = h.ring.away := rfl
@[simp] theorem Hub.setSource_ring_led (h : Hub) (n : Nat) (x : SrcState) : (h.setSource n x).ring.led = h.ring.led := rfl
@[simp] theorem Hub.setSource_ring_joined (h : Hub) (n : Nat) (x : SrcState) : (h.setSource n x).ring.joined = h.ring.joined := rfl
@[simp] theorem Hub.setSource_ring_relaunchAt (h : Hub) (n : Nat) (x : SrcState) : (h.setSource n x).ring.relaunchAt = h.ring.relaunchAt := rfl
@[simp] theorem Hub.setSource_ring_paradeSeen (h : Hub) (n : Nat) (x : SrcState) : (h.setSource n x).ring.paradeSeen = h.ring.paradeSeen := rfl
@[simp] theorem Hub.setSource_ring_cmds (h : Hub) (n : Nat) (x : SrcState) : (h.setSource n x).ring.cmds = h.ring.cmds := rfl
theorem Hub.source_setSource (h : Hub) (n m : Nat) (x : SrcState) : (h.setSource n x).source m = if m = n then x else h.source m := tget_tset _ _ _ _ _
@[simp] theorem Hub.source_setSource_same (h : Hub) (n : Nat) (x : SrcState) : (h.setSource n x).source n = x := tget_tset_same _ _ _ _
theorem Hub.source_congr {h h' : Hub} (e : h'.ring.src = h.ring.src) (m : Nat) : h'.source m = h.source m := by unfold Hub.source; rw [e]
@[simp] theorem Hub.setNet_now (h : Hub) (n : Nat) (x : NetCh) : (h.setNet n x).now = h.now := rfl
@[simp] theorem Hub.setNet_regs (h : Hub) (n : Nat) (x : NetCh) : (h.setNet n x).regs = h.regs := rfl
@[simp] theorem Hub.setNet_freeCtr (h : Hub) (n : Nat) (x : NetCh) : (h.setNet n x).freeCtr = h.freeCtr := rfl
@[simp] theorem Hub.setNet_out (h : Hub) (n : Nat) (x : NetCh) : (h.setNet n x).out = h.out := rfl
@[simp] theorem Hub.setNet_glb (h : Hub) (n : Nat) (x : NetCh) : (h.setNet n x).glb = h.glb := rfl
@[simp] theorem Hub.setNet_host (h : Hub) (n : Nat) (x : NetCh) : (h.setNet n x).host = h.host := rfl
@[simp] theorem Hub.setNet_tim (h : Hub) (n : Nat) (x : NetCh) : (h.setNet n x).tim = h.tim := rfl
@[simp] theorem Hub.setNet_twin (h : Hub) (n : Nat) (x : NetCh) : (h.setNet n x).twin = h.twin := rfl
@[simp] theorem Hub.setNet_ring (h : Hub) (n : Nat) (x : NetCh) : (h.setNet n x).ring = h.ring := rfl
@[simp] theorem Hub.setNet_swc (h : Hub) (n : Nat) (x : NetCh) : (h.setNet n x).swc = h.swc := rfl
@[simp] theorem Hub.setNet_tm (h : Hub) (n : Nat) (x : NetCh) : (h.setNet n x).tm = h.tm := rfl
@[simp] theorem Hub.setNet_chk (h : Hub) (n : Nat) (x : NetCh) : (h.setNet n x).chk = h.chk := rfl
@[simp] theorem Hub.setNet_pt (h : Hub) (n : Nat) (x : NetCh) : (h.setNet n x).pt = h.pt := rfl
@[simp] theorem Hub.setNet_car (h : Hub) (n : Nat) (x : NetCh) : (h.setNet n x).car = h.car := rfl
@[simp] theorem Hub.setNet_ln (h : Hub) (n : Nat) (x : NetCh) : (h.setNet n x).ln = h.ln := rfl
@[simp] theorem Hub.setNet_fret (h : Hub) (n : Nat) (x : NetCh) : (h.setNet n x).fret = h.fret := rfl
@[simp] theorem Hub.setNet_can (h : Hub) (n : Nat) (x : NetCh) : (h.setNet n x).can = h.can := rfl
@[simp] theorem Hub.setNet_usb (h : Hub) (n : Nat) (x : NetCh) : (h.setNet n x).usb = h.usb := rfl
@[simp] theorem Hub.setNet_start (h : Hub) (n : Nat) (x : NetCh) : (h.setNet n x).start = h.start := rfl
@[simp] theorem Hub.setNet_net_inbox (h : Hub) (n : Nat) (x : NetCh) : (h.setNet n x).net.inbox = h.net.inbox := rfl
@[simp] theorem Hub.setNet_net_linkOk (h : Hub) (n : Nat) (x : NetCh) : (h.setNet n x).net.linkOk = h.net.linkOk := rfl
@[simp] theorem Hub.setNet_net_silent (h : Hub) (n : Nat) (x : NetCh) : (h.setNet n x).net.silent = h.net.silent := rfl
@[simp] theorem Hub.setNet_net_osc (h : Hub) (n : Nat) (x : NetCh) : (h.setNet n x).net.osc = h.net.osc := rfl
@[simp] theorem Hub.setNet_net_locked (h : Hub) (n : Nat) (x : NetCh) : (h.setNet n x).net.locked = h.net.locked := rfl
@[simp] theorem Hub.setNet_net_hold (h : Hub) (n : Nat) (x : NetCh) : (h.setNet n x).net.hold = h.net.hold := rfl
@[simp] theorem Hub.setNet_net_vin (h : Hub) (n : Nat) (x : NetCh) : (h.setNet n x).net.vin = h.net.vin := rfl
theorem Hub.net1_setNet (h : Hub) (n m : Nat) (x : NetCh) : (h.setNet n x).net1 m = if m = n then x else h.net1 m := tget_tset _ _ _ _ _
@[simp] theorem Hub.net1_setNet_same (h : Hub) (n : Nat) (x : NetCh) : (h.setNet n x).net1 n = x := tget_tset_same _ _ _ _
theorem Hub.net1_congr {h h' : Hub} (e : h'.net.ch = h.net.ch) (m : Nat) : h'.net1 m = h.net1 m := by unfold Hub.net1; rw [e]
@[simp] theorem Hub.setUport_now (h : Hub) (i : Nat) (x : UPort) : (h.setUport i x).now = h.now := rfl
@[simp] theorem Hub.setUport_regs (h : Hub) (i : Nat) (x : UPort) : (h.setUport i x).regs = h.regs := rfl
@[simp] theorem Hub.setUport_freeCtr (h : Hub) (i : Nat) (x : UPort) : (h.setUport i x).freeCtr = h.freeCtr := rfl
@[simp] theorem Hub.setUport_out (h : Hub) (i : Nat) (x : UPort) : (h.setUport i x).out = h.out := rfl
@[simp] theorem Hub.setUport_glb (h : Hub) (i : Nat) (x : UPort) : (h.setUport i x).glb = h.glb := rfl
@[simp] theorem Hub.setUport_host (h : Hub) (i : Nat) (x : UPort) : (h.setUport i x).host = h.host := rfl
@[simp] theorem Hub.setUport_tim (h : Hub) (i : Nat) (x : UPort) : (h.setUport i x).tim = h.tim := rfl
@[simp] theorem Hub.setUport_twin (h : Hub) (i : Nat) (x : UPort) : (h.setUport i x).twin = h.twin := rfl
@[simp] theorem Hub.setUport_ring (h : Hub) (i : Nat) (x : UPort) : (h.setUport i x).ring = h.ring := rfl
@[simp] theorem Hub.setUport_swc (h : Hub) (i : Nat) (x : UPort) : (h.setUport i x).swc = h.swc := rfl
@[simp] theorem Hub.setUport_tm (h : Hub) (i : Nat) (x : UPort) : (h.setUport i x).tm = h.tm := rfl
@[simp] theorem Hub.setUport_chk (h : Hub) (i : Nat) (x : UPort) : (h.setUport i x).chk = h.chk := rfl
@[simp] theorem Hub.setUport_pt (h : Hub) (i : Nat) (x : UPort) : (h.setUport i x).pt = h.pt := rfl
@[simp] theorem Hub.setUport_car (h : Hub) (i : Nat) (x : UPort) : (h.setUport i x).car = h.car := rfl
@[simp] theorem Hub.setUport_ln (h : Hub) (i : Nat) (x : UPort) : (h.setUport i x).ln = h.ln := rfl
@[simp] theorem Hub.setUport_fret (h : Hub) (i : Nat) (x : UPort) : (h.setUport i x).fret = h.fret := rfl
@[simp] theorem Hub.setUport_can (h : Hub) (i : Nat) (x : UPort) : (h.setUport i x).can = h.can := rfl
@[simp] theorem Hub.setUport_net (h : Hub) (i : Nat) (x : UPort) : (h.setUport i x).net = h.net := rfl
@[simp] theorem Hub.setUport_start (h : Hub) (i : Nat) (x : UPort) : (h.setUport i x).start = h.start := rfl
@[simp] theorem Hub.setUport_usb_vbus (h : Hub) (i : Nat) (x : UPort) : (h.setUport i x).usb.vbus = h.usb.vbus := rfl
@[simp] theorem Hub.setUport_usb_speed (h : Hub) (i : Nat) (x : UPort) : (h.setUport i x).usb.speed = h.usb.speed := rfl
@[simp] theorem Hub.setUport_usb_hub (h : Hub) (i : Nat) (x : UPort) : (h.setUport i x).usb.hub = h.usb.hub := rfl
@[simp] theorem Hub.setUport_usb_fn (h : Hub) (i : Nat) (x : UPort) : (h.setUport i x).usb.fn = h.usb.fn := rfl
@[simp] theorem Hub.setUport_usb_ep (h : Hub) (i : Nat) (x : UPort) : (h.setUport i x).usb.ep = h.usb.ep := rfl
@[simp] theorem Hub.setUport_usb_suspAt (h : Hub) (i : Nat) (x : UPort) : (h.setUport i x).usb.suspAt = h.usb.suspAt := rfl
@[simp] theorem Hub.setUport_usb_wakeAt (h : Hub) (i : Nat) (x : UPort) : (h.setUport i x).usb.wakeAt = h.usb.wakeAt := rfl
@[simp] theorem Hub.setUport_usb_wakeFn (h : Hub) (i : Nat) (x : UPort) : (h.setUport i x).usb.wakeFn = h.usb.wakeFn := rfl
@[simp] theorem Hub.setUport_usb_kAt (h : Hub) (i : Nat) (x : UPort) : (h.setUport i x).usb.kAt = h.usb.kAt := rfl
@[simp] theorem Hub.setUport_usb_kPorts (h : Hub) (i : Nat) (x : UPort) : (h.setUport i x).usb.kPorts = h.usb.kPorts := rfl
@[simp] theorem Hub.setUport_usb_report (h : Hub) (i : Nat) (x : UPort) : (h.setUport i x).usb.report = h.usb.report := rfl
@[simp] theorem Hub.setUport_usb_tt (h : Hub) (i : Nat) (x : UPort) : (h.setUport i x).usb.tt = h.usb.tt := rfl
@[simp] theorem Hub.setUport_usb_notified (h : Hub) (i : Nat) (x : UPort) : (h.setUport i x).usb.notified = h.usb.notified := rfl
@[simp] theorem Hub.setUport_usb_owes (h : Hub) (i : Nat) (x : UPort) : (h.setUport i x).usb.owes = h.usb.owes := rfl
@[simp] theorem Hub.setUport_usb_dropRsp (h : Hub) (i : Nat) (x : UPort) : (h.setUport i x).usb.dropRsp = h.usb.dropRsp := rfl
theorem Hub.uport_setUport (h : Hub) (i m : Nat) (x : UPort) : (h.setUport i x).uport m = if m = i then x else h.uport m := tget_tset _ _ _ _ _
@[simp] theorem Hub.uport_setUport_same (h : Hub) (i : Nat) (x : UPort) : (h.setUport i x).uport i = x := tget_tset_same _ _ _ _
theorem Hub.uport_congr {h h' : Hub} (e : h'.usb.port = h.usb.port) (m : Nat) : h'.uport m = h.uport m := by unfold Hub.uport; rw [e]
@[simp] theorem Hub.setUep_now (h : Hub) (i : Nat) (x : UEp) : (h.setUep i x).now = h.now := rfl
@[simp] theorem Hub.setUep_regs (h : Hub) (i : Nat) (x : UEp) : (h.setUep i x).regs = h.regs := rfl
@[simp] theorem Hub.setUep_freeCtr (h : Hub) (i : Nat) (x : UEp) : (h.setUep i x).freeCtr = h.freeCtr := rfl
@[simp] theorem Hub.setUep_out (h : Hub) (i : Nat) (x : UEp) : (h.setUep i x).out = h.out := rfl
@[simp] theorem Hub.setUep_glb (h : Hub) (i : Nat) (x : UEp) : (h.setUep i x).glb = h.glb := rfl
@[simp] theorem Hub.setUep_host (h : Hub) (i : Nat) (x : UEp) : (h.setUep i x).host = h.host := rfl
@[simp] theorem Hub.setUep_tim (h : Hub) (i : Nat) (x : UEp) : (h.setUep i x).tim = h.tim := rfl
@[simp] theorem Hub.setUep_twin (h : Hub) (i : Nat) (x : UEp) : (h.setUep i x).twin = h.twin := rfl
@[simp] theorem Hub.setUep_ring (h : Hub) (i : Nat) (x : UEp) : (h.setUep i x).ring = h.ring := rfl
@[simp] theorem Hub.setUep_swc (h : Hub) (i : Nat) (x : UEp) : (h.setUep i x).swc = h.swc := rfl
@[simp] theorem Hub.setUep_tm (h : Hub) (i : Nat) (x : UEp) : (h.setUep i x).tm = h.tm := rfl
@[simp] theorem Hub.setUep_chk (h : Hub) (i : Nat) (x : UEp) : (h.setUep i x).chk = h.chk := rfl
@[simp] theorem Hub.setUep_pt (h : Hub) (i : Nat) (x : UEp) : (h.setUep i x).pt = h.pt := rfl
@[simp] theorem Hub.setUep_car (h : Hub) (i : Nat) (x : UEp) : (h.setUep i x).car = h.car := rfl
@[simp] theorem Hub.setUep_ln (h : Hub) (i : Nat) (x : UEp) : (h.setUep i x).ln = h.ln := rfl
@[simp] theorem Hub.setUep_fret (h : Hub) (i : Nat) (x : UEp) : (h.setUep i x).fret = h.fret := rfl
@[simp] theorem Hub.setUep_can (h : Hub) (i : Nat) (x : UEp) : (h.setUep i x).can = h.can := rfl
@[simp] theorem Hub.setUep_net (h : Hub) (i : Nat) (x : UEp) : (h.setUep i x).net = h.net := rfl
@[simp] theorem Hub.setUep_start (h : Hub) (i : Nat) (x : UEp) : (h.setUep i x).start = h.start := rfl
@[simp] theorem Hub.setUep_usb_port (h : Hub) (i : Nat) (x : UEp) : (h.setUep i x).usb.port = h.usb.port := rfl
@[simp] theorem Hub.setUep_usb_vbus (h : Hub) (i : Nat) (x : UEp) : (h.setUep i x).usb.vbus = h.usb.vbus := rfl
@[simp] theorem Hub.setUep_usb_speed (h : Hub) (i : Nat) (x : UEp) : (h.setUep i x).usb.speed = h.usb.speed := rfl
@[simp] theorem Hub.setUep_usb_hub (h : Hub) (i : Nat) (x : UEp) : (h.setUep i x).usb.hub = h.usb.hub := rfl
@[simp] theorem Hub.setUep_usb_fn (h : Hub) (i : Nat) (x : UEp) : (h.setUep i x).usb.fn = h.usb.fn := rfl
@[simp] theorem Hub.setUep_usb_suspAt (h : Hub) (i : Nat) (x : UEp) : (h.setUep i x).usb.suspAt = h.usb.suspAt := rfl
@[simp] theorem Hub.setUep_usb_wakeAt (h : Hub) (i : Nat) (x : UEp) : (h.setUep i x).usb.wakeAt = h.usb.wakeAt := rfl
@[simp] theorem Hub.setUep_usb_wakeFn (h : Hub) (i : Nat) (x : UEp) : (h.setUep i x).usb.wakeFn = h.usb.wakeFn := rfl
@[simp] theorem Hub.setUep_usb_kAt (h : Hub) (i : Nat) (x : UEp) : (h.setUep i x).usb.kAt = h.usb.kAt := rfl
@[simp] theorem Hub.setUep_usb_kPorts (h : Hub) (i : Nat) (x : UEp) : (h.setUep i x).usb.kPorts = h.usb.kPorts := rfl
@[simp] theorem Hub.setUep_usb_report (h : Hub) (i : Nat) (x : UEp) : (h.setUep i x).usb.report = h.usb.report := rfl
@[simp] theorem Hub.setUep_usb_tt (h : Hub) (i : Nat) (x : UEp) : (h.setUep i x).usb.tt = h.usb.tt := rfl
@[simp] theorem Hub.setUep_usb_notified (h : Hub) (i : Nat) (x : UEp) : (h.setUep i x).usb.notified = h.usb.notified := rfl
@[simp] theorem Hub.setUep_usb_owes (h : Hub) (i : Nat) (x : UEp) : (h.setUep i x).usb.owes = h.usb.owes := rfl
@[simp] theorem Hub.setUep_usb_dropRsp (h : Hub) (i : Nat) (x : UEp) : (h.setUep i x).usb.dropRsp = h.usb.dropRsp := rfl
theorem Hub.uep_setUep (h : Hub) (i m : Nat) (x : UEp) : (h.setUep i x).uep m = if m = i then x else h.uep m := tget_tset _ _ _ _ _
@[simp] theorem Hub.uep_setUep_same (h : Hub) (i : Nat) (x : UEp) : (h.setUep i x).uep i = x := tget_tset_same _ _ _ _
theorem Hub.uep_congr {h h' : Hub} (e : h'.usb.ep = h.usb.ep) (m : Nat) : h'.uep m = h.uep m := by unfold Hub.uep; rw [e]
@[simp] theorem Hub.setSnoop_now (h : Hub) (u : Nat) (x : Snoop) : (h.setSnoop u x).now = h.now := rfl
@[simp] theorem Hub.setSnoop_regs (h : Hub) (u : Nat) (x : Snoop) : (h.setSnoop u x).regs = h.regs := rfl
@[simp] theorem Hub.setSnoop_freeCtr (h : Hub) (u : Nat) (x : Snoop) : (h.setSnoop u x).freeCtr = h.freeCtr := rfl
@[simp] theorem Hub.setSnoop_out (h : Hub) (u : Nat) (x : Snoop) : (h.setSnoop u x).out = h.out := rfl
@[simp] theorem Hub.setSnoop_glb (h : Hub) (u : Nat) (x : Snoop) : (h.setSnoop u x).glb = h.glb := rfl
@[simp] theorem Hub.setSnoop_host (h : Hub) (u : Nat) (x : Snoop) : (h.setSnoop u x).host = h.host := rfl
@[simp] theorem Hub.setSnoop_tim (h : Hub) (u : Nat) (x : Snoop) : (h.setSnoop u x).tim = h.tim := rfl
@[simp] theorem Hub.setSnoop_twin (h : Hub) (u : Nat) (x : Snoop) : (h.setSnoop u x).twin = h.twin := rfl
@[simp] theorem Hub.setSnoop_ring (h : Hub) (u : Nat) (x : Snoop) : (h.setSnoop u x).ring = h.ring := rfl
@[simp] theorem Hub.setSnoop_swc (h : Hub) (u : Nat) (x : Snoop) : (h.setSnoop u x).swc = h.swc := rfl
@[simp] theorem Hub.setSnoop_tm (h : Hub) (u : Nat) (x : Snoop) : (h.setSnoop u x).tm = h.tm := rfl
@[simp] theorem Hub.setSnoop_pt (h : Hub) (u : Nat) (x : Snoop) : (h.setSnoop u x).pt = h.pt := rfl
@[simp] theorem Hub.setSnoop_car (h : Hub) (u : Nat) (x : Snoop) : (h.setSnoop u x).car = h.car := rfl
@[simp] theorem Hub.setSnoop_ln (h : Hub) (u : Nat) (x : Snoop) : (h.setSnoop u x).ln = h.ln := rfl
@[simp] theorem Hub.setSnoop_fret (h : Hub) (u : Nat) (x : Snoop) : (h.setSnoop u x).fret = h.fret := rfl
@[simp] theorem Hub.setSnoop_can (h : Hub) (u : Nat) (x : Snoop) : (h.setSnoop u x).can = h.can := rfl
@[simp] theorem Hub.setSnoop_usb (h : Hub) (u : Nat) (x : Snoop) : (h.setSnoop u x).usb = h.usb := rfl
@[simp] theorem Hub.setSnoop_net (h : Hub) (u : Nat) (x : Snoop) : (h.setSnoop u x).net = h.net := rfl
@[simp] theorem Hub.setSnoop_start (h : Hub) (u : Nat) (x : Snoop) : (h.setSnoop u x).start = h.start := rfl
@[simp] theorem Hub.setSnoop_chk_pairs (h : Hub) (u : Nat) (x : Snoop) : (h.setSnoop u x).chk.pairs = h.chk.pairs := rfl
@[simp] theorem Hub.setSnoop_chk_alive (h : Hub) (u : Nat) (x : Snoop) : (h.setSnoop u x).chk.alive = h.chk.alive := rfl
theorem Hub.snoop_setSnoop (h : Hub) (u m : Nat) (x : Snoop) : (h.setSnoop u x).snoop m = if m = u then x else h.snoop m := tget_tset _ _ _ _ _
@[simp] theorem Hub.snoop_setSnoop_same (h : Hub) (u : Nat) (x : Snoop) : (h.setSnoop u x).snoop u = x := tget_tset_same _ _ _ _
theorem Hub.snoop_congr {h h' : Hub} (e : h'.chk.snoop = h.chk.snoop) (m : Nat) : h'.snoop m = h.snoop m := by unfold Hub.snoop; rw [e]
@[simp] theorem Hub.setMac_now (h : Hub) (i : Nat) (x : MacEnt) : (h.setMac i x).now = h.now := rfl
@[simp] theorem Hub.setMac_regs (h : Hub) (i : Nat) (x : MacEnt) : (h.setMac i x).regs = h.regs := rfl
@[simp] theorem Hub.setMac_freeCtr (h : Hub) (i : Nat) (x : MacEnt) : (h.setMac i x).freeCtr = h.freeCtr := rfl
@[simp] theorem Hub.setMac_out (h : Hub) (i : Nat) (x : MacEnt) : (h.setMac i x).out = h.out := rfl
@[simp] theorem Hub.setMac_glb (h : Hub) (i : Nat) (x : MacEnt) : (h.setMac i x).glb = h.glb := rfl
@[simp] theorem Hub.setMac_host (h : Hub) (i : Nat) (x : MacEnt) : (h.setMac i x).host = h.host := rfl
@[simp] theorem Hub.setMac_tim (h : Hub) (i : Nat) (x : MacEnt) : (h.setMac i x).tim = h.tim := rfl
@[simp] theorem Hub.setMac_twin (h : Hub) (i : Nat) (x : MacEnt) : (h.setMac i x).twin = h.twin := rfl
@[simp] theorem Hub.setMac_ring (h : Hub) (i : Nat) (x : MacEnt) : (h.setMac i x).ring = h.ring := rfl
@[simp] theorem Hub.setMac_tm (h : Hub) (i : Nat) (x : MacEnt) : (h.setMac i x).tm = h.tm := rfl
@[simp] theorem Hub.setMac_chk (h : Hub) (i : Nat) (x : MacEnt) : (h.setMac i x).chk = h.chk := rfl
@[simp] theorem Hub.setMac_pt (h : Hub) (i : Nat) (x : MacEnt) : (h.setMac i x).pt = h.pt := rfl
@[simp] theorem Hub.setMac_car (h : Hub) (i : Nat) (x : MacEnt) : (h.setMac i x).car = h.car := rfl
@[simp] theorem Hub.setMac_ln (h : Hub) (i : Nat) (x : MacEnt) : (h.setMac i x).ln = h.ln := rfl
@[simp] theorem Hub.setMac_fret (h : Hub) (i : Nat) (x : MacEnt) : (h.setMac i x).fret = h.fret := rfl
@[simp] theorem Hub.setMac_can (h : Hub) (i : Nat) (x : MacEnt) : (h.setMac i x).can = h.can := rfl
@[simp] theorem Hub.setMac_usb (h : Hub) (i : Nat) (x : MacEnt) : (h.setMac i x).usb = h.usb := rfl
@[simp] theorem Hub.setMac_net (h : Hub) (i : Nat) (x : MacEnt) : (h.setMac i x).net = h.net := rfl
@[simp] theorem Hub.setMac_start (h : Hub) (i : Nat) (x : MacEnt) : (h.setMac i x).start = h.start := rfl
@[simp] theorem Hub.setMac_swc_buf (h : Hub) (i : Nat) (x : MacEnt) : (h.setMac i x).swc.buf = h.swc.buf := rfl
@[simp] theorem Hub.setMac_swc_nextId (h : Hub) (i : Nat) (x : MacEnt) : (h.setMac i x).swc.nextId = h.swc.nextId := rfl
@[simp] theorem Hub.setMac_swc_arrivals (h : Hub) (i : Nat) (x : MacEnt) : (h.setMac i x).swc.arrivals = h.swc.arrivals := rfl
@[simp] theorem Hub.setMac_swc_coming (h : Hub) (i : Nat) (x : MacEnt) : (h.setMac i x).swc.coming = h.swc.coming := rfl
@[simp] theorem Hub.setMac_swc_own (h : Hub) (i : Nat) (x : MacEnt) : (h.setMac i x).swc.own = h.swc.own := rfl
@[simp] theorem Hub.setMac_swc_cell (h : Hub) (i : Nat) (x : MacEnt) : (h.setMac i x).swc.cell = h.swc.cell := rfl
@[simp] theorem Hub.setMac_swc_lowArmed (h : Hub) (i : Nat) (x : MacEnt) : (h.setMac i x).swc.lowArmed = h.swc.lowArmed := rfl
@[simp] theorem Hub.setMac_swc_inCells (h : Hub) (i : Nat) (x : MacEnt) : (h.setMac i x).swc.inCells = h.swc.inCells := rfl
@[simp] theorem Hub.setMac_swc_voq (h : Hub) (i : Nat) (x : MacEnt) : (h.setMac i x).swc.voq = h.swc.voq := rfl
@[simp] theorem Hub.setMac_swc_gp (h : Hub) (i : Nat) (x : MacEnt) : (h.setMac i x).swc.gp = h.swc.gp := rfl
@[simp] theorem Hub.setMac_swc_ap (h : Hub) (i : Nat) (x : MacEnt) : (h.setMac i x).swc.ap = h.swc.ap := rfl
@[simp] theorem Hub.setMac_swc_roundAt (h : Hub) (i : Nat) (x : MacEnt) : (h.setMac i x).swc.roundAt = h.swc.roundAt := rfl
@[simp] theorem Hub.setMac_swc_xfers (h : Hub) (i : Nat) (x : MacEnt) : (h.setMac i x).swc.xfers = h.swc.xfers := rfl
@[simp] theorem Hub.setMac_swc_gen (h : Hub) (i : Nat) (x : MacEnt) : (h.setMac i x).swc.gen = h.swc.gen := rfl
@[simp] theorem Hub.setMac_swc_genCnt (h : Hub) (i : Nat) (x : MacEnt) : (h.setMac i x).swc.genCnt = h.swc.genCnt := rfl
@[simp] theorem Hub.setMac_swc_fences (h : Hub) (i : Nat) (x : MacEnt) : (h.setMac i x).swc.fences = h.swc.fences := rfl
@[simp] theorem Hub.setMac_swc_macOp (h : Hub) (i : Nat) (x : MacEnt) : (h.setMac i x).swc.macOp = h.swc.macOp := rfl
@[simp] theorem Hub.setMac_swc_auditBusy (h : Hub) (i : Nat) (x : MacEnt) : (h.setMac i x).swc.auditBusy = h.swc.auditBusy := rfl
@[simp] theorem Hub.setMac_swc_auditEpoch (h : Hub) (i : Nat) (x : MacEnt) : (h.setMac i x).swc.auditEpoch = h.swc.auditEpoch := rfl
@[simp] theorem Hub.setMac_swc_auditAgain (h : Hub) (i : Nat) (x : MacEnt) : (h.setMac i x).swc.auditAgain = h.swc.auditAgain := rfl
@[simp] theorem Hub.setMac_swc_auditFrom (h : Hub) (i : Nat) (x : MacEnt) : (h.setMac i x).swc.auditFrom = h.swc.auditFrom := rfl
@[simp] theorem Hub.setMac_swc_auditRefs (h : Hub) (i : Nat) (x : MacEnt) : (h.setMac i x).swc.auditRefs = h.swc.auditRefs := rfl
@[simp] theorem Hub.setMac_swc_auditNext (h : Hub) (i : Nat) (x : MacEnt) : (h.setMac i x).swc.auditNext = h.swc.auditNext := rfl
theorem Hub.macEnt_setMac (h : Hub) (i m : Nat) (x : MacEnt) : (h.setMac i x).macEnt m = if m = i then x else h.macEnt m := tget_tset _ _ _ _ _
@[simp] theorem Hub.macEnt_setMac_same (h : Hub) (i : Nat) (x : MacEnt) : (h.setMac i x).macEnt i = x := tget_tset_same _ _ _ _
theorem Hub.macEnt_congr {h h' : Hub} (e : h'.swc.mac = h.swc.mac) (m : Nat) : h'.macEnt m = h.macEnt m := by unfold Hub.macEnt; rw [e]
@[simp] theorem Hub.setBucket_now (h : Hub) (i : Nat) (x : Bucket) : (h.setBucket i x).now = h.now := rfl
@[simp] theorem Hub.setBucket_regs (h : Hub) (i : Nat) (x : Bucket) : (h.setBucket i x).regs = h.regs := rfl
@[simp] theorem Hub.setBucket_freeCtr (h : Hub) (i : Nat) (x : Bucket) : (h.setBucket i x).freeCtr = h.freeCtr := rfl
@[simp] theorem Hub.setBucket_out (h : Hub) (i : Nat) (x : Bucket) : (h.setBucket i x).out = h.out := rfl
@[simp] theorem Hub.setBucket_glb (h : Hub) (i : Nat) (x : Bucket) : (h.setBucket i x).glb = h.glb := rfl
@[simp] theorem Hub.setBucket_host (h : Hub) (i : Nat) (x : Bucket) : (h.setBucket i x).host = h.host := rfl
@[simp] theorem Hub.setBucket_tim (h : Hub) (i : Nat) (x : Bucket) : (h.setBucket i x).tim = h.tim := rfl
@[simp] theorem Hub.setBucket_twin (h : Hub) (i : Nat) (x : Bucket) : (h.setBucket i x).twin = h.twin := rfl
@[simp] theorem Hub.setBucket_ring (h : Hub) (i : Nat) (x : Bucket) : (h.setBucket i x).ring = h.ring := rfl
@[simp] theorem Hub.setBucket_swc (h : Hub) (i : Nat) (x : Bucket) : (h.setBucket i x).swc = h.swc := rfl
@[simp] theorem Hub.setBucket_chk (h : Hub) (i : Nat) (x : Bucket) : (h.setBucket i x).chk = h.chk := rfl
@[simp] theorem Hub.setBucket_pt (h : Hub) (i : Nat) (x : Bucket) : (h.setBucket i x).pt = h.pt := rfl
@[simp] theorem Hub.setBucket_car (h : Hub) (i : Nat) (x : Bucket) : (h.setBucket i x).car = h.car := rfl
@[simp] theorem Hub.setBucket_ln (h : Hub) (i : Nat) (x : Bucket) : (h.setBucket i x).ln = h.ln := rfl
@[simp] theorem Hub.setBucket_fret (h : Hub) (i : Nat) (x : Bucket) : (h.setBucket i x).fret = h.fret := rfl
@[simp] theorem Hub.setBucket_can (h : Hub) (i : Nat) (x : Bucket) : (h.setBucket i x).can = h.can := rfl
@[simp] theorem Hub.setBucket_usb (h : Hub) (i : Nat) (x : Bucket) : (h.setBucket i x).usb = h.usb := rfl
@[simp] theorem Hub.setBucket_net (h : Hub) (i : Nat) (x : Bucket) : (h.setBucket i x).net = h.net := rfl
@[simp] theorem Hub.setBucket_start (h : Hub) (i : Nat) (x : Bucket) : (h.setBucket i x).start = h.start := rfl
@[simp] theorem Hub.setBucket_tm_q (h : Hub) (i : Nat) (x : Bucket) : (h.setBucket i x).tm.q = h.tm.q := rfl
@[simp] theorem Hub.setBucket_tm_v (h : Hub) (i : Nat) (x : Bucket) : (h.setBucket i x).tm.v = h.tm.v := rfl
@[simp] theorem Hub.setBucket_tm_tx (h : Hub) (i : Nat) (x : Bucket) : (h.setBucket i x).tm.tx = h.tm.tx := rfl
@[simp] theorem Hub.setBucket_tm_lineEnd (h : Hub) (i : Nat) (x : Bucket) : (h.setBucket i x).tm.lineEnd = h.tm.lineEnd := rfl
theorem Hub.bucket_setBucket (h : Hub) (i m : Nat) (x : Bucket) : (h.setBucket i x).bucket m = if m = i then x else h.bucket m := tget_tset _ _ _ _ _
@[simp] theorem Hub.bucket_setBucket_same (h : Hub) (i : Nat) (x : Bucket) : (h.setBucket i x).bucket i = x := tget_tset_same _ _ _ _
theorem Hub.bucket_congr {h h' : Hub} (e : h'.tm.pol = h.tm.pol) (m : Nat) : h'.bucket m = h.bucket m := by unfold Hub.bucket; rw [e]
@[simp] theorem Hub.setTq_now (h : Hub) (q : Nat) (x : TQueue) : (h.setTq q x).now = h.now := rfl
@[simp] theorem Hub.setTq_regs (h : Hub) (q : Nat) (x : TQueue) : (h.setTq q x).regs = h.regs := rfl
@[simp] theorem Hub.setTq_freeCtr (h : Hub) (q : Nat) (x : TQueue) : (h.setTq q x).freeCtr = h.freeCtr := rfl
@[simp] theorem Hub.setTq_out (h : Hub) (q : Nat) (x : TQueue) : (h.setTq q x).out = h.out := rfl
@[simp] theorem Hub.setTq_glb (h : Hub) (q : Nat) (x : TQueue) : (h.setTq q x).glb = h.glb := rfl
@[simp] theorem Hub.setTq_host (h : Hub) (q : Nat) (x : TQueue) : (h.setTq q x).host = h.host := rfl
@[simp] theorem Hub.setTq_tim (h : Hub) (q : Nat) (x : TQueue) : (h.setTq q x).tim = h.tim := rfl
@[simp] theorem Hub.setTq_twin (h : Hub) (q : Nat) (x : TQueue) : (h.setTq q x).twin = h.twin := rfl
@[simp] theorem Hub.setTq_ring (h : Hub) (q : Nat) (x : TQueue) : (h.setTq q x).ring = h.ring := rfl
@[simp] theorem Hub.setTq_swc (h : Hub) (q : Nat) (x : TQueue) : (h.setTq q x).swc = h.swc := rfl
@[simp] theorem Hub.setTq_chk (h : Hub) (q : Nat) (x : TQueue) : (h.setTq q x).chk = h.chk := rfl
@[simp] theorem Hub.setTq_pt (h : Hub) (q : Nat) (x : TQueue) : (h.setTq q x).pt = h.pt := rfl
@[simp] theorem Hub.setTq_car (h : Hub) (q : Nat) (x : TQueue) : (h.setTq q x).car = h.car := rfl
@[simp] theorem Hub.setTq_ln (h : Hub) (q : Nat) (x : TQueue) : (h.setTq q x).ln = h.ln := rfl
@[simp] theorem Hub.setTq_fret (h : Hub) (q : Nat) (x : TQueue) : (h.setTq q x).fret = h.fret := rfl
@[simp] theorem Hub.setTq_can (h : Hub) (q : Nat) (x : TQueue) : (h.setTq q x).can = h.can := rfl
@[simp] theorem Hub.setTq_usb (h : Hub) (q : Nat) (x : TQueue) : (h.setTq q x).usb = h.usb := rfl
@[simp] theorem Hub.setTq_net (h : Hub) (q : Nat) (x : TQueue) : (h.setTq q x).net = h.net := rfl
@[simp] theorem Hub.setTq_start (h : Hub) (q : Nat) (x : TQueue) : (h.setTq q x).start = h.start := rfl
@[simp] theorem Hub.setTq_tm_v (h : Hub) (q : Nat) (x : TQueue) : (h.setTq q x).tm.v = h.tm.v := rfl
@[simp] theorem Hub.setTq_tm_pol (h : Hub) (q : Nat) (x : TQueue) : (h.setTq q x).tm.pol = h.tm.pol := rfl
@[simp] theorem Hub.setTq_tm_tx (h : Hub) (q : Nat) (x : TQueue) : (h.setTq q x).tm.tx = h.tm.tx := rfl
@[simp] theorem Hub.setTq_tm_lineEnd (h : Hub) (q : Nat) (x : TQueue) : (h.setTq q x).tm.lineEnd = h.tm.lineEnd := rfl
theorem Hub.tq_setTq (h : Hub) (q m : Nat) (x : TQueue) : (h.setTq q x).tq m = if m = q then x else h.tq m := tget_tset _ _ _ _ _
@[simp] theorem Hub.tq_setTq_same (h : Hub) (q : Nat) (x : TQueue) : (h.setTq q x).tq q = x := tget_tset_same _ _ _ _
theorem Hub.tq_congr {h h' : Hub} (e : h'.tm.q = h.tm.q) (m : Nat) : h'.tq m = h.tq m := by unfold Hub.tq; rw [e]
@[simp] theorem Hub.setTwin_now (h : Hub) (t : TwinBlk) : (h.setTwin t).now = h.now := rfl
@[simp] theorem Hub.setTwin_regs (h : Hub) (t : TwinBlk) : (h.setTwin t).regs = h.regs := rfl
@[simp] theorem Hub.setTwin_freeCtr (h : Hub) (t : TwinBlk) : (h.setTwin t).freeCtr = h.freeCtr := rfl
@[simp] theorem Hub.setTwin_out (h : Hub) (t : TwinBlk) : (h.setTwin t).out = h.out := rfl
@[simp] theorem Hub.setTwin_glb (h : Hub) (t : TwinBlk) : (h.setTwin t).glb = h.glb := rfl
@[simp] theorem Hub.setTwin_host (h : Hub) (t : TwinBlk) : (h.setTwin t).host = h.host := rfl
@[simp] theorem Hub.setTwin_tim (h : Hub) (t : TwinBlk) : (h.setTwin t).tim = h.tim := rfl
@[simp] theorem Hub.setTwin_ring (h : Hub) (t : TwinBlk) : (h.setTwin t).ring = h.ring := rfl
@[simp] theorem Hub.setTwin_swc (h : Hub) (t : TwinBlk) : (h.setTwin t).swc = h.swc := rfl
@[simp] theorem Hub.setTwin_tm (h : Hub) (t : TwinBlk) : (h.setTwin t).tm = h.tm := rfl
@[simp] theorem Hub.setTwin_chk (h : Hub) (t : TwinBlk) : (h.setTwin t).chk = h.chk := rfl
@[simp] theorem Hub.setTwin_pt (h : Hub) (t : TwinBlk) : (h.setTwin t).pt = h.pt := rfl
@[simp] theorem Hub.setTwin_car (h : Hub) (t : TwinBlk) : (h.setTwin t).car = h.car := rfl
@[simp] theorem Hub.setTwin_ln (h : Hub) (t : TwinBlk) : (h.setTwin t).ln = h.ln := rfl
@[simp] theorem Hub.setTwin_fret (h : Hub) (t : TwinBlk) : (h.setTwin t).fret = h.fret := rfl
@[simp] theorem Hub.setTwin_can (h : Hub) (t : TwinBlk) : (h.setTwin t).can = h.can := rfl
@[simp] theorem Hub.setTwin_usb (h : Hub) (t : TwinBlk) : (h.setTwin t).usb = h.usb := rfl
@[simp] theorem Hub.setTwin_net (h : Hub) (t : TwinBlk) : (h.setTwin t).net = h.net := rfl
@[simp] theorem Hub.setTwin_start (h : Hub) (t : TwinBlk) : (h.setTwin t).start = h.start := rfl
@[simp] theorem Hub.setTwin_twin (h : Hub) (t : TwinBlk) : (h.setTwin t).twin = t := rfl
@[simp] theorem Hub.setGlb_now (h : Hub) (g : GlbBlk) : (h.setGlb g).now = h.now := rfl
@[simp] theorem Hub.setGlb_regs (h : Hub) (g : GlbBlk) : (h.setGlb g).regs = h.regs := rfl
@[simp] theorem Hub.setGlb_freeCtr (h : Hub) (g : GlbBlk) : (h.setGlb g).freeCtr = h.freeCtr := rfl
@[simp] theorem Hub.setGlb_out (h : Hub) (g : GlbBlk) : (h.setGlb g).out = h.out := rfl
@[simp] theorem Hub.setGlb_host (h : Hub) (g : GlbBlk) : (h.setGlb g).host = h.host := rfl
@[simp] theorem Hub.setGlb_tim (h : Hub) (g : GlbBlk) : (h.setGlb g).tim = h.tim := rfl
@[simp] theorem Hub.setGlb_twin (h : Hub) (g : GlbBlk) : (h.setGlb g).twin = h.twin := rfl
@[simp] theorem Hub.setGlb_ring (h : Hub) (g : GlbBlk) : (h.setGlb g).ring = h.ring := rfl
@[simp] theorem Hub.setGlb_swc (h : Hub) (g : GlbBlk) : (h.setGlb g).swc = h.swc := rfl
@[simp] theorem Hub.setGlb_tm (h : Hub) (g : GlbBlk) : (h.setGlb g).tm = h.tm := rfl
@[simp] theorem Hub.setGlb_chk (h : Hub) (g : GlbBlk) : (h.setGlb g).chk = h.chk := rfl
@[simp] theorem Hub.setGlb_pt (h : Hub) (g : GlbBlk) : (h.setGlb g).pt = h.pt := rfl
@[simp] theorem Hub.setGlb_car (h : Hub) (g : GlbBlk) : (h.setGlb g).car = h.car := rfl
@[simp] theorem Hub.setGlb_ln (h : Hub) (g : GlbBlk) : (h.setGlb g).ln = h.ln := rfl
@[simp] theorem Hub.setGlb_fret (h : Hub) (g : GlbBlk) : (h.setGlb g).fret = h.fret := rfl
@[simp] theorem Hub.setGlb_can (h : Hub) (g : GlbBlk) : (h.setGlb g).can = h.can := rfl
@[simp] theorem Hub.setGlb_usb (h : Hub) (g : GlbBlk) : (h.setGlb g).usb = h.usb := rfl
@[simp] theorem Hub.setGlb_net (h : Hub) (g : GlbBlk) : (h.setGlb g).net = h.net := rfl
@[simp] theorem Hub.setGlb_start (h : Hub) (g : GlbBlk) : (h.setGlb g).start = h.start := rfl
@[simp] theorem Hub.setGlb_glb (h : Hub) (g : GlbBlk) : (h.setGlb g).glb = g := rfl
@[simp] theorem Hub.setVoq_now (h : Hub) (i o c : Nat) (l : List VEnt) : (h.setVoq i o c l).now = h.now := rfl
@[simp] theorem Hub.setVoq_regs (h : Hub) (i o c : Nat) (l : List VEnt) : (h.setVoq i o c l).regs = h.regs := rfl
@[simp] theorem Hub.setVoq_freeCtr (h : Hub) (i o c : Nat) (l : List VEnt) : (h.setVoq i o c l).freeCtr = h.freeCtr := rfl
@[simp] theorem Hub.setVoq_out (h : Hub) (i o c : Nat) (l : List VEnt) : (h.setVoq i o c l).out = h.out := rfl
@[simp] theorem Hub.setVoq_glb (h : Hub) (i o c : Nat) (l : List VEnt) : (h.setVoq i o c l).glb = h.glb := rfl
@[simp] theorem Hub.setVoq_host (h : Hub) (i o c : Nat) (l : List VEnt) : (h.setVoq i o c l).host = h.host := rfl
@[simp] theorem Hub.setVoq_tim (h : Hub) (i o c : Nat) (l : List VEnt) : (h.setVoq i o c l).tim = h.tim := rfl
@[simp] theorem Hub.setVoq_twin (h : Hub) (i o c : Nat) (l : List VEnt) : (h.setVoq i o c l).twin = h.twin := rfl
@[simp] theorem Hub.setVoq_ring (h : Hub) (i o c : Nat) (l : List VEnt) : (h.setVoq i o c l).ring = h.ring := rfl
@[simp] theorem Hub.setVoq_tm (h : Hub) (i o c : Nat) (l : List VEnt) : (h.setVoq i o c l).tm = h.tm := rfl
@[simp] theorem Hub.setVoq_chk (h : Hub) (i o c : Nat) (l : List VEnt) : (h.setVoq i o c l).chk = h.chk := rfl
@[simp] theorem Hub.setVoq_pt (h : Hub) (i o c : Nat) (l : List VEnt) : (h.setVoq i o c l).pt = h.pt := rfl
@[simp] theorem Hub.setVoq_car (h : Hub) (i o c : Nat) (l : List VEnt) : (h.setVoq i o c l).car = h.car := rfl
@[simp] theorem Hub.setVoq_ln (h : Hub) (i o c : Nat) (l : List VEnt) : (h.setVoq i o c l).ln = h.ln := rfl
@[simp] theorem Hub.setVoq_fret (h : Hub) (i o c : Nat) (l : List VEnt) : (h.setVoq i o c l).fret = h.fret := rfl
@[simp] theorem Hub.setVoq_can (h : Hub) (i o c : Nat) (l : List VEnt) : (h.setVoq i o c l).can = h.can := rfl
@[simp] theorem Hub.setVoq_usb (h : Hub) (i o c : Nat) (l : List VEnt) : (h.setVoq i o c l).usb = h.usb := rfl
@[simp] theorem Hub.setVoq_net (h : Hub) (i o c : Nat) (l : List VEnt) : (h.setVoq i o c l).net = h.net := rfl
@[simp] theorem Hub.setVoq_start (h : Hub) (i o c : Nat) (l : List VEnt) : (h.setVoq i o c l).start = h.start := rfl
@[simp] theorem Hub.setFrame_now (h : Hub) (id : Nat) (f : Frame) : (h.setFrame id f).now = h.now := rfl
@[simp] theorem Hub.setFrame_regs (h : Hub) (id : Nat) (f : Frame) : (h.setFrame id f).regs = h.regs := rfl
@[simp] theorem Hub.setFrame_freeCtr (h : Hub) (id : Nat) (f : Frame) : (h.setFrame id f).freeCtr = h.freeCtr := rfl
@[simp] theorem Hub.setFrame_out (h : Hub) (id : Nat) (f : Frame) : (h.setFrame id f).out = h.out := rfl
@[simp] theorem Hub.setFrame_glb (h : Hub) (id : Nat) (f : Frame) : (h.setFrame id f).glb = h.glb := rfl
@[simp] theorem Hub.setFrame_host (h : Hub) (id : Nat) (f : Frame) : (h.setFrame id f).host = h.host := rfl
@[simp] theorem Hub.setFrame_tim (h : Hub) (id : Nat) (f : Frame) : (h.setFrame id f).tim = h.tim := rfl
@[simp] theorem Hub.setFrame_twin (h : Hub) (id : Nat) (f : Frame) : (h.setFrame id f).twin = h.twin := rfl
@[simp] theorem Hub.setFrame_ring (h : Hub) (id : Nat) (f : Frame) : (h.setFrame id f).ring = h.ring := rfl
@[simp] theorem Hub.setFrame_tm (h : Hub) (id : Nat) (f : Frame) : (h.setFrame id f).tm = h.tm := rfl
@[simp] theorem Hub.setFrame_chk (h : Hub) (id : Nat) (f : Frame) : (h.setFrame id f).chk = h.chk := rfl
@[simp] theorem Hub.setFrame_pt (h : Hub) (id : Nat) (f : Frame) : (h.setFrame id f).pt = h.pt := rfl
@[simp] theorem Hub.setFrame_car (h : Hub) (id : Nat) (f : Frame) : (h.setFrame id f).car = h.car := rfl
@[simp] theorem Hub.setFrame_ln (h : Hub) (id : Nat) (f : Frame) : (h.setFrame id f).ln = h.ln := rfl
@[simp] theorem Hub.setFrame_fret (h : Hub) (id : Nat) (f : Frame) : (h.setFrame id f).fret = h.fret := rfl
@[simp] theorem Hub.setFrame_can (h : Hub) (id : Nat) (f : Frame) : (h.setFrame id f).can = h.can := rfl
@[simp] theorem Hub.setFrame_usb (h : Hub) (id : Nat) (f : Frame) : (h.setFrame id f).usb = h.usb := rfl
@[simp] theorem Hub.setFrame_net (h : Hub) (id : Nat) (f : Frame) : (h.setFrame id f).net = h.net := rfl
@[simp] theorem Hub.setFrame_start (h : Hub) (id : Nat) (f : Frame) : (h.setFrame id f).start = h.start := rfl
@[simp] theorem Hub.setDd_now (h : Hub) (p : Nat) (l : List DdEnt) : (h.setDd p l).now = h.now := by unfold Hub.setDd; split <;> rfl
@[simp] theorem Hub.setDd_regs (h : Hub) (p : Nat) (l : List DdEnt) : (h.setDd p l).regs = h.regs := by unfold Hub.setDd; split <;> rfl
@[simp] theorem Hub.setDd_freeCtr (h : Hub) (p : Nat) (l : List DdEnt) : (h.setDd p l).freeCtr = h.freeCtr := by unfold Hub.setDd; split <;> rfl
@[simp] theorem Hub.setDd_out (h : Hub) (p : Nat) (l : List DdEnt) : (h.setDd p l).out = h.out := by unfold Hub.setDd; split <;> rfl
@[simp] theorem Hub.setDd_glb (h : Hub) (p : Nat) (l : List DdEnt) : (h.setDd p l).glb = h.glb := by unfold Hub.setDd; split <;> rfl
@[simp] theorem Hub.setDd_host (h : Hub) (p : Nat) (l : List DdEnt) : (h.setDd p l).host = h.host := by unfold Hub.setDd; split <;> rfl
@[simp] theorem Hub.setDd_tim (h : Hub) (p : Nat) (l : List DdEnt) : (h.setDd p l).tim = h.tim := by unfold Hub.setDd; split <;> rfl
@[simp] theorem Hub.setDd_twin (h : Hub) (p : Nat) (l : List DdEnt) : (h.setDd p l).twin = h.twin := by unfold Hub.setDd; split <;> rfl
@[simp] theorem Hub.setDd_swc (h : Hub) (p : Nat) (l : List DdEnt) : (h.setDd p l).swc = h.swc := by unfold Hub.setDd; split <;> rfl
@[simp] theorem Hub.setDd_tm (h : Hub) (p : Nat) (l : List DdEnt) : (h.setDd p l).tm = h.tm := by unfold Hub.setDd; split <;> rfl
@[simp] theorem Hub.setDd_chk (h : Hub) (p : Nat) (l : List DdEnt) : (h.setDd p l).chk = h.chk := by unfold Hub.setDd; split <;> rfl
@[simp] theorem Hub.setDd_pt (h : Hub) (p : Nat) (l : List DdEnt) : (h.setDd p l).pt = h.pt := by unfold Hub.setDd; split <;> rfl
@[simp] theorem Hub.setDd_car (h : Hub) (p : Nat) (l : List DdEnt) : (h.setDd p l).car = h.car := by unfold Hub.setDd; split <;> rfl
@[simp] theorem Hub.setDd_ln (h : Hub) (p : Nat) (l : List DdEnt) : (h.setDd p l).ln = h.ln := by unfold Hub.setDd; split <;> rfl
@[simp] theorem Hub.setDd_fret (h : Hub) (p : Nat) (l : List DdEnt) : (h.setDd p l).fret = h.fret := by unfold Hub.setDd; split <;> rfl
@[simp] theorem Hub.setDd_can (h : Hub) (p : Nat) (l : List DdEnt) : (h.setDd p l).can = h.can := by unfold Hub.setDd; split <;> rfl
@[simp] theorem Hub.setDd_usb (h : Hub) (p : Nat) (l : List DdEnt) : (h.setDd p l).usb = h.usb := by unfold Hub.setDd; split <;> rfl
@[simp] theorem Hub.setDd_net (h : Hub) (p : Nat) (l : List DdEnt) : (h.setDd p l).net = h.net := by unfold Hub.setDd; split <;> rfl
@[simp] theorem Hub.setDd_start (h : Hub) (p : Nat) (l : List DdEnt) : (h.setDd p l).start = h.start := by unfold Hub.setDd; split <;> rfl
@[simp] theorem Hub.setUdev_now (h : Hub) (fn : Bool) (d : UDev) : (h.setUdev fn d).now = h.now := rfl
@[simp] theorem Hub.setUdev_regs (h : Hub) (fn : Bool) (d : UDev) : (h.setUdev fn d).regs = h.regs := rfl
@[simp] theorem Hub.setUdev_freeCtr (h : Hub) (fn : Bool) (d : UDev) : (h.setUdev fn d).freeCtr = h.freeCtr := rfl
@[simp] theorem Hub.setUdev_out (h : Hub) (fn : Bool) (d : UDev) : (h.setUdev fn d).out = h.out := rfl
@[simp] theorem Hub.setUdev_glb (h : Hub) (fn : Bool) (d : UDev) : (h.setUdev fn d).glb = h.glb := rfl
@[simp] theorem Hub.setUdev_host (h : Hub) (fn : Bool) (d : UDev) : (h.setUdev fn d).host = h.host := rfl
@[simp] theorem Hub.setUdev_tim (h : Hub) (fn : Bool) (d : UDev) : (h.setUdev fn d).tim = h.tim := rfl
@[simp] theorem Hub.setUdev_twin (h : Hub) (fn : Bool) (d : UDev) : (h.setUdev fn d).twin = h.twin := rfl
@[simp] theorem Hub.setUdev_ring (h : Hub) (fn : Bool) (d : UDev) : (h.setUdev fn d).ring = h.ring := rfl
@[simp] theorem Hub.setUdev_swc (h : Hub) (fn : Bool) (d : UDev) : (h.setUdev fn d).swc = h.swc := rfl
@[simp] theorem Hub.setUdev_tm (h : Hub) (fn : Bool) (d : UDev) : (h.setUdev fn d).tm = h.tm := rfl
@[simp] theorem Hub.setUdev_chk (h : Hub) (fn : Bool) (d : UDev) : (h.setUdev fn d).chk = h.chk := rfl
@[simp] theorem Hub.setUdev_pt (h : Hub) (fn : Bool) (d : UDev) : (h.setUdev fn d).pt = h.pt := rfl
@[simp] theorem Hub.setUdev_car (h : Hub) (fn : Bool) (d : UDev) : (h.setUdev fn d).car = h.car := rfl
@[simp] theorem Hub.setUdev_ln (h : Hub) (fn : Bool) (d : UDev) : (h.setUdev fn d).ln = h.ln := rfl
@[simp] theorem Hub.setUdev_fret (h : Hub) (fn : Bool) (d : UDev) : (h.setUdev fn d).fret = h.fret := rfl
@[simp] theorem Hub.setUdev_can (h : Hub) (fn : Bool) (d : UDev) : (h.setUdev fn d).can = h.can := rfl
@[simp] theorem Hub.setUdev_net (h : Hub) (fn : Bool) (d : UDev) : (h.setUdev fn d).net = h.net := rfl
@[simp] theorem Hub.setUdev_start (h : Hub) (fn : Bool) (d : UDev) : (h.setUdev fn d).start = h.start := rfl
@[simp] theorem Hub.setPulse_now (h : Hub) (i : Nat) (e : Option Nat) : (h.setPulse i e).now = h.now := rfl
@[simp] theorem Hub.setPulse_regs (h : Hub) (i : Nat) (e : Option Nat) : (h.setPulse i e).regs = h.regs := rfl
@[simp] theorem Hub.setPulse_freeCtr (h : Hub) (i : Nat) (e : Option Nat) : (h.setPulse i e).freeCtr = h.freeCtr := rfl
@[simp] theorem Hub.setPulse_out (h : Hub) (i : Nat) (e : Option Nat) : (h.setPulse i e).out = h.out := rfl
@[simp] theorem Hub.setPulse_glb (h : Hub) (i : Nat) (e : Option Nat) : (h.setPulse i e).glb = h.glb := rfl
@[simp] theorem Hub.setPulse_host (h : Hub) (i : Nat) (e : Option Nat) : (h.setPulse i e).host = h.host := rfl
@[simp] theorem Hub.setPulse_twin (h : Hub) (i : Nat) (e : Option Nat) : (h.setPulse i e).twin = h.twin := rfl
@[simp] theorem Hub.setPulse_ring (h : Hub) (i : Nat) (e : Option Nat) : (h.setPulse i e).ring = h.ring := rfl
@[simp] theorem Hub.setPulse_swc (h : Hub) (i : Nat) (e : Option Nat) : (h.setPulse i e).swc = h.swc := rfl
@[simp] theorem Hub.setPulse_tm (h : Hub) (i : Nat) (e : Option Nat) : (h.setPulse i e).tm = h.tm := rfl
@[simp] theorem Hub.setPulse_chk (h : Hub) (i : Nat) (e : Option Nat) : (h.setPulse i e).chk = h.chk := rfl
@[simp] theorem Hub.setPulse_pt (h : Hub) (i : Nat) (e : Option Nat) : (h.setPulse i e).pt = h.pt := rfl
@[simp] theorem Hub.setPulse_car (h : Hub) (i : Nat) (e : Option Nat) : (h.setPulse i e).car = h.car := rfl
@[simp] theorem Hub.setPulse_ln (h : Hub) (i : Nat) (e : Option Nat) : (h.setPulse i e).ln = h.ln := rfl
@[simp] theorem Hub.setPulse_fret (h : Hub) (i : Nat) (e : Option Nat) : (h.setPulse i e).fret = h.fret := rfl
@[simp] theorem Hub.setPulse_can (h : Hub) (i : Nat) (e : Option Nat) : (h.setPulse i e).can = h.can := rfl
@[simp] theorem Hub.setPulse_usb (h : Hub) (i : Nat) (e : Option Nat) : (h.setPulse i e).usb = h.usb := rfl
@[simp] theorem Hub.setPulse_net (h : Hub) (i : Nat) (e : Option Nat) : (h.setPulse i e).net = h.net := rfl
@[simp] theorem Hub.setPulse_start (h : Hub) (i : Nat) (e : Option Nat) : (h.setPulse i e).start = h.start := rfl

/-! ## Reading register words -/

theorem Hub.rd_wr (h : Hub) (a b : Nat) (w : Word) : (h.wr a w).rd b = if b = a then w else h.rd b := by
  unfold Hub.rd Hub.wr
  by_cases e : b = a
  · subst e; simp
  · simp [e, tget_tset_other _ _ _ _ e]

@[simp] theorem Hub.rd_wr_same (h : Hub) (a : Nat) (w : Word) : (h.wr a w).rd a = w := by simp [Hub.rd_wr]

theorem Hub.rd_wr_ne (h : Hub) {a b : Nat} (w : Word) (e : b ≠ a) : (h.wr a w).rd b = h.rd b := by simp [Hub.rd_wr, e]

theorem Hub.rd_congr {h h' : Hub} (e : h'.regs = h.regs) (a : Nat) : h'.rd a = h.rd a := by unfold Hub.rd; rw [e]
theorem Hub.fld_congr {h h' : Hub} (e : h'.regs = h.regs) (a : Nat) (f : Nat × Nat) : h'.fld a f = h.fld a f := by
  unfold Hub.fld; rw [Hub.rd_congr e]
theorem Hub.flag_congr {h h' : Hub} (e : h'.regs = h.regs) (a : Nat) (f : Nat × Nat) : h'.flag a f = h.flag a f := by
  unfold Hub.flag; rw [Hub.fld_congr e]

theorem Hub.rd_setFld_ne (h : Hub) {a b : Nat} (f : Nat × Nat) (v : Nat) (e : b ≠ a) : (h.setFld a f v).rd b = h.rd b :=
  h.rd_wr_ne _ e
theorem Hub.rd_evt_ne (h : Hub) {a b : Nat} (f : Nat × Nat) (e : b ≠ a) : (h.evt a f).rd b = h.rd b := h.rd_wr_ne _ e
theorem Hub.rd_evtN_ne (h : Hub) {a b : Nat} (f : Nat × Nat) (n : Nat) (e : b ≠ a) : (h.evtN a f n).rd b = h.rd b := h.rd_wr_ne _ e
theorem Hub.rd_countN_ne (h : Hub) {a b : Nat} (n : Nat) (e : b ≠ a) : (h.countN a n).rd b = h.rd b := h.rd_wr_ne _ e
theorem Hub.rd_count_ne (h : Hub) {a b : Nat} (e : b ≠ a) : (h.count a).rd b = h.rd b := h.rd_wr_ne _ e
theorem Hub.rd_countFld_ne (h : Hub) {a b : Nat} (f : Nat × Nat) (e : b ≠ a) : (h.countFld a f).rd b = h.rd b := h.rd_wr_ne _ e

/-- The field that was set reads as the value, cut to its width. -/
theorem Hub.fld_setFld (h : Hub) (a : Nat) (f : Nat × Nat) (v : Nat) (hf : f.1 + f.2 ≤ 32) :
    (h.setFld a f v).fld a f = v % 2 ^ f.2 := by
  simp [Hub.setFld, Hub.fld, bits_putBits_same _ _ _ hf]

/-- A field of the same word that does not meet the one set. -/
theorem Hub.fld_setFld_ne (h : Hub) (a : Nat) (f g : Nat × Nat) (v : Nat) (hd : f.1 + f.2 ≤ g.1 ∨ g.1 + g.2 ≤ f.1) :
    (h.setFld a f v).fld a g = h.fld a g := by
  simp [Hub.setFld, Hub.fld, bits_putBits_ne _ _ _ _ hd]

/-- An event bit that was set reads 1. -/
theorem Hub.fld_evt (h : Hub) (a n : Nat) (hn : n < 32) : (h.evt a (n, 1)).fld a (n, 1) = 1 := by
  simp only [Hub.evt, Hub.fld, Hub.rd_wr_same]
  exact bits_or_flag _ _ hn

/-- A statistics counter after counting (R6). -/
theorem Hub.rd_countN (h : Hub) (a n : Nat) : (h.countN a n).rd a = word (min 0xFFFFFFFF ((h.rd a).toNat + n)) := by
  simp [Hub.countN]

theorem Hub.rd_count (h : Hub) (a : Nat) : (h.count a).rd a = word (min 0xFFFFFFFF ((h.rd a).toNat + 1)) := h.rd_countN a 1

@[simp] theorem Hub.rd_emit (h : Hub) (o : Output) (a : Nat) : (h.emit o).rd a = h.rd a := rfl
@[simp] theorem Hub.rd_tick (h : Hub) (a : Nat) : h.tick.rd a = h.rd a := rfl

end Sys2Proof.Machine
end

