-- ==== Sys2Proof/Laws/Answer.lean ====
section
/-! SUPPORT. The outcome forms of a meaning, and the acceptance and the answer of a host command. -/

namespace Sys2Proof.Machine

/-! ## The outcome forms -/

theorem State.on_eq (s : State) (f : Hub → Hub) : s.on f = .next { s with hub := if s.hub.held then s.hub else f s.hub } := rfl

/-- A hub that is not held in reset has the whole effect. -/
theorem State.on_run {s : State} (hh : s.hub.held = false) (f : Hub → Hub) : s.on f = .next { s with hub := f s.hub } := by
  simp [State.on, hh]

/-- A hub that is held in reset stays as it is. -/
theorem State.on_held {s : State} (hh : s.hub.held = true) (f : Hub → Hub) : s.on f = .next s := by simp [State.on, hh]

theorem State.onPowered_run {s : State} (hh : s.hub.glb.inCold = false) (f : Hub → Hub) :
    s.onPowered f = .next { s with hub := f s.hub } := by simp [State.onPowered, hh]

theorem Hub.held_of {h : Hub} (hh : h.held = false) : h.glb.inCold = false ∧ h.glb.pllHold = false := by
  simpa [Hub.held] using hh

/-- A command that acts on a running hub gives the hub that its meaning makes. -/
theorem gives_on {i : Instr} {s : State} {P : State → Prop} (f : Hub → Hub) (hh : s.hub.held = false) (he : exec i s = s.on f)
    (hp : P { s with hub := f s.hub }) : Gives i s P := ⟨_, he.trans (State.on_run hh f), hp⟩

theorem gives_powered {i : Instr} {s : State} {P : State → Prop} (f : Hub → Hub) (hh : s.hub.glb.inCold = false)
    (he : exec i s = s.onPowered f) (hp : P { s with hub := f s.hub }) : Gives i s P := ⟨_, he.trans (State.onPowered_run hh f), hp⟩

theorem gives_any {i : Instr} {s : State} {P : State → Prop} (f : Hub → Hub) (he : exec i s = s.onAny f)
    (hp : P { s with hub := f s.hub }) : Gives i s P := ⟨_, he, hp⟩

/-- On a running hub, the hub that a command makes is the one its meaning makes. -/
theorem makes_on {i : Instr} {s : State} {h : Hub} (f : Hub → Hub) (hh : s.hub.held = false) (he : exec i s = s.on f)
    (hf : f s.hub = h) : Makes i s h := by rw [Makes, he, State.on_run hh, hf]

theorem makes_powered {i : Instr} {s : State} {h : Hub} (f : Hub → Hub) (hh : s.hub.glb.inCold = false)
    (he : exec i s = s.onPowered f) (hf : f s.hub = h) : Makes i s h := by rw [Makes, he, State.onPowered_run hh, hf]

theorem makes_any {i : Instr} {s : State} {h : Hub} (f : Hub → Hub) (he : exec i s = s.onAny f) (hf : f s.hub = h) :
    Makes i s h := by rw [Makes, he, State.onAny, hf]

/-! ## Frames -/

/-- A frame from the hub's parts. -/
theorem only_hub {ps : List Part} {s : State} {h : Hub} (hn : h.now = s.hub.now) (hp : ∀ p, p ∉ ps → s.hub.same h p) :
    Only ps s { s with hub := h } := ⟨rfl, rfl, hn, hp⟩

theorem Only.refl (ps : List Part) (s : State) : Only ps s s :=
  ⟨rfl, rfl, rfl, fun p _ => by cases p <;> rfl⟩

theorem Only.trans {ps : List Part} {s t u : State} (h1 : Only ps s t) (h2 : Only ps t u) : Only ps s u := by
  refine ⟨h2.1.trans h1.1, h2.2.1.trans h1.2.1, h2.2.2.1.trans h1.2.2.1, fun p hp => ?_⟩
  have a := h1.2.2.2 p hp
  have b := h2.2.2.2 p hp
  cases p <;> exact Eq.trans b a

theorem Only.mono {ps qs : List Part} {s t : State} (h : Only ps s t) (hs : ∀ p, p ∈ ps → p ∈ qs) : Only qs s t :=
  ⟨h.1, h.2.1, h.2.2.1, fun p hp => h.2.2.2 p fun hq => hp (hs p hq)⟩

theorem RegsBut.refl (as : List Nat) (s : State) : RegsBut as s s := fun _ _ => rfl

theorem Hub.fld_of_rd {h k : Hub} {a : Nat} (f : Nat × Nat) (e : k.rd a = h.rd a) : k.fld a f = h.fld a f := by
  unfold Hub.fld
  rw [e]

theorem Hub.flag_of_rd {h k : Hub} {a : Nat} (f : Nat × Nat) (e : k.rd a = h.rd a) : k.flag a f = h.flag a f := by
  unfold Hub.flag
  rw [Hub.fld_of_rd f e]

theorem Hub.flag_evt (h : Hub) (a n : Nat) (hn : n < 32) : (h.evt a (n, 1)).flag a (n, 1) = true := by
  unfold Hub.flag
  rw [Hub.fld_evt h a n hn]
  rfl

/-! ## The answer -/

/-- Register words outside the host's window are none of an answer's. -/
theorem not_ackRegs {a : Nat} (c : CmdIn) (s : State) (h : a < 0x4010 ∨ 0x6000 ≤ a) : a ∉ ackRegs c s := by
  unfold ackRegs
  split
  next q _ =>
    simp only [answerRegs, List.mem_cons, List.mem_map, List.mem_range, not_or, not_exists, not_and, Reg.HQ_INPROG, Reg.HOST_EVT,
      Reg.HQ_RSP, Reg.HQ_RSP_SLOT]
    refine ⟨by omega, by omega, by omega, fun j hj => by omega⟩
  next q _ =>
    simp only [answerRegs, List.mem_cons, List.mem_map, List.mem_range, not_or, not_exists, not_and, Reg.HOST_EVT, Reg.HQ_RSP,
      Reg.HQ_RSP_SLOT]
    refine ⟨by omega, by omega, fun j hj => by omega⟩
  · simp

theorem HQ_RSP_not_sendRegs (q : Fin 4) : Reg.HQ_RSP q ∉ sendRegs := by
  simp [sendRegs, Reg.HQ_RSP, Reg.TWIN_CNT_JNL_OVERFLOW, Reg.TWIN_EVT, Reg.SWC_EVT, Reg.TM_CNT_MISROUTE, Reg.TM_CNT_NO_LAUNCH,
    Reg.TM_EVT]
  omega

theorem HQ_INPROG_not_sendRegs (q : Fin 4) : Reg.HQ_INPROG q ∉ sendRegs := by
  simp [sendRegs, Reg.HQ_INPROG, Reg.TWIN_CNT_JNL_OVERFLOW, Reg.TWIN_EVT, Reg.SWC_EVT, Reg.TM_CNT_MISROUTE, Reg.TM_CNT_NO_LAUNCH,
    Reg.TM_EVT]
  omega

theorem Hub.post_fields (h : Hub) (q code tag status detail obj : Nat) (res : List Word) :
    h.post q code tag status detail obj res =
      { h with regs := (h.post q code tag status detail obj res).regs } := by
  simp [Hub.post, List.range, List.range.loop, Hub.wr, Hub.setFld, Hub.evtN]

theorem Hub.rd_post (h : Hub) (q code tag status detail obj : Nat) (res : List Word) (a : Nat)
    (h1 : a ≠ Reg.HOST_EVT) (h2 : a ≠ Reg.HQ_RSP q)
    (h3 : ∀ j, j < 8 → a ≠ Reg.HQ_RSP_SLOT q (h.fld (Reg.HQ_RSP q) F.HQ_RSP_TAIL % 16 * 8 + j)) :
    (h.post q code tag status detail obj res).rd a = h.rd a := by
  unfold Hub.post
  simp only [List.range, List.range.loop, List.foldl]
  rw [Hub.rd_evtN_ne _ _ _ h1, Hub.rd_setFld_ne _ _ _ h2]
  repeat rw [Hub.rd_wr_ne _ _ (h3 _ (by decide))]

theorem Hub.slot_post (h : Hub) (q code tag status detail obj : Nat) (res : List Word) (i : Nat) (hi : i < 8) :
    (h.post q code tag status detail obj res).rd (Reg.HQ_RSP_SLOT q (h.fld (Reg.HQ_RSP q) F.HQ_RSP_TAIL % 16 * 8 + i)) =
      (word (code % 65536 + tag % 256 * 65536 + status * 2 ^ 24) ::
        (if h.fld (Reg.HQ_CFG q) F.HQ_CFG_VERSION = 1 then 0 else word (detail % 65536 + obj % 256 * 65536)) ::
          ((res ++ List.replicate 6 0).take 6)).getD i 0 := by
  unfold Hub.post
  simp only [List.range, List.range.loop, List.foldl]
  rw [Hub.rd_evtN_ne _ _ _ (by simp [Reg.HQ_RSP_SLOT, Reg.HOST_EVT]; omega),
    Hub.rd_setFld_ne _ _ _ (by simp [Reg.HQ_RSP_SLOT, Reg.HQ_RSP]; omega)]
  generalize h.fld (Reg.HQ_RSP q) F.HQ_RSP_TAIL % 16 * 8 = x
  have e : ∀ a b : Nat, (Reg.HQ_RSP_SLOT q (x + a) = Reg.HQ_RSP_SLOT q (x + b)) = (a = b) := by
    intro a b; simp only [Reg.HQ_RSP_SLOT, eq_iff_iff]; omega
  simp only [Hub.rd_wr, e]
  have hc : i = 0 ∨ i = 1 ∨ i = 2 ∨ i = 3 ∨ i = 4 ∨ i = 5 ∨ i = 6 ∨ i = 7 := by omega
  rcases hc with rfl | rfl | rfl | rfl | rfl | rfl | rfl | rfl <;> simp

/-- A response leaves everything but register words and the script's answer. -/
theorem Hub.respond_fields (h : Hub) (r : CmdRef) (status detail obj : Nat) (res : List Word) :
    h.respond r status detail obj res =
      { h with regs := (h.respond r status detail obj res).regs, glb := (h.respond r status detail obj res).glb } := by
  unfold Hub.respond
  split
  · rw [Hub.post_fields]
  · rfl
  · split
    · rw [Hub.post_fields]
    · rfl

theorem Hub.respond_rd (h : Hub) (c : CmdIn) (status detail obj : Nat) (res : List Word) (s : State) (a : Nat)
    (ht : ∀ q, c.src = .queue q ∨ c.src = .journal q → h.fld (Reg.HQ_RSP q) F.HQ_RSP_TAIL = s.hub.fld (Reg.HQ_RSP q) F.HQ_RSP_TAIL)
    (ha : a ∉ ackRegs c s) : (h.respond c.ref status detail obj res).rd a = h.rd a := by
  unfold Hub.respond
  have e : c.ref.src = c.src := rfl
  rw [e]
  split
  next q hq =>
    simp only [ackRegs, hq, answerRegs, List.mem_cons, List.mem_map, List.mem_range, not_or, not_exists, not_and] at ha
    refine Hub.rd_post _ _ _ _ _ _ _ _ _ ha.2.1 ha.2.2.1 fun j hj => ?_
    rw [ht q (.inl hq)]
    exact fun e => ha.2.2.2 j hj e.symm
  · rfl
  next q hq =>
    split
    · simp only [ackRegs, hq, answerRegs, List.mem_cons, List.mem_map, List.mem_range, not_or, not_exists, not_and] at ha
      refine Hub.rd_post _ _ _ _ _ _ _ _ _ ha.1 ha.2.1 fun j hj => ?_
      rw [ht q (.inr hq)]
      exact fun e => ha.2.2 j hj e.symm
    · rfl

theorem Hub.respond_glb (h : Hub) (r : CmdRef) (status detail obj : Nat) (res : List Word) :
    (h.respond r status detail obj res).glb = match r.src with
      | .script => { h.glb with scriptAns := some status }
      | _ => h.glb := by
  unfold Hub.respond
  split
  next q hq => rw [Hub.post_fields, hq]
  next hq => rw [hq]
  next q hq =>
    rw [hq]
    split
    · rw [Hub.post_fields]
    · rfl

/-- A response with at most six result words is put on its queue. -/
theorem posted_post {s t : State} {h : Hub} (q : Fin 4) (c : CmdIn) (status : Nat) (res : List Word)
    (ht : h.fld (Reg.HQ_RSP q) F.HQ_RSP_TAIL = s.hub.fld (Reg.HQ_RSP q) F.HQ_RSP_TAIL) (hr : res.length ≤ 6)
    (e : t.hub = h.post q c.code c.tag status 0 0 res) : Posted q c status res s t := by
    unfold Posted
    rw [e, ← ht]
    refine ⟨?_, ?_, ?_, ?_⟩
    · exact (h.slot_post q c.code c.tag status 0 0 res 0 (by decide)).trans rfl
    · intro j hj
      have := h.slot_post q c.code c.tag status 0 0 res (2 + j) (by omega)
      rw [← Nat.add_assoc] at this
      exact this.trans (by
        have : 2 + j = j + 1 + 1 := by omega
        rw [this, List.getD_cons_succ, List.getD_cons_succ]
        simp only [List.getD_eq_getElem?_getD, List.getElem?_take, List.getElem?_append, hj, if_true]
        by_cases hl : j < res.length
        · simp [hl]
        · have h2 : res[j]? = none := List.getElem?_eq_none (by omega)
          have h3 : j - res.length < 6 := by omega
          rw [if_neg hl, List.getElem?_replicate, if_pos h3]
          simp [h2])
    · unfold Hub.post
      simp only [Hub.evtN]
      rw [Hub.fld, Hub.rd_wr_ne _ _ (by simp [Reg.HQ_RSP, Reg.HOST_EVT]; omega), ← Hub.fld, Hub.fld_setFld _ _ _ _ (by decide)]
      simp [F.HQ_RSP_TAIL]
    · unfold Hub.post
      simp only [Hub.evtN, Hub.fld, Hub.rd_wr_same]
      have : q.val < 4 := q.isLt
      rw [show F.HOST_EVT_RSP.1 + q.val = q.val from by simp [F.HOST_EVT_RSP], testBit_bits_or _ _ _ _ (by omega)]
      simp [F.HOST_EVT_RSP, this]

/-- After a response with at most six result words, the command is answered. -/
theorem answered_respond {s t : State} {h : Hub} (c : CmdIn) (status : Nat) (res : List Word)
    (ht : ∀ q, c.src = .queue q ∨ c.src = .journal q → h.fld (Reg.HQ_RSP q) F.HQ_RSP_TAIL = s.hub.fld (Reg.HQ_RSP q) F.HQ_RSP_TAIL)
    (hr : res.length ≤ 6) (e : t.hub = h.respond c.ref status 0 0 res) : Answered c status res s t := by
  unfold Answered
  have e' : t.hub = match c.src with
      | .queue q => h.post q c.code c.tag status 0 0 res
      | .script => { h with glb := { h.glb with scriptAns := some status } }
      | .journal q => if h.acts then h.post q c.code c.tag status 0 0 res else h := e
  cases hq : c.src with
  | queue q => exact posted_post q c status res (ht q (.inl hq)) hr (by rw [e', hq])
  | script => simp [e', hq]
  | journal q =>
    intro ha
    rw [hq] at e'
    cases hh : h.acts with
    | true => exact posted_post q c status res (ht q (.inr hq)) hr (by simpa [hh] using e')
    | false =>
      have e2 : t.hub = h := by simpa [hh] using e'
      rw [e2, hh] at ha
      exact absurd ha (by decide)

/-- The acceptance of a command that passes the checks of R455. -/
theorem accept_run {s : State} {c : CmdIn} (ha : Accepts s c) (run : Hub → CmdIn → Ack) :
    s.hub.accept c run = match run s.hub c with
      | .refuse st d o => s.hub.refuse c st d o
      | .done h res => h.respond c.ref sOK 0 0 res
      | .later h => match c.src with
        | .queue q => h.setFld (Reg.HQ_INPROG q) F.HQ_INPROG (min 31 (h.fld (Reg.HQ_INPROG q) F.HQ_INPROG + 1))
        | _ => h := by
  obtain ⟨-, h2, h3, h4⟩ := ha
  have e : s.hub.jnlCmd c = s.hub := by
    unfold Hub.jnlCmd
    split
    next q hq =>
      rw [hq] at h4
      simp [Hub.jnl, h4]
    · rfl
  unfold Hub.accept
  rw [if_neg (by simp [h2])]
  simp only [e, h3] <;> cases run s.hub c <;> rfl

theorem accept_done {s : State} {c : CmdIn} {run : Hub → CmdIn → Ack} {h : Hub} {res : List Word} (ha : Accepts s c)
    (hr : run s.hub c = .done h res) : s.hub.accept c run = h.respond c.ref sOK 0 0 res := by rw [accept_run ha, hr]

theorem accept_later {s : State} {c : CmdIn} {run : Hub → CmdIn → Ack} {h : Hub} (ha : Accepts s c) (hr : run s.hub c = .later h) :
    s.hub.accept c run = match c.src with
      | .queue q => h.setFld (Reg.HQ_INPROG q) F.HQ_INPROG (min 31 (h.fld (Reg.HQ_INPROG q) F.HQ_INPROG + 1))
      | _ => h := by rw [accept_run ha, hr]

theorem accept_refuse {s : State} {c : CmdIn} {run : Hub → CmdIn → Ack} {st d o : Nat} (ha : Accepts s c)
    (hr : run s.hub c = .refuse st d o) : s.hub.accept c run = s.hub.refuse c st d o := by rw [accept_run ha, hr]

@[simp] theorem mkCmd_src (src : CmdSrc) (code : Nat) (tag : Byte) (args : List Word) : (mkCmd src code tag args).src = src := rfl
@[simp] theorem mkCmd_code (src : CmdSrc) (code : Nat) (tag : Byte) (args : List Word) : (mkCmd src code tag args).code = code := rfl
@[simp] theorem mkCmd_ref (src : CmdSrc) (code : Nat) (tag : Byte) (args : List Word) :
    (mkCmd src code tag args).ref = ⟨src, code, tag.toNat⟩ := rfl

/-- What a command that completes at once does, in one form: it is answered OK, beyond its own effect `h` only the answer changes
anything, and what holds of every hub that agrees with `h` but for the answer holds after it. -/
theorem gives_done {i : Instr} {s : State} {c : CmdIn} {h : Hub} {res : List Word} {P : State → Prop}
    (f : Hub → Hub) (ps : List Part) (as : List Nat) (he : exec i s = s.on f) (ha : Accepts s c)
    (hf : f s.hub = h.respond c.ref sOK 0 0 res) (hl : res.length ≤ 6) (hn : h.now = s.hub.now)
    (ho : ∀ p, p ∉ Part.regs :: ps → s.hub.same h p) (hg : h.glb = s.hub.glb) (hreg : ∀ a, a ∉ as → h.rd a = s.hub.rd a)
    (hq : ∀ q : Fin 4, Reg.HQ_RSP q ∉ as)
    (hp : ∀ k : Hub, (∀ p, p ≠ .regs → p ≠ .glb → h.same k p) → (∀ a, a ∉ ackRegs c s → k.rd a = h.rd a) → P { s with hub := k }) :
    Gives i s fun t => Answered c sOK res s t ∧ CmdOnly ps as c s t ∧ P t := by
  have ht : ∀ q : Fin 4, c.src = .queue q ∨ c.src = .journal q → h.fld (Reg.HQ_RSP q) F.HQ_RSP_TAIL = s.hub.fld (Reg.HQ_RSP q) F.HQ_RSP_TAIL := by
    intro q _
    simp only [Hub.fld]
    rw [hreg _ (hq q)]
  have hs : ∀ p, p ≠ .regs → p ≠ .glb → h.same (h.respond c.ref sOK 0 0 res) p := by
    intro p h1 h2
    rw [Hub.respond_fields]
    cases p <;> first | rfl | contradiction
  refine gives_on f ha.1 he ?_
  rw [hf]
  refine ⟨answered_respond c sOK res ht hl rfl, ⟨⟨rfl, rfl, ?_, ?_⟩, ?_, ?_⟩, hp _ hs fun a h' => h.respond_rd c sOK 0 0 res s a ht h'⟩
  · rw [Hub.respond_fields]
    exact hn
  · intro p hp
    simp only [List.mem_cons, not_or] at hp
    have h1 := hs p hp.1 hp.2.1
    have h2 := ho p (by simp only [List.mem_cons, not_or]; exact ⟨hp.1, hp.2.2⟩)
    cases p <;> exact Eq.trans h1 h2
  · intro a ha'
    simp only [List.mem_append, not_or] at ha'
    exact (h.respond_rd c sOK 0 0 res s a ht ha'.2).trans (hreg a ha'.1)
  · rw [Hub.respond_glb, show c.ref.src = c.src from rfl, hg]
    cases c.src <;> rfl

/-- A hub after `h`, with the command of `c` counted in progress. -/
def Hub.busyWith (h : Hub) (c : CmdIn) : Hub :=
  match c.src with
  | .queue q => h.setFld (Reg.HQ_INPROG q) F.HQ_INPROG (min 31 (h.fld (Reg.HQ_INPROG q) F.HQ_INPROG + 1))
  | _ => h

/-- What a command that answers on completion does at once, in one form: it is counted in progress, and beyond its effect `h` nothing
else changes. -/
theorem gives_later {i : Instr} {s : State} {c : CmdIn} {h : Hub} {P : State → Prop}
    (f : Hub → Hub) (ps : List Part) (as : List Nat) (he : exec i s = s.on f) (ha : Accepts s c)
    (hf : f s.hub = h.busyWith c) (hn : h.now = s.hub.now)
    (ho : ∀ p, p ∉ Part.regs :: ps → s.hub.same h p) (hg : h.glb = s.hub.glb) (hreg : ∀ a, a ∉ as → h.rd a = s.hub.rd a)
    (hq : ∀ q : Fin 4, Reg.HQ_INPROG q ∉ as)
    (hp : ∀ k : Hub, (∀ p, p ≠ .regs → h.same k p) → (∀ a, (∀ q, a ≠ Reg.HQ_INPROG q) → k.rd a = h.rd a) → P { s with hub := k }) :
    Gives i s fun t => InProgress c s t ∧ CmdOnly ps as c s t ∧ P t := by
  have key : ∀ p, p ≠ .regs → h.same (h.busyWith c) p := by
    intro p hp
    unfold Hub.busyWith
    split <;> cases p <;> first | rfl | contradiction
  have hrd : ∀ a, (∀ q, c.src = .queue q → a ≠ Reg.HQ_INPROG q) → (h.busyWith c).rd a = h.rd a := by
    intro a h'
    unfold Hub.busyWith
    split
    next q hq => exact Hub.rd_setFld_ne _ _ _ (h' q hq)
    · rfl
  refine gives_on f ha.1 he ?_
  rw [hf]
  refine ⟨?_, ⟨⟨rfl, rfl, ?_, ?_⟩, ?_, ?_⟩, hp _ key fun a h' => hrd a fun q _ => h' q⟩
  · unfold InProgress Hub.busyWith
    cases c.src with
    | queue q =>
      simp only
      rw [Hub.fld_setFld _ _ _ _ (by decide)]
      have : h.fld (Reg.HQ_INPROG q) F.HQ_INPROG = s.hub.fld (Reg.HQ_INPROG q) F.HQ_INPROG := by simp only [Hub.fld]; rw [hreg _ (hq q)]
      rw [this]
      exact Nat.mod_eq_of_lt (by simp only [F.HQ_INPROG]; omega)
    | _ => trivial
  · refine Eq.trans ?_ hn
    unfold Hub.busyWith
    split <;> rfl
  · intro p hp
    simp only [List.mem_cons, not_or] at hp
    have h1 := key p hp.1
    have h2 := ho p (by simp only [List.mem_cons, not_or]; exact ⟨hp.1, hp.2.2⟩)
    cases p <;> exact Eq.trans h1 h2
  · intro a ha'
    simp only [List.mem_append, not_or, ackRegs] at ha'
    refine (hrd a fun q hq e => ?_).trans (hreg a ha'.1)
    exact ha'.2 (by rw [hq]; simp [e])
  · have e : (h.busyWith c).glb = h.glb := by unfold Hub.busyWith; split <;> rfl
    simp only [e, hg]
    cases c.src <;> rfl

/-- The acceptance of a command that answers on completion. -/
theorem accept_busy {s : State} {c : CmdIn} {run : Hub → CmdIn → Ack} {h : Hub} (ha : Accepts s c) (hr : run s.hub c = .later h) :
    s.hub.accept c run = h.busyWith c := accept_later ha hr

end Sys2Proof.Machine
end

