-- ==== Sys2Proof/Laws/Send.lean ====
section
/-! SUPPORT. Journaling a record and sending a frame of the node's own: each changes the parts its `fields` lemma names, and no other. -/

namespace Sys2Proof.Machine

/-! ## The journal -/

/-- A record changes the twin's part, and the two registers that an overflow writes. -/
theorem Hub.jnl_fields (h : Hub) (kind : Nat) (body : List Word) :
    h.jnl kind body = { h with regs := (h.jnl kind body).regs, twin := (h.jnl kind body).twin } := by
  unfold Hub.jnl
  dsimp only
  split
  · rfl
  · split <;> rfl


@[simp] theorem Hub.jnl_now (h : Hub) (kind : Nat) (body : List Word) : (h.jnl kind body).now = h.now := by rw [Hub.jnl_fields]
@[simp] theorem Hub.jnl_freeCtr (h : Hub) (kind : Nat) (body : List Word) : (h.jnl kind body).freeCtr = h.freeCtr := by rw [Hub.jnl_fields]
@[simp] theorem Hub.jnl_out (h : Hub) (kind : Nat) (body : List Word) : (h.jnl kind body).out = h.out := by rw [Hub.jnl_fields]
@[simp] theorem Hub.jnl_glb (h : Hub) (kind : Nat) (body : List Word) : (h.jnl kind body).glb = h.glb := by rw [Hub.jnl_fields]
@[simp] theorem Hub.jnl_host (h : Hub) (kind : Nat) (body : List Word) : (h.jnl kind body).host = h.host := by rw [Hub.jnl_fields]
@[simp] theorem Hub.jnl_tim (h : Hub) (kind : Nat) (body : List Word) : (h.jnl kind body).tim = h.tim := by rw [Hub.jnl_fields]
@[simp] theorem Hub.jnl_ring (h : Hub) (kind : Nat) (body : List Word) : (h.jnl kind body).ring = h.ring := by rw [Hub.jnl_fields]
@[simp] theorem Hub.jnl_swc (h : Hub) (kind : Nat) (body : List Word) : (h.jnl kind body).swc = h.swc := by rw [Hub.jnl_fields]
@[simp] theorem Hub.jnl_tm (h : Hub) (kind : Nat) (body : List Word) : (h.jnl kind body).tm = h.tm := by rw [Hub.jnl_fields]
@[simp] theorem Hub.jnl_chk (h : Hub) (kind : Nat) (body : List Word) : (h.jnl kind body).chk = h.chk := by rw [Hub.jnl_fields]
@[simp] theorem Hub.jnl_pt (h : Hub) (kind : Nat) (body : List Word) : (h.jnl kind body).pt = h.pt := by rw [Hub.jnl_fields]
@[simp] theorem Hub.jnl_car (h : Hub) (kind : Nat) (body : List Word) : (h.jnl kind body).car = h.car := by rw [Hub.jnl_fields]
@[simp] theorem Hub.jnl_ln (h : Hub) (kind : Nat) (body : List Word) : (h.jnl kind body).ln = h.ln := by rw [Hub.jnl_fields]
@[simp] theorem Hub.jnl_fret (h : Hub) (kind : Nat) (body : List Word) : (h.jnl kind body).fret = h.fret := by rw [Hub.jnl_fields]
@[simp] theorem Hub.jnl_can (h : Hub) (kind : Nat) (body : List Word) : (h.jnl kind body).can = h.can := by rw [Hub.jnl_fields]
@[simp] theorem Hub.jnl_usb (h : Hub) (kind : Nat) (body : List Word) : (h.jnl kind body).usb = h.usb := by rw [Hub.jnl_fields]
@[simp] theorem Hub.jnl_net (h : Hub) (kind : Nat) (body : List Word) : (h.jnl kind body).net = h.net := by rw [Hub.jnl_fields]
@[simp] theorem Hub.jnl_start (h : Hub) (kind : Nat) (body : List Word) : (h.jnl kind body).start = h.start := by rw [Hub.jnl_fields]

theorem Hub.jnl_rd (h : Hub) (k : Nat) (b : List Word) {a : Nat} (h1 : a ≠ Reg.TWIN_CNT_JNL_OVERFLOW) (h2 : a ≠ Reg.TWIN_EVT) :
    (h.jnl k b).rd a = h.rd a := by
  unfold Hub.jnl
  dsimp only
  split
  · rfl
  · split
    · rfl
    · rw [Hub.rd_evt_ne _ _ h2, Hub.rd_count_ne _ h1]; rfl

/-- A hub that is not the active one of a twin keeps no journal. -/
theorem Hub.jnl_idle {h : Hub} (k : Nat) (b : List Word) (ha : h.twin.role ≠ .active) : h.jnl k b = h := by
  unfold Hub.jnl
  rw [if_pos (by simp [ha])]

/-! ## Frames of the node's own -/

/-- An originated frame takes a sequence number and waits on its port to be placed in the next cycle. -/
theorem Hub.originate_fields (h : Hub) (typ flags dst : Nat) (group : Bool) (flow strum alive q : Nat) (launch doneTag : Option Nat)
    (lossy : Bool) (pay : Nat → List Byte ⊕ Draft) :
    h.originate typ flags dst group flow strum alive q launch doneTag lossy pay =
      { h with ring := { h.ring with seq := (h.ring.seq + 1) % 65536 },
               swc := (h.originate typ flags dst group flow strum alive q launch doneTag lossy pay).swc } := rfl

/-- Sending the request of a tag notes the time of its last transmission and may originate its frame. -/
theorem Hub.sendTag_fields (h : Hub) (t : Nat) (retry : Bool) :
    h.sendTag t retry = { h with pt := (h.setTag t { h.tag t with lastTx := h.now }).pt, ring := (h.sendTag t retry).ring,
                                 swc := (h.sendTag t retry).swc } := by
  unfold Hub.sendTag
  dsimp only
  split <;> rfl


@[simp] theorem Hub.sendTag_now (h : Hub) (t : Nat) (retry : Bool) : (h.sendTag t retry).now = h.now := by rw [Hub.sendTag_fields]
@[simp] theorem Hub.sendTag_regs (h : Hub) (t : Nat) (retry : Bool) : (h.sendTag t retry).regs = h.regs := by rw [Hub.sendTag_fields]
@[simp] theorem Hub.sendTag_freeCtr (h : Hub) (t : Nat) (retry : Bool) : (h.sendTag t retry).freeCtr = h.freeCtr := by rw [Hub.sendTag_fields]
@[simp] theorem Hub.sendTag_out (h : Hub) (t : Nat) (retry : Bool) : (h.sendTag t retry).out = h.out := by rw [Hub.sendTag_fields]
@[simp] theorem Hub.sendTag_glb (h : Hub) (t : Nat) (retry : Bool) : (h.sendTag t retry).glb = h.glb := by rw [Hub.sendTag_fields]
@[simp] theorem Hub.sendTag_host (h : Hub) (t : Nat) (retry : Bool) : (h.sendTag t retry).host = h.host := by rw [Hub.sendTag_fields]
@[simp] theorem Hub.sendTag_tim (h : Hub) (t : Nat) (retry : Bool) : (h.sendTag t retry).tim = h.tim := by rw [Hub.sendTag_fields]
@[simp] theorem Hub.sendTag_twin (h : Hub) (t : Nat) (retry : Bool) : (h.sendTag t retry).twin = h.twin := by rw [Hub.sendTag_fields]
@[simp] theorem Hub.sendTag_tm (h : Hub) (t : Nat) (retry : Bool) : (h.sendTag t retry).tm = h.tm := by rw [Hub.sendTag_fields]
@[simp] theorem Hub.sendTag_chk (h : Hub) (t : Nat) (retry : Bool) : (h.sendTag t retry).chk = h.chk := by rw [Hub.sendTag_fields]
@[simp] theorem Hub.sendTag_car (h : Hub) (t : Nat) (retry : Bool) : (h.sendTag t retry).car = h.car := by rw [Hub.sendTag_fields]
@[simp] theorem Hub.sendTag_ln (h : Hub) (t : Nat) (retry : Bool) : (h.sendTag t retry).ln = h.ln := by rw [Hub.sendTag_fields]
@[simp] theorem Hub.sendTag_fret (h : Hub) (t : Nat) (retry : Bool) : (h.sendTag t retry).fret = h.fret := by rw [Hub.sendTag_fields]
@[simp] theorem Hub.sendTag_can (h : Hub) (t : Nat) (retry : Bool) : (h.sendTag t retry).can = h.can := by rw [Hub.sendTag_fields]
@[simp] theorem Hub.sendTag_usb (h : Hub) (t : Nat) (retry : Bool) : (h.sendTag t retry).usb = h.usb := by rw [Hub.sendTag_fields]
@[simp] theorem Hub.sendTag_net (h : Hub) (t : Nat) (retry : Bool) : (h.sendTag t retry).net = h.net := by rw [Hub.sendTag_fields]
@[simp] theorem Hub.sendTag_start (h : Hub) (t : Nat) (retry : Bool) : (h.sendTag t retry).start = h.start := by rw [Hub.sendTag_fields]

/-- Of the point port, only the time of its last transmission. -/
theorem Hub.sendTag_pt (h : Hub) (t : Nat) (retry : Bool) :
    (h.sendTag t retry).pt = (h.setTag t { h.tag t with lastTx := h.now }).pt := by rw [Hub.sendTag_fields]

/-! ## Delivered frames -/

/-- A delivered frame is noted in the journal alone. -/
theorem Hub.jnlRx_fields (h : Hub) (f : Frame) :
    h.jnlRx f = { h with regs := (h.jnlRx f).regs, twin := (h.jnlRx f).twin } := Hub.jnl_fields _ _ _


@[simp] theorem Hub.jnlRx_now (h : Hub) (f : Frame) : (h.jnlRx f).now = h.now := by rw [Hub.jnlRx_fields]
@[simp] theorem Hub.jnlRx_freeCtr (h : Hub) (f : Frame) : (h.jnlRx f).freeCtr = h.freeCtr := by rw [Hub.jnlRx_fields]
@[simp] theorem Hub.jnlRx_out (h : Hub) (f : Frame) : (h.jnlRx f).out = h.out := by rw [Hub.jnlRx_fields]
@[simp] theorem Hub.jnlRx_glb (h : Hub) (f : Frame) : (h.jnlRx f).glb = h.glb := by rw [Hub.jnlRx_fields]
@[simp] theorem Hub.jnlRx_host (h : Hub) (f : Frame) : (h.jnlRx f).host = h.host := by rw [Hub.jnlRx_fields]
@[simp] theorem Hub.jnlRx_tim (h : Hub) (f : Frame) : (h.jnlRx f).tim = h.tim := by rw [Hub.jnlRx_fields]
@[simp] theorem Hub.jnlRx_ring (h : Hub) (f : Frame) : (h.jnlRx f).ring = h.ring := by rw [Hub.jnlRx_fields]
@[simp] theorem Hub.jnlRx_swc (h : Hub) (f : Frame) : (h.jnlRx f).swc = h.swc := by rw [Hub.jnlRx_fields]
@[simp] theorem Hub.jnlRx_tm (h : Hub) (f : Frame) : (h.jnlRx f).tm = h.tm := by rw [Hub.jnlRx_fields]
@[simp] theorem Hub.jnlRx_chk (h : Hub) (f : Frame) : (h.jnlRx f).chk = h.chk := by rw [Hub.jnlRx_fields]
@[simp] theorem Hub.jnlRx_pt (h : Hub) (f : Frame) : (h.jnlRx f).pt = h.pt := by rw [Hub.jnlRx_fields]
@[simp] theorem Hub.jnlRx_car (h : Hub) (f : Frame) : (h.jnlRx f).car = h.car := by rw [Hub.jnlRx_fields]
@[simp] theorem Hub.jnlRx_ln (h : Hub) (f : Frame) : (h.jnlRx f).ln = h.ln := by rw [Hub.jnlRx_fields]
@[simp] theorem Hub.jnlRx_fret (h : Hub) (f : Frame) : (h.jnlRx f).fret = h.fret := by rw [Hub.jnlRx_fields]
@[simp] theorem Hub.jnlRx_can (h : Hub) (f : Frame) : (h.jnlRx f).can = h.can := by rw [Hub.jnlRx_fields]
@[simp] theorem Hub.jnlRx_usb (h : Hub) (f : Frame) : (h.jnlRx f).usb = h.usb := by rw [Hub.jnlRx_fields]
@[simp] theorem Hub.jnlRx_net (h : Hub) (f : Frame) : (h.jnlRx f).net = h.net := by rw [Hub.jnlRx_fields]
@[simp] theorem Hub.jnlRx_start (h : Hub) (f : Frame) : (h.jnlRx f).start = h.start := by rw [Hub.jnlRx_fields]

end Sys2Proof.Machine
end

