-- ==== Sys2Proof/Laws/Points.lean ====
section
/-! SUPPORT. The point port: what setting a range of records, giving up a subscription and issuing a transaction do. -/

namespace Sys2Proof.Machine

theorem foldl_setSlot (r : Rec) (first : Nat) : ∀ (n : Nat) (h : Hub),
    ((List.range n).foldl (fun h i => h.setSlot (first + i) r) h).pt = { h.pt with pts := ((List.range n).foldl (fun h i => h.setSlot (first + i) r) h).pt.pts } ∧
    (∀ p, p ≠ .pt → h.same ((List.range n).foldl (fun h i => h.setSlot (first + i) r) h) p) ∧
    ((List.range n).foldl (fun h i => h.setSlot (first + i) r) h).now = h.now ∧
    ∀ j, ((List.range n).foldl (fun h i => h.setSlot (first + i) r) h).slot j = if first ≤ j ∧ j < first + n then r else h.slot j := by
  intro n
  induction n with
  | zero => intro h; refine ⟨rfl, fun p hp => by cases p <;> rfl, rfl, fun j => ?_⟩; rw [if_neg (by omega)]; rfl
  | succ n ih =>
    intro h
    obtain ⟨h1, h2, h3, h4⟩ := ih h
    simp only [List.range_succ, List.foldl_append, List.foldl_cons, List.foldl_nil]
    generalize hk : (List.range n).foldl (fun h i => h.setSlot (first + i) r) h = k at *
    refine ⟨?_, ?_, h3, ?_⟩
    · simp only [Hub.setSlot]; rw [h1]
    · intro p hp; have := h2 p hp; cases p <;> first | exact this | contradiction
    · intro j
      rw [Hub.slot_setSlot, h4]
      by_cases e : j = first + n
      · subst e; simp
      · rw [if_neg e]
        by_cases e2 : first ≤ j ∧ j < first + n
        · rw [if_pos e2, if_pos (by omega)]
        · rw [if_neg e2, if_neg (by omega)]

theorem foldl_setMirE (r : Rec) (first : Nat) : ∀ (n : Nat) (h : Hub),
    (∀ p, p ≠ .pt → h.same ((List.range n).foldl (fun h i => h.setMirE (first + i) r) h) p) ∧
    ((List.range n).foldl (fun h i => h.setMirE (first + i) r) h).now = h.now ∧
    ((List.range n).foldl (fun h i => h.setMirE (first + i) r) h).pt = { h.pt with mir := ((List.range n).foldl (fun h i => h.setMirE (first + i) r) h).pt.mir } ∧
    ∀ j, ((List.range n).foldl (fun h i => h.setMirE (first + i) r) h).mirE j = if first ≤ j ∧ j < first + n then r else h.mirE j := by
  intro n
  induction n with
  | zero => intro h; refine ⟨fun p hp => by cases p <;> rfl, rfl, rfl, fun j => ?_⟩; rw [if_neg (by omega)]; rfl
  | succ n ih =>
    intro h
    obtain ⟨h1, h2, h3, h4⟩ := ih h
    simp only [List.range_succ, List.foldl_append, List.foldl_cons, List.foldl_nil]
    generalize hk : (List.range n).foldl (fun h i => h.setMirE (first + i) r) h = k at *
    refine ⟨?_, h2, ?_, ?_⟩
    · intro p hp; have := h1 p hp; cases p <;> first | exact this | contradiction
    · simp only [Hub.setMirE]; rw [h3]
    · intro j
      rw [Hub.mirE_setMirE, h4]
      by_cases e : j = first + n
      · subst e; simp
      · rw [if_neg e]
        by_cases e2 : first ≤ j ∧ j < first + n
        · rw [if_pos e2, if_pos (by omega)]
        · rw [if_neg e2, if_neg (by omega)]

theorem abandonSub_loop (i : Nat) : ∀ (n : Nat) (h : Hub),
    let f := fun (h : Hub) t => let g := h.tag t
      if g.st = .pending ∧ g.kind = .subscribe ∧ g.landing = i then h.setTag t { g with st := .quarantine, ref := none, parts := [], held := [] } else h
    (∀ p, p ≠ .pt → h.same ((List.range n).foldl f h) p) ∧ ((List.range n).foldl f h).now = h.now ∧
    ((List.range n).foldl f h).pt = { h.pt with tags := ((List.range n).foldl f h).pt.tags } ∧
    ∀ u, ((List.range n).foldl f h).tag u = if u < n ∧ (h.tag u).st = .pending ∧ (h.tag u).kind = .subscribe ∧ (h.tag u).landing = i then
          { h.tag u with st := .quarantine, ref := none, parts := [], held := [] } else h.tag u := by
  intro n
  induction n with
  | zero => intro h; refine ⟨fun p hp => by cases p <;> rfl, rfl, rfl, fun u => ?_⟩; rw [if_neg (by omega)]; rfl
  | succ n ih =>
    intro h f
    obtain ⟨h1, h2, h3, h4⟩ := ih h
    simp only [List.range_succ, List.foldl_append, List.foldl_cons, List.foldl_nil]
    change ∀ p, p ≠ Part.pt → h.same ((List.range n).foldl f h) p at h1
    change ((List.range n).foldl f h).now = h.now at h2
    change ((List.range n).foldl f h).pt = { h.pt with tags := ((List.range n).foldl f h).pt.tags } at h3
    change ∀ u, ((List.range n).foldl f h).tag u = _ at h4
    generalize (List.range n).foldl f h = k at *
    have hkn : k.tag n = h.tag n := by rw [h4, if_neg (by omega)]
    simp only [f]
    by_cases hc : (k.tag n).st = .pending ∧ (k.tag n).kind = .subscribe ∧ (k.tag n).landing = i
    · rw [if_pos hc]
      refine ⟨?_, h2, ?_, ?_⟩
      · intro p hp; have := h1 p hp; cases p <;> first | exact this | contradiction
      · simp only [Hub.setTag]; rw [h3]
      · intro u
        rw [Hub.tag_setTag]
        by_cases e : u = n
        · subst e; rw [if_pos rfl, hkn]; rw [hkn] at hc; rw [if_pos ⟨by omega, hc⟩]
        · rw [if_neg e, h4]
          by_cases e2 : u < n
          · simp only [e2, true_and, show u < n + 1 from by omega]
          · simp only [e2, false_and, show ¬ u < n + 1 from by omega]
    · rw [if_neg hc]
      refine ⟨h1, h2, h3, fun u => ?_⟩
      rw [h4]
      by_cases e : u = n
      · subst e; rw [hkn] at hc; rw [if_neg (by omega), if_neg (fun x => hc x.2)]
      · by_cases e2 : u < n
        · simp only [e2, true_and, show u < n + 1 from by omega]
        · simp only [e2, false_and, show ¬ u < n + 1 from by omega]

theorem Hub.abandonSub_spec (h : Hub) (i : Nat) :
    (∀ p, p ≠ .pt → h.same (h.abandonSub i) p) ∧ (h.abandonSub i).now = h.now ∧
    (h.abandonSub i).pt = { h.pt with tags := (h.abandonSub i).pt.tags } ∧
    ∀ u, (h.abandonSub i).tag u = if u < 256 ∧ (h.tag u).st = .pending ∧ (h.tag u).kind = .subscribe ∧ (h.tag u).landing = i then
          { h.tag u with st := .quarantine, ref := none, parts := [], held := [] } else h.tag u := by
  unfold Hub.abandonSub
  exact abandonSub_loop i 256 h


/-- Issuing a transaction takes the lowest FREE tag for it; beyond that, only the sending of its request changes anything (R63, R67). -/
theorem Hub.issueTxn_spec {h : Hub} {tt : Nat} (kind : TxnKind) (origin node point count landing : Nat) (recs : List Rec)
    (ref : Option CmdRef) (hf : h.freeTag = some tt) :
    ∃ k, h.issueTxn kind origin node point count landing recs ref = some k ∧ k.now = h.now ∧
      (∀ p, p ∉ [Part.pt, .ring, .swc] → h.same k p) ∧
      k.pt = { h.pt with tags := k.pt.tags } ∧ (∀ u, u ≠ tt → k.tag u = h.tag u) ∧
      k.tag tt = { st := .pending, kind := kind, origin := origin, node := node, point := point, count := count,
                   landing := landing, recs := recs, ref := ref, status := (h.tag tt).status, lastTx := h.now } := by
  refine ⟨(h.setTag tt { st := .pending, kind := kind, origin := origin, node := node, point := point, count := count,
                         landing := landing, recs := recs, ref := ref, status := (h.tag tt).status }).sendTag tt false,
    by unfold Hub.issueTxn; rw [hf], by simp, ?_, ?_, ?_, ?_⟩
  · intro p hp
    simp only [List.mem_cons, not_or] at hp
    cases p <;> simp_all [Hub.same]
  · rw [Hub.sendTag_pt]; rfl
  · intro u hu
    rw [Hub.tag_congr (congrArg PtBlk.tags (Hub.sendTag_pt _ _ _))]
    simp [Hub.tag_setTag, hu]
  · rw [Hub.tag_congr (congrArg PtBlk.tags (Hub.sendTag_pt _ _ _))]
    simp

/-- Taking a frame from the delivery of `P5` takes the head; beyond that, only the journal of an active hub changes (R370). -/
theorem Hub.takeInbox_spec {h k : Hub} {ok : Frame → Bool} {f : Frame} (ht : h.takeInbox ok = some (f, k)) :
    h.pt.inbox = f :: k.pt.inbox ∧ ok f = true ∧ k.pt = { h.pt with inbox := k.pt.inbox } ∧ k.now = h.now ∧
      (∀ p, p ∉ [Part.pt, .regs, .twin] → h.same k p) ∧
      (∀ a, a ≠ Reg.TWIN_CNT_JNL_OVERFLOW → a ≠ Reg.TWIN_EVT → k.rd a = h.rd a) := by
  unfold Hub.takeInbox at ht
  split at ht
  · cases ht
  · split at ht
    next f' rest hb =>
      split at ht
      next ho =>
        simp only [Option.some.injEq, Prod.mk.injEq] at ht
        obtain ⟨rfl, rfl⟩ := ht
        refine ⟨by simp [hb], ho, by simp, by simp, ?_, ?_⟩
        · intro p hp
          simp only [List.mem_cons, not_or] at hp
          cases p <;> simp_all [Hub.same]
        · intro a h1 h2
          exact (Hub.jnl_rd _ _ _ h1 h2).trans rfl
      · cases ht
    · cases ht

theorem getD_ite (b : Bool) (x y : Nat) : (if b then some x else none).getD y = if b then x else y := by cases b <;> rfl

/-- A write of a slot changes its record and notes its rank for the cycle. -/
theorem Hub.putSlot_fields (h : Hub) (rk : Fin 4) (i : Nat) (r : Rec) :
    h.putSlot rk i r = { h with pt := { h.pt with pts := (h.putSlot rk i r).pt.pts, wrote := (h.putSlot rk i r).pt.wrote,
                                                  wroteAt := (h.putSlot rk i r).pt.wroteAt } } := by
  unfold Hub.putSlot
  dsimp only
  split <;> rfl

/-- Where no writer of a higher rank has written in the cycle, the slot holds what is written (R48). -/
theorem Hub.slot_putSlot {h : Hub} {rk : Fin 4} {i : Nat} (r : Rec) (j : Nat) (hr : h.slotRank i ≤ rk) :
    (h.putSlot rk i r).slot j = if j = i then r else h.slot j := by
  unfold Hub.putSlot
  rw [if_neg (by omega)]
  exact Hub.slot_setSlot _ _ _ _

/-- A host write stands, whatever has written the slot in the cycle (R48). -/
theorem Hub.slot_putSlot_host (h : Hub) (i : Nat) (r : Rec) (j : Nat) :
    (h.putSlot rkHost i r).slot j = if j = i then r else h.slot j :=
  Hub.slot_putSlot r j (by have := (h.slotRank i).isLt; exact Fin.le_def.mpr (by show _ ≤ 3; omega))

/-- A write of a record that the host may write, by command. -/
theorem Hub.hostWrite_ok {h : Hub} {i : Nat} {ev : Bool} (value : Word) (q : Nat) (ts : Option Nat) (h1 : i < 0xFF00)
    (h2 : (h.slot i).defined = true) (h3 : ev = true → (h.slot i).typ = 7) (h4 : (h.slot i).wrHost = true) :
    h.hostWrite i value q ts ev =
      (sOK, let k := h.putSlot rkHost i ((h.slot i).write value q false (ts.getD (h.stampNow (h.slot i).tb)))
            if ev then k.evt Reg.PTM_EVT F.PTM_EVT_EVENT_RX else k) := by
  have hu : userSlot i = true := decide_eq_true h1
  unfold Hub.hostWrite
  cases ev <;> simp_all

theorem Hub.ptWriteCmd_local {h k : Hub} {c : CmdIn} {ev : Bool} (h1 : c.arg 1 < 2 ^ 24) (h2 : h.ownNode (c.arg 1 / 65536 % 256) = true)
    (h3 : c.arg 1 / 65536 % 256 ≠ 0xFF) (hw : h.hostWrite (c.arg 1 % 65536) (word (c.arg 2)) (c.arg 3)
      (if testBit (c.arg 4) 0 then some (c.arg 5 + c.arg 6 * 2 ^ 32) else none) ev = (sOK, k)) :
    h.ptWriteCmd c ev = .inl (.done k []) := by
  unfold Hub.ptWriteCmd
  simp only [hw]
  rw [if_neg (by simp only [h3, false_and, or_false]; omega), if_pos h2]
  rfl

theorem acceptWrite_inl {s : State} {c : CmdIn} {ev : Bool} {a : Ack} (ha : Accepts s c) (hw : s.hub.ptWriteCmd c ev = .inl a) :
    s.hub.acceptWrite c ev = s.hub.accept c fun _ _ => a := by
  unfold Hub.acceptWrite
  simp only [ha.2.1, ha.2.2.1, hw, Bool.true_eq_false, if_false]
  rw [accept_run ha, accept_run ha]
  simp only [hw]

theorem acceptWrite_done {s : State} {c : CmdIn} {ev : Bool} {h : Hub} {res : List Word} (ha : Accepts s c)
    (hw : s.hub.ptWriteCmd c ev = .inl (.done h res)) : s.hub.acceptWrite c ev = h.respond c.ref sOK 0 0 res := by
  rw [acceptWrite_inl ha hw, accept_done ha rfl]

theorem acceptWrite_later {s : State} {c : CmdIn} {ev : Bool} {h : Hub} (ha : Accepts s c)
    (hw : s.hub.ptWriteCmd c ev = .inl (.later h)) : s.hub.acceptWrite c ev = h.busyWith c := by
  rw [acceptWrite_inl ha hw, accept_busy ha rfl]

theorem guardJudge_congr {h k : Hub} (n : Nrp) (b : Bundle) (e : h.rd Reg.GRD_CFG = k.rd Reg.GRD_CFG) : h.guardJudge n b = k.guardJudge n b := by
  unfold Hub.guardJudge Hub.flag Hub.fld
  rw [e]

theorem ptEnabled_congr {h k : Hub} (e : h.rd Reg.PTM_CTL = k.rd Reg.PTM_CTL) : h.ptEnabled = k.ptEnabled := by
  unfold Hub.ptEnabled Hub.flag Hub.fld
  rw [e]

theorem openReq_spec {k : Hub} {f : Frame} {b : Bundle} (h1 : k.ptEnabled = true) (h2 : k.delivers = true)
   (h3 : bundleParse (nrpParse f.bytes).ver ((nrpPayload f.bytes).drop 4) = some b)
   (h4 : if beAt (nrpPayload f.bytes) 0 1 / 16 = 0 ∨ beAt (nrpPayload f.bytes) 0 1 / 16 = 2 then b.count = 0 else b.count ≠ 0)
   (h5 : k.guardJudge (nrpParse f.bytes) b = .pass)
   (h6 : (nrpParse f.bytes).group = false ∨ beAt (nrpPayload f.bytes) 0 1 / 16 = 3) :
   k.openReq f = ((k.count Reg.PTM_CNT_BUNDLE_RX).count Reg.GRD_CNT_OK, some (nrpParse f.bytes, beAt (nrpPayload f.bytes) 2 2, b)) := by
  have e1 : (k.count Reg.PTM_CNT_BUNDLE_RX).ptEnabled = true := (ptEnabled_congr (Hub.rd_count_ne _ (by decide))).trans h1
  have e2 : (k.count Reg.PTM_CNT_BUNDLE_RX).delivers = true := h2
  have e3 : (k.count Reg.PTM_CNT_BUNDLE_RX).guardJudge (nrpParse f.bytes) b = .pass := (guardJudge_congr _ _ (Hub.rd_count_ne _ (by decide))).trans h5
  unfold Hub.openReq
  simp only [e1, e2, h3, e3]
  rw [if_neg (by simp), if_neg]
  · rw [if_neg]
    rintro ⟨hg, hk⟩
    rcases h6 with h | h
    · simp [h] at hg
    · exact hk h
  · by_cases hc : beAt (nrpPayload f.bytes) 0 1 / 16 = 0 ∨ beAt (nrpPayload f.bytes) 0 1 / 16 = 2
    · rw [if_pos hc] at h4; simp [h4]; omega
    · rw [if_neg hc] at h4; simp [h4]; omega

theorem takeInbox_ok {h k : Hub} {ok : Frame → Bool} {f : Frame} (ht : h.takeInbox ok = some (f, k)) : ok f = true := (Hub.takeInbox_spec ht).2.1

theorem frameReq_kind {f : Frame} {kd : TxnKind} (h : frameReq kd f = true) : beAt (nrpPayload f.bytes) 0 1 / 16 = kd.code := by
  simp only [frameReq, Bool.and_eq_true, beq_iff_eq] at h
  exact h.2

end Sys2Proof.Machine
end

