-- ==== Sys2Proof/Laws/Lanes.lean ====
section
/-! SUPPORT. Lanes: what the snoop units leave alone, and what a push into a receive queue does. -/

namespace Sys2Proof.Machine

/-- What every round of a loop leaves as it is, the loop leaves as it is. -/
theorem Hub.each_keep {α : Type} (g : Hub → α) (f : Hub → Nat → Hub) (hf : ∀ h i, g (f h i) = g h) (h : Hub) (n : Nat) :
    g (h.each n f) = g h := by
  unfold Hub.each
  induction n with
  | zero => rfl
  | succ n ih => simp only [List.range_succ, List.foldl_append, List.foldl_cons, List.foldl_nil, hf, ih]

/-! ## Snoop units: the `but` lemmas say which parts each operation may change -/

theorem Hub.snoopEnd_but (h : Hub) (u : Nat) (init last : Bool) : { h.snoopEnd u init last with chk := {} } = { h with chk := {} } := rfl

theorem Hub.snoopStart_but (h : Hub) (u : Nat) (p : Poly) : { h.snoopStart u p with chk := {} } = { h with chk := {} } := rfl

theorem Hub.snoopFeed_but (h : Hub) (u : Nat) (bs : List Byte) : { h.snoopFeed u bs with chk := {} } = { h with chk := {} } := by
  unfold Hub.snoopFeed
  split <;> rfl

theorem Hub.snoopLatch_but (h : Hub) (u : Nat) : { h.snoopLatch u with regs := [] } = { h with regs := [] } := rfl

/-- Bytes on a stream change snoop units alone. -/
theorem Hub.snoopBytes_but (h : Hub) (src id dir : Nat) (bs : List Byte) :
    { h.snoopBytes src id dir bs with chk := {} } = { h with chk := {} } :=
  Hub.each_keep (fun h => { h with chk := {} }) _ (fun h i => by split <;> first | exact Hub.snoopFeed_but h i bs | rfl) h 16

/-- The end of a frame changes snoop units and their registers alone. -/
theorem Hub.snoopFrameEnd_but (h : Hub) (src id dir : Nat) :
    { h.snoopFrameEnd src id dir with chk := {}, regs := [] } = { h with chk := {}, regs := [] } :=
  Hub.each_keep (fun h => { h with chk := {}, regs := [] }) _ (fun h i => by split <;> rfl) h 16

@[simp] theorem Hub.snoopEnd_now (h : Hub) (u : Nat) (init last : Bool) : (h.snoopEnd u init last).now = h.now := (congrArg Hub.now (h.snoopEnd_but u init last) :)
@[simp] theorem Hub.snoopEnd_regs (h : Hub) (u : Nat) (init last : Bool) : (h.snoopEnd u init last).regs = h.regs := (congrArg Hub.regs (h.snoopEnd_but u init last) :)
@[simp] theorem Hub.snoopEnd_freeCtr (h : Hub) (u : Nat) (init last : Bool) : (h.snoopEnd u init last).freeCtr = h.freeCtr := (congrArg Hub.freeCtr (h.snoopEnd_but u init last) :)
@[simp] theorem Hub.snoopEnd_out (h : Hub) (u : Nat) (init last : Bool) : (h.snoopEnd u init last).out = h.out := (congrArg Hub.out (h.snoopEnd_but u init last) :)
@[simp] theorem Hub.snoopEnd_glb (h : Hub) (u : Nat) (init last : Bool) : (h.snoopEnd u init last).glb = h.glb := (congrArg Hub.glb (h.snoopEnd_but u init last) :)
@[simp] theorem Hub.snoopEnd_host (h : Hub) (u : Nat) (init last : Bool) : (h.snoopEnd u init last).host = h.host := (congrArg Hub.host (h.snoopEnd_but u init last) :)
@[simp] theorem Hub.snoopEnd_tim (h : Hub) (u : Nat) (init last : Bool) : (h.snoopEnd u init last).tim = h.tim := (congrArg Hub.tim (h.snoopEnd_but u init last) :)
@[simp] theorem Hub.snoopEnd_twin (h : Hub) (u : Nat) (init last : Bool) : (h.snoopEnd u init last).twin = h.twin := (congrArg Hub.twin (h.snoopEnd_but u init last) :)
@[simp] theorem Hub.snoopEnd_ring (h : Hub) (u : Nat) (init last : Bool) : (h.snoopEnd u init last).ring = h.ring := (congrArg Hub.ring (h.snoopEnd_but u init last) :)
@[simp] theorem Hub.snoopEnd_swc (h : Hub) (u : Nat) (init last : Bool) : (h.snoopEnd u init last).swc = h.swc := (congrArg Hub.swc (h.snoopEnd_but u init last) :)
@[simp] theorem Hub.snoopEnd_tm (h : Hub) (u : Nat) (init last : Bool) : (h.snoopEnd u init last).tm = h.tm := (congrArg Hub.tm (h.snoopEnd_but u init last) :)
@[simp] theorem Hub.snoopEnd_pt (h : Hub) (u : Nat) (init last : Bool) : (h.snoopEnd u init last).pt = h.pt := (congrArg Hub.pt (h.snoopEnd_but u init last) :)
@[simp] theorem Hub.snoopEnd_car (h : Hub) (u : Nat) (init last : Bool) : (h.snoopEnd u init last).car = h.car := (congrArg Hub.car (h.snoopEnd_but u init last) :)
@[simp] theorem Hub.snoopEnd_ln (h : Hub) (u : Nat) (init last : Bool) : (h.snoopEnd u init last).ln = h.ln := (congrArg Hub.ln (h.snoopEnd_but u init last) :)
@[simp] theorem Hub.snoopEnd_fret (h : Hub) (u : Nat) (init last : Bool) : (h.snoopEnd u init last).fret = h.fret := (congrArg Hub.fret (h.snoopEnd_but u init last) :)
@[simp] theorem Hub.snoopEnd_can (h : Hub) (u : Nat) (init last : Bool) : (h.snoopEnd u init last).can = h.can := (congrArg Hub.can (h.snoopEnd_but u init last) :)
@[simp] theorem Hub.snoopEnd_usb (h : Hub) (u : Nat) (init last : Bool) : (h.snoopEnd u init last).usb = h.usb := (congrArg Hub.usb (h.snoopEnd_but u init last) :)
@[simp] theorem Hub.snoopEnd_net (h : Hub) (u : Nat) (init last : Bool) : (h.snoopEnd u init last).net = h.net := (congrArg Hub.net (h.snoopEnd_but u init last) :)
@[simp] theorem Hub.snoopEnd_start (h : Hub) (u : Nat) (init last : Bool) : (h.snoopEnd u init last).start = h.start := (congrArg Hub.start (h.snoopEnd_but u init last) :)
@[simp] theorem Hub.snoopFeed_now (h : Hub) (u : Nat) (bs : List Byte) : (h.snoopFeed u bs).now = h.now := (congrArg Hub.now (h.snoopFeed_but u bs) :)
@[simp] theorem Hub.snoopFeed_regs (h : Hub) (u : Nat) (bs : List Byte) : (h.snoopFeed u bs).regs = h.regs := (congrArg Hub.regs (h.snoopFeed_but u bs) :)
@[simp] theorem Hub.snoopFeed_freeCtr (h : Hub) (u : Nat) (bs : List Byte) : (h.snoopFeed u bs).freeCtr = h.freeCtr := (congrArg Hub.freeCtr (h.snoopFeed_but u bs) :)
@[simp] theorem Hub.snoopFeed_out (h : Hub) (u : Nat) (bs : List Byte) : (h.snoopFeed u bs).out = h.out := (congrArg Hub.out (h.snoopFeed_but u bs) :)
@[simp] theorem Hub.snoopFeed_glb (h : Hub) (u : Nat) (bs : List Byte) : (h.snoopFeed u bs).glb = h.glb := (congrArg Hub.glb (h.snoopFeed_but u bs) :)
@[simp] theorem Hub.snoopFeed_host (h : Hub) (u : Nat) (bs : List Byte) : (h.snoopFeed u bs).host = h.host := (congrArg Hub.host (h.snoopFeed_but u bs) :)
@[simp] theorem Hub.snoopFeed_tim (h : Hub) (u : Nat) (bs : List Byte) : (h.snoopFeed u bs).tim = h.tim := (congrArg Hub.tim (h.snoopFeed_but u bs) :)
@[simp] theorem Hub.snoopFeed_twin (h : Hub) (u : Nat) (bs : List Byte) : (h.snoopFeed u bs).twin = h.twin := (congrArg Hub.twin (h.snoopFeed_but u bs) :)
@[simp] theorem Hub.snoopFeed_ring (h : Hub) (u : Nat) (bs : List Byte) : (h.snoopFeed u bs).ring = h.ring := (congrArg Hub.ring (h.snoopFeed_but u bs) :)
@[simp] theorem Hub.snoopFeed_swc (h : Hub) (u : Nat) (bs : List Byte) : (h.snoopFeed u bs).swc = h.swc := (congrArg Hub.swc (h.snoopFeed_but u bs) :)
@[simp] theorem Hub.snoopFeed_tm (h : Hub) (u : Nat) (bs : List Byte) : (h.snoopFeed u bs).tm = h.tm := (congrArg Hub.tm (h.snoopFeed_but u bs) :)
@[simp] theorem Hub.snoopFeed_pt (h : Hub) (u : Nat) (bs : List Byte) : (h.snoopFeed u bs).pt = h.pt := (congrArg Hub.pt (h.snoopFeed_but u bs) :)
@[simp] theorem Hub.snoopFeed_car (h : Hub) (u : Nat) (bs : List Byte) : (h.snoopFeed u bs).car = h.car := (congrArg Hub.car (h.snoopFeed_but u bs) :)
@[simp] theorem Hub.snoopFeed_ln (h : Hub) (u : Nat) (bs : List Byte) : (h.snoopFeed u bs).ln = h.ln := (congrArg Hub.ln (h.snoopFeed_but u bs) :)
@[simp] theorem Hub.snoopFeed_fret (h : Hub) (u : Nat) (bs : List Byte) : (h.snoopFeed u bs).fret = h.fret := (congrArg Hub.fret (h.snoopFeed_but u bs) :)
@[simp] theorem Hub.snoopFeed_can (h : Hub) (u : Nat) (bs : List Byte) : (h.snoopFeed u bs).can = h.can := (congrArg Hub.can (h.snoopFeed_but u bs) :)
@[simp] theorem Hub.snoopFeed_usb (h : Hub) (u : Nat) (bs : List Byte) : (h.snoopFeed u bs).usb = h.usb := (congrArg Hub.usb (h.snoopFeed_but u bs) :)
@[simp] theorem Hub.snoopFeed_net (h : Hub) (u : Nat) (bs : List Byte) : (h.snoopFeed u bs).net = h.net := (congrArg Hub.net (h.snoopFeed_but u bs) :)
@[simp] theorem Hub.snoopFeed_start (h : Hub) (u : Nat) (bs : List Byte) : (h.snoopFeed u bs).start = h.start := (congrArg Hub.start (h.snoopFeed_but u bs) :)
@[simp] theorem Hub.snoopBytes_now (h : Hub) (src id dir : Nat) (bs : List Byte) : (h.snoopBytes src id dir bs).now = h.now := (congrArg Hub.now (h.snoopBytes_but src id dir bs) :)
@[simp] theorem Hub.snoopBytes_regs (h : Hub) (src id dir : Nat) (bs : List Byte) : (h.snoopBytes src id dir bs).regs = h.regs := (congrArg Hub.regs (h.snoopBytes_but src id dir bs) :)
@[simp] theorem Hub.snoopBytes_freeCtr (h : Hub) (src id dir : Nat) (bs : List Byte) : (h.snoopBytes src id dir bs).freeCtr = h.freeCtr := (congrArg Hub.freeCtr (h.snoopBytes_but src id dir bs) :)
@[simp] theorem Hub.snoopBytes_out (h : Hub) (src id dir : Nat) (bs : List Byte) : (h.snoopBytes src id dir bs).out = h.out := (congrArg Hub.out (h.snoopBytes_but src id dir bs) :)
@[simp] theorem Hub.snoopBytes_glb (h : Hub) (src id dir : Nat) (bs : List Byte) : (h.snoopBytes src id dir bs).glb = h.glb := (congrArg Hub.glb (h.snoopBytes_but src id dir bs) :)
@[simp] theorem Hub.snoopBytes_host (h : Hub) (src id dir : Nat) (bs : List Byte) : (h.snoopBytes src id dir bs).host = h.host := (congrArg Hub.host (h.snoopBytes_but src id dir bs) :)
@[simp] theorem Hub.snoopBytes_tim (h : Hub) (src id dir : Nat) (bs : List Byte) : (h.snoopBytes src id dir bs).tim = h.tim := (congrArg Hub.tim (h.snoopBytes_but src id dir bs) :)
@[simp] theorem Hub.snoopBytes_twin (h : Hub) (src id dir : Nat) (bs : List Byte) : (h.snoopBytes src id dir bs).twin = h.twin := (congrArg Hub.twin (h.snoopBytes_but src id dir bs) :)
@[simp] theorem Hub.snoopBytes_ring (h : Hub) (src id dir : Nat) (bs : List Byte) : (h.snoopBytes src id dir bs).ring = h.ring := (congrArg Hub.ring (h.snoopBytes_but src id dir bs) :)
@[simp] theorem Hub.snoopBytes_swc (h : Hub) (src id dir : Nat) (bs : List Byte) : (h.snoopBytes src id dir bs).swc = h.swc := (congrArg Hub.swc (h.snoopBytes_but src id dir bs) :)
@[simp] theorem Hub.snoopBytes_tm (h : Hub) (src id dir : Nat) (bs : List Byte) : (h.snoopBytes src id dir bs).tm = h.tm := (congrArg Hub.tm (h.snoopBytes_but src id dir bs) :)
@[simp] theorem Hub.snoopBytes_pt (h : Hub) (src id dir : Nat) (bs : List Byte) : (h.snoopBytes src id dir bs).pt = h.pt := (congrArg Hub.pt (h.snoopBytes_but src id dir bs) :)
@[simp] theorem Hub.snoopBytes_car (h : Hub) (src id dir : Nat) (bs : List Byte) : (h.snoopBytes src id dir bs).car = h.car := (congrArg Hub.car (h.snoopBytes_but src id dir bs) :)
@[simp] theorem Hub.snoopBytes_ln (h : Hub) (src id dir : Nat) (bs : List Byte) : (h.snoopBytes src id dir bs).ln = h.ln := (congrArg Hub.ln (h.snoopBytes_but src id dir bs) :)
@[simp] theorem Hub.snoopBytes_fret (h : Hub) (src id dir : Nat) (bs : List Byte) : (h.snoopBytes src id dir bs).fret = h.fret := (congrArg Hub.fret (h.snoopBytes_but src id dir bs) :)
@[simp] theorem Hub.snoopBytes_can (h : Hub) (src id dir : Nat) (bs : List Byte) : (h.snoopBytes src id dir bs).can = h.can := (congrArg Hub.can (h.snoopBytes_but src id dir bs) :)
@[simp] theorem Hub.snoopBytes_usb (h : Hub) (src id dir : Nat) (bs : List Byte) : (h.snoopBytes src id dir bs).usb = h.usb := (congrArg Hub.usb (h.snoopBytes_but src id dir bs) :)
@[simp] theorem Hub.snoopBytes_net (h : Hub) (src id dir : Nat) (bs : List Byte) : (h.snoopBytes src id dir bs).net = h.net := (congrArg Hub.net (h.snoopBytes_but src id dir bs) :)
@[simp] theorem Hub.snoopBytes_start (h : Hub) (src id dir : Nat) (bs : List Byte) : (h.snoopBytes src id dir bs).start = h.start := (congrArg Hub.start (h.snoopBytes_but src id dir bs) :)
@[simp] theorem Hub.snoopFrameEnd_now (h : Hub) (src id dir : Nat) : (h.snoopFrameEnd src id dir).now = h.now := (congrArg Hub.now (h.snoopFrameEnd_but src id dir) :)
@[simp] theorem Hub.snoopFrameEnd_freeCtr (h : Hub) (src id dir : Nat) : (h.snoopFrameEnd src id dir).freeCtr = h.freeCtr := (congrArg Hub.freeCtr (h.snoopFrameEnd_but src id dir) :)
@[simp] theorem Hub.snoopFrameEnd_out (h : Hub) (src id dir : Nat) : (h.snoopFrameEnd src id dir).out = h.out := (congrArg Hub.out (h.snoopFrameEnd_but src id dir) :)
@[simp] theorem Hub.snoopFrameEnd_glb (h : Hub) (src id dir : Nat) : (h.snoopFrameEnd src id dir).glb = h.glb := (congrArg Hub.glb (h.snoopFrameEnd_but src id dir) :)
@[simp] theorem Hub.snoopFrameEnd_host (h : Hub) (src id dir : Nat) : (h.snoopFrameEnd src id dir).host = h.host := (congrArg Hub.host (h.snoopFrameEnd_but src id dir) :)
@[simp] theorem Hub.snoopFrameEnd_tim (h : Hub) (src id dir : Nat) : (h.snoopFrameEnd src id dir).tim = h.tim := (congrArg Hub.tim (h.snoopFrameEnd_but src id dir) :)
@[simp] theorem Hub.snoopFrameEnd_twin (h : Hub) (src id dir : Nat) : (h.snoopFrameEnd src id dir).twin = h.twin := (congrArg Hub.twin (h.snoopFrameEnd_but src id dir) :)
@[simp] theorem Hub.snoopFrameEnd_ring (h : Hub) (src id dir : Nat) : (h.snoopFrameEnd src id dir).ring = h.ring := (congrArg Hub.ring (h.snoopFrameEnd_but src id dir) :)
@[simp] theorem Hub.snoopFrameEnd_swc (h : Hub) (src id dir : Nat) : (h.snoopFrameEnd src id dir).swc = h.swc := (congrArg Hub.swc (h.snoopFrameEnd_but src id dir) :)
@[simp] theorem Hub.snoopFrameEnd_tm (h : Hub) (src id dir : Nat) : (h.snoopFrameEnd src id dir).tm = h.tm := (congrArg Hub.tm (h.snoopFrameEnd_but src id dir) :)
@[simp] theorem Hub.snoopFrameEnd_pt (h : Hub) (src id dir : Nat) : (h.snoopFrameEnd src id dir).pt = h.pt := (congrArg Hub.pt (h.snoopFrameEnd_but src id dir) :)
@[simp] theorem Hub.snoopFrameEnd_car (h : Hub) (src id dir : Nat) : (h.snoopFrameEnd src id dir).car = h.car := (congrArg Hub.car (h.snoopFrameEnd_but src id dir) :)
@[simp] theorem Hub.snoopFrameEnd_ln (h : Hub) (src id dir : Nat) : (h.snoopFrameEnd src id dir).ln = h.ln := (congrArg Hub.ln (h.snoopFrameEnd_but src id dir) :)
@[simp] theorem Hub.snoopFrameEnd_fret (h : Hub) (src id dir : Nat) : (h.snoopFrameEnd src id dir).fret = h.fret := (congrArg Hub.fret (h.snoopFrameEnd_but src id dir) :)
@[simp] theorem Hub.snoopFrameEnd_can (h : Hub) (src id dir : Nat) : (h.snoopFrameEnd src id dir).can = h.can := (congrArg Hub.can (h.snoopFrameEnd_but src id dir) :)
@[simp] theorem Hub.snoopFrameEnd_usb (h : Hub) (src id dir : Nat) : (h.snoopFrameEnd src id dir).usb = h.usb := (congrArg Hub.usb (h.snoopFrameEnd_but src id dir) :)
@[simp] theorem Hub.snoopFrameEnd_net (h : Hub) (src id dir : Nat) : (h.snoopFrameEnd src id dir).net = h.net := (congrArg Hub.net (h.snoopFrameEnd_but src id dir) :)
@[simp] theorem Hub.snoopFrameEnd_start (h : Hub) (src id dir : Nat) : (h.snoopFrameEnd src id dir).start = h.start := (congrArg Hub.start (h.snoopFrameEnd_but src id dir) :)

/-! ## Queues and characters -/

/-- A lane that is not stopped is among the live ones. -/
theorem Hub.liveLanes_mem {h : Hub} {n : Nat} (hn : (h.lane n).st ≠ .stopped) : n ∈ h.liveLanes := by
  refine List.mem_map.2 ⟨(n, h.lane n), List.mem_filter.2 ⟨tget_mem ?_, by simpa using hn⟩, rfl⟩
  intro e
  exact hn (congrArg Lane.st e)

/-- A push with credit appends the item to the lane's receive queue (R232). -/
theorem Hub.rxqPush_items {h : Hub} {n : Nat} (own : Bool) (x : Word) (hc : 0 < (h.lane n).rxq.credit h.now laneCap) :
    ((h.rxqPush n own x).lane n).rxq.items = (h.lane n).rxq.items ++ [x] := by
  have key : ∀ k : Hub, k.ln = (h.setLane n { h.lane n with rxq := (h.lane n).rxq.push h.now x }).ln →
      (k.lane n).rxq.items = (h.lane n).rxq.items ++ [x] := by
    intro k e
    rw [Hub.lane_congr (congrArg LaneBlk.lane e), Hub.lane_setLane_same]
    rfl
  unfold Hub.rxqPush
  dsimp only
  rw [if_pos hc]
  apply key
  (repeat' split) <;> simp [Hub.lnEvt]

/-- A push without credit leaves the receive queue as it is; the loss is counted and reported (R90). -/
theorem Hub.rxqPush_lost {h : Hub} {n : Nat} (own : Bool) (x : Word) (hc : (h.lane n).rxq.credit h.now laneCap = 0) :
    ((h.rxqPush n own x).lane n).rxq = (h.lane n).rxq ∧
      (h.rxqPush n own x).rd (Reg.LN_CNT_RX_OVERRUN n) = word (min 0xFFFFFFFF ((h.rd (Reg.LN_CNT_RX_OVERRUN n)).toNat + 1)) ∧
      (h.rxqPush n own x).flag (Reg.LN_EVT n) F.LN_EVT_RX_OVERRUN = true := by
  have hr : Reg.LN_CNT_RX_OVERRUN n ≠ Reg.LN_EVT n := by simp [Reg.LN_CNT_RX_OVERRUN, Reg.LN_EVT]
  have key : ∀ k : Hub, k.regs = ((h.count (Reg.LN_CNT_RX_OVERRUN n)).lnEvt n F.LN_EVT_RX_OVERRUN).regs →
      (k.lane n).rxq = (h.lane n).rxq → (k.lane n).rxq = (h.lane n).rxq ∧
        k.rd (Reg.LN_CNT_RX_OVERRUN n) = word (min 0xFFFFFFFF ((h.rd (Reg.LN_CNT_RX_OVERRUN n)).toNat + 1)) ∧
        k.flag (Reg.LN_EVT n) F.LN_EVT_RX_OVERRUN = true := by
    intro k e1 e2
    refine ⟨e2, ?_, ?_⟩
    · rw [Hub.rd_congr e1]
      exact (Hub.rd_evt_ne _ _ hr).trans (Hub.rd_count _ _)
    · rw [Hub.flag_congr e1]
      simp only [Hub.flag, Hub.lnEvt]
      rw [show F.LN_EVT_RX_OVERRUN = (F.LN_EVT_RX_OVERRUN.1, 1) from rfl, Hub.fld_evt _ _ _ (by decide)]
      rfl
  unfold Hub.rxqPush
  dsimp only
  rw [if_neg (by omega)]
  (repeat' split) <;> exact key _ rfl (by simp [Hub.lnEvt]; rfl)

/-- The transmitter acts on the item at the head. -/
theorem Hub.txHead_ready {h : Hub} {n kind : Nat} {x : Word} (act : Hub → Nat → Hub) (hr : h.txReady n kind x) :
    h.txHead n kind act = act h x.toNat := by
  obtain ⟨h1, h2, h3, h4, h5, h6⟩ := hr
  have he : (h.lane n).txq.items = x :: (h.lane n).txq.items.tail := by
    cases e : (h.lane n).txq.items <;> simp_all
  have hs : Hub.txSkip (h.lane n).txq.items.length n h = h := by
    rw [he, List.length_cons, Hub.txSkip, he]
    exact if_neg fun hc => h5 (h4.symm.trans hc.1)
  unfold Hub.txHead
  rw [if_neg (by simp [h1])]
  simp only [hs]
  rw [if_neg (by omega), he]
  simp only [h4, h6]
  simp

theorem Hub.lnMode_congr {h k : Hub} (n : Nat) (e : k.rd (Reg.LN_MODE n) = h.rd (Reg.LN_MODE n)) : k.lnMode n = h.lnMode n := by
  unfold Hub.lnMode Hub.lnF Hub.fld
  rw [e]

theorem Hub.snoopFrameEnd_rd (h : Hub) (src id dir : Nat) {a : Nat} (ha : a < 0x58000) :
    (h.snoopFrameEnd src id dir).rd a = h.rd a := by
  refine Hub.each_keep (fun h => h.rd a) _ (fun h i => ?_) h 16
  split
  · refine (Hub.rd_evt_ne _ _ (by simp only [Reg.CRC_EVT]; omega)).trans
      ((Hub.rd_setFld_ne _ _ _ (by simp only [Reg.SNP_FRAMES]; omega)).trans ?_)
    exact (Hub.rd_setFld_ne _ _ _ (by simp only [Reg.SNP_FRAMES]; omega)).trans (Hub.rd_wr_ne _ _ (by simp only [Reg.SNP_LAST]; omega))
  · rfl

@[simp] theorem Hub.drive_regs (h : Hub) (o : Output) : (h.drive o).regs = h.regs := by
  unfold Hub.drive
  split <;> rfl

/-- Putting characters on the line leaves the registers as they are. -/
@[simp] theorem Hub.sendChars_regs (h : Hub) (n : Nat) (opens : Bool) (ws : List Nat) : (h.sendChars n opens ws).regs = h.regs := by
  have key : ∀ (k : Hub) (o : LineOut), k.regs = h.regs → (k.lineOut n o).regs = h.regs := by
    intro k o e
    unfold Hub.lineOut
    split
    · exact e
    · rw [Hub.drive_regs]; exact e
  exact key _ _ (Hub.snoopBytes_regs h 2 n 1 (ws.map byte))

theorem Hub.sendChars_mode (h : Hub) (n : Nat) (opens : Bool) (ws : List Nat) : (h.sendChars n opens ws).lnMode n = h.lnMode n :=
  Hub.lnMode_congr n (Hub.rd_congr (h.sendChars_regs n opens ws) _)

theorem Hub.releaseDe_rd (h : Hub) (n a : Nat) : (h.releaseDe n).rd a = h.rd a := by
  unfold Hub.releaseDe
  dsimp only
  split <;> rfl

/-- Closing a frame that is sent leaves the lane's mode as it is. -/
theorem Hub.txClose_mode (h : Hub) {n : Nat} (hn : n < 96) : (h.txClose n).lnMode n = h.lnMode n := by
  refine Hub.lnMode_congr n ((Hub.releaseDe_rd _ _ _).trans ?_)
  refine (Hub.snoopFrameEnd_rd (h.count (Reg.LN_CNT_TX_FRAMES n)) 2 n 1 (by simp only [Reg.LN_MODE]; omega)).trans ?_
  exact Hub.rd_count_ne _ (by simp [Reg.LN_MODE, Reg.LN_CNT_TX_FRAMES])

end Sys2Proof.Machine
end

