-- ==== Sys2Proof/Laws/Fret.lean ====
section
/-! SUPPORT. Fret Engines: an engine at an instruction executes it, and how its result is carried out. -/

namespace Sys2Proof.Machine

/-- An engine at an instruction carries its result out. -/
theorem Hub.frRun_at {h : Hub} {e op x : Nat} (act : Hub → Nat → FrRes) (ha : h.frAt e op x) :
    h.frRun e op act = h.frFinish e x (act h x) := by
  obtain ⟨h1, h2, h3, h4, h5, h6⟩ := ha
  have hs : h.frSettle e = h := by unfold Hub.frSettle; simp [h2]
  unfold Hub.frRun
  simp only [hs, h5]
  exact if_pos ⟨.inl h1, h2, h3, h4, h6⟩

theorem Hub.frFinish_done (h h' : Hub) (e x : Nat) : h.frFinish e x (.done h') = h.frEnd h' e x (h.frNext e (h.eng e).pc) := rfl
theorem Hub.frFinish_jump (h h' : Hub) (e x a : Nat) : h.frFinish e x (.jump h' a) = h.frEnd h' e x a := rfl
theorem Hub.frFinish_halt (h h' : Hub) (e x : Nat) :
    h.frFinish e x (.halt h') = (h.frEnd h' e x (h.frNext e (h.eng e).pc)).frStopEng e 2 := rfl
theorem Hub.frFinish_stall (h : Hub) (e x why : Nat) (saw : Bool) : h.frFinish e x (.stall why saw) = h.frStall e why saw := rfl

end Sys2Proof.Machine
end

