-- ==== Sys2Proof/Laws/Isa.lean ====
section
/-! SUPPORT. The Carousel's instructions: a context in its slot issues the word at its `PC`. -/

namespace Sys2Proof.Machine

/-- A context at an instruction issues it. -/
theorem Hub.issue_at {h : Hub} {c : Nat} {row : Nat × Nat} {i : Word} (act : Hub → Ctx → Word → IsaRes) (ha : h.ctxAt c row i) :
    h.issue c row act = (h.ctxSees c).isaFinish c (act (h.ctxSees c) (h.ctxNow c) i) := by
  obtain ⟨h1, h2, h3, h0, h4, h5, h6, h7, h8, h9⟩ := ha
  unfold Hub.issue
  simp only [h6, h7]
  rw [if_neg (by simp [h1, h2, h3, h0, h4]), if_neg (by simp [h5]), if_pos (by simp [h9])]
  simp only [h8]
  rfl

theorem Hub.isaFinish_done (h k : Hub) (c cost : Nat) : h.isaFinish c (.done k cost) = k.ctxDone c cost := rfl
theorem Hub.isaFinish_put (h : Hub) (c : Nat) (k : Hub) (x : Ctx) : h.isaFinish c (k.put c x) = (k.setCtx c x).ctxDone c 1 := rfl
theorem Hub.isaFinish_goto (h k : Hub) (c pc : Nat) : h.isaFinish c (.goto k pc) = k.ctxJump c pc := rfl
theorem Hub.isaFinish_fault (h : Hub) (c cause : Nat) : h.isaFinish c (.fault cause) = h.useSlot.carFault c cause := rfl

end Sys2Proof.Machine
end

