-- ==== Sys2Proof/Laws/Jobs.lean ====
section
/-! SUPPORT. The ends of a Carousel job: what marks, records and abandoned entries leave of the contexts. -/

namespace Sys2Proof.Machine

/-- A fold keeps what each of its steps keeps. -/
theorem foldl_keeps {α β γ : Type} (p : α → γ) (f : α → β → α) (hf : ∀ a b, p (f a b) = p a) (l : List β) (a : α) :
    p (l.foldl f a) = p a := by
  induction l generalizing a with
  | nil => rfl
  | cons x xs ih => rw [List.foldl_cons, ih, hf]

@[simp] theorem Hub.canEvt_car (h : Hub) (n : Nat) (f : Nat × Nat) : (h.canEvt n f).car = h.car := rfl

@[simp] theorem Hub.canAbandon_car (h : Hub) (n : Nat) : (h.canAbandon n).car = h.car := by
  unfold Hub.canAbandon
  dsimp only
  split
  · rfl
  · split <;> simp

@[simp] theorem Hub.jobCan_car (h : Hub) (c : Nat) : (h.jobCan c).car = h.car := by
  refine foldl_keeps (fun h : Hub => h.car) _ ?_ _ _
  intro a b
  split
  · split <;> simp
  · rfl

@[simp] theorem Hub.markLate_car (h : Hub) (es : List StageEnt) : (h.markLate es).car = h.car := by
  refine foldl_keeps (fun h : Hub => h.car) _ ?_ _ _
  intro a b
  cases b with
  | pwr a v q t => dsimp only; split <;> simp
  | psub e => rfl
  | femit a b f q => rfl

@[simp] theorem Hub.jobRecord_car (h : Hub) (c o e : Nat) : (h.jobRecord c o e).car = h.car := Hub.jnl_car _ _ _

/-- Context of a hub with the same Carousel. -/
theorem Hub.ctx_of_car {h k : Hub} (e : h.car = k.car) (c : Nat) : h.ctx c = k.ctx c := by unfold Hub.ctx; rw [e]

/-- A fault leaves its context FAULTED with the cause, the `PC`, and nothing staged. -/
theorem Hub.carFault_ctx (h : Hub) (c cause : Nat) :
    (h.carFault c cause).ctx c = { (h.ctx c).restore.over .faulted with cause := cause, faultPc := (h.ctx c).pc } := by
  unfold Hub.carFault
  dsimp only
  rw [Hub.ctx_of_car (Hub.jobRecord_car _ _ _ _), Hub.ctx_of_car (Hub.jobCan_car _ _)]
  exact Hub.ctx_setCtx_same _ _ _

/-- A LATE abort leaves its context IDLE and late. -/
theorem Hub.lateAbort_ctx (h : Hub) (c : Nat) : (h.lateAbort c).ctx c = { (h.ctx c).restore.over .idle with late := true } := by
  unfold Hub.lateAbort
  dsimp only
  rw [Hub.ctx_of_car (Hub.jobRecord_car _ _ _ _), Hub.ctx_of_car (Hub.jobCan_car _ _)]
  exact tget_tset_same ({} : Ctx) (h.markLate (h.ctx c).stage).car.ctx c { (h.ctx c).restore.over .idle with late := true }

/-- A commit leaves its context IDLE. -/
theorem Hub.startCommit_ctx (h : Hub) (c : Nat) : (h.startCommit c).ctx c = (h.ctx c).over .idle := by
  unfold Hub.startCommit
  dsimp only
  rw [Hub.ctx_of_car (Hub.jobRecord_car _ _ _ _), Hub.ctx_of_car (Hub.jobCan_car _ _)]
  exact Hub.ctx_setCtx_same _ _ _

/-- A register below `n` reads as unwritten among those from `n` on. -/
theorem tget_filter_ge {v : Word} (l : List (Nat × Word)) (n r : Nat) (hr : r < n) :
    tget v (l.filter fun x => decide (n ≤ x.1)) r = v := by
  induction l with
  | nil => rfl
  | cons x xs ih =>
    rw [List.filter_cons]
    split
    · rename_i h
      simp only [decide_eq_true_eq] at h
      obtain ⟨j, w⟩ := x
      simp only [tget]
      rw [if_neg (by simp at h; omega), ih]
    · exact ih

end Sys2Proof.Machine
end

