-- ==== Sys2Proof/Tests/Slice0.lean ====
section
/-! SUPPORT. The model's own tests: ill-formed commands that `Instr.wf` refuses, values of the specification's tables and worked examples,
single steps, and for each statement with hypotheses the states and operands that meet them, clause by clause. -/

namespace Sys2Proof.Tests
set_option Elab.async false
set_option linter.unusedTactic false
set_option linter.unreachableTactic false
set_option linter.unnecessarySeqFocus false
open Sys2Proof.Machine

/-! ## Ill-formed commands: each check of `Instr.wf` refuses a term -/

theorem test_wf_refuses :
    ([.registerWrite .pcie 0x40021 15 0, .w2Read 0 0, .w2Write 0 0 0, .laneTxI2cRead 0 (List.replicate 257 0), .wmCrossClear 2 32,
      .canTxAttemptEnd 0 .ok (some 128) 0, .canFrameRx 0 0 0 (List.replicate 65 0) (.whole 0), .servoInput 0 (.irig (2 ^ 48) 0),
      .servoInput 0 (.pps 0 (2 ^ 48) 0), .jnlDsnap 0 0 0 [], .jnlHostCmd 0 0 0 [], .jnlLaneRx 0 0 0 0 [], .jnlFretRx 0 0 0 0 [],
      .jnlCanRx 0 0 0 0 [], .scrubPassEnd 0 [1, 1] 0, .usbCmdOut 1 (List.replicate 513 0), .usbPointReadReq 1 (List.replicate 513 0),
      .netCurveTrip 0 [], .qspiRead 0 0, .qspiWrite 0x02 0 [], .svcStageWrite 0 true 0 (List.replicate 4097 0) .ok,
      .svcIdentWrite 0 true (List.replicate 4097 0), .svcFuseKey 0 true (List.replicate 4097 0)] : List Instr).all (fun c => !c.wf) = true := by
  decide +kernel

theorem test_wf_admits :
    ([.registerWrite .pcie 0x40020 15 0, .w2Read 0 4, .wmCrossClear 2 31, .jnlDsnap 0 0 0 (List.replicate 16 0), .scrubPassEnd 0 [1, 2] 0,
      .netCurveTrip 0 [0], .qspiRead 0 1, .add 0, .hold 0] : List Instr).all Instr.wf = true := by
  decide +kernel

/-! ## Values of the specification -/

/-- The "Check" column of R215's table, over the ASCII bytes "123456789". -/
theorem test_crc_check_values :
    ((List.range 7).map fun e => (State.reset.hub.polyOf e).map fun p => crc p [0x31, 0x32, 0x33, 0x34, 0x35, 0x36, 0x37, 0x38, 0x39]) =
      [0xCBF43926, 0xE3069283, 0x906E, 0x4B37, 0xEA82, 0xC2B7, 0xF4].map some := by
  decide +kernel

/-- The pseudo-header of chapter 08's worked example. -/
theorem test_guard_pseudo_header :
    guardPseudo 6 0x11 0x05 true 9 0x110120 3 = [0x01, 0x60, 0x11, 0xFF, 0x05, 0x09, 0x11, 0x01, 0x20, 0x03, 0x00, 0x00] := by
  decide +kernel

/-- The judgements of chapter 08's worked example: the last counter accepted (and a candidate), and the counter that arrives. -/
theorem test_alive_rule :
    ([(5, none, 6), (6, none, 6), (6, none, 9), (9, none, 15), (9, some 15, 0)].map fun x : Nat × Option Nat × Nat =>
      (({ State.reset.hub with chk := { pairs := [⟨0x11, 9, x.1, x.2.1⟩] } } : Hub).setFld Reg.GRD_CFG F.GRD_CFG_ALIVE_K 3).aliveRule 0x11 9 x.2.2) =
      [.ok, .repeat_, .gap 2, .seq, .resync] := by
  decide +kernel

/-- The comparison of chapter 12's worked example: short times 100 s and 600 s ahead. -/
theorem test_short_time_compare :
    toSigned 40 ((0xEEF892D4C0 + 2 ^ 40 - 0x064109BCC0) % 2 ^ 40) = -100000000000 ∧
      0 < toSigned 40 ((2 ^ 40 - 600000000000 % 2 ^ 40) % 2 ^ 40) := by
  decide +kernel

/-- Register addresses that the worked examples of chapters 04 and 07 give. -/
theorem test_register_addresses : Reg.FR_CTL 8 = 0x48400 ∧ Reg.FRET_INSTR 2 0 = 0x4A800 ∧ Reg.CTX_BIND 40 0 = 0x34A00 := by decide +kernel

/-- The program of F8 in chapter 04's worked example may be loaded; a word with a reserved bit may not (R120). -/
theorem test_fret_words :
    ([0x8103, 0x8002, 0x6000, 0x8000, 0x900F, 0x4400, 0x0000, 0x5800, 0x1085, 0x8002, 0x1002].all (frWordOk 0 10)) = true ∧
      frWordOk 0 10 0x4408 = false ∧ frWordOk 0 10 0x100B = false := by
  decide +kernel

/-- SHA-512 of the empty message (FIPS 180-4), its first eight bytes. -/
theorem test_sha512_empty : (sha512 []).take 8 = [0xCF, 0x83, 0xE1, 0x35, 0x7E, 0xEF, 0xB8, 0xBD] := by decide +kernel

/-- Arithmetic corners of R190: a carry out, a borrow, a shift that fills, a product of signed halves, a count of zeros. -/
theorem test_alu_corners :
    (aluOp 0 0xFFFFFFFF 1 false 0).val = 0 ∧ (aluOp 0 0xFFFFFFFF 1 false 0).c = some true ∧ (aluOp 1 0 1 false 0).c = some false ∧
      (aluOp 9 0x80000000 31 false 0).val = 0xFFFFFFFF ∧ (aluOp 11 0xFFFF 2 false 0).val = 0xFFFFFFFE ∧ (aluOp 12 0 0 false 0).val = 32 := by
  decide +kernel

/-! ## States for the tests below -/

/-- The hub out of cold reset and alone, some time after power-on. -/
def upHub : Hub :=
  let h := State.reset.hub
  { h with now := 60000000000000, glb := { h.glb with inCold := false }, twin := { h.twin with role := .solo } }
/-- The state with that hub, changed. -/
def upw (f : Hub → Hub) : State := { State.reset with hub := f upHub }
def up : State := upw id
/-- A hub that has booted. -/
def bootHub : Hub := upHub.setFld Reg.GLB_BOOT F.GLB_BOOT_READY 1
def bootw (f : Hub → Hub) : State := { State.reset with hub := f bootHub }
/-- Lane 0 in a mode. -/
def lnw (m : Nat) (l : Lane) (f : Hub → Hub) : State := upw fun h => f ((h.setFld (Reg.LN_MODE 0) F.LN_MODE_MODE m).setLane 0 l)
/-- A frame with an NRP header of version 2 or 3 from node 5. -/
def nrpFrame (ver typ flow : Nat) (pay : List Byte) : Frame :=
  { bytes := List.replicate 14 0 ++ [byte (ver * 16 + typ), 0, 5, 0, 0, 0, byte flow, 0, 0, 0, 0, byte pay.length, 0, 0, 0, 0] ++ pay }
/-- The inbox of the point port holds one frame. -/
def boxw (f : Frame) (g : Hub → Hub) : State :=
  upw fun h => g ({ h with pt := { h.pt with inbox := [f] } }.setFld Reg.PTM_CTL F.PTM_CTL_EN 1 |>.setFld Reg.GRD_CFG F.GRD_CFG_ACCEPT_UNGUARDED 1)
/-- The hub after its point port has taken the frame. -/
def boxOut (s : State) : Hub := { s.hub with pt := { s.hub.pt with inbox := [] } }
/-- The bundle of no record, and of one record of value 0x01000000. -/
def noPoints (a : Nat) : Bundle := { start := a, count := 0, recs := [], raw := [], guard := none }
def onePointRaw : List Byte := [1, 0, 0, 0, 0, 0, 0x70, 0, 0, 0, 0, 0]
def onePoint (a : Nat) : Bundle := { start := a, count := 1, recs := (chunks12 1 onePointRaw).map wireRec, raw := onePointRaw, guard := none }
/-- Engine 0 with an instruction word at address 0. -/
def frw (x : Nat) (g : Eng) (f : Hub → Hub) : State :=
  upw fun h => f ((h.setFld (Reg.FRET_INSTR 0 0) F.FRET_INSTR_INSTR x).setEng 0 g)
/-- Context 0 in its slot with a program word at address 0. -/
def ctxw (i : Word) (x : Ctx) (f : Hub → Hub) : State :=
  upw fun h => f ({ h with car := { h.car with prog := [(0, i)] } }.wr (Reg.CAL_A (h.slotNo / 4)) 0
      |>.setCtx 0 { x with st := .running, page := { x.page with deadline := 1000000 } })
/-- A traffic queue that holds frame 1, for one port. -/
def tqw (out : Nat) (g : Frame) (f : Hub → Hub) : State :=
  upw fun h => f (({ h with swc := { h.swc with buf := [(1, some g)] } }.setFld (Reg.TM_Q_CFG 0) F.TM_Q_CFG_OUT out |>.setFld (Reg.TM_Q_CFG 0)
    F.TM_Q_CFG_EN 1).setTq 0 { ents := [⟨1, true, false, 0⟩] })
/-- The slot at hand belongs to a context. -/
def slotw (c : Nat) (f : Hub → Hub) : State := upw fun h => f (h.wr (Reg.CAL_A (h.slotNo / 4)) (word c))
/-- Bytes with their frame check sequence. -/
def sealed (bs : List Byte) : List Byte := bs ++ (beBytes 4 (fcsOf bs)).reverse
/-- An NRP frame of version 2 from node 5 to node 9 with the ring's EtherType, padded. -/
def ringBytes (typ src : Nat) (pay : List Byte) : List Byte :=
  sealed (List.replicate 12 0 ++ [0x88, 0xB6] ++ [byte (0x20 + typ), 0, byte src, 9, 0, 0, 0, 0, 0, 0, 0, byte pay.length, 0, 0, 9,
      0] ++ pay ++ List.replicate (30 - pay.length) 0)
/-- The ring block on, port 0 in a link state. -/
def ringw (l : Link) (f : Hub → Hub) : State := upw fun h => f ((h.setFld Reg.RING_CTL F.RING_CTL_EN 1).setRport 0 { link := l })
/-- A hub of a twin in a role. -/
def twinw (r : Role) (f : TwinBlk → TwinBlk) : State := upw fun h => h.setTwin (f { h.twin with role := r })
/-- Flash that holds some bytes at an address. -/
def flashw (a : Nat) (bs : List Byte) (h : Hub) : State := { State.reset with hub := h, nv := { flash := mwrite 0xFF [] a bs } }
/-- A hub whose USB function is configured, with endpoint 1 of a direction and service. -/
def usbFn (dir svc : Nat) (f : Hub → Hub) : State :=
  upw fun h => f ((((h.setFld Reg.USB_CTL F.USB_CTL_FN_EN 1).setFld Reg.GLB_STRAPS F.GLB_STRAPS_HOST_SEL 1).setFld (Reg.USB_EP_CFG 1 dir) F.USB_EP_CFG_EN 1
    |>.setFld (Reg.USB_EP_CFG 1 dir) F.USB_EP_CFG_SVC svc).setUdev true { state := 3 } |>.setUport 7 { st := .enabled })
/-- A hub of a twin whose command queue 0 is open at version 3. -/
def queueHub (r : Role) : Hub :=
  ((bootHub.setTwin { bootHub.twin with role := r }).setFld (Reg.HQ_CFG 0) F.HQ_CFG_EN 1).setFld (Reg.HQ_CFG 0) F.HQ_CFG_VERSION 3

/-! ## Single steps -/

/-- The hub after a step, or the hub before it. -/
def after (c : Instr) (s : State) : Hub :=
  match step { s with pending := [c] } with
  | .next t => t.hub
  | _ => s.hub

/-- `LDI A, 15` and a taken `JMP 1, 5` of chapter 04's worked example. -/
theorem test_ldi_loads : ((after (.ldi 0) (frw 0x900F { run := true } id)).eng 0).a = 15 := by decide +kernel

theorem test_jmp_counts_down :
    let g := (after (.jmp 0 0) (frw 0x1085 { run := true, a := 15 } id)).eng 0
    g.a = 14 ∧ g.pc = 5 := by decide +kernel

/-- `ADDI w2, w1, -1` writes w2 and leaves its source (R191). -/
theorem test_addi_negative :
    let x := (after (.addi 0) (ctxw 0x0484FFFF { w := [(1, 5)] } fun h => h.setFld (Reg.CTX_PROG 0) F.CTX_PROG_PROG_HI 9)).ctx 0
    x.reg 2 = 4 ∧ x.reg 1 = 5 ∧ x.pc = 1 := by decide +kernel

/-- Register w0 reads as zero and takes no write (R186). -/
theorem test_w0_discards : ((after (.ori 0) (ctxw 0x0C000007 {} id)).ctx 0).reg 0 = 0 := by decide +kernel

/-- `STL.B` writes the low byte of its source and no other byte (R194). -/
theorem test_stl_byte :
    let h := after (.stl 0) (ctxw 0x44400005 { w := [(1, 0x1234)] } id)
    mget 0 h.car.data 5 = 0x34 ∧ mget 0 h.car.data 4 = 0 := by decide +kernel

/-- A received character goes into the queue as a `DATA` item: a noisy bit and a low stop bit are marked (R80, R86). -/
theorem test_lane_char_item :
    ((after (.laneRxChar 0 [0] [7, 0, 0, 0, 0, 0, 5,
        0] [] [0] 0) (lnw 1 { st := .running } fun h => h.setFld (Reg.LN_MCFG 0) F.LN_MCFG_DATA_BITS 8)).lane
      0).rxq.items.getLast? = some 0x00000C41 := by
  decide +kernel

/-- A register write outside the boot block is refused while the hub is in cold reset. -/
theorem test_cold_reset_refuses : after (.registerWrite .core 0x40020 15 1) State.reset = State.reset.hub := by decide +kernel

/-- The first step out of a cold reset boots; with erased flash it ends in recovery (R482). -/
theorem test_cold_reset_end : (after (.coldResetEnd 0) State.reset).flag Reg.GLB_BOOT F.GLB_BOOT_RECOVERY = true := by decide +kernel

/-- An unknown command is refused with `ENOTSUP` and one of family 0x0C06 with `EDENIED` (R450). -/
theorem test_precheck :
    upHub.precheck (mkCmd .script 0x0F01 0 []) = some (sENOTSUP, 0, 0) ∧ upHub.precheck (mkCmd .script 0x0C06 0 []) = some (sEDENIED, 0, 0) := by
  decide +kernel

/-- With no command waiting, time goes on by one core-clock cycle. -/
theorem test_idle_tick : step State.reset = .next { State.reset with hub := { State.reset.hub with now := tuCore } } := rfl

/-! ## States and operands that meet the hypotheses of the statements, clause by clause -/

theorem witness_PointCommandsTakeEffect :
  (∃ (s : State) (src : CmdSrc) (tag : Byte) (first count what : Word),
    let c := mkCmd src 0x0D06 tag [first, count, what]
    Accepts s c ∧ first.toNat + count.toNat ≤ 0xFF00 ∧ 1 ≤ count.toNat ∧ what.toNat % 16 < 8 ∧ s.hub.car.strum = false) ∧
  (∃ (s : State) (src : CmdSrc) (tag : Byte) (first count what : Word),
    let c := mkCmd src 0x0D06 tag [first, count, what]
    Accepts s c ∧ first.toNat + count.toNat ≤ 0xFF00 ∧ 1 ≤ count.toNat ∧ what.toNat % 16 < 8 ∧ s.hub.car.strum = true) ∧
  (∃ (s : State) (src : CmdSrc) (tag : Byte) (entry : Word) (tt : Nat),
    let c := mkCmd src 0x0D04 tag [entry]
    let i := entry.toNat
    Accepts s c ∧ i < 4096 ∧ s.hub.subOk i = true ∧ (s.hub.subSt i = .off ∨ s.hub.subSt i = .failed) ∧ s.hub.freeTag = some tt) ∧
  (∃ (s : State) (src : CmdSrc) (tag : Byte) (entry : Word),
    let c := mkCmd src 0x0D05 tag [entry]
    let i := entry.toNat
    Accepts s c ∧ i < 4096 ∧ s.hub.subSt i ≠ .off) := by
  refine ⟨?_, ?_, ?_, ?_⟩
  · refine ⟨up, .script, 0, 0, 1, 0, ?_⟩
    dsimp only [Accepts, mkCmd]
    decide +kernel
  · refine ⟨upw fun h => { h with car := { h.car with strum := true } }, .script, 0, 0, 1, 0, ?_⟩
    dsimp only [Accepts, mkCmd]
    decide +kernel
  · refine ⟨upw fun h => h.setFld (Reg.PTM_SUB0 0) F.PTM_SUB0_SRC_NODE 7, .script, 0, 0, 0, ?_⟩
    dsimp only [Accepts, mkCmd]
    decide +kernel
  · refine ⟨upw fun h => h.setSub 0 .active, .script, 0, 0, ?_⟩
    dsimp only [Accepts, mkCmd]
    decide +kernel

theorem witness_PointReadsAndWrites :
  (∃ (s : State) (src : CmdSrc) (tag : Byte) (addr count landing : Word) (tt : Nat),
    let c := mkCmd src 0x0D01 tag [addr, count, landing]
    let node := addr.toNat / 65536 % 256
    Accepts s c ∧ addr.toNat < 2 ^ 24 ∧ s.hub.ownNode node = false ∧ node ≠ 0xFF ∧ 1 ≤ count.toNat ∧ count.toNat ≤ 122 ∧
        addr.toNat % 65536 + count.toNat ≤ 65536 ∧ landing.toNat + count.toNat ≤ 16384 ∧
        (∀ j ∈ s.hub.subsOpen, rangesMeet landing.toNat count.toNat (s.hub.subBase j) (s.hub.subCount j) = false) ∧ s.hub.freeTag = some tt) ∧
  (∃ (s : State) (src : CmdSrc) (tag : Byte) (addr value quality tsx tsLo tsHi : Word),
    let c := mkCmd src 0x0D02 tag [addr, value, quality, tsx, tsLo, tsHi]
    let i := addr.toNat % 65536
    let r := s.hub.slot i
    Accepts s c ∧ addr.toNat < 2 ^ 24 ∧ s.hub.ownNode (addr.toNat / 65536 % 256) = true ∧ addr.toNat / 65536 % 256 ≠ 0xFF ∧ i < 0xFF00 ∧
        r.defined = true ∧ r.wrHost = true) ∧
  (∃ (s : State) (src : CmdSrc) (tag : Byte) (addr value quality tsx tsLo tsHi : Word) (tt : Nat),
    let c := mkCmd src 0x0D02 tag [addr, value, quality, tsx, tsLo, tsHi]
    let node := addr.toNat / 65536 % 256
    Accepts s c ∧ addr.toNat < 2 ^ 24 ∧ s.hub.ownNode node = false ∧ node ≠ 0xFF ∧ s.hub.freeTag = some tt) ∧
  (∃ (s : State) (src : CmdSrc) (tag : Byte) (addr value quality tsx tsLo tsHi : Word),
    let c := mkCmd src 0x0D03 tag [addr, value, quality, tsx, tsLo, tsHi]
    let i := addr.toNat % 65536
    let r := s.hub.slot i
    Accepts s c ∧ addr.toNat < 2 ^ 24 ∧ s.hub.ownNode (addr.toNat / 65536 % 256) = true ∧ addr.toNat / 65536 % 256 ≠ 0xFF ∧ i < 0xFF00 ∧
        r.defined = true ∧ r.typ = 7 ∧ r.wrHost = true) := by
  refine ⟨?_, ?_, ?_, ?_⟩
  · refine ⟨up, .script, 0, 0x70000, 1, 0, 0, ?_⟩
    dsimp only [Accepts, mkCmd]
    decide +kernel
  · refine ⟨upw fun h => h.setSlot 0 { quality := 1, flags := 0xFF, typ := 7 }, .script, 0, 0, 0, 0, 0, 0, 0, ?_⟩
    dsimp only [Accepts, mkCmd]
    decide +kernel
  · refine ⟨up, .script, 0, 0x70000, 0, 0, 0, 0, 0, 0, ?_⟩
    dsimp only [Accepts, mkCmd]
    decide +kernel
  · refine ⟨upw fun h => h.setSlot 0 { quality := 1, flags := 0xFF, typ := 7 }, .script, 0, 0, 0, 0, 0, 0, 0, ?_⟩
    dsimp only [Accepts, mkCmd]
    decide +kernel

theorem witness_PointPortTakesFrames :
  (∃ (s : State) (f : Frame) (k : Hub) (b : Bundle),
    let n := nrpParse f.bytes
    s.hub.held = false ∧ s.hub.takeInbox (fun f => frameType tPub f || frameType tFrame f || frameOdd f) = some (f, k) ∧ frameType tPub f = true ∧
        k.ptEnabled = true ∧ k.delivers = true ∧ bundleParse n.ver (nrpPayload f.bytes) = some b ∧ b.count ≠ 0 ∧ k.guardJudge n b = .pass ∧
        n.ver ≠ 3) ∧
  (∃ (s : State) (f : Frame) (k : Hub), s.hub.held = false ∧
      s.hub.takeInbox (fun f => frameType tPub f || frameType tFrame f || frameOdd f) = some (f, k) ∧ frameType tFrame f = true) ∧
  (∃ (s : State) (f : Frame) (k : Hub) (b : Bundle),
    let n := nrpParse f.bytes
    let pts := beAt (nrpPayload f.bytes) 2 2
    let slot := b.start % 65536
    s.hub.held = false ∧ s.hub.takeInbox (frameReq .read) = some (f, k) ∧ k.ptEnabled = true ∧ k.delivers = true ∧
        bundleParse n.ver ((nrpPayload f.bytes).drop 4) = some b ∧ b.count = 0 ∧ k.guardJudge n b = .pass ∧ n.group = false ∧ 1 ≤ pts ∧ pts ≤ 122 ∧
        k.allDefined slot pts = true) ∧
  (∃ (s : State) (f : Frame) (k : Hub) (b : Bundle),
    let n := nrpParse f.bytes
    let pts := beAt (nrpPayload f.bytes) 2 2
    let slot := b.start % 65536
    s.hub.held = false ∧ s.hub.takeInbox (frameReq .read) = some (f, k) ∧ k.ptEnabled = true ∧ k.delivers = true ∧
        bundleParse n.ver ((nrpPayload f.bytes).drop 4) = some b ∧ b.count = 0 ∧ k.guardJudge n b = .pass ∧ n.group = false ∧
        (pts = 0 ∨ 122 < pts ∨ k.allDefined slot pts = false)) ∧
  (∃ (s : State) (f : Frame) (k : Hub) (b : Bundle),
    let n := nrpParse f.bytes
    let pts := beAt (nrpPayload f.bytes) 2 2
    let slot := b.start % 65536
    s.hub.held = false ∧ s.hub.takeInbox (frameReq .subscribe) = some (f, k) ∧ k.ptEnabled = true ∧ k.delivers = true ∧
        bundleParse n.ver ((nrpPayload f.bytes).drop 4) = some b ∧ b.count = 0 ∧ k.guardJudge n b = .pass ∧ n.group = false ∧ 1 ≤ pts ∧ pts ≤ 1024 ∧
        k.allDefined slot pts = true) ∧
  (∃ (s : State) (f : Frame) (k : Hub) (b : Bundle),
    let n := nrpParse f.bytes
    s.hub.held = false ∧ s.hub.takeInbox (frameReq .write) = some (f, k) ∧ k.ptEnabled = true ∧ k.delivers = true ∧
        bundleParse n.ver ((nrpPayload f.bytes).drop 4) = some b ∧ b.count ≠ 0 ∧ k.guardJudge n b = .pass ∧ beAt (nrpPayload f.bytes) 0 1 / 16 = 1 ∧
        n.group = false ∧ k.judgeWrite (b.start % 65536) b.recs = sOK) ∧
  (∃ (s : State) (f : Frame) (k : Hub) (b : Bundle),
    let n := nrpParse f.bytes
    let slot := b.start % 65536
    s.hub.held = false ∧ s.hub.takeInbox (frameReq .event) = some (f, k) ∧ k.ptEnabled = true ∧ k.delivers = true ∧
        bundleParse n.ver ((nrpPayload f.bytes).drop 4) = some b ∧ b.count = 1 ∧ (∀ w ∈ b.recs, w.typ = 7) ∧ k.guardJudge n b = .pass ∧
        beAt (nrpPayload f.bytes) 0 1 / 16 = 3 ∧ slot < 0xFF00 ∧ (k.slot slot).defined = true ∧ (k.slot slot).wrRemote = true ∧
        (k.slot slot).typ = 7) ∧
  (∃ (s : State) (f : Frame) (k : Hub) (b : Bundle),
    let n := nrpParse f.bytes
    let p := nrpPayload f.bytes
    let u := n.flow % 256
    let g := k.tag u
    s.hub.held = false ∧ s.hub.takeInbox (frameType tRsp) = some (f, k) ∧ k.ptEnabled = true ∧ k.delivers = true ∧
        bundleParse n.ver (p.drop 4) = some b ∧ k.guardJudge n b = .pass ∧ n.dst = k.ring.addr ∧ g.st = .pending ∧ g.node = n.src ∧
        beAt p 0 1 / 16 = g.kind.code ∧ beAt p 1 1 = sOK ∧ g.kind = .read ∧ b.count = g.count ∧ b.count ≠ 0 ∧ b.start = g.node * 65536 + g.point) ∧
  (∃ (s : State) (f : Frame) (k : Hub) (b : Bundle),
    let n := nrpParse f.bytes
    let p := nrpPayload f.bytes
    let u := n.flow % 256
    let g := k.tag u
    s.hub.held = false ∧ s.hub.takeInbox (frameType tRsp) = some (f, k) ∧ k.ptEnabled = true ∧ k.delivers = true ∧
        bundleParse n.ver (p.drop 4) = some b ∧ k.guardJudge n b = .pass ∧ n.dst = k.ring.addr ∧ g.st = .pending ∧ g.node = n.src ∧
        beAt p 0 1 / 16 = g.kind.code ∧ beAt p 1 1 = sOK ∧ (g.kind = .write ∨ g.kind = .event) ∧ b.count = 0) ∧
  (∃ (s : State) (f : Frame) (k : Hub) (b : Bundle),
    let n := nrpParse f.bytes
    let p := nrpPayload f.bytes
    s.hub.held = false ∧ s.hub.takeInbox (frameType tRsp) = some (f, k) ∧ k.ptEnabled = true ∧ k.delivers = true ∧
        bundleParse n.ver (p.drop 4) = some b ∧ k.guardJudge n b = .pass ∧ n.dst ≠ k.ring.addr ∧ b.count ≠ 0 ∧
        (beAt p 0 1 / 16 = 0 ∨ beAt p 0 1 / 16 = 2) ∧ beAt p 1 1 = sOK) := by
  refine ⟨?_, ?_, ?_, ?_, ?_, ?_, ?_, ?_, ?_, ?_⟩
  · refine ⟨boxw (nrpFrame 2 4 0 [0, 0, 0, 1, 1, 0, 0, 0, 0, 0, 0x70, 0, 0, 0, 0, 0]) id, nrpFrame 2 4 0 [0, 0, 0, 1, 1, 0, 0, 0, 0, 0, 0x70, 0, 0,
      0, 0, 0], boxOut (boxw (nrpFrame 2 4 0 [0, 0, 0, 1, 1, 0, 0, 0, 0, 0, 0x70, 0, 0, 0, 0, 0]) id), onePoint 0, ?_⟩
    decide +kernel
  · refine ⟨boxw (nrpFrame 2 5 0 []) id, nrpFrame 2 5 0 [], boxOut (boxw (nrpFrame 2 5 0 []) id), ?_⟩
    decide +kernel
  · refine ⟨boxw (nrpFrame 2 6 0 ([0, 0, 0, 1] ++ [0, 0, 0, 0])) fun h => h.setSlot 0 { quality := 1, flags := 0xFF, typ := 7 }, nrpFrame 2 6 0 ([0,
      0, 0, 1] ++ [0, 0, 0, 0]), boxOut (boxw (nrpFrame 2 6 0 ([0, 0, 0, 1] ++ [0, 0, 0,
      0])) fun h => h.setSlot 0 { quality := 1, flags := 0xFF, typ := 7 }), noPoints 0, ?_⟩
    decide +kernel
  · refine ⟨boxw (nrpFrame 2 6 0 ([0, 0, 0, 0] ++ [0, 0, 0, 0])) id, nrpFrame 2 6 0 ([0, 0, 0, 0] ++ [0, 0, 0, 0]), boxOut (boxw (nrpFrame 2 6 0 ([0,
      0, 0, 0] ++ [0, 0, 0, 0])) id), noPoints 0, ?_⟩
    decide +kernel
  · refine ⟨boxw (nrpFrame 2 6 0 ([32, 0, 0, 1] ++ [0, 0, 0, 0])) fun h => h.setSlot 0 { quality := 1, flags := 0xFF, typ := 7 },
      nrpFrame 2 6 0 ([32, 0, 0, 1] ++ [0, 0, 0, 0]), boxOut (boxw (nrpFrame 2 6 0 ([32, 0, 0, 1] ++ [0, 0, 0,
      0])) fun h => h.setSlot 0 { quality := 1, flags := 0xFF, typ := 7 }), noPoints 0, ?_⟩
    decide +kernel
  · refine ⟨boxw (nrpFrame 2 6 0 ([16, 0, 0, 1] ++ [0, 0, 0, 1, 1, 0, 0, 0, 0, 0, 0x70, 0, 0, 0, 0,
      0])) fun h => h.setSlot 0 { quality := 1, flags := 0xFF, typ := 7 }, nrpFrame 2 6 0 ([16, 0, 0, 1] ++ [0, 0, 0, 1, 1, 0, 0, 0, 0, 0, 0x70, 0,
      0, 0, 0, 0]), boxOut (boxw (nrpFrame 2 6 0 ([16, 0, 0, 1] ++ [0, 0, 0, 1, 1, 0, 0, 0, 0, 0, 0x70, 0, 0, 0, 0,
      0])) fun h => h.setSlot 0 { quality := 1, flags := 0xFF, typ := 7 }), onePoint 0, ?_⟩
    decide +kernel
  · refine ⟨boxw (nrpFrame 2 6 0 ([48, 0, 0, 1] ++ [0, 0, 0, 1, 1, 0, 0, 0, 0, 0, 0x70, 0, 0, 0, 0,
      0])) fun h => h.setSlot 0 { quality := 1, flags := 0xFF, typ := 7 }, nrpFrame 2 6 0 ([48, 0, 0, 1] ++ [0, 0, 0, 1, 1, 0, 0, 0, 0, 0, 0x70, 0,
      0, 0, 0, 0]), boxOut (boxw (nrpFrame 2 6 0 ([48, 0, 0, 1] ++ [0, 0, 0, 1, 1, 0, 0, 0, 0, 0, 0x70, 0, 0, 0, 0,
      0])) fun h => h.setSlot 0 { quality := 1, flags := 0xFF, typ := 7 }), onePoint 0, ?_⟩
    decide +kernel
  · refine ⟨boxw (nrpFrame 2 7 0 ([0, 0, 0, 1] ++ [5, 0, 0, 1, 1, 0, 0, 0, 0, 0, 0x70, 0, 0, 0, 0,
      0])) fun h => h.setTag 0 { st := .pending, node := 5, kind := .read, count := 1 }, nrpFrame 2 7 0 ([0, 0, 0, 1] ++ [5, 0, 0, 1, 1, 0, 0, 0, 0,
      0, 0x70, 0, 0, 0, 0, 0]), boxOut (boxw (nrpFrame 2 7 0 ([0, 0, 0, 1] ++ [5, 0, 0, 1, 1, 0, 0, 0, 0, 0, 0x70, 0, 0, 0, 0,
      0])) fun h => h.setTag 0 { st := .pending, node := 5, kind := .read, count := 1 }), onePoint 0x50000, ?_⟩
    decide +kernel
  · refine ⟨boxw (nrpFrame 2 7 0 ([16, 0, 0, 0] ++ [0, 0, 0, 0])) fun h => h.setTag 0 { st := .pending, node := 5, kind := .write },
      nrpFrame 2 7 0 ([16, 0, 0, 0] ++ [0, 0, 0, 0]), boxOut (boxw (nrpFrame 2 7 0 ([16, 0, 0, 0] ++ [0, 0, 0,
      0])) fun h => h.setTag 0 { st := .pending, node := 5, kind := .write }), noPoints 0, ?_⟩
    decide +kernel
  · refine ⟨boxw (nrpFrame 2 7 0 ([0, 0, 0, 1] ++ [5, 0, 0, 1, 1, 0, 0, 0, 0, 0, 0x70, 0, 0, 0, 0,
      0])) fun h => { h with ring := { h.ring with addr := 9 } }, nrpFrame 2 7 0 ([0, 0, 0, 1] ++ [5, 0, 0, 1, 1, 0, 0, 0, 0, 0, 0x70, 0, 0, 0, 0,
      0]), boxOut (boxw (nrpFrame 2 7 0 ([0, 0, 0, 1] ++ [5, 0, 0, 1, 1, 0, 0, 0, 0, 0, 0x70, 0, 0, 0, 0,
      0])) fun h => { h with ring := { h.ring with addr := 9 } }), onePoint 0x50000, ?_⟩
    decide +kernel

theorem witness_TransactionTimeoutsAndWindow :
  (∃ (s : State) (u : Byte),
    let g := s.hub.tag u.toNat
    s.hub.held = false ∧ g.st = .pending ∧ g.lastTx + s.hub.txnTimeout ≤ s.hub.now ∧ s.hub.acts = true ∧ g.kind ≠ .event ∧
        g.tries < s.hub.fld Reg.PTM_TXN_CFG F.PTM_TXN_CFG_RETRIES) ∧
  (∃ (s : State) (u : Byte),
    let g := s.hub.tag u.toNat
    s.hub.held = false ∧ g.st = .pending ∧ g.lastTx + s.hub.txnTimeout ≤ s.hub.now ∧ s.hub.acts = true ∧ g.ref = none ∧
        (g.kind = .event ∨ s.hub.fld Reg.PTM_TXN_CFG F.PTM_TXN_CFG_RETRIES ≤ g.tries)) ∧
  (∃ (s : State) (u : Byte),
    let g := s.hub.tag u.toNat
    s.hub.held = false ∧ g.st = .quarantine ∧ g.lastTx + s.hub.txnTimeout ≤ s.hub.now) ∧
  (∃ (s : State) (off : BitVec 20) (ws : List Word), s.hub.held = false ∧ s.hub.hostOpen = true ∧ off.toNat % 4 = 0 ∧ off.toNat % 16 ≠ 0 ∧
      s.hub.pt.w2latch = some (s.hub.fld Reg.PTM_CTL F.PTM_CTL_W2_PAGE, off.toNat / 16, ws)) ∧
  (∃ (s : State) (off : BitVec 20) (len : Nat), s.hub.held = false ∧ s.hub.hostOpen = true ∧ (len ≠ 4 ∨ off.toNat % 4 ≠ 0)) ∧
  (∃ (s : State) (off : BitVec 20),
    let i := off.toNat / 16
    let r := s.hub.slot i
    s.hub.held = false ∧ s.hub.hostOpen = true ∧ s.hub.flag Reg.PTM_CTL F.PTM_CTL_W2_WR_EN = true ∧ s.hub.flag Reg.PTM_CTL F.PTM_CTL_W2_PAGE = false ∧
        off.toNat % 16 = 0 ∧ i < 0xFF00 ∧ r.defined = true ∧ r.wrHost = true) := by
  refine ⟨?_, ?_, ?_, ?_, ?_, ?_⟩
  · refine ⟨upw fun h => h.setTag 0 { st := .pending }, 0, ?_⟩
    decide +kernel
  · refine ⟨upw fun h => h.setTag 0 { st := .pending, tries := 9 }, 0, ?_⟩
    decide +kernel
  · refine ⟨upw fun h => h.setTag 0 { st := .quarantine }, 0, ?_⟩
    decide +kernel
  · refine ⟨bootw fun h => { h with pt := { h.pt with w2latch := some (0, 0, [0, 0, 0, 0]) } }, 4, [0, 0, 0, 0], ?_⟩
    decide +kernel
  · refine ⟨bootw id, 0, 0, ?_⟩
    decide +kernel
  · refine ⟨bootw fun h => (h.setSlot 0 { quality := 1, flags := 0xFF, typ := 7 }).setFld Reg.PTM_CTL F.PTM_CTL_W2_WR_EN 1, 0, ?_⟩
    decide +kernel

theorem witness_LaneReceptionAndPins :
  (∃ (s : State) (n : Fin 96) (sb db pb tb : List (BitVec 3)) (x : Word),
    let bs := sb ++ db ++ pb ++ tb
    let l := s.hub.lane n
    let m := s.hub.lnMode n
    let start := if l.seen.isSome then (l.seen.map (·.at_)).getD 0 else s.hub.now - s.hub.charTime n
    let de := if l.seen.isSome then (l.seen.map (·.de)).getD false else l.de && decide (l.deAt ≤ start)
    let h0 := if isAsync m then s.hub.setLane n { l with seen := none } else s.hub
    let h1 := if m = 2 ∧ de = true ∧ s.hub.lnM n F.LN_MCFG_ECHO_SUPPRESS = 0 then (h0.count (Reg.LN_CNT_RX_WHILE_TX n)).lnEvt n F.LN_EVT_RX_WHILE_TX else h0
    let k := (h1.setLane n { h1.lane n with lastChar := h1.now })
    let h := k.snoopBytes 1 n 0 [byte x.toNat]
    s.hub.held = false ∧ l.st = .running ∧ s.hub.lnLoop n = false ∧ hearsChars m = true ∧ (m = 2 → l.deafAt start = false) ∧
        h0.charItem n bs = some x ∧ m ≠ 6 ∧ isAsync m = true ∧ h.lnEofIdle n = 0) ∧
  (∃ (s : State) (n : Fin 96) (sb db pb tb : List (BitVec 3)) (x : Word),
    let bs := sb ++ db ++ pb ++ tb
    let l := s.hub.lane n
    let m := s.hub.lnMode n
    let start := if l.seen.isSome then (l.seen.map (·.at_)).getD 0 else s.hub.now - s.hub.charTime n
    let de := if l.seen.isSome then (l.seen.map (·.de)).getD false else l.de && decide (l.deAt ≤ start)
    let h0 := if isAsync m then s.hub.setLane n { l with seen := none } else s.hub
    let h1 := if m = 2 ∧ de = true ∧ s.hub.lnM n F.LN_MCFG_ECHO_SUPPRESS = 0 then (h0.count (Reg.LN_CNT_RX_WHILE_TX n)).lnEvt n F.LN_EVT_RX_WHILE_TX else h0
    let k := (h1.setLane n { h1.lane n with lastChar := h1.now })
    let h := k.snoopBytes 1 n 0 [byte x.toNat]
    s.hub.held = false ∧ l.st = .running ∧ s.hub.lnLoop n = false ∧ hearsChars m = true ∧ (m = 2 → l.deafAt start = false) ∧
        h0.charItem n bs = some x ∧ m ≠ 6 ∧ (isAsync m = false ∨ h.lnEofIdle n ≠ 0)) ∧
  (∃ (s : State) (n : Fin 96) (sb db pb tb : List (BitVec 3)),
    let bs := sb ++ db ++ pb ++ tb
    let l := s.hub.lane n
    let m := s.hub.lnMode n
    let start := if l.seen.isSome then (l.seen.map (·.at_)).getD 0 else s.hub.now - s.hub.charTime n
    let h0 := if isAsync m then s.hub.setLane n { l with seen := none } else s.hub
    s.hub.held = false ∧ l.st = .running ∧ s.hub.lnLoop n = false ∧ hearsChars m = true ∧ (m = 2 → l.deafAt start = false) ∧
        h0.charItem n bs = none) ∧
  (∃ (s : State) (n : Fin 96) (sb db pb tb : List (BitVec 3)) (x : Word),
    let bs := sb ++ db ++ pb ++ tb
    let l := s.hub.lane n
    let m := s.hub.lnMode n
    s.hub.held = false ∧ l.st = .running ∧ s.hub.lnLoop n = false ∧ m = 6 ∧ s.hub.charItem n bs = some x) ∧
  (∃ (s : State) (n : Fin 96),
    let l := s.hub.lane n
    let m := s.hub.lnMode n
    let start := if l.seen.isSome then (l.seen.map (·.at_)).getD 0 else s.hub.now - s.hub.charTime n
    s.hub.held = false ∧ l.st = .running ∧ s.hub.lnLoop n = false ∧ m = 2 ∧ l.deafAt start = true) ∧
  (∃ (s : State) (n : Fin 96),
    let l := s.hub.lane n
    let start := if l.seen.isSome then (l.seen.map (·.at_)).getD 0 else s.hub.now - s.hub.charTime n
    s.hub.held = false ∧ l.st = .running ∧ isAsync (s.hub.lnMode n) = true ∧ s.hub.lnLoop n = false ∧ (s.hub.lnMode n = 2 → l.deafAt start = false)) ∧
  (∃ (s : State) (n : Fin 96), s.hub.held = false ∧ (s.hub.lane n).st = .running ∧ isAsync (s.hub.lnMode n) = true ∧ (s.hub.lane n).rx.on = true ∧
      s.hub.lnEofIdle n ≠ 0 ∧ (s.hub.lane n).lastChar + s.hub.lnEofIdle n * 100 * tuNs ≤ s.hub.now) ∧
  (∃ (s : State) (n : Fin 96),
    let m := s.hub.lnMode n
    s.hub.held = false ∧ (s.hub.lane n).st = .running ∧ (s.hub.lane n).rx.on = true ∧ [4, 5, 6, 7, 8, 9].contains m = true) ∧
  (∃ (s : State) (n : Fin 96) (i : Fin 3) (t : Nat),
    let g : Nat := 3 * n + i
    s.hub.held = false ∧ t < s.hub.filtOf g ∧ s.hub.pinOwned g = false) ∧
  (∃ (s : State) (n : Fin 96) (i : Fin 3) (level : Bool),
    let g : Nat := 3 * n + i
    s.hub.held = false ∧ tget false s.hub.ln.pin g ≠ level ∧ s.hub.pinOwned g = true) ∧
  (∃ (s : State) (n : Fin 96) (i : Fin 3) (level : Bool) (t : Nat),
    let g : Nat := 3 * n + i
    let k := { s.hub with ln := { s.hub.ln with pin := tset false s.hub.ln.pin g level, pinAt := tset 0 s.hub.ln.pinAt g s.hub.now } }
    s.hub.held = false ∧ tget false s.hub.ln.pin g ≠ level ∧ s.hub.pinOwned g = false ∧ s.hub.filtOf g ≤ t ∧
        (k.liveLanes.any fun m => (k.csPin m).contains g) = false ∧ (s.hub.lane n).st ≠ .running) ∧
  (∃ (s : State) (n : Fin 96) (i : Fin 3) (level : Bool) (t : Nat),
    let g : Nat := 3 * n + i
    let k := { s.hub with ln := { s.hub.ln with pin := tset false s.hub.ln.pin g level, pinAt := tset 0 s.hub.ln.pinAt g s.hub.now } }
    s.hub.held = false ∧ tget false s.hub.ln.pin g ≠ level ∧ s.hub.pinOwned g = false ∧ s.hub.filtOf g ≤ t ∧
        (k.liveLanes.any fun m => (k.csPin m).contains g) = false ∧ (s.hub.lane n).st = .running ∧ (k.modePins n).contains i.val = false ∧
        s.hub.pinCfg n i 7 = false) ∧
  (∃ (s : State) (n : Fin 96) (i : Fin 3) (level : Bool) (t : Nat),
    let g : Nat := 3 * n + i
    let k := { s.hub with ln := { s.hub.ln with pin := tset false s.hub.ln.pin g level, pinAt := tset 0 s.hub.ln.pinAt g s.hub.now } }
    s.hub.held = false ∧ tget false s.hub.ln.pin g ≠ level ∧ s.hub.pinOwned g = false ∧ s.hub.filtOf g ≤ t ∧
        (k.liveLanes.any fun m => (k.csPin m).contains g) = false ∧ (s.hub.lane n).st = .running ∧ (k.modePins n).contains i.val = false ∧
        s.hub.pinCfg n i 7 = true) ∧
  (∃ (s : State) (n : Fin 96),
    let g : Nat := 3 * n + 2
    let k := { s.hub with ln := { s.hub.ln with pin := tset false s.hub.ln.pin g false, pinAt := tset 0 s.hub.ln.pinAt g s.hub.now } }
    s.hub.held = false ∧ s.hub.lnMode n = 1 ∧ s.hub.lnF Reg.LN_MODE n F.LN_MODE_C_FUNC = 2 ∧ tget false s.hub.ln.pin g = true ∧
        (k.liveLanes.any fun m => (k.csPin m).contains g) = false) ∧
  (∃ (s : State) (n : Fin 96),
    let l := s.hub.lane n
    s.hub.held = false ∧ l.de = true ∧ l.lead = true ∧ l.deAt + s.hub.lnF Reg.LN_TIMERS n F.LN_TIMERS_DE_LEAD * 400 ≤ s.hub.now) ∧
  (∃ (s : State) (n : Fin 96) (t : Nat),
    let l := s.hub.lane n
    s.hub.held = false ∧ l.deOff = some t ∧ t ≤ s.hub.now) ∧
  (∃ (s : State) (n : Fin 96),
    let l := s.hub.lane n
    s.hub.held = false ∧ l.deaf = true ∧ l.de = false ∧ l.deafUntil ≤ s.hub.now) ∧
  (∃ (s : State) (kind : Fin 8) (n : Byte), s.hub.held = false ∧ allQueues.contains ⟨kind, n.toNat⟩ = true) ∧
  (∃ (h : Hub) (n : Fin 96), h.twin.role = .solo ∧
    let l := h.lane n
    0 < l.rxq.credit h.now 64) ∧
  (∃ (h : Hub) (n : Fin 96), h.twin.role = .solo ∧
    let l := h.lane n
    l.rxq.credit h.now 64 = 0) := by
  refine ⟨?_, ?_, ?_, ?_, ?_, ?_, ?_, ?_, ?_, ?_, ?_, ?_, ?_, ?_, ?_, ?_, ?_, ?_, ?_, ?_⟩
  · refine ⟨lnw 1 { st := .running } fun h => h.setFld (Reg.LN_MCFG 0) F.LN_MCFG_DATA_BITS 8, 0, [0], [7, 0, 0, 0, 0, 0, 7, 0], [], [7], 0x41, ?_⟩
    decide +kernel
  · refine ⟨lnw 1 { st := .running } fun h => (h.setFld (Reg.LN_MCFG 0) F.LN_MCFG_DATA_BITS 8).setFld (Reg.LN_EOFI 0) F.LN_EOFI_EOF_IDLE 20, 0, [0],
      [7, 0, 0, 0, 0, 0, 7, 0], [], [7], 0x41, ?_⟩
    decide +kernel
  · refine ⟨lnw 1 { st := .running } fun h => h.setFld (Reg.LN_MCFG 0) F.LN_MCFG_DATA_BITS 8, 0, [], [], [], [], ?_⟩
    decide +kernel
  · refine ⟨lnw 6 { st := .running } id, 0, [], [7, 0, 0, 0, 0, 0, 0, 0], [], [], 0x80, ?_⟩
    decide +kernel
  · refine ⟨lnw 2 { st := .running, de := true, deaf := true } id, 0, ?_⟩
    decide +kernel
  · refine ⟨lnw 1 { st := .running } id, 0, ?_⟩
    decide +kernel
  · refine ⟨lnw 1 { st := .running, rx := { on := true } } fun h => h.setFld (Reg.LN_EOFI 0) F.LN_EOFI_EOF_IDLE 20, 0, ?_⟩
    decide +kernel
  · refine ⟨lnw 4 { st := .running, rx := { on := true } } id, 0, ?_⟩
    decide +kernel
  · refine ⟨upw fun h => h.wr (Reg.LN_FILT 0) 0xFFFFFFFF, 0, 0, 0, ?_⟩
    decide +kernel
  · refine ⟨upw fun h => h.wr (Reg.LN_PINCFG 0) 1, 0, 0, true, ?_⟩
    decide +kernel
  · refine ⟨up, 0, 0, true, 1000, ?_⟩
    decide +kernel
  · refine ⟨lnw 0 { st := .running } id, 0, 0, true, 1000, ?_⟩
    decide +kernel
  · refine ⟨lnw 0 { st := .running } fun h => h.wr (Reg.LN_PINCFG 0) 0x80, 0, 0, true, 1000, ?_⟩
    decide +kernel
  · refine ⟨lnw 1 { st := .running } fun h => (h.setFld (Reg.LN_MODE 0) F.LN_MODE_C_FUNC 2).setPin 2 true, 0, ?_⟩
    decide +kernel
  · refine ⟨lnw 2 { de := true, lead := true } id, 0, ?_⟩
    decide +kernel
  · refine ⟨lnw 2 { deOff := some 0 } id, 0, 0, ?_⟩
    decide +kernel
  · refine ⟨lnw 2 { deaf := true } id, 0, ?_⟩
    decide +kernel
  · refine ⟨up, 0, 0, ?_⟩
    decide +kernel
  · refine ⟨up.hub, 0, ?_⟩
    decide +kernel
  · refine ⟨(upHub.setLane 0 { rxq := { items := List.replicate 64 0 } }), 0, ?_⟩
    decide +kernel

theorem witness_LaneTransmission :
  (∃ (s : State) (n : Fin 96) (x : Word),
    let l := s.hub.lane n
    let m := s.hub.lnMode n
    s.hub.held = false ∧ s.hub.txReady n 0 x ∧ s.hub.ctsHigh n = false ∧ (m ≠ 2 ∨ l.tx.on = true ∨ (l.deOff = none ∧ l.hears = false ∧ l.de = true ∧
        l.lead = false))) ∧
  (∃ (s : State) (n : Fin 96) (x : Word),
    let l := s.hub.lane n
    s.hub.held = false ∧ s.hub.txReady n 0 x ∧ s.hub.lnMode n = 2 ∧ l.tx.on = false ∧ l.deOff = none ∧ l.hears = false ∧ l.de = false) ∧
  (∃ (s : State) (n : Fin 96) (x : Word),
    let l := s.hub.lane n
    s.hub.held = false ∧ s.hub.txReady n 0 x ∧ (s.hub.ctsHigh n = true ∨ (s.hub.lnMode n = 2 ∧ l.tx.on = false ∧
        (l.deOff.isSome = true ∨ l.hears = true ∨ (l.de = true ∧ l.lead = true))))) ∧
  (∃ (s : State) (n : Fin 96) (x : Word),
    let l := s.hub.lane n
    s.hub.held = false ∧ s.hub.txReady n 1 x ∧ s.hub.lnLoop n = false ∧ s.hub.ctsHigh n = false ∧
        (s.hub.lnMode n ≠ 2 ∨ l.de = true ∨ l.hears = false)) ∧
  (∃ (s : State) (n : Fin 96) (x : Word), s.hub.held = false ∧ s.hub.txReady n 6 x) ∧
  (∃ (s : State) (n : Fin 96) (x : Word), s.hub.held = false ∧ s.hub.txReady n 8 x) ∧
  (∃ (s : State) (n : Fin 96) (x : Word),
    let l := s.hub.lane n
    let k0 := s.hub.txPop n
    let k1 := if s.hub.lnM2 n F.LN_MCFG2_I2C_SPEED = 3 ∧
        l.tx.on = false then k0.lineOut n (.start (byte (8 + s.hub.lnM2 n F.LN_MCFG2_HS_CODE))) else k0
    let k2 := if l.tx.on then k1.snoopFrameEnd 2 n 1 else k1
    let k3 := if l.rx.on then k2.rxClose n 0 else k2
    s.hub.held = false ∧ s.hub.txReady n 9 x ∧ (k3.lane n).st = .running) ∧
  (∃ (s : State) (n : Fin 96) (x : Word),
    let k := s.hub.txPop n
    let h := (k.setLane n { k.lane n with tx := { (k.lane n).tx with on := true } }).lineOut n (.read (x.toNat % 256))
    s.hub.held = false ∧ s.hub.txReady n 0xA x ∧ (h.lane n).rx.on = true) ∧
  (∃ (s : State) (n : Fin 96) (x : Word), s.hub.held = false ∧ s.hub.txReady n 0xB x ∧ (s.hub.lane n).ssi = false) ∧
  (∃ (s : State) (n : Fin 96) (t : Nat), s.hub.held = false ∧ (s.hub.lane n).st = .running ∧ s.hub.lnMode n = 10 ∧
      s.hub.lnM n F.LN_MCFG_SSI_AUTO = 1 ∧ (s.hub.lane n).ssi = false ∧ tget none s.hub.car.edgeAt (s.hub.lnM2 n F.LN_MCFG2_SSI_GROUP) = some t ∧
      t + tuUs ≤ s.hub.now ∧ (s.hub.lane n).ssiEdge ≠ t + 1) ∧
  (∃ (s : State) (n : Fin 96) (t : Nat), s.hub.held = false ∧ (s.hub.lane n).st = .running ∧ s.hub.lnMode n = 10 ∧
      s.hub.lnM n F.LN_MCFG_SSI_AUTO = 1 ∧ (s.hub.lane n).ssi = false ∧ tget none s.hub.car.edgeAt (s.hub.lnM2 n F.LN_MCFG2_SSI_GROUP) = some t ∧
      t + tuUs ≤ s.hub.now ∧ (s.hub.lane n).ssiEdge = t + 1) ∧
  (∃ (s : State) (n : Fin 96) (x : Word),
    let m := s.hub.lnMode n
    s.hub.held = false ∧ s.hub.txReady n 4 x ∧ (s.hub.lane n).tx.on = true ∧ (m ≠ 1 ∨ s.hub.lnF Reg.LN_MODE n F.LN_MODE_C_FUNC ≠ 2) ∧ m ≠ 3 ∧ m ≠ 5 ∧
        m ≠ 7) ∧
  (∃ (s : State) (n : Fin 96) (x : Word),
    let m := s.hub.lnMode n
    s.hub.held = false ∧ s.hub.txReady n 4 x ∧ (s.hub.lane n).tx.on = true ∧ (m ≠ 1 ∨ s.hub.lnF Reg.LN_MODE n F.LN_MODE_C_FUNC ≠ 2) ∧ m = 3) ∧
  (∃ (s : State) (n : Fin 96) (x : Word),
    let m := s.hub.lnMode n
    s.hub.held = false ∧ s.hub.txReady n 4 x ∧ (s.hub.lane n).tx.on = true ∧ (m ≠ 1 ∨ s.hub.lnF Reg.LN_MODE n F.LN_MODE_C_FUNC ≠ 2) ∧ m = 5) ∧
  (∃ (s : State) (n : Fin 96) (x : Word),
    let m := s.hub.lnMode n
    s.hub.held = false ∧ s.hub.txReady n 4 x ∧ (s.hub.lane n).tx.on = true ∧ (m ≠ 1 ∨ s.hub.lnF Reg.LN_MODE n F.LN_MODE_C_FUNC ≠ 2) ∧ m = 7) ∧
  (∃ (s : State) (n : Fin 96) (x : Word) (b : Byte) (bs : List Byte),
    let l := s.hub.lane n
    s.hub.held = false ∧ s.hub.txReady n 4 x ∧ l.tx.on = true ∧ s.hub.lnMode n = 1 ∧ s.hub.lnF Reg.LN_MODE n F.LN_MODE_C_FUNC = 2 ∧
        l.tx.tail.getD (s.hub.txCheck n) = b :: bs ∧ s.hub.pinLevel (3 * n + 2) = true) ∧
  (∃ (s : State) (n : Fin 96) (x : Word) (b : Byte) (bs : List Byte),
    let l := s.hub.lane n
    s.hub.held = false ∧ s.hub.txReady n 4 x ∧ l.tx.on = true ∧ s.hub.lnMode n = 1 ∧ s.hub.lnF Reg.LN_MODE n F.LN_MODE_C_FUNC = 2 ∧
        l.tx.tail.getD (s.hub.txCheck n) = b :: bs ∧ s.hub.pinLevel (3 * n + 2) = false ∧ bs ≠ []) ∧
  (∃ (h : Hub) (n : Nat) (p : Poly), h.lnPoly n = some p) ∧
  (∃ (s : State) (n : Fin 96),
    let l := s.hub.lane n
    s.hub.held = false ∧ s.hub.txFree n = true ∧ l.tx.on = true ∧ l.tx.bytes ≠ [] ∧ l.txq.ready s.hub.now = 0 ∧ isAsync (s.hub.lnMode n) = true ∧
        s.hub.lnEofIdle n ≠ 0) ∧
  (∃ (s : State) (n : Fin 96) (t : Nat),
    let l := s.hub.lane n
    s.hub.held = false ∧ l.tx.underrun = some t ∧ l.tx.on = true ∧ isAsync (s.hub.lnMode n) = true ∧ l.txq.items = [] ∧
        t + s.hub.lnEofIdle n * 100 * tuNs ≤ s.hub.now) ∧
  (∃ (s : State) (n : Fin 96) (t : Nat),
    let l := s.hub.lane n
    let lim := s.hub.lnM2 n F.LN_MCFG2_STRETCH_MS
    s.hub.held = false ∧ l.st ≠ .stopped ∧ s.hub.lnMode n = 5 ∧ l.tx.on = true ∧ lim ≠ 0 ∧ l.tx.underrun = some t ∧ t + lim * tuMs ≤ s.hub.now) ∧
  (∃ (s : State) (n : Fin 96),
    let l := s.hub.lane n
    let ns := s.hub.baseNs (s.hub.lnF Reg.LN_MODE n F.LN_MODE_TS_TB)
    let sec := ns / 1000000000
    s.hub.held = false ∧ l.st = .running ∧ s.hub.lnMode n = 12 ∧ ns % 1000000000 < 5 ∧ l.irigSec ≠ sec + 1) ∧
  (∃ (s : State) (n : Fin 96),
    let l := s.hub.lane n
    let ns := s.hub.baseNs (s.hub.lnF Reg.LN_MODE n F.LN_MODE_TS_TB)
    let sec := ns / 1000000000
    s.hub.held = false ∧ l.st = .running ∧ s.hub.lnMode n = 12 ∧ (5 ≤ ns % 1000000000 ∨ l.irigSec = sec + 1)) := by
  refine ⟨?_, ?_, ?_, ?_, ?_, ?_, ?_, ?_, ?_, ?_, ?_, ?_, ?_, ?_, ?_, ?_, ?_, ?_, ?_, ?_, ?_, ?_, ?_⟩
  · refine ⟨lnw 1 { st := .running, txq := { items := [0x41] } } id, 0, 0x41, ?_⟩
    dsimp only [Hub.txReady]
    decide +kernel
  · refine ⟨lnw 2 { st := .running, txq := { items := [0x41] } } id, 0, 0x41, ?_⟩
    dsimp only [Hub.txReady]
    decide +kernel
  · refine ⟨lnw 1 { st := .running, txq := { items := [0x41] } } fun h => (h.setFld (Reg.LN_MODE 0) F.LN_MODE_C_FUNC 2).setPin 2 true, 0, 0x41, ?_⟩
    dsimp only [Hub.txReady]
    decide +kernel
  · refine ⟨lnw 1 { st := .running, txq := { items := [0x10000000] } } id, 0, 0x10000000, ?_⟩
    dsimp only [Hub.txReady]
    decide +kernel
  · refine ⟨lnw 1 { st := .running, txq := { items := [0x60000005] } } id, 0, 0x60000005, ?_⟩
    dsimp only [Hub.txReady]
    decide +kernel
  · refine ⟨lnw 1 { st := .running, txq := { items := [0x80000101] } } id, 0, 0x80000101, ?_⟩
    dsimp only [Hub.txReady]
    decide +kernel
  · refine ⟨lnw 5 { st := .running, txq := { items := [0x90000000] } } id, 0, 0x90000000, ?_⟩
    dsimp only [Hub.txReady]
    decide +kernel
  · refine ⟨lnw 5 { st := .running, txq := { items := [0xA0000002] }, rx := { on := true } } id, 0, 0xA0000002, ?_⟩
    dsimp only [Hub.txReady]
    decide +kernel
  · refine ⟨lnw 10 { st := .running, txq := { items := [0xB0000000] } } id, 0, 0xB0000000, ?_⟩
    dsimp only [Hub.txReady]
    decide +kernel
  · refine ⟨lnw 10 { st := .running } fun h => { h.setFld (Reg.LN_MCFG 0) F.LN_MCFG_SSI_AUTO 1 with car := { h.car with edgeAt := [(0, some 0)] } },
      0, 0, ?_⟩
    decide +kernel
  · refine ⟨lnw 10 { st := .running, ssiEdge := 1 } fun h => { h.setFld (Reg.LN_MCFG 0) F.LN_MCFG_SSI_AUTO 1 with car := { h.car with edgeAt := [(0, some 0)] } }, 0, 0, ?_⟩
    decide +kernel
  · refine ⟨lnw 1 { st := .running, txq := { items := [0x40000000] }, tx := { on := true } } id, 0, 0x40000000, ?_⟩
    dsimp only [Hub.txReady]
    decide +kernel
  · refine ⟨lnw 3 { st := .running, txq := { items := [0x40000000] }, tx := { on := true } } id, 0, 0x40000000, ?_⟩
    dsimp only [Hub.txReady]
    decide +kernel
  · refine ⟨lnw 5 { st := .running, txq := { items := [0x40000000] }, tx := { on := true } } id, 0, 0x40000000, ?_⟩
    dsimp only [Hub.txReady]
    decide +kernel
  · refine ⟨lnw 7 { st := .running, txq := { items := [0x40000000] }, tx := { on := true } } id, 0, 0x40000000, ?_⟩
    dsimp only [Hub.txReady]
    decide +kernel
  · refine ⟨lnw 1 { st := .running, txq := { items := [0x40000000] }, tx := { on := true, tail := some [0x41] } } fun h => (h.setFld (Reg.LN_MODE 0) F.LN_MODE_C_FUNC 2).setPin 2 true, 0, 0x40000000, 0x41, [], ?_⟩
    dsimp only [Hub.txReady]
    decide +kernel
  · refine ⟨lnw 1 { st := .running, txq := { items := [0x40000000] }, tx := { on := true, tail := some [0x41, 0x42] } } fun h => h.setFld (Reg.LN_MODE 0) F.LN_MODE_C_FUNC 2, 0, 0x40000000, 0x41, [0x42], ?_⟩
    dsimp only [Hub.txReady]
    decide +kernel
  · refine ⟨up.hub, 0, poly0, ?_⟩
    decide +kernel
  · refine ⟨lnw 1 { st := .running, tx := { on := true, bytes := [1] } } fun h => h.setFld (Reg.LN_EOFI 0) F.LN_EOFI_EOF_IDLE 20, 0, ?_⟩
    decide +kernel
  · refine ⟨lnw 1 { st := .running, tx := { on := true, underrun := some 0 } } fun h => h.setFld (Reg.LN_EOFI 0) F.LN_EOFI_EOF_IDLE 20, 0, 0, ?_⟩
    decide +kernel
  · refine ⟨lnw 5 { st := .running, tx := { on := true, underrun := some 0 } } fun h => h.setFld (Reg.LN_MCFG2 0) F.LN_MCFG2_STRETCH_MS 1, 0, 0, ?_⟩
    decide +kernel
  · refine ⟨lnw 12 { st := .running } id, 0, ?_⟩
    decide +kernel
  · refine ⟨lnw 12 { st := .running, irigSec := 1 } id, 0, ?_⟩
    decide +kernel

theorem witness_LaneCommandsAndStops :
  (∃ (s : State) (src : CmdSrc) (tag : Byte) (w : Word),
    let c := mkCmd src 0x0601 tag [w]
    let n := w.toNat
    let l := s.hub.lane n
    let vio := s.hub.fld (Reg.LANE_BANK (n / 12)) F.LANE_BANK_VIO
    Accepts s c ∧ n < 96 ∧ s.hub.laneCfgOk n = true ∧ l.st = .stopped ∧ vio ≠ 0 ∧ vio = s.hub.fld (Reg.LANE_BANK (n / 12)) F.LANE_BANK_VIO_MEAS ∧
        (∀ g ∈ s.hub.needPins n, s.hub.pinOwned g = false ∧ ∀ m ∈ s.hub.liveLanes, m ≠ n → g / 3 ≠ m ∧ g ∉ s.hub.csPin m)) ∧
  (∃ (s : State) (src : CmdSrc) (tag : Byte) (w mode : Word),
    let c := mkCmd src 0x0602 tag [w, mode]
    let n := w.toNat
    let l := s.hub.lane n
    Accepts s c ∧ n < 96 ∧ mode.toNat ≤ 1 ∧ l.st = .running ∧ l.de = false) ∧
  (∃ (s : State) (src : CmdSrc) (tag : Byte) (w mask : Word),
    let c := mkCmd src 0x0603 tag [w, mask]
    let n := w.toNat
    let l := s.hub.lane n
    Accepts s c ∧ n < 96 ∧ mask.toNat = 3 ∧ l.st = .stopped) ∧
  (∃ (s : State) (src : CmdSrc) (tag : Byte) (w mask levels : Word),
    let c := mkCmd src 0x0604 tag [w, mask, levels]
    let n := w.toNat
    Accepts s c ∧ n < 96 ∧ mask.toNat ≤ 7 ∧ levels.toNat ≤ 7 ∧ Nat.land mask.toNat (s.hub.outMask n) = mask.toNat ∧ s.hub.acts = true) ∧
  (∃ (s : State) (n : Fin 96),
    let l := s.hub.lane n
    s.hub.held = false ∧ (l.st = .stopping false ∨ (l.st = .stopping true ∧ l.stopEof = true)) ∧ l.busyUntil ≤ s.hub.now ∧ (l.de = false ∧
        l.deOff = none) ∨ (∃ t, l.deOff = some t ∧ t ≤ s.hub.now)) ∧
  (∃ (s : State) (n : Fin 96),
    let l := s.hub.lane n
    s.hub.held = false ∧ l.st = .stopping true ∧ l.stopAt + 10 * tuMs ≤ s.hub.now) ∧
  (∃ (s : State) (k : Fin 8) (v : Fin 4), s.hub.held = false ∧ s.hub.fld (Reg.LANE_BANK k) F.LANE_BANK_VIO_MEAS ≠ v.val ∧ s.hub.bankRuns k = false ∧
      s.hub.troupeRuns k = false) ∧
  (∃ (s : State) (k : Fin 8) (v : Fin 4), s.hub.held = false ∧ s.hub.fld (Reg.LANE_BANK k) F.LANE_BANK_VIO_MEAS ≠ v.val ∧
      s.hub.bankRuns k = true) := by
  refine ⟨?_, ?_, ?_, ?_, ?_, ?_, ?_, ?_⟩
  · refine ⟨upw fun h => (h.setFld (Reg.LANE_BANK 0) F.LANE_BANK_VIO 3).setFld (Reg.LANE_BANK 0) F.LANE_BANK_VIO_MEAS 3, .script, 0, 0, ?_⟩
    dsimp only [Accepts, mkCmd]
    decide +kernel
  · refine ⟨lnw 1 { st := .running } id, .script, 0, 0, 0, ?_⟩
    dsimp only [Accepts, mkCmd]
    decide +kernel
  · refine ⟨up, .script, 0, 0, 3, ?_⟩
    dsimp only [Accepts, mkCmd]
    decide +kernel
  · refine ⟨up, .script, 0, 0, 0, 0, ?_⟩
    dsimp only [Accepts, mkCmd]
    decide +kernel
  · refine ⟨lnw 1 { st := .stopping false } id, 0, ?_⟩
    and_intros <;> first | decide +kernel | exact .inl rfl | rfl | exact .inl ⟨rfl, rfl⟩ | (intro r h; cases h)
  · refine ⟨lnw 1 { st := .stopping true } id, 0, ?_⟩
    decide +kernel
  · refine ⟨up, 0, 3, ?_⟩
    decide +kernel
  · refine ⟨lnw 1 { st := .running } id, 0, 3, ?_⟩
    decide +kernel

theorem witness_FretInstructions :
  (∃ (s : State) (e : Fin 32) (x : Nat), s.hub.held = false ∧ s.hub.frAt e 0 x) ∧
  (∃ (s : State) (e : Fin 32) (x : Nat), s.hub.held = false ∧ s.hub.frAt e 1 x) ∧
  (∃ (s : State) (e : Fin 32) (x : Nat) (levels : BitVec 36), s.hub.held = false ∧ s.hub.frAt e 2 x ∧ pinIn levels.toNat (x % 2 ^ 6) = testBit x 6 ∧
      (testBit x 7 = false ∨ (s.hub.eng e).saw = true)) ∧
  (∃ (s : State) (e : Fin 32) (x : Nat) (levels : BitVec 36), s.hub.held = false ∧ s.hub.frAt e 2 x ∧ pinIn levels.toNat (x % 2 ^ 6) ≠ testBit x 6) ∧
  (∃ (s : State) (e : Fin 32) (x : Nat),
    let b := flagBit (e / 4) (x % 2 ^ 5)
    s.hub.held = false ∧ s.hub.frAt e 3 x ∧ testBit s.hub.flagsNow b = testBit x 5) ∧
  (∃ (s : State) (e : Fin 32) (x : Nat),
    let b := flagBit (e / 4) (x % 2 ^ 5)
    s.hub.held = false ∧ s.hub.frAt e 3 x ∧ testBit s.hub.flagsNow b ≠ testBit x 5) ∧
  (∃ (s : State) (e : Fin 32) (x : Nat), s.hub.held = false ∧ s.hub.frAt e 4 x ∧
      (s.hub.frCtlB e F.FR_CTL_AUTOFETCH = false ∨ (s.hub.eng e).txc ≠ 0)) ∧
  (∃ (s : State) (e : Fin 32) (x : Nat),
    let n := x % 2 ^ 3 + 1
    let c := min ((s.hub.eng e).rxc + n) 32
    s.hub.held = false ∧ s.hub.frAt e 5 x ∧ (s.hub.frCtlB e F.FR_CTL_AUTOPOST = false ∨ c < s.hub.postAt e)) ∧
  (∃ (s : State) (e : Fin 32) (x : Nat),
    let n := x % 2 ^ 3 + 1
    let c := min ((s.hub.eng e).rxc + n) 32
    s.hub.held = false ∧ s.hub.frAt e 5 x ∧ s.hub.frCtlB e F.FR_CTL_AUTOPOST = true ∧ s.hub.postAt e ≤ c ∧ s.hub.frNoRx e = false ∧
        s.hub.frRxCredit e = true) ∧
  (∃ (s : State) (e : Fin 32) (x : Nat) (w : Word) (r : List Word),
    let g := s.hub.eng e
    s.hub.held = false ∧ s.hub.frAt e 6 x ∧ s.hub.frNoTx e = false ∧ g.txq.items = w :: r ∧ g.txq.ready s.hub.now ≠ 0) ∧
  (∃ (s : State) (e : Fin 32) (x : Nat), s.hub.held = false ∧ s.hub.frAt e 7 x ∧ s.hub.frNoRx e = false ∧ s.hub.frRxCredit e = true) ∧
  (∃ (s : State) (e : Fin 32) (x : Nat), s.hub.held = false ∧ s.hub.frAt e 7 x ∧ s.hub.frNoRx e = false ∧ s.hub.frRxCredit e = false ∧
      testBit x 0 = true) ∧
  (∃ (s : State) (e : Fin 32) (x : Nat), s.hub.held = false ∧ s.hub.frAt e 7 x ∧ s.hub.frNoRx e = false ∧ s.hub.frRxCredit e = false ∧
      testBit x 0 = false) ∧
  (∃ (s : State) (e : Fin 32) (x : Nat), s.hub.held = false ∧ s.hub.frAt e 8 x) ∧
  (∃ (s : State) (e : Fin 32) (x : Nat), s.hub.held = false ∧ s.hub.frAt e 9 x) ∧
  (∃ (s : State) (e : Fin 32) (x : Nat) (src : Word),
    let g := s.hub.eng e
    s.hub.held = false ∧ s.hub.frAt e 10 x ∧ (x % 2 ^ 3 = 0 ∧ src = 0) ∨ (x % 2 ^ 3 = 1 ∧ src = g.a) ∨ (x % 2 ^ 3 = 2 ∧ src = g.b) ∨ (x % 2 ^ 3 = 3 ∧
        src = g.txs) ∨ (x % 2 ^ 3 = 4 ∧ src = g.rxs) ∧ x / 2 ^ 3 % 2 ^ 3 = 0) ∧
  (∃ (s : State) (e : Fin 32) (x : Nat) (src : Word),
    let g := s.hub.eng e
    s.hub.held = false ∧ s.hub.frAt e 10 x ∧ (x % 2 ^ 3 = 0 ∧ src = 0) ∨ (x % 2 ^ 3 = 1 ∧ src = g.a) ∨ (x % 2 ^ 3 = 2 ∧ src = g.b) ∨ (x % 2 ^ 3 = 3 ∧
        src = g.txs) ∨ (x % 2 ^ 3 = 4 ∧ src = g.rxs) ∧ x / 2 ^ 3 % 2 ^ 3 = 1) ∧
  (∃ (s : State) (e : Fin 32) (x : Nat) (src : Word),
    let g := s.hub.eng e
    s.hub.held = false ∧ s.hub.frAt e 10 x ∧ (x % 2 ^ 3 = 0 ∧ src = 0) ∨ (x % 2 ^ 3 = 1 ∧ src = g.a) ∨ (x % 2 ^ 3 = 2 ∧ src = g.b) ∨ (x % 2 ^ 3 = 3 ∧
        src = g.txs) ∨ (x % 2 ^ 3 = 4 ∧ src = g.rxs) ∧ x / 2 ^ 3 % 2 ^ 3 = 2) ∧
  (∃ (s : State) (e : Fin 32) (x : Nat) (src : Word),
    let g := s.hub.eng e
    s.hub.held = false ∧ s.hub.frAt e 10 x ∧ (x % 2 ^ 3 = 0 ∧ src = 0) ∨ (x % 2 ^ 3 = 1 ∧ src = g.a) ∨ (x % 2 ^ 3 = 2 ∧ src = g.b) ∨ (x % 2 ^ 3 = 3 ∧
        src = g.txs) ∨ (x % 2 ^ 3 = 4 ∧ src = g.rxs) ∧ x / 2 ^ 3 % 2 ^ 3 = 3) ∧
  (∃ (s : State) (e : Fin 32) (x : Nat) (src : Word),
    let g := s.hub.eng e
    s.hub.held = false ∧ s.hub.frAt e 10 x ∧ (x % 2 ^ 3 = 0 ∧ src = 0) ∨ (x % 2 ^ 3 = 1 ∧ src = g.a) ∨ (x % 2 ^ 3 = 2 ∧ src = g.b) ∨ (x % 2 ^ 3 = 3 ∧
        src = g.txs) ∨ (x % 2 ^ 3 = 4 ∧ src = g.rxs) ∧ x / 2 ^ 3 % 2 ^ 3 = 4) ∧
  (∃ (s : State) (e : Fin 32) (x : Nat) (src : Word),
    let g := s.hub.eng e
    s.hub.held = false ∧ s.hub.frAt e 10 x ∧ (x % 2 ^ 3 = 0 ∧ src = 0) ∨ (x % 2 ^ 3 = 1 ∧ src = g.a) ∨ (x % 2 ^ 3 = 2 ∧ src = g.b) ∨ (x % 2 ^ 3 = 3 ∧
        src = g.txs) ∨ (x % 2 ^ 3 = 4 ∧ src = g.rxs) ∧ x / 2 ^ 3 % 2 ^ 3 = 5) ∧
  (∃ (s : State) (e : Fin 32) (x : Nat), s.hub.held = false ∧ s.hub.frAt e 11 x) ∧
  (∃ (s : State) (e : Fin 32) (x : Nat), s.hub.held = false ∧ s.hub.frAt e 12 x) ∧
  (∃ (s : State) (e : Fin 32) (x : Nat) (levels : BitVec 36),
    let g := s.hub.eng e
    s.hub.held = false ∧ g.run = true ∧ g.stall ≠ 0 ∧ g.cyc ≤ s.hub.frCycle e ∧ s.hub.frWord e g.pc = x ∧ x / 2 ^ 12 = 2 ∧
        pinIn levels.toNat (x % 2 ^ 6) = testBit x 6 ∧ (testBit x 7 = false ∨ g.saw = true)) ∧
  (∃ (s : State) (e : Fin 32) (x : Nat) (levels : BitVec 36),
    let g := s.hub.eng e
    s.hub.held = false ∧ g.run = true ∧ g.stall ≠ 0 ∧ g.cyc ≤ s.hub.frCycle e ∧ s.hub.frWord e g.pc = x ∧ x / 2 ^ 12 = 2 ∧
        pinIn levels.toNat (x % 2 ^ 6) ≠ testBit x 6) := by
  refine ⟨?_, ?_, ?_, ?_, ?_, ?_, ?_, ?_, ?_, ?_, ?_, ?_, ?_, ?_, ?_, ?_, ?_, ?_, ?_, ?_, ?_, ?_, ?_, ?_, ?_⟩
  · refine ⟨frw 0x0005 { run := true } id, 0, 0x0005, ?_⟩
    dsimp only [Hub.frAt]
    decide +kernel
  · refine ⟨frw 0x1080 { run := true } id, 0, 0x1080, ?_⟩
    dsimp only [Hub.frAt]
    decide +kernel
  · refine ⟨frw 0x2000 { run := true } id, 0, 0x2000, 0, ?_⟩
    dsimp only [Hub.frAt]
    decide +kernel
  · refine ⟨frw 0x2040 { run := true } id, 0, 0x2040, 0, ?_⟩
    dsimp only [Hub.frAt]
    decide +kernel
  · refine ⟨frw 0x3000 { run := true } id, 0, 0x3000, ?_⟩
    dsimp only [Hub.frAt]
    decide +kernel
  · refine ⟨frw 0x3020 { run := true } id, 0, 0x3020, ?_⟩
    dsimp only [Hub.frAt]
    decide +kernel
  · refine ⟨frw 0x4000 { run := true } id, 0, 0x4000, ?_⟩
    dsimp only [Hub.frAt]
    decide +kernel
  · refine ⟨frw 0x5000 { run := true } id, 0, 0x5000, ?_⟩
    dsimp only [Hub.frAt]
    decide +kernel
  · refine ⟨frw 0x5000 { run := true, rxc := 31 } fun h => h.setFld (Reg.FR_CTL 0) F.FR_CTL_AUTOPOST 1, 0, 0x5000, ?_⟩
    dsimp only [Hub.frAt]
    decide +kernel
  · refine ⟨frw 0x6000 { run := true, txq := { items := [7] } } id, 0, 0x6000, 7, [], ?_⟩
    dsimp only [Hub.frAt]
    decide +kernel
  · refine ⟨frw 0x7000 { run := true } id, 0, 0x7000, ?_⟩
    dsimp only [Hub.frAt]
    decide +kernel
  · refine ⟨frw 0x7001 { run := true, rxq := { items := List.replicate 8 0 } } id, 0, 0x7001, ?_⟩
    dsimp only [Hub.frAt]
    decide +kernel
  · refine ⟨frw 0x7000 { run := true, rxq := { items := List.replicate 8 0 } } id, 0, 0x7000, ?_⟩
    dsimp only [Hub.frAt]
    decide +kernel
  · refine ⟨frw 0x8001 { run := true } id, 0, 0x8001, ?_⟩
    dsimp only [Hub.frAt]
    decide +kernel
  · refine ⟨frw 0x9001 { run := true } id, 0, 0x9001, ?_⟩
    dsimp only [Hub.frAt]
    decide +kernel
  · refine ⟨frw 0xA000 { run := true } id, 0, 0xA000, 0, ?_⟩
    dsimp only [Hub.frAt]
    decide +kernel
  · refine ⟨frw 0xA008 { run := true } id, 0, 0xA008, 0, ?_⟩
    dsimp only [Hub.frAt]
    decide +kernel
  · refine ⟨frw 0xA010 { run := true } id, 0, 0xA010, 0, ?_⟩
    dsimp only [Hub.frAt]
    decide +kernel
  · refine ⟨frw 0xA018 { run := true } id, 0, 0xA018, 0, ?_⟩
    dsimp only [Hub.frAt]
    decide +kernel
  · refine ⟨frw 0xA020 { run := true } id, 0, 0xA020, 0, ?_⟩
    dsimp only [Hub.frAt]
    decide +kernel
  · refine ⟨frw 0xA028 { run := true } id, 0, 0xA028, 0, ?_⟩
    dsimp only [Hub.frAt]
    decide +kernel
  · refine ⟨frw 0xB001 { run := true } id, 0, 0xB001, ?_⟩
    dsimp only [Hub.frAt]
    decide +kernel
  · refine ⟨frw 0xC000 { run := true } id, 0, 0xC000, ?_⟩
    dsimp only [Hub.frAt]
    decide +kernel
  · refine ⟨frw 0x2000 { run := true, stall := 1 } id, 0, 0x2000, 0, ?_⟩
    decide +kernel
  · refine ⟨frw 0x2040 { run := true, stall := 1 } id, 0, 0x2040, 0, ?_⟩
    decide +kernel

theorem witness_FretCommandsAndQueues :
  (∃ (s : State) (e : Fin 32),
    let g := s.hub.eng e
    s.hub.held = false ∧ s.hub.fld (Reg.FR_TXQ_CFG e) F.FR_TXQ_CFG_PEER ≠ 0 ∧ 0 < g.txq.credit s.hub.now (s.hub.frTxCap e)) ∧
  (∃ (s : State) (e : Fin 32),
    let g := s.hub.eng e
    s.hub.held = false ∧ s.hub.fld (Reg.FR_TXQ_CFG e) F.FR_TXQ_CFG_PEER ≠ 0 ∧ g.txq.credit s.hub.now (s.hub.frTxCap e) = 0) ∧
  (∃ (s : State) (e : Fin 32) (x : Word) (r : List Word),
    let g := s.hub.eng e
    s.hub.held = false ∧ s.hub.fld (Reg.FR_RXQ_CFG e) F.FR_RXQ_CFG_PEER ≠ 0 ∧ g.rxq.items = x :: r ∧ g.rxq.ready s.hub.now ≠ 0) ∧
  (∃ (s : State) (e : Fin 32),
    let g := s.hub.eng e
    s.hub.held = false ∧ s.hub.fld (Reg.FR_RXQ_CFG e) F.FR_RXQ_CFG_PEER ≠ 0 ∧ g.rxq.items = []) ∧
  (∃ (s : State) (e : Fin 32), s.hub.held = false ∧ (s.hub.eng e).run = false) ∧
  (∃ (s : State) (k : Fin 8) (i : Fin 128), s.hub.held = false ∧ (∀ e ∈ s.hub.frCovering k i, (s.hub.eng e).run = false)) ∧
  (∃ (s : State) (i : Nat), s.hub.held = false ∧ i < 16) ∧
  (∃ (h : Hub), h.fret.flagCyc ≠ h.fretCyc) ∧
  (∃ (s : State) (src : CmdSrc) (tag : Byte) (ew lo hi entry : Word),
    let c := mkCmd src 0x0501 tag [ew, lo, hi, entry]
    let e := ew.toNat
    let g := s.hub.eng e
    Accepts s c ∧ e < 32 ∧ g.run = false ∧ lo.toNat ≤ entry.toNat ∧ entry.toNat ≤ hi.toNat ∧ hi.toNat ≤ 127 ∧
        (∀ i, lo.toNat ≤ i → i ≤ hi.toNat → frWordOk lo.toNat hi.toNat (s.hub.frWord e i) = true)) ∧
  (∃ (s : State) (src : CmdSrc) (tag : Byte) (kw m : Word) (j : Nat),
    let c := mkCmd src 0x0502 tag [kw, m]
    let e := 4 * kw.toNat + j
    Accepts s c ∧ kw.toNat < 8 ∧ j < 4 ∧ m.toNat = 2 ^ j ∧ s.hub.frCfgOk e = true ∧ s.hub.frCanStart e = true ∧
        s.hub.frCtlB e F.FR_CTL_STROBE_EN = false) ∧
  (∃ (s : State) (src : CmdSrc) (tag : Byte) (kw m : Word) (j : Nat),
    let c := mkCmd src 0x0503 tag [kw, m]
    let e := 4 * kw.toNat + j
    Accepts s c ∧ kw.toNat < 8 ∧ j < 4 ∧ m.toNat = 2 ^ j ∧ (s.hub.eng e).run = true) ∧
  (∃ (h : Hub) (e : Nat), (h.eng e).stopping = true ∧ (h.eng e).holding = false ∧ h.fretCyc < (h.eng e).stopCyc) ∧
  (∃ (h : Hub) (e : Nat), (h.eng e).stopping = true ∧ (h.eng e).holding = false ∧ (h.eng e).stopCyc ≤ h.fretCyc) ∧
  (∃ (s : State) (src : CmdSrc) (tag : Byte) (ew m : Word),
    let c := mkCmd src 0x0504 tag [ew, m]
    let e := ew.toNat
    let g := s.hub.eng e
    Accepts s c ∧ e < 32 ∧ m.toNat = 3 ∧ g.run = false) := by
  refine ⟨?_, ?_, ?_, ?_, ?_, ?_, ?_, ?_, ?_, ?_, ?_, ?_, ?_, ?_⟩
  · refine ⟨upw fun h => h.setFld (Reg.FR_TXQ_CFG 0) F.FR_TXQ_CFG_PEER 1, 0, ?_⟩
    decide +kernel
  · refine ⟨upw fun h => (h.setFld (Reg.FR_TXQ_CFG 0) F.FR_TXQ_CFG_PEER 1).setEng 0 { txq := { items := List.replicate 8 0 } }, 0, ?_⟩
    decide +kernel
  · refine ⟨upw fun h => (h.setFld (Reg.FR_RXQ_CFG 0) F.FR_RXQ_CFG_PEER 1).setEng 0 { rxq := { items := [7] } }, 0, 7, [], ?_⟩
    decide +kernel
  · refine ⟨upw fun h => h.setFld (Reg.FR_RXQ_CFG 0) F.FR_RXQ_CFG_PEER 1, 0, ?_⟩
    decide +kernel
  · refine ⟨up, 0, ?_⟩
    decide +kernel
  · refine ⟨up, 0, 0, ?_⟩
    decide +kernel
  · refine ⟨up, 0, ?_⟩
    decide +kernel
  · refine ⟨upHub, ?_⟩
    decide +kernel
  · refine ⟨up, .script, 0, 0, 0, 0, 0, ?_⟩
    dsimp only [Accepts, mkCmd]
    and_intros <;> first | decide +kernel | (intro i _ h; obtain rfl : i = 0 := Nat.le_zero.mp h; decide +kernel)
  · refine ⟨upw fun h => ((h.setFld (Reg.LANE_BANK 0) F.LANE_BANK_VIO 3).setFld (Reg.LANE_BANK 0) F.LANE_BANK_VIO_MEAS 3).setFld (Reg.FR_PROG 0) F.FR_PROG_VALID 1, .script, 0, 0, 1, 0, ?_⟩
    dsimp only [Accepts, mkCmd]
    decide +kernel
  · refine ⟨upw fun h => h.setEng 0 { run := true }, .script, 0, 0, 1, 0, ?_⟩
    dsimp only [Accepts, mkCmd]
    decide +kernel
  · refine ⟨(upHub.setEng 0 { stopping := true, stopCyc := 2 ^ 60 }), 0, ?_⟩
    decide +kernel
  · refine ⟨(upHub.setEng 0 { stopping := true }), 0, ?_⟩
    decide +kernel
  · refine ⟨up, .script, 0, 0, 3, ?_⟩
    dsimp only [Accepts, mkCmd]
    decide +kernel

theorem witness_CanControllers :
  (∃ (s : State) (src : CmdSrc) (tag : Byte) (w : Word),
    let c := mkCmd src 0x0701 tag [w]
    let n := w.toNat
    Accepts s c ∧ n < 16 ∧ s.hub.canCfgOk n = true ∧ (s.hub.can1 n).st = .stopped) ∧
  (∃ (s : State) (src : CmdSrc) (tag : Byte) (w : Word),
    let c := mkCmd src 0x0702 tag [w]
    let n := w.toNat
    let x := s.hub.can1 n
    Accepts s c ∧ n < 16 ∧ (x.st = .syncing ∨ x.st = .active ∨ x.st = .passive)) ∧
  (∃ (s : State) (src : CmdSrc) (tag : Byte) (w mask : Word),
    let c := mkCmd src 0x0703 tag [w, mask]
    let n := w.toNat
    let x := s.hub.can1 n
    Accepts s c ∧ n < 16 ∧ mask.toNat = 3 ∧ (x.st = .stopped ∨ x.st = .busOff)) ∧
  (∃ (s : State) (src : CmdSrc) (tag : Byte) (w : Word),
    let c := mkCmd src 0x0704 tag [w]
    let n := w.toNat
    Accepts s c ∧ n < 16 ∧ (s.hub.can1 n).st = .busOff) ∧
  (∃ (s : State) (n : Fin 16), s.hub.held = false ∧ (s.hub.can1 n).st = .syncing) ∧
  (∃ (s : State) (n : Fin 16), s.hub.held = false ∧ (s.hub.can1 n).st = .recovering) ∧
  (∃ (s : State) (n : Fin 16), s.hub.held = false ∧ (s.hub.can1 n).st = .stopping ∧ (s.hub.can1 n).cur = none ∧ (s.hub.can1 n).rxBusy = false) ∧
  (∃ (s : State) (n : Fin 16) (i j : Nat) (x y : CanTx),
    let c := s.hub.can1 n
    s.hub.held = false ∧ (c.st = .active ∨ c.st = .passive) ∧ c.cur = none ∧ c.rxBusy = false ∧ s.hub.canHead n = some (j, y) ∧
        s.hub.canRefused n y = false ∧ s.hub.canHeadOf n (s.hub.canReady n) = some (i, x)) ∧
  (∃ (s : State) (n : Fin 16) (i : Nat) (x : CanTx),
    let c := s.hub.can1 n
    s.hub.held = false ∧ c.cur = some i ∧ c.txq[i]? = some x ∧ s.hub.canMode n ≠ 2 ∧ s.hub.canMode n ≠ 3) ∧
  (∃ (s : State) (n : Fin 16),
    let st := (s.hub.can1 n).st
    s.hub.held = false ∧ (st = .active ∨ st = .passive ∨ st = .stopping) ∧ s.hub.canMode n ≠ 2 ∧ (s.hub.can1 n).cur = none) ∧
  (∃ (s : State) (n : Fin 16),
    let st := (s.hub.can1 n).st
    s.hub.held = false ∧ (st = .active ∨ st = .passive ∨ st = .stopping) ∧ s.hub.canMode n ≠ 2 ∧ (s.hub.can1 n).cur ≠ none) ∧
  (∃ (s : State) (n : Fin 16),
    let c := s.hub.can1 n
    s.hub.held = false ∧ (c.st = .active ∨ c.st = .passive ∨ c.st = .stopping) ∧ s.hub.canMode n ≠ 2 ∧ c.cur = none) ∧
  (∃ (s : State) (n : Fin 16), s.hub.held = false ∧ s.hub.canMode n = 2) ∧
  (∃ (s : State) (n : Fin 16),
    let c := s.hub.can1 n
    s.hub.held = false ∧ s.hub.fld (Reg.CAN_TXQ_CFG n) F.CAN_TXQ_CFG_PEER ≠ 0 ∧ c.part = none ∧ c.txq.length + c.txc.fresh s.hub.now < 32) ∧
  (∃ (s : State) (n : Fin 16) (p : CanPart),
    let c := s.hub.can1 n
    s.hub.held = false ∧ c.part = some p ∧ s.hub.fld (Reg.CAN_TXQ_CFG n) F.CAN_TXQ_CFG_PEER = 1 ∧ p.at_ + 10 * tuMs ≤ s.hub.now ∧ p.drop = false) ∧
  (∃ (s : State) (n : Fin 16) (ws : List Word) (rest : List (List Word)),
    let c := s.hub.can1 n
    s.hub.held = false ∧ s.hub.fld (Reg.CAN_RXQ_CFG n) F.CAN_RXQ_CFG_PEER ≠ 0 ∧ c.rxq = ws :: rest ∧ c.rxc.putNow s.hub.now < c.rxq.length ∧
        c.popped + 1 < ws.length) ∧
  (∃ (s : State) (n : Fin 16) (ws : List Word) (rest : List (List Word)),
    let c := s.hub.can1 n
    s.hub.held = false ∧ s.hub.fld (Reg.CAN_RXQ_CFG n) F.CAN_RXQ_CFG_PEER ≠ 0 ∧ c.rxq = ws :: rest ∧ c.rxc.putNow s.hub.now < c.rxq.length ∧
        ws.length ≤ c.popped + 1) := by
  refine ⟨?_, ?_, ?_, ?_, ?_, ?_, ?_, ?_, ?_, ?_, ?_, ?_, ?_, ?_, ?_, ?_, ?_⟩
  · refine ⟨up, .script, 0, 0, ?_⟩
    dsimp only [Accepts, mkCmd]
    decide +kernel
  · refine ⟨upw fun h => h.setCan 0 { st := .active }, .script, 0, 0, ?_⟩
    dsimp only [Accepts, mkCmd]
    decide +kernel
  · refine ⟨up, .script, 0, 0, 3, ?_⟩
    dsimp only [Accepts, mkCmd]
    decide +kernel
  · refine ⟨upw fun h => h.setCan 0 { st := .busOff }, .script, 0, 0, ?_⟩
    dsimp only [Accepts, mkCmd]
    decide +kernel
  · refine ⟨upw fun h => h.setCan 0 { st := .syncing }, 0, ?_⟩
    decide +kernel
  · refine ⟨upw fun h => h.setCan 0 { st := .recovering }, 0, ?_⟩
    decide +kernel
  · refine ⟨upw fun h => h.setCan 0 { st := .stopping }, 0, ?_⟩
    decide +kernel
  · refine ⟨upw fun h => h.setCan 0 { st := .active, txq := [⟨[0, 0], 0⟩] }, 0, 0, 0, ⟨[0, 0], 0⟩, ⟨[0, 0], 0⟩, ?_⟩
    decide +kernel
  · refine ⟨upw fun h => h.setCan 0 { st := .active, txq := [⟨[0, 0], 0⟩], cur := some 0 }, 0, 0, ⟨[0, 0], 0⟩, ?_⟩
    decide +kernel
  · refine ⟨upw fun h => h.setCan 0 { st := .active }, 0, ?_⟩
    decide +kernel
  · refine ⟨upw fun h => h.setCan 0 { st := .active, cur := some 0 }, 0, ?_⟩
    decide +kernel
  · refine ⟨upw fun h => h.setCan 0 { st := .active }, 0, ?_⟩
    decide +kernel
  · refine ⟨upw fun h => (h.setFld (Reg.CAN_CTL 0) F.CAN_CTL_OPMODE 2).setCan 0 { st := .active }, 0, ?_⟩
    decide +kernel
  · refine ⟨upw fun h => (h.setFld (Reg.CAN_TXQ_CFG 0) F.CAN_TXQ_CFG_PEER 1).setCan 0 { st := .active }, 0, ?_⟩
    decide +kernel
  · refine ⟨upw fun h => (h.setFld (Reg.CAN_TXQ_CFG 0) F.CAN_TXQ_CFG_PEER 1).setCan 0 { st := .active, part := some { words := [0], drop := false, owner := 256, at_ := 0 } }, 0, { words := [0], drop := false, owner := 256, at_ := 0 }, ?_⟩
    decide +kernel
  · refine ⟨upw fun h => (h.setFld (Reg.CAN_RXQ_CFG 0) F.CAN_RXQ_CFG_PEER 1).setCan 0 { rxq := [[1, 2]] }, 0, [1, 2], [], ?_⟩
    decide +kernel
  · refine ⟨upw fun h => (h.setFld (Reg.CAN_RXQ_CFG 0) F.CAN_RXQ_CFG_PEER 1).setCan 0 { rxq := [[1]] }, 0, [1], [], ?_⟩
    decide +kernel

theorem witness_CarouselArithmetic :
  (∃ (s : State) (c : Byte) (i : Word) (p : (Byte → Instr) × Nat), p ∈ [(Instr.add, 0), (Instr.sub, 1), (Instr.adc, 2), (Instr.sbc, 3), (Instr.and,
      4), (Instr.or, 5), (Instr.xor, 6), (Instr.shl, 7), (Instr.shr, 8), (Instr.sar, 9), (Instr.mulu, 10), (Instr.muls, 11), (Instr.clz, 12),
      (Instr.bfx, 13), (Instr.bfxs, 14), (Instr.bfi, 15)] ∧ s.hub.held = false ∧ s.hub.ctxAt c.toNat (0, p.2) i) ∧
  (∃ (k : Nat), k < 32) ∧
  (∃ (s : State) (c : Byte) (i : Word) (p : (Byte → Instr) × Nat × (Word → AluOut)),
    let x := s.hub.ctxNow c.toNat
    let a := x.reg (fRs1 i)
    p ∈ [(Instr.addi, 1, fun a => addFlags a (fSimm i) false), (Instr.andi, 2, fun a => { val := a &&& word (fImm i) }), (Instr.ori, 3,
        fun a => { val := a ||| word (fImm i) }), (Instr.xori, 4, fun a => { val := a ^^^ word (fImm i) }), (Instr.lui, 5,
        fun _ => { val := word (fImm i * 65536) }), (Instr.cmpi, 6, fun a => subFlags a (fSimm i) true)] ∧ s.hub.held = false ∧
        s.hub.ctxAt c.toNat (p.2.1, 0) i) := by
  refine ⟨?_, ?_, ?_⟩
  · refine ⟨ctxw 0 {} id, 0, 0, (Instr.add, 0), ?_⟩
    dsimp only [Hub.ctxAt]
    and_intros <;> first | exact List.mem_cons_self | rfl | exact .inl rfl | exact .inl ⟨rfl, rfl⟩ | (intro r h; cases h) | decide +kernel
  · refine ⟨0, ?_⟩
    decide +kernel
  · refine ⟨ctxw 0x4840003 {} id, 0, 0x4840003, (Instr.addi, 1, fun a => addFlags a (fSimm 0x4840003) false), ?_⟩
    dsimp only [Hub.ctxAt]
    and_intros <;> first | exact List.mem_cons_self | rfl | exact .inl rfl | exact .inl ⟨rfl, rfl⟩ | (intro r h; cases h) | decide +kernel

theorem witness_CarouselMemoryAndQueues :
  (∃ (s : State) (c : Byte) (i : Word),
    let x := s.hub.ctxNow c.toNat
    let a := memAddr (x.reg (fRs1 i)) i
    let n := 2 ^ fSz i
    s.hub.held = false ∧ a % n = 0 ∧ s.hub.ctxAt c.toNat (0x10, 0) i ∧ a ≤ 0x3FF ∧ s.hub.car.bad.contains (dataMark c.toNat a) = false) ∧
  (∃ (s : State) (c : Byte) (i : Word),
    let x := s.hub.ctxNow c.toNat
    let a := memAddr (x.reg (fRs1 i)) i
    let n := 2 ^ fSz i
    s.hub.held = false ∧ a % n = 0 ∧ s.hub.ctxAt c.toNat (0x11, 0) i ∧ a ≤ 0x3FF) ∧
  (∃ (s : State) (c : Byte) (i : Word),
    let x := s.hub.ctxNow c.toNat
    let a := memAddr (x.reg (fRs1 i)) i
    let n := 2 ^ fSz i
    s.hub.held = false ∧ a % n = 0 ∧ s.hub.ctxAt c.toNat (0x12, 0) i ∧ a < 0x20000 ∧ s.hub.car.bad.contains (scratchMark a) = false) ∧
  (∃ (s : State) (c : Byte) (i : Word),
    let x := s.hub.ctxNow c.toNat
    let a := memAddr (x.reg (fRs1 i)) i
    let n := 2 ^ fSz i
    s.hub.held = false ∧ a % n = 0 ∧ s.hub.ctxAt c.toNat (0x12, 0) i ∧ 0x20000 ≤ a ∧ a < 0x20058) ∧
  (∃ (s : State) (c : Byte) (i : Word),
    let x := s.hub.ctxNow c.toNat
    let a := memAddr (x.reg (fRs1 i)) i
    let n := 2 ^ fSz i
    s.hub.held = false ∧ a % n = 0 ∧ s.hub.ctxAt c.toNat (0x13, 0) i ∧ a < 0x20000) ∧
  (∃ (s : State) (c : Byte) (i : Word),
    let x := s.hub.ctxNow c.toNat
    let a := memAddr (x.reg (fRs1 i)) i
    s.hub.held = false ∧ s.hub.ctxAt c.toNat (0x10, 0) i ∧ 0x3FF < a) ∧
  (∃ (s : State) (c : Byte) (i : Word),
    let x := s.hub.ctxNow c.toNat
    let a := memAddr (x.reg (fRs1 i)) i
    s.hub.held = false ∧ s.hub.ctxAt c.toNat (0x11, 0) i ∧ a ≤ 0x3FF ∧ a % 2 ^ fSz i ≠ 0) ∧
  (∃ (s : State) (c : Byte) (i : Word),
    let x := s.hub.ctxNow c.toNat
    let a := memAddr (x.reg (fRs1 i)) i
    s.hub.held = false ∧ s.hub.ctxAt c.toNat (0x13, 0) i ∧ 0x20000 ≤ a) ∧
  (∃ (s : State) (c : Byte) (i w : Word),
    let k := s.hub.ctxSees c.toNat
    let b := k.bind c.toNat (fImm i % 16)
    s.hub.held = false ∧ b.kind ≠ 0 ∧ b.tx = false ∧ k.qNext b = some w ∧ s.hub.ctxAt c.toNat (0x18, 0) i) ∧
  (∃ (s : State) (c : Byte) (i w : Word),
    let k := s.hub.ctxSees c.toNat
    let b := k.bind c.toNat (fImm i % 16)
    s.hub.held = false ∧ b.kind ≠ 0 ∧ b.tx = false ∧ k.qNext b = some w ∧ s.hub.ctxAt c.toNat (0x19, 0) i) ∧
  (∃ (s : State) (c : Byte) (i : Word),
    let k := s.hub.ctxSees c.toNat
    let b := k.bind c.toNat (fImm i % 16)
    s.hub.held = false ∧ b.kind ≠ 0 ∧ b.tx = false ∧ k.qNext b = none ∧ s.hub.ctxAt c.toNat (0x18, 0) i) ∧
  (∃ (s : State) (c : Byte) (i : Word),
    let k := s.hub.ctxSees c.toNat
    let b := k.bind c.toNat (fImm i % 16)
    s.hub.held = false ∧ b.kind ≠ 0 ∧ b.tx = false ∧ k.qNext b = none ∧ s.hub.ctxAt c.toNat (0x19, 0) i) ∧
  (∃ (s : State) (c : Byte) (i : Word) (h : Hub),
    let x := s.hub.ctxNow c.toNat
    let k := s.hub.ctxSees c.toNat
    let b := k.bind c.toNat (fImm i % 16)
    s.hub.held = false ∧ s.hub.ctxAt c.toNat (0x1A, 0) i ∧ b.kind ≠ 0 ∧ b.tx = true ∧ k.qPush c.toNat b (x.reg (fRd i)) = (true, h)) ∧
  (∃ (s : State) (c : Byte) (i : Word) (h : Hub),
    let x := s.hub.ctxNow c.toNat
    let k := s.hub.ctxSees c.toNat
    let b := k.bind c.toNat (fImm i % 16)
    s.hub.held = false ∧ s.hub.ctxAt c.toNat (0x1A, 0) i ∧ b.kind ≠ 0 ∧ b.tx = true ∧ k.qPush c.toNat b (x.reg (fRd i)) = (false, h)) ∧
  (∃ (s : State) (c : Byte) (i : Word),
    let k := s.hub.ctxSees c.toNat
    let b := k.bind c.toNat (fImm i % 16)
    s.hub.held = false ∧ s.hub.ctxAt c.toNat (0x1B, 0) i ∧ b.kind ≠ 0 ∧ s.hub.twin.role ≠ .standby) := by
  refine ⟨?_, ?_, ?_, ?_, ?_, ?_, ?_, ?_, ?_, ?_, ?_, ?_, ?_, ?_, ?_⟩
  · refine ⟨ctxw 0x40420004 {} id, 0, 0x40420004, ?_⟩
    dsimp only [Hub.ctxAt]
    decide +kernel
  · refine ⟨ctxw 0x44420004 {} id, 0, 0x44420004, ?_⟩
    dsimp only [Hub.ctxAt]
    decide +kernel
  · refine ⟨ctxw 0x48420004 {} id, 0, 0x48420004, ?_⟩
    dsimp only [Hub.ctxAt]
    decide +kernel
  · refine ⟨ctxw 0x48860004 { w := [(1, 0x20000)] } id, 0, 0x48860004, ?_⟩
    dsimp only [Hub.ctxAt]
    decide +kernel
  · refine ⟨ctxw 0x4c820004 {} id, 0, 0x4c820004, ?_⟩
    dsimp only [Hub.ctxAt]
    decide +kernel
  · refine ⟨ctxw 0x40820400 {} id, 0, 0x40820400, ?_⟩
    dsimp only [Hub.ctxAt]
    decide +kernel
  · refine ⟨ctxw 0x44820001 {} id, 0, 0x44820001, ?_⟩
    dsimp only [Hub.ctxAt]
    decide +kernel
  · refine ⟨ctxw 0x4c860000 { w := [(1, 0x20000)] } id, 0, 0x4c860000, ?_⟩
    dsimp only [Hub.ctxAt]
    decide +kernel
  · refine ⟨ctxw 0x60400000 {} fun h => ((h.setFld (Reg.CTX_BIND 0 0) F.CTX_BIND_KIND 1).setLane 0 { rxq := { items := [7], mark := 1 } }), 0,
      0x60400000, 7, ?_⟩
    dsimp only [Hub.ctxAt]
    decide +kernel
  · refine ⟨ctxw 0x64400000 {} fun h => ((h.setFld (Reg.CTX_BIND 0 0) F.CTX_BIND_KIND 1).setLane 0 { rxq := { items := [7], mark := 1 } }), 0,
      0x64400000, 7, ?_⟩
    dsimp only [Hub.ctxAt]
    decide +kernel
  · refine ⟨ctxw 0x60400000 {} fun h => (h.setFld (Reg.CTX_BIND 0 0) F.CTX_BIND_KIND 1), 0, 0x60400000, ?_⟩
    dsimp only [Hub.ctxAt]
    decide +kernel
  · refine ⟨ctxw 0x64400000 {} fun h => (h.setFld (Reg.CTX_BIND 0 0) F.CTX_BIND_KIND 1), 0, 0x64400000, ?_⟩
    dsimp only [Hub.ctxAt]
    decide +kernel
  · refine ⟨ctxw 0x68400000 {} fun h => ((h.setFld (Reg.CTX_BIND 0 0) F.CTX_BIND_KIND 1).setFld (Reg.CTX_BIND 0 0) F.CTX_BIND_DIR 1), 0, 0x68400000,
      ((ctxw 0x68400000 {} fun h => ((h.setFld (Reg.CTX_BIND 0 0) F.CTX_BIND_KIND 1).setFld (Reg.CTX_BIND 0 0) F.CTX_BIND_DIR 1)).hub.ctxSees 0
      |>.qPush 0 ⟨1, 0, true⟩ 0).2, ?_⟩
    dsimp only [Hub.ctxAt]
    decide +kernel
  · refine ⟨ctxw 0x68400000 {} fun h => ((h.setFld (Reg.CTX_BIND 0 0) F.CTX_BIND_KIND 1).setFld (Reg.CTX_BIND 0 0) F.CTX_BIND_DIR 1).setLane 0 { txq := { items := List.replicate 64 0 } }, 0, 0x68400000, ((ctxw 0x68400000 {} fun h => ((h.setFld (Reg.CTX_BIND 0 0) F.CTX_BIND_KIND 1).setFld (Reg.CTX_BIND 0 0) F.CTX_BIND_DIR 1).setLane 0 { txq := { items := List.replicate 64 0 } }).hub.ctxSees 0 |>.qPush 0 ⟨1, 0, true⟩ 0).2, ?_⟩
    dsimp only [Hub.ctxAt]
    decide +kernel
  · refine ⟨ctxw 0x6c400000 {} fun h => (h.setFld (Reg.CTX_BIND 0 0) F.CTX_BIND_KIND 1), 0, 0x6c400000, ?_⟩
    dsimp only [Hub.ctxAt]
    decide +kernel

theorem witness_CarouselPointsChecksAndTime :
  (∃ (s : State) (c : Byte) (i : Word),
    let x := s.hub.ctxNow c.toNat
    let a := (x.reg (fRs1 i)).toNat
    s.hub.held = false ∧ s.hub.ctxAt c.toNat (0x20, 0) i ∧ a < 2 ^ 24 ∧ a / 65536 ≠ 0xFF ∧ testBit (fFn i) 0 = false) ∧
  (∃ (s : State) (c : Byte) (i : Word),
    let x := s.hub.ctxNow c.toNat
    let a := (x.reg (fRs1 i)).toNat
    let p := (x.reg (fRs2 i)).toNat
    s.hub.held = false ∧ s.hub.ctxAt c.toNat (0x20, 0) i ∧ a < 2 ^ 24 ∧ a / 65536 ≠ 0xFF ∧ testBit (fFn i) 0 = true ∧ p ≤ 0x3F0 ∧ p % 16 = 0) ∧
  (∃ (s : State) (c : Byte) (i : Word),
    let x := s.hub.ctxNow c.toNat
    let k := s.hub.ctxSees c.toNat
    let a := (x.reg (fRs1 i)).toNat
    let own := k.ownNode (a / 65536)
    s.hub.held = false ∧ s.hub.ctxAt c.toNat (0x21, 0) i ∧ a < 2 ^ 24 ∧ a / 65536 ≠ 0xFF ∧ (own = false ∨ a % 65536 < 0xFF00) ∧ x.stage.length < 64 ∧
        testBit (fFn i) 0 = false) ∧
  (∃ (s : State) (c : Byte) (i : Word),
    let x := s.hub.ctxNow c.toNat
    let e := (x.reg (fRs1 i)).toNat
    s.hub.held = false ∧ s.hub.ctxAt c.toNat (0x22, 0) i ∧ e ≤ 4095 ∧ x.stage.length < 64) ∧
  (∃ (s : State) (c : Byte) (i : Word),
    let x := s.hub.ctxNow c.toNat
    let a := (x.reg (fRs1 i)).toNat
    let b := (x.reg (fRs2 i)).toNat
    let frame := testBit (fFn i) 8
    s.hub.held = false ∧ s.hub.ctxAt c.toNat (0x23, 0) i ∧ x.stage.length < 64 ∧ (frame = false → a < 2 ^ 24 ∧ 1 ≤ a / 65536 ∧ a / 65536 ≤ 122 ∧
        a % 65536 + a / 65536 ≤ 0xFF00) ∧ (frame = true → 1 ≤ b ∧ b ≤ 1024 ∧ a + b ≤ 0x20000 ∧ a % 4 = 0)) ∧
  (∃ (s : State) (c : Byte) (i : Word),
    let k := s.hub.ctxSees c.toNat
    let u := fFn i % 16
    s.hub.held = false ∧ s.hub.ctxAt c.toNat (0x28, 0) i ∧ k.snoopMine c.toNat u = true) ∧
  (∃ (s : State) (c : Byte) (i : Word),
    let k := s.hub.ctxSees c.toNat
    let u := fFn i % 16
    s.hub.held = false ∧ s.hub.ctxAt c.toNat (0x29, 0) i ∧ k.snoopMine c.toNat u = true) ∧
  (∃ (s : State) (c : Byte) (i : Word),
    let k := s.hub.ctxSees c.toNat
    let u := fFn i % 16
    let init := testBit (fFn i) 4
    s.hub.held = false ∧ s.hub.ctxAt c.toNat (0x2A, 0) i ∧ (init = false ∨ k.snoopMine c.toNat u = true)) ∧
  (∃ (h : Hub) (u : Nat), (h.snoop u).ended h.now = none) ∧
  (∃ (s : State) (c : Byte) (i : Word), s.hub.held = false ∧ s.hub.ctxAt c.toNat (0x30, 0) i ∧ s.hub.twin.role ≠ .standby) ∧
  (∃ (s : State) (c : Byte) (i : Word), s.hub.held = false ∧ s.hub.ctxAt c.toNat (0x31, 0) i ∧ s.hub.twin.role ≠ .standby) := by
  refine ⟨?_, ?_, ?_, ?_, ?_, ?_, ?_, ?_, ?_, ?_, ?_⟩
  · refine ⟨ctxw 0x80400000 {} id, 0, 0x80400000, ?_⟩
    dsimp only [Hub.ctxAt]
    decide +kernel
  · refine ⟨ctxw 0x80400001 {} id, 0, 0x80400001, ?_⟩
    dsimp only [Hub.ctxAt]
    decide +kernel
  · refine ⟨ctxw 0x84000000 {} id, 0, 0x84000000, ?_⟩
    dsimp only [Hub.ctxAt]
    decide +kernel
  · refine ⟨ctxw 0x88000000 {} id, 0, 0x88000000, ?_⟩
    dsimp only [Hub.ctxAt]
    decide +kernel
  · refine ⟨ctxw 0x8c040000 { w := [(1, 0x10001)] } id, 0, 0x8c040000, ?_⟩
    dsimp only [Hub.ctxAt]
    decide +kernel
  · refine ⟨ctxw 0xa0000000 {} fun h => (h.setFld (Reg.SNP_CFG 0) F.SNP_CFG_SRC 6), 0, 0xa0000000, ?_⟩
    dsimp only [Hub.ctxAt]
    decide +kernel
  · refine ⟨ctxw 0xa4000000 {} fun h => (h.setFld (Reg.SNP_CFG 0) F.SNP_CFG_SRC 6), 0, 0xa4000000, ?_⟩
    dsimp only [Hub.ctxAt]
    decide +kernel
  · refine ⟨ctxw 0xa8400000 {} fun h => (h.setFld (Reg.SNP_CFG 0) F.SNP_CFG_SRC 6), 0, 0xa8400000, ?_⟩
    dsimp only [Hub.ctxAt]
    decide +kernel
  · refine ⟨up.hub, 0, ?_⟩
    decide +kernel
  · refine ⟨ctxw 0xc0400000 {} id, 0, 0xc0400000, ?_⟩
    dsimp only [Hub.ctxAt]
    decide +kernel
  · refine ⟨ctxw 0xc4400000 {} id, 0, 0xc4400000, ?_⟩
    dsimp only [Hub.ctxAt]
    decide +kernel

theorem witness_CarouselWaitsAndJobs :
  (∃ (s : State) (c : Byte) (i : Word),
    let k := s.hub.ctxSees c.toNat
    s.hub.held = false ∧ s.hub.twin.role ≠ .standby ∧ s.hub.ctxAt c.toNat (0x38, 0) i ∧ (k.bind c.toNat (fRd i)).kind ≠ 0) ∧
  (∃ (s : State) (c : Byte) (i : Word), s.hub.held = false ∧ s.hub.twin.role ≠ .standby ∧ s.hub.ctxAt c.toNat (0x39, 0) i) ∧
  (∃ (s : State) (c : Byte) (i : Word), s.hub.held = false ∧ s.hub.twin.role ≠ .standby ∧ s.hub.ctxAt c.toNat (0x3A, 0) i) ∧
  (∃ (s : State) (c : Byte) (i : Word), s.hub.held = false ∧ s.hub.ctxAt c.toNat (0x38, 0) i ∧
      ((s.hub.ctxSees c.toNat).bind c.toNat (fRd i)).kind = 0) ∧
  (∃ (s : State) (c : Byte) (i : Word), s.hub.held = false ∧ s.hub.ctxAt c.toNat (0x3C, 0) i ∧ s.hub.twin.role ≠ .standby) ∧
  (∃ (s : State) (c : Byte) (i : Word), s.hub.held = false ∧ s.hub.ctxAt c.toNat (0x3D, 0) i) ∧
  (∃ (s : State) (c : Fin 252) (w : Wait),
    let x := s.hub.ctx c
    s.hub.held = false ∧ s.hub.twin.role ≠ .standby ∧ x.st = .waiting ∧ x.wait = some w ∧ s.hub.pastDeadline c = false ∧ s.hub.waitMet c w = true) ∧
  (∃ (s : State) (c : Fin 252) (w : Wait),
    let x := s.hub.ctx c
    s.hub.held = false ∧ s.hub.twin.role ≠ .standby ∧ x.st = .waiting ∧ x.wait = some w ∧ s.hub.pastDeadline c = false ∧ s.hub.waitMet c w = false ∧
        s.hub.waitLimit w = true) ∧
  (∃ (h : Hub) (c : Nat), (h.ctx c).wokeAt = some h.now) ∧
  (∃ (s : State) (c : Fin 252) (p : JobPage) (t : Nat),
    let x := s.hub.ctx c
    s.hub.held = false ∧ x.next = some (p, t) ∧ t + 256 * tuCore ≤ s.hub.now ∧ x.st = .idle) ∧
  (∃ (s : State) (c : Fin 252) (r : Nat),
    let x := s.hub.ctx c
    s.hub.held = false ∧ x.st = .ready ∧ s.hub.ownsSlot c = true ∧ s.hub.pastDeadline c = false ∧ r < 8) ∧
  (∃ (s : State) (c : Fin 252), s.hub.held = false ∧ s.hub.twin.role ≠ .standby ∧ (s.hub.ctx c).inJob = true ∧ (s.hub.ctx c).held = false ∧
      (s.hub.ctx c).page.deadline ≤ s.hub.baseNs (s.hub.ctx c).page.tb) ∧
  (∃ (s : State) (c : Commit) (r : List Commit), s.hub.held = false ∧ s.hub.car.commits = c :: r ∧ c.due ≤ s.hub.now) := by
  refine ⟨?_, ?_, ?_, ?_, ?_, ?_, ?_, ?_, ?_, ?_, ?_, ?_, ?_⟩
  · refine ⟨ctxw 0xe0000000 {} fun h => (h.setFld (Reg.CTX_BIND 0 0) F.CTX_BIND_KIND 1), 0, 0xe0000000, ?_⟩
    dsimp only [Hub.ctxAt]
    decide +kernel
  · refine ⟨ctxw 0xe4000000 {} id, 0, 0xe4000000, ?_⟩
    dsimp only [Hub.ctxAt]
    decide +kernel
  · refine ⟨ctxw 0xe8000005 {} id, 0, 0xe8000005, ?_⟩
    dsimp only [Hub.ctxAt]
    decide +kernel
  · refine ⟨ctxw 0xe0000000 {} id, 0, 0xe0000000, ?_⟩
    dsimp only [Hub.ctxAt]
    decide +kernel
  · refine ⟨ctxw 0xf0000000 {} id, 0, 0xf0000000, ?_⟩
    dsimp only [Hub.ctxAt]
    decide +kernel
  · refine ⟨ctxw 0xf4000009 {} id, 0, 0xf4000009, ?_⟩
    dsimp only [Hub.ctxAt]
    decide +kernel
  · refine ⟨upw fun h => h.setCtx 0 { st := .waiting, wait := some (.slots 0), page := { deadline := 1000000 } }, 0, .slots 0, ?_⟩
    decide +kernel
  · refine ⟨upw fun h => h.setCtx 0 { st := .waiting, wait := some (.queue 0 (some 0)), page := { deadline := 1000000 } }, 0, .queue 0 (some 0), ?_⟩
    decide +kernel
  · refine ⟨(upHub.setCtx 0 { wokeAt := some 60000000000000 }), 0, ?_⟩
    decide +kernel
  · refine ⟨upw fun h => h.setCtx 0 { st := .idle, next := some ({}, 0) }, 0, {}, 0, ?_⟩
    decide +kernel
  · refine ⟨slotw 0 fun h => h.setCtx 0 { st := .ready, page := { deadline := 1000000 } }, 0, 0, ?_⟩
    decide +kernel
  · refine ⟨upw fun h => h.setCtx 0 { st := .running }, 0, ?_⟩
    decide +kernel
  · refine ⟨upw fun h => { h with car := { h.car with commits := [⟨0, [], {}, 0⟩] } }, ⟨0, [], {}, 0⟩, [], ?_⟩
    decide +kernel

theorem witness_CarouselCommands :
  (∃ (s : State) (src : CmdSrc) (tag : Byte) (nw lo hi entry : Word),
    let c := mkCmd src 0x0401 tag [nw, lo, hi, entry]
    let n := nw.toNat
    Accepts s c ∧ n < 252 ∧ lo.toNat ≤ entry.toNat ∧ entry.toNat ≤ hi.toNat ∧ hi.toNat ≤ 65535 ∧
        (∀ i, lo.toNat ≤ i → i ≤ hi.toNat → loadable lo.toNat hi.toNat (s.hub.progWord i) = true) ∧ s.hub.ctxStopped n = true) ∧
  (∃ (s : State) (src : CmdSrc) (tag : Byte) (nw : Word),
    let c := mkCmd src 0x0402 tag [nw]
    let n := nw.toNat
    let bs := s.hub.binds n
    Accepts s c ∧ n < 252 ∧ s.hub.deadline100 n ≠ 0 ∧ s.hub.deadline100 n * 100 ≤ s.hub.groupPeriod100 (s.hub.ctxGroup n) ∧ (∀ b ∈ bs, b.bad = false ∧
        s.hub.bindPeer b = false) ∧ hasRepeat bs = false ∧ s.hub.ctxStopped n = true ∧ s.hub.ctxValid n = true ∧ (∃ i, i < 1024 ∧
        s.hub.calEntry s.hub.car.bankB i = n) ∧ (∀ m ∈ s.hub.usedCtx, m ≠ n → ∀ b ∈ s.hub.binds m, b ∉ bs)) ∧
  (∃ (s : State) (src : CmdSrc) (tag : Byte) (nw : Word),
    let c := mkCmd src 0x0403 tag [nw]
    Accepts s c ∧ nw.toNat < 252 ∧ (s.hub.ctx nw.toNat).st ≠ .parked ∨ s.hub.starting nw.toNat = true) ∧
  (∃ (s : State) (n : Fin 252),
    let mine := s.hub.car.reqs.filter fun r => r.ctx == n.val && s.hub.ctxReqDue r
    s.hub.held = false ∧ (∃ r ∈ mine, r.start = false)) ∧
  (∃ (r : CtxReq), r.start = true) ∧
  (∃ (r : CtxReq), r.start = false) ∧
  (∃ (s : State) (src : CmdSrc) (tag : Byte),
    let c := mkCmd src 0x0404 tag []
    Accepts s c ∧ s.hub.calCheck (s.hub.calBank (!s.hub.car.bankB)) = none ∧ s.hub.car.swap = false) ∧
  (∃ (s : State) (src : CmdSrc) (tag : Byte) (i why st : Nat),
    let c := mkCmd src 0x0404 tag []
    Accepts s c ∧ s.hub.calCheck (s.hub.calBank (!s.hub.car.bankB)) = some (i, why, st) ∧ i < 1024 ∧ why < 4) ∧
  (∃ (s : State), s.hub.held = false ∧ s.hub.car.swap = true ∧ s.hub.slotNo = 0) ∧
  (∃ (s : State) (src : CmdSrc) (tag : Byte),
    let c := mkCmd src 0x0405 tag []
    let p := s.hub.fld Reg.CAR_STRUM_BASE F.CAR_STRUM_BASE_PERIOD
    Accepts s c ∧ 5000 ≤ p ∧ p ≤ 200000000 ∧ (∀ g, g < 8 → s.hub.fld (Reg.CAR_GRP_N g) F.CAR_GRP_N_N ≠ 0) ∧
        (∀ x ∈ s.hub.usedCtx, s.hub.deadline100 x * 100 ≤ s.hub.groupPeriod100 (s.hub.ctxGroup x)) ∧ (s.hub.twin.role = .solo ∨ s.hub.strumTb ≠ 3) ∧
        s.hub.car.strum = false) ∧
  (∃ (s : State) (src : CmdSrc) (tag : Byte),
    let c := mkCmd src 0x0406 tag []
    Accepts s c ∧ s.hub.car.strum = true) := by
  refine ⟨?_, ?_, ?_, ?_, ?_, ?_, ?_, ?_, ?_, ?_, ?_⟩
  · refine ⟨up, .script, 0, 0, 0, 0, 0, ?_⟩
    dsimp only [Accepts, mkCmd]
    and_intros <;> first | decide +kernel | (intro i _ h; obtain rfl : i = 0 := Nat.le_zero.mp h; decide +kernel)
  · refine ⟨slotw 0 fun h => ((h.setFld Reg.CAR_STRUM_BASE F.CAR_STRUM_BASE_PERIOD 5000).wr (Reg.CTX_DEADLINE 0) 1
      |>.setFld (Reg.CAR_GRP_N 0) F.CAR_GRP_N_N 1).setFld (Reg.CTX_ENTRY 0) F.CTX_ENTRY_VALID 1, .script, 0, 0, ?_⟩
    dsimp only [Accepts, mkCmd]
    and_intros <;> first | decide +kernel | exact .inl rfl | rfl | exact .inl ⟨rfl, rfl⟩ | (intro r h; cases h)
  · refine ⟨upw fun h => h.setCtx 0 { st := .idle }, .script, 0, 0, ?_⟩
    dsimp only [Accepts, mkCmd]
    decide +kernel
  · refine ⟨slotw 254 fun h => { h with car := { h.car with reqs := [⟨0, false, 0, ⟨.script, 0, 0⟩⟩] } }, 0, ?_⟩
    refine ⟨by decide +kernel, ⟨0, false, 0, ⟨.script, 0, 0⟩⟩, by decide +kernel, rfl⟩
  · refine ⟨⟨0, true, 0, ⟨.script, 0, 0⟩⟩, ?_⟩
    decide +kernel
  · refine ⟨⟨0, false, 0, ⟨.script, 0, 0⟩⟩, ?_⟩
    decide +kernel
  · refine ⟨up, .script, 0, ?_⟩
    dsimp only [Accepts, mkCmd]
    decide +kernel
  · refine ⟨upw fun h => h.wr (Reg.CAL_B 0) 0, .script, 0, 0, 1, sEARG, ?_⟩
    dsimp only [Accepts, mkCmd]
    decide +kernel
  · refine ⟨upw fun h => { h with car := { h.car with swap := true } }, ?_⟩
    decide +kernel
  · refine ⟨upw fun h => (List.range 8).foldl (fun h g => h.setFld (Reg.CAR_GRP_N g) F.CAR_GRP_N_N 1) (h.setFld Reg.CAR_STRUM_BASE F.CAR_STRUM_BASE_PERIOD 5000), .script, 0, ?_⟩
    dsimp only [Accepts, mkCmd]
    decide +kernel
  · refine ⟨upw fun h => { h with car := { h.car with strum := true } }, .script, 0, ?_⟩
    dsimp only [Accepts, mkCmd]
    decide +kernel

theorem witness_CarouselMemoriesStrumAndSnoop :
  (∃ (s : State) (c : Byte), s.hub.held = false ∧ c.toNat < 252) ∧
  (∃ (s : State), s.hub.held = false ∧ s.hub.car.scr = [] ∧ s.hub.ownsSlot 254 = true) ∧
  (∃ (s : State), s.hub.held = false ∧ s.hub.car.scr = [] ∧ s.hub.ownsSlot 254 = false) ∧
  (∃ (s : State), s.hub.held = false ∧ s.hub.car.strum = true ∧ s.hub.follows = false ∧
      s.hub.car.kNext * s.hub.strumNs ≤ s.hub.baseNs s.hub.strumTb) ∧
  (∃ (h : Hub) (g c : Nat), c ∈ h.liveCtx ∧ h.ctxGroup c = g ∧ (h.ctx c).st = .idle) ∧
  (∃ (s : State) (u : Fin 16) (w : Word) (p : Poly),
    let w1 := (w ||| 1) &&& 0x000FFF3F
    s.hub.held = false ∧ s.hub.flag (Reg.SNP_CFG u) F.SNP_CFG_EN = false ∧ s.hub.snoopCfgOk w1 = true ∧
        s.hub.polyOf (bits w1 F.SNP_CFG_POLY) = some p) ∧
  (∃ (s : State) (u : Fin 16) (w : Word),
    let w1 := (w ||| 1) &&& 0x000FFF3F
    s.hub.held = false ∧ s.hub.flag (Reg.SNP_CFG u) F.SNP_CFG_EN = false ∧ s.hub.snoopCfgOk w1 = false) := by
  refine ⟨?_, ?_, ?_, ?_, ?_, ?_, ?_⟩
  · refine ⟨up, 0, ?_⟩
    decide +kernel
  · refine ⟨slotw 254 id, ?_⟩
    decide +kernel
  · refine ⟨up, ?_⟩
    decide +kernel
  · refine ⟨upw fun h => { h with car := { h.car with strum := true } }, ?_⟩
    decide +kernel
  · refine ⟨(upHub.setCtx 0 { st := .idle }), 0, 0, ?_⟩
    decide +kernel
  · refine ⟨up, 0, 0, poly0, ?_⟩
    decide +kernel
  · refine ⟨up, 0, 0xFC019, ?_⟩
    decide +kernel

theorem witness_TrafficManager :
  (∃ (s : State) (q : Fin 256) (w : Word),
    let w1 := (w ||| 1) &&& 0x0003FFFF
    s.hub.held = false ∧ s.hub.tqStopped q = true ∧ s.hub.tqCfgOk q w1 = true) ∧
  (∃ (s : State) (q : Fin 256) (w : Word),
    let w1 := (w ||| 1) &&& 0x0003FFFF
    s.hub.held = false ∧ s.hub.tqStopped q = true ∧ s.hub.tqCfgOk q w1 = false) ∧
  (∃ (s : State) (i : Fin 256), s.hub.held = false ∧ s.hub.flag (Reg.POL_CFG i) F.POL_CFG_EN = false) ∧
  (∃ (s : State) (src : CmdSrc) (tag : Byte) (iw : Word),
    let c := mkCmd src 0x0302 tag [iw]
    Accepts s c ∧ iw.toNat < 256) ∧
  (∃ (s : State) (src : CmdSrc) (tag : Byte) (qw : Word),
    let c := mkCmd src 0x0301 tag [qw]
    let q := qw.toNat
    Accepts s c ∧ q < 256 ∧ s.hub.tqOn q = false) ∧
  (∃ (s : State) (p : Fin 7) (q id : Nat) (second : Bool) (t : Nat),
    let h := s.hub.endTx p
    let k := if p.val ≤ 2 then h.expireHeads p else h
    s.hub.held = false ∧ p.val ≠ 3 ∧ p.val ≠ 4 ∧ h.portFree p = true ∧ p.val ≤ 2 ∧ k.dueHead p = some (q, id, second, t)) ∧
  (∃ (s : State) (p : Fin 7) (q id : Nat) (second : Bool),
    let h := s.hub.endTx p
    let k := if p.val ≤ 2 then h.expireHeads p else h
    s.hub.held = false ∧ p.val ≠ 3 ∧ p.val ≠ 4 ∧ h.portFree p = true ∧ (2 < p.val ∨ k.dueHead p = none) ∧ k.normalHead p = some (q, id, second)) ∧
  (∃ (s : State) (p : Fin 3) (q id t : Nat) (second : Bool),
    let k := s.hub.endTx p
    s.hub.held = false ∧ k.portFree p = true ∧ k.dueHead p = some (q, id, second, t)) ∧
  (∃ (s : State) (p : Fin 3) (q id t : Nat) (second : Bool), s.hub.held = false ∧ s.hub.launchHeads p = [(q, id, second, t)]) ∧
  (∃ (s : State) (j : Fin 4096),
    let k := s.hub.baseNs 3 / 50
    s.hub.held = false ∧ k % 4096 = j.val ∧ k ≠ s.hub.start.tb3 / 50) ∧
  (∃ (s : State) (j : Fin 4096),
    let k := s.hub.baseNs 3 / 50
    s.hub.held = false ∧ (k % 4096 ≠ j.val ∨ k = s.hub.start.tb3 / 50)) ∧
  (∃ (h : Hub) (p q id : Nat) (second : Bool), h.headOn p q = some (id, second)) ∧
  (∃ (h : Hub) (x : OwnIn) (i : Nat), h.defPol x.port = some i ∧ (h.police i (frameLen x.frame.bytes)).1 = false) ∧
  (∃ (h : Hub) (q : Nat) (need : Option Nat), h.tqOn q = true ∧ h.tqLaunch q = false ∧ (need = none ∨ need = some (h.tqOut q))) ∧
  (∃ (h : Hub) (i l : Nat), h.flag (Reg.POL_CFG i) F.POL_CFG_EN = true ∧ (h.police i l).1 = true) := by
  refine ⟨?_, ?_, ?_, ?_, ?_, ?_, ?_, ?_, ?_, ?_, ?_, ?_, ?_, ?_, ?_⟩
  · refine ⟨upw fun h => ((h.setFld (Reg.TM_Q_WM 0) F.TM_Q_WM_WM_HI 1).setFld (Reg.TM_Q_WM 0) F.TM_Q_WM_WM_LO 0).setFld (Reg.TM_Q_WEIGHT 0) F.TM_Q_WEIGHT_WEIGHT 1, 0, 0xFFF1, ?_⟩
    decide +kernel
  · refine ⟨up, 0, 0, ?_⟩
    decide +kernel
  · refine ⟨up, 0, ?_⟩
    decide +kernel
  · refine ⟨up, .script, 0, 0, ?_⟩
    dsimp only [Accepts, mkCmd]
    decide +kernel
  · refine ⟨up, .script, 0, 0, ?_⟩
    dsimp only [Accepts, mkCmd]
    decide +kernel
  · refine ⟨tqw 0 { bytes := List.replicate 60 0, launch := some 0 } fun h => (h.setFld (Reg.TM_Q_CFG 0) F.TM_Q_CFG_MODE 1).setFld (Reg.TM_Q_LT 0) F.TM_Q_LT_WINDOW 0xFFFF, 0, 0, 1, false, 0, ?_⟩
    decide +kernel
  · refine ⟨tqw 0 { bytes := List.replicate 60 0 } id, 0, 0, 1, false, ?_⟩
    decide +kernel
  · refine ⟨tqw 0 { bytes := List.replicate 60 0, launch := some 0 } fun h => (h.setFld (Reg.TM_Q_CFG 0) F.TM_Q_CFG_MODE 1).setFld (Reg.TM_Q_LT 0) F.TM_Q_LT_WINDOW 0xFFFF, 0, 0, 1, 0, false, ?_⟩
    decide +kernel
  · refine ⟨tqw 0 { bytes := List.replicate 60 0, launch := some 0 } fun h => (h.setFld (Reg.TM_Q_CFG 0) F.TM_Q_CFG_MODE 1).setFld (Reg.TM_Q_LT 0) F.TM_Q_LT_WINDOW 0xFFFF, 0, 0, 1, 0, false, ?_⟩
    decide +kernel
  · refine ⟨upw fun h => { h with start := { h.start with tb3 := 1000 } }, 0, ?_⟩
    decide +kernel
  · refine ⟨up, 0, ?_⟩
    decide +kernel
  · refine ⟨(tqw 0 { bytes := List.replicate 60 0 } id).hub, 0, 0, 1, false, ?_⟩
    decide +kernel
  · refine ⟨(upHub.setFld (Reg.POL_CFG 0) F.POL_CFG_EN 1 |>.setFld (Reg.TM_PORT 4) F.TM_PORT_DEF_POL_EN 1), ⟨4, 1, 0, false,
      { bytes := List.replicate 60 0 }, 0⟩, 0, ?_⟩
    decide +kernel
  · refine ⟨(tqw 0 { bytes := List.replicate 60 0 } id).hub, 0, none, ?_⟩
    decide +kernel
  · refine ⟨(upHub.setFld (Reg.POL_CFG 0) F.POL_CFG_EN 1 |>.setFld (Reg.POL_CBS 0) F.POL_CBS_CBS 2000 |>.setBucket 0 { tokens := 800000000 }), 0, 64,
      ?_⟩
    decide +kernel

theorem witness_Midway :
  (∃ (s : State) (a : Arrival), s.hub.held = false ∧ (s.hub.swc.arrivals.find? fun a => decide (a.at_ < s.hub.now)) = some a) ∧
  (∃ (s : State), s.hub.held = false ∧ (∀ a ∈ s.hub.swc.arrivals, s.hub.now ≤ a.at_)) ∧
  (∃ (h : Hub) (a : Arrival),
    let f := h.frame a.id
    let l := h.lookup a.port f.bytes
    let k := h.lookFrame a.port a.id
    let r := k.policeBy l.pol (frameLen f.bytes)
    f.look = none ∧ f.cut = false ∧ r.1 = true) ∧
  (∃ (h : Hub) (a : Arrival),
    let f := h.frame a.id
    let l := h.lookup a.port f.bytes
    let k := h.lookFrame a.port a.id
    let r := k.policeBy l.pol (frameLen f.bytes)
    f.look = none ∧ f.cut = false ∧ r.1 = false) ∧
  (∃ (n : Nrp), 2 ≤ n.ver ∧ n.hops = 0) ∧
  (∃ (h : Hub) (free : List Nat) (o i : Nat), h.grant free o = some i) ∧
  (∃ (s : State), s.hub.held = false ∧ s.hub.swc.roundAt ≠ some s.hub.now) ∧
  (∃ (s : State), s.hub.held = false ∧ s.hub.swc.roundAt = some s.hub.now) ∧
  (∃ (h : Hub) (x : Xfer) (e : VEnt) (r : List VEnt),
    let q := h.fwdQueue x.outp x.cls
    h.voqAt x.inp x.outp x.cls = e :: r ∧ h.judgePlace q e.id (some (outCode x.outp)) true = .placed) ∧
  (∃ (s : State) (src : CmdSrc) (tag : Byte) (mask timeout : Word),
    let c := mkCmd src 0x0281 tag [mask, timeout]
    let m := mask.toNat
    Accepts s c ∧ m ≠ 0 ∧ m < 8 ∧ Nat.land m s.hub.fencePend = 0 ∧
        (∀ t, t < 3 → testBit m t = true → tget 0 s.hub.swc.genCnt (16 * t + (s.hub.genOf t + 1) % 16) = 0)) ∧
  (∃ (s : State) (f : Fence),
    let done := f.inTime s.hub.now && s.hub.fenceClear f.mask
    s.hub.held = false ∧ s.hub.swc.fences = [f] ∧ done = true ∧ f.at_ < s.hub.now) ∧
  (∃ (s : State) (f : Fence),
    let done := f.inTime s.hub.now && s.hub.fenceClear f.mask
    s.hub.held = false ∧ s.hub.swc.fences = [f] ∧ (done = false ∨ s.hub.now ≤ f.at_)) ∧
  (∃ (s : State) (f : Fence) (t : Nat),
    let done := f.inTime s.hub.now && s.hub.fenceClear f.mask
    s.hub.held = false ∧ s.hub.swc.fences = [f] ∧ done = false ∧ f.due = some t ∧ t ≤ s.hub.now) ∧
  (∃ (s : State), s.hub.held = false ∧ s.hub.swc.macOp = none) ∧
  (∃ (s : State), s.hub.held = false ∧ s.hub.swc.macOp.isSome = true) ∧
  (∃ (h : Hub) (x : MacOp) (i : Nat),
    let k : Hub := { h with swc := { h.swc with macOp := none } }
    h.swc.macOp = some x ∧ x.due ≤ h.now ∧ k.macFind x.mac x.vid = some i ∧ x.op = 1) ∧
  (∃ (h : Hub) (x : MacOp) (i : Nat),
    let k : Hub := { h with swc := { h.swc with macOp := none } }
    h.swc.macOp = some x ∧ x.due ≤ h.now ∧ k.macFind x.mac x.vid = some i ∧ x.op = 2) ∧
  (∃ (h : Hub) (x : MacOp) (i : Nat),
    let k : Hub := { h with swc := { h.swc with macOp := none } }
    h.swc.macOp = some x ∧ x.due ≤ h.now ∧ k.macFind x.mac x.vid = some i ∧ x.op = 3) ∧
  (∃ (h : Hub) (x : MacOp),
    let k : Hub := { h with swc := { h.swc with macOp := none } }
    h.swc.macOp = some x ∧ x.due ≤ h.now ∧ k.macFind x.mac x.vid = none ∧ x.op = 1) ∧
  (∃ (h : Hub) (x : MacOp) (i : Nat),
    let k : Hub := { h with swc := { h.swc with macOp := none } }
    h.swc.macOp = some x ∧ x.due ≤ h.now ∧ k.macFind x.mac x.vid = none ∧ x.op = 2 ∧ k.macFree x.mac x.vid = some i) ∧
  (∃ (h : Hub) (x : MacOp),
    let k : Hub := { h with swc := { h.swc with macOp := none } }
    h.swc.macOp = some x ∧ x.due ≤ h.now ∧ k.macFind x.mac x.vid = none ∧ x.op = 2 ∧ k.macFree x.mac x.vid = none) ∧
  (∃ (h : Hub) (x : MacOp),
    let k : Hub := { h with swc := { h.swc with macOp := none } }
    h.swc.macOp = some x ∧ x.due ≤ h.now ∧ k.macFind x.mac x.vid = none ∧ x.op = 3) ∧
  (∃ (s : State) (i : Fin 4096),
    let e := s.hub.macEnt i
    let age := s.hub.fld Reg.SWC_MAC_AGE F.SWC_MAC_AGE_AGE_S
    s.hub.held = false ∧ e.valid = true ∧ e.static = false ∧ age ≠ 0) ∧
  (∃ (s : State) (src : CmdSrc) (tag : Byte) (mask : Word),
    let c := mkCmd src 0x0282 tag [mask]
    Accepts s c ∧ mask.toNat ≠ 0 ∧ mask.toNat < 128) ∧
  (∃ (s : State), s.hub.held = false ∧ s.hub.flag Reg.SWC_CTL F.SWC_CTL_AUDIT_EN = true ∧ s.hub.swc.auditBusy = false) ∧
  (∃ (s : State),
    let lost := s.hub.swc.cell.filter fun x => x.2.used && !(s.hub.cellJudge x.1 x.2).used
    s.hub.held = false ∧ s.hub.swc.auditBusy = true ∧ s.hub.swc.auditRefs = [] ∧ s.hub.swc.auditAgain = false ∧ lost = []) ∧
  (∃ (s : State),
    let lost := s.hub.swc.cell.filter fun x => x.2.used && !(s.hub.cellJudge x.1 x.2).used
    s.hub.held = false ∧ s.hub.swc.auditBusy = true ∧ s.hub.swc.auditRefs = [] ∧ s.hub.swc.auditAgain = false ∧ lost ≠ []) ∧
  (∃ (h : Hub) (k : Nat) (c : Cell), c.used = true ∧ h.cellOwned k = false ∧ c.stamp = false) ∧
  (∃ (s : State) (src : CmdSrc) (tag : Byte),
    let c := mkCmd src 0x0C04 tag []
    Accepts s c) := by
  refine ⟨?_, ?_, ?_, ?_, ?_, ?_, ?_, ?_, ?_, ?_, ?_, ?_, ?_, ?_, ?_, ?_, ?_, ?_, ?_, ?_, ?_, ?_, ?_, ?_, ?_, ?_, ?_, ?_, ?_⟩
  · refine ⟨upw fun h => { h with swc := { h.swc with arrivals := [⟨0, 1, true, true, 0⟩], buf := [(1, some { bytes := (nrpFrame 2 4 0 []).bytes })] } }, ⟨0, 1, true, true, 0⟩, ?_⟩
    decide +kernel
  · refine ⟨up, ?_⟩
    decide +kernel
  · refine ⟨{ upHub with swc := { upHub.swc with buf := [(1, some { bytes := (nrpFrame 2 4 0 []).bytes })] } }, ⟨0, 1, true, true, 0⟩, ?_⟩
    decide +kernel
  · refine ⟨((({ upHub with swc := { upHub.swc with buf := [(1, some { bytes := (nrpFrame 2 4 0 []).bytes })] } } : Hub).wr (Reg.POL_CBS 0) 0).setFld (Reg.POL_CFG 0) F.POL_CFG_EN 1 |>.setFld (Reg.TM_PORT 0) F.TM_PORT_DEF_POL_EN 1).note true true, ⟨0, 1, true, true, 0⟩, ?_⟩
    decide +kernel
  · refine ⟨{ (nrpParse (nrpFrame 2 4 0 []).bytes) with dst := 9, hops := 0 }, ?_⟩
    decide +kernel
  · refine ⟨{ upHub with swc := { upHub.swc with voq := [(0, [⟨1, 0⟩])] } }, [0], 0, 0, ?_⟩
    decide +kernel
  · refine ⟨up, ?_⟩
    decide +kernel
  · refine ⟨upw fun h => { h with swc := { h.swc with roundAt := some h.now } }, ?_⟩
    decide +kernel
  · refine ⟨Hub.setFld ({ upHub with swc := { upHub.swc with buf := [(1, some { bytes := (nrpFrame 2 4 0 []).bytes })], voq := [(0, [⟨1, 0⟩])] } } : Hub) (Reg.TM_Q_CFG 0) F.TM_Q_CFG_EN 1, ⟨0, 0, 0, none, 0, none⟩, ⟨1, 0⟩, [], ?_⟩
    decide +kernel
  · refine ⟨upw fun h => { h with swc := { h.swc with genCnt := [(0, 1)] } }, .script, 0, 1, 0, ?_⟩
    dsimp only [Accepts, mkCmd]
    and_intros <;> first | decide +kernel | exact .inl rfl | rfl | exact .inl ⟨rfl, rfl⟩ | (intro r h; cases h)
  · refine ⟨upw fun h => { h with swc := { h.swc with fences := [⟨1, none, ⟨.script, 0, 0⟩, 0⟩] } }, ⟨1, none, ⟨.script, 0, 0⟩, 0⟩, ?_⟩
    decide +kernel
  · refine ⟨upw fun h => { h with swc := { h.swc with fences := [⟨1, none, ⟨.script, 0, 0⟩, 0⟩], genCnt := [(1, 1)] } }, ⟨1, none, ⟨.script, 0, 0⟩,
      0⟩, ?_⟩
    decide +kernel
  · refine ⟨upw fun h => { h with swc := { h.swc with fences := [⟨1, some 0, ⟨.script, 0, 0⟩, 0⟩], genCnt := [(1, 1)] } }, ⟨1, some 0, ⟨.script, 0,
      0⟩, 0⟩, 0, ?_⟩
    decide +kernel
  · refine ⟨up, ?_⟩
    decide +kernel
  · refine ⟨upw fun h => { h with swc := { h.swc with macOp := some ⟨1, 0, 0, 0, 0⟩ } }, ?_⟩
    decide +kernel
  · refine ⟨{ upHub with swc := { upHub.swc with macOp := some ⟨1, 0, 0, 0, 0⟩, mac := [(3492, { valid := true })] } }, ⟨1, 0, 0, 0, 0⟩, 3492, ?_⟩
    decide +kernel
  · refine ⟨{ upHub with swc := { upHub.swc with macOp := some ⟨2, 0, 0, 0, 0⟩, mac := [(3492, { valid := true })] } }, ⟨2, 0, 0, 0, 0⟩, 3492, ?_⟩
    decide +kernel
  · refine ⟨{ upHub with swc := { upHub.swc with macOp := some ⟨3, 0, 0, 0, 0⟩, mac := [(3492, { valid := true })] } }, ⟨3, 0, 0, 0, 0⟩, 3492, ?_⟩
    decide +kernel
  · refine ⟨{ upHub with swc := { upHub.swc with macOp := some ⟨1, 0, 0, 0, 0⟩ } }, ⟨1, 0, 0, 0, 0⟩, ?_⟩
    decide +kernel
  · refine ⟨{ upHub with swc := { upHub.swc with macOp := some ⟨2, 0, 0, 0, 0⟩ } }, ⟨2, 0, 0, 0, 0⟩, 3492, ?_⟩
    decide +kernel
  · refine ⟨{ upHub with swc := { upHub.swc with macOp := some ⟨2, 0, 0, 0, 0⟩, mac := [(3492, { valid := true, mac := 7 }), (3493, { valid := true, mac := 7 }), (3494, { valid := true, mac := 7 }), (3495, { valid := true, mac := 7 })] } }, ⟨2, 0, 0, 0, 0⟩, ?_⟩
    decide +kernel
  · refine ⟨{ upHub with swc := { upHub.swc with macOp := some ⟨3, 0, 0, 0, 0⟩ } }, ⟨3, 0, 0, 0, 0⟩, ?_⟩
    decide +kernel
  · refine ⟨upw fun h => h.setMac 0 { valid := true }, 0, ?_⟩
    decide +kernel
  · refine ⟨up, .script, 0, 1, ?_⟩
    dsimp only [Accepts, mkCmd]
    decide +kernel
  · refine ⟨up, ?_⟩
    decide +kernel
  · refine ⟨upw fun h => { h with swc := { h.swc with auditBusy := true } }, ?_⟩
    decide +kernel
  · refine ⟨upw fun h => { h with swc := { h.swc with auditBusy := true, cell := [(5, { used := true, miss := 1 })] } }, ?_⟩
    decide +kernel
  · refine ⟨up.hub, 0, { used := true }, ?_⟩
    decide +kernel
  · refine ⟨up, .script, 0, ?_⟩
    dsimp only [Accepts, mkCmd]
    decide +kernel

theorem witness_RingLinksAndState :
  (∃ (s : State) (p : Fin 4),
    let x := s.hub.rport p
    let mode := s.hub.fld (Reg.RING_P_CFG p) F.RING_P_CFG_MODE
    s.hub.held = false ∧ s.hub.ringOn = true ∧ mode ≠ 0 ∧ x.link = .down ∧ x.loop = false ∧
        (p = 3 → s.hub.flag Reg.GLB_STRAPS F.GLB_STRAPS_TWIN_EN = true)) ∧
  (∃ (s : State) (p : Fin 4), s.hub.held = false ∧ (s.hub.ringOn = false ∨ s.hub.fld (Reg.RING_P_CFG p) F.RING_P_CFG_MODE = 0 ∨ (p = 3 ∧
      s.hub.flag Reg.GLB_STRAPS F.GLB_STRAPS_TWIN_EN = false))) ∧
  (∃ (s : State) (p : Fin 4), s.hub.held = false ∧ (s.hub.rport p).link ≠ .down ∧ s.hub.comingOn p = none) ∧
  (∃ (h : Hub) (p : Nat), (h.rport p).link ≠ .down) ∧
  (∃ (s : State), s.hub.held = false ∧ (s.hub.rport 2).pauseRx = true ∧ (s.hub.rport 2).link ≠ .down) ∧
  (∃ (s : State) (p : Fin 2), s.hub.held = false ∧ ((s.hub.rport p).link = .up ∨ (s.hub.rport p).link = .incompat) ∧
      (s.hub.rport p).helloAt + 3 * tuMs ≤ s.hub.now) ∧
  (∃ (s : State) (n : Byte), s.hub.held = false ∧ (s.hub.source n.toNat).known = true ∧
      (s.hub.source n.toNat).heard + s.hub.ringMs F.RING_PAR_CFG_SRC_AGE_MS ≤ s.hub.now) ∧
  (∃ (s : State), s.hub.held = false ∧ s.hub.ring.state ≠ .forming ∧ s.hub.ring.state ≠ s.hub.judgedState) ∧
  (∃ (s : State) (q : Nat), s.hub.held = false ∧ s.hub.mayOriginate = true ∧ s.hub.acts = true ∧ s.hub.txnQueue = some q) ∧
  (∃ (s : State) (t : Nat), s.hub.held = false ∧ s.hub.ring.upAt = some t ∧ t + s.hub.ringMs F.RING_PAR_CFG_SRC_AGE_MS + tuMs ≤ s.hub.now) ∧
  (∃ (s : State), s.hub.held = false ∧ s.hub.flag Reg.RING_CTL F.RING_CTL_HSR_EN = true ∧ s.hub.ringOn = true ∧ s.hub.acts = true ∧
      s.hub.originates = true) ∧
  (∃ (s : State), s.hub.held = false ∧ (s.hub.flag Reg.RING_CTL F.RING_CTL_HSR_EN = false ∨ s.hub.acts = false ∨ s.hub.originates = false)) ∧
  (∃ (s : State), s.hub.held = false ∧ s.hub.ringOn = false) ∧
  (∃ (s : State) (src : CmdSrc) (tag : Byte) (pw : Word),
    let c := mkCmd src 0x0202 tag [pw]
    let p := pw.toNat
    Accepts s c ∧ p < 3 ∧ s.hub.ringOn = true ∧ s.hub.fld (Reg.RING_P_CFG p) F.RING_P_CFG_MODE ≠ 0 ∧ s.hub.comingOn p = none) := by
  refine ⟨?_, ?_, ?_, ?_, ?_, ?_, ?_, ?_, ?_, ?_, ?_, ?_, ?_, ?_⟩
  · refine ⟨upw fun h => (h.setFld Reg.RING_CTL F.RING_CTL_EN 1).setFld (Reg.RING_P_CFG 0) F.RING_P_CFG_MODE 1, 0, ?_⟩
    decide +kernel
  · refine ⟨up, 0, ?_⟩
    decide +kernel
  · refine ⟨upw fun h => h.setRport 0 { link := .up }, 0, ?_⟩
    decide +kernel
  · refine ⟨(upHub.setRport 0 { link := .locked }), 0, ?_⟩
    decide +kernel
  · refine ⟨upw fun h => h.setRport 2 { link := .up, pauseRx := true }, ?_⟩
    decide +kernel
  · refine ⟨upw fun h => h.setRport 0 { link := .up }, 0, ?_⟩
    decide +kernel
  · refine ⟨upw fun h => h.setSource 0 { known := true }, 0, ?_⟩
    decide +kernel
  · refine ⟨upw fun h => { h with ring := { h.ring with state := .closed } }, ?_⟩
    decide +kernel
  · refine ⟨upw fun h => { h with ring := { h.ring with addr := 1, holdoff := false, state := .closed } }.setFld (Reg.TM_Q_CFG 0) F.TM_Q_CFG_OUT 2
      |>.setFld (Reg.TM_Q_CFG 0) F.TM_Q_CFG_EN 1, 0, ?_⟩
    decide +kernel
  · refine ⟨upw fun h => { h with ring := { h.ring with upAt := some 0 } }, 0, ?_⟩
    decide +kernel
  · refine ⟨upw fun h => { (h.setFld Reg.RING_CTL F.RING_CTL_EN 1).setFld Reg.RING_CTL F.RING_CTL_HSR_EN 1 with ring := { h.ring with addr := 1, holdoff := false, state := .closed } }, ?_⟩
    decide +kernel
  · refine ⟨up, ?_⟩
    decide +kernel
  · refine ⟨up, ?_⟩
    decide +kernel
  · refine ⟨upw fun h => (h.setFld Reg.RING_CTL F.RING_CTL_EN 1).setFld (Reg.RING_P_CFG 0) F.RING_P_CFG_MODE 1, .script, 0, 0, ?_⟩
    dsimp only [Accepts, mkCmd]
    decide +kernel

theorem witness_RingReceptionAndParade :
  (∃ (s : State) (p : Fin 2), s.hub.held = false ∧ (s.hub.ringOn = false ∨ (s.hub.rport p).link = .down)) ∧
  (∃ (s : State) (p : Fin 2) (b f : List Byte),
    let bs := b ++ f
    s.hub.held = false ∧ s.hub.ringOn = true ∧ (s.hub.rport p).link ≠ .down ∧ bs.length < 64) ∧
  (∃ (s : State) (p : Fin 2) (b f : List Byte),
    let bs := b ++ f
    let body := bs.take (bs.length - 4)
    let n := nrpParse body
    s.hub.held = false ∧ s.hub.ringOn = true ∧ s.hub.linkUp p = true ∧ 64 ≤ bs.length ∧ bs.length ≤ 2048 ∧ judgeFcs bs = .good ∧
        s.hub.isNrp bs = true ∧ badHeader body = false ∧ n.typ ≠ tHello ∧ n.typ ≠ tParade ∧ n.typ ≠ tLate ∧ s.hub.ownFrame n = true) ∧
  (∃ (s : State) (p : Fin 2) (b f : List Byte),
    let bs := b ++ f
    let body := bs.take (bs.length - 4)
    let n := nrpParse body
    s.hub.held = false ∧ s.hub.ringOn = true ∧ s.hub.linkUp p = true ∧ 64 ≤ bs.length ∧ bs.length ≤ 2048 ∧ judgeFcs bs = .good ∧
        s.hub.isNrp bs = true ∧ badHeader body = false ∧ n.typ ≠ tHello ∧ n.typ ≠ tParade ∧ n.typ ≠ tLate ∧ s.hub.ownFrame n = false ∧
        badNodes n = true) ∧
  (∃ (s : State) (p : Fin 2) (b f : List Byte),
    let bs := b ++ f
    let body := bs.take (bs.length - 4)
    let n := nrpParse body
    s.hub.held = false ∧ s.hub.ringOn = true ∧ s.hub.linkUp p = true ∧ 64 ≤ bs.length ∧ bs.length ≤ 2048 ∧ judgeFcs bs = .good ∧
        s.hub.isNrp bs = true ∧ badHeader body = false ∧ n.typ ≠ tHello ∧ n.typ ≠ tParade ∧ n.typ ≠ tLate ∧ s.hub.ownFrame n = false ∧
        badNodes n = false) ∧
  (∃ (h : Hub) (n : Nrp) (p : Nat), (p ≠ 0 ∨ h.sameCycle (h.twinOf n) = none)) ∧
  (∃ (h : Hub) (p : Nat), h.comingOn p = none) ∧
  (∃ (s : State) (p : Fin 2) (bs : List Byte),
    let body := bs.take (bs.length - 4)
    let n := nrpParse body
    s.hub.held = false ∧ s.hub.ringOn = true ∧ (s.hub.rport p).link ≠ .down ∧ 64 ≤ bs.length ∧ bs.length ≤ 2048 ∧ judgeFcs bs = .good ∧
        s.hub.isNrp bs = true ∧ badHeader body = false ∧ (nrpParse bs).typ = n.typ ∧ n.typ = tHello) ∧
  (∃ (s : State) (p : Fin 2) (bs : List Byte),
    let body := bs.take (bs.length - 4)
    let n := nrpParse body
    s.hub.held = false ∧ s.hub.ringOn = true ∧ (s.hub.rport p).link ≠ .down ∧ 64 ≤ bs.length ∧ bs.length ≤ 2048 ∧ judgeFcs bs = .good ∧
        s.hub.isNrp bs = true ∧ badHeader body = false ∧ (nrpParse bs).typ = n.typ ∧ n.typ = tLate ∧ s.hub.linkUp p = true) ∧
  (∃ (s : State) (p : Fin 2) (bs : List Byte) (d : Parade),
    let body := bs.take (bs.length - 4)
    let n := nrpParse body
    let x := nrpPayload body
    s.hub.held = false ∧ s.hub.ringOn = true ∧ (s.hub.rport p).link ≠ .down ∧ 64 ≤ bs.length ∧ bs.length ≤ 2048 ∧ judgeFcs bs = .good ∧
        s.hub.isNrp bs = true ∧ badHeader body = false ∧ (nrpParse bs).typ = n.typ ∧ n.typ = tParade ∧ s.hub.linkUp p = true ∧
        paradeParse x = some d ∧ beAt bs (14 + nrpHdrLen (nrpParse bs).ver) 1 = d.phase ∧ d.phase = 1) ∧
  (∃ (s : State) (p : Fin 2) (bs : List Byte) (d : Parade),
    let body := bs.take (bs.length - 4)
    let n := nrpParse body
    let x := nrpPayload body
    s.hub.held = false ∧ s.hub.ringOn = true ∧ (s.hub.rport p).link ≠ .down ∧ 64 ≤ bs.length ∧ bs.length ≤ 2048 ∧ judgeFcs bs = .good ∧
        s.hub.isNrp bs = true ∧ badHeader body = false ∧ (nrpParse bs).typ = n.typ ∧ n.typ = tParade ∧ s.hub.linkUp p = true ∧
        paradeParse x = some d ∧ beAt bs (14 + nrpHdrLen (nrpParse bs).ver) 1 = d.phase ∧ d.phase = 2) ∧
  (∃ (h : Hub) (p : Nat) (b : List Byte),
    let v := min h.verMax (beAt b 1 1)
    (h.rport p).link = .locked ∧ 16 ≤ b.length ∧ h.verMin ≤ v ∧ beAt b 0 1 ≤ v) ∧
  (∃ (s : State) (t : Nat), s.hub.held = false ∧ s.hub.ring.relaunchAt = some t ∧ t ≤ s.hub.now) ∧
  (∃ (s : State) (t : Nat), s.hub.held = false ∧ s.hub.ring.relaunchAt = none ∧ s.hub.ring.firstUp = some t ∧
      t + s.hub.ringMs F.RING_PAR_CFG_PARADE_WAIT_MS ≤ s.hub.now ∧ s.hub.ring.state = .forming ∧ s.hub.paradeBusy = false) ∧
  (∃ (s : State) (v : Survey), s.hub.held = false ∧ s.hub.ring.survey = some v ∧ v.at_ + s.hub.ringMs F.RING_PAR_CFG_PARADE_TMO_MS ≤ s.hub.now) ∧
  (∃ (s : State) (src : CmdSrc) (tag : Byte),
    let c := mkCmd src 0x0201 tag []
    Accepts s c ∧ s.hub.ringOn = true ∧ s.hub.upPorts ≠ [] ∧ s.hub.paradeBusy = false) := by
  refine ⟨?_, ?_, ?_, ?_, ?_, ?_, ?_, ?_, ?_, ?_, ?_, ?_, ?_, ?_, ?_, ?_⟩
  · refine ⟨up, 0, ?_⟩
    decide +kernel
  · refine ⟨ringw .up id, 0, [], [], ?_⟩
    decide +kernel
  · refine ⟨ringw .up fun h => { h with ring := { h.ring with addr := 5 } }, 0, ringBytes 4 5 [], [], ?_⟩
    decide +kernel
  · refine ⟨ringw .up id, 0, ringBytes 4 0 [], [], ?_⟩
    decide +kernel
  · refine ⟨ringw .up id, 0, ringBytes 4 5 [], [], ?_⟩
    decide +kernel
  · refine ⟨up.hub, nrpParse [], 0, ?_⟩
    decide +kernel
  · refine ⟨up.hub, 0, ?_⟩
    decide +kernel
  · refine ⟨ringw .up id, 0, ringBytes 1 5 [], ?_⟩
    decide +kernel
  · refine ⟨ringw .up id, 0, ringBytes 8 5 [], ?_⟩
    decide +kernel
  · refine ⟨ringw .up id, 0, ringBytes 2 5 [1, 0, 0, 0, 0, 0, 0, 0, 0, 0, 0, 0, 0, 0, 0, 0],
      { phase := 1, west := false, complete := false, key0 := 0, gen := 0, mac := 0, token := 0, ents := [] }, ?_⟩
    and_intros <;> first | decide +kernel | exact .inl rfl | rfl | exact .inl ⟨rfl, rfl⟩ | (intro r h; cases h)
  · refine ⟨ringw .up id, 0, ringBytes 2 5 [2, 0, 0, 0, 0, 0, 0, 0, 0, 0, 0, 0, 0, 0, 0, 0],
      { phase := 2, west := false, complete := false, key0 := 0, gen := 0, mac := 0, token := 0, ents := [] }, ?_⟩
    and_intros <;> first | decide +kernel | exact .inl rfl | rfl | exact .inl ⟨rfl, rfl⟩ | (intro r h; cases h)
  · refine ⟨(upHub.setRport 0 { link := .locked }), 0, [1, 3, 0, 0, 0, 0, 0, 0, 0, 0, 0, 0, 0, 0, 0, 0], ?_⟩
    decide +kernel
  · refine ⟨upw fun h => { h with ring := { h.ring with relaunchAt := some 0 } }, 0, ?_⟩
    decide +kernel
  · refine ⟨upw fun h => { h with ring := { h.ring with firstUp := some 0 } }, 0, ?_⟩
    decide +kernel
  · refine ⟨upw fun h => { h with ring := { h.ring with survey := some ⟨0, 0, 0, true, false, none, none, false⟩ } }, ⟨0, 0, 0, true, false, none,
      none, false⟩, ?_⟩
    decide +kernel
  · refine ⟨ringw .up id, .script, 0, ?_⟩
    dsimp only [Accepts, mkCmd]
    decide +kernel

theorem witness_TimeBasesAndServos :
  (∃ (h : Hub), (h.tb 3).ops = [] ∧ (h.tb 3).slew = none ∧ (h.tb 3).sub < subNs) ∧
  (∃ (h : Hub) (b : Nat) (z : Int), b < 3 ∧ (h.tb b).servo ≠ .unset ∧ (h.tb b).servo ≠ .refused ∧ z ≠ 0 ∧ z.natAbs ≤ h.jumpNs b) ∧
  (∃ (h : Hub) (b : Nat) (z : Int), b < 3 ∧ (h.tb b).servo ≠ .unset ∧ (h.tb b).servo ≠ .refused ∧ z ≠ 0 ∧ h.jumpNs b < z.natAbs ∧
      (h.tb b).permit.isSome = true) ∧
  (∃ (h : Hub) (b : Nat) (z : Int), b < 3 ∧ (h.tb b).servo ≠ .unset ∧ (h.tb b).servo ≠ .refused ∧ z ≠ 0 ∧ h.jumpNs b < z.natAbs ∧
      (h.tb b).permit = none) ∧
  (∃ (s : State) (src : CmdSrc) (tag : Byte) (bw lo hi ns : Word),
    let c := mkCmd src 0x0801 tag [bw, lo, hi, ns]
    let b := bw.toNat
    let z : Int := (((lo.toNat + hi.toNat * 2 ^ 32) * 1000000000 + ns.toNat : Nat) : Int) - (s.hub.baseNs b : Int)
    Accepts s c ∧ b < 3 ∧ hi.toNat < 65536 ∧ ns.toNat < 1000000000 ∧ s.hub.tbSrc b = 0 ∧ (s.hub.judgeStep b z).1 = true) ∧
  (∃ (s : State) (src : CmdSrc) (tag : Byte) (bw lo hi : Word),
    let c := mkCmd src 0x0802 tag [bw, lo, hi]
    let b := bw.toNat
    let z := toSigned 64 (lo.toNat + hi.toNat * 2 ^ 32)
    Accepts s c ∧ b < 3 ∧ s.hub.tbSrc b = 0 ∧ (s.hub.judgeStep b z).1 = true) ∧
  (∃ (s : State) (src : CmdSrc) (tag : Byte) (bw lo hi : Word),
    let c := mkCmd src 0x0802 tag [bw, lo, hi]
    let b := bw.toNat
    let z := toSigned 64 (lo.toNat + hi.toNat * 2 ^ 32)
    Accepts s c ∧ b < 3 ∧ s.hub.tbSrc b = 0 ∧ (s.hub.judgeStep b z).1 = false ∧ (∃ q, src = .queue q)) ∧
  (∃ (s : State) (src : CmdSrc) (tag : Byte) (bw arm : Word),
    let c := mkCmd src 0x0803 tag [bw, arm]
    let b := bw.toNat
    Accepts s c ∧ b < 3 ∧ arm.toNat < 2) ∧
  (∃ (s : State) (src : CmdSrc) (tag : Byte) (bw ofs rate : Word),
    let c := mkCmd src 0x0804 tag [bw, ofs, rate]
    let b := bw.toNat
    Accepts s c ∧ b < 3 ∧ rate.toNat ≠ 0 ∧ rate.toNat ≤ 1000 ∧ s.hub.tbSrc b = 0 ∧ (s.hub.tb b).slewing = false) ∧
  (∃ (s : State) (b : Fin 3) (t : Nat), s.hub.held = false ∧ (s.hub.tb b).permit = some t) ∧
  (∃ (s : State) (b : Fin 3) (x : Slew), s.hub.held = false ∧ (s.hub.tb b).slew = some x ∧ x.rem = 0) ∧
  (∃ (s : State) (b : Fin 3) (i : ServoIn) (ofs : Int), s.hub.held = false ∧ s.hub.acts = true ∧ s.hub.servoOffset b i = some ofs ∧
      (s.hub.tb b).servo ≠ .refused) ∧
  (∃ (s : State) (b : Fin 3) (i : ServoIn) (ofs : Int), s.hub.held = false ∧ s.hub.acts = true ∧ s.hub.servoOffset b i = some ofs ∧
      (s.hub.tb b).servo = .refused ∧ s.hub.flag (Reg.TB_SRC b) F.TB_SRC_AUTO_SLEW = false) ∧
  (∃ (s : State) (b : Fin 3) (i : ServoIn) (ofs : Int), s.hub.held = false ∧ s.hub.acts = true ∧ s.hub.servoOffset b i = some ofs ∧
      (s.hub.tb b).servo = .refused ∧ s.hub.flag (Reg.TB_SRC b) F.TB_SRC_AUTO_SLEW = true) ∧
  (∃ (s : State) (b : Fin 3) (i : ServoIn), s.hub.held = false ∧ (s.hub.acts = false ∨ s.hub.servoOffset b i = none)) ∧
  (∃ (s : State) (b : Fin 3), s.hub.held = false ∧ (s.hub.tbSrc b = 1 ∨ (2 ≤ s.hub.tbSrc b ∧ (s.hub.tb b).lastIn + 3 * tuS ≤ s.hub.now)) ∧
      ((s.hub.tb b).servo = .acquiring ∨ (s.hub.tb b).servo = .locked) ∧ (s.hub.tb b).freqs ≠ []) ∧
  (∃ (s : State) (b : Fin 3) (w : Word),
    let v := bits w F.TB_SRC_SRC
    s.hub.held = false ∧ (5 ≤ v ∨ (v = 1 ∧ b = 2))) ∧
  (∃ (s : State) (w : Word),
    let v := bits w F.TB_SRC_SRC
    s.hub.held = false ∧ v = 0) ∧
  (∃ (s : State) (b : Fin 3) (w : Word),
    let v := bits w F.TB_SRC_SRC
    s.hub.held = false ∧ 1 ≤ v ∧ v < 5 ∧ (v = 1 → b ≠ 2)) ∧
  (∃ (s : State) (b : Fin 2) (gm : Dword), s.hub.held = false ∧ s.hub.acts = true ∧ s.hub.tbSrc b = 1 ∧ (s.hub.tb b).gm ≠ gm.toNat ∧
      (s.hub.tb b).servo = .acquiring ∨ (s.hub.tb b).servo = .locked ∨ (s.hub.tb b).servo = .holdover) := by
  refine ⟨?_, ?_, ?_, ?_, ?_, ?_, ?_, ?_, ?_, ?_, ?_, ?_, ?_, ?_, ?_, ?_, ?_, ?_, ?_, ?_⟩
  · refine ⟨up.hub, ?_⟩
    decide +kernel
  · refine ⟨(upHub.setTb 0 { servo := .free }), 0, 1, ?_⟩
    decide +kernel
  · refine ⟨(upHub.setTb 0 { servo := .free, permit := some 0 }), 0, 1000000, ?_⟩
    decide +kernel
  · refine ⟨(upHub.setTb 0 { servo := .free }), 0, 1000000, ?_⟩
    decide +kernel
  · refine ⟨up, .script, 0, 0, 0, 0, 0, ?_⟩
    dsimp only [Accepts, mkCmd]
    decide +kernel
  · refine ⟨up, .script, 0, 0, 0, 0, ?_⟩
    dsimp only [Accepts, mkCmd]
    decide +kernel
  · refine ⟨bootw fun h => ((h.setFld (Reg.HQ_CFG 0) F.HQ_CFG_EN 1).setFld (Reg.HQ_CFG 0) F.HQ_CFG_VERSION 3).setTb 0 { servo := .free }, .queue 0,
      0, 0, 1000000, 0, ?_⟩
    dsimp only [Accepts, mkCmd]
    and_intros <;> first | decide +kernel | exact .inl rfl | rfl | exact .inl ⟨rfl, rfl⟩ | (intro r h; cases h)
  · refine ⟨up, .script, 0, 0, 0, ?_⟩
    dsimp only [Accepts, mkCmd]
    decide +kernel
  · refine ⟨up, .script, 0, 0, 0, 1, ?_⟩
    dsimp only [Accepts, mkCmd]
    decide +kernel
  · refine ⟨upw fun h => h.setTb 0 { permit := some 0 }, 0, 0, ?_⟩
    decide +kernel
  · refine ⟨upw fun h => h.setTb 0 { slew := some ⟨0, 1⟩ }, 0, ⟨0, 1⟩, ?_⟩
    decide +kernel
  · refine ⟨upw fun h => (h.setFld (Reg.TB_SRC 0) F.TB_SRC_SRC 2).setTb 0 { servo := .locked }, 0, .irig 0 0, 0, ?_⟩
    decide +kernel
  · refine ⟨upw fun h => (h.setFld (Reg.TB_SRC 0) F.TB_SRC_SRC 2).setTb 0 { servo := .refused }, 0, .irig 0 0, 0, ?_⟩
    decide +kernel
  · refine ⟨upw fun h => ((h.setFld (Reg.TB_SRC 0) F.TB_SRC_SRC 2).setFld (Reg.TB_SRC 0) F.TB_SRC_AUTO_SLEW 1).setTb 0 { servo := .refused }, 0,
      .irig 0 0, 0, ?_⟩
    decide +kernel
  · refine ⟨up, 0, .irig 0 0, ?_⟩
    decide +kernel
  · refine ⟨upw fun h => (h.setFld (Reg.TB_SRC 0) F.TB_SRC_SRC 1).setTb 0 { servo := .locked, freqs := [0] }, 0, ?_⟩
    decide +kernel
  · refine ⟨up, 0, 5, ?_⟩
    decide +kernel
  · refine ⟨up, 0, ?_⟩
    decide +kernel
  · refine ⟨up, 0, 1, ?_⟩
    decide +kernel
  · refine ⟨upw fun h => (h.setFld (Reg.TB_SRC 0) F.TB_SRC_SRC 1).setTb 0 { servo := .locked }, 0, 1, ?_⟩
    decide +kernel

theorem witness_EventsPulsesAndPtp :
  (∃ (s : State) (i : Fin 66) (level : Bool) (ago : Nat),
    let a := Reg.TIME_ETI i
    s.hub.held = false ∧ (s.hub.flag a (if level then F.TIME_ETI_RISE else F.TIME_ETI_FALL) = true) ∧ s.hub.fld a F.TIME_ETI_FILT * 300 ≤ ago ∧
    let cyc := (s.hub.now - ago) / 300
    let same := s.hub.tim.caught.any fun e => e.pin == i.val && e.cyc == cyc
    same = false) ∧
  (∃ (s : State) (i : Fin 66) (level : Bool) (ago : Nat),
    let a := Reg.TIME_ETI i
    s.hub.held = false ∧ (s.hub.flag a (if level then F.TIME_ETI_RISE else F.TIME_ETI_FALL) = true) ∧ s.hub.fld a F.TIME_ETI_FILT * 300 ≤ ago ∧
    let cyc := (s.hub.now - ago) / 300
    let same := s.hub.tim.caught.any fun e => e.pin == i.val && e.cyc == cyc
    same = true) ∧
  (∃ (s : State) (i : Fin 66) (level : Bool) (ago : Nat), s.hub.held = false ∧
      (s.hub.flag (Reg.TIME_ETI i) (if level then F.TIME_ETI_RISE else F.TIME_ETI_FALL) = false ∨ ago < s.hub.fld (Reg.TIME_ETI i) F.TIME_ETI_FILT * 300)) ∧
  (∃ (h : Hub),
    let n := h.tim.evq.length + h.tim.evc.fresh h.now
    n < 4096) ∧
  (∃ (h : Hub),
    let n := h.tim.evq.length + h.tim.evc.fresh h.now
    4096 ≤ n) ∧
  (∃ (s : State) (w0 w1 : Word) (r : List (Word × Word)), s.hub.held = false ∧ s.hub.tim.evq = (w0, w1) :: r ∧
      s.hub.tim.evc.putNow s.hub.now ≤ r.length ∧ s.hub.tim.evHalf = false) ∧
  (∃ (s : State) (w0 w1 : Word) (r : List (Word × Word)), s.hub.held = false ∧ s.hub.tim.evq = (w0, w1) :: r ∧
      s.hub.tim.evc.putNow s.hub.now ≤ r.length ∧ s.hub.tim.evHalf = true) ∧
  (∃ (s : State), s.hub.held = false ∧ s.hub.tim.evq = []) ∧
  (∃ (s : State) (k : Fin 16) (w : Word),
    let width := (s.hub.rd (Reg.PPO_WIDTH k)).toNat
    let period := (s.hub.rd (Reg.PPO_PERIOD k)).toNat
    let bad := width < 5 ∨ (bits w F.PPO_CFG_PERIODIC = 1 ∧ (period < 20 ∨ period ≤ width))
    s.hub.held = false ∧ s.hub.flag (Reg.PPO_CFG k) F.PPO_CFG_EN = false ∧ bits w F.PPO_CFG_EN = 1 ∧ bad) ∧
  (∃ (s : State) (k : Fin 16) (w : Word),
    let width := (s.hub.rd (Reg.PPO_WIDTH k)).toNat
    let period := (s.hub.rd (Reg.PPO_PERIOD k)).toNat
    let bad := width < 5 ∨ (bits w F.PPO_CFG_PERIODIC = 1 ∧ (period < 20 ∨ period ≤ width))
    s.hub.held = false ∧ s.hub.flag (Reg.PPO_CFG k) F.PPO_CFG_EN = false ∧ bits w F.PPO_CFG_EN = 1 ∧ (¬ bad)) ∧
  (∃ (s : State) (k : Fin 16),
    let b := s.hub.fld (Reg.PPO_CFG k) F.PPO_CFG_TB
    s.hub.held = false ∧ s.hub.flag (Reg.PPO_CFG k) F.PPO_CFG_EN = true ∧ s.hub.ppoArmed k = true ∧ s.hub.ppoActive k = false ∧ 0 ≤ s.hub.ppoLag k ∧
        s.hub.ppoLag k < s.hub.tbInc b ∧ s.hub.squelched (s.hub.flag (Reg.PPO_CFG k) F.PPO_CFG_SQUELCH) b = false) ∧
  (∃ (s : State) (k : Fin 16),
    let b := s.hub.fld (Reg.PPO_CFG k) F.PPO_CFG_TB
    s.hub.held = false ∧ s.hub.flag (Reg.PPO_CFG k) F.PPO_CFG_EN = true ∧ s.hub.ppoArmed k = true ∧ s.hub.ppoActive k = false ∧ 0 ≤ s.hub.ppoLag k ∧
        s.hub.ppoLag k < s.hub.tbInc b ∧ s.hub.squelched (s.hub.flag (Reg.PPO_CFG k) F.PPO_CFG_SQUELCH) b = true) ∧
  (∃ (s : State) (k : Fin 16) (t : Nat), s.hub.held = false ∧ tget none s.hub.tim.pulse k = some t ∧ t ≤ s.hub.now ∧
      s.hub.flag (Reg.PPO_CFG k) F.PPO_CFG_PERIODIC = false) ∧
  (∃ (s : State) (k : Fin 16) (t : Nat), s.hub.held = false ∧ tget none s.hub.tim.pulse k = some t ∧ t ≤ s.hub.now ∧
      s.hub.flag (Reg.PPO_CFG k) F.PPO_CFG_PERIODIC = true) ∧
  (∃ (s : State) (j : Fin 2),
    let a := Reg.PPSO_CFG j
    let t := s.hub.tb (s.hub.fld a F.PPSO_CFG_TB)
    let adj := toSigned 16 (s.hub.fld (Reg.PPSO_ADJ j) F.PPSO_ADJ_ADJ_PS) * 1000000000
    s.hub.held = false ∧ s.hub.flag a F.PPSO_CFG_EN = true ∧ s.hub.squelched (s.hub.flag a F.PPSO_CFG_SQUELCH) (s.hub.fld a F.PPSO_CFG_TB) = false ∧
        tget none s.hub.tim.pulse (16 + j) = none ∧ (((t.ns * subNs + t.sub : Nat) : Int) + adj) % ((1000000000 * subNs : Nat) : Int) < s.hub.tbInc (s.hub.fld a F.PPSO_CFG_TB)) ∧
  (∃ (s : State) (p : Fin 3) (bs : List Byte), s.hub.held = false ∧ s.hub.ptpPort p = true ∧ (stdParse bs).etype = etPtp) ∧
  (∃ (s : State) (p : Fin 3) (bs : List Byte),
    let m := stdParse bs
    s.hub.held = false ∧ s.hub.ptpTaken p bs = true ∧ m.etype = etPtp ∧ beAt bs m.data 1 % 16 = 2 ∧ s.hub.ptpPort p = true) ∧
  (∃ (s : State) (p : Fin 3) (bs : List Byte),
    let m := stdParse bs
    s.hub.held = false ∧ s.hub.ptpTaken p bs = true ∧ m.etype = etPtp ∧ beAt bs m.data 1 % 16 = 3) ∧
  (∃ (s : State) (p : Fin 3) (bs : List Byte), s.hub.held = false ∧ (s.hub.ptpPort p = false ∨ (stdParse bs).etype ≠ etPtp)) ∧
  (∃ (s : State) (p : Fin 3) (bs : List Byte), s.hub.held = false ∧ (s.hub.ptpTaken p bs = false ∨ (stdParse bs).etype ≠ etPtp)) := by
  refine ⟨?_, ?_, ?_, ?_, ?_, ?_, ?_, ?_, ?_, ?_, ?_, ?_, ?_, ?_, ?_, ?_, ?_, ?_, ?_, ?_⟩
  · refine ⟨upw fun h => h.setFld (Reg.TIME_ETI 0) F.TIME_ETI_RISE 1, 0, true, 100000, ?_⟩
    decide +kernel
  · refine ⟨upw fun h => { h.setFld (Reg.TIME_ETI 0) F.TIME_ETI_RISE 1 with tim := { h.tim with caught := [⟨199999999666, 0, 0, 0⟩] } }, 0, true,
      100000, ?_⟩
    decide +kernel
  · refine ⟨up, 0, false, 0, ?_⟩
    decide +kernel
  · refine ⟨up.hub, ?_⟩
    decide +kernel
  · refine ⟨{ upHub with tim := { upHub.tim with evq := List.replicate 4096 (0, 0) } }, ?_⟩
    decide +kernel
  · refine ⟨upw fun h => { h with tim := { h.tim with evq := [(1, 2)] } }, 1, 2, [], ?_⟩
    decide +kernel
  · refine ⟨upw fun h => { h with tim := { h.tim with evq := [(1, 2)], evHalf := true } }, 1, 2, [], ?_⟩
    decide +kernel
  · refine ⟨up, ?_⟩
    decide +kernel
  · refine ⟨up, 0, 1, ?_⟩
    decide +kernel
  · refine ⟨upw fun h => h.wr (Reg.PPO_WIDTH 0) 5, 0, 1, ?_⟩
    decide +kernel
  · refine ⟨upw fun h => (h.setFld (Reg.PPO_CFG 0) F.PPO_CFG_EN 1).setFld (Reg.PPO_STAT 0) F.PPO_STAT_ARMED 1, 0, ?_⟩
    decide +kernel
  · refine ⟨upw fun h => ((h.setFld (Reg.PPO_CFG 0) F.PPO_CFG_EN 1).setFld (Reg.PPO_STAT 0) F.PPO_STAT_ARMED 1).setFld (Reg.PPO_CFG 0) F.PPO_CFG_SQUELCH 1, 0, ?_⟩
    decide +kernel
  · refine ⟨upw fun h => h.setPulse 0 (some 0), 0, 0, ?_⟩
    decide +kernel
  · refine ⟨upw fun h => (h.setFld (Reg.PPO_CFG 0) F.PPO_CFG_PERIODIC 1).setPulse 0 (some 0), 0, 0, ?_⟩
    decide +kernel
  · refine ⟨upw fun h => h.setFld (Reg.PPSO_CFG 0) F.PPSO_CFG_EN 1, 0, ?_⟩
    decide +kernel
  · refine ⟨up, 2, List.replicate 12 0 ++ [0x88, 0xF7, 0, 2] ++ List.replicate 40 0, ?_⟩
    decide +kernel
  · refine ⟨upw fun h => h.setRport 2 { link := .up }, 2, List.replicate 12 0 ++ [0x88, 0xF7, 2, 2] ++ List.replicate 40 0, ?_⟩
    decide +kernel
  · refine ⟨upw fun h => h.setRport 2 { link := .up }, 2, List.replicate 12 0 ++ [0x88, 0xF7, 3, 2] ++ List.replicate 40 0, ?_⟩
    decide +kernel
  · refine ⟨up, 0, [], ?_⟩
    decide +kernel
  · refine ⟨up, 2, List.replicate 12 0 ++ [0x88, 0xF7, 0, 2] ++ List.replicate 40 0, ?_⟩
    decide +kernel

theorem witness_TwinHeartbeatsAndTakeover :
  (∃ (s : State), s.hub.held = false ∧ s.hub.twin.role ≠ .solo ∧ s.hub.twin.hbAt + tuUs ≤ s.hub.now) ∧
  (∃ (s : State) (w : Word), s.hub.held = false ∧ s.hub.twin.role ≠ .solo ∧ hbSeal w.toNat = w ∧
    let cnt := w.toNat / 256 % 256
    s.hub.twin.lvds.cnt ≠ some cnt) ∧
  (∃ (s : State) (w : Word), s.hub.held = false ∧ s.hub.twin.role ≠ .solo ∧ hbSeal w.toNat = w ∧
    let cnt := w.toNat / 256 % 256
    s.hub.twin.ser.cnt ≠ some cnt ∧ (s.hub.rport 3).link ≠ .down) ∧
  (∃ (s : State) (w : Word), s.hub.held = false ∧ hbSeal w.toNat ≠ w) ∧
  (∃ (s : State),
    let tw := s.hub.twin
    let tmo := s.hub.fld Reg.TWIN_CFG F.TWIN_CFG_T_MISS_US * tuUs
    s.hub.held = false ∧ tw.role ≠ .solo ∧ tw.lvds.silent = false ∧ tw.lvds.at_ + tmo ≤ s.hub.now) ∧
  (∃ (s : State),
    let tw := s.hub.twin
    let tmo := s.hub.fld Reg.TWIN_CFG F.TWIN_CFG_T_MISS_US * tuUs
    s.hub.held = false ∧ tw.role ≠ .solo ∧ tw.ser.silent = false ∧ tw.ser.at_ + tmo ≤ s.hub.now) ∧
  (∃ (h : Hub), h.twin.peerDead = false ∧ h.twin.role = .standby ∧ h.failing = false) ∧
  (∃ (s : State), s.hub.held = false ∧ s.hub.twin.role = .joining ∧
      max s.hub.twin.joinAt (max s.hub.twin.ser.at_ s.hub.twin.lvds.at_) + s.hub.fld Reg.TWIN_TMO F.TWIN_TMO_JOIN_MS * tuMs ≤ s.hub.now) ∧
  (∃ (s : State), s.hub.held = false ∧ s.hub.twin.role = .active ∧ s.hub.hasFatal = true ∧ s.hub.peerReady = true ∧ s.hub.twin.halted = false) ∧
  (∃ (s : State) (t : Nat), s.hub.held = false ∧ s.hub.twin.fatalAt = some t ∧ t ≤ s.hub.now) ∧
  (∃ (s : State) (t : Nat), s.hub.held = false ∧ s.hub.revertOk = true ∧ s.hub.twin.revertSince = some t) ∧
  (∃ (s : State), s.hub.held = false ∧ s.hub.twin.takeAt + 10 * tuMs ≤ s.hub.now) := by
  refine ⟨?_, ?_, ?_, ?_, ?_, ?_, ?_, ?_, ?_, ?_, ?_, ?_⟩
  · refine ⟨twinw .active fun t => t, ?_⟩
    decide +kernel
  · refine ⟨twinw .active fun t => t, hbSeal 0x123456, ?_⟩
    decide +kernel
  · refine ⟨upw fun h => (h.setTwin { h.twin with role := .active }).setRport 3 { link := .up }, hbSeal 0x123456, ?_⟩
    decide +kernel
  · refine ⟨twinw .active fun t => t, 1, ?_⟩
    decide +kernel
  · refine ⟨twinw .active fun t => t, ?_⟩
    decide +kernel
  · refine ⟨twinw .active fun t => t, ?_⟩
    decide +kernel
  · refine ⟨(twinw .standby id).hub, ?_⟩
    decide +kernel
  · refine ⟨twinw .joining fun t => t, ?_⟩
    decide +kernel
  · refine ⟨twinw .active fun t => { t with since := fatalBits, peerRole := 3 }, ?_⟩
    decide +kernel
  · refine ⟨twinw .active fun t => { t with fatalAt := some 0 }, 0, ?_⟩
    decide +kernel
  · refine ⟨upw fun h => ((h.setTwin { h.twin with role := .standby, revertSince := some 0, ser := { live := true }, lvds := { live := true } }).setFld Reg.TWIN_CFG F.TWIN_CFG_AUTO_REVERT 1).setFld Reg.GLB_STRAPS F.GLB_STRAPS_TWIN_PREF 1, 0, ?_⟩
    decide +kernel
  · refine ⟨up, ?_⟩
    decide +kernel

theorem witness_JournalRecords :
  (∃ (s : State) (jseq : Half), s.hub.held = false ∧ s.hub.twin.role = .standby ∧ (s.hub.twin.jseqRx = none ∨ ∃ q, s.hub.twin.jseqRx = some q ∧
      jseq.toNat = (q + 1) % 65536)) ∧
  (∃ (s : State), s.hub.held = false ∧ s.hub.twin.role = .syncing) ∧
  (∃ (s : State) (jseq : Half) (q : Nat), s.hub.held = false ∧ s.hub.twin.role = .standby ∧ s.hub.twin.jseqRx = some q ∧
      jseq.toNat ≠ (q + 1) % 65536 ∧ s.hub.flag Reg.TWIN_CFG F.TWIN_CFG_AUTO_RESYNC = true ∧ s.hub.twin.notInStep = false) ∧
  (∃ (s : State), s.hub.held = false ∧ s.hub.twin.role ≠ .standby) ∧
  (∃ (s : State) (x : Named) (r : List Named), s.hub.held = false ∧ s.hub.twin.named = x :: r ∧ x.at_ + 4 * tuUs ≤ s.hub.now) ∧
  (∃ (b : Nat), b < 3) := by
  refine ⟨?_, ?_, ?_, ?_, ?_, ?_⟩
  · refine ⟨twinw .standby fun t => t, 0, ?_⟩
    and_intros <;> first | decide +kernel | exact .inl rfl | rfl | exact .inl ⟨rfl, rfl⟩ | (intro r h; cases h)
  · refine ⟨twinw .syncing fun t => t, ?_⟩
    decide +kernel
  · refine ⟨upw fun h => (h.setTwin { h.twin with role := .standby, jseqRx := some 0 }).setFld Reg.TWIN_CFG F.TWIN_CFG_AUTO_RESYNC 1, 5, 0, ?_⟩
    decide +kernel
  · refine ⟨twinw .active fun t => t, ?_⟩
    decide +kernel
  · refine ⟨twinw .standby fun t => { t with named := [⟨0, 0, 0, 0⟩] }, ⟨0, 0, 0, 0⟩, [], ?_⟩
    decide +kernel
  · refine ⟨0, ?_⟩
    decide +kernel

theorem witness_UsbStandardRequests :
  (∃ (s : State) (fn : Bool) (x : Half) (i : Nat),
    let k := s.hub.setUdev fn { s.hub.udev fn with stall := false }
    s.hub.held = false ∧ (s.hub.udev fn).state ≠ 0 ∧ (fn = true → s.hub.fnReached = true) ∧ (fn = true → x.toNat % 128 ≠ 0) ∧
        k.reqEp fn x.toNat = some i) ∧
  (∃ (s : State) (fn : Bool) (x : Half),
    let k := s.hub.setUdev fn { s.hub.udev fn with stall := false }
    s.hub.held = false ∧ (s.hub.udev fn).state ≠ 0 ∧ (fn = true → s.hub.fnReached = true) ∧ (fn = true → x.toNat % 128 ≠ 0) ∧
        k.reqEp fn x.toNat = none) ∧
  (∃ (s : State) (fn : Bool) (x : Half), s.hub.held = false ∧ (s.hub.udev fn).state ≠ 0 ∧ (fn = true → s.hub.fnReached = true) ∧ fn = true ∧
      x.toNat % 128 = 0) ∧
  (∃ (s : State) (fn : Bool) (x : Half), s.hub.held = false ∧ (s.hub.udev fn).state ≠ 0 ∧ (fn = true → s.hub.fnReached = true) ∧ fn = false ∧
      1 ≤ x.toNat / 256 ∧ x.toNat / 256 ≤ 5) ∧
  (∃ (s : State) (fn : Bool) (x : Half), s.hub.held = false ∧ (s.hub.udev fn).state ≠ 0 ∧ (fn = true → s.hub.fnReached = true) ∧
      (fn = true ∨ x.toNat / 256 = 0 ∨ 5 < x.toNat / 256)) ∧
  (∃ (s : State) (fn : Bool) (v : Byte),
    let k := s.hub.setUdev fn { s.hub.udev fn with stall := false }
    let d := k.udev fn
    s.hub.held = false ∧ (s.hub.udev fn).state ≠ 0 ∧ (fn = true → s.hub.fnReached = true) ∧ v.toNat ≤ 1 ∧ 2 ≤ d.state) ∧
  (∃ (s : State) (fn : Bool) (v : Byte),
    let k := s.hub.setUdev fn { s.hub.udev fn with stall := false }
    let d := k.udev fn
    s.hub.held = false ∧ (s.hub.udev fn).state ≠ 0 ∧ (fn = true → s.hub.fnReached = true) ∧ (1 < v.toNat ∨ d.state < 2)) ∧
  (∃ (s : State) (fn : Bool) (b c : Byte) (x y : Half) (r : Instr), s.hub.held = false ∧ ((s.hub.udev fn).state = 0 ∨ (fn = true ∧
      s.hub.fnReached = false)) ∧ r ∈ [Instr.getStatus fn b x, .clearFeature fn b x y, .setFeature fn b x y, .setAddress fn x,
      .getDescriptor fn b c x, .getConfiguration fn, .setConfiguration fn b, .getInterface fn x, .setInterface fn x y, .unsupportedRequest fn]) := by
  refine ⟨?_, ?_, ?_, ?_, ?_, ?_, ?_, ?_⟩
  · refine ⟨upw fun h => h.setUdev false { state := 3 }, false, 0x81, 33, ?_⟩
    decide +kernel
  · refine ⟨upw fun h => h.setUdev false { state := 3 }, false, 0x05, ?_⟩
    decide +kernel
  · refine ⟨upw fun h => (((h.setFld Reg.USB_CTL F.USB_CTL_FN_EN 1).setFld Reg.GLB_STRAPS F.GLB_STRAPS_HOST_SEL 1).setUdev true { state := 3 }).setUport 7 { st := .enabled }, true, 0, ?_⟩
    decide +kernel
  · refine ⟨upw fun h => h.setUdev false { state := 3 }, false, 0x200, ?_⟩
    decide +kernel
  · refine ⟨upw fun h => h.setUdev false { state := 3 }, false, 0, ?_⟩
    decide +kernel
  · refine ⟨upw fun h => h.setUdev false { state := 3 }, false, 1, ?_⟩
    decide +kernel
  · refine ⟨upw fun h => h.setUdev false { state := 3 }, false, 2, ?_⟩
    decide +kernel
  · refine ⟨up, false, 0, 0, 0, 0, .getConfiguration false, ?_⟩
    and_intros <;> first | decide +kernel | simp | exact .inl (by decide +kernel)

theorem witness_UsbHubClassRequests :
  (∃ (s : State) (n : Byte), s.hub.held = false ∧ s.hub.usb.hub.state = 3 ∧ (n.toNat = 0 ∨ 8 < n.toNat)) ∧
  (∃ (s : State) (n : Byte), s.hub.held = false ∧ s.hub.usb.hub.state = 3 ∧ 1 ≤ n.toNat ∧ n.toNat ≤ 8 ∧
    let i := n.toNat - 1
    i = 7) ∧
  (∃ (s : State) (n w : Byte), s.hub.held = false ∧ s.hub.usb.hub.state = 3 ∧ 1 ≤ n.toNat ∧ n.toNat ≤ 8 ∧
    let i := n.toNat - 1
    (i = 7 ∨ w.toNat = 0 ∨ 5 < w.toNat)) ∧
  (∃ (s : State) (n w : Byte), s.hub.held = false ∧ s.hub.usb.hub.state = 3 ∧ 1 ≤ n.toNat ∧ n.toNat ≤ 8 ∧
    let i := n.toNat - 1
    i ≠ 7 ∧ 1 ≤ w.toNat ∧ w.toNat ≤ 5) ∧
  (∃ (s : State) (n : Byte), s.hub.held = false ∧ s.hub.usb.hub.state = 3 ∧
    let k := s.hub.setUdev false { s.hub.usb.hub with stall := false }
    1 ≤ n.toNat ∧ n.toNat ≤ 8 ∧
    let i := n.toNat - 1
    i ≠ 7 ∧ k.ttOf i = i) ∧
  (∃ (s : State) (n : Byte), s.hub.held = false ∧ s.hub.usb.hub.state = 3 ∧
    let k := s.hub.setUdev false { s.hub.usb.hub with stall := false }
    1 ≤ n.toNat ∧ n.toNat ≤ 8 ∧
    let i := n.toNat - 1
    (i = 7 ∨ k.ttOf i ≠ i)) := by
  refine ⟨?_, ?_, ?_, ?_, ?_, ?_⟩
  · refine ⟨upw fun h => h.setUdev false { state := 3 }, 0, ?_⟩
    decide +kernel
  · refine ⟨upw fun h => h.setUdev false { state := 3 }, 8, ?_⟩
    decide +kernel
  · refine ⟨upw fun h => h.setUdev false { state := 3 }, 8, 0, ?_⟩
    decide +kernel
  · refine ⟨upw fun h => (h.setUdev false { state := 3 }).setUport 0 { st := .disabled }, 1, 4, ?_⟩
    decide +kernel
  · refine ⟨upw fun h => h.setUdev false { state := 3 }, 1, ?_⟩
    decide +kernel
  · refine ⟨upw fun h => h.setUdev false { state := 3 }, 8, ?_⟩
    decide +kernel

theorem witness_UsbEventsPortsAndEndpoints :
  (∃ (s : State), s.hub.held = false ∧ s.hub.usb.vbus = false) ∧
  (∃ (s : State), s.hub.held = false ∧ s.hub.usb.vbus = true) ∧
  (∃ (s : State), s.hub.held = true) ∧
  (∃ (s : State), s.hub.held = false ∧ s.hub.attached = false) ∧
  (∃ (i : Nat), i < 8) ∧
  (∃ (s : State) (w : Word) (e d r : Nat), s.hub.held = false ∧ s.hub.flag Reg.USB_CTL F.USB_CTL_ATTACH = false ∧ bits w F.USB_CTL_ATTACH = 1 ∧
      s.hub.epCheck = some (e, d, r)) ∧
  (∃ (s : State) (w : Word), s.hub.held = false ∧ s.hub.flag Reg.USB_CTL F.USB_CTL_ATTACH = false ∧ s.hub.usbEn = true ∧ bits w F.USB_CTL_ATTACH = 1 ∧
      s.hub.epCheck = none) ∧
  (∃ (s : State) (w : Word), s.hub.held = false ∧ s.hub.attached = true ∧ s.hub.usbEn = true ∧ bits w F.USB_CTL_ATTACH = 0) ∧
  (∃ (s : State), s.hub.held = false ∧ s.hub.attached = true ∧ s.hub.usb.suspAt = none) ∧
  (∃ (s : State) (t t0 : Nat), s.hub.held = false ∧ s.hub.usb.wakeAt = some t ∧ s.hub.usb.suspAt = some t0 ∧ t + tuMs ≤ s.hub.now ∧
      t0 + 5 * tuMs ≤ s.hub.now ∧ s.hub.usb.kAt = none) ∧
  (∃ (h : Hub) (t : Nat), h.usb.kAt = some t) ∧
  (∃ (s : State) (t : Nat), s.hub.held = false ∧ s.hub.usb.suspAt = some t ∧ s.hub.usb.kAt = none) ∧
  (∃ (h : Hub) (i : Nat), i ∈ h.usb.kPorts ∧ (h.uport i).st = .suspended) ∧
  (∃ (s : State) (i : Fin 7), s.hub.held = false ∧ (s.hub.uport i).st = .disconnected) ∧
  (∃ (s : State) (i : Fin 7), s.hub.held = false ∧ ((s.hub.uport i).st = .disabled ∨ (s.hub.uport i).st = .enabled ∨ (s.hub.uport i).st = .suspended ∨ (s.hub.uport i).st = .resuming)) ∧
  (∃ (s : State) (i : Fin 8), s.hub.held = false ∧ (s.hub.uport i).st = .resetting ∧ (s.hub.uport i).at_ + 10 * tuMs ≤ s.hub.now) ∧
  (∃ (s : State) (i : Fin 8), s.hub.held = false ∧ (s.hub.uport i).st = .suspended ∧ s.hub.usb.suspAt = none) ∧
  (∃ (s : State) (i : Fin 8), s.hub.held = false ∧ s.hub.usb.suspAt.isSome = true ∧ (s.hub.uport i).st = .enabled) ∧
  (∃ (s : State) (i : Fin 8), s.hub.held = false ∧ s.hub.usb.suspAt.isSome = true ∧ (s.hub.uport i).st = .suspended ∧
      s.hub.usb.kPorts.contains i.val = false) ∧
  (∃ (s : State) (i : Fin 8), s.hub.held = false ∧ (s.hub.uport i).st = .resuming ∧ (s.hub.uport i).at_ + 20 * tuMs ≤ s.hub.now) ∧
  (∃ (s : State) (e : Fin 16) (bs : List Byte),
    let serves := fun (d svc : Nat) => e ≠ 0 ∧ s.hub.usb.fn.state = 3 ∧ s.hub.fnReached = true ∧ s.hub.epOn e d = true ∧ s.hub.epSvc e d = svc
    let live := fun (d : Nat) => (s.hub.uep (2 * e + d)).halted = false ∧ s.hub.svcUp e d = true
    s.hub.held = false ∧ serves 0 1 ∧ live 0 ∧ bs.length ≤ s.hub.epMps e 0) ∧
  (∃ (s : State) (e : Fin 16),
    let serves := fun (d svc : Nat) => e ≠ 0 ∧ s.hub.usb.fn.state = 3 ∧ s.hub.fnReached = true ∧ s.hub.epOn e d = true ∧ s.hub.epSvc e d = svc
    let live := fun (d : Nat) => (s.hub.uep (2 * e + d)).halted = false ∧ s.hub.svcUp e d = true
    s.hub.held = false ∧ serves 1 2 ∧ live 1) ∧
  (∃ (s : State) (e : Fin 16),
    let serves := fun (d svc : Nat) => e ≠ 0 ∧ s.hub.usb.fn.state = 3 ∧ s.hub.fnReached = true ∧ s.hub.epOn e d = true ∧ s.hub.epSvc e d = svc
    let live := fun (d : Nat) => (s.hub.uep (2 * e + d)).halted = false ∧ s.hub.svcUp e d = true
    s.hub.held = false ∧ serves 1 3 ∧ live 1) ∧
  (∃ (s : State) (e : Fin 16) (bs : List Byte),
    let serves := fun (d svc : Nat) => e ≠ 0 ∧ s.hub.usb.fn.state = 3 ∧ s.hub.fnReached = true ∧ s.hub.epOn e d = true ∧ s.hub.epSvc e d = svc
    let live := fun (d : Nat) => (s.hub.uep (2 * e + d)).halted = false ∧ s.hub.svcUp e d = true
    s.hub.held = false ∧ serves 0 4 ∧ live 0 ∧ (s.hub.uep (2 * e + 1)).data = [] ∧ pointReqOk bs = false) ∧
  (∃ (s : State) (e : Fin 16) (bs : List Byte),
    let serves := fun (d svc : Nat) => e ≠ 0 ∧ s.hub.usb.fn.state = 3 ∧ s.hub.fnReached = true ∧ s.hub.epOn e d = true ∧ s.hub.epSvc e d = svc
    let live := fun (d : Nat) => (s.hub.uep (2 * e + d)).halted = false ∧ s.hub.svcUp e d = true
    s.hub.held = false ∧ serves 0 4 ∧ live 0 ∧ (s.hub.uep (2 * e + 1)).data = [] ∧ pointReqOk bs = true) ∧
  (∃ (s : State) (e : Fin 16),
    let serves := fun (d svc : Nat) => e ≠ 0 ∧ s.hub.usb.fn.state = 3 ∧ s.hub.fnReached = true ∧ s.hub.epOn e d = true ∧ s.hub.epSvc e d = svc
    let live := fun (d : Nat) => (s.hub.uep (2 * e + d)).halted = false ∧ s.hub.svcUp e d = true
    s.hub.held = false ∧ serves 1 4 ∧ live 1) := by
  refine ⟨?_, ?_, ?_, ?_, ?_, ?_, ?_, ?_, ?_, ?_, ?_, ?_, ?_, ?_, ?_, ?_, ?_, ?_, ?_, ?_, ?_, ?_, ?_, ?_, ?_, ?_⟩
  · refine ⟨up, ?_⟩
    decide +kernel
  · refine ⟨upw fun h => { h with usb := { h.usb with vbus := true } }, ?_⟩
    decide +kernel
  · refine ⟨State.reset, ?_⟩
    decide +kernel
  · refine ⟨up, ?_⟩
    decide +kernel
  · refine ⟨0, ?_⟩
    decide +kernel
  · refine ⟨upw fun h => h.wr (Reg.USB_EP_CFG 1 0) (putBits 0 F.USB_EP_CFG_EN 1), word (2 ^ (F.USB_CTL_ATTACH).1), 1, 0, 1, ?_⟩
    decide +kernel
  · refine ⟨upw fun h => h.setFld Reg.USB_CTL F.USB_CTL_EN 1, word (2 ^ (F.USB_CTL_ATTACH).1), ?_⟩
    decide +kernel
  · refine ⟨upw fun h => ({ h with usb := { h.usb with vbus := true } }.setFld Reg.USB_CTL F.USB_CTL_ATTACH 1).setFld Reg.USB_CTL F.USB_CTL_EN 1,
      word (2 ^ (F.USB_CTL_EN).1), ?_⟩
    decide +kernel
  · refine ⟨upw fun h => ({ h with usb := { h.usb with vbus := true } }.setFld Reg.USB_CTL F.USB_CTL_ATTACH 1), ?_⟩
    decide +kernel
  · refine ⟨upw fun h => { h with usb := { h.usb with suspAt := some 0, wakeAt := some 0 } }, 0, 0, ?_⟩
    decide +kernel
  · refine ⟨{ upHub with usb := { upHub.usb with kAt := some 0 } }, 0, ?_⟩
    decide +kernel
  · refine ⟨upw fun h => { h with usb := { h.usb with suspAt := some 0 } }, 0, ?_⟩
    decide +kernel
  · refine ⟨({ upHub with usb := { upHub.usb with kPorts := [0] } } : Hub).setUport 0 { st := .suspended }, 0, ?_⟩
    decide +kernel
  · refine ⟨upw fun h => h.setUport 0 { st := .disconnected }, 0, ?_⟩
    decide +kernel
  · refine ⟨upw fun h => h.setUport 0 { st := .disabled }, 0, ?_⟩
    decide +kernel
  · refine ⟨upw fun h => h.setUport 0 { st := .resetting }, 0, ?_⟩
    decide +kernel
  · refine ⟨upw fun h => h.setUport 0 { st := .suspended }, 0, ?_⟩
    decide +kernel
  · refine ⟨upw fun h => { h with usb := { h.usb with suspAt := some 0 } }.setUport 0 { st := .enabled }, 0, ?_⟩
    decide +kernel
  · refine ⟨upw fun h => { h with usb := { h.usb with suspAt := some 0 } }.setUport 0 { st := .suspended }, 0, ?_⟩
    decide +kernel
  · refine ⟨upw fun h => h.setUport 0 { st := .resuming }, 0, ?_⟩
    decide +kernel
  · refine ⟨usbFn 0 1 fun h => (h.setFld (Reg.HQ_CFG 0) F.HQ_CFG_EN 1).setFld (Reg.HQ_CFG 0) F.HQ_CFG_PATH 2, 1, [], ?_⟩
    decide +kernel
  · refine ⟨usbFn 1 2 fun h => (h.setFld (Reg.HQ_CFG 0) F.HQ_CFG_EN 1).setFld (Reg.HQ_CFG 0) F.HQ_CFG_PATH 2, 1, ?_⟩
    decide +kernel
  · refine ⟨usbFn 1 3 fun h => h, 1, ?_⟩
    decide +kernel
  · refine ⟨usbFn 0 4 fun h => h.setFld Reg.PTM_CTL F.PTM_CTL_EN 1, 1, [], ?_⟩
    decide +kernel
  · refine ⟨usbFn 0 4 fun h => h.setFld Reg.PTM_CTL F.PTM_CTL_EN 1, 1, [0, 0, 0, 0, 0, 1, 0, 0], ?_⟩
    decide +kernel
  · refine ⟨usbFn 1 4 fun h => h.setFld Reg.PTM_CTL F.PTM_CTL_EN 1, 1, ?_⟩
    decide +kernel

theorem witness_NetChannels :
  (∃ (n m : Nat), n < 16 ∧ m ≠ n) ∧
  (∃ (s : State) (n : Fin 16) (mv us vout ms : Half) (vgs : Byte) (codes : List (BitVec 10)) (r : Instr) (x : NetHap), (r,
      x) ∈ [(Instr.netCardPresent n, NetHap.present), (.netCardAbsent n, .absent), (.netVsWindowChange n mv, .vs mv.toNat), (.netInsertDelayEnd n,
      .insertEnd), (.netRetryWaitEnd n, .retryEnd), (.netRetriesReset n, .retriesReset), (.netRampTimeout n, .rampTmo), (.netRampDone n vout,
      .rampDone vout.toNat), (.netGateRiseDone n vout vgs, .riseDone vout.toNat vgs.toNat), (.netPgLoss n vout vgs, .pgLoss vout.toNat vgs.toNat),
      (.netGriseTimeout n vgs, .grise vgs.toNat), (.netGateLowFault n vgs us, .gateLow vgs.toNat us.toNat), (.netDsShort n vout ms,
      .ds vout.toNat ms.toNat), (.netHardShort n mv, .short mv.toNat), (.netSoaTrip n us, .soa us.toNat), (.netCurveTrip n codes, .curve codes)] ∧
      s.hub.glb.inCold = true ∧ s.hub.net.hold = false) ∧
  (∃ (s : State) (n : Fin 16) (mv us vout ms : Half) (vgs : Byte) (codes : List (BitVec 10)) (r : Instr) (x : NetHap), (r,
      x) ∈ [(Instr.netCardPresent n, NetHap.present), (.netCardAbsent n, .absent), (.netVsWindowChange n mv, .vs mv.toNat), (.netInsertDelayEnd n,
      .insertEnd), (.netRetryWaitEnd n, .retryEnd), (.netRetriesReset n, .retriesReset), (.netRampTimeout n, .rampTmo), (.netRampDone n vout,
      .rampDone vout.toNat), (.netGateRiseDone n vout vgs, .riseDone vout.toNat vgs.toNat), (.netPgLoss n vout vgs, .pgLoss vout.toNat vgs.toNat),
      (.netGriseTimeout n vgs, .grise vgs.toNat), (.netGateLowFault n vgs us, .gateLow vgs.toNat us.toNat), (.netDsShort n vout ms,
      .ds vout.toNat ms.toNat), (.netHardShort n mv, .short mv.toNat), (.netSoaTrip n us, .soa us.toNat), (.netCurveTrip n codes, .curve codes)] ∧
      (s.hub.glb.inCold = false ∨ s.hub.net.hold = true)) ∧
  (∃ (h : Hub), h.net.inbox = []) ∧
  (∃ (h : Hub) (n : Nat) (x : NetHap), h.net.inbox = [(n, x)]) ∧
  (∃ (h : Hub) (n mv vout ms : Nat), h.net.inbox = [(n, .short mv), (n, .ds vout ms)]) ∧
  (∃ (h : Hub) (n mv : Nat), n < 16 ∧ h.net.inbox = [(n, .cmdOff), (n, .short mv)] ∧ (h.net1 n).st = .on ∧
      h.fld (Reg.NET_N_CFG n) F.NET_N_CFG_SHORT_MV ≤ mv) ∧
  (∃ (h : Hub) (n : Nat),
    let x := h.net1 n
    h.netCfg n F.NET_N_CFG_PRES_EN = true ∧ x.present = false) ∧
  (∃ (h : Hub) (n : Nat),
    let x := h.net1 n
    h.netCfg n F.NET_N_CFG_PRES_EN = true ∧ x.present = true ∧ x.st ≠ .off ∧ x.st ≠ .removed ∧ (¬ (x.st = .latched ∧ x.board = true))) ∧
  (∃ (h : Hub) (n mv : Nat), (h.net1 n).st.driven = true ∧ mv ≤ h.netUv n) ∧
  (∃ (h : Hub) (n mv : Nat), (h.net1 n).st.driven = true ∧ h.netUv n < mv ∧ h.netOv n ≤ mv) ∧
  (∃ (h : Hub) (n mv : Nat), (h.net1 n).st = .waitWindow ∧ h.netUv n < mv ∧ mv < h.netOv n) ∧
  (∃ (h : Hub) (n : Nat),
    let x := h.net1 n
    x.st = .insertDelay ∧ x.at_ + h.netMs (Reg.NET_N_TIME n) F.NET_N_TIME_INSERT_MS ≤ h.now) ∧
  (∃ (h : Hub) (n : Nat),
    let x := h.net1 n
    x.st = .retryWait ∧ x.at_ + h.netMs (Reg.NET_N_RETRY n) F.NET_N_RETRY_RETRY_MS ≤ h.now) ∧
  (∃ (h : Hub) (n : Nat),
    let x := h.net1 n
    x.st = .on ∧ x.pg = true ∧ x.pgAt + h.netDur (10 * tuS) ≤ h.now) ∧
  (∃ (h : Hub) (n : Nat),
    let x := h.net1 n
    (x.st = .ramp ∨ x.st = .gateRise) ∧ x.rampAt + h.netMs (Reg.NET_N_TIME n) F.NET_N_TIME_RAMP_TMO_MS ≤ h.now) ∧
  (∃ (h : Hub) (n vout : Nat),
    let x := h.net1 n
    x.st = .ramp ∧ x.vs ≤ vout + 500) ∧
  (∃ (h : Hub) (n vout vgs : Nat),
    let x := h.net1 n
    x.st = .gateRise ∧ x.vs ≤ vout + 500 ∧ 80 ≤ vgs) ∧
  (∃ (h : Hub) (n vout vgs : Nat),
    let x := h.net1 n
    x.st = .on ∧ (vout + 500 < x.vs ∨ (h.inPulse n = false ∧ vgs < 80))) ∧
  (∃ (h : Hub) (n vgs : Nat),
    let x := h.net1 n
    x.st = .gateRise ∧ x.riseAt + h.netGrise n ≤ h.now ∧ vgs < 40) ∧
  (∃ (h : Hub) (n vgs us : Nat),
    let x := h.net1 n
    x.st = .on ∧ vgs < 40 ∧ 100 ≤ us) ∧
  (∃ (h : Hub) (n vout ms : Nat),
    let x := h.net1 n
    x.st ≠ .off ∧ x.st.driven = false ∧ h.netInWindow n = true ∧ x.vs ≤ 2 * vout ∧ h.fld (Reg.NET_N_GATE n) F.NET_N_GATE_DS_MS ≤ ms ∧
        (¬ (x.st = .latched ∧ x.board = true))) ∧
  (∃ (h : Hub) (n : Nat),
    let x := h.net1 n
    x.st.driven = true) ∧
  (∃ (h : Hub) (n : Nat) (code : BitVec 10) (p : Nat),
    let x := h.net1 n
    let counts := (List.range 8).map fun p => if h.curveOn n p = true ∧
        h.fld (Reg.NET_N_CURVE n p) F.NET_N_CURVE_LEVEL < code.toNat then x.counts.getD p 0 + 1 else 0
    (x.st = .gateRise ∨ x.st = .on) ∧ h.inPulse n = false ∧
        ((List.range 8).find? fun p => h.curveOn n p && decide (h.curveTime n p < counts.getD p 0)) = some p) ∧
  (∃ (h : Hub) (n : Nat) (code : BitVec 10),
    let x := h.net1 n
    let counts := (List.range 8).map fun p => if h.curveOn n p = true ∧
        h.fld (Reg.NET_N_CURVE n p) F.NET_N_CURVE_LEVEL < code.toNat then x.counts.getD p 0 + 1 else 0
    (x.st = .gateRise ∨ x.st = .on) ∧ h.inPulse n = false ∧
        ((List.range 8).find? fun p => h.curveOn n p && decide (h.curveTime n p < counts.getD p 0)) = none) := by
  refine ⟨?_, ?_, ?_, ?_, ?_, ?_, ?_, ?_, ?_, ?_, ?_, ?_, ?_, ?_, ?_, ?_, ?_, ?_, ?_, ?_, ?_, ?_, ?_, ?_, ?_⟩
  · refine ⟨0, 1, ?_⟩
    decide +kernel
  · refine ⟨State.reset, 0, 0, 0, 0, 0, 0, [], .netCardPresent 0, .present, ?_⟩
    and_intros <;> first | decide +kernel | exact List.mem_cons_self
  · refine ⟨up, 0, 0, 0, 0, 0, 0, [], .netCardPresent 0, .present, ?_⟩
    and_intros <;> first | exact .inl rfl | decide +kernel | exact List.mem_cons_self
  · refine ⟨up.hub, ?_⟩
    decide +kernel
  · refine ⟨{ upHub with net := { upHub.net with inbox := [(0, .present)] } }, 0, .present, ?_⟩
    decide +kernel
  · refine ⟨{ upHub with net := { upHub.net with inbox := [(0, .short 0), (0, .ds 0 0)] } }, 0, 0, 0, 0, ?_⟩
    decide +kernel
  · refine ⟨({ upHub with net := { upHub.net with inbox := [(0, .cmdOff), (0, .short 200)] } } : Hub).setNet 0 { st := .on }, 0, 200, ?_⟩
    decide +kernel
  · refine ⟨(upw fun h => (h.setFld (Reg.NET_N_CFG 0) F.NET_N_CFG_PRES_EN 1).setNet 0 {}).hub, 0, ?_⟩
    decide +kernel
  · refine ⟨(upw fun h => (h.setFld (Reg.NET_N_CFG 0) F.NET_N_CFG_PRES_EN 1).setNet 0 { present := true, st := .on }).hub, 0, ?_⟩
    decide +kernel
  · refine ⟨(upw fun h => ((h.setFld (Reg.NET_N_VWIN 0) F.NET_N_VWIN_UV 10).setFld (Reg.NET_N_VWIN 0) F.NET_N_VWIN_OV 100).setNet 0 { st := .on }).hub, 0, 100, ?_⟩
    decide +kernel
  · refine ⟨(upw fun h => ((h.setFld (Reg.NET_N_VWIN 0) F.NET_N_VWIN_UV 10).setFld (Reg.NET_N_VWIN 0) F.NET_N_VWIN_OV 100).setNet 0 { st := .on }).hub, 0, 25000, ?_⟩
    decide +kernel
  · refine ⟨(upw fun h => ((h.setFld (Reg.NET_N_VWIN 0) F.NET_N_VWIN_UV 10).setFld (Reg.NET_N_VWIN 0) F.NET_N_VWIN_OV 100).setNet 0 { st := .waitWindow }).hub, 0, 12000, ?_⟩
    decide +kernel
  · refine ⟨(upw fun h => h.setNet 0 { st := .insertDelay }).hub, 0, ?_⟩
    decide +kernel
  · refine ⟨(upw fun h => h.setNet 0 { st := .retryWait }).hub, 0, ?_⟩
    decide +kernel
  · refine ⟨(upw fun h => h.setNet 0 { st := .on, pg := true }).hub, 0, ?_⟩
    decide +kernel
  · refine ⟨(upw fun h => h.setNet 0 { st := .ramp }).hub, 0, ?_⟩
    decide +kernel
  · refine ⟨(upw fun h => h.setNet 0 { st := .ramp, vs := 12000 }).hub, 0, 12000, ?_⟩
    decide +kernel
  · refine ⟨(upw fun h => h.setNet 0 { st := .gateRise, vs := 12000 }).hub, 0, 12000, 80, ?_⟩
    decide +kernel
  · refine ⟨(upw fun h => h.setNet 0 { st := .on, vs := 12000 }).hub, 0, 0, 0, ?_⟩
    decide +kernel
  · refine ⟨(upw fun h => h.setNet 0 { st := .gateRise }).hub, 0, 0, ?_⟩
    decide +kernel
  · refine ⟨(upw fun h => h.setNet 0 { st := .on }).hub, 0, 0, 100, ?_⟩
    decide +kernel
  · refine ⟨(upw fun h => ((h.setFld (Reg.NET_N_VWIN 0) F.NET_N_VWIN_UV 10).setFld (Reg.NET_N_VWIN 0) F.NET_N_VWIN_OV 100).setNet 0 { st := .retryWait, vs := 12000 }).hub, 0, 12000, 60000, ?_⟩
    decide +kernel
  · refine ⟨(upw fun h => h.setNet 0 { st := .on }).hub, 0, ?_⟩
    decide +kernel
  · refine ⟨(upw fun h => ((h.setFld (Reg.NET_N_CURVE 0 0) F.NET_N_CURVE_EN 1).setFld (Reg.NET_N_CURVE 0 0) F.NET_N_CURVE_LEVEL 10).setNet 0 { st := .on, counts := [5] }).hub, 0, 20, 0, ?_⟩
    decide +kernel
  · refine ⟨(upw fun h => h.setNet 0 { st := .on }).hub, 0, 0, ?_⟩
    decide +kernel

theorem witness_NetCommandsAndDie :
  (∃ (s : State) (src : CmdSrc) (tag : Byte) (mask : Word) (r : Instr) (op : Nat) (x : NetHap), (r, op, x) ∈ [(Instr.netOn src tag mask, 0x0B01,
      NetHap.cmdOn), (.netOff src tag mask, 0x0B02, .cmdOff), (.netClear src tag mask, 0x0B03, .cmdClear)] ∧
    let c := mkCmd src op tag [mask]
    let m := mask.toNat
    Accepts s c ∧ m < 65536 ∧ (∀ n, n < 16 → testBit m n = true → (x = .cmdOn → s.hub.netSettingsOk n = true ∧ (s.hub.netSeen n).canOn = true ∧
        s.hub.netOwned n = false) ∧ (x = .cmdOff → (s.hub.netSeen n).st.stopped = false ∧ s.hub.netOwned n = false) ∧
        (x = .cmdClear → (s.hub.netSeen n).st = .latched))) ∧
  (∃ (h : Hub) (n : Nat), (∀ x, x ∈ h.net.inbox → x.1 ≠ n)) ∧
  (∃ (h : Hub) (n : Nat),
    let x := h.net1 n
    x.canOn = true) ∧
  (∃ (h : Hub) (n : Nat),
    let x := h.net1 n
    x.canOn = false) ∧
  (∃ (h : Hub) (n : Nat),
    let x := h.net1 n
    x.st.stopped = false) ∧
  (∃ (h : Hub) (n : Nat),
    let x := h.net1 n
    x.st = .latched ∧ x.board = false) ∧
  (∃ (n m : Nat) (y : NetHap), m ≠ n ∧ y ∈ [NetHap.cmdOn, .cmdOff, .cmdClear]) ∧
  (∃ (s : State), (s.hub.glb.inCold = false ∨ s.hub.net.hold = true)) ∧
  (∃ (mv : Half), mv.toNat < 4000) ∧
  (∃ (mv : Half), 4000 ≤ mv.toNat) ∧
  (∃ (s : State) (src : CmdSrc) (tag : Byte) (nw w : Word),
    let c := mkCmd src 0x0C03 tag [nw, w]
    let n := nw.toNat
    Accepts s c ∧ n < 16 ∧ w.toNat ≠ 0 ∧ w.toNat ≤ 100 ∧ (s.hub.netSeen n).st = .on ∧ s.hub.host.maint = .idle) ∧
  (∃ (s : State) (n w t0 : Nat) (ref : CmdRef), s.hub.held = false ∧ s.hub.host.maint = .gate n w t0 ref ∧ t0 + w * tuUs ≤ s.hub.now) ∧
  (∃ (h : Hub) (n : Nat), (h.net1 n).st = .on) := by
  refine ⟨?_, ?_, ?_, ?_, ?_, ?_, ?_, ?_, ?_, ?_, ?_, ?_, ?_⟩
  · refine ⟨upw fun h => (h.setFld (Reg.NET_N_VWIN 0) F.NET_N_VWIN_UV 18).setFld (Reg.NET_N_VWIN 0) F.NET_N_VWIN_OV 100, .script, 0, 1,
      .netOn .script 0 1, 0x0B01, .cmdOn, ?_⟩
    dsimp only [Accepts, mkCmd]
    and_intros <;> first | exact List.mem_cons_self | decide +kernel
  · refine ⟨up.hub, 0, ?_⟩
    decide +kernel
  · refine ⟨up.hub, 0, ?_⟩
    decide +kernel
  · refine ⟨(upHub.setNet 0 { st := .on }), 0, ?_⟩
    decide +kernel
  · refine ⟨(upHub.setNet 0 { st := .on }), 0, ?_⟩
    decide +kernel
  · refine ⟨(upHub.setNet 0 { st := .latched }), 0, ?_⟩
    decide +kernel
  · refine ⟨0, 1, .cmdOn, ?_⟩
    exact ⟨by decide, List.mem_cons_self⟩
  · refine ⟨up, ?_⟩
    decide +kernel
  · refine ⟨0, ?_⟩
    decide +kernel
  · refine ⟨4000, ?_⟩
    decide +kernel
  · refine ⟨upw fun h => h.setNet 0 { st := .on }, .script, 0, 0, 10, ?_⟩
    dsimp only [Accepts, mkCmd]
    decide +kernel
  · refine ⟨upw fun h => { h with host := { h.host with maint := .gate 0 10 0 { src := .script, code := 0xC03, tag := 0 } } }, 0, 10, 0,
      { src := .script, code := 0xC03, tag := 0 }, ?_⟩
    decide +kernel
  · refine ⟨(upHub.setNet 0 { st := .on }), 0, ?_⟩
    decide +kernel

theorem witness_RegisterAccesses :
  (∃ (a : Nat) (live : Bool) (f : RegField), f ∈ fieldsAt a ∧ (f.acc = .rw ∨ (f.acc = .rwl ∧ live = false))) ∧
  (∃ (a : Nat) (f : RegField) (i : Nat), f ∈ fieldsAt a ∧ f.acc = .w1c ∧ i < f.width) ∧
  (∃ (a : Nat) (live : Bool) (f : RegField), f ∈ fieldsAt a ∧ (f.acc = .ro ∨ f.acc = .wo ∨ f.acc = .sc ∨ (f.acc = .rwl ∧ live = true))) ∧
  (∃ (s : State) (p : HostPath) (a : BitVec 20), s.hub.held = false ∧ s.hub.writeOpen p a.toNat = true ∧ a.toNat % 4 = 0 ∧
      s.hub.laterWord p a.toNat = none ∧ a.toNat < 0x4000 ∧ a.toNat ≠ Reg.GLB_CLK_CTL) ∧
  (∃ (s : State) (p : HostPath) (a : BitVec 20),
    let n := (a.toNat - 0x40000) / 0x100
    s.hub.held = false ∧ s.hub.writeOpen p a.toNat = true ∧ a.toNat % 4 = 0 ∧ s.hub.laterWord p a.toNat = none ∧ 0x40000 ≤ a.toNat ∧
        a.toNat < 0x46000 ∧ a.toNat ∉ [Reg.LN_DOUT n, Reg.LN_PINCFG n, Reg.LN_RXQ_STAT n, Reg.LN_TXQ_STAT n]) ∧
  (∃ (s : State) (p : HostPath) (a : BitVec 20),
    let e := (a.toNat - 0x48000) / 0x80
    s.hub.held = false ∧ s.hub.writeOpen p a.toNat = true ∧ a.toNat % 4 = 0 ∧ s.hub.laterWord p a.toNat = none ∧ 0x48000 ≤ a.toNat ∧
        a.toNat < 0x49000 ∧ a.toNat ∉ [Reg.FR_CTL e, Reg.FR_TXQ_PUSH e, Reg.FR_TXQ_STAT e, Reg.FR_RXQ_STAT e]) ∧
  (∃ (s : State) (p : HostPath) (a : BitVec 20),
    let c := (a.toNat - 0x50000) / 0x400
    s.hub.held = false ∧ s.hub.writeOpen p a.toNat = true ∧ a.toNat % 4 = 0 ∧ s.hub.laterWord p a.toNat = none ∧ 0x50000 ≤ a.toNat ∧
        a.toNat < 0x58000 ∧ a.toNat ∉ [Reg.CAN_TXQ_PUSH c, Reg.CAN_TXQ_STAT c, Reg.CAN_RXQ_STAT c]) ∧
  (∃ (s : State) (p : HostPath) (a : BitVec 20) (x : Word) (f : RegField), s.hub.held = false ∧ s.hub.writeOpen p a.toNat = true ∧ a.toNat % 4 = 0 ∧
      s.hub.laterWord p a.toNat = some x ∧ (fieldsAt a.toNat).Pairwise (fun f g => f.lo + f.width ≤ g.lo) ∧
      (∀ f ∈ fieldsAt a.toNat, f.lo + f.width ≤ 32) ∧ f ∈ fieldsAt a.toNat) ∧
  (∃ (s : State) (p : HostPath) (a : BitVec 20) (be : BitVec 4), s.hub.held = false ∧ s.hub.pathOn p = true ∧ (a.toNat % 4 ≠ 0 ∨ be ≠ 15)) ∧
  (∃ (s : State) (p : HostPath) (a : BitVec 20), s.hub.held = false ∧ s.hub.writeOpen p a.toNat = false ∧ a.toNat % 4 = 0) ∧
  (∃ (s : State) (addr : Word), s.hub.held = false ∧ s.hub.pathOn .qspi = true ∧ s.hub.hostOpen = true ∧ addr.toNat < 2 ^ 20 ∧ addr.toNat % 4 = 0 ∧
      addr.toNat ≠ Reg.CAR_SCR_DATA) ∧
  (∃ (s : State) (addr : Word), s.hub.held = false ∧ s.hub.pathOn .qspi = true ∧ s.hub.hostOpen = true ∧ addr.toNat < 2 ^ 20 ∧ addr.toNat % 4 = 0 ∧
      addr.toNat = Reg.CAR_SCR_DATA) ∧
  (∃ (s : State) (addr : Word) (bs : List Byte), s.hub.held = false ∧ s.hub.pathOn .qspi = true ∧ s.hub.hostOpen = true ∧ addr.toNat < 2 ^ 20 ∧
      addr.toNat % 4 = 0 ∧ bs.length = 4) ∧
  (∃ (s : State) (addr : Word), s.hub.held = false ∧ s.hub.pathOn .qspi = true ∧ 2 ^ 21 ≤ addr.toNat) ∧
  (∃ (s : State) (op : Byte), s.hub.held = false ∧ s.hub.pathOn .qspi = true ∧ op ≠ 0x38) ∧
  (∃ (s : State) (addr : Word) (n : Nat), s.hub.held = false ∧ s.hub.pathOn .qspi = true ∧ addr.toNat < 2 ^ 20 ∧ 2 ^ 20 < addr.toNat + n) := by
  refine ⟨?_, ?_, ?_, ?_, ?_, ?_, ?_, ?_, ?_, ?_, ?_, ?_, ?_, ?_, ?_, ?_⟩
  · refine ⟨Reg.LN_CRC 0, false, { lo := 0, width := 4, acc := .rwl }, ?_⟩
    decide +kernel
  · refine ⟨Reg.LN_EVT 0, { lo := 0, width := 1, acc := .w1c }, 0, ?_⟩
    decide +kernel
  · refine ⟨Reg.LN_CRC 0, true, { lo := 0, width := 4, acc := .rwl }, ?_⟩
    decide +kernel
  · refine ⟨up, .core, 0x10, ?_⟩
    decide +kernel
  · refine ⟨up, .core, 0x40020, ?_⟩
    decide +kernel
  · refine ⟨up, .core, 0x48008, ?_⟩
    decide +kernel
  · refine ⟨up, .core, 0x50000, ?_⟩
    decide +kernel
  · refine ⟨bootw fun h => { h.setFld Reg.GLB_STRAPS F.GLB_STRAPS_HOST_SEL 1 with host := { h.host with wrote := [(true, Reg.LN_CRC 0, 5)], pcieUp := true } }, .pcie, BitVec.ofNat 20 (Reg.LN_CRC 0), 5, { lo := 0, width := 4, acc := .rwl }, ?_⟩
    decide +kernel
  · refine ⟨up, .core, 0, 1, ?_⟩
    decide +kernel
  · refine ⟨up, .pcie, 0, ?_⟩
    decide +kernel
  · refine ⟨bootw fun h => h.setFld Reg.GLB_STRAPS F.GLB_STRAPS_HOST_SEL 2, 0, ?_⟩
    decide +kernel
  · refine ⟨bootw fun h => h.setFld Reg.GLB_STRAPS F.GLB_STRAPS_HOST_SEL 2, word Reg.CAR_SCR_DATA, ?_⟩
    decide +kernel
  · refine ⟨bootw fun h => h.setFld Reg.GLB_STRAPS F.GLB_STRAPS_HOST_SEL 2, 0, [0, 0, 0, 0], ?_⟩
    decide +kernel
  · refine ⟨bootw fun h => h.setFld Reg.GLB_STRAPS F.GLB_STRAPS_HOST_SEL 2, 0x200000, ?_⟩
    decide +kernel
  · refine ⟨bootw fun h => h.setFld Reg.GLB_STRAPS F.GLB_STRAPS_HOST_SEL 2, 0x39, ?_⟩
    decide +kernel
  · refine ⟨bootw fun h => h.setFld Reg.GLB_STRAPS F.GLB_STRAPS_HOST_SEL 2, 0xFFFFC, 8, ?_⟩
    decide +kernel

theorem witness_CommandQueuesAndChecks :
  (∃ (s : State) (q : Fin 4) (p : HostPath), s.hub.held = false ∧ s.hub.pathOpen p = true ∧ s.hub.ownsQueue p q = false) ∧
  (∃ (s : State) (q : Fin 4) (p : HostPath) (w : Word),
    let t := bits w F.HQ_CMD_TAIL
    let room := (t + 32 - s.hub.fld (Reg.HQ_CMD q) F.HQ_CMD_HEAD) % 32
    s.hub.held = false ∧ s.hub.pathOpen p = true ∧ s.hub.ownsQueue p q = true ∧ 16 < room) ∧
  (∃ (s : State) (q : Fin 4) (p : HostPath) (w : Word),
    let t := bits w F.HQ_CMD_TAIL
    let room := (t + 32 - s.hub.fld (Reg.HQ_CMD q) F.HQ_CMD_HEAD) % 32
    s.hub.held = false ∧ s.hub.pathOpen p = true ∧ s.hub.ownsQueue p q = true ∧ room ≤ 16) ∧
  (∃ (s : State) (q : Fin 4) (p : HostPath) (w : Word),
    let t := bits w F.HQ_RSP_HEAD
    let n := (t + 32 - s.hub.fld (Reg.HQ_RSP q) F.HQ_RSP_HEAD) % 32
    s.hub.held = false ∧ s.hub.pathOpen p = true ∧ (s.hub.ownsQueue p q = false ∨ s.hub.hqUnread q < n)) ∧
  (∃ (s : State) (q : Fin 4) (p : HostPath) (w : Word),
    let t := bits w F.HQ_RSP_HEAD
    let n := (t + 32 - s.hub.fld (Reg.HQ_RSP q) F.HQ_RSP_HEAD) % 32
    s.hub.held = false ∧ s.hub.pathOpen p = true ∧ s.hub.ownsQueue p q = true ∧ n ≤ s.hub.hqUnread q) ∧
  (∃ (s : State) (q : Fin 4), s.hub.held = false ∧ s.hub.flag (Reg.HQ_CFG q) F.HQ_CFG_EN = true) ∧
  (∃ (h : Hub) (q j : Nat), h.host.lastQ < 4 ∧ 1 ≤ j ∧ j < (q + 3 - h.host.lastQ) % 4 + 1) ∧
  (∃ (s : State) (q : Fin 4), s.hub.held = false ∧ s.hub.nextQueue = some q.val) ∧
  (∃ (h : Hub) (c : CmdIn) (st d o : Nat), h.served c = true ∧ h.precheck c = some (st, d, o) ∧ (∀ q, c.src = .queue q → h.twin.role ≠ .active)) ∧
  (∃ (h : Hub) (c : CmdIn),
    let ver := match c.src with | .script => 3 | .queue q => h.fld (Reg.HQ_CFG q) F.HQ_CFG_VERSION | .journal q => if h.fld (Reg.HQ_CFG q) F.HQ_CFG_VERSION = 0 then 3 else h.fld (Reg.HQ_CFG q) F.HQ_CFG_VERSION
    ver = 0 ∧ c.code ≠ 0x0101) ∧
  (∃ (h : Hub) (c : CmdIn),
    let ver := match c.src with | .script => 3 | .queue q => h.fld (Reg.HQ_CFG q) F.HQ_CFG_VERSION | .journal q => if h.fld (Reg.HQ_CFG q) F.HQ_CFG_VERSION = 0 then 3 else h.fld (Reg.HQ_CFG q) F.HQ_CFG_VERSION
    ver ≠ 0 ∧ (codeDefined c.code = false ∨ familyIn ver (c.code / 256) = false)) ∧
  (∃ (h : Hub) (c : CmdIn),
    let ver := match c.src with | .script => 3 | .queue q => h.fld (Reg.HQ_CFG q) F.HQ_CFG_VERSION | .journal q => if h.fld (Reg.HQ_CFG q) F.HQ_CFG_VERSION = 0 then 3 else h.fld (Reg.HQ_CFG q) F.HQ_CFG_VERSION
    3 ≤ ver ∧ c.code = 0x0C06) ∧
  (∃ (s : State) (src : CmdSrc) (tag : Byte),
    let c := mkCmd src 0x0C06 tag []
    s.hub.held = false ∧ s.hub.served c = true ∧ s.hub.precheck c = some (sEDENIED, 0, 0) ∧ (∀ q, src = .queue q → s.hub.twin.role ≠ .active)) := by
  refine ⟨?_, ?_, ?_, ?_, ?_, ?_, ?_, ?_, ?_, ?_, ?_, ?_, ?_⟩
  · refine ⟨up, 0, .core, ?_⟩
    decide +kernel
  · refine ⟨bootw fun h => (h.setFld Reg.GLB_STRAPS F.GLB_STRAPS_HOST_SEL 1).setFld (Reg.HQ_CFG 0) F.HQ_CFG_PATH (pathCode .pcie), 0, .pcie,
      word (17 * 2 ^ (F.HQ_CMD_TAIL).1), ?_⟩
    decide +kernel
  · refine ⟨bootw fun h => (h.setFld Reg.GLB_STRAPS F.GLB_STRAPS_HOST_SEL 1).setFld (Reg.HQ_CFG 0) F.HQ_CFG_PATH (pathCode .pcie), 0, .pcie,
      word (2 ^ (F.HQ_CMD_TAIL).1), ?_⟩
    decide +kernel
  · refine ⟨up, 0, .core, 0, ?_⟩
    decide +kernel
  · refine ⟨bootw fun h => (h.setFld Reg.GLB_STRAPS F.GLB_STRAPS_HOST_SEL 1).setFld (Reg.HQ_CFG 0) F.HQ_CFG_PATH (pathCode .pcie), 0, .pcie, 0, ?_⟩
    decide +kernel
  · refine ⟨upw fun h => h.setFld (Reg.HQ_CFG 0) F.HQ_CFG_EN 1, 0, ?_⟩
    decide +kernel
  · refine ⟨upHub, 3, 1, ?_⟩
    decide +kernel
  · refine ⟨bootw fun h => (h.setFld (Reg.HQ_CFG 0) F.HQ_CFG_EN 1).setFld (Reg.HQ_CMD 0) F.HQ_CMD_TAIL 1, 0, ?_⟩
    decide +kernel
  · refine ⟨upHub, (mkCmd .script 0x0C06 0 []), sEDENIED, 0, 0, ?_⟩
    and_intros <;> first | decide +kernel | exact .inl rfl | rfl | exact .inl ⟨rfl, rfl⟩ | (intro r h; cases h)
  · refine ⟨upHub, (mkCmd (.queue 0) 0x0102 0 []), ?_⟩
    decide +kernel
  · refine ⟨upHub, (mkCmd .script 0x0F01 0 []), ?_⟩
    decide +kernel
  · refine ⟨upHub, (mkCmd .script 0x0C06 0 []), ?_⟩
    decide +kernel
  · refine ⟨up, .script, 0, ?_⟩
    decide +kernel

theorem witness_PcieAndFrameDma :
  (∃ (v : Nat), v < 32) ∧
  (∃ (s : State), s.hub.held = false ∧ s.hub.pathOn .pcie = true ∧ s.hub.host.perst = false ∧ s.hub.flag Reg.GLB_BOOT F.GLB_BOOT_IDENT_BAD = false) ∧
  (∃ (s : State), s.hub.held = false ∧ (s.hub.pathOn .pcie = false ∨ s.hub.host.perst = true ∨ s.hub.flag Reg.GLB_BOOT F.GLB_BOOT_IDENT_BAD = true)) ∧
  (∃ (s : State), s.hub.held = false ∧ s.hub.pathOpen .pcie = true) ∧
  (∃ (s : State) (p : HostPath), s.hub.held = false ∧ s.hub.pathOpen p = true) ∧
  (∃ (s : State),
    let ready := s.hub.dmaReady F.DMA_CTL_TX_EN Reg.DMA_TX_TAIL Reg.DMA_TX_HEAD
    s.hub.held = false ∧ (ready = false ∨ s.hub.host.dma.isSome = true)) ∧
  (∃ (s : State) (w2 : Word),
    let len := bits w2 (0, 11)
    let ready := s.hub.dmaReady F.DMA_CTL_TX_EN Reg.DMA_TX_TAIL Reg.DMA_TX_HEAD
    s.hub.held = false ∧ ready = true ∧ s.hub.host.dma = none ∧ (len < 60 ∨ 2044 < len)) ∧
  (∃ (s : State) (w2 : Word),
    let len := bits w2 (0, 11)
    let ready := s.hub.dmaReady F.DMA_CTL_TX_EN Reg.DMA_TX_TAIL Reg.DMA_TX_HEAD
    s.hub.held = false ∧ ready = true ∧ s.hub.host.dma = none ∧ 60 ≤ len ∧ len ≤ 2044) ∧
  (∃ (h : Hub) (p : Nat) (x : OwnIn), (h.swc.own.find? fun y => y.port == p) = some x ∧ (h.now ≤ x.at_ ∨ h.freeCells < cellsFor x.frame.bytes)) ∧
  (∃ (h : Hub) (p : Nat) (x : OwnIn), (h.swc.own.find? fun y => y.port == p) = some x ∧ x.at_ < h.now ∧ cellsFor x.frame.bytes ≤ h.freeCells) ∧
  (∃ (h : Hub) (q id : Nat), h.host.dma = some (q, id)) ∧
  (∃ (d : Nat), d ≠ 0) ∧
  (∃ (s : State) (q id : Nat) (second : Bool) (t : Nat),
    let k := s.hub.endTx 4
    let f := k.frame id
    let m := k.sendCopy 4 q id second
    s.hub.held = false ∧ k.dmaReady F.DMA_CTL_RX_EN Reg.DMA_RX_TAIL Reg.DMA_RX_HEAD = true ∧ k.portFree 4 = true ∧
        k.normalHead 4 = some (q, id, second) ∧ f.stamps[m.fld Reg.DMA_CTL F.DMA_CTL_TS_TB]? = some t) ∧
  (∃ (s : State),
    let k := s.hub.endTx 4
    s.hub.held = false ∧ (k.dmaReady F.DMA_CTL_RX_EN Reg.DMA_RX_TAIL Reg.DMA_RX_HEAD = false ∨ k.portFree 4 = false ∨ k.normalHead 4 = none)) := by
  refine ⟨?_, ?_, ?_, ?_, ?_, ?_, ?_, ?_, ?_, ?_, ?_, ?_, ?_, ?_⟩
  · refine ⟨0, ?_⟩
    decide +kernel
  · refine ⟨upw fun h => (h.setFld Reg.GLB_STRAPS F.GLB_STRAPS_HOST_SEL 1), ?_⟩
    decide +kernel
  · refine ⟨up, ?_⟩
    decide +kernel
  · refine ⟨bootw fun h => h.setFld Reg.GLB_STRAPS F.GLB_STRAPS_HOST_SEL 1, ?_⟩
    decide +kernel
  · refine ⟨up, .core, ?_⟩
    decide +kernel
  · refine ⟨up, ?_⟩
    decide +kernel
  · refine ⟨bootw fun h => { h with host := { h.host with pcieUp := true } }.setFld Reg.DMA_CTL F.DMA_CTL_TX_EN 1
      |>.setFld Reg.DMA_TX_TAIL F.DMA_TX_HEAD 1, 10, ?_⟩
    decide +kernel
  · refine ⟨bootw fun h => { h with host := { h.host with pcieUp := true } }.setFld Reg.DMA_CTL F.DMA_CTL_TX_EN 1
      |>.setFld Reg.DMA_TX_TAIL F.DMA_TX_HEAD 1, 60, ?_⟩
    decide +kernel
  · refine ⟨{ upHub with swc := { upHub.swc with own := [⟨4, 1, 0, false, {}, 60000000000000⟩] } }, 4, ⟨4, 1, 0, false, {}, 60000000000000⟩, ?_⟩
    decide +kernel
  · refine ⟨{ upHub with swc := { upHub.swc with own := [⟨4, 1, 0, false, {}, 0⟩] } }, 4, ⟨4, 1, 0, false, {}, 0⟩, ?_⟩
    decide +kernel
  · refine ⟨{ upHub with host := { upHub.host with dma := some (0, 1) } }, 0, 1, ?_⟩
    decide +kernel
  · refine ⟨1, ?_⟩
    decide +kernel
  · refine ⟨tqw 4 { bytes := List.replicate 60 0, stamps := [0, 0, 0, 0], uses := 1 } fun h => { h with host := { h.host with pcieUp := true } }.setFld Reg.DMA_CTL F.DMA_CTL_RX_EN 1 |>.setFld Reg.DMA_RX_TAIL F.DMA_TX_HEAD 1 |>.setFld Reg.GLB_BOOT F.GLB_BOOT_READY 1, 0, 1, false, 0, ?_⟩
    decide +kernel
  · refine ⟨up, ?_⟩
    decide +kernel

theorem witness_ResetsAndBoot :
  (∃ (i : Instr) (cause : Nat), (i, cause) = (.powerFail, 0) ∨ (i, cause) = (.rstNLow, 1)) ∧
  (∃ (s : State), s.hub.glb.inCold = true) ∧
  (∃ (s : State), s.hub.glb.inCold = false) ∧
  (∃ (s : State) (c : Nat), s.hub.held = false ∧ [8, 7, 6, 3, 5].find? s.hub.glb.sources.contains = some c) ∧
  (∃ (c a : Nat), c < 16 ∧ (netPage a = true ∨ timeKept a = true)) ∧
  (∃ (c b : Nat), c < 16 ∧ b < 4) ∧
  (∃ (c a : Nat), c < 16 ∧ 0x10000 ≤ a ∧ netPage a = false ∧ (a < 0x46000 ∨ 0x46200 ≤ a)) ∧
  (∃ (s : State), s.hub.glb.pllHold = true) ∧
  (∃ (h : Hub) (nv : NonVol), (trySlots nv (h.fld Reg.GLB_ID F.GLB_ID_STEPPING) (h.bootOrder nv).1).2 = none) ∧
  (∃ (s : State), s.hub.held = false ∧ s.hub.ready = true ∧ s.hub.glb.readyAt + 10 * tuS ≤ s.hub.now) := by
  refine ⟨?_, ?_, ?_, ?_, ?_, ?_, ?_, ?_, ?_, ?_⟩
  · refine ⟨.powerFail, 0, ?_⟩
    decide +kernel
  · refine ⟨State.reset, ?_⟩
    decide +kernel
  · refine ⟨up, ?_⟩
    decide +kernel
  · refine ⟨upw fun h => h.setGlb { h.glb with sources := [8] }, 8, ?_⟩
    decide +kernel
  · refine ⟨8, 0x68000, ?_⟩
    decide +kernel
  · refine ⟨0, 0, ?_⟩
    decide +kernel
  · refine ⟨8, 0x10000, ?_⟩
    decide +kernel
  · refine ⟨upw fun h => h.setGlb { h.glb with pllHold := true }, ?_⟩
    decide +kernel
  · refine ⟨(upHub.setFld Reg.GLB_STRAPS F.GLB_STRAPS_BOOT_MODE 1), {}, ?_⟩
    decide +kernel
  · refine ⟨bootw fun h => h, ?_⟩
    decide +kernel

theorem witness_SetupScripts :
  (∃ (nv : NonVol) (a len off : Nat),
    let w := beNat (nv.bytes (a + off) 4)
    let n := w % 2 ^ 24
    let addr := beNat (nv.bytes (a + off + 4) 4)
    off + 4 ≤ len ∧ w / 2 ^ 24 = 1 ∧ 1 ≤ n ∧ n ≤ 65535 ∧ off + 8 + 4 * n ≤ len ∧ addr % 4 = 0 ∧ addr + 4 * n ≤ 2 ^ 20) ∧
  (∃ (nv : NonVol) (a len off : Nat),
    let w := beNat (nv.bytes (a + off) 4)
    let n := w % 2 ^ 24
    off + 4 ≤ len ∧ w / 2 ^ 24 = 2 ∧ n = 8 ∧ off + 36 ≤ len) ∧
  (∃ (nv : NonVol) (a len off : Nat),
    let w := beNat (nv.bytes (a + off) 4)
    off + 4 ≤ len ∧ w / 2 ^ 24 = 3) ∧
  (∃ (nv : NonVol) (a len off : Nat),
    let w := beNat (nv.bytes (a + off) 4)
    off + 4 ≤ len ∧ w / 2 ^ 24 = 4) ∧
  (∃ (nv : NonVol) (a len off : Nat),
    let w := beNat (nv.bytes (a + off) 4)
    off + 4 ≤ len ∧ (w / 2 ^ 24 = 0 ∨ 4 < w / 2 ^ 24)) ∧
  (∃ (s : State) (x : Script) (i a len : Nat) (rest : List (Nat × Nat × Nat)) (addr : Nat) (ws : List Word) (n : Nat), s.hub.held = false ∧
      s.hub.glb.script = some x ∧ x.secs = (i, a, len) :: rest ∧ scriptRec s.nv a len x.off = (.write addr ws, n)) ∧
  (∃ (s : State) (x : Script) (i a len : Nat) (rest : List (Nat × Nat × Nat)) (us n : Nat), s.hub.held = false ∧ s.hub.glb.script = some x ∧
      x.secs = (i, a, len) :: rest ∧ scriptRec s.nv a len x.off = (.wait us, n)) ∧
  (∃ (s : State) (x : Script) (i a len : Nat) (rest : List (Nat × Nat × Nat)) (n : Nat), s.hub.held = false ∧ s.hub.glb.script = some x ∧
      x.secs = (i, a, len) :: rest ∧ scriptRec s.nv a len x.off = (.end_, n) ∧ rest ≠ []) ∧
  (∃ (s : State) (x : Script) (i a len : Nat) (rest : List (Nat × Nat × Nat)) (n : Nat), s.hub.held = false ∧ s.hub.glb.script = some x ∧
      x.secs = (i, a, len) :: rest ∧ scriptRec s.nv a len x.off = (.end_, n) ∧ rest = [] ∧ s.hub.ready = false) ∧
  (∃ (s : State) (x : Script) (i a len : Nat) (rest : List (Nat × Nat × Nat)) (ws : List Word) (n : Nat), s.hub.held = false ∧
      s.hub.glb.script = some x ∧ x.secs = (i, a, len) :: rest ∧ scriptRec s.nv a len x.off = (.command ws, n) ∧ x.cmdAt = none) ∧
  (∃ (s : State) (x : Script) (i a len : Nat) (rest : List (Nat × Nat × Nat)) (ws : List Word) (n t : Nat), s.hub.held = false ∧
      s.hub.glb.script = some x ∧ x.secs = (i, a, len) :: rest ∧ scriptRec s.nv a len x.off = (.command ws, n) ∧ x.cmdAt = some t ∧
      s.hub.glb.scriptAns = none) ∧
  (∃ (s : State) (x : Script) (i a len : Nat) (rest : List (Nat × Nat × Nat)) (ws : List Word) (n t st : Nat), s.hub.held = false ∧
      s.hub.glb.script = some x ∧ x.secs = (i, a, len) :: rest ∧ scriptRec s.nv a len x.off = (.command ws, n) ∧ x.cmdAt = some t ∧
      s.hub.glb.scriptAns = some st) ∧
  (∃ (s : State) (x : Script) (i a len : Nat) (rest : List (Nat × Nat × Nat)) (n : Nat) (c : Instr), s.hub.held = false ∧ s.hub.glb.script = some x ∧
      x.secs = (i, a, len) :: rest ∧ scriptRec s.nv a len x.off = (.bad, n) ∧ s.hub.ready = false ∧
      c ∈ [.scriptWrite, .scriptCommand, .scriptWait, .scriptEnd]) ∧
  (∃ (st : Nat), st ≠ sOK) ∧
  (∃ (h : Hub) (a : Nat), 0x68000 ≤ a ∧ a < 0x68800 ∧ (h.netSeen ((a - 0x68000) / 0x80)).st ≠ .off) ∧
  (∃ (ws : List Word) (n : Nat), (ws.getD 0 0).toNat % 65536 = 0x0B01 ∧ n < 16) := by
  refine ⟨?_, ?_, ?_, ?_, ?_, ?_, ?_, ?_, ?_, ?_, ?_, ?_, ?_, ?_, ?_, ?_⟩
  · refine ⟨{ flash := mwrite 0xFF [] 0 [1, 0, 0, 1, 0, 4, 0, 0x20, 0, 0, 0, 1] }, 0, 12, 0, ?_⟩
    decide +kernel
  · refine ⟨{ flash := mwrite 0xFF [] 0 ([2, 0, 0, 8] ++ List.replicate 32 0) }, 0, 36, 0, ?_⟩
    decide +kernel
  · refine ⟨{ flash := mwrite 0xFF [] 0 [3, 0, 0, 5] }, 0, 4, 0, ?_⟩
    decide +kernel
  · refine ⟨{ flash := mwrite 0xFF [] 0 [4, 0, 0, 0] }, 0, 4, 0, ?_⟩
    decide +kernel
  · refine ⟨{ flash := mwrite 0xFF [] 0 [5, 0, 0, 0] }, 0, 4, 0, ?_⟩
    decide +kernel
  · refine ⟨flashw 0 [1, 0, 0, 1, 0, 4, 0, 0x20, 0, 0, 0,
      1] (upHub.setGlb { upHub.glb with script := some { secs := [(0, 0, 36)], off := 0, rec_ := 0, wait := none, cmdAt := none } }),
      { secs := [(0, 0, 36)], off := 0, rec_ := 0, wait := none, cmdAt := none }, 0, 0, 36, [], 0x40020, [1], 12, ?_⟩
    and_intros <;> first | decide +kernel | exact .inl rfl | rfl | exact .inl ⟨rfl, rfl⟩ | (intro r h; cases h)
  · refine ⟨flashw 0 [3, 0, 0, 5] (upHub.setGlb { upHub.glb with script := some { secs := [(0, 0, 36)], off := 0, rec_ := 0, wait := none, cmdAt := none } }), { secs := [(0, 0, 36)], off := 0, rec_ := 0, wait := none, cmdAt := none }, 0, 0, 36, [], 5, 4, ?_⟩
    and_intros <;> first | decide +kernel | exact .inl rfl | rfl | exact .inl ⟨rfl, rfl⟩ | (intro r h; cases h)
  · refine ⟨flashw 0 [4, 0, 0, 0] (upHub.setGlb { upHub.glb with script := some { secs := [(0, 0, 36), (1, 100, 4)], off := 0, rec_ := 0, wait := none, cmdAt := none } }), { secs := [(0, 0, 36), (1, 100, 4)], off := 0, rec_ := 0, wait := none, cmdAt := none }, 0, 0, 36, [(1, 100, 4)], 4, ?_⟩
    and_intros <;> first | decide +kernel | exact .inl rfl | rfl | exact .inl ⟨rfl, rfl⟩ | (intro r h; cases h)
  · refine ⟨flashw 0 [4, 0, 0, 0] (upHub.setGlb { upHub.glb with script := some { secs := [(0, 0, 36)], off := 0, rec_ := 0, wait := none, cmdAt := none } }), { secs := [(0, 0, 36)], off := 0, rec_ := 0, wait := none, cmdAt := none }, 0, 0, 36, [], 4, ?_⟩
    and_intros <;> first | decide +kernel | exact .inl rfl | rfl | exact .inl ⟨rfl, rfl⟩ | (intro r h; cases h)
  · refine ⟨flashw 0 ([2, 0, 0, 8] ++ List.replicate 32 0) (upHub.setGlb { upHub.glb with script := some { secs := [(0, 0, 36)], off := 0, rec_ := 0, wait := none, cmdAt := none } }), { secs := [(0, 0, 36)], off := 0, rec_ := 0, wait := none, cmdAt := none }, 0, 0, 36, [], List.replicate 8 0, 36, ?_⟩
    and_intros <;> first | decide +kernel | exact .inl rfl | rfl | exact .inl ⟨rfl, rfl⟩ | (intro r h; cases h)
  · refine ⟨flashw 0 ([2, 0, 0, 8] ++ List.replicate 32 0) (upHub.setGlb { upHub.glb with script := some { secs := [(0, 0, 36)], off := 0, rec_ := 0, wait := none, cmdAt := some 0 } }), { secs := [(0, 0, 36)], off := 0, rec_ := 0, wait := none, cmdAt := some 0 }, 0, 0, 36, [], List.replicate 8 0, 36, 0, ?_⟩
    and_intros <;> first | decide +kernel | exact .inl rfl | rfl | exact .inl ⟨rfl, rfl⟩ | (intro r h; cases h)
  · refine ⟨flashw 0 ([2, 0, 0, 8] ++ List.replicate 32 0) (upHub.setGlb { upHub.glb with scriptAns := some 0, script := some { secs := [(0, 0, 36)], off := 0, rec_ := 0, wait := none, cmdAt := some 0 } }), { secs := [(0, 0, 36)], off := 0, rec_ := 0, wait := none, cmdAt := some 0 }, 0, 0, 36, [], List.replicate 8 0, 36, 0, 0, ?_⟩
    and_intros <;> first | decide +kernel | exact .inl rfl | rfl | exact .inl ⟨rfl, rfl⟩ | (intro r h; cases h)
  · refine ⟨flashw 0 [5, 0, 0, 0] (upHub.setGlb { upHub.glb with script := some { secs := [(0, 0, 36)], off := 0, rec_ := 0, wait := none, cmdAt := none } }), { secs := [(0, 0, 36)], off := 0, rec_ := 0, wait := none, cmdAt := none }, 0, 0, 36, [], 4, .scriptWrite, ?_⟩
    and_intros <;> first | decide +kernel | exact .inl rfl | rfl | exact .inl ⟨rfl, rfl⟩ | (intro r h; cases h)
  · refine ⟨1, ?_⟩
    decide +kernel
  · refine ⟨(upHub.setNet 0 { st := .on }), 0x68000, ?_⟩
    decide +kernel
  · refine ⟨[0x0B01], 0, ?_⟩
    decide +kernel

theorem witness_ServicePortRequests :
  (∃ (s : State) (q : Byte) (div addr len : Word) (n : Half) (wp : Bool) (sel kind : Byte) (bs : List Byte) (out : FlashEnd) (r : Instr × Nat),
    let reqs : List (Instr × Nat) := [(.svcHello q, 1), (.svcBaud q div, 2), (.svcRead q addr n, 3), (.svcStageOpen q wp sel len, 4),
        (.svcStageWrite q wp addr bs out, 5), (.svcStageClose q wp, 6), (.svcStageAbort q, 7), (.svcIdentWrite q wp bs, 8), (.svcFuseKey q wp bs, 9),
        (.svcStatus q, 10), (.svcReset q kind, 11)]
    r ∈ reqs ∧ s.hub.held = true) ∧
  (∃ (s : State) (q : Byte) (div addr len : Word) (n : Half) (wp : Bool) (sel kind : Byte) (bs : List Byte) (out : FlashEnd) (r : Instr × Nat) (rsp : List Byte),
    let reqs : List (Instr × Nat) := [(.svcHello q, 1), (.svcBaud q div, 2), (.svcRead q addr n, 3), (.svcStageOpen q wp sel len, 4),
        (.svcStageWrite q wp addr bs out, 5), (.svcStageClose q wp, 6), (.svcStageAbort q, 7), (.svcIdentWrite q wp bs, 8), (.svcFuseKey q wp bs, 9),
        (.svcStatus q, 10), (.svcReset q kind, 11)]
    r ∈ reqs ∧ s.hub.held = false ∧ s.hub.glb.svcPrev = some (r.2, q.toNat, rsp)) ∧
  (∃ (s : State) (q : Byte), s.hub.held = false ∧ s.hub.svcFresh 1 q.toNat) ∧
  (∃ (s : State) (q : Byte), s.hub.held = false ∧ s.hub.svcFresh 2 q.toNat) ∧
  (∃ (s : State) (q : Byte), s.hub.held = false ∧ s.hub.svcFresh 3 q.toNat) ∧
  (∃ (s : State) (q : Byte), s.hub.held = false ∧ s.hub.svcFresh 10 q.toNat) ∧
  (∃ (s : State) (q : Byte), s.hub.held = false ∧ s.hub.svcFresh 11 q.toNat) ∧
  (∃ (s : State) (cold : Bool) (t : Nat), s.hub.held = false ∧ s.hub.glb.svcReset = some (cold, t)) ∧
  (∃ (s : State) (t q : Nat) (pay : List Byte), s.hub.held = false ∧ t < 256 ∧ q < 256 ∧ pay.length ≤ 4100 ∧ (t = 0 ∨ 0x0B < t) ∧
      s.hub.svcFresh t q) ∧
  (∃ (bs : List Byte), (bs.length ≠ beAt bs 0 2 + 8 ∨ 4100 < beAt bs 0 2 ∨ crc poly0 (bs.take (beAt bs 0 2 + 4)) ≠ beAt bs (beAt bs 0 2 + 4) 4)) := by
  refine ⟨?_, ?_, ?_, ?_, ?_, ?_, ?_, ?_, ?_, ?_⟩
  · refine ⟨State.reset, 0, 0, 0, 0, 0, false, 0, 0, [], .ok, (.svcHello 0, 1), ?_⟩
    and_intros <;> first | decide +kernel | exact .inl rfl | rfl | exact .inl ⟨rfl, rfl⟩ | (intro r h; cases h)
  · refine ⟨upw fun h => h.setGlb { h.glb with svcPrev := some (1, 0, []) }, 0, 0, 0, 0, 0, false, 0, 0, [], .ok, (.svcHello 0, 1), [], ?_⟩
    and_intros <;> first | decide +kernel | exact .inl rfl | rfl | exact .inl ⟨rfl, rfl⟩ | (intro r h; cases h)
  · refine ⟨up, 0, ?_⟩
    and_intros <;> first | decide +kernel | exact .inl rfl | rfl | exact .inl ⟨rfl, rfl⟩ | (intro r h; cases h)
  · refine ⟨up, 0, ?_⟩
    and_intros <;> first | decide +kernel | exact .inl rfl | rfl | exact .inl ⟨rfl, rfl⟩ | (intro r h; cases h)
  · refine ⟨up, 0, ?_⟩
    and_intros <;> first | decide +kernel | exact .inl rfl | rfl | exact .inl ⟨rfl, rfl⟩ | (intro r h; cases h)
  · refine ⟨up, 0, ?_⟩
    and_intros <;> first | decide +kernel | exact .inl rfl | rfl | exact .inl ⟨rfl, rfl⟩ | (intro r h; cases h)
  · refine ⟨up, 0, ?_⟩
    and_intros <;> first | decide +kernel | exact .inl rfl | rfl | exact .inl ⟨rfl, rfl⟩ | (intro r h; cases h)
  · refine ⟨upw fun h => h.setGlb { h.glb with svcReset := some (true, 0) }, true, 0, ?_⟩
    decide +kernel
  · refine ⟨up, 0, 0, [], ?_⟩
    and_intros <;> first | decide +kernel | exact .inl rfl | rfl | exact .inl ⟨rfl, rfl⟩ | (intro r h; cases h)
  · refine ⟨[], ?_⟩
    decide +kernel

theorem witness_GlobalCommandsAndRingLoop :
  (∃ (s : State) (jseq : Half), s.hub.held = false ∧ s.hub.twin.role = .standby ∧ (s.hub.twin.jseqRx = none ∨ ∃ n, s.hub.twin.jseqRx = some n ∧
      jseq.toNat = (n + 1) % 65536)) ∧
  (∃ (s : State) (q : Fin 4) (tag lo hi : Byte),
    let c := mkCmd (.queue q) 0x0101 tag [word (lo.toNat + hi.toNat * 256)]
    Accepts s c ∧ 1 ≤ lo.toNat ∧ lo.toNat ≤ hi.toNat ∧ lo.toNat ≤ 3) ∧
  (∃ (s : State) (src : CmdSrc) (tag : Byte),
    let c := mkCmd src 0x0102 tag []
    Accepts s c) ∧
  (∃ (s : State) (src : CmdSrc) (tag : Byte) (kind : Word),
    let c := mkCmd src 0x0103 tag [kind]
    Accepts s c ∧ 1 ≤ kind.toNat ∧ kind.toNat ≤ 2 ∧ s.hub.maintFree = true) ∧
  (∃ (s : State) (cold : Bool) (t : Nat), s.hub.held = false ∧ s.hub.host.resetDue = some (cold, t)) ∧
  (∃ (s : State) (src : CmdSrc) (tag : Byte) (pw ms : Word),
    let c := mkCmd src 0x0C01 tag [pw, ms]
    let p := pw.toNat
    Accepts s c ∧ p < 3 ∧ 1 ≤ ms.toNat ∧ ms.toNat ≤ 60000 ∧ s.hub.fld (Reg.RING_P_CFG p) F.RING_P_CFG_MODE ≠ 0 ∧
        (p < 2 → s.hub.ring.state = .closed) ∧ s.hub.maintFree = true ∧ s.hub.comingOn p = none) ∧
  (∃ (s : State) (l : RingLoop), s.hub.held = false ∧ s.hub.host.maint = .loop l ∧ l.ended = none ∧ l.at_ + l.sent * tuUs ≤ s.hub.now ∧
      l.sent * tuUs < l.dur) ∧
  (∃ (s : State) (l : RingLoop), s.hub.held = false ∧ s.hub.host.maint = .loop l ∧ l.ended = none ∧ l.at_ + l.dur ≤ s.hub.now ∧
      s.hub.loopUp l.port = false) ∧
  (∃ (s : State) (l : RingLoop) (src : CmdSrc) (tag : Byte), s.hub.held = false ∧ s.hub.host.maint = .loop l ∧ l.ended = none ∧
    let c := mkCmd src 0x0C07 tag []
    Accepts s c) ∧
  (∃ (s : State) (l : RingLoop) (t : Nat), s.hub.held = false ∧ s.hub.host.maint = .loop l ∧ l.ended = some t) := by
  refine ⟨?_, ?_, ?_, ?_, ?_, ?_, ?_, ?_, ?_, ?_⟩
  · refine ⟨twinw .standby fun t => t, 0, ?_⟩
    and_intros <;> first | decide +kernel | exact .inl rfl | rfl | exact .inl ⟨rfl, rfl⟩ | (intro r h; cases h)
  · refine ⟨bootw fun h => ((h.setFld (Reg.HQ_CFG 0) F.HQ_CFG_EN 1).setFld (Reg.HQ_CFG 0) F.HQ_CFG_VERSION 3), 0, 0, 1, 3, ?_⟩
    dsimp only [Accepts, mkCmd]
    decide +kernel
  · refine ⟨up, .script, 0, ?_⟩
    dsimp only [Accepts, mkCmd]
    decide +kernel
  · refine ⟨up, .script, 0, 1, ?_⟩
    dsimp only [Accepts, mkCmd]
    decide +kernel
  · refine ⟨upw fun h => { h with host := { h.host with resetDue := some (true, 0) } }, true, 0, ?_⟩
    decide +kernel
  · refine ⟨upw fun h => { h with ring := { h.ring with state := .closed } }.setFld (Reg.RING_P_CFG 0) F.RING_P_CFG_MODE 1, .script, 0, 0, 1, ?_⟩
    dsimp only [Accepts, mkCmd]
    decide +kernel
  · refine ⟨upw fun h => { h with host := { h.host with maint := .loop ⟨0, 0, 60000000, 0, 0, 0, none, ⟨.script, 0xC01, 0⟩⟩ } }, ⟨0, 0, 60000000, 0,
      0, 0, none, ⟨.script, 0xC01, 0⟩⟩, ?_⟩
    decide +kernel
  · refine ⟨upw fun h => { h with host := { h.host with maint := .loop ⟨0, 0, 0, 0, 0, 0, none, ⟨.script, 0xC01, 0⟩⟩ } }, ⟨0, 0, 0, 0, 0, 0, none,
      ⟨.script, 0xC01, 0⟩⟩, ?_⟩
    decide +kernel
  · refine ⟨upw fun h => { h with host := { h.host with maint := .loop ⟨0, 0, 0, 0, 0, 0, none, ⟨.script, 0xC01, 0⟩⟩ } }, ⟨0, 0, 0, 0, 0, 0, none,
      ⟨.script, 0xC01, 0⟩⟩, .script, 0, ?_⟩
    dsimp only [Accepts, mkCmd]
    decide +kernel
  · refine ⟨upw fun h => { h with host := { h.host with maint := .loop ⟨0, 0, 0, 0, 0, 0, (some 0), ⟨.script, 0xC01, 0⟩⟩ } }, ⟨0, 0, 0, 0, 0, 0,
      (some 0), ⟨.script, 0xC01, 0⟩⟩, 0, ?_⟩
    decide +kernel

theorem witness_ReferenceClockWatch :
  (∃ (s : State) (edges : Bool) (ppm : Half), s.hub.glb.inCold = false ∧
    let locked := s.hub.rxLocked 0 || s.hub.rxLocked 1
    let lost := edges = false ∨ (locked = true ∧ s.hub.fld Reg.GLB_CLK_CTL F.GLB_CLK_CTL_REF_TOL_PPM < ppm.toNat)
    lost) ∧
  (∃ (s : State) (edges : Bool) (ppm : Half), s.hub.glb.inCold = false ∧
    let locked := s.hub.rxLocked 0 || s.hub.rxLocked 1
    let lost := edges = false ∨ (locked = true ∧ s.hub.fld Reg.GLB_CLK_CTL F.GLB_CLK_CTL_REF_TOL_PPM < ppm.toNat)
    (¬ lost)) ∧
  (∃ (h : Hub), h.glb.src = 0 ∧ h.glb.refOk = true) ∧
  (∃ (h : Hub),
    let src := if h.rxLocked 0 then 1 else if h.rxLocked 1 then 2 else 3
    h.glb.src = 0 ∧ h.glb.refOk = false ∧ src = 3) ∧
  (∃ (h : Hub), h.glb.src = 1 ∧ h.rxLocked 0 = true) ∧
  (∃ (h : Hub), h.glb.src = 2 ∧ h.rxLocked 1 = true) ∧
  (∃ (h : Hub), (h.glb.src = 1 ∧ h.rxLocked 0 = false) ∨ (h.glb.src = 2 ∧ h.rxLocked 1 = false) ∨ h.glb.src = 3) ∧
  (∃ (h : Hub),
    let src := if h.rxLocked 0 then 1 else if h.rxLocked 1 then 2 else 3
    (h.glb.src = 1 ∨ h.glb.src = 2) ∧ src = 3) ∧
  (∃ (s : State) (w : Word), s.hub.held = false ∧ bits w F.GLB_CLK_CTL_RETURN_NOW = 1) := by
  refine ⟨?_, ?_, ?_, ?_, ?_, ?_, ?_, ?_, ?_⟩
  · refine ⟨up, false, 0, ?_⟩
    decide +kernel
  · refine ⟨up, true, 0, ?_⟩
    decide +kernel
  · refine ⟨(upHub.setGlb { upHub.glb with src := 0, refOk := true }), ?_⟩
    decide +kernel
  · refine ⟨(upHub.setGlb { upHub.glb with src := 0, refOk := false }), ?_⟩
    decide +kernel
  · refine ⟨((upHub.setGlb { upHub.glb with src := 1 }).setRport 0 { link := .up }), ?_⟩
    decide +kernel
  · refine ⟨((upHub.setGlb { upHub.glb with src := 2 }).setRport 1 { link := .up }), ?_⟩
    decide +kernel
  · refine ⟨(upHub.setGlb { upHub.glb with src := 3 }), ?_⟩
    decide +kernel
  · refine ⟨(upHub.setGlb { upHub.glb with src := 1 }), ?_⟩
    decide +kernel
  · refine ⟨up, word (2 ^ (F.GLB_CLK_CTL_RETURN_NOW).1), ?_⟩
    decide +kernel

theorem witness_StagingIdentityAndFuses :
  (∃ (s : State) (q : Byte) (addr len : Word) (sel : Byte) (bs : List Byte) (out : FlashEnd) (r : Instr × Nat), s.hub.held = false ∧
      r ∈ ([(.svcStageOpen q false sel len, 4), (.svcStageWrite q false addr bs out, 5), (.svcStageClose q false, 6), (.svcIdentWrite q false bs, 8),
      (.svcFuseKey q false bs, 9)] : List (Instr × Nat)) ∧ s.hub.svcFresh r.2 q.toNat) ∧
  (∃ (s : State) (q sel : Byte) (len : Word) (slot : Nat), s.hub.held = false ∧ s.hub.svcFresh 4 q.toNat ∧ s.hub.glb.stage = none ∧ 4096 ≤ len.toNat ∧
      len.toNat ≤ 0x800000 ∧ (sel = 1 ∧ slot = 0 ∨ sel = 2 ∧ slot = 1 ∨ sel = 0 ∧ ((s.hub.glb.booted = none ∧
      slot = 1) ∨ ∃ b, s.hub.glb.booted = some b ∧ slot = 1 - b)) ∧ s.hub.glb.booted ≠ some slot) ∧
  (∃ (s : State) (q : Byte) (off : Word) (bs : List Byte) (x : Stage),
    let n := bs.length
    s.hub.held = false ∧ s.hub.svcFresh 5 q.toNat ∧ s.hub.glb.stage = some x ∧ off.toNat = x.written ∧ 1 ≤ n ∧ off.toNat + n ≤ x.len ∧
        (n = 4096 ∨ (n < 4096 ∧ off.toNat + n = x.len)) ∧ off.toNat = 0) ∧
  (∃ (s : State) (q : Byte) (off : Word) (bs : List Byte) (x : Stage),
    let n := bs.length
    s.hub.held = false ∧ s.hub.svcFresh 5 q.toNat ∧ s.hub.glb.stage = some x ∧ off.toNat = x.written ∧ 1 ≤ n ∧ off.toNat + n ≤ x.len ∧
        (n = 4096 ∨ (n < 4096 ∧ off.toNat + n = x.len)) ∧ off.toNat ≠ 0) ∧
  (∃ (s : State) (q : Byte) (x : Stage), s.hub.held = false ∧ s.hub.glb.stage = some x ∧ x.written = x.len ∧ s.hub.svcFresh 6 q.toNat) ∧
  (∃ (s : State) (q : Byte) (x : Stage), s.hub.held = false ∧ s.hub.glb.stage = some x ∧ s.hub.svcFresh 7 q.toNat) ∧
  (∃ (a : Nat), a ∉ [Reg.GLB_BOOT, Reg.GLB_EVT, Reg.HOST_EVT]) ∧
  (∃ (s : State) (q : Byte) (bs : List Byte), s.hub.held = false ∧ s.hub.svcFresh 8 q.toNat ∧ s.hub.glb.stage = none ∧ bs.length = 256 ∧
      identOk bs = true) ∧
  (∃ (s : State) (q : Byte) (bs : List Byte), s.hub.held = false ∧ s.hub.svcFresh 9 q.toNat ∧ s.nv.fuse = none ∧ bs.length = 32) ∧
  (∃ (s : State) (q : Byte), s.hub.held = false ∧ s.hub.svcFresh 9 q.toNat ∧ s.nv.fuse ≠ none) := by
  refine ⟨?_, ?_, ?_, ?_, ?_, ?_, ?_, ?_, ?_, ?_⟩
  · refine ⟨up, 0, 0, 0, 0, [], .ok, (.svcStageOpen 0 false 0 0, 4), ?_⟩
    and_intros <;> first | decide +kernel | exact .inl rfl | rfl | exact .inl ⟨rfl, rfl⟩ | (intro r h; cases h)
  · refine ⟨up, 0, 1, 4096, 0, ?_⟩
    and_intros <;> first | decide +kernel | exact .inl rfl | rfl | exact .inl ⟨rfl, rfl⟩ | (intro r h; cases h)
  · refine ⟨upw fun h => h.setGlb { h.glb with stage := some { slot := 0, len := 4096, written := 0, manifest := [], at_ := 0 } }, 0, 0,
      List.replicate 4096 0, { slot := 0, len := 4096, written := 0, manifest := [], at_ := 0 }, ?_⟩
    and_intros <;> first | decide +kernel | exact .inl rfl | rfl | exact .inl ⟨rfl, rfl⟩ | (intro r h; cases h)
  · refine ⟨upw fun h => h.setGlb { h.glb with stage := some { slot := 0, len := 8192, written := 4096, manifest := [], at_ := 0 } }, 0, 4096,
      List.replicate 4096 0, { slot := 0, len := 8192, written := 4096, manifest := [], at_ := 0 }, ?_⟩
    and_intros <;> first | decide +kernel | exact .inl rfl | rfl | exact .inl ⟨rfl, rfl⟩ | (intro r h; cases h)
  · refine ⟨upw fun h => h.setGlb { h.glb with stage := some { slot := 0, len := 8192, written := 8192, manifest := [], at_ := 0 } }, 0,
      { slot := 0, len := 8192, written := 8192, manifest := [], at_ := 0 }, ?_⟩
    and_intros <;> first | decide +kernel | exact .inl rfl | rfl | exact .inl ⟨rfl, rfl⟩ | (intro r h; cases h)
  · refine ⟨upw fun h => h.setGlb { h.glb with stage := some { slot := 0, len := 8192, written := 0, manifest := [], at_ := 0 } }, 0,
      { slot := 0, len := 8192, written := 0, manifest := [], at_ := 0 }, ?_⟩
    and_intros <;> first | decide +kernel | exact .inl rfl | rfl | exact .inl ⟨rfl, rfl⟩ | (intro r h; cases h)
  · refine ⟨0, ?_⟩
    decide +kernel
  · refine ⟨up, 0, [0x4E, 0x48, 0x49, 0x44] ++ List.replicate 248 0 ++ beBytes 4 (crc poly0 ([0x4E, 0x48, 0x49, 0x44] ++ List.replicate 248 0)), ?_⟩
    and_intros <;> first | decide +kernel | exact .inl rfl | rfl | exact .inl ⟨rfl, rfl⟩ | (intro r h; cases h)
  · refine ⟨up, 0, List.replicate 32 1, ?_⟩
    and_intros <;> first | decide +kernel | exact .inl rfl | rfl | exact .inl ⟨rfl, rfl⟩ | (intro r h; cases h)
  · refine ⟨{ up with nv := { fuse := some [] } }, 0, ?_⟩
    and_intros <;> first | decide +kernel | exact .inl rfl | rfl | exact .inl ⟨rfl, rfl⟩ | (intro r h; cases h)

theorem witness_TwinTransferScrubberAndCommands :
  (∃ (s : State) (t : Nat), s.hub.held = false ∧ s.hub.twin.syncAt = some t ∧ t + s.hub.fld Reg.TWIN_TMO F.TWIN_TMO_SYNC_TMO_MS * tuMs ≤ s.hub.now ∧
      (s.hub.twin.role = .syncing ∨ (s.hub.twin.role = .active ∧ s.hub.peerPresent = true))) ∧
  (∃ (s : State), s.hub.held = false ∧ s.hub.twin.scrubRefs = []) ∧
  (∃ (s : State) (src : CmdSrc) (tag : Byte),
    let c := mkCmd src 0x0C05 tag []
    Accepts s c) ∧
  (∃ (s : State) (q : Fin 4) (tag : Byte),
    let c := mkCmd (.queue q) 0x0901 tag []
    s.hub.held = false ∧ s.hub.served c = true ∧ s.hub.precheck c = none ∧ s.hub.twin.role = .active ∧ s.hub.twin.peerRole = 3) ∧
  (∃ (s : State) (src : CmdSrc) (tag : Byte) (hold : Word),
    let c := mkCmd src 0x0902 tag [hold]
    Accepts s c ∧ hold.toNat ≤ 1 ∧ s.hub.twinEn = true) ∧
  (∃ (s : State) (q : Fin 4) (tag : Byte),
    let c := mkCmd (.queue q) 0x0C02 tag []
    let tw := s.hub.twin
    s.hub.held = false ∧ s.hub.served c = true ∧ s.hub.precheck c = none ∧ tw.peerRole = 3 ∧ tw.notInStep = false ∧ tw.peerNis = false ∧
        tw.ser.ok = true ∧ tw.lvds.ok = true ∧ s.hub.failing = false ∧ tw.peerFail = false ∧ s.hub.maintFree = true) ∧
  (∃ (s : State) (r : JRec) (rs : List JRec), s.hub.held = false ∧ (s.hub.rport 3).link ≠ .down ∧ s.hub.twin.store = r :: rs ∧
      (1024 ≤ jstoreSize s.hub.twin.store ∨ r.at_ + 200 * tuNs ≤ s.hub.now)) ∧
  (∃ (s : State), s.hub.held = false ∧ (s.hub.rport 3).link ≠ .down ∧ s.hub.twin.store = [] ∧ s.hub.twin.role = .active ∧ s.hub.twin.peerRole = 2) ∧
  (∃ (s : State) (w : Word), s.hub.held = false ∧ bits w F.TWIN_LAG_LAG_CLR = 1) := by
  refine ⟨?_, ?_, ?_, ?_, ?_, ?_, ?_, ?_, ?_⟩
  · refine ⟨twinw .syncing fun t => { t with syncAt := some 0 }, 0, ?_⟩
    decide +kernel
  · refine ⟨up, ?_⟩
    decide +kernel
  · refine ⟨up, .script, 0, ?_⟩
    dsimp only [Accepts, mkCmd]
    decide +kernel
  · refine ⟨bootw fun h => ((h.setTwin { h.twin with role := .active, peerRole := 3, ser := { live := true }, lvds := { live := true } }).setFld (Reg.HQ_CFG 0) F.HQ_CFG_EN 1).setFld (Reg.HQ_CFG 0) F.HQ_CFG_VERSION 3, 0, 0, ?_⟩
    decide +kernel
  · refine ⟨upw fun h => h.setFld Reg.GLB_STRAPS F.GLB_STRAPS_TWIN_EN 1, .script, 0, 0, ?_⟩
    dsimp only [Accepts, mkCmd]
    decide +kernel
  · refine ⟨bootw fun h => ((h.setTwin { h.twin with role := .active, peerRole := 3, ser := { live := true }, lvds := { live := true } }).setFld (Reg.HQ_CFG 0) F.HQ_CFG_EN 1).setFld (Reg.HQ_CFG 0) F.HQ_CFG_VERSION 3, 0, 0, ?_⟩
    decide +kernel
  · refine ⟨upw fun h => (h.setTwin { h.twin with role := .active, store := [⟨1, 0, 0, [], 0⟩] }).setRport 3 { link := .up }, ⟨1, 0, 0, [], 0⟩, [],
      ?_⟩
    decide +kernel
  · refine ⟨upw fun h => (h.setTwin { h.twin with role := .active, peerRole := 2 }).setRport 3 { link := .up }, ?_⟩
    decide +kernel
  · refine ⟨up, word (2 ^ (F.TWIN_LAG_LAG_CLR).1), ?_⟩
    decide +kernel

theorem witness_BranchesByCondition :
  (∃ (s : State) (c : Byte) (i : Word),
    let x := s.hub.ctxNow c.toNat
    let holds : List Bool := [true, x.z, !x.z, decide (x.n ≠ x.v), decide (x.n = x.v), x.z || decide (x.n ≠ x.v), !x.z && decide (x.n = x.v), !x.c,
        x.c, !x.c || x.z, x.c && !x.z, x.n, !x.n, x.i, !x.i, x.l]
    s.hub.held = false ∧ s.hub.ctxAt c.toNat (8, 0) i ∧ holds[fRd i]? = some true) ∧
  (∃ (s : State) (c : Byte) (i : Word),
    let x := s.hub.ctxNow c.toNat
    let holds : List Bool := [true, x.z, !x.z, decide (x.n ≠ x.v), decide (x.n = x.v), x.z || decide (x.n ≠ x.v), !x.z && decide (x.n = x.v), !x.c,
        x.c, !x.c || x.z, x.c && !x.z, x.n, !x.n, x.i, !x.i, x.l]
    s.hub.held = false ∧ s.hub.ctxAt c.toNat (8, 0) i ∧ holds[fRd i]? = some false) ∧
  (∃ (i : Word), rowOf i = (8, 0) ∧ fRs1 i ≠ 0) := by
  refine ⟨?_, ?_, ?_⟩
  · refine ⟨ctxw 0x20000000 {} id, 0, 0x20000000, ?_⟩
    dsimp only [Hub.ctxAt]
    decide +kernel
  · refine ⟨ctxw 0x20400000 {} id, 0, 0x20400000, ?_⟩
    dsimp only [Hub.ctxAt]
    decide +kernel
  · refine ⟨0x20040000, ?_⟩
    decide +kernel

theorem witness_JumpsAndLinks :
  (∃ (s : State) (c : Byte) (i : Word), s.hub.held = false ∧ s.hub.ctxAt c.toNat (9, 0) i) ∧
  (∃ (s : State) (c : Byte) (i : Word),
    let x := s.hub.ctxNow c.toNat
    let w := x.reg (fRs1 i)
    let dest := w.toNat % 65536
    s.hub.held = false ∧ s.hub.ctxAt c.toNat (10, 0) i ∧ w.toNat / 65536 = 0 ∧ s.hub.progLo c.toNat ≤ dest ∧ dest ≤ s.hub.progHi c.toNat) ∧
  (∃ (s : State) (c : Byte) (i : Word),
    let x := s.hub.ctxNow c.toNat
    let w := x.reg (fRs1 i)
    let dest := w.toNat % 65536
    s.hub.held = false ∧ s.hub.ctxAt c.toNat (10, 0) i ∧ (w.toNat / 65536 ≠ 0 ∨ dest < s.hub.progLo c.toNat ∨ s.hub.progHi c.toNat < dest)) ∧
  (∃ (i : Word), rowOf i = (10, 0) ∧ (fRs2 i ≠ 0 ∨ fFn i ≠ 0)) := by
  refine ⟨?_, ?_, ?_, ?_⟩
  · refine ⟨ctxw 0x24400000 {} id, 0, 0x24400000, ?_⟩
    dsimp only [Hub.ctxAt]
    decide +kernel
  · refine ⟨ctxw 0x28840000 {} id, 0, 0x28840000, ?_⟩
    dsimp only [Hub.ctxAt]
    decide +kernel
  · refine ⟨ctxw 0x28840000 { w := [(1, 0x10000)] } id, 0, 0x28840000, ?_⟩
    dsimp only [Hub.ctxAt]
    decide +kernel
  · refine ⟨0x28000001, ?_⟩
    decide +kernel

theorem witness_CommandsKeepQueueAndNonVolatile :
  (∃ (i : Instr) (s t : State), exec i s = .next t ∧ isService i = false) :=
  ⟨.laneCtsChange 0 false, up, _, rfl, rfl⟩

theorem witness_InvariantKeptByEveryStep :
  (∃ s t : State, s.Inv ∧ step s = .next t) :=
  ⟨{ up with pending := [.laneCtsChange 0 false] }, _, by unfold State.Inv; decide +kernel, rfl⟩

theorem witness_KeyFusesProgramOnce :
  (∃ nv : NonVol, nv.fuse = none) ∧
  (∃ (nv : NonVol) (slot : Nat) (key : List Byte), nv.fuse = some key ∧ (sha512 (slice (nv.manifest slot) 4000 32)).take 32 ≠ key) ∧
  (∃ (s : State) (q : Byte) (key : List Byte), s.hub.held = false ∧ s.hub.svcFresh 9 q.toNat ∧ s.nv.fuse = none ∧ key.length = 32) ∧
  (∃ (s t : State) (key : List Byte), s.nv.fuse = some key ∧ step s = .next t) := by
  refine ⟨⟨{}, rfl⟩, ⟨{ fuse := some [] }, 0, [], rfl, ?_⟩, ⟨up, 0, List.replicate 32 1, ?_⟩,
    ⟨{ up with nv := { fuse := some [1] }, pending := [.svcHello 0] }, _, [1], rfl, rfl⟩⟩
  · decide +kernel
  · and_intros <;> first | decide +kernel | (intro r h; cases h)

theorem witness_ReservedFlashNeverWritten :
  (∃ (s t : State) (a : Nat), s.stageOk ∧ step s = .next t ∧ ((0x10000 ≤ a ∧ a < 0x100000) ∨ 0x1100000 ≤ a)) ∧
  (∃ (i : Instr) (s t : State), isService i = true ∧ s.stageOk ∧ exec i s = .next t) := by
  refine ⟨⟨{ up with pending := [.svcStageAbort 0] }, _, 0x10000, ?_, rfl, by decide⟩, ⟨.svcHello 0, up, _, rfl, ?_, rfl⟩⟩ <;>
    (intro g h; cases h)

theorem witness_ColdResetHoldsTheHub :
  (∃ (i : Instr) (s : State), s.hub.glb.inCold = true ∧
    (match i with
      | .powerFail | .rstNLow | .coldResetEnd _ | .pllRelockEnd | .pciePerst _ | .bankVioChange _ _ | .netVinLockout _
      | .netVinRestored _ | .usbVbusChange _ | .lanePinEdge _ _ _ => False
      | .netCardPresent _ => s.hub.net.hold = false
      | _ => True)) ∧
  (∃ (n : Fin 16) (s : State), s.hub.glb.inCold = true ∧ (match Instr.netCardPresent n with
      | .netCardPresent _ => s.hub.net.hold = false
      | _ => True)) ∧
  (∃ s : State, s.hub.held = true ∧ s.pending = []) :=
  ⟨⟨.done 0, State.reset, rfl, trivial⟩, ⟨0, State.reset, rfl, rfl⟩, ⟨State.reset, rfl, rfl⟩⟩

theorem witness_CountersSaturate : ∃ f g : Nat × Nat, f.1 + f.2 ≤ 32 ∧ (g.1 + g.2 ≤ f.1 ∨ f.1 + f.2 ≤ g.1) :=
  ⟨(16, 16), (0, 16), by decide, by decide⟩

theorem witness_EventRegisters :
  (Reg.LN_EVT 3 ∈ (List.range 96).map Reg.LN_EVT ∧ ⟨8, 1, .w1c⟩ ∈ fieldsAt (Reg.LN_EVT 3)) ∧
  (∃ h : Hub, h.evPend (Reg.LN_EVT 3) (Reg.LN_EVT 3 + 4) = true) ∧
  (∀ a ∈ (List.range 96).map Reg.LN_EVT, State.reset.hub.rd (a + 4) = 0) ∧
  (∃ (h : Hub) (s : Nat), s < 29 ∧ h.irqEn s = true ∧ h.irqSource s = true) := by
  refine ⟨⟨by decide +kernel, by decide +kernel⟩, ⟨(upHub.wr (Reg.LN_EVT 3) 1).wr (Reg.LN_EVT 3 + 4) 1, by decide +kernel⟩,
    by decide +kernel, ⟨?_, ?_, ?_, ?_⟩⟩
  · exact ((upHub.wr Reg.GLB_EVT 1).wr (Reg.GLB_EVT + 4) 1).setFld (Reg.HOST_IRQ_MAP 0) F.HOST_IRQ_MAP_EN 1
  · exact 0
  all_goals decide +kernel

theorem witness_QueueWatermarks :
  (∃ h : Hub, (h.qCommon ⟨1, 3⟩).high = false ∧ h.qDepth ⟨1, 3⟩ < (h.qWm ⟨1, 3⟩).hi) ∧
  (∃ h : Hub, (h.qCommon ⟨1, 3⟩).high = true ∧ (h.qWm ⟨1, 3⟩).lo < h.qDepth ⟨1, 3⟩) ∧
  (∃ h : Hub, (h.qCommon ⟨1, 3⟩).high = false ∧ (h.qWm ⟨1, 3⟩).hi ≤ h.qDepth ⟨1, 3⟩) ∧
  (∃ h : Hub, (h.qCommon ⟨1, 3⟩).high = true ∧ h.qDepth ⟨1, 3⟩ ≤ (h.qWm ⟨1, 3⟩).lo) ∧
  (∀ q ∈ [(⟨0, 0⟩ : QRef), ⟨1, 3⟩, ⟨2, 31⟩, ⟨3, 0⟩, ⟨4, 15⟩, ⟨5, 0⟩, ⟨6, 255⟩, ⟨7, 0⟩], q ∈ allQueues) := by
  refine ⟨⟨upHub, ?_⟩, ⟨upHub.setLane 3 { txq := { items := List.replicate 64 0, c := { high := true } } }, ?_⟩,
    ⟨upHub.setLane 3 { txq := { items := List.replicate 64 0 } }, ?_⟩, ⟨upHub.setLane 3 { txq := { c := { high := true } } }, ?_⟩, ?_⟩ <;>
    decide +kernel

theorem witness_ActiveHubJournalsCommands :
  (∃ (h : Hub) (body : List Word), h.twin.role = .active ∧ jstoreSize h.twin.store + 8 + 4 * body.length ≤ 131072) ∧
  (∃ (h : Hub) (body : List Word), h.twin.role = .active ∧ 131072 < jstoreSize h.twin.store + 8 + 4 * body.length) ∧
  (∃ (h : Hub) (c : CmdIn) (q : Fin 4) (run : Hub → CmdIn → Ack),
      let j := h.jnl 0x08 (word q.val :: word (c.code + c.tag * 65536 + c.rsv * 2 ^ 24) :: c.args)
    c.src = .queue q ∧ h.twin.role = .active ∧ h.served c = true ∧ j.precheck c = none ∧ ∃ k res, run j c = .done k res) ∧
  (∃ (h : Hub) (c : CmdIn) (q : Fin 4) (run : Hub → CmdIn → Ack),
      let j := h.jnl 0x08 (word q.val :: word (c.code + c.tag * 65536 + c.rsv * 2 ^ 24) :: c.args)
    c.src = .queue q ∧ h.twin.role = .active ∧ h.served c = true ∧ j.precheck c = none ∧ run j c = .refuse sEARG 0 0) ∧
  (∃ (h : Hub) (c : CmdIn) (q : Fin 4), c.src = .queue q ∧ h.twin.role = .active ∧ h.served c = true ∧
    (h.jnl 0x08 (word q.val :: word (c.code + c.tag * 65536 + c.rsv * 2 ^ 24) :: c.args)).precheck c = some (sEDENIED, 0, 0)) ∧
  (∃ (h : Hub) (c : CmdIn) (q : Fin 4), c.src = .queue q ∧ h.acts = false ∧ codeDefined c.code = true ∧ c.code ≠ 0x0C06 ∧
    familyIn (h.fld (Reg.HQ_CFG q) F.HQ_CFG_VERSION) (c.code / 256) = true ∧ h.fld (Reg.HQ_CFG q) F.HQ_CFG_VERSION ≠ 0 ∧
    c.code / 256 ≠ 9 ∧ c.code ≠ 0x0101) ∧
  (∃ (h : Hub) (c : CmdIn) (q : Fin 4), c.src = .queue q ∧ h.acts = false ∧ codeDefined c.code = true ∧ c.code ≠ 0x0C06 ∧
    familyIn (h.fld (Reg.HQ_CFG q) F.HQ_CFG_VERSION) (c.code / 256) = true ∧ h.fld (Reg.HQ_CFG q) F.HQ_CFG_VERSION ≠ 0 ∧
    (c.code / 256 = 9 ∨ c.code = 0x0101) ∧ c.rsv = 0) := by
  refine ⟨⟨(twinw .active id).hub, [], ?_⟩, ⟨(twinw .active id).hub, List.replicate 40000 0, ?_⟩,
    ⟨queueHub .active, mkCmd (.queue 0) 0x0103 0 [1], 0, fun h _ => .done h [], ?_⟩,
    ⟨queueHub .active, mkCmd (.queue 0) 0x0103 0 [1], 0, fun _ _ => .refuse sEARG 0 0, ?_⟩,
    ⟨queueHub .active, mkCmd (.queue 0) 0x0C06 0 [], 0, ?_⟩,
    ⟨queueHub .standby, mkCmd (.queue 0) 0x0103 0 [1], 0, ?_⟩, ⟨queueHub .standby, mkCmd (.queue 0) 0x0101 0 [], 0, ?_⟩⟩
  · decide +kernel
  · decide +kernel
  · exact ⟨rfl, rfl, by decide +kernel, by decide +kernel, _, _, rfl⟩
  · exact ⟨rfl, rfl, by decide +kernel, by decide +kernel, rfl⟩
  all_goals decide +kernel

theorem witness_OneInstructionPerSlot :
  (∃ (s : State) (c : Byte), s.hub.ownsSlot c.toNat = false ∨ (s.hub.ctx c.toNat).st ≠ .running ∨ (s.hub.ctx c.toNat).skip ≠ 0 ∨
    (s.hub.ctx c.toNat).wokeAt = some s.hub.now) ∧
  (∃ (s : State) (c : Byte), (s.hub.ctx c.toNat).wokeAt = some s.hub.now) ∧
  (∃ (h : Hub) (c : Nat), h.ownsSlot c = true) :=
  ⟨⟨up, 0, by decide +kernel⟩, ⟨upw fun h => h.setCtx 0 { wokeAt := some h.now }, 0, by decide +kernel⟩,
    ⟨(slotw 0 id).hub, 0, by decide +kernel⟩⟩

end Sys2Proof.Tests
end

/-! Sticky bits and saturating counters: the event registers with their enables and interrupt vectors (R5, R459), and the statistics
counters (R6). -/

namespace Sys2Proof.Machine

/-! ## Bits of register words -/

theorem testBit_eq_nat (n i : Nat) : testBit n i = n.testBit i := (Nat.testBit_eq_decide_div_mod_eq).symm

theorem testBit_toNat (x : Word) (i : Nat) : testBit x.toNat i = x.getLsbD i := testBit_eq_nat _ _

theorem toNat_word_of_le {n : Nat} (hn : n ≤ 0xFFFFFFFF) : (word n).toNat = n := by
  rw [word, BitVec.toNat_ofNat, Nat.mod_eq_of_lt (by omega)]

/-- Bit `i` of a word lies in the field. -/
def RegField.has (f : RegField) (i : Nat) : Bool := decide (f.lo ≤ i ∧ i < f.lo + f.width)

theorem RegField.has_add (f : RegField) {i : Nat} (hi : i < f.width) : f.has (f.lo + i) = true := by simp [RegField.has, hi]

/-- A write of one W1C field clears the bits of the field to which 1 is written (R4). -/
theorem getLsbD_clear_field (x w : Word) (f : RegField) (i : Nat) :
    (x &&& ~~~putBits 0 (f.lo, f.width) (bits w (f.lo, f.width))).getLsbD i = (x.getLsbD i && !(w.getLsbD i && f.has i)) := by
  by_cases h32 : i < 32
  · rw [BitVec.getLsbD_and, BitVec.getLsbD_not, getLsbD_putBits, testBit_bits, RegField.has]
    by_cases hin : f.lo ≤ i ∧ i < f.lo + f.width
    · have hback : f.lo + (i - f.lo) = i := by omega
      have hwidth : i - f.lo < f.width := by omega
      simp [hin, hback, hwidth, h32]
    · simp [hin, h32]
  · rw [BitVec.getLsbD_of_ge _ i (by omega), BitVec.getLsbD_of_ge x i (by omega), Bool.false_and]

/-- A word of W1C fields after a write: a bit is cleared where a field has it and 1 is written to it. -/
theorem getLsbD_applyFields_w1c (live : Bool) (w : Word) (fs : List RegField) (i : Nat) (hw : ∀ f ∈ fs, f.acc = .w1c) :
    ∀ (x : Word) (bad : Bool),
      (applyFields live w fs (x, bad)).1.getLsbD i = (x.getLsbD i && !(w.getLsbD i && fs.any (·.has i))) := by
  induction fs with
  | nil => simp [applyFields]
  | cons f fs ih =>
    intro x bad
    have hf : f.acc = .w1c := hw f (by simp)
    have ih := ih fun g hg => hw g (by simp [hg])
    simp only [applyFields, hf, ih, getLsbD_clear_field, List.any_cons]
    cases w.getLsbD i <;> simp [Bool.and_assoc]

/-- Setting an event bit sets it and no other (R5). -/
theorem Hub.testBit_rd_evt (h : Hub) (a n m : Nat) (hn : n < 32) :
    testBit ((h.evt a (n, 1)).rd a).toNat m = (testBit (h.rd a).toNat m || decide (n = m)) := by
  rw [testBit_toNat, testBit_toNat, Hub.evt, Hub.rd_wr_same, getLsbD_or_two_pow _ _ _ hn]

/-! ## Enabled events and vectors -/

/-- The event registers of the blocks, lanes, engines, controllers and channels (R5). -/
def eventRegs : List Nat :=
  [Reg.GLB_EVT, Reg.HOST_EVT, Reg.TIME_EVT, Reg.TWIN_EVT, Reg.RING_EVT, Reg.SWC_EVT, Reg.TM_EVT, Reg.CAR_EVT, Reg.CRC_EVT,
    Reg.USB_EVT, Reg.NET_EVT, Reg.PTM_EVT, Reg.LANE_EVT, Reg.FRET_EVT] ++ (List.range 96).map Reg.LN_EVT ++
    (List.range 32).map Reg.FR_EVT ++ (List.range 16).map Reg.CAN_EVT ++ (List.range 16).map Reg.NET_N_EVT

/-- The register map gives every event register W1C fields, and the word after it the same fields as RW enables. -/
theorem fieldsAt_eventRegs : ∀ a ∈ eventRegs, fieldsAt a ≠ [] ∧ (∀ f ∈ fieldsAt a, f.acc = .w1c) ∧
    (fieldsAt (a + 4)).map (fun f => (f.lo, f.width)) = (fieldsAt a).map (fun f => (f.lo, f.width)) ∧
    ∀ f ∈ fieldsAt (a + 4), f.acc = .rw := by decide +kernel

theorem Hub.evPend_iff (h : Hub) (a en : Nat) :
    h.evPend a en = true ↔ ∃ n, n < 32 ∧ testBit (h.rd a).toNat n = true ∧ testBit (h.rd en).toNat n = true := by
  simp only [Hub.evPend, decide_eq_true_eq, testBit_toNat]
  constructor
  · intro hne
    by_contra hno
    push Not at hno
    exact hne (BitVec.eq_of_getLsbD_eq fun i hi => by simpa using hno i hi)
  · rintro ⟨n, -, ha, hen⟩ h0
    simpa [ha, hen] using congrArg (·.getLsbD n) h0

theorem Hub.evPend_of_enables_zero (h : Hub) (a : Nat) {en : Nat} (hen : h.rd en = 0) : h.evPend a en = false := by
  simp [Hub.evPend, hen]

theorem LN_EVT_EN_eq (i : Nat) : Reg.LN_EVT_EN i = Reg.LN_EVT i + 4 := by unfold Reg.LN_EVT_EN Reg.LN_EVT; omega
theorem FR_EVT_EN_eq (i : Nat) : Reg.FR_EVT_EN i = Reg.FR_EVT i + 4 := by unfold Reg.FR_EVT_EN Reg.FR_EVT; omega
theorem CAN_EVT_EN_eq (i : Nat) : Reg.CAN_EVT_EN i = Reg.CAN_EVT i + 4 := by unfold Reg.CAN_EVT_EN Reg.CAN_EVT; omega
theorem NET_N_EVT_EN_eq (i : Nat) : Reg.NET_N_EVT_EN i = Reg.NET_N_EVT i + 4 := by unfold Reg.NET_N_EVT_EN Reg.NET_N_EVT; omega

/-- No source is asserted while every enable word is 0: each source is made of event registers with the enables of the next word. -/
theorem Hub.irqSource_of_enables_zero (h : Hub) (h0 : ∀ a ∈ eventRegs, h.rd (a + 4) = 0) (s : Nat) : h.irqSource s = false := by
  have block (a : Nat) (ha : a ∈ eventRegs) {en : Nat} (hen : en = a + 4) : h.evPend a en = false :=
    h.evPend_of_enables_zero a (hen ▸ h0 a ha)
  have bank {evt evtEn : Nat → Nat} (hen : ∀ i, evtEn i = evt i + 4) {k : Nat} (hk : ∀ i < k, evt i ∈ eventRegs) :
      ((List.range k).any fun i => h.evPend (evt i) (evtEn i)) = false :=
    List.any_eq_false.2 fun i hi => by simp [block _ (hk i (List.mem_range.1 hi)) (hen i)]
  unfold Hub.irqSource
  split
  -- Lanes, Fret Engines and Net channels: the block's own register and those of its units.
  case h_9 => exact Bool.or_eq_false_iff.2 ⟨block _ (by decide) rfl, bank LN_EVT_EN_eq (by decide +kernel)⟩
  case h_10 => exact Bool.or_eq_false_iff.2 ⟨block _ (by decide) rfl, bank FR_EVT_EN_eq (by decide +kernel)⟩
  case h_14 => exact Bool.or_eq_false_iff.2 ⟨block _ (by decide) rfl, bank NET_N_EVT_EN_eq (by decide +kernel)⟩
  -- CAN controllers: those of the units only.
  case h_11 => exact bank CAN_EVT_EN_eq (by decide +kernel)
  -- The numbers that are no source.
  case h_16 => rfl
  all_goals exact block _ (by decide) rfl

theorem testBit_foldl_lor (p : Nat → Bool) (e : Nat → Nat) (v : Nat) (l : List Nat) : ∀ m : Nat,
    (l.foldl (fun m s => if p s then Nat.lor m (2 ^ e s) else m) m).testBit v =
      (m.testBit v || l.any fun s => p s && decide (e s = v)) := by
  induction l with
  | nil => simp
  | cons s l ih =>
    intro m
    have hset : (Nat.lor m (2 ^ e s)).testBit v = (m.testBit v || decide (e s = v)) := by
      rw [← Nat.testBit_two_pow]; exact Nat.testBit_or ..
    rw [List.foldl_cons, ih, List.any_cons]
    cases p s
    · simp
    · rw [if_pos rfl, hset, Bool.true_and, Bool.or_assoc]

/-- A vector is asserted exactly where an enabled and asserted source is mapped to it (R459). -/
theorem Hub.testBit_vectors (h : Hub) (v : Nat) : testBit h.vectors v = true ↔
    ∃ s, s < 29 ∧ h.irqEn s = true ∧ h.irqSource s = true ∧ h.fld (Reg.HOST_IRQ_MAP s) F.HOST_IRQ_MAP_VEC = v := by
  rw [testBit_eq_nat, Hub.vectors, testBit_foldl_lor (fun s => h.irqEn s && h.irqSource s)]
  simp [and_assoc]

/-! ## Statistics counters -/

/-- A counter that is a field reads one more, or the largest value of its width (R6). -/
theorem Hub.fld_countFld (h : Hub) (a : Nat) (f : Nat × Nat) (hf : f.1 + f.2 ≤ 32) :
    (h.countFld a f).fld a f = min (2 ^ f.2 - 1) (h.fld a f + 1) := by
  have hlt : min (2 ^ f.2 - 1) (h.fld a f + 1) < 2 ^ f.2 := by have := Nat.two_pow_pos f.2; omega
  rw [Hub.countFld, Hub.fld_setFld h a f _ hf, Nat.mod_eq_of_lt hlt]

/-! ## The statements -/

/-- Settles O10, from what each field of the register map is and from the bits that a sticky set, a W1C write and the vectors leave. -/
theorem eventRegisters : Obligations.EventRegisters := by
  unfold Obligations.EventRegisters
  refine ⟨fieldsAt_eventRegs, fun a ha x w f hf i hi => ?_, fun h a n hn => ⟨?_, fun m hm => ?_, fun b hb => h.rd_evt_ne _ hb⟩,
    Hub.evPend_iff, fun h h0 v => ?_, fun h s hs hen => ?_⟩
  · obtain ⟨-, hw, -⟩ := fieldsAt_eventRegs a ha
    have hin : (fieldsAt a).any (·.has (f.lo + i)) = true := List.any_eq_true.2 ⟨f, hf, f.has_add hi⟩
    rw [testBit_toNat, testBit_toNat, testBit_toNat, getLsbD_applyFields_w1c _ _ _ _ hw, hin, Bool.and_true]
  · simp [h.testBit_rd_evt a n n hn]
  · simp [h.testBit_rd_evt a n m hn, Ne.symm hm]
  · refine Bool.eq_false_iff.2 fun hv => ?_
    obtain ⟨s, -, -, hsrc, -⟩ := (h.testBit_vectors v).1 hv
    simp [h.irqSource_of_enables_zero h0 s] at hsrc
  · cases hsrc : h.irqSource s
    · exact .inr rfl
    · exact .inl ((h.testBit_vectors _).2 ⟨s, hs, hen, hsrc, rfl⟩)

/-- Settles O9, from what a read of a counter answers after counting. -/
theorem countersSaturate : Obligations.CountersSaturate := by
  unfold Obligations.CountersSaturate
  refine ⟨fun h a n => ⟨?_, fun b hb => h.rd_countN_ne n hb⟩, fun h a f hf => ⟨h.fld_countFld a f hf, fun g hg => ?_,
    fun b hb => h.rd_countFld_ne f hb⟩⟩
  · rw [h.rd_countN, toNat_word_of_le (Nat.min_le_left ..)]
  · exact h.fld_setFld_ne a f g _ hg.symm

end Sys2Proof.Machine

/-! The Carousel's branches and jumps (R192, R193): what each comes to for a context that stands at it in its slot. -/

namespace Sys2Proof.Machine

/-! ## Fields of the words and registers -/

theorem fRd_lt (i : Word) : fRd i < 16 := Nat.mod_lt _ (by decide)

theorem fOp_of_rowOf {i : Word} {row : Nat × Nat} (h : rowOf i = row) : fOp i = row.1 := congrArg Prod.fst h

theorem Hub.progHi_lt (h : Hub) (c : Nat) : h.progHi c < 65536 := Nat.mod_lt _ (by decide)

@[simp] theorem Hub.progLo_ctxSees (h : Hub) (c m : Nat) : (h.ctxSees c).progLo m = h.progLo m := rfl
@[simp] theorem Hub.progHi_ctxSees (h : Hub) (c m : Nat) : (h.ctxSees c).progHi m = h.progHi m := rfl

/-! ## The table of conditions -/

/-- The conditions of R192 in the order of their codes. -/
def Ctx.conditions (x : Ctx) : List Bool :=
  [true, x.z, !x.z, decide (x.n ≠ x.v), decide (x.n = x.v), x.z || decide (x.n ≠ x.v), !x.z && decide (x.n = x.v), !x.c, x.c,
    !x.c || x.z, x.c && !x.z, x.n, !x.n, x.i, !x.i, x.l]

theorem Ctx.conditions_eq_map_cond (x : Ctx) : x.conditions = (List.range 16).map x.cond := by
  simp [Ctx.conditions, Ctx.cond, List.range_succ, bne, beq_eq_decide]

/-- Every code of a `B` names the condition that the model evaluates for it. -/
theorem Ctx.conditions_getElem? (x : Ctx) {code : Nat} (hc : code < 16) : x.conditions[code]? = some (x.cond code) := by
  simp [x.conditions_eq_map_cond, hc]

/-! ## What the instructions come to -/

theorem Hub.isaB_at {h : Hub} {c : Nat} {i : Word} (ha : h.ctxAt c (8, 0) i) :
    h.isaB c = if (h.ctxNow c).cond (fRd i) then (h.ctxSees c).ctxJump c (fImm i) else (h.ctxSees c).ctxDone c 1 := by
  rw [Hub.isaB, Hub.issue_at _ ha, apply_ite ((h.ctxSees c).isaFinish c), Hub.isaFinish_goto, Hub.isaFinish_done]

/-- The hub in which a jump has written its link (R193). -/
def Hub.ctxLinks (h : Hub) (c : Nat) (i : Word) : Hub :=
  (h.ctxSees c).setCtx c ((h.ctxNow c).set (fRd i) (word ((h.ctxNow c).pc + 1)))

theorem Hub.isaJal_at {h : Hub} {c : Nat} {i : Word} (ha : h.ctxAt c (9, 0) i) :
    h.isaJal c = (h.ctxLinks c i).ctxJump c (fImm i) := by
  rw [Hub.isaJal, Hub.issue_at _ ha, Hub.isaFinish_goto, Hub.ctxLinks]

theorem Hub.isaJr_at {h : Hub} {c : Nat} {i : Word} (ha : h.ctxAt c (10, 0) i) :
    h.isaJr c =
      if ((h.ctxNow c).reg (fRs1 i)).toNat < h.progLo c ∨ h.progHi c < ((h.ctxNow c).reg (fRs1 i)).toNat then
        (h.ctxSees c).useSlot.carFault c 2
      else (h.ctxLinks c i).ctxJump c ((h.ctxNow c).reg (fRs1 i)).toNat := by
  rw [Hub.isaJr, Hub.issue_at _ ha, apply_ite ((h.ctxSees c).isaFinish c), Hub.isaFinish_goto, Hub.isaFinish_fault, Hub.progLo_ctxSees,
    Hub.progHi_ctxSees, Hub.ctxLinks, fltPcRange]

/-- A program lies in the first 65536 words, so a register with a high half points outside it: the one comparison of the whole register
does both checks of R193. -/
theorem Hub.outsideProgram_iff (h : Hub) (c t : Nat) : (t < h.progLo c ∨ h.progHi c < t) ↔
    t / 65536 ≠ 0 ∨ t % 65536 < h.progLo c ∨ h.progHi c < t % 65536 := by
  have hhi := h.progHi_lt c
  omega

/-! ## Words that are not defined (R185) -/

theorem wordDefined_b_of_rs1 {i : Word} (hr : rowOf i = (8, 0)) (h1 : fRs1 i ≠ 0) : wordDefined i = false := by
  simp [wordDefined, fOp_of_rowOf hr, h1]

theorem wordDefined_jr_of_rs2_or_fn {i : Word} (hr : rowOf i = (10, 0)) (h1 : fRs2 i ≠ 0 ∨ fFn i ≠ 0) : wordDefined i = false := by
  simpa [wordDefined, fOp_of_rowOf hr, imp_iff_not_or] using h1

/-! ## The statements -/

/-- Settles O28, from what `B` comes to and from the condition that each code names. -/
theorem branchesByCondition : Obligations.BranchesByCondition := by
  unfold Obligations.BranchesByCondition
  refine ⟨fun s c i => ?_, fun i => wordDefined_b_of_rs1⟩
  intro x k holds hh ha
  have hcode : holds[fRd i]? = some (x.cond (fRd i)) := x.conditions_getElem? (fRd_lt i)
  have hmake : Makes (.b c) s (if x.cond (fRd i) then k.ctxJump c.toNat (fImm i) else k.ctxDone c.toNat 1) :=
    makes_on (fun h => h.isaB c.toNat) hh rfl (Hub.isaB_at ha)
  rw [hcode]
  refine ⟨fun ht => ?_, fun hf => ?_, Option.some_ne_none _⟩
  · rwa [if_pos (Option.some.inj ht)] at hmake
  · rwa [if_neg (Bool.eq_false_iff.1 (Option.some.inj hf))] at hmake

/-- Settles O29, from what `JAL` and `JR` come to and from what makes the target of a `JR` lie outside the program. -/
theorem jumpsAndLinks : Obligations.JumpsAndLinks := by
  unfold Obligations.JumpsAndLinks
  refine ⟨fun s c i hh ha => makes_on (fun h => h.isaJal c.toNat) hh rfl (Hub.isaJal_at ha), fun s c i => ?_,
    fun i => wordDefined_jr_of_rs2_or_fn⟩
  intro x w dest k hh ha
  have hmake := makes_on (fun h => h.isaJr c.toNat) hh (i := .jr c) rfl (Hub.isaJr_at ha)
  refine ⟨fun hhigh hlo hhi => ?_, fun hout => ?_⟩
  · have hdest : w.toNat = dest := (Nat.mod_eq_of_lt (by omega)).symm
    have hin : ¬ (w.toNat < s.hub.progLo c.toNat ∨ s.hub.progHi c.toNat < w.toNat) := by omega
    rw [if_neg hin] at hmake
    exact hdest ▸ hmake
  · rwa [if_pos ((s.hub.outsideProgram_iff c.toNat w.toNat).2 hout)] at hmake

end Sys2Proof.Machine

/-! The key fuses (R483): the key check of a slot, what boot step 2 and `SVC_FUSE_KEY` make the registers show, and that no step changes
programmed fuses. -/

namespace Sys2Proof.Machine

/-! ## The key check of a slot (R481) -/

/-- The first check of R481 fails: the slot holds no image of this format. -/
def NonVol.noImage (nv : NonVol) (slot : Nat) : Prop := beAt (nv.manifest slot) 0 4 ≠ 0x4E48494D ∨ beAt (nv.manifest slot) 4 2 ≠ 1

theorem slotResult_of_noImage {nv : NonVol} {slot : Nat} (stepping : Nat) (hm : nv.noImage slot) : slotResult nv stepping slot = 1 :=
  if_pos hm

/-- The key check is the one that fails exactly where there is an image and programmed fuses hold another hash than its key's. -/
theorem slotResult_eq_two_iff (nv : NonVol) (stepping slot : Nat) : slotResult nv stepping slot = 2 ↔
    ¬ nv.noImage slot ∧ ∃ key, nv.fuse = some key ∧ (sha512 (slice (nv.manifest slot) 4000 32)).take 32 ≠ key := by
  by_cases hm : nv.noImage slot
  · simp [slotResult_of_noImage stepping hm, hm]
  · rw [slotResult, if_neg (by exact hm)]
    cases nv.fuse with
    | none =>
      simp only [Bool.false_eq_true, if_false]
      split_ifs <;> simp
    | some key =>
      simp only [decide_eq_true_eq]
      split_ifs with hkey <;> simp [hm, hkey]

/-! ## The fuses as the registers show them -/

theorem GLB_KEY_HASH_injective : Function.Injective Reg.GLB_KEY_HASH := fun i j h => by
  unfold Reg.GLB_KEY_HASH at h
  omega

/-- Words written at different addresses one after the other all stand. -/
theorem Hub.rd_foldl_wr_range {addr : Nat → Nat} (hinj : Function.Injective addr) (val : Nat → Word) (h : Hub) {n i : Nat} (hi : i < n) :
    ((List.range n).foldl (fun h i => h.wr (addr i) (val i)) h).rd (addr i) = val i := by
  induction n with
  | zero => omega
  | succ n ih =>
    rw [List.range_succ, List.foldl_append, List.foldl_cons, List.foldl_nil, Hub.rd_wr]
    by_cases hn : i = n
    · rw [if_pos (hn ▸ rfl), hn]
    · rw [if_neg fun e => hn (hinj e)]
      exact ih (by omega)

theorem Hub.flag_setFld_bitB (h : Hub) (a n : Nat) (b : Bool) (hn : n < 32) : (h.setFld a (n, 1) (bitB b)).flag a (n, 1) = b := by
  rw [Hub.flag, Hub.fld_setFld h a (n, 1) _ hn]
  cases b <;> rfl

theorem Hub.rd_readFuses_keyHash (h : Hub) {nv : NonVol} {key : List Byte} (hf : nv.fuse = some key) {i : Nat} (hi : i < 8) :
    (h.readFuses nv).rd (Reg.GLB_KEY_HASH i) = word (beAt key (4 * i) 4) := by
  have hne : Reg.GLB_KEY_HASH i ≠ Reg.GLB_KEY_LOCKED := by
    unfold Reg.GLB_KEY_HASH Reg.GLB_KEY_LOCKED
    omega
  simp only [Hub.readFuses, hf, Hub.rd_setFld_ne _ _ _ hne]
  exact Hub.rd_foldl_wr_range GLB_KEY_HASH_injective _ _ hi

theorem Hub.flag_readFuses_keyLocked (h : Hub) {nv : NonVol} {key : List Byte} (hf : nv.fuse = some key) :
    (h.readFuses nv).flag Reg.GLB_KEY_LOCKED F.GLB_KEY_LOCKED_KEY_LOCKED = true := by
  simp only [Hub.readFuses, hf]
  exact Hub.flag_setFld_bitB _ _ 0 true (by decide)

/-! ## Boot step 2 (R484) -/

/-- The hub once boot step 2 has read the fuses: the key hash and its lock, and `UNSECURED`. -/
def Hub.bootFuses (h : Hub) (nv : NonVol) : Hub :=
  (h.readFuses nv).setFld Reg.GLB_BOOT F.GLB_BOOT_UNSECURED (bitB nv.fuse.isNone)

/-- A good identity block gives the ring's MAC address (R478). -/
theorem Hub.bootIdent_regs_of_identOk (h : Hub) {nv : NonVol} (hg : identOk (nv.bytes 0 256) = true) :
    (h.bootIdent nv).regs = (((h.bootFuses nv).wr Reg.RING_MAC_LO (word (beAt (nv.bytes 0 256) 10 6))).wr
      Reg.RING_MAC_HI (word (beAt (nv.bytes 0 256) 10 6 / 2 ^ 32))).regs := by
  simp only [Hub.bootIdent, if_pos hg]
  split <;> rfl

theorem Hub.bootIdent_of_not_identOk (h : Hub) {nv : NonVol} (hg : identOk (nv.bytes 0 256) = false) :
    h.bootIdent nv = (h.bootFuses nv).setFld Reg.GLB_BOOT F.GLB_BOOT_IDENT_BAD 1 := if_neg (Bool.eq_false_iff.1 hg)

theorem Hub.rd_bootIdent_ne (h : Hub) (nv : NonVol) {a : Nat} (hb : a ≠ Reg.GLB_BOOT) (hlo : a ≠ Reg.RING_MAC_LO)
    (hhi : a ≠ Reg.RING_MAC_HI) : (h.bootIdent nv).rd a = (h.readFuses nv).rd a := by
  have hfuses : (h.bootFuses nv).rd a = (h.readFuses nv).rd a := Hub.rd_setFld_ne _ _ _ hb
  cases hg : identOk (nv.bytes 0 256) with
  | true => rw [Hub.rd_congr (h.bootIdent_regs_of_identOk hg), Hub.rd_wr_ne _ _ hhi, Hub.rd_wr_ne _ _ hlo, hfuses]
  | false => rw [h.bootIdent_of_not_identOk hg, Hub.rd_setFld_ne _ _ _ hb, hfuses]

theorem Hub.rd_bootIdent_keyHash (h : Hub) {nv : NonVol} {key : List Byte} (hf : nv.fuse = some key) {i : Nat} (hi : i < 8) :
    (h.bootIdent nv).rd (Reg.GLB_KEY_HASH i) = word (beAt key (4 * i) 4) := by
  have haddr : Reg.GLB_KEY_HASH i = 0x40 + 0x4 * i := rfl
  have hboot : Reg.GLB_KEY_HASH i ≠ Reg.GLB_BOOT := by rw [haddr, Reg.GLB_BOOT]; omega
  have hlo : Reg.GLB_KEY_HASH i ≠ Reg.RING_MAC_LO := by rw [haddr, Reg.RING_MAC_LO]; omega
  have hhi : Reg.GLB_KEY_HASH i ≠ Reg.RING_MAC_HI := by rw [haddr, Reg.RING_MAC_HI]; omega
  rw [h.rd_bootIdent_ne nv hboot hlo hhi, h.rd_readFuses_keyHash hf hi]

theorem Hub.flag_bootIdent_keyLocked (h : Hub) {nv : NonVol} {key : List Byte} (hf : nv.fuse = some key) :
    (h.bootIdent nv).flag Reg.GLB_KEY_LOCKED F.GLB_KEY_LOCKED_KEY_LOCKED = true := by
  rw [Hub.flag_of_rd _ (h.rd_bootIdent_ne nv (by decide) (by decide) (by decide)), h.flag_readFuses_keyLocked hf]

theorem Hub.flag_bootIdent_unsecured (h : Hub) (nv : NonVol) :
    (h.bootIdent nv).flag Reg.GLB_BOOT F.GLB_BOOT_UNSECURED = nv.fuse.isNone := by
  have hfuses : (h.bootFuses nv).flag Reg.GLB_BOOT F.GLB_BOOT_UNSECURED = nv.fuse.isNone := Hub.flag_setFld_bitB _ _ 4 _ (by decide)
  cases hg : identOk (nv.bytes 0 256) with
  | true =>
    have hrd : (h.bootIdent nv).rd Reg.GLB_BOOT = (h.bootFuses nv).rd Reg.GLB_BOOT := by
      rw [Hub.rd_congr (h.bootIdent_regs_of_identOk hg), Hub.rd_wr_ne _ _ (by decide), Hub.rd_wr_ne _ _ (by decide)]
    rw [Hub.flag_of_rd _ hrd, hfuses]
  | false =>
    rw [← hfuses, h.bootIdent_of_not_identOk hg, Hub.flag, Hub.flag, Hub.fld_setFld_ne _ _ _ _ _ (.inr (by decide))]

/-! ## Requests of the service port (R490) -/

/-- A request that is no repetition of the one before has its effect and is answered. -/
theorem State.serve_fresh {s : State} {typ seq : Nat} (hh : s.hub.held = false) (hf : s.hub.svcFresh typ seq) (run : Hub → NonVol → SvcAck) :
    s.serve typ seq run = s.svcDone typ seq (run s.hub.svcHeard s.nv).hub (run s.hub.svcHeard s.nv).nv (run s.hub.svcHeard s.nv).status
      (run s.hub.svcHeard s.nv).rest := by
  have hnew : (s.hub.glb.svcPrev.filter fun p => p.1 == typ && p.2.1 == seq) = none := by
    rw [Option.filter_eq_none_iff]
    intro p hp hsame
    obtain ⟨ht, hq⟩ : p.1 = typ ∧ p.2.1 = seq := by simpa using hsame
    exact hf p.2.2 (by rw [hp, ← ht, ← hq])
  simp only [State.serve, hh, Bool.false_eq_true, if_false, Hub.setGlb_glb, hnew]
  rfl

/-- Whatever a request finds, the non-volatile memories are afterwards as before, or as its effect leaves them. -/
theorem State.serve_nv (s : State) (typ seq : Nat) (run : Hub → NonVol → SvcAck) :
    (s.serve typ seq run).nv = s.nv ∨ ∃ h, (s.serve typ seq run).nv = (run h s.nv).nv := by
  unfold State.serve
  split
  · exact .inl rfl
  · dsimp only
    split
    · exact .inl rfl
    · exact .inr ⟨_, rfl⟩

@[simp] theorem State.svcDone_regs (s : State) (typ seq : Nat) (h : Hub) (nv : NonVol) (status : Nat) (rest : List Byte) :
    (s.svcDone typ seq h nv status rest).hub.regs = h.regs := rfl

/-! ## Programming the key fuses (R483) -/

theorem svcFuseKey_blank {h : Hub} {nv : NonVol} {key : List Byte} (hf : nv.fuse = none) (hl : key.length = 32) :
    svcFuseKey key h nv = { hub := h.readFuses { nv with fuse := some key }, nv := { nv with fuse := some key }, status := sOK } := by
  simp [svcFuseKey, hf, hl]

/-- On blank fuses the request programs them and shows them in the registers (R483). -/
theorem exec_svcFuseKey_blank {s : State} {q : Byte} {key : List Byte} (hh : s.hub.held = false) (hnew : s.hub.svcFresh 9 q.toNat)
    (hf : s.nv.fuse = none) (hl : key.length = 32) :
    exec (.svcFuseKey q true key) s = .next (s.svcDone 9 q.toNat ((s.hub.svcHeard.setWp true).readFuses { s.nv with fuse := some key })
      { s.nv with fuse := some key } sOK []) := by
  have hrun : needsWp true (svcFuseKey key) s.hub.svcHeard s.nv = svcFuseKey key (s.hub.svcHeard.setWp true) s.nv := rfl
  rw [svcFuseKey_blank hf hl] at hrun
  have hexec : exec (.svcFuseKey q true key) s = .next (s.serve 9 q.toNat (needsWp true (svcFuseKey key))) := rfl
  rw [hexec, State.serve_fresh hh hnew, hrun]

/-! ## Programmed fuses never change -/

@[simp] theorem svcRefuse_nv (h : Hub) (nv : NonVol) (status : Nat) : (svcRefuse h nv status).nv = nv := rfl

/-- The effect of a request leaves programmed key fuses as they are. -/
def KeepsFuses (run : Hub → NonVol → SvcAck) : Prop := ∀ h nv key, nv.fuse = some key → (run h nv).nv.fuse = some key

theorem keepsFuses_of_fuse_eq {run : Hub → NonVol → SvcAck} (hr : ∀ h nv, (run h nv).nv.fuse = nv.fuse) : KeepsFuses run :=
  fun h nv _ hf => (hr h nv).trans hf

theorem KeepsFuses.needsWp {run : Hub → NonVol → SvcAck} (hr : KeepsFuses run) (wp : Bool) : KeepsFuses (needsWp wp run) := by
  intro h nv key hf
  cases wp
  · exact hf
  · exact hr _ nv key hf

theorem svcBaud_keepsFuses (div : Nat) : KeepsFuses (svcBaud div) := keepsFuses_of_fuse_eq fun h nv => by
  unfold svcBaud
  split <;> rfl

theorem svcRead_keepsFuses (addr len : Nat) : KeepsFuses (svcRead addr len) := keepsFuses_of_fuse_eq fun h nv => by
  unfold svcRead
  split <;> rfl

theorem svcStageOpen_keepsFuses (sel len : Nat) : KeepsFuses (svcStageOpen sel len) := keepsFuses_of_fuse_eq fun h nv => by
  simp only [svcStageOpen]
  split_ifs <;> rfl

theorem svcStageWrite_keepsFuses (off : Nat) (bs : List Byte) (out : FlashEnd) : KeepsFuses (svcStageWrite off bs out) :=
  keepsFuses_of_fuse_eq fun h nv => by
    unfold svcStageWrite
    cases h.glb.stage with
    | none => rfl
    | some g =>
      dsimp only
      split
      · rfl
      · split
        · rfl
        · cases out <;> dsimp only <;> split <;> rfl

theorem svcStageClose_keepsFuses : KeepsFuses svcStageClose := keepsFuses_of_fuse_eq fun h nv => by
  unfold svcStageClose
  cases h.glb.stage with
  | none => rfl
  | some g => dsimp only; split <;> rfl

theorem svcStageAbort_keepsFuses : KeepsFuses svcStageAbort := keepsFuses_of_fuse_eq fun h nv => by
  unfold svcStageAbort
  split <;> rfl

theorem svcIdentWrite_keepsFuses (bs : List Byte) : KeepsFuses (svcIdentWrite bs) := keepsFuses_of_fuse_eq fun h nv => by
  unfold svcIdentWrite
  split_ifs <;> rfl

theorem svcReset_keepsFuses (kind : Nat) : KeepsFuses (svcReset kind) := keepsFuses_of_fuse_eq fun h nv => by
  unfold svcReset
  split <;> rfl

/-- The request that programs the fuses refuses programmed ones. -/
theorem svcFuseKey_keepsFuses (bs : List Byte) : KeepsFuses (svcFuseKey bs) := fun h nv key hf => by
  have hset : nv.fuse.isSome = true := by rw [hf]; rfl
  rw [svcFuseKey, if_pos hset, svcRefuse_nv, hf]

theorem State.serve_fuse {s : State} {key : List Byte} (hk : s.nv.fuse = some key) {run : Hub → NonVol → SvcAck} (hr : KeepsFuses run)
    (typ seq : Nat) : (s.serve typ seq run).nv.fuse = some key := by
  obtain hnv | ⟨h, hnv⟩ := s.serve_nv typ seq run
  · rw [hnv, hk]
  · rw [hnv, hr h s.nv key hk]

theorem State.svcOther_fuse {s : State} {key : List Byte} (hk : s.nv.fuse = some key) (bs : List Byte) :
    (s.svcOther bs).nv.fuse = some key := by
  unfold State.svcOther
  split
  · split
    · exact State.serve_fuse hk (keepsFuses_of_fuse_eq fun _ _ => rfl) _ _
    · exact hk
  · exact hk

/-- A command other than a frame of the service port acts on the hub alone. -/
theorem exec_hub_of_not_service {i : Instr} (hi : isService i = false) (s : State) : ∃ h, exec i s = .next { s with hub := h } := by
  cases i with
  | svcHello | svcBaud | svcRead | svcStageOpen | svcStageWrite | svcStageClose | svcStageAbort | svcIdentWrite | svcFuseKey | svcStatus
  | svcReset | svcBadFrame => cases hi
  | _ => exact ⟨_, rfl⟩

/-- A frame of the service port answers a next state, in which programmed fuses are as before. -/
theorem exec_service_fuse {i : Instr} (hi : isService i = true) {s : State} {key : List Byte} (hk : s.nv.fuse = some key) :
    ∃ t, exec i s = .next t ∧ t.nv.fuse = some key := by
  cases i with
  | svcHello seq => exact ⟨_, rfl, State.serve_fuse hk (keepsFuses_of_fuse_eq fun _ _ => rfl) _ _⟩
  | svcBaud seq div => exact ⟨_, rfl, State.serve_fuse hk (svcBaud_keepsFuses _) _ _⟩
  | svcRead seq addr len => exact ⟨_, rfl, State.serve_fuse hk (svcRead_keepsFuses _ _) _ _⟩
  | svcStageOpen seq wp sel len => exact ⟨_, rfl, State.serve_fuse hk ((svcStageOpen_keepsFuses _ _).needsWp wp) _ _⟩
  | svcStageWrite seq wp off bs out => exact ⟨_, rfl, State.serve_fuse hk ((svcStageWrite_keepsFuses _ bs out).needsWp wp) _ _⟩
  | svcStageClose seq wp => exact ⟨_, rfl, State.serve_fuse hk (svcStageClose_keepsFuses.needsWp wp) _ _⟩
  | svcStageAbort seq => exact ⟨_, rfl, State.serve_fuse hk svcStageAbort_keepsFuses _ _⟩
  | svcIdentWrite seq wp bs => exact ⟨_, rfl, State.serve_fuse hk ((svcIdentWrite_keepsFuses bs).needsWp wp) _ _⟩
  | svcFuseKey seq wp bs => exact ⟨_, rfl, State.serve_fuse hk ((svcFuseKey_keepsFuses bs).needsWp wp) _ _⟩
  | svcStatus seq => exact ⟨_, rfl, State.serve_fuse hk (keepsFuses_of_fuse_eq fun _ _ => rfl) _ _⟩
  | svcReset seq kind => exact ⟨_, rfl, State.serve_fuse hk (svcReset_keepsFuses _) _ _⟩
  | svcBadFrame bs => exact ⟨_, rfl, State.svcOther_fuse hk bs⟩
  | _ => cases hi

theorem exec_keeps_fuse {i : Instr} {s t : State} {key : List Byte} (hk : s.nv.fuse = some key) (he : exec i s = .next t) :
    t.nv.fuse = some key := by
  cases hi : isService i with
  | false =>
    obtain ⟨h, hs⟩ := exec_hub_of_not_service hi s
    cases hs.symm.trans he
    exact hk
  | true =>
    obtain ⟨u, hs, hu⟩ := exec_service_fuse hi hk
    cases hs.symm.trans he
    exact hu

theorem step_keeps_fuse {s t : State} {key : List Byte} (hk : s.nv.fuse = some key) (hs : step s = .next t) : t.nv.fuse = some key := by
  cases hp : s.pending with
  | nil =>
    rw [step, hp] at hs
    cases hs
    exact hk
  | cons c rest =>
    rw [step, hp] at hs
    exact exec_keeps_fuse (s := { s with pending := rest }) hk hs

/-! ## The statement -/

/-- Settles O6, from where the key check fails, from what boot step 2 and `SVC_FUSE_KEY` make the registers show, and from what a step
can do to programmed fuses. -/
theorem keyFusesProgramOnce : Obligations.KeyFusesProgramOnce := by
  unfold Obligations.KeyFusesProgramOnce
  refine ⟨fun nv stepping slot hf hres => ?_, fun nv stepping slot key hf hkey => ?_, Hub.flag_bootIdent_unsecured,
    fun h nv key hf => ⟨fun i => h.rd_bootIdent_keyHash hf, h.flag_bootIdent_keyLocked hf⟩, fun s q key hh hnew hf hl => ?_,
    fun s t key => step_keeps_fuse⟩
  · obtain ⟨-, key, hsome, -⟩ := (slotResult_eq_two_iff nv stepping slot).1 hres
    cases hf.symm.trans hsome
  · by_cases hm : nv.noImage slot
    · exact .inl (slotResult_of_noImage stepping hm)
    · exact .inr ((slotResult_eq_two_iff nv stepping slot).2 ⟨hm, key, hf, hkey⟩)
  · refine ⟨_, exec_svcFuseKey_blank hh hnew hf hl, rfl, fun i hi => ?_, ?_⟩
    · rw [Hub.rd_congr (State.svcDone_regs ..), Hub.rd_readFuses_keyHash _ rfl hi]
    · rw [Hub.flag_congr (State.svcDone_regs ..), Hub.flag_readFuses_keyLocked _ rfl]

end Sys2Proof.Machine

/-! The non-volatile memories (R476, R477, R483): what a step can do to them, and with it the queue and the outcome of every step. -/

namespace Sys2Proof.Machine

/-! ## Erasing and writing the flash -/

theorem tget_filter {α : Type} (d : α) (p : Nat → Bool) (t : Table α) (k : Nat) :
    tget d (t.filter fun c => p c.1) k = if p k then tget d t k else d := by
  induction t with
  | nil => simp
  | cons c t ih =>
    obtain ⟨j, v⟩ := c
    by_cases hj : p j = true
    · rw [List.filter_cons_of_pos (by exact hj), tget, tget, ih]
      by_cases hjk : j = k
      · simp [hjk, hjk ▸ hj]
      · simp [hjk]
    · rw [List.filter_cons_of_neg (by exact hj), ih, tget]
      by_cases hjk : j = k
      · simp [hjk ▸ hj]
      · simp [hjk]

theorem twfFrom_filter {α : Type} [DecidableEq α] (d : α) (p : Nat × α → Bool) (t : Table α) :
    ∀ lo, twfFrom d lo t = true → twfFrom d lo (t.filter p) = true := by
  induction t with
  | nil => exact fun _ h => h
  | cons c t ih =>
    intro lo h
    simp only [twfFrom, Bool.and_eq_true, decide_eq_true_eq] at h
    obtain ⟨⟨hlo, hv⟩, ht⟩ := h
    cases hc : p c with
    | true =>
      rw [List.filter_cons_of_pos hc]
      simp [twfFrom, hlo, hv, ih _ ht]
    | false =>
      rw [List.filter_cons_of_neg (by simp [hc])]
      exact twfFrom_mono d _ (by omega) (ih _ ht)

/-- An erased byte reads 0xFF, every other byte as before (R476). -/
theorem NonVol.mget_erase (nv : NonVol) (a n x : Nat) :
    mget 0xFF (nv.erase a n).flash x = if a ≤ x ∧ x < a + n then 0xFF else mget 0xFF nv.flash x := by
  rw [mget, NonVol.erase, tget_filter 0xFF fun k => !(decide (a ≤ k) && decide (k < a + n))]
  by_cases hx : a ≤ x ∧ x < a + n <;> simp [hx, mget]

/-- A written byte reads as written, every other byte as before. -/
theorem mget_mwrite (d : Byte) (bs : List Byte) : ∀ (m : Memory) (a x : Nat),
    mget d (mwrite d m a bs) x = if a ≤ x then (bs[x - a]?).getD (mget d m x) else mget d m x := by
  induction bs with
  | nil => intro m a x; simp [mwrite]
  | cons b bs ih =>
    intro m a x
    rw [mwrite, ih, mget_mset]
    by_cases hx : x = a
    · simp [hx]
    · by_cases ha : a ≤ x
      · have hsub : x - a = x - (a + 1) + 1 := by omega
        simp [hx, ha, show a + 1 ≤ x by omega, hsub]
      · simp [hx, ha, show ¬ a + 1 ≤ x by omega]

/-! ## What the service port does to the memories -/

/-- The memories after erasing and writing bytes at addresses in `ok`, and programming the key fuses with a hash of 32 bytes. -/
inductive NonVol.Edits (ok : Nat → Prop) (nv : NonVol) : NonVol → Prop
  | same : Edits ok nv nv
  | erase {m : NonVol} {a n : Nat} : Edits ok nv m → (∀ x, a ≤ x → x < a + n → ok x) → Edits ok nv (m.erase a n)
  | write {m : NonVol} {a : Nat} {bs : List Byte} : Edits ok nv m → (∀ x, a ≤ x → x < a + bs.length → ok x) → Edits ok nv (m.writeFlash a bs)
  | fuse {m : NonVol} {key : List Byte} : Edits ok nv m → key.length = 32 → Edits ok nv { m with fuse := some key }

theorem NonVol.wf_iff (nv : NonVol) :
    nv.wf = true ↔ Memory.wf 0xFF nv.flash = true ∧ ∀ key, nv.fuse = some key → key.length = 32 := by
  unfold NonVol.wf
  cases nv.fuse <;> simp

/-- Edits keep the canonical form of the flash and of the key hash. -/
theorem NonVol.Edits.wf {ok : Nat → Prop} {nv m : NonVol} (he : nv.Edits ok m) (hw : nv.wf = true) : m.wf = true := by
  induction he with
  | same => exact hw
  | erase _ _ ih =>
    obtain ⟨hf, hk⟩ := (NonVol.wf_iff _).1 ih
    exact (NonVol.wf_iff _).2 ⟨twfFrom_filter _ _ _ 0 hf, hk⟩
  | write _ _ ih =>
    obtain ⟨hf, hk⟩ := (NonVol.wf_iff _).1 ih
    exact (NonVol.wf_iff _).2 ⟨wf_mwrite _ _ _ _ hf, hk⟩
  | fuse _ hl ih => exact (NonVol.wf_iff _).2 ⟨((NonVol.wf_iff _).1 ih).1, fun key h => Option.some.inj h ▸ hl⟩

/-- Edits leave a byte that they may not reach. -/
theorem NonVol.Edits.mget_eq {ok : Nat → Prop} {nv m : NonVol} (he : nv.Edits ok m) {x : Nat} (hx : ¬ ok x) :
    mget 0xFF m.flash x = mget 0xFF nv.flash x := by
  induction he with
  | same => rfl
  | erase _ hr ih => rw [NonVol.mget_erase, if_neg fun h => hx (hr x h.1 h.2), ih]
  | @write m a bs _ hr ih =>
    have hout : x < a ∨ a + bs.length ≤ x := by
      by_contra h
      exact hx (hr x (by omega) (by omega))
    rw [NonVol.writeFlash, mget_mwrite_of_lt _ _ _ _ _ hout, ih]
  | fuse _ _ ih => exact ih

/-- The staging session of the hub stays in its slot. -/
def Hub.stageFits (h : Hub) : Prop := ∀ g, h.glb.stage = some g → g.len ≤ 0x800000 ∧ g.manifest.length ≤ 4096

/-- The bytes of the identity block and of the two slots (R477). -/
def flashUsed (x : Nat) : Prop := x < 0x10000 ∨ (0x100000 ≤ x ∧ x < 0x1100000)

/-- A run of bytes that lies within the 8 MiB of a slot is used (R477). -/
theorem flashUsed_slot {slot off n x : Nat} (hn : off + n ≤ 0x800000) (hlo : slotBase slot + off ≤ x)
    (hhi : x < slotBase slot + off + n) : flashUsed x := by
  have hbase : slotBase slot = 0x100000 ∨ slotBase slot = 0x900000 := by
    unfold slotBase
    split <;> simp
  unfold flashUsed
  omega

/-- The effect of a request edits the memories, within the used bytes where the staging session stays in its slot, and leaves such a
session. -/
structure SvcSafe (run : Hub → NonVol → SvcAck) : Prop where
  edits : ∀ (h : Hub) (nv : NonVol), nv.Edits (fun x => h.stageFits → flashUsed x) (run h nv).nv
  stage : ∀ (h : Hub) (nv : NonVol), h.stageFits → (run h nv).hub.stageFits

theorem Hub.stageFits_of_none {h : Hub} (hs : h.glb.stage = none) : h.stageFits := fun g hg => by simp [hs] at hg

theorem Hub.stageFits_of_some {h : Hub} {g : Stage} (hs : h.glb.stage = some g) (hl : g.len ≤ 0x800000) (hm : g.manifest.length ≤ 4096) :
    h.stageFits := fun g' hg => by
  obtain rfl : g = g' := Option.some.inj (hs.symm.trans hg)
  exact ⟨hl, hm⟩

theorem Hub.stageTouch_stageFits {h : Hub} (hf : h.stageFits) : h.stageTouch.stageFits := by
  unfold Hub.stageTouch
  cases hs : h.glb.stage with
  | none => exact hf
  | some g => exact Hub.stageFits_of_some rfl (hf g hs).1 (hf g hs).2

/-- A request whose effect leaves the memories and the session is safe. -/
theorem SvcSafe.of_same {run : Hub → NonVol → SvcAck} (hn : ∀ h nv, (run h nv).nv = nv)
    (hs : ∀ h nv, (run h nv).hub.glb.stage = h.glb.stage) : SvcSafe run where
  edits h nv := by rw [hn]; exact .same
  stage h nv hf := fun g hg => hf g ((hs h nv).symm.trans hg)

theorem Hub.wpDown_stageFits {h : Hub} (hf : h.stageFits) : h.wpDown.stageFits := by
  unfold Hub.wpDown
  dsimp only
  split
  · exact Hub.stageFits_of_none rfl
  · exact hf

theorem SvcSafe.needsWp {run : Hub → NonVol → SvcAck} (hr : SvcSafe run) (wp : Bool) : SvcSafe (needsWp wp run) := by
  cases wp with
  | true => exact ⟨fun h nv => hr.edits (h.setWp true) nv, fun h nv hf => hr.stage (h.setWp true) nv hf⟩
  | false => exact ⟨fun h nv => .same, fun h nv hf => Hub.wpDown_stageFits hf⟩

theorem svcBaud_safe (div : Nat) : SvcSafe (svcBaud div) :=
  .of_same (fun h nv => by unfold svcBaud; split <;> rfl) (fun h nv => by unfold svcBaud; split <;> rfl)

theorem svcRead_safe (addr len : Nat) : SvcSafe (svcRead addr len) :=
  .of_same (fun h nv => by unfold svcRead; split <;> rfl) (fun h nv => by unfold svcRead; split <;> rfl)

theorem svcReset_safe (kind : Nat) : SvcSafe (svcReset kind) :=
  .of_same (fun h nv => by unfold svcReset; split <;> rfl) (fun h nv => by unfold svcReset; split <;> rfl)

/-- What `SVC_STAGE_OPEN` comes to: a refusal, or a new session with the slot's first 64 KiB erased (R491). -/
theorem svcStageOpen_cases (sel len : Nat) (h : Hub) (nv : NonVol) :
    (∃ st, svcStageOpen sel len h nv = svcRefuse h nv st) ∨
      ∃ slot, len ≤ 0x800000 ∧ (svcStageOpen sel len h nv).nv = nv.erase (slotBase slot) 0x10000 ∧
        (svcStageOpen sel len h nv).hub.glb.stage = some { slot := slot, len := len, written := 0, manifest := [], at_ := h.now } := by
  unfold svcStageOpen
  extract_lets slot
  split
  · exact .inl ⟨_, rfl⟩
  · split
    · exact .inl ⟨_, rfl⟩
    · exact .inr ⟨slot, by omega, rfl, rfl⟩

theorem svcStageOpen_safe (sel len : Nat) : SvcSafe (svcStageOpen sel len) where
  edits h nv := by
    obtain ⟨st, hr⟩ | ⟨slot, -, hnv, -⟩ := svcStageOpen_cases sel len h nv
    · rw [hr]; exact .same
    · rw [hnv]
      exact .erase .same fun x hlo hhi _ => flashUsed_slot (off := 0) (n := 0x10000) (by decide) hlo hhi
  stage h nv hf := by
    obtain ⟨st, hr⟩ | ⟨slot, hl, -, hs⟩ := svcStageOpen_cases sel len h nv
    · rw [hr]; exact hf
    · exact Hub.stageFits_of_some hs hl (by simp)

/-- What `SVC_STAGE_WRITE` comes to: a refusal; the manifest, kept in the session; or a block of the payload, whose flash part may
be erased first and then holds as many bytes as the block (R492). -/
theorem svcStageWrite_cases (off : Nat) (bs : List Byte) (out : FlashEnd) (h : Hub) (nv : NonVol) :
    ((svcStageWrite off bs out h nv).nv = nv ∧
      ((svcStageWrite off bs out h nv).hub = h ∨ (svcStageWrite off bs out h nv).hub = h.stageTouch)) ∨
    ∃ g, h.glb.stage = some g ∧ off + bs.length ≤ g.len ∧ bs.length ≤ 4096 ∧
      (((svcStageWrite off bs out h nv).nv = nv ∧
        (svcStageWrite off bs out h nv).hub.glb.stage = some { g with written := bs.length, manifest := bs, at_ := h.now }) ∨
      (1 ≤ bs.length ∧ ∃ cs : List Byte, cs.length = bs.length ∧
        (svcStageWrite off bs out h nv).nv =
          (if off % 0x10000 = 0 then nv.erase (slotBase g.slot + off) 0x10000 else nv).writeFlash (slotBase g.slot + off) cs ∧
        ∃ n, (svcStageWrite off bs out h nv).hub.glb.stage = some { g with written := n, at_ := h.now })) := by
  unfold svcStageWrite
  cases hs : h.glb.stage with
  | none => exact .inl ⟨rfl, .inl rfl⟩
  | some g =>
    have htouch : h.stageTouch = h.setGlb { h.glb with stage := some { g with at_ := h.now } } := by rw [Hub.stageTouch, hs]
    dsimp only
    split
    next => exact .inl ⟨rfl, .inr rfl⟩
    next hgood =>
      simp only [Bool.not_eq_false, Bool.and_eq_true, Bool.or_eq_true, decide_eq_true_eq, beq_iff_eq] at hgood
      obtain ⟨⟨⟨-, hlen⟩, hpos⟩, hsize⟩ := hgood
      refine .inr ⟨g, rfl, hlen, by omega, ?_⟩
      split
      · exact .inl ⟨rfl, by rw [htouch]; rfl⟩
      · refine .inr ⟨hpos, ?_⟩
        cases out with
        | ok => exact ⟨bs, rfl, rfl, _, by rw [htouch]; rfl⟩
        | differs => exact ⟨_, by simp [Hub.freeBytes], rfl, g.written, by rw [htouch]; rfl⟩
        | timeout => exact ⟨_, by simp [Hub.freeBytes], rfl, g.written, by rw [htouch]; rfl⟩

theorem svcStageWrite_safe (off : Nat) (bs : List Byte) (out : FlashEnd) : SvcSafe (svcStageWrite off bs out) where
  edits h nv := by
    obtain ⟨hnv, -⟩ | ⟨g, hg, hlen, -, ⟨hnv, -⟩ | ⟨hpos, cs, hcs, hnv, -⟩⟩ := svcStageWrite_cases off bs out h nv
    · rw [hnv]; exact .same
    · rw [hnv]; exact .same
    · rw [hnv]
      refine .write ?_ fun x hlo hhi hf => flashUsed_slot (by have := (hf g hg).1; omega) hlo (hcs ▸ hhi)
      split
      · exact .erase .same fun x hlo hhi hf => flashUsed_slot (by have := (hf g hg).1; omega) hlo hhi
      · exact .same
  stage h nv hf := by
    obtain ⟨-, hh | hh⟩ | ⟨g, hg, -, hsize, ⟨-, hs⟩ | ⟨-, -, -, -, n, hs⟩⟩ := svcStageWrite_cases off bs out h nv
    · rwa [hh]
    · rw [hh]
      exact Hub.stageTouch_stageFits hf
    · exact Hub.stageFits_of_some hs (hf g hg).1 hsize
    · exact Hub.stageFits_of_some hs (hf g hg).1 (hf g hg).2

theorem svcStageClose_safe : SvcSafe svcStageClose where
  edits h nv := by
    unfold svcStageClose
    cases hs : h.glb.stage with
    | none => exact .same
    | some g =>
      dsimp only
      split
      · exact .same
      · exact .write .same fun x hlo hhi hf => flashUsed_slot (off := 0) (n := g.manifest.length)
          (by have := (hf g hs).2; omega) hlo hhi
  stage h nv hf := by
    unfold svcStageClose
    cases hs : h.glb.stage with
    | none => exact hf
    | some g =>
      dsimp only
      split
      · exact Hub.stageTouch_stageFits hf
      · exact Hub.stageFits_of_none rfl

theorem svcStageAbort_safe : SvcSafe svcStageAbort where
  edits h nv := by unfold svcStageAbort; split <;> exact .same
  stage h nv hf := by
    unfold svcStageAbort
    split
    · exact Hub.stageFits_of_none rfl
    · exact hf

theorem svcIdentWrite_safe (bs : List Byte) : SvcSafe (svcIdentWrite bs) where
  edits h nv := by
    unfold svcIdentWrite
    split
    · exact .same
    · next hok =>
      split
      · exact .same
      · refine .write (.erase .same fun x _ hhi _ => .inl (by omega)) fun x _ hhi _ => .inl ?_
        have : bs.length = 256 := by by_contra hl; exact hok (.inl hl)
        omega
  stage h nv hf := by unfold svcIdentWrite; split_ifs <;> exact hf

theorem Hub.readFuses_glb (h : Hub) (nv : NonVol) : (h.readFuses nv).glb = h.glb := by
  unfold Hub.readFuses
  split
  next k _ => exact foldl_keeps (fun h : Hub => h.glb) (fun h i => h.wr (Reg.GLB_KEY_HASH i) (word (beAt k (4 * i) 4))) (fun _ _ => rfl) _ _
  · rfl

theorem svcFuseKey_safe (key : List Byte) : SvcSafe (svcFuseKey key) where
  edits h nv := by
    unfold svcFuseKey
    split
    · exact .same
    · split
      · exact .same
      · next hl => exact .fuse .same (by simpa using hl)
  stage h nv hf := by
    unfold svcFuseKey
    split
    · exact hf
    · split
      · exact hf
      · exact fun g hg => hf g ((congrArg GlbBlk.stage (h.readFuses_glb _)).symm.trans hg)

/-! ## What a command does to the queue and the memories -/

/-- A frame of the service port is served by a safe request, or discarded. -/
theorem exec_service {i : Instr} (hi : isService i = true) (s : State) :
    exec i s = .next s ∨ ∃ typ seq run, SvcSafe run ∧ exec i s = .next (s.serve typ seq run) := by
  cases i with
  | svcHello seq => exact .inr ⟨_, _, _, .of_same (fun _ _ => rfl) (fun _ _ => rfl), rfl⟩
  | svcBaud seq div => exact .inr ⟨_, _, _, svcBaud_safe _, rfl⟩
  | svcRead seq addr len => exact .inr ⟨_, _, _, svcRead_safe _ _, rfl⟩
  | svcStageOpen seq wp sel len => exact .inr ⟨_, _, _, (svcStageOpen_safe _ _).needsWp wp, rfl⟩
  | svcStageWrite seq wp off bs out => exact .inr ⟨_, _, _, (svcStageWrite_safe _ bs out).needsWp wp, rfl⟩
  | svcStageClose seq wp => exact .inr ⟨_, _, _, svcStageClose_safe.needsWp wp, rfl⟩
  | svcStageAbort seq => exact .inr ⟨_, _, _, svcStageAbort_safe, rfl⟩
  | svcIdentWrite seq wp bs => exact .inr ⟨_, _, _, (svcIdentWrite_safe bs).needsWp wp, rfl⟩
  | svcFuseKey seq wp key => exact .inr ⟨_, _, _, (svcFuseKey_safe key).needsWp wp, rfl⟩
  | svcStatus seq => exact .inr ⟨_, _, _, .of_same (fun _ _ => rfl) (fun _ _ => rfl), rfl⟩
  | svcReset seq kind => exact .inr ⟨_, _, _, svcReset_safe _, rfl⟩
  | svcBadFrame bs =>
    change Host.Outcome.next (s.svcOther bs) = _ ∨ ∃ typ seq run, _ ∧ Host.Outcome.next (s.svcOther bs) = _
    unfold State.svcOther
    split
    · split
      · exact .inr ⟨_, _, _, .of_same (fun _ _ => rfl) (fun _ _ => rfl), rfl⟩
      · exact .inl rfl
    · exact .inl rfl
  | _ => cases hi

/-- What serving a request can do: the queue is as before; the hub and the memories are as before but for the hub's record of the
request, or as the request's effect on the hub that has heard it leaves them. -/
theorem State.serve_cases (s : State) (typ seq : Nat) (run : Hub → NonVol → SvcAck) :
    (s.serve typ seq run).pending = s.pending ∧
    (((s.serve typ seq run).nv = s.nv ∧ (s.serve typ seq run).hub.glb.stage = s.hub.glb.stage) ∨
      ((s.serve typ seq run).nv = (run s.hub.svcHeard s.nv).nv ∧
        (s.serve typ seq run).hub.glb.stage = (run s.hub.svcHeard s.nv).hub.glb.stage)) := by
  unfold State.serve
  split
  · exact ⟨rfl, .inl ⟨rfl, rfl⟩⟩
  · dsimp only
    split
    · exact ⟨rfl, .inl ⟨rfl, rfl⟩⟩
    · exact ⟨rfl, .inr ⟨rfl, rfl⟩⟩

/-- A frame of the service port keeps the queue, edits the memories within bounds and leaves a session that stays in its slot. -/
theorem exec_service_frame {i : Instr} (hi : isService i = true) {s t : State} (he : exec i s = .next t) :
    t.pending = s.pending ∧ s.nv.Edits (fun x => s.stageOk → flashUsed x) t.nv ∧ (s.stageOk → t.stageOk) := by
  obtain hx | ⟨typ, seq, run, hr, hx⟩ := exec_service hi s
  · cases hx.symm.trans he
    exact ⟨rfl, .same, id⟩
  · cases hx.symm.trans he
    obtain ⟨hp, ⟨hnv, hs⟩ | ⟨hnv, hs⟩⟩ := s.serve_cases typ seq run
    · exact ⟨hp, hnv ▸ .same, fun hf g hg => hf g (hs.symm.trans hg)⟩
    · exact ⟨hp, hnv ▸ hr.edits s.hub.svcHeard s.nv, fun hf g hg => hr.stage s.hub.svcHeard s.nv hf g (hs.symm.trans hg)⟩

/-- Every command answers a next state with the queue as before; only a frame of the service port edits the memories. -/
theorem exec_frame {i : Instr} {s t : State} (he : exec i s = .next t) :
    t.pending = s.pending ∧ s.nv.Edits (fun x => s.stageOk → flashUsed x) t.nv ∧ (isService i = false → t.nv = s.nv) := by
  cases hi : isService i with
  | false =>
    obtain ⟨h, hx⟩ := exec_hub_of_not_service hi s
    cases hx.symm.trans he
    exact ⟨rfl, .same, fun _ => rfl⟩
  | true =>
    obtain ⟨hp, hn, -⟩ := exec_service_frame hi he
    exact ⟨hp, hn, nofun⟩

theorem exec_answers (i : Instr) (s : State) : ∃ t, exec i s = .next t := by
  cases hi : isService i with
  | false => exact ⟨_, (exec_hub_of_not_service hi s).choose_spec⟩
  | true =>
    obtain hx | ⟨typ, seq, run, -, hx⟩ := exec_service hi s
    · exact ⟨_, hx⟩
    · exact ⟨_, hx⟩

/-- A step edits the memories within bounds. -/
theorem step_edits {s t : State} (hs : step s = .next t) : s.nv.Edits (fun x => s.stageOk → flashUsed x) t.nv := by
  unfold step at hs
  cases hp : s.pending with
  | nil =>
    rw [hp] at hs
    cases hs
    exact .same
  | cons c rest =>
    rw [hp] at hs
    obtain ⟨-, hn, -⟩ := exec_frame (s := { s with pending := rest }) hs
    exact hn

/-! ## The statements -/

/-- Settles O4, from what a step can do to the memories. -/
theorem invariantKeptByEveryStep : Obligations.InvariantKeptByEveryStep := by
  unfold Obligations.InvariantKeptByEveryStep
  exact fun s t hi hs => (step_edits hs).wf hi

/-- Settles O7, from where a step can edit the flash. -/
theorem reservedFlashNeverWritten : Obligations.ReservedFlashNeverWritten := by
  unfold Obligations.ReservedFlashNeverWritten
  refine ⟨fun s t a hf hs ha => (step_edits hs).mget_eq fun hok => ?_, fun i s t hi hf he => ?_, Hub.stageFits_of_none rfl⟩
  · have := hok hf
    unfold flashUsed at this
    omega
  · exact (exec_service_frame hi he).2.2 hf

/-- Settles O2, from what a command does to the queue and the memories. -/
theorem commandsKeepQueueAndNonVolatile : Obligations.CommandsKeepQueueAndNonVolatile := by
  unfold Obligations.CommandsKeepQueueAndNonVolatile
  intro i s t he
  obtain ⟨hp, -, hn⟩ := exec_frame he
  exact ⟨hp, hn⟩

/-- Settles O3: every meaning answers a next state, and so does the clock. -/
theorem everyStepGoesOn : Obligations.EveryStepGoesOn := by
  unfold Obligations.EveryStepGoesOn
  refine ⟨exec_answers, fun s => ?_⟩
  unfold State.goesOn step
  cases s.pending with
  | nil => exact ⟨_, rfl⟩
  | cons c rest => exact exec_answers c _

/-- Settles O1, from the definition of a step. -/
theorem stepRunsTheFront : Obligations.StepRunsTheFront := by
  unfold Obligations.StepRunsTheFront
  exact fun s c => rfl

end Sys2Proof.Machine

/-! A hub held in reset (R472, R473), short times (R332, R339), watermarks (R235, R236), and the journal that comes before a command's
checks (R365 to R369). -/

namespace Sys2Proof.Machine

/-! ## A hub held in cold reset -/

theorem Hub.held_of_inCold {h : Hub} (hc : h.glb.inCold = true) : h.held = true := by simp [Hub.held, hc]

/-- The outcome forms of a command that a condition on the state keeps from acting (R20, R434, R473). -/
theorem next_kept {s : State} {c : Bool} (hc : c = true) (k : Hub) :
    (Host.Outcome.next { s with hub := if c then s.hub else k } : Host.Outcome State Fault Refusal) = .next s := by rw [if_pos hc]

theorem State.serve_held {s : State} (hh : s.hub.held = true) (typ seq : Nat) (run : Hub → NonVol → SvcAck) :
    s.serve typ seq run = s := if_pos hh

theorem State.svcOther_held {s : State} (hh : s.hub.held = true) (bs : List Byte) : s.svcOther bs = s := by
  unfold State.svcOther
  split
  · split
    · exact State.serve_held hh _ _ _
    · rfl
  · rfl

/-- A cycle of a held hub: the Net die takes what has come, and time passes. -/
theorem State.tick_held {s : State} (hh : s.hub.held = true) :
    ∃ x : Start, s.tick = { s with hub := { s.hub.netCycle with now := s.hub.netCycle.now + tuCore, start := x } } := by
  unfold State.tick Hub.cycle
  rw [if_pos hh]
  exact ⟨_, rfl⟩

/-- Settles O8, by the form of each command's meaning. -/
theorem coldResetHoldsTheHub : Obligations.ColdResetHoldsTheHub := by
  unfold Obligations.ColdResetHoldsTheHub
  refine ⟨fun i s hc hi => ?_, fun s hh hp => ?_⟩
  · have hh := Hub.held_of_inCold hc
    cases i with
    | powerFail | rstNLow | coldResetEnd | pllRelockEnd | pciePerst | bankVioChange | netVinLockout | netVinRestored | usbVbusChange
    | lanePinEdge => exact hi.elim
    | netCardPresent | netCardAbsent | netVsWindowChange | netInsertDelayEnd | netRetryWaitEnd | netRetriesReset | netRampDone
    | netGateRiseDone | netPgLoss | netHardShort | netSoaTrip | netRampTimeout | netCurveTrip | netGriseTimeout | netGateLowFault
    | netDsShort | netLinkSilent | netClockStop | netClockRestored => exact next_kept (c := s.hub.glb.inCold && !s.hub.net.hold) (by rw [hc, hi]; rfl) _
    | refclkLost | refclkReturn => exact next_kept hc _
    | svcHello | svcBaud | svcRead | svcStageOpen | svcStageWrite | svcStageClose | svcStageAbort | svcIdentWrite | svcFuseKey | svcStatus
    | svcReset => exact congrArg Host.Outcome.next (State.serve_held hh _ _ _)
    | svcBadFrame bs => exact congrArg Host.Outcome.next (State.svcOther_held hh bs)
    | svcFrameTimeout => rfl
    | _ => exact next_kept hh _
  · obtain ⟨x, hx⟩ := State.tick_held hh
    have hs : step s = .next s.tick := by rw [step, hp]
    exact ⟨x, hs.trans (congrArg Host.Outcome.next hx)⟩

/-! ## Short times -/

theorem toSigned_40 (n : Nat) : toSigned 40 n = if n % 2 ^ 40 < 2 ^ 39 then ((n % 2 ^ 40 : Nat) : Int) else ((n % 2 ^ 40 : Nat) : Int) - 2 ^ 40 :=
  rfl

theorem reached_iff (n t : Nat) : reached n t = true ↔ (n + 2 ^ 40 - t % 2 ^ 40) % 2 ^ 40 < 2 ^ 39 := by simp [reached]

/-- Settles O11: both sides are statements about remainders modulo 2^40. -/
theorem shortTimesCompare : Obligations.ShortTimesCompare := by
  unfold Obligations.ShortTimesCompare
  refine ⟨fun n t hn ht => ?_, fun now target h1 h2 => ?_, fun n => ⟨?_, ?_⟩, fun now x h1 h2 => ?_, fun h b => rfl⟩
  · rw [reached_iff, toSigned_40]
    split <;> omega
  · rw [reached_iff]
    omega
  · rw [← Bool.not_eq_true, reached_iff]
    omega
  · rw [← Bool.not_eq_true, reached_iff]
    omega
  · rw [toSigned_40]
    split <;> omega

/-! ## Watermarks -/

theorem QRef.kind_lt {q : QRef} (hq : q ∈ allQueues) : q.kind < 8 := by
  have : ∀ q ∈ allQueues, q.kind < 8 := by decide +kernel
  exact this q hq

/-- The event FIFO is one queue. -/
theorem QRef.eq_of_kind_seven {q r : QRef} (hq : q ∈ allQueues) (hr : r ∈ allQueues) (hqk : q.kind = 7) (hrk : r.kind = 7) : r = q := by
  have : ∀ q ∈ allQueues, q.kind = 7 → q = ⟨7, 0⟩ := by decide +kernel
  rw [this q hq hqk, this r hr hrk]

theorem Hub.qWm_cross_width (h : Hub) (q : QRef) : (h.qWm q).cross.2 = 16 ∧ (h.qWm q).cross.1 + (h.qWm q).cross.2 ≤ 32 := by
  unfold Hub.qWm
  split <;> exact ⟨rfl, Nat.le_of_ble_eq_true rfl⟩

@[simp] theorem Hub.setHigh_regs (h : Hub) (q : QRef) (b : Bool) : (h.setHigh q b).regs = h.regs := by
  unfold Hub.setHigh
  split <;> rfl

theorem Hub.lane_setHigh (h : Hub) (q : QRef) (b : Bool) (m : Nat) : (h.setHigh q b).lane m =
    if q.kind = 0 ∧ m = q.n then { h.lane m with rxq := { (h.lane m).rxq with c := { (h.lane m).rxq.c with high := b } } }
    else if q.kind = 1 ∧ m = q.n then { h.lane m with txq := { (h.lane m).txq with c := { (h.lane m).txq.c with high := b } } }
    else h.lane m := by
  unfold Hub.setHigh
  split <;> simp_all [Hub.lane_setLane] <;> rfl

theorem Hub.eng_setHigh (h : Hub) (q : QRef) (b : Bool) (m : Nat) : (h.setHigh q b).eng m =
    if q.kind = 2 ∧ m = q.n then { h.eng m with rxq := { (h.eng m).rxq with c := { (h.eng m).rxq.c with high := b } } }
    else if q.kind = 3 ∧ m = q.n then { h.eng m with txq := { (h.eng m).txq with c := { (h.eng m).txq.c with high := b } } }
    else h.eng m := by
  unfold Hub.setHigh
  split <;> simp_all [Hub.eng_setEng] <;> rfl

theorem Hub.can1_setHigh (h : Hub) (q : QRef) (b : Bool) (m : Nat) : (h.setHigh q b).can1 m =
    if q.kind = 4 ∧ m = q.n then { h.can1 m with rxc := { (h.can1 m).rxc with high := b } }
    else if q.kind = 5 ∧ m = q.n then { h.can1 m with txc := { (h.can1 m).txc with high := b } }
    else h.can1 m := by
  unfold Hub.setHigh
  split <;> simp_all [Hub.can1_setCan] <;> rfl

theorem Hub.tq_setHigh (h : Hub) (q : QRef) (b : Bool) (m : Nat) : (h.setHigh q b).tq m =
    if q.kind = 6 ∧ m = q.n then { h.tq m with c := { (h.tq m).c with high := b } } else h.tq m := by
  unfold Hub.setHigh
  split <;> simp_all [Hub.tq_setTq] <;> rfl

/-- Only the event FIFO's mark is in the block of the time. -/
theorem Hub.tim_setHigh (h : Hub) (q : QRef) (b : Bool) (hq : q.kind < 8) : (h.setHigh q b).tim =
    if q.kind = 7 then { h.tim with evc := { h.tim.evc with high := b } } else h.tim := by
  unfold Hub.setHigh
  split
  case h_8 => rw [if_pos (by grind)]
  all_goals simp_all

theorem Hub.qDepth_setHigh (h : Hub) {q : QRef} (hq : q.kind < 8) (b : Bool) (r : QRef) : (h.setHigh q b).qDepth r = h.qDepth r := by
  unfold Hub.qDepth
  split <;> simp only [Hub.lane_setHigh, Hub.eng_setHigh, Hub.can1_setHigh, Hub.tq_setHigh, Hub.tim_setHigh _ _ _ hq] <;> split_ifs <;> rfl

theorem Hub.qCommon_setHigh_same (h : Hub) {q : QRef} (hq : q.kind < 8) (b : Bool) :
    ((h.setHigh q b).qCommon q).high = b := by
  unfold Hub.qCommon
  split <;> simp_all [Hub.lane_setHigh, Hub.eng_setHigh, Hub.can1_setHigh, Hub.tq_setHigh, Hub.tim_setHigh]
  grind

theorem Hub.qCommon_setHigh_ne (h : Hub) {q r : QRef} (hq : q ∈ allQueues) (hr : r ∈ allQueues) (b : Bool) (hne : r ≠ q) :
    (h.setHigh q b).qCommon r = h.qCommon r := by
  have hqk := QRef.kind_lt hq
  have hrk := QRef.kind_lt hr
  have hn : q.kind = r.kind → r.n ≠ q.n := fun hk hn => hne (by cases q; cases r; simp_all)
  have h7 : q.kind = 7 → r.kind ≠ 7 := fun hk hk' => hne (QRef.eq_of_kind_seven hq hr hk hk')
  unfold Hub.qCommon
  split <;> simp only [Hub.lane_setHigh, Hub.eng_setHigh, Hub.can1_setHigh, Hub.tq_setHigh, Hub.tim_setHigh _ _ _ hqk] <;>
    split_ifs <;> grind

theorem Hub.qCommon_congr_of_setFld (h : Hub) (a : Nat) (f : Nat × Nat) (v : Nat) (q : QRef) : (h.setFld a f v).qCommon q = h.qCommon q :=
  rfl

theorem Hub.wmJudge_stays {h : Hub} {q : QRef}
    (hw : wmNext (h.qCommon q).high (h.qDepth q) (h.qWm q).hi (h.qWm q).lo = (h.qCommon q).high) : h.wmJudge q = h := if_pos hw

theorem Hub.wmJudge_crosses {h : Hub} {q : QRef} {b : Bool} (hb : (h.qCommon q).high = !b)
    (hw : wmNext (h.qCommon q).high (h.qDepth q) (h.qWm q).hi (h.qWm q).lo = b) :
    h.wmJudge q = (h.setHigh q b).crossing (h.qWm q) b := by
  unfold Hub.wmJudge
  dsimp only
  rw [hw, hb, if_neg (by cases b <;> decide)]

/-- Settles O12, from what the judgement of a queue and a crossing do. -/
theorem queueWatermarks : Obligations.QueueWatermarks := by
  unfold Obligations.QueueWatermarks
  refine ⟨fun h q hq => ?_, fun h q x hq => ?_, fun h q hq => ⟨?_, ?_⟩⟩
  · refine ⟨fun hl hd => Hub.wmJudge_stays ?_, fun hh hd => Hub.wmJudge_stays ?_, fun hl hd => ?_, fun hh hd => ?_, (h.qWm_cross_width q).1⟩
    · rw [hl]
      simpa [wmNext] using hd
    · rw [hh]
      simpa [wmNext] using hd
    · exact Hub.wmJudge_crosses (b := true) hl (by rw [hl]; simpa [wmNext] using hd)
    · exact Hub.wmJudge_crosses (b := false) hh (by rw [hh]; simpa [wmNext] using hd)
  · have hk := QRef.kind_lt hq
    exact ⟨h.qCommon_setHigh_same hk x, h.setHigh_regs q x, fun r hr => ⟨h.qDepth_setHigh hk x r, h.qCommon_setHigh_ne hq hr x⟩⟩
  · rw [Hub.crossClear, Hub.fld_setFld _ _ _ _ (h.qWm_cross_width q).2, Nat.zero_mod]
  · exact congrArg QCommon.high (h.qCommon_congr_of_setFld ..)

/-! ## The journal and the checks of a command -/

/-- The record that an active hub journals now (R366, R367). -/
def Hub.jnlRec (h : Hub) (kind : Nat) (body : List Word) : JRec :=
  { kind := kind, jseq := h.twin.jseq, act := h.baseNs h.strumTb % 2 ^ 32, body := body, at_ := h.now }

/-- An active hub's record takes the next number, and waits where the store has room (R367). -/
theorem Hub.jnl_room {h : Hub} {kind : Nat} {body : List Word} (ha : h.twin.role = .active)
    (hroom : jstoreSize h.twin.store + 8 + 4 * body.length ≤ 131072) :
    h.jnl kind body = h.setTwin { h.twin with
      jseq := (h.twin.jseq + 1) % 65536, worked := true, store := h.twin.store ++ [h.jnlRec kind body] } := by
  unfold Hub.jnl
  rw [if_neg (by simp [ha])]
  dsimp only
  rw [if_pos (by simp only [JRec.size]; omega)]
  rfl

/-- An active hub's record that finds the store full is dropped and counted (R368). -/
theorem Hub.jnl_full {h : Hub} {kind : Nat} {body : List Word} (ha : h.twin.role = .active)
    (hfull : 131072 < jstoreSize h.twin.store + 8 + 4 * body.length) :
    h.jnl kind body = ((h.setTwin { h.twin with jseq := (h.twin.jseq + 1) % 65536, worked := true }).count
      Reg.TWIN_CNT_JNL_OVERFLOW).evt Reg.TWIN_EVT F.TWIN_EVT_JNL_OVERFLOW := by
  unfold Hub.jnl
  rw [if_neg (by simp [ha])]
  dsimp only
  rw [if_neg (by simp only [JRec.size]; omega)]
  rfl

/-- The acceptance of a command of a queue on an active hub: journaled, checked, then its own checks and effect (R458). -/
theorem Hub.accept_queue {h : Hub} {c : CmdIn} {q : Fin 4} (run : Hub → CmdIn → Ack) (hq : c.src = .queue q) (hs : h.served c = true) :
    let j := h.jnl 0x08 (word q.val :: word (c.code + c.tag * 65536 + c.rsv * 2 ^ 24) :: c.args)
    h.accept c run = match j.precheck c with
      | some (st, d, o) => j.refuse c st d o
      | none => match run j c with
        | .refuse st d o => j.refuse c st d o
        | .done k res => k.respond c.ref sOK 0 0 res
        | .later k => k.setFld (Reg.HQ_INPROG q) F.HQ_INPROG (min 31 (k.fld (Reg.HQ_INPROG q) F.HQ_INPROG + 1)) := by
  intro j
  have hj : h.jnlCmd c = j := by rw [Hub.jnlCmd, hq]
  unfold Hub.accept
  rw [if_neg (by simp [hs]), hj]
  simp only [hq] <;> rfl

/-- Settles O13, from the journal's two cases, the order of acceptance, and the checks of R455 on a hub that does not act. -/
theorem activeHubJournalsCommands : Obligations.ActiveHubJournalsCommands := by
  unfold Obligations.ActiveHubJournalsCommands
  refine ⟨fun h kind body => ?_, fun h c q run hq _ hs => ?_, fun h c q hq ha hcode hsvc hfam hver => ?_⟩
  · intro r room
    refine ⟨Hub.jnl_idle kind body, fun ha => ?_, fun ha hroom => ?_, fun ha hfull => ?_⟩
    · rcases Nat.lt_or_ge 131072 room with hfull | hroom
      · rw [Hub.jnl_full ha hfull]; rfl
      · rw [Hub.jnl_room ha hroom]; rfl
    · rw [Hub.jnl_room ha hroom]
      exact ⟨rfl, rfl⟩
    · rw [Hub.jnl_full ha hfull]
      refine ⟨rfl, Hub.flag_evt _ _ _ (by decide), ?_⟩
      rw [Hub.rd_evt_ne _ _ (by decide), Hub.rd_count, toNat_word_of_le (Nat.min_le_left ..)]
      rfl
  · intro j
    refine ⟨fun st d o hp => ?_, fun k res hp hr => ?_, fun st d o hp hr => ?_⟩
    · rw [Hub.accept_queue run hq hs]
      simp only [j] at hp
      simp only [hp]
      rfl
    · rw [Hub.accept_queue run hq hs]
      simp only [j] at hp hr
      simp only [hp, hr]
    · rw [Hub.accept_queue run hq hs]
      simp only [j] at hp hr
      simp only [hp, hr]
      rfl
  · have hv : h.cmdVersion c.src = h.fld (Reg.HQ_CFG q) F.HQ_CFG_VERSION := by rw [hq]; rfl
    have hmax : max 1 (h.cmdVersion c.src) = h.fld (Reg.HQ_CFG q) F.HQ_CFG_VERSION := by omega
    have hpre : h.precheck c = if c.code / 256 ≠ 9 ∧ c.code ≠ 0x0101 then
        some (sESTATE, match h.twin.role with | .solo => 0 | .joining => 1 | .syncing => 2 | .standby => 3 | .active => 4, 0)
        else if c.rsv ≠ 0 then some (sEARG, 0, 0) else none := by
      unfold Hub.precheck
      dsimp only
      rw [if_neg (by omega), if_neg (by simp [hcode, hmax, hfam]), if_neg hsvc, hq]
      simp only [ha, and_true, true_and] <;> rfl
    refine ⟨fun h9 h1 => ⟨_, hpre.trans (if_pos ⟨h9, h1⟩)⟩, fun h9 hr => ?_⟩
    rw [hpre, if_neg (by omega), if_neg (by omega)]

end Sys2Proof.Machine

/-! The machine after reset (R333, R472). -/

namespace Sys2Proof.Machine

theorem reset_qCommon (q : QRef) : (State.reset.hub.qCommon q).high = false := by
  unfold Hub.qCommon
  split <;> rfl

/-- Settles O5: every bank of the reset state is empty, so every entry reads as its default. -/
theorem resetState : Obligations.ResetState := by
  unfold Obligations.ResetState
  refine ⟨?_, rfl, rfl, rfl, rfl, fun _ => rfl, fun _ => ⟨rfl, rfl⟩, fun _ => rfl, fun _ => rfl, fun _ => rfl, fun _ => rfl, rfl, rfl,
    fun q _ => reset_qCommon q, fun _ => rfl, rfl⟩
  exact (NonVol.wf_iff _).2 ⟨rfl, nofun⟩

end Sys2Proof.Machine

/-! Accesses to the register window (R4, R441, R443 to R446): what a write leaves of each field, and what each transfer comes to. -/

namespace Sys2Proof.Machine

/-! ## Words made field by field -/

/-- The fields lie in the word and none meets another. -/
def FieldsApart (fs : List RegField) : Prop := fs.Pairwise (fun f g => f.lo + f.width ≤ g.lo) ∧ ∀ f ∈ fs, f.lo + f.width ≤ 32

/-- The rows of the register map keep their fields apart. -/
theorem regRows_apart : ∀ k < 16, ∀ r ∈ regRows k, FieldsApart r.fields := by
  unfold FieldsApart
  decide +kernel

theorem findRow_mem {a : Nat} {rs : List RegRow} {r : RegRow} (h : findRow a rs = some r) : r ∈ rs := by
  induction rs with
  | nil => cases h
  | cons x xs ih =>
    rw [findRow] at h
    split at h
    · cases h
      exact List.mem_cons_self
    · exact List.mem_cons_of_mem _ (ih h)

theorem regRows_eq_nil {k : Nat} (hk : 16 ≤ k) : regRows k = [] := by
  unfold regRows
  split <;> first | omega | rfl

theorem fieldsAt_apart (a : Nat) : FieldsApart (fieldsAt a) := by
  unfold fieldsAt
  split
  next r hr =>
    have hmem := findRow_mem hr
    rcases Nat.lt_or_ge (a / 0x8000) 16 with hk | hk
    · exact regRows_apart _ hk r hmem
    · rw [regRows_eq_nil hk] at hmem
      cases hmem
  · exact ⟨List.Pairwise.nil, by simp⟩

theorem bits_eq_iff {x y : Word} {f : RegField} :
    bits x (f.lo, f.width) = bits y (f.lo, f.width) ↔ ∀ i, f.has i = true → x.getLsbD i = y.getLsbD i := by
  constructor
  · intro h i hi
    obtain ⟨hlo, hhi⟩ : f.lo ≤ i ∧ i < f.lo + f.width := by simpa [RegField.has] using hi
    have hbit := congrArg (·.testBit (i - f.lo)) h
    have hback : f.lo + (i - f.lo) = i := by omega
    simpa [testBit_bits, hback, show i - f.lo < f.width by omega] using hbit
  · intro h
    apply Nat.eq_of_testBit_eq
    intro j
    rw [testBit_bits, testBit_bits]
    by_cases hj : j < f.width
    · rw [h (f.lo + j) (f.has_add hj)]
    · simp [hj]

/-- Replacing a field by that of another word takes its bits. -/
theorem getLsbD_putBits_field (x w : Word) (f : RegField) (i : Nat) :
    (putBits x (f.lo, f.width) (bits w (f.lo, f.width))).getLsbD i = if f.has i = true then w.getLsbD i else x.getLsbD i := by
  rw [getLsbD_putBits, testBit_bits]
  by_cases hin : f.lo ≤ i ∧ i < f.lo + f.width
  · have hback : f.lo + (i - f.lo) = i := by omega
    by_cases h32 : i < 32
    · simp [RegField.has, hin, hback, h32, show i - f.lo < f.width by omega]
    · simp [RegField.has, hin, h32]
      exact BitVec.getLsbD_of_ge w i (by omega)
  · simp [RegField.has, hin]

/-- A fold over fields whose step changes bits of its own field alone, each by `b`. -/
structure FieldFold (g : Word → RegField → Word) (b : RegField → Nat → Bool → Bool) : Prop where
  step : ∀ x f i, (g x f).getLsbD i = if f.has i = true then b f i (x.getLsbD i) else x.getLsbD i

theorem FieldFold.outside {g : Word → RegField → Word} {b : RegField → Nat → Bool → Bool} (hg : FieldFold g b) {fs : List RegField} {i : Nat}
    (hi : ∀ f ∈ fs, f.has i = false) (x : Word) : (fs.foldl g x).getLsbD i = x.getLsbD i := by
  induction fs generalizing x with
  | nil => rfl
  | cons f fs ih =>
    rw [List.foldl_cons, ih fun e he => hi e (List.mem_cons_of_mem _ he), hg.step, if_neg (by simp [hi f List.mem_cons_self])]

theorem RegField.has_false_of_before {f g : RegField} {i : Nat} (h : f.lo + f.width ≤ g.lo) (hi : f.has i = true) : g.has i = false := by
  simp only [RegField.has, decide_eq_true_eq] at hi
  simp only [RegField.has, decide_eq_false_iff_not]
  omega

theorem RegField.has_false_of_after {f g : RegField} {i : Nat} (h : f.lo + f.width ≤ g.lo) (hi : g.has i = true) : f.has i = false := by
  simp only [RegField.has, decide_eq_true_eq] at hi
  simp only [RegField.has, decide_eq_false_iff_not]
  omega

/-- Where fields are apart, a bit of a field is changed once. -/
theorem FieldFold.inside {g : Word → RegField → Word} {b : RegField → Nat → Bool → Bool} (hg : FieldFold g b) {fs : List RegField}
    (hp : fs.Pairwise fun f g => f.lo + f.width ≤ g.lo) {f : RegField} (hf : f ∈ fs) {i : Nat} (hi : f.has i = true) (x : Word) :
    (fs.foldl g x).getLsbD i = b f i (x.getLsbD i) := by
  induction fs generalizing x with
  | nil => cases hf
  | cons e fs ih =>
    obtain ⟨he, hp⟩ := List.pairwise_cons.1 hp
    rw [List.foldl_cons]
    rcases List.mem_cons.1 hf with rfl | hf
    · rw [hg.outside (fun e' he' => RegField.has_false_of_before (he e' he') hi), hg.step, if_pos hi]
    · rw [ih hp hf, hg.step, if_neg (by simp [RegField.has_false_of_after (he f hf) hi])]

/-! ## Writes by the access codes (R4) -/

/-- What a write of `w` makes of one field. -/
def writeField (live : Bool) (w x : Word) (f : RegField) : Word :=
  match f.acc with
  | .rw => putBits x (f.lo, f.width) (bits w (f.lo, f.width))
  | .w1c => x &&& ~~~putBits 0 (f.lo, f.width) (bits w (f.lo, f.width))
  | .rwl => if live then x else putBits x (f.lo, f.width) (bits w (f.lo, f.width))
  | .ro | .wo | .sc => x

/-- What a write of a bit `w` makes of a bit `x`. -/
def writeBit (live : Bool) (a : Access) (w x : Bool) : Bool :=
  match a with
  | .rw => w
  | .w1c => x && !w
  | .rwl => if live then x else w
  | .ro | .wo | .sc => x

theorem writeField_fold (live : Bool) (w : Word) : FieldFold (writeField live w) fun f i x => writeBit live f.acc (w.getLsbD i) x where
  step x f i := by
    unfold writeField writeBit
    cases f.acc with
    | rw => exact getLsbD_putBits_field x w f i
    | w1c => rw [getLsbD_clear_field]; cases f.has i <;> simp
    | rwl =>
      cases live with
      | true => simp
      | false => exact getLsbD_putBits_field x w f i
    | ro | wo | sc => simp

theorem applyFields_fst (live : Bool) (w : Word) (fs : List RegField) :
    ∀ (x : Word) (bad : Bool), (applyFields live w fs (x, bad)).1 = fs.foldl (writeField live w) x := by
  induction fs with
  | nil => exact fun _ _ => rfl
  | cons f fs ih =>
    intro x bad
    rw [applyFields, List.foldl_cons, writeField]
    cases f.acc with
    | rwl => cases live <;> exact ih _ _
    | _ => exact ih _ _

/-- The bits of a field after a write are those that its access code gives. -/
theorem bits_applyFields {live : Bool} {w x : Word} {fs : List RegField} (ha : FieldsApart fs) {f : RegField} (hf : f ∈ fs) {bad : Bool}
    {i : Nat} (hi : i < f.width) : Nat.testBit (bits (applyFields live w fs (x, bad)).1 (f.lo, f.width)) i =
      writeBit live f.acc (Nat.testBit (bits w (f.lo, f.width)) i) (Nat.testBit (bits x (f.lo, f.width)) i) := by
  rw [applyFields_fst, testBit_bits, testBit_bits, testBit_bits, (writeField_fold live w).inside ha.1 hf (f.has_add hi)]
  simp [hi]

theorem bits_eq_of_testBit {x y : Word} {f : RegField}
    (h : ∀ i, i < f.width → Nat.testBit (bits x (f.lo, f.width)) i = Nat.testBit (bits y (f.lo, f.width)) i) :
    bits x (f.lo, f.width) = bits y (f.lo, f.width) := by
  apply Nat.eq_of_testBit_eq
  intro i
  by_cases hi : i < f.width
  · exact h i hi
  · simp [testBit_bits, hi]

/-- A write is marked as refused where an RWL field of a running unit was to change. -/
theorem applyFields_snd (w : Word) (live : Bool) {fs : List RegField} (ha : FieldsApart fs) : ∀ (x : Word) (bad : Bool),
    (applyFields live w fs (x, bad)).2 = true ↔
      bad = true ∨ (live = true ∧ ∃ f ∈ fs, f.acc = .rwl ∧ bits x (f.lo, f.width) ≠ bits w (f.lo, f.width)) := by
  induction fs with
  | nil => simp [applyFields]
  | cons f fs ih =>
    intro x bad
    obtain ⟨hbefore, hp⟩ := List.pairwise_cons.1 ha.1
    have hih := ih ⟨hp, fun g hg => ha.2 g (List.mem_cons_of_mem _ hg)⟩ (writeField live w x f)
    have hkeep : ∀ g ∈ fs, bits (writeField live w x f) (g.lo, g.width) = bits x (g.lo, g.width) := fun g hg =>
      bits_eq_iff.2 fun i hi => by
        rw [(writeField_fold live w).step, if_neg (by simp [RegField.has_false_of_after (hbefore g hg) hi])]
    have hrest : (∃ g ∈ fs, g.acc = .rwl ∧ bits (writeField live w x f) (g.lo, g.width) ≠ bits w (g.lo, g.width)) ↔
        ∃ g ∈ fs, g.acc = .rwl ∧ bits x (g.lo, g.width) ≠ bits w (g.lo, g.width) :=
      ⟨fun ⟨g, hg, hr, hb⟩ => ⟨g, hg, hr, hkeep g hg ▸ hb⟩, fun ⟨g, hg, hr, hb⟩ => ⟨g, hg, hr, (hkeep g hg).symm ▸ hb⟩⟩
    have hstep : applyFields live w (f :: fs) (x, bad) = applyFields live w fs (writeField live w x f,
        bad || (live && decide (f.acc = .rwl) && decide (bits x (f.lo, f.width) ≠ bits w (f.lo, f.width)))) := by
      rw [applyFields, writeField]
      cases hacc : f.acc <;> cases live <;> simp
    rw [hstep, hih, hrest]
    simp only [Bool.or_eq_true, Bool.and_eq_true, decide_eq_true_eq, List.mem_cons, exists_eq_or_imp, and_assoc]
    tauto

/-! ## The order of the paths (R441) -/

theorem afterLater_fold (later : Word) : FieldFold
    (fun x f => if f.acc = .rw ∨ f.acc = .rwl then putBits x (f.lo, f.width) (bits later (f.lo, f.width)) else x)
    fun f i x => if f.acc = .rw ∨ f.acc = .rwl then later.getLsbD i else x where
  step x f i := by
    split
    · exact getLsbD_putBits_field x later f i
    · simp

/-- In a field that holds what is written the later path's word stands, in any other the earlier one's. -/
theorem bits_afterLater (w later : Word) {fs : List RegField} (ha : FieldsApart fs) {f : RegField} (hf : f ∈ fs) :
    bits (afterLater w later fs) (f.lo, f.width) = bits (if f.acc = .rw ∨ f.acc = .rwl then later else w) (f.lo, f.width) := by
  rw [afterLater, if_neg (by simp [List.ne_nil_of_mem hf])]
  refine bits_eq_iff.2 fun i hi => ?_
  rw [(afterLater_fold later).inside ha.1 hf hi]
  split <;> rfl

/-! ## Writes of words -/

theorem Hub.registerWrite_aligned (h : Hub) (p : HostPath) {a : Nat} (w : Word) (ha : a % 4 = 0) :
    h.registerWrite p a 15 w = h.pathWrite p a w := if_pos ⟨ha, rfl⟩

/-- A write that no later path's write of the cycle overtakes. -/
theorem Hub.pathWrite_open {h : Hub} {p : HostPath} {a : Nat} (w : Word) (ho : h.writeOpen p a = true) (hl : h.laterWord p a = none) :
    h.pathWrite p a w = (h.writeWord p a w).noteWord p a w := by
  rw [Hub.pathWrite, if_pos ho, Hub.putWord, hl]

theorem Hub.writeWord_glb (h : Hub) (p : HostPath) {a : Nat} (w : Word) (ha : a < 0x4000) (hc : a ≠ Reg.GLB_CLK_CTL) :
    h.writeWord p a w = h.regWrite a w false id := by
  have hpage : a / 0x4000 = 0 := by omega
  rw [Hub.writeWord, if_neg (by omega), if_neg (by omega), hpage]
  exact if_neg hc

theorem Hub.writeWord_lane (h : Hub) (p : HostPath) {a : Nat} (w : Word) (h1 : 0x40000 ≤ a) (h2 : a < 0x46000)
    (hn : a ∉ [Reg.LN_DOUT ((a - 0x40000) / 0x100), Reg.LN_PINCFG ((a - 0x40000) / 0x100), Reg.LN_RXQ_STAT ((a - 0x40000) / 0x100),
      Reg.LN_TXQ_STAT ((a - 0x40000) / 0x100)]) :
    h.writeWord p a w = h.regWrite a w (decide ((h.lane ((a - 0x40000) / 0x100)).st ≠ .stopped))
      fun h => h.lnEvt ((a - 0x40000) / 0x100) F.LN_EVT_WRITE_REFUSED := by
  simp only [List.mem_cons, List.not_mem_nil, or_false, not_or] at hn
  obtain ⟨hdout, hpin, hrx, htx⟩ := hn
  have hpage : h.writeWord p a w = h.lanePageWrite a w := by
    have : a / 0x4000 = 16 ∨ a / 0x4000 = 17 := by omega
    rw [Hub.writeWord, if_neg (by omega), if_neg (by omega)]
    rcases this with e | e <;> (rw [e]; rfl)
  rw [hpage, Hub.lanePageWrite, if_pos h2, if_neg hdout, if_neg hpin, if_neg hrx, if_neg htx]

theorem Hub.writeWord_fret (h : Hub) (p : HostPath) {a : Nat} (w : Word) (h1 : 0x48000 ≤ a) (h2 : a < 0x49000)
    (hn : a ∉ [Reg.FR_CTL ((a - 0x48000) / 0x80), Reg.FR_TXQ_PUSH ((a - 0x48000) / 0x80), Reg.FR_TXQ_STAT ((a - 0x48000) / 0x80),
      Reg.FR_RXQ_STAT ((a - 0x48000) / 0x80)]) :
    h.writeWord p a w = h.regWrite a w (h.eng ((a - 0x48000) / 0x80)).run
      fun h => h.frEvt ((a - 0x48000) / 0x80) F.FR_EVT_WRITE_REFUSED := by
  simp only [List.mem_cons, List.not_mem_nil, or_false, not_or] at hn
  obtain ⟨hctl, hpush, htx, hrx⟩ := hn
  have hpage : a / 0x4000 = 18 := by omega
  rw [Hub.writeWord, if_neg (by omega), if_neg (by omega), hpage]
  exact (if_pos h2).trans ((if_neg hctl).trans ((if_neg hpush).trans ((if_neg htx).trans (if_neg hrx))))

theorem Hub.writeWord_can (h : Hub) (p : HostPath) {a : Nat} (w : Word) (h1 : 0x50000 ≤ a) (h2 : a < 0x58000)
    (hn : a ∉ [Reg.CAN_TXQ_PUSH ((a - 0x50000) / 0x400), Reg.CAN_TXQ_STAT ((a - 0x50000) / 0x400),
      Reg.CAN_RXQ_STAT ((a - 0x50000) / 0x400)]) :
    h.writeWord p a w = h.regWrite a w (decide ((h.can1 ((a - 0x50000) / 0x400)).st ≠ .stopped))
      fun h => h.canEvt ((a - 0x50000) / 0x400) F.CAN_EVT_WRITE_REFUSED := by
  simp only [List.mem_cons, List.not_mem_nil, or_false, not_or] at hn
  obtain ⟨hpush, htx, hrx⟩ := hn
  have hpage : h.writeWord p a w = h.canPageWrite a w := by
    have : a / 0x4000 = 20 ∨ a / 0x4000 = 21 := by omega
    rw [Hub.writeWord, if_neg (by omega), if_neg (by omega)]
    rcases this with e | e <;> (rw [e]; rfl)
  rw [hpage, Hub.canPageWrite, if_neg hpush, if_neg htx, if_neg hrx]

/-! ## Quad-SPI transfers (R444 to R446) -/

theorem Hub.qspi_serves {h : Hub} (hh : h.held = false) (hp : h.pathOn .qspi = true) : ¬ (h.pathOn .qspi = false ∨ h.glb.inCold = true) := by
  simp [hp, (Hub.held_of hh).1]

theorem Hub.pathOpen_qspi {h : Hub} (hp : h.pathOn .qspi = true) (ho : h.hostOpen = true) : h.pathOpen .qspi = true := by
  simp [Hub.pathOpen, hp, ho]

/-- A transfer that stays in its window is the burst alone. -/
theorem Hub.qspiReadXfer_word {h : Hub} {addr : Nat} (hh : h.held = false) (hp : h.pathOn .qspi = true) (ha : addr < 2 ^ 20)
    (h4 : addr % 4 = 0) : h.qspiReadXfer addr 4 = (Hub.qspiTake 5 h addr [0xA5] 4).scrServe := by
  have hw : qspiWindow addr = some 0 := if_pos ha
  have ho : addr % 2 ^ 20 = addr := Nat.mod_eq_of_lt ha
  have hm : min 4 (2 ^ 20 - addr) = 4 := by omega
  rw [Hub.qspiReadXfer, if_neg (Hub.qspi_serves hh hp), hw]
  simp only [ho, hm]
  rw [if_neg (by omega), Hub.qspiRead, if_pos rfl, if_pos h4]

theorem leBytes_length (k n : Nat) : (leBytes k n).length = k := by
  induction k generalizing n with
  | zero => rfl
  | succ k ih => rw [leBytes, List.length_cons, ih]

/-- Of a burst of one word that is not the scratch's, the word is read and put out. -/
theorem Hub.qspiTake_word {h : Hub} {a : Nat} (ho : h.readOpen .qspi a = true) (ha : a ≠ Reg.CAR_SCR_DATA) :
    Hub.qspiTake 5 h a [0xA5] 4 = (h.readWord a).2.emit (.bytes (0xA5 :: leBytes 4 (h.readWord a).1.toNat)) := by
  rw [Hub.qspiTake, if_neg (by decide), if_neg fun e => ha e.1, Hub.pathRead, if_pos ho, Hub.qspiTake,
    List.take_of_length_le (leBytes_length ..).le]
  rfl

theorem Hub.qspiTake_scratch {h : Hub} (ho : h.readOpen .qspi Reg.CAR_SCR_DATA = true) :
    Hub.qspiTake 5 h Reg.CAR_SCR_DATA [0xA5] 4 =
      h.scrQueue none (some { head := [0xA5], next := Reg.CAR_SCR_DATA + 4, left := 4 }) true := by
  rw [Hub.qspiTake, if_neg (by decide), if_pos ⟨rfl, ho⟩]

/-- A transfer of one aligned word writes it. -/
theorem Hub.qspiWriteXfer_word {h : Hub} {addr : Nat} {bs : List Byte} (hh : h.held = false) (hp : h.pathOn .qspi = true)
    (ho : h.hostOpen = true) (ha : addr < 2 ^ 20) (h4 : addr % 4 = 0) (hl : bs.length = 4) :
    h.qspiWriteXfer 0x38 addr bs = h.putWord .qspi addr (word (leNat bs)) := by
  have hw : qspiWindow addr = some 0 := if_pos ha
  have hmod : addr % 2 ^ 20 = addr := Nat.mod_eq_of_lt ha
  have htake : bs.take (2 ^ 20 - addr) = bs := List.take_of_length_le (by omega)
  have hopen : h.writeOpen .qspi addr = true := by simp [Hub.writeOpen, Hub.pathOpen_qspi hp ho]
  have hne : bs.isEmpty = false := by cases bs <;> simp_all
  have hput : h.qspiPut 0 addr bs = h.putWord .qspi addr (word (leNat bs)) := by
    rw [Hub.qspiPut, if_pos rfl, if_pos ⟨hl, h4⟩, Hub.pathWrite, if_pos hopen]
  have hall : Hub.qspiPutAll 5 h 0 addr bs = h.putWord .qspi addr (word (leNat bs)) := by
    rw [Hub.qspiPutAll, if_neg (by simp [hne])]
    simp only [h4, Nat.sub_zero, List.take_of_length_le hl.le, List.drop_of_length_le hl.le, hput]
    rfl
  rw [Hub.qspiWriteXfer, if_neg (Hub.qspi_serves hh hp), if_neg (by simp), hw]
  simp only [hmod, htake, hl, hall]
  rw [if_neg (by omega)]

theorem Hub.qspiBad_freeCtr (h : Hub) : h.qspiBad.freeCtr = h.freeCtr := by
  unfold Hub.qspiBad
  dsimp only
  split <;> rfl

theorem Hub.qspiBad_err (h : Hub) : h.qspiBad.host.qspiErr = true := by
  unfold Hub.qspiBad
  dsimp only
  split <;> rfl

theorem qspiWindow_none {addr : Nat} (ha : 2 ^ 21 ≤ addr) : qspiWindow addr = none := by
  rw [qspiWindow, if_neg (by omega), if_neg (by omega)]

theorem Hub.qspiReadXfer_beyond {h : Hub} {addr : Nat} (n : Nat) (hh : h.held = false) (hp : h.pathOn .qspi = true) (ha : 2 ^ 21 ≤ addr) :
    h.qspiReadXfer addr n = { h.qspiBad.emit (.bytes (0xA5 :: h.freeBytes n)) with freeCtr := h.freeCtr + n } := by
  rw [Hub.qspiReadXfer, if_neg (Hub.qspi_serves hh hp), qspiWindow_none ha]
  simp only [Hub.freeBytes, Hub.qspiBad_freeCtr]

/-- A read that runs over the end of its window sets the error flag (R445). -/
theorem Hub.qspiReadXfer_over {h : Hub} {addr n : Nat} (hh : h.held = false) (hp : h.pathOn .qspi = true) (ha : addr < 2 ^ 20)
    (hn : 2 ^ 20 < addr + n) : (h.qspiReadXfer addr n).host.qspiErr = true := by
  have hw : qspiWindow addr = some 0 := if_pos ha
  have hm : min n (2 ^ 20 - addr) < n := by omega
  rw [Hub.qspiReadXfer, if_neg (Hub.qspi_serves hh hp), hw]
  simp only [Nat.mod_eq_of_lt ha, if_pos hm]
  exact Hub.qspiBad_err _

/-- Settles O14, from what a write makes of each field and from what each transfer comes to. -/
theorem registerAccesses : Obligations.RegisterAccesses := by
  unfold Obligations.RegisterAccesses
  refine ⟨fun a x w live => ?_, fun s p a w => ?_, fun s p a w x hh ho h4 hl => ?_, fun s p a be w hh hp hbad => ?_,
    fun s p a w hh ho h4 => ?_, fun s addr hh hp ho ha h4 => ?_, fun s addr n hh hp => ?_, fun s hh hp => ?_⟩
  · have hap := fieldsAt_apart a
    intro r
    refine ⟨fun f hf => ⟨fun hacc => bits_eq_of_testBit fun i hi => ?_, fun hacc i hi => ?_, fun hacc => bits_eq_of_testBit fun i hi => ?_⟩, ?_⟩
    · rw [bits_applyFields hap hf hi]
      obtain hacc | ⟨hacc, hlive⟩ := hacc
      · rw [hacc]; rfl
      · rw [hacc, hlive]; rfl
    · rw [testBit_eq_nat, testBit_eq_nat, testBit_eq_nat, bits_applyFields hap hf hi, hacc]
      rfl
    · rw [bits_applyFields hap hf hi]
      obtain hacc | hacc | hacc | ⟨hacc, hlive⟩ := hacc
      · rw [hacc]; rfl
      · rw [hacc]; rfl
      · rw [hacc]; rfl
      · rw [hacc, hlive]; rfl
    · simpa using applyFields_snd w live hap x false
  · intro n c e k hh ho h4 hl
    have hw : s.hub.registerWrite p a.toNat 15 w = k (s.hub.writeWord p a.toNat w) := by
      rw [Hub.registerWrite_aligned _ _ _ h4, Hub.pathWrite_open w ho hl]
    have hmake : ∀ h, s.hub.writeWord p a.toNat w = h → Makes (.registerWrite p a 15 w) s (k h) := fun h he =>
      makes_on (fun h => h.registerWrite p a.toNat 15 w) hh rfl (hw.trans (congrArg k he))
    exact ⟨fun h1 hc => hmake _ (Hub.writeWord_glb _ p w h1 hc), fun h1 h2 hn => hmake _ (Hub.writeWord_lane _ p w h1 h2 hn),
      fun h1 h2 hn => hmake _ (Hub.writeWord_fret _ p w h1 h2 hn), fun h1 h2 hn => hmake _ (Hub.writeWord_can _ p w h1 h2 hn)⟩
  · intro y
    refine ⟨makes_on (fun h => h.registerWrite p a.toNat 15 w) hh rfl ?_, fun hp h32 f hf => bits_afterLater w x ⟨hp, h32⟩ hf⟩
    rw [Hub.registerWrite_aligned _ _ _ h4, Hub.pathWrite, if_pos ho, Hub.putWord, hl]
  · refine makes_on (fun h => h.registerWrite p a.toNat be.toNat w) hh rfl ?_
    have hne : ¬ (a.toNat % 4 = 0 ∧ be.toNat = 15) := fun h => hbad.elim (· h.1) fun hb => hb (BitVec.eq_of_toNat_eq h.2)
    rw [Hub.registerWrite, if_neg hne, if_pos hp, Hub.badAccess]
  · refine makes_on (fun h => h.registerWrite p a.toNat 15 w) hh rfl ?_
    rw [Hub.registerWrite_aligned _ _ _ h4, Hub.pathWrite, if_neg (by simp [ho])]
  · have hopen : s.hub.readOpen .qspi addr.toNat = true := by simp [Hub.readOpen, Hub.pathOpen_qspi hp ho]
    refine ⟨fun hs => ?_, fun hs => ?_, fun bs hb => ?_⟩
    · refine makes_on (fun h => h.qspiReadXfer addr.toNat 4) hh rfl ?_
      rw [Hub.qspiReadXfer_word hh hp ha h4, Hub.qspiTake_word hopen hs]
    · refine makes_on (fun h => h.qspiReadXfer addr.toNat 4) hh rfl ?_
      rw [Hub.qspiReadXfer_word hh hp ha h4, hs, Hub.qspiTake_scratch (hs ▸ hopen)]
    · exact makes_on (fun h => h.qspiWriteXfer 0x38 addr.toNat bs) hh rfl (Hub.qspiWriteXfer_word hh hp ho ha h4 hb)
  · intro k bad
    refine ⟨fun ha => ?_, fun ha bs => ?_, fun op bs hop => ?_, fun ha hn => ?_⟩
    · exact makes_on (fun h => h.qspiReadXfer addr.toNat n) hh rfl (Hub.qspiReadXfer_beyond n hh hp ha)
    · refine makes_on (fun h => h.qspiWriteXfer 0x38 addr.toNat bs) hh rfl ?_
      rw [Hub.qspiWriteXfer, if_neg (Hub.qspi_serves hh hp), if_neg (by simp), qspiWindow_none ha]
      rfl
    · refine makes_on (fun h => h.qspiWriteXfer op addr.toNat bs) hh rfl ?_
      rw [Hub.qspiWriteXfer, if_neg (Hub.qspi_serves hh hp), if_pos hop]
      rfl
    · exact gives_on (fun h => h.qspiReadXfer addr.toNat n) hh rfl (Hub.qspiReadXfer_over hh hp ha hn)
  · refine makes_on Hub.qspiStatus hh rfl ?_
    rw [Hub.qspiStatus, if_neg (Hub.qspi_serves hh hp)]

end Sys2Proof.Machine

/-! The command queues and the checks that come before a command's own (R447 to R457). -/

namespace Sys2Proof.Machine

/-! ## Refusal before any effect -/

/-- A command that the checks refuse and that is not journaled is logged and answered, whatever its own meaning. -/
theorem Hub.accept_refused {h : Hub} {c : CmdIn} {st d o : Nat} (run : Hub → CmdIn → Ack) (hs : h.served c = true)
    (hp : h.precheck c = some (st, d, o)) (hj : ∀ q, c.src = .queue q → h.twin.role ≠ .active) : h.accept c run = h.refuse c st d o := by
  have e : h.jnlCmd c = h := by
    unfold Hub.jnlCmd
    split
    next q hq => exact Hub.jnl_idle _ _ (hj q hq)
    · rfl
  unfold Hub.accept
  rw [if_neg (by simp [hs])]
  simp only [e, hp]

theorem Hub.acceptStep_refused {h : Hub} {c : CmdIn} {st d o : Nat} (run : Hub → Ack ⊕ Hub) (hs : h.served c = true)
    (hp : h.precheck c = some (st, d, o)) (hj : ∀ q, c.src = .queue q → h.twin.role ≠ .active) :
    h.acceptStep c run = h.refuse c st d o := by
  unfold Hub.acceptStep
  rw [if_neg (by simp [hs]), hp]
  exact Hub.accept_refused _ hs hp hj

theorem Hub.acceptWrite_refused {h : Hub} {c : CmdIn} {st d o : Nat} (event : Bool) (hs : h.served c = true)
    (hp : h.precheck c = some (st, d, o)) (hj : ∀ q, c.src = .queue q → h.twin.role ≠ .active) :
    h.acceptWrite c event = h.refuse c st d o := by
  unfold Hub.acceptWrite
  rw [if_neg (by simp [hs]), hp]
  exact Hub.accept_refused _ hs hp hj

/-- The checks come first for every code. -/
theorem Hub.doCmd_refused {h : Hub} {c : CmdIn} {st d o : Nat} (hs : h.served c = true) (hp : h.precheck c = some (st, d, o))
    (hj : ∀ q, c.src = .queue q → h.twin.role ≠ .active) : h.doCmd c = h.refuse c st d o := by
  unfold Hub.doCmd
  split
  · unfold Hub.calSwap
    rw [if_neg (by simp [hs]), hp]
    exact Hub.accept_refused _ hs hp hj
  · exact Hub.acceptStep_refused _ hs hp hj
  · exact Hub.acceptStep_refused _ hs hp hj
  · exact Hub.acceptWrite_refused _ hs hp hj
  · exact Hub.acceptWrite_refused _ hs hp hj
  · exact Hub.accept_refused _ hs hp hj

/-! ## The queue served next -/

/-- The first of the four queues after the one served last that has a command (R448). -/
theorem find_round {P : Nat → Bool} {l q : Nat} (hl : l < 4) :
    (([1, 2, 3, 4].map fun i => (l + i) % 4).find? P = some q) ↔
      q < 4 ∧ P q = true ∧ ∀ j, 1 ≤ j → j < (q + 3 - l) % 4 + 1 → P ((l + j) % 4) = false := by
  have hat : ∀ i, i < 4 → ([1, 2, 3, 4].map fun i => (l + i) % 4)[i]? = some ((l + (i + 1)) % 4) := by
    intro i hi
    have : i = 0 ∨ i = 1 ∨ i = 2 ∨ i = 3 := by omega
    rcases this with rfl | rfl | rfl | rfl <;> rfl
  rw [List.find?_eq_some_iff_getElem]
  constructor
  · rintro ⟨hq, i, hi, he, hb⟩
    have hi4 : i < 4 := hi
    have he' : (l + (i + 1)) % 4 = q := by
      have := hat i hi4
      rw [List.getElem?_eq_getElem hi, he] at this
      exact (Option.some.inj this).symm
    refine ⟨by omega, hq, fun j h1 h2 => ?_⟩
    obtain ⟨k, rfl⟩ : ∃ k, j = k + 1 := ⟨j - 1, by omega⟩
    have hk : k < i := by omega
    have hb' := hb k hk
    have := hat k (by omega)
    rw [List.getElem?_eq_getElem (by simp; omega)] at this
    rw [Option.some.inj this] at hb'
    simpa using hb'
  · rintro ⟨hq, hP, hb⟩
    have hi : (q + 3 - l) % 4 < ([1, 2, 3, 4].map fun i => (l + i) % 4).length := Nat.mod_lt _ (by decide)
    refine ⟨hP, (q + 3 - l) % 4, hi, ?_, fun k hk => ?_⟩
    · have := hat ((q + 3 - l) % 4) (by omega)
      rw [List.getElem?_eq_getElem hi] at this
      rw [Option.some.inj this]
      omega
    · have := hat k (by omega)
      rw [List.getElem?_eq_getElem (by simp; omega)] at this
      rw [Option.some.inj this]
      simpa using hb (k + 1) (by omega) (by omega)

/-! ## The indices of a queue -/

theorem Hub.hqWaiting_lt (h : Hub) (q : Nat) : h.hqWaiting q < 32 := Nat.mod_lt _ (by decide)

theorem bits_lt (w : Word) (f : Nat × Nat) : bits w f < 2 ^ f.2 := Nat.mod_lt _ (Nat.two_pow_pos _)

theorem fieldsAt_HQ_CFG (q : Fin 4) : fieldsAt (Reg.HQ_CFG q) = [⟨0, 1, .rw⟩, ⟨1, 2, .rwl⟩] := by revert q; decide +kernel

/-- A write of a queue's word sets its enable as it says. -/
theorem Hub.fld_regWrite_en (h : Hub) (q : Fin 4) (w : Word) (live : Bool) :
    (h.regWrite (Reg.HQ_CFG q) w live Hub.hostRefuse).fld (Reg.HQ_CFG q) F.HQ_CFG_EN = bits w F.HQ_CFG_EN := by
  have hrd : (h.regWrite (Reg.HQ_CFG q) w live Hub.hostRefuse).rd (Reg.HQ_CFG q) =
      (applyFields live w (fieldsAt (Reg.HQ_CFG q)) (h.rd (Reg.HQ_CFG q), false)).1 := by
    unfold Hub.regWrite Hub.when
    dsimp only
    split
    · exact (Hub.rd_evt_ne _ _ (by simp only [Reg.HQ_CFG, Reg.HOST_EVT]; omega)).trans (Hub.rd_wr_same _ _ _)
    · exact Hub.rd_wr_same _ _ _
  rw [Hub.fld, hrd]
  have hmem : (⟨0, 1, .rw⟩ : RegField) ∈ fieldsAt (Reg.HQ_CFG q) := by rw [fieldsAt_HQ_CFG]; exact List.mem_cons_self
  refine bits_eq_of_testBit (f := ⟨0, 1, .rw⟩) fun i hi => ?_
  rw [bits_applyFields (fieldsAt_apart _) hmem hi]
  rfl

theorem Hub.regWrite_only (h : Hub) (a : Nat) (w : Word) (live : Bool) :
    h.regWrite a w live Hub.hostRefuse = { h with regs := (h.regWrite a w live Hub.hostRefuse).regs } := by
  unfold Hub.regWrite Hub.when
  dsimp only
  split <;> rfl

theorem Hub.regWrite_rd (h : Hub) {a b : Nat} (w : Word) (live : Bool) (h1 : b ≠ a) (h2 : b ≠ Reg.HOST_EVT) :
    (h.regWrite a w live Hub.hostRefuse).rd b = h.rd b := by
  unfold Hub.regWrite Hub.when
  dsimp only
  split
  · exact (Hub.rd_evt_ne _ _ h2).trans (Hub.rd_wr_ne _ _ h1)
  · exact Hub.rd_wr_ne _ _ h1

/-- Only register words changed. -/
theorem only_regs {s : State} {h : Hub} (e : h = { s.hub with regs := h.regs }) : Only [.regs] s { s with hub := h } := by
  rw [e]
  exact only_hub rfl fun p hp => by cases p <;> first | rfl | simp at hp

/-- One field of one word was set. -/
theorem gives_setFld {i : Instr} {s : State} {a : Nat} {f : Nat × Nat} {v : Nat} {P : State → Prop} (g : Hub → Hub)
    (hh : s.hub.held = false) (he : exec i s = s.on g) (hg : g s.hub = s.hub.setFld a f v) (hf : f.1 + f.2 ≤ 32) (hv : v < 2 ^ f.2)
    (hP : P { s with hub := s.hub.setFld a f v }) :
    Gives i s fun u => Only [.regs] s u ∧ RegsBut [a] s u ∧ u.hub.fld a f = v ∧ P u := by
  refine gives_on g hh he ?_
  rw [hg]
  refine ⟨only_regs rfl, fun b hb => Hub.rd_setFld_ne _ _ _ (by simpa using hb), ?_, hP⟩
  rw [Hub.fld_setFld _ _ _ _ hf, Nat.mod_eq_of_lt hv]

/-- Settles O15: the indices of the queues, the turn of R448, and the checks in their order. -/
theorem commandQueuesAndChecks : Obligations.CommandQueuesAndChecks := by
  unfold Obligations.CommandQueuesAndChecks
  refine ⟨fun s q p w => ?_, fun s q p w => ?_, fun s q w hh hen => ?_, fun h q hl => ?_, fun s q hh hq => ?_, fun h c st d o hs hp hj => ?_,
    fun h c => ?_, fun s src tag => ?_⟩
  · intro t room hh hp
    refine ⟨fun ho => ?_, fun ho hr => ?_, fun ho hr => ?_⟩
    · refine makes_on (fun h => h.hqTail q p w) hh rfl ?_
      rw [Hub.hqTail, if_neg (by simp [hp]), if_pos ho, Hub.hostRefuse]
    · refine makes_on (fun h => h.hqTail q p w) hh rfl ?_
      rw [Hub.hqTail, if_neg (by simp [hp]), if_neg (by simp [ho]), if_pos hr]
    · refine gives_setFld (fun h => h.hqTail q p w) hh rfl ?_ (by decide) (bits_lt w F.HQ_CMD_TAIL) ?_
      · rw [Hub.hqTail, if_neg (by simp [hp]), if_neg (by simp [ho]), if_neg (Nat.not_lt.2 hr)]
      · show Hub.hqWaiting _ _ = room
        rw [Hub.hqWaiting, Hub.fld_setFld _ _ _ _ (by decide), Hub.fld_setFld_ne _ _ _ _ _ (by decide), Nat.mod_eq_of_lt (bits_lt w F.HQ_CMD_TAIL)]
  · intro t n hh hp
    refine ⟨fun ho => ?_, fun ho hn => ?_⟩
    · refine makes_on (fun h => h.hqHeadWrite q p w) hh rfl ?_
      rw [Hub.hqHeadWrite, if_neg (by simp [hp]), if_pos ho, Hub.hostRefuse]
    · refine gives_setFld (fun h => h.hqHeadWrite q p w) hh rfl ?_ (by decide) (bits_lt w F.HQ_RSP_HEAD) ?_
      · rw [Hub.hqHeadWrite, if_neg (by simp [hp]), if_neg (by simp only [ho, Bool.true_eq_false, false_or]; exact Nat.not_lt.2 hn)]
      · show Hub.hqUnread _ _ = _
        have hb : bits w F.HQ_RSP_HEAD < 32 := bits_lt w F.HQ_RSP_HEAD
        have h1 : s.hub.fld (Reg.HQ_RSP q) F.HQ_RSP_TAIL < 32 := bits_lt _ F.HQ_RSP_TAIL
        have h2 : s.hub.fld (Reg.HQ_RSP q) F.HQ_RSP_HEAD < 32 := bits_lt _ F.HQ_RSP_HEAD
        simp only [n, t, Hub.hqUnread] at hn ⊢
        rw [Hub.fld_setFld _ _ _ _ (by decide), Hub.fld_setFld_ne _ _ _ _ _ (by decide), Nat.mod_eq_of_lt (bits_lt w F.HQ_RSP_HEAD)]
        omega
  · have hbit : bits (putBits w F.HQ_CFG_EN 0) F.HQ_CFG_EN = 0 := bits_putBits_same w F.HQ_CFG_EN 0 (by decide)
    have hne : Reg.HQ_CMD q ≠ Reg.HQ_CFG q := by simp only [Reg.HQ_CMD, Reg.HQ_CFG]; omega
    have hev : Reg.HQ_CMD q ≠ Reg.HOST_EVT := by simp only [Reg.HQ_CMD, Reg.HOST_EVT]; omega
    refine gives_on (fun h => h.hqCfgWrite q (putBits w F.HQ_CFG_EN 0)) hh rfl ?_
    have he : s.hub.hqCfgWrite q (putBits w F.HQ_CFG_EN 0) =
        (s.hub.regWrite (Reg.HQ_CFG q) (putBits w F.HQ_CFG_EN 0) true Hub.hostRefuse).setFld (Reg.HQ_CMD q) F.HQ_CMD_HEAD
          (s.hub.fld (Reg.HQ_CMD q) F.HQ_CMD_TAIL) := by
      unfold Hub.hqCfgWrite
      simp only [hen]
      rw [if_pos ⟨trivial, hbit⟩, Hub.fld_of_rd _ (Hub.regWrite_rd _ _ _ hne hev)]
    simp only [he]
    generalize hk : s.hub.regWrite (Reg.HQ_CFG q) (putBits w F.HQ_CFG_EN 0) true Hub.hostRefuse = k
    have htail : k.fld (Reg.HQ_CMD q) F.HQ_CMD_TAIL = s.hub.fld (Reg.HQ_CMD q) F.HQ_CMD_TAIL := by
      rw [← hk]
      exact Hub.fld_of_rd _ (Hub.regWrite_rd _ _ _ hne hev)
    have hlt : s.hub.fld (Reg.HQ_CMD q) F.HQ_CMD_TAIL < 2 ^ 5 := bits_lt _ F.HQ_CMD_TAIL
    refine ⟨only_regs ?_, fun a ha => ?_, ?_, ?_, ?_⟩
    · rw [← hk, Hub.regWrite_only]
      rfl
    · simp only [List.mem_cons, List.not_mem_nil, or_false, not_or] at ha
      rw [Hub.rd_setFld_ne _ _ _ ha.2.1, ← hk, Hub.regWrite_rd _ _ _ ha.1 ha.2.2]
    · rw [Hub.flag_of_rd _ (Hub.rd_setFld_ne _ _ _ hne.symm), Hub.flag, ← hk, Hub.fld_regWrite_en, hbit]
      rfl
    · rw [Hub.hqWaiting, Hub.fld_setFld _ _ _ _ (by decide), Hub.fld_setFld_ne _ _ _ _ _ (by decide), htail, show F.HQ_CMD_HEAD.2 = 5 from rfl, Nat.mod_eq_of_lt hlt]
      omega
    · rw [Hub.fld_setFld_ne _ _ _ _ _ (by decide), htail]
  · rw [Hub.nextQueue, find_round hl]
    simp [and_assoc]
  · intro k
    refine makes_on Hub.commandTake hh rfl ?_
    have hf : Fin.ofNat 4 q.val = q := Fin.ext (Nat.mod_eq_of_lt q.isLt)
    simp only [Hub.commandTake, hq, hf, k]
  · exact Hub.doCmd_refused hs hp hj
  · intro ver
    have hver : h.cmdVersion c.src = ver := by
      simp only [Hub.cmdVersion, ver]
      cases c.src <;> rfl
    refine ⟨fun h0 hc => ?_, fun h0 hd => ?_, fun h3 hc => ?_⟩
    · simp only [Hub.precheck, hver]
      rw [if_pos ⟨h0, hc⟩]
    · simp only [Hub.precheck, hver, show max 1 ver = ver by omega]
      rw [if_neg (by omega), if_pos hd]
    · have hfam : familyIn (max 1 ver) 0x0C = true := by simp [familyIn, h3]
      simp only [Hub.precheck, hver, hc]
      rw [if_neg (by omega), if_neg (by simp [codeDefined, hfam]), if_pos trivial]
  · intro c hh hs hp hj
    exact makes_on (fun h => h.accept c runFlashStage) hh rfl (Hub.accept_refused _ hs hp hj)

end Sys2Proof.Machine

/-! The global commands, a journaled host command, and the ring loop (R369, R453, R463 to R465). -/

namespace Sys2Proof.Machine

theorem Gives.imp {i : Instr} {s : State} {P Q : State → Prop} (hg : Gives i s P) (h : ∀ t, P t → Q t) : Gives i s Q :=
  let ⟨t, he, hp⟩ := hg
  ⟨t, he, h t hp⟩

theorem HQ_CFG_not_ackRegs (c : CmdIn) (s : State) (q : Fin 4) : Reg.HQ_CFG q ∉ ackRegs c s := by
  unfold ackRegs
  split
  · simp only [answerRegs, Reg.HQ_INPROG, Reg.HOST_EVT, Reg.HQ_RSP, Reg.HQ_RSP_SLOT, Reg.HQ_CFG, List.mem_cons, List.mem_map, not_or,
      not_exists]
    exact ⟨by omega, by omega, by omega, fun x => by omega⟩
  · simp only [answerRegs, Reg.HOST_EVT, Reg.HQ_RSP, Reg.HQ_RSP_SLOT, Reg.HQ_CFG, List.mem_cons, List.mem_map, not_or, not_exists]
    exact ⟨by omega, by omega, fun x => by omega⟩
  · simp

/-! ## A frame that goes no further

What frames, buffer and queues undergo leaves every part of the hub but register words, outputs, the twin's journal, the switch core and the
traffic manager. -/

/-- The hub without the parts that frames touch. -/
def Hub.offTraffic (h : Hub) : Hub := { h with regs := [], out := [], twin := {}, swc := {}, tm := {} }

theorem Hub.moveCells_off (h : Hub) (used : Bool) (l : List Nat) : (h.moveCells used l).offTraffic = h.offTraffic := by
  unfold Hub.moveCells
  refine foldl_keeps Hub.offTraffic _ ?_ l h
  exact fun _ _ => rfl

theorem Hub.giveCells_off (h : Hub) (l : List Nat) : (h.giveCells l).offTraffic = h.offTraffic := h.moveCells_off false l

theorem Hub.jnl_off (h : Hub) (k : Nat) (b : List Word) : (h.jnl k b).offTraffic = h.offTraffic := by
  rw [Hub.jnl_fields]
  rfl

theorem Hub.departed_off (h : Hub) (f : Frame) : (h.departed f).offTraffic = h.offTraffic := by
  unfold Hub.departed
  split
  · exact h.jnl_off _ _
  · rfl

theorem Hub.release_off (h : Hub) (id : Nat) : (h.release id).offTraffic = h.offTraffic := by
  unfold Hub.release
  dsimp only
  split
  · rw [Hub.departed_off]
    have hcells := Hub.giveCells_off { h with swc := { h.swc with buf := tset none h.swc.buf id none } } (h.frame id).cells
    generalize Hub.giveCells _ (h.frame id).cells = k at hcells
    split <;> split <;> exact hcells
  · rfl

theorem Hub.unqueue_off (h : Hub) (id : Nat) : (h.unqueue id).offTraffic = h.offTraffic := by
  unfold Hub.unqueue
  dsimp only
  refine (foldl_keeps Hub.offTraffic _ (fun k q => ?_) _ _).trans (foldl_keeps Hub.offTraffic _ (fun k x => ?_) _ _)
  · split
    · exact Hub.release_off _ _
    · rfl
  · split
    · exact Hub.release_off _ _
    · rfl

theorem Hub.endCut_off (h : Hub) (p : Nat) (t : TxNow) (bs : List Byte) (good : Bool) : (h.endCut p t bs good).offTraffic = h.offTraffic := by
  have hq : ∀ (k : Hub) q (x : TQueue) p t e, (((k.setTq q x).setTx p t).setLineEnd p e).offTraffic = k.offTraffic := fun _ _ _ _ _ _ => rfl
  have hw : ∀ (k : Hub) o, (k.emit o).offTraffic = k.offTraffic := fun _ _ => rfl
  have hc : ∀ (k : Hub) a b f, ((k.count a).evt b f).offTraffic = k.offTraffic := fun _ _ _ _ => rfl
  unfold Hub.endCut
  dsimp only
  split
  · rw [hw, hq]
  · rw [hw, hc, hq]

theorem Hub.cutTail_off (h : Hub) (id : Nat) (bs : List Byte) (good : Bool) : (h.cutTail id bs good).offTraffic = h.offTraffic := by
  unfold Hub.cutTail
  dsimp only
  refine (foldl_keeps Hub.offTraffic _ (fun k p => ?_) [0, 1] _).trans rfl
  split
  · split
    · exact Hub.endCut_off _ _ _ _ _
    · rfl
  · rfl

theorem Hub.cutEnd_off (h : Hub) (p : Nat) (bs : List Byte) : (h.cutEnd p bs).offTraffic = h.offTraffic := by
  unfold Hub.cutEnd
  split
  · rfl
  · dsimp only
    split
    · rw [Hub.release_off, Hub.unqueue_off, Hub.cutTail_off]
      rfl
    · rfl

/-- No frame is coming: nothing is cut off. -/
theorem Hub.cutEnd_none {h : Hub} {p : Nat} (bs : List Byte) (hc : h.comingOn p = none) : h.cutEnd p bs = h := by
  unfold Hub.cutEnd
  rw [hc]

/-! ## Links -/

theorem Hub.setLink_but (h : Hub) (p : Nat) (l : Link) :
    h.setLink p l = { h with regs := (h.setLink p l).regs, ring := (h.setLink p l).ring } := by
  unfold Hub.setLink
  split <;> rfl

theorem Hub.setLink_link (h : Hub) (p : Nat) (l : Link) : ((h.setLink p l).rport p).link = l := by
  unfold Hub.setLink
  split
  next he => exact he
  · exact congrArg RPort.link (Hub.rport_setRport_same h p _)

theorem Hub.setLink_rd (h : Hub) (p : Nat) (l : Link) {a : Nat} (ha : a ≠ Reg.RING_EVT) : (h.setLink p l).rd a = h.rd a := by
  unfold Hub.setLink
  split
  · rfl
  · exact Hub.rd_evt_ne _ _ ha

/-- The hub whose port `p` has gone down, before the frame that was coming on it is cut off. -/
def Hub.downed (h : Hub) (p : Nat) : Hub :=
  let d := h.setLink p .down
  (d.setRport p { d.rport p with pauseRx := false }).count (Reg.RING_P_CNT_LINK_DOWNS p)

theorem Hub.linkDown_eq (h : Hub) (p : Nat) : h.linkDown p = if (h.rport p).link = .down then h else (h.downed p).cutEnd p [] := rfl

theorem Hub.downed_but (h : Hub) (p : Nat) : h.downed p = { h with regs := (h.downed p).regs, ring := (h.downed p).ring } := by
  unfold Hub.downed
  dsimp only
  rw [Hub.setLink_but]
  rfl

theorem Hub.downed_link (h : Hub) (p : Nat) : ((h.downed p).rport p).link = .down :=
  (congrArg RPort.link (Hub.rport_setRport_same _ p _)).trans (h.setLink_link p .down)

theorem Hub.downed_rd (h : Hub) {p a : Nat} (h1 : a ≠ Reg.RING_EVT) (h2 : a ≠ Reg.RING_P_CNT_LINK_DOWNS p) :
    (h.downed p).rd a = h.rd a := (Hub.rd_count_ne _ h2).trans (h.setLink_rd p .down h1)

/-- A port that no frame was coming on goes down with nothing cut off. -/
theorem Hub.linkDown_quiet {h : Hub} {p : Nat} (hc : h.comingOn p = none) :
    h.linkDown p = if (h.rport p).link = .down then h else h.downed p := by
  have hd : (h.downed p).comingOn p = none := by rw [Hub.downed_but]; exact hc
  rw [Hub.linkDown_eq, Hub.cutEnd_none _ hd]

theorem Hub.linkDown_now (h : Hub) (p : Nat) : (h.linkDown p).now = h.now := by
  rw [Hub.linkDown_eq]
  split
  · rfl
  · have hcut : (Hub.cutEnd (h.downed p) p []).now = (h.downed p).now := (congrArg Hub.now (Hub.cutEnd_off (h.downed p) p []) :)
    rw [hcut, Hub.downed_but]

/-! ## The ring loop -/

theorem Hub.loopUp_setLoop (h : Hub) (l : RingLoop) (p : Nat) (b : Bool) :
    ((h.setRport p { h.rport p with loop := b }).setLoop l).loopUp p = h.loopUp p := by
  have hr : (((h.setRport p { h.rport p with loop := b }).setLoop l).rport p).link = (h.rport p).link :=
    (congrArg RPort.link (Hub.rport_setRport_same h p { h.rport p with loop := b }) :)
  unfold Hub.loopUp
  split
  next hp => rw [← hp, hr]
  next => exact congrArg (· == Link.up) hr

/-- The hub whose ring loop has been stopped. -/
def Hub.loopStopped (h : Hub) (l : RingLoop) : Hub :=
  (h.setRport l.port { h.rport l.port with loop := false }).setLoop { l with ended := some h.now }

theorem Hub.loopStop_running {h : Hub} {l : RingLoop} (hm : h.host.maint = .loop l) (hl : l.ended = none) :
    h.loopStop = h.loopStopped l := by
  unfold Hub.loopStop
  rw [hm]
  exact if_neg (by simp [hl])

theorem Hub.loopStop_ended {h : Hub} {l : RingLoop} {t : Nat} (hm : h.host.maint = .loop l) (hl : l.ended = some t) : h.loopStop = h := by
  unfold Hub.loopStop
  rw [hm]
  exact if_pos (by simp [hl])

theorem Hub.loopSettle_ended {h : Hub} {l : RingLoop} {t : Nat} (hm : h.host.maint = .loop l) (hl : l.ended = some t) :
    h.loopSettle =
      (if h.loopUp l.port then h.maintEnd.answer l.ref sOK [word l.sent, word l.good, word l.bad]
       else if t + 100 * tuMs ≤ h.now then h.maintEnd.answer l.ref sETIMEOUT [word l.sent, word l.good, word l.bad]
       else h) := by
  unfold Hub.loopSettle
  simp only [hm, hl]

theorem Hub.loopStopped_loop (h : Hub) (l : RingLoop) : ((h.loopStopped l).rport l.port).loop = false :=
  congrArg RPort.loop (Hub.rport_setRport_same h l.port _)

/-- A hub with the same link ports. -/
theorem Hub.rport_of_ring {h k : Hub} (e : k.ring = h.ring) (p : Nat) : k.rport p = h.rport p := by unfold Hub.rport; rw [e]

/-- Settles O16, command by command. -/
theorem globalCommandsAndRingLoop : Obligations.GlobalCommandsAndRingLoop := by
  unfold Obligations.GlobalCommandsAndRingLoop
  refine ⟨fun s jseq act q ws hh hr hj => ?_, fun s q tag lo hi => ?_, fun s src tag => ?_, fun s src tag kind => ?_, fun s cold t hh hd => ?_,
    fun s src tag pw ms => ?_, fun s l hh hm hl => ⟨fun back h1 h2 => ?_, fun h1 h2 => ?_, fun src tag => ?_⟩, fun s l t hh hm hl => ?_⟩
  · refine makes_on (fun h => h.jnlApply jseq.toNat act.toNat fun h => h.doCmd (cmdOf (.journal q) ws)) hh rfl ?_
    unfold Hub.jnlApply
    rw [if_neg (by simp [hr])]
    rcases hj with e | ⟨n, e, e'⟩
    · simp only [e, Bool.false_eq_true, if_false]
      exact if_neg (not_not.2 hr)
    · simp only [e, e', ne_eq, not_true_eq_false, decide_false, Bool.false_eq_true, if_false]
      exact if_neg (not_not.2 hr)
  · intro c v ha h1 h2 h3
    have hlo : lo.toNat < 256 := lo.isLt
    have hhi : hi.toNat < 256 := hi.isLt
    have harg : c.arg 1 = lo.toNat + hi.toNat * 256 := Nat.mod_eq_of_lt (by omega)
    have hrun : runNodeHello s.hub c = .done (s.hub.setFld (Reg.HQ_CFG q) F.HQ_CFG_VERSION v) [word (v + 256 + 3 * 65536)] := by
      have hl : c.arg 1 % 256 = lo.toNat := by omega
      have hh' : c.arg 1 / 256 % 256 = hi.toNat := by omega
      unfold runNodeHello
      simp only [hl, hh']
      rw [if_neg (by simp only [not_or]; exact ⟨by omega, by omega, by omega, by simp [c, mkCmd, CmdIn.zeroFrom]⟩), if_neg (by omega)]
      rfl
    refine gives_done (fun h => h.accept c runNodeHello) [] [Reg.HQ_CFG q] rfl ha (accept_done ha hrun) (by simp) rfl
      (fun p hp => by cases p <;> first | rfl | simp at hp) rfl (fun a h => Hub.rd_setFld_ne _ _ _ (by simpa using h))
      (fun q' => by simp only [List.mem_singleton, Reg.HQ_RSP, Reg.HQ_CFG]; omega) fun k _ hk => ?_
    have hrd := hk _ (HQ_CFG_not_ackRegs c s q)
    refine ⟨(Hub.fld_of_rd _ hrd).trans ?_, (Hub.fld_of_rd _ hrd).trans (Hub.fld_setFld_ne _ _ _ _ _ (by decide))⟩
    rw [Hub.fld_setFld _ _ _ _ (by decide)]
    exact Nat.mod_eq_of_lt (by simp only [F.HQ_CFG_VERSION]; omega)
  · intro c ha
    refine (gives_done (P := fun _ => True) (fun h => h.accept c runNodeInfo) [] [] rfl ha (accept_done ha ?_) ?_ rfl (fun _ _ => ?_) rfl
      (fun _ _ => rfl) (fun q => by simp) fun _ _ _ => trivial).imp fun t ht => ⟨ht.2.1, ht.1⟩
    · exact if_neg (by simp [c, mkCmd, CmdIn.zeroFrom])
    · simp
    · rename_i p _
      cases p <;> rfl
  · intro c ha h1 h2 hf
    have harg : c.arg 1 = kind.toNat := rfl
    have hrun : runNodeReset s.hub c =
        .done { s.hub with host := { s.hub.host with resetDue := some (decide (kind.toNat = 2), s.hub.now + tuMs) } } [] := by
      unfold runNodeReset
      rw [harg, if_neg (by simp only [not_or, not_and]; exact ⟨by omega, by simp [c, mkCmd, CmdIn.zeroFrom]⟩), if_neg (by simp [hf])]
    refine gives_done (fun h => h.accept c runNodeReset) [.host] [] rfl ha (accept_done ha hrun) (by simp) rfl
      (fun p hp => by cases p <;> first | rfl | simp at hp) rfl (fun _ _ => rfl) (fun q => by simp) fun k hk _ => ?_
    exact hk .host (by decide) (by decide)
  · intro k
    refine makes_on Hub.nodeResetFire hh rfl ?_
    unfold Hub.nodeResetFire
    rw [hd]
  · intro c p ha hp h1 h2 hmode hst hf
    have hrun : runRingLoop s.hub c = .later (let k := s.hub.linkDown p
        let k := k.setRport p { k.rport p with loop := true }
        { k with host := { k.host with maint := .loop ⟨p, s.hub.now, ms.toNat * tuMs, 0, 0, 0, none, c.ref⟩ } }) := by
      have e1 : c.arg 1 = p := rfl
      have e2 : c.arg 2 = ms.toNat := rfl
      unfold runRingLoop
      simp only [e1, e2]
      rw [if_neg (by simp only [not_or]; exact ⟨by omega, by omega, by omega, by simp [c, mkCmd, CmdIn.zeroFrom]⟩), if_neg hmode,
        if_neg (by rintro ⟨a, b⟩; exact b (hst a)), if_neg (by simp [hf])]
      simp only [Hub.setRport_now, Hub.linkDown_now]
    refine ⟨hrun, fun hc => gives_on (fun h => h.accept c runRingLoop) ha.1 rfl ?_⟩
    have hring : ∀ k : Hub, (k.busyWith c).ring = k.ring ∧ (k.busyWith c).host = k.host := by
      intro k
      unfold Hub.busyWith
      split <;> exact ⟨rfl, rfl⟩
    have hacc := accept_busy ha hrun
    simp only [Hub.linkDown_quiet hc] at hacc
    generalize hd : (if (s.hub.rport p).link = .down then s.hub else s.hub.downed p) = d at hacc
    have hdown : (d.rport p).link = .down := by
      rw [← hd]
      split
      next e => exact e
      · exact Hub.downed_link _ _
    have hhost : d.host = s.hub.host := by
      rw [← hd]
      split
      · rfl
      · rw [Hub.downed_but]
    have hrd : ∀ q : Fin 4, d.rd (Reg.HQ_INPROG q) = s.hub.rd (Reg.HQ_INPROG q) := by
      intro q
      rw [← hd]
      split
      · rfl
      · exact Hub.downed_rd _ (by simp only [Reg.HQ_INPROG, Reg.RING_EVT]; omega) (by simp only [Reg.HQ_INPROG, Reg.RING_P_CNT_LINK_DOWNS]; omega)
    simp only [hacc]
    refine ⟨?_, ?_, ?_, ?_⟩
    · unfold InProgress Hub.busyWith
      cases src with
      | queue q =>
        simp only [c, mkCmd_src]
        rw [Hub.fld_setFld _ _ _ _ (by decide)]
        refine (Nat.mod_eq_of_lt (by simp only [F.HQ_INPROG]; omega)).trans ?_
        exact congrArg (fun n => min 31 (n + 1)) (Hub.fld_of_rd (h := s.hub) _ (hrd q))
      | script => trivial
      | journal q => trivial
    · rw [Hub.rport_of_ring (hring _).1]
      exact congrArg RPort.loop (Hub.rport_setRport_same d p _)
    · rw [Hub.rport_of_ring (hring _).1]
      exact (congrArg RPort.link (Hub.rport_setRport_same d p _)).trans hdown
    · rw [(hring _).2]
      simp [hhost]
  · refine makes_on (fun h => h.loopTx back) hh rfl ?_
    unfold Hub.loopTx
    simp only [hm]
    rw [if_neg (by simp only [hl, not_or]; exact ⟨by simp, by omega, by omega⟩)]
  · refine gives_on (fun h => h.loopEnd.loopSettle) hh rfl ?_
    have he : s.hub.loopEnd.loopSettle = s.hub.loopStopped l := by
      have hend : s.hub.loopEnd = s.hub.loopStopped l := by
        unfold Hub.loopEnd
        rw [hm]
        exact (if_pos h1).trans (Hub.loopStop_running hm hl)
      rw [hend, Hub.loopSettle_ended (l := { l with ended := some s.hub.now }) rfl rfl]
      rw [if_neg (by rw [show (s.hub.loopStopped l).loopUp l.port = _ from Hub.loopUp_setLoop _ _ _ _]; simp [h2]),
        if_neg (by show ¬ s.hub.now + 100 * tuMs ≤ s.hub.now; simp only [tuMs]; omega)]
    simp only [he]
    exact ⟨only_hub rfl fun p hp => by cases p <;> first | rfl | simp at hp, fun _ _ => rfl, Hub.loopStopped_loop _ _, rfl⟩
  · intro c ha
    have hrun : runMaintEnd s.hub c = .done (s.hub.loopStopped l) [] := by
      unfold runMaintEnd
      rw [if_neg (by simp [c, mkCmd, CmdIn.zeroFrom]), hm]
      exact congrArg (Ack.done · []) (Hub.loopStop_running hm hl)
    refine gives_done (fun h => h.accept c runMaintEnd) [.host, .ring] [] rfl ha (accept_done ha hrun) (by simp) rfl
      (fun p hp => by cases p <;> first | rfl | simp at hp) rfl (fun _ _ => rfl) (fun q => by simp) fun k hk _ => ?_
    refine ⟨?_, hk .host (by decide) (by decide)⟩
    exact (congrArg RPort.loop (Hub.rport_of_ring (hk .ring (by decide) (by decide)) _)).trans (Hub.loopStopped_loop _ _)
  · refine makes_on (fun h => h.loopEnd.loopSettle) hh rfl ?_
    have hend : s.hub.loopEnd = s.hub := by
      unfold Hub.loopEnd
      rw [hm]
      dsimp only
      split
      · exact Hub.loopStop_ended hm hl
      · rfl
    rw [hend, Hub.loopSettle_ended hm hl]

end Sys2Proof.Machine

/-! The point commands (R37, R38, R45, R46, R48, R56, R63, R66, R67, R69, R70). -/

namespace Sys2Proof.Machine

theorem zeroFrom_mkCmd (src : CmdSrc) (code : Nat) (tag : Byte) (args : List Word) (i : Nat) (hi : (args.drop (i - 1)).all (· == 0) = true) :
    (mkCmd src code tag args).zeroFrom i = true := by
  have hz : ∀ n, (List.replicate n (0 : Word)).all (· == 0) = true := fun n => by simp
  rw [CmdIn.zeroFrom, List.all_eq_true]
  intro w hw
  have hmem := List.mem_of_mem_drop hw
  rw [mkCmd, List.drop_take, List.drop_append] at hw
  have := List.mem_of_mem_take hw
  rcases List.mem_append.1 this with h | h
  · exact List.all_eq_true.1 hi w h
  · exact List.all_eq_true.1 (hz 7) w (List.mem_of_mem_drop h)

/-! ## The point map -/

theorem Hub.mapApply_spec (h : Hub) (m : MapChange) :
    (h.mapApply m).pt = { h.pt with pts := (h.mapApply m).pt.pts, wrote := [] } ∧ (∀ p, p ≠ .pt → h.same (h.mapApply m) p) ∧
      (h.mapApply m).now = h.now ∧
      ∀ j, (h.mapApply m).slot j = if m.first ≤ j ∧ j < m.first + m.count then m.record else h.slot j := by
  obtain ⟨hpt, hsame, hnow, hslot⟩ := foldl_setSlot m.record m.first m.count { h with pt := { h.pt with wrote := [] } }
  exact ⟨hpt, fun p hp => by have := hsame p hp; cases p <;> first | exact this | contradiction, hnow, hslot⟩

/-- Arguments of `PT_MAP_SET` in range make the change that they name. -/
theorem runPtMapSet_ok (h : Hub) (src : CmdSrc) (tag : Byte) {first count what : Word} (h1 : first.toNat + count.toNat ≤ 0xFF00)
    (h2 : 1 ≤ count.toNat) (h3 : what.toNat % 16 < 8) :
    let m : MapChange := ⟨first.toNat, count.toNat, testBit what.toNat 15, BitVec.ofNat 4 what.toNat, BitVec.ofNat 8 (what.toNat / 16 % 32)⟩
    runPtMapSet h (mkCmd src 0x0D06 tag [first, count, what]) =
      if h.car.strum then .done { h with pt := { h.pt with mapPend := h.pt.mapPend ++ [m] } } [] else .done (h.mapApply m) [] := by
  intro m
  have e1 : (mkCmd src 0x0D06 tag [first, count, what]).arg 1 = first.toNat := rfl
  have e2 : (mkCmd src 0x0D06 tag [first, count, what]).arg 2 = count.toNat := rfl
  have e3 : (mkCmd src 0x0D06 tag [first, count, what]).arg 3 = what.toNat := rfl
  unfold runPtMapSet
  simp only [e1, e2, e3]
  rw [if_neg (by rw [zeroFrom_mkCmd _ _ _ _ 4 rfl]; simp only [Bool.true_eq_false, or_false, not_or]; omega)]

/-! ## Subscriptions -/

theorem Hub.subBase_congr {h k : Hub} (e : k.regs = h.regs) (i : Nat) : k.subBase i = h.subBase i := Hub.fld_congr e _ _
theorem Hub.subCount_congr {h k : Hub} (e : k.regs = h.regs) (i : Nat) : k.subCount i = h.subCount i :=
  congrArg (· + 1) (Hub.fld_congr e _ _)

/-- Filling a subscription's range of the mirror changes these entries alone. -/
theorem Hub.subFill_spec (h : Hub) (i : Nat) (r : Rec) :
    (∀ p, p ≠ .pt → h.same (h.subFill i r) p) ∧ (h.subFill i r).now = h.now ∧ (h.subFill i r).pt = { h.pt with mir := (h.subFill i r).pt.mir } ∧
      ∀ m, (h.subFill i r).mirE m = if h.subBase i ≤ m ∧ m < h.subBase i + h.subCount i then r else h.mirE m :=
  foldl_setMirE r (h.subBase i) (h.subCount i) h

/-- Opening a subscription takes a tag for its request, fills its range and makes it OPENING. -/
theorem Hub.openSub_spec {h : Hub} {tt : Nat} (i origin : Nat) (hf : h.freeTag = some tt) :
    ∃ k, h.openSub i origin = some k ∧ k.now = h.now ∧ (∀ p, p ∉ [Part.pt, .ring, .swc] → h.same k p) ∧ k.subSt i = .opening ∧
      (∀ j, j ≠ i → k.subSt j = h.subSt j) ∧
      (∀ m, k.mirE m = if h.subBase i ≤ m ∧ m < h.subBase i + h.subCount i then { quality := 1, flags := 0xC0 } else h.mirE m) ∧
      k.tag tt = { st := .pending, kind := .subscribe, origin := origin, node := h.subNode i, point := h.subStart i,
                   count := h.subCount i, landing := i, status := (h.tag tt).status, lastTx := h.now } ∧
      (∀ u, u ≠ tt → k.tag u = h.tag u) ∧ ∀ j, k.slot j = h.slot j := by
  obtain ⟨x, hx, hnow, hsame, hpt, hother, htag⟩ :=
    Hub.issueTxn_spec .subscribe origin (h.subNode i) (h.subStart i) (h.subCount i) i [] none hf
  obtain ⟨fsame, fnow, fpt, fmir⟩ := x.subFill_spec i { quality := 1, flags := 0xC0 }
  have hregs : x.regs = h.regs := hsame .regs (by decide)
  have htags : (x.subFill i { quality := 1, flags := 0xC0 }).pt.tags = x.pt.tags := by rw [fpt]
  refine ⟨(x.subFill i { quality := 1, flags := 0xC0 }).setSub i .opening, by rw [Hub.openSub, hx], fnow.trans hnow, fun p hp => ?_,
    Hub.subSt_setSub_same _ _ _, fun j hj => ?_, fun m => ?_, ?_, fun u hu => ?_, fun j => ?_⟩
  · have h1 := hsame p hp
    have h2 := fsame p (by rintro rfl; simp at hp)
    cases p <;> first | exact Eq.trans h2 h1 | simp at hp
  · have h1 : (x.subFill i { quality := 1, flags := 0xC0 }).pt.sub = x.pt.sub := by rw [fpt]
    have h2 : x.pt.sub = h.pt.sub := by rw [hpt]
    rw [Hub.subSt_setSub, if_neg hj, Hub.subSt_congr h1, Hub.subSt_congr h2]
  · have h1 : x.pt.mir = h.pt.mir := by rw [hpt]
    refine (fmir m).trans ?_
    rw [Hub.subBase_congr hregs, Hub.subCount_congr hregs, Hub.mirE_congr h1]
  · exact (Hub.tag_congr htags tt).trans htag
  · exact (Hub.tag_congr htags u).trans (hother u hu)
  · have h1 : (x.subFill i { quality := 1, flags := 0xC0 }).pt.pts = x.pt.pts := by rw [fpt]
    have h2 : x.pt.pts = h.pt.pts := by rw [hpt]
    exact (Hub.slot_congr h1 j).trans (Hub.slot_congr h2 j)

/-- The hub that has closed a subscription. -/
def Hub.closeSub (h : Hub) (i : Nat) : Hub := ((h.subFill i {}).abandonSub i).setSub i .off

theorem Hub.closeSub_spec (h : Hub) (i : Nat) :
    (h.closeSub i).now = h.now ∧ (∀ p, p ≠ .pt → h.same (h.closeSub i) p) ∧ (h.closeSub i).subSt i = .off ∧
      (∀ j, j ≠ i → (h.closeSub i).subSt j = h.subSt j) ∧
      (∀ m, (h.closeSub i).mirE m = if h.subBase i ≤ m ∧ m < h.subBase i + h.subCount i then {} else h.mirE m) ∧
      (∀ u, u < 256 → (h.closeSub i).tag u =
        if (h.tag u).st = .pending ∧ (h.tag u).kind = .subscribe ∧ (h.tag u).landing = i then
          { h.tag u with st := .quarantine, ref := none, parts := [], held := [] } else h.tag u) ∧
      ∀ j, (h.closeSub i).slot j = h.slot j := by
  obtain ⟨fsame, fnow, fpt, fmir⟩ := h.subFill_spec i {}
  obtain ⟨asame, anow, apt, atag⟩ := (h.subFill i {}).abandonSub_spec i
  have htag : ∀ u, (h.subFill i {}).tag u = h.tag u := fun u => Hub.tag_congr (by rw [fpt]) u
  have hclose : h.closeSub i = ((h.subFill i {}).abandonSub i).setSub i .off := rfl
  rw [hclose]
  generalize (h.subFill i {}).abandonSub i = x at asame anow apt atag
  refine ⟨anow.trans fnow, fun p hp => ?_, Hub.subSt_setSub_same _ _ _, fun j hj => ?_, fun m => ?_, fun u hu => ?_, fun j => ?_⟩
  · have h1 := fsame p hp
    have h2 := asame p hp
    cases p <;> first | exact Eq.trans h2 h1 | contradiction
  · have h1 : x.pt.sub = (h.subFill i {}).pt.sub := by rw [apt]
    have h2 : (h.subFill i {}).pt.sub = h.pt.sub := by rw [fpt]
    rw [Hub.subSt_setSub, if_neg hj, Hub.subSt_congr h1, Hub.subSt_congr h2]
  · have h1 : x.pt.mir = (h.subFill i {}).pt.mir := by rw [apt]
    exact (Hub.mirE_congr h1 m).trans (fmir m)
  · refine (atag u).trans ?_
    rw [htag]
    exact if_congr (and_iff_right hu) rfl rfl
  · have h1 : x.pt.pts = (h.subFill i {}).pt.pts := by rw [apt]
    have h2 : (h.subFill i {}).pt.pts = h.pt.pts := by rw [fpt]
    exact (Hub.slot_congr h1 j).trans (Hub.slot_congr h2 j)

/-- Settles O17, command by command. -/
theorem pointCommandsTakeEffect : Obligations.PointCommandsTakeEffect := by
  unfold Obligations.PointCommandsTakeEffect
  refine ⟨fun s src tag first count what => ?_, fun s src tag first count what => ?_, fun s src tag entry tt => ?_, fun s src tag entry => ?_⟩
  · intro c ha h1 h2 h3 hst
    have hrun := runPtMapSet_ok s.hub src tag h1 h2 h3
    simp only [hst, Bool.false_eq_true, if_false] at hrun
    generalize hm : (⟨first.toNat, count.toNat, testBit what.toNat 15, BitVec.ofNat 4 what.toNat,
      BitVec.ofNat 8 (what.toNat / 16 % 32)⟩ : MapChange) = m at hrun
    obtain ⟨hpt, hsame, hnow, hslot⟩ := s.hub.mapApply_spec m
    refine gives_done (fun h => h.accept c runPtMapSet) [.pt] [] rfl ha (accept_done ha hrun) (by simp) hnow
      (fun p hp => hsame p (by rintro rfl; simp at hp)) (hsame .glb (by decide)) (fun a _ => Hub.rd_congr (hsame .regs (by decide)) a)
      (fun q => by simp) fun k hk _ => ?_
    have hkpt : k.pt = (s.hub.mapApply m).pt := hk .pt (by decide) (by decide)
    have hkslot : ∀ j, k.slot j = (s.hub.mapApply m).slot j := fun j => Hub.slot_congr (congrArg PtBlk.pts hkpt) j
    subst hm
    refine ⟨fun i hi hi2 => ?_, fun i hi => ?_, ?_⟩
    · rw [hkslot, hslot, if_pos ⟨hi, hi2⟩]
      rfl
    · rw [hkslot, hslot, if_neg (by simp only; omega)]
    · simp only [hkpt]
      exact hpt
  · intro c m ha h1 h2 h3 hst
    have hrun := runPtMapSet_ok s.hub src tag h1 h2 h3
    simp only [hst, if_true] at hrun
    exact gives_done (fun h => h.accept c runPtMapSet) [.pt] [] rfl ha (accept_done ha hrun) (by simp) rfl
      (fun p hp => by cases p <;> first | rfl | simp at hp) rfl (fun _ _ => rfl) (fun q => by simp)
      fun k hk _ => hk .pt (by decide) (by decide)
  · intro c i ha hi hok hst hf
    obtain ⟨x, hx, hnow, hsame, hsub, hsubs, hmir, htag, htags, hslot⟩ := s.hub.openSub_spec i c.origin hf
    have hrun : runPtSubOpen s.hub c = .done x [] := by
      have e1 : c.arg 1 = i := rfl
      unfold runPtSubOpen
      simp only [e1, zeroFrom_mkCmd src 0x0D04 tag [entry] 2 rfl, c, hx]
      rw [if_neg (by simp; omega), if_neg (by simp [hok]), if_neg (by rcases hst with e | e <;> simp [e])]
    refine gives_done (fun h => h.accept c runPtSubOpen) [.pt, .ring, .swc] [] rfl ha (accept_done ha hrun) (by simp) hnow
      (fun p hp => hsame p (by simp at hp ⊢; tauto)) (hsame .glb (by decide)) (fun a _ => Hub.rd_congr (hsame .regs (by decide)) a)
      (fun q => by simp) fun k hk _ => ?_
    have hkpt : k.pt = x.pt := hk .pt (by decide) (by decide)
    refine ⟨(Hub.subSt_congr (by rw [hkpt]) _).trans hsub, fun j hj => (Hub.subSt_congr (by rw [hkpt]) _).trans (hsubs j hj),
      fun m => (Hub.mirE_congr (by rw [hkpt]) _).trans (hmir m), (Hub.tag_congr (by rw [hkpt]) _).trans htag,
      fun u hu => (Hub.tag_congr (by rw [hkpt]) _).trans (htags u hu), fun j => (Hub.slot_congr (by rw [hkpt]) _).trans (hslot j)⟩
  · intro c i ha hi hst
    obtain ⟨hnow, hsame, hsub, hsubs, hmir, htag, hslot⟩ := s.hub.closeSub_spec i
    have hrun : runPtSubClose s.hub c = .done (s.hub.closeSub i) [] := by
      have e1 : c.arg 1 = i := rfl
      unfold runPtSubClose
      simp only [e1]
      rw [if_neg (by rw [zeroFrom_mkCmd src 0x0D05 tag [entry] 2 rfl]; simp; omega), if_neg hst]
      rfl
    refine gives_done (fun h => h.accept c runPtSubClose) [.pt] [] rfl ha (accept_done ha hrun) (by simp) hnow
      (fun p hp => hsame p (by rintro rfl; simp at hp)) (hsame .glb (by decide)) (fun a _ => Hub.rd_congr (hsame .regs (by decide)) a)
      (fun q => by simp) fun k hk _ => ?_
    have hkpt : k.pt = (s.hub.closeSub i).pt := hk .pt (by decide) (by decide)
    exact ⟨(Hub.subSt_congr (by rw [hkpt]) _).trans hsub, fun j hj => (Hub.subSt_congr (by rw [hkpt]) _).trans (hsubs j hj),
      fun m => (Hub.mirE_congr (by rw [hkpt]) _).trans (hmir m), fun u hu => (Hub.tag_congr (by rw [hkpt]) _).trans (htag u hu),
      fun j => (Hub.slot_congr (by rw [hkpt]) _).trans (hslot j)⟩

end Sys2Proof.Machine

/-! Reads and writes of points by command (R45, R46, R48, R63, R66, R67). -/

namespace Sys2Proof.Machine

theorem word_toNat (w : Word) : word w.toNat = w := BitVec.ofNat_toNat 32 w |>.trans (BitVec.setWidth_eq w)

/-- No writer of a cycle ranks above the host. -/
theorem Hub.slotRank_le_host (h : Hub) (i : Nat) : ¬ rkHost < h.slotRank i := by
  simp only [rkHost, Fin.lt_def, not_lt]
  exact Nat.le_of_lt_succ (h.slotRank i).isLt

/-- A host write of a slot notes its rank for the cycle (R48). -/
theorem Hub.putSlot_host_wrote (h : Hub) (i : Nat) (r : Rec) :
    (h.putSlot rkHost i r).pt.wroteAt = h.now ∧ tget 0 (h.putSlot rkHost i r).pt.wrote i = rkHost := by
  unfold Hub.putSlot
  rw [if_neg (h.slotRank_le_host i)]
  refine ⟨rfl, ?_⟩
  dsimp only
  exact tget_tset_same _ _ _ _

/-- What `PT_WRITE` and `PT_EVENT` put into a local slot. -/
theorem ptWriteCmd_slot {h : Hub} {ev : Bool} (src : CmdSrc) (code : Nat) (tag : Byte) {addr : Word} (value quality tsx tsLo tsHi : Word)
    (h1 : addr.toNat < 2 ^ 24) (h2 : h.ownNode (addr.toNat / 65536 % 256) = true) (h3 : addr.toNat / 65536 % 256 ≠ 0xFF)
    (h4 : addr.toNat % 65536 < 0xFF00) (h5 : (h.slot (addr.toNat % 65536)).defined = true)
    (h6 : ev = true → (h.slot (addr.toNat % 65536)).typ = 7) (h7 : (h.slot (addr.toNat % 65536)).wrHost = true) :
    let i := addr.toNat % 65536
    let k := h.putSlot rkHost i ((h.slot i).write value quality.toNat false
      (if testBit tsx.toNat 0 then tsLo.toNat + tsHi.toNat * 2 ^ 32 else h.stampNow (h.slot i).tb))
    h.ptWriteCmd (mkCmd src code tag [addr, value, quality, tsx, tsLo, tsHi]) ev =
      .inl (.done (if ev then k.evt Reg.PTM_EVT F.PTM_EVT_EVENT_RX else k) []) := by
  intro i k
  have hw := Hub.hostWrite_ok (ev := ev) value quality.toNat
    (if testBit tsx.toNat 0 then some (tsLo.toNat + tsHi.toNat * 2 ^ 32) else none) h4 h5 h6 h7
  rw [getD_ite] at hw
  refine Hub.ptWriteCmd_local h1 h2 h3 ?_
  show h.hostWrite (addr.toNat % 65536) (word value.toNat) quality.toNat _ ev = _
  rw [word_toNat]
  exact hw

/-- What `PT_WRITE` sends to another node. -/
theorem ptWriteCmd_remote {h : Hub} {tt : Nat} (src : CmdSrc) (code : Nat) (tag : Byte) {addr : Word} (value quality tsx tsLo tsHi : Word)
    (h1 : addr.toNat < 2 ^ 24) (h2 : h.ownNode (addr.toNat / 65536 % 256) = false) (h3 : addr.toNat / 65536 % 256 ≠ 0xFF)
    (hf : h.freeTag = some tt) :
    let c := mkCmd src code tag [addr, value, quality, tsx, tsLo, tsHi]
    let tb := quality.toNat / 2 ^ 24 % 4
    ∃ k, h.ptWriteCmd c false = .inl (.later k) ∧ k.now = h.now ∧ (∀ p, p ∉ [Part.pt, .ring, .swc] → h.same k p) ∧
      k.pt = { h.pt with tags := k.pt.tags } ∧ (∀ u, u ≠ tt → k.tag u = h.tag u) ∧
      k.tag tt = { st := .pending, kind := .write, origin := c.origin, node := addr.toNat / 65536 % 256, point := addr.toNat % 65536, count := 1,
                   recs := [mkReqRec value quality.toNat tb
                     (if testBit tsx.toNat 0 then tsLo.toNat + tsHi.toNat * 2 ^ 32 else h.stampNow tb)],
                   ref := some c.ref, status := (h.tag tt).status, lastTx := h.now } := by
  intro c tb
  obtain ⟨k, hk, hnow, hsame, hpt, hother, htag⟩ := Hub.issueTxn_spec .write c.origin (addr.toNat / 65536 % 256) (addr.toNat % 65536) 1 0
    [mkReqRec value quality.toNat tb (if testBit tsx.toNat 0 then tsLo.toNat + tsHi.toNat * 2 ^ 32 else h.stampNow tb)] (some c.ref) hf
  refine ⟨k, ?_, hnow, hsame, hpt, hother, htag⟩
  have e1 : c.arg 1 = addr.toNat := rfl
  have e2 : word (c.arg 2) = value := word_toNat value
  have e3 : c.arg 3 = quality.toNat := rfl
  have e4 : c.arg 4 = tsx.toNat := rfl
  have e5 : c.arg 5 = tsLo.toNat := rfl
  have e6 : c.arg 6 = tsHi.toNat := rfl
  unfold Hub.ptWriteCmd
  simp only [e1, e2, e3, e4, e5, e6]
  rw [if_neg (by simp only [h3, false_and, or_false]; omega), if_neg (by simp [h2])]
  simp only [Bool.false_eq_true, if_false]
  simp only [tb] at hk
  rw [hk]

/-- `PT_READ` with arguments in range starts a transaction. -/
theorem runPtRead_ok {h : Hub} {tt : Nat} (src : CmdSrc) (tag : Byte) {addr count landing : Word} (h1 : addr.toNat < 2 ^ 24)
    (h2 : h.ownNode (addr.toNat / 65536 % 256) = false) (h3 : addr.toNat / 65536 % 256 ≠ 0xFF) (h4 : 1 ≤ count.toNat)
    (h5 : count.toNat ≤ 122) (h6 : addr.toNat % 65536 + count.toNat ≤ 65536) (h7 : landing.toNat + count.toNat ≤ 16384)
    (h8 : ∀ j ∈ h.subsOpen, rangesMeet landing.toNat count.toNat (h.subBase j) (h.subCount j) = false) (hf : h.freeTag = some tt) :
    let c := mkCmd src 0x0D01 tag [addr, count, landing]
    ∃ k, runPtRead h c = .later k ∧ k.now = h.now ∧ (∀ p, p ∉ [Part.pt, .ring, .swc] → h.same k p) ∧
      k.pt = { h.pt with tags := k.pt.tags } ∧ (∀ u, u ≠ tt → k.tag u = h.tag u) ∧
      k.tag tt = { st := .pending, kind := .read, origin := c.origin, node := addr.toNat / 65536 % 256, point := addr.toNat % 65536,
                   count := count.toNat, landing := landing.toNat, ref := some c.ref, status := (h.tag tt).status, lastTx := h.now } := by
  intro c
  obtain ⟨k, hk, hnow, hsame, hpt, hother, htag⟩ := Hub.issueTxn_spec .read c.origin (addr.toNat / 65536 % 256) (addr.toNat % 65536)
    count.toNat landing.toNat [] (some c.ref) hf
  refine ⟨k, ?_, hnow, hsame, hpt, hother, htag⟩
  have e1 : c.arg 1 = addr.toNat := rfl
  have e2 : c.arg 2 = count.toNat := rfl
  have e3 : c.arg 3 = landing.toNat := rfl
  have hz : c.zeroFrom 4 = true := zeroFrom_mkCmd _ _ _ _ 4 rfl
  have hany : (h.subsOpen.any fun j => rangesMeet landing.toNat count.toNat (h.subBase j) (h.subCount j)) = false :=
    List.any_eq_false.2 fun j hj => by simp [h8 j hj]
  unfold runPtRead
  simp only [e1, e2, e3, hz, h2, hany]
  rw [if_neg (by simp only [Bool.false_eq_true, Bool.true_eq_false, false_or, or_false, not_or]; omega), hk]

/-- Settles O18, command by command. -/
theorem pointReadsAndWrites : Obligations.PointReadsAndWrites := by
  unfold Obligations.PointReadsAndWrites
  refine ⟨fun s src tag addr count landing tt => ?_, fun s src tag addr value quality tsx tsLo tsHi => ?_,
    fun s src tag addr value quality tsx tsLo tsHi tt => ?_, fun s src tag addr value quality tsx tsLo tsHi => ?_⟩
  · intro c node ha h1 h2 h3 h4 h5 h6 h7 h8 hf
    obtain ⟨x, hrun, hnow, hsame, hpt, hother, htag⟩ := runPtRead_ok src tag h1 h2 h3 h4 h5 h6 h7 h8 hf
    refine gives_later (fun h => h.accept c runPtRead) [.pt, .ring, .swc] [] rfl ha (accept_busy ha hrun) hnow
      (fun p hp => hsame p (by simp at hp ⊢; tauto)) (hsame .glb (by decide)) (fun a _ => Hub.rd_congr (hsame .regs (by decide)) a)
      (fun q => by simp) fun k hk _ => ?_
    have hkpt : k.pt = x.pt := hk .pt (by decide)
    exact ⟨(Hub.tag_congr (by rw [hkpt]) _).trans htag, fun u hu => (Hub.tag_congr (by rw [hkpt]) _).trans (hother u hu),
      by simp only [hkpt]; exact hpt⟩
  · intro c i r ha h1 h2 h3 h4 h5 h6
    have hrun := ptWriteCmd_slot (ev := false) src 0x0D02 tag value quality tsx tsLo tsHi h1 h2 h3 h4 h5 (by simp) h6
    simp only [Bool.false_eq_true, if_false] at hrun
    generalize hrec : (s.hub.slot (addr.toNat % 65536)).write value quality.toNat false
      (if testBit tsx.toNat 0 then tsLo.toNat + tsHi.toNat * 2 ^ 32 else s.hub.stampNow (s.hub.slot (addr.toNat % 65536)).tb) = x at hrun
    have hfields := s.hub.putSlot_fields rkHost i x
    have hwrote := s.hub.putSlot_host_wrote i x
    refine gives_done (fun h => h.acceptWrite c false) [.pt] [] rfl ha (acceptWrite_done ha hrun) (by simp) (congrArg Hub.now hfields :)
      (fun p hp => ?_) (congrArg Hub.glb hfields :) (fun a _ => Hub.rd_congr (congrArg Hub.regs hfields :) a) (fun q => by simp) fun k hk _ => ?_
    · rw [hfields]
      cases p <;> first | rfl | simp at hp
    · have hkpt : k.pt = (s.hub.putSlot rkHost i x).pt := hk .pt (by decide) (by decide)
      have hslot : ∀ j, k.slot j = if j = i then x else s.hub.slot j := fun j =>
        (Hub.slot_congr (by rw [hkpt]) j).trans (Hub.slot_putSlot_host s.hub i x j)
      refine ⟨by rw [hslot, if_pos rfl, ← hrec], fun j hj => by rw [hslot, if_neg hj], ?_, ?_, ?_⟩
      · simp only [hkpt]
        exact congrArg Hub.pt hfields
      · simp only [hkpt]
        exact hwrote.1
      · simp only [hkpt]
        exact hwrote.2
  · intro c node tb ha h1 h2 h3 hf
    obtain ⟨x, hrun, hnow, hsame, hpt, hother, htag⟩ := ptWriteCmd_remote src 0x0D02 tag value quality tsx tsLo tsHi h1 h2 h3 hf
    refine gives_later (fun h => h.acceptWrite c false) [.pt, .ring, .swc] [] rfl ha (acceptWrite_later ha hrun) hnow
      (fun p hp => hsame p (by simp at hp ⊢; tauto)) (hsame .glb (by decide)) (fun a _ => Hub.rd_congr (hsame .regs (by decide)) a)
      (fun q => by simp) fun k hk _ => ?_
    have hkpt : k.pt = x.pt := hk .pt (by decide)
    exact ⟨(Hub.tag_congr (by rw [hkpt]) _).trans htag, fun u hu => (Hub.tag_congr (by rw [hkpt]) _).trans (hother u hu),
      by simp only [hkpt]; exact hpt⟩
  · intro c i r ha h1 h2 h3 h4 h5 h6 h7
    have hrun := ptWriteCmd_slot (ev := true) src 0x0D03 tag value quality tsx tsLo tsHi h1 h2 h3 h4 h5 (fun _ => h6) h7
    simp only [if_true] at hrun
    generalize hrec : (s.hub.slot (addr.toNat % 65536)).write value quality.toNat false
      (if testBit tsx.toNat 0 then tsLo.toNat + tsHi.toNat * 2 ^ 32 else s.hub.stampNow (s.hub.slot (addr.toNat % 65536)).tb) = x at hrun
    have hfields := s.hub.putSlot_fields rkHost i x
    have hwrote := s.hub.putSlot_host_wrote i x
    refine gives_done (fun h => h.acceptWrite c true) [.pt] [Reg.PTM_EVT] rfl ha (acceptWrite_done ha hrun) (by simp)
      (congrArg Hub.now hfields :) (fun p hp => ?_) (congrArg Hub.glb hfields :)
      (fun a h' => (Hub.rd_evt_ne _ _ (by simpa using h')).trans (Hub.rd_congr (congrArg Hub.regs hfields :) a))
      (fun q => by simp only [List.mem_singleton, Reg.HQ_RSP, Reg.PTM_EVT]; omega) fun k hk hkr => ?_
    · rw [hfields]
      cases p <;> first | rfl | simp at hp
    · have hkpt : k.pt = (s.hub.putSlot rkHost i x).pt := hk .pt (by decide) (by decide)
      have hslot : ∀ j, k.slot j = if j = i then x else s.hub.slot j := fun j =>
        (Hub.slot_congr (by rw [hkpt]) j).trans (Hub.slot_putSlot_host s.hub i x j)
      refine ⟨?_, by rw [hslot, if_pos rfl, ← hrec], fun j hj => by rw [hslot, if_neg hj], ?_, ?_, ?_⟩
      · rw [Hub.flag_of_rd _ (hkr _ (not_ackRegs c s (Or.inr (by decide))))]
        exact Hub.flag_evt _ _ _ (by decide)
      · simp only [hkpt]
        exact congrArg Hub.pt hfields
      · simp only [hkpt]
        exact hwrote.1
      · simp only [hkpt]
        exact hwrote.2

end Sys2Proof.Machine

/-! Frames that the point port takes, and transactions (R54, R57, R58, R62 to R66, R72, R73, R225). -/

namespace Sys2Proof.Machine

/-! ## Publications -/

theorem frameType_ne {t u : Nat} {f : Frame} (h : frameType t f = true) (hne : t ≠ u) : frameType u f = false := by
  rw [frameType, beq_iff_eq] at h
  rw [frameType, h, beq_eq_false_iff_ne]
  exact hne

theorem Hub.publication_pass {h : Hub} {f : Frame} {b : Bundle} (hb : bundleParse (nrpParse f.bytes).ver (nrpPayload f.bytes) = some b)
    (hc : b.count ≠ 0) (hg : h.guardJudge (nrpParse f.bytes) b = .pass) (hv : (nrpParse f.bytes).ver ≠ 3) :
    h.publication f = (h.count Reg.GRD_CNT_OK).feedSubs f b := by
  unfold Hub.publication
  simp only [hb, hg]
  rw [if_neg hc, if_pos hv]

/-- A publication that is taken while the port is enabled and the node delivers is judged. -/
theorem Hub.bundleRx_pub {h k : Hub} {f : Frame} (ht : h.takeInbox (fun f => frameType tPub f || frameType tFrame f || frameOdd f) = some (f, k))
    (hp : frameType tPub f = true) (he : k.ptEnabled = true) (hd : k.delivers = true) :
    h.bundleRx = (k.count Reg.PTM_CNT_BUNDLE_RX).publication f := by
  have e1 : (k.count Reg.PTM_CNT_BUNDLE_RX).ptEnabled = true := (ptEnabled_congr (Hub.rd_count_ne _ (by decide))).trans he
  have e2 : (k.count Reg.PTM_CNT_BUNDLE_RX).delivers = true := hd
  have hf : frameType tFrame f = false := frameType_ne hp (by decide)
  unfold Hub.bundleRx
  rw [ht]
  simp only [hf, e1, e2, hp, Bool.and_self, Bool.false_eq_true, if_false, if_true]

theorem Hub.bundleRx_frame {h k : Hub} {f : Frame} (ht : h.takeInbox (fun f => frameType tPub f || frameType tFrame f || frameOdd f) = some (f, k))
    (hf : frameType tFrame f = true) : h.bundleRx = k.deliver f := by
  unfold Hub.bundleRx
  rw [ht]
  exact if_pos hf

/-! ## Requests -/

/-- The hub once a request has been counted and found good by the Guard. -/
def Hub.reqCounted (k : Hub) : Hub := (k.count Reg.PTM_CNT_BUNDLE_RX).count Reg.GRD_CNT_OK

theorem Hub.reqCounted_slot (k : Hub) (i : Nat) : k.reqCounted.slot i = k.slot i := Hub.slot_congr rfl i

/-- A request that carries no records is good where it carries none, and comes from one node. -/
theorem openReq_head {k : Hub} {f : Frame} {b : Bundle} {kd : TxnKind} (hk : frameReq kd f = true) (h0 : kd = .read ∨ kd = .subscribe)
    (h1 : k.ptEnabled = true) (h2 : k.delivers = true)
    (h3 : bundleParse (nrpParse f.bytes).ver ((nrpPayload f.bytes).drop 4) = some b) (h4 : b.count = 0)
    (h5 : k.guardJudge (nrpParse f.bytes) b = .pass) (h6 : (nrpParse f.bytes).group = false) :
    k.openReq f = (k.reqCounted, some (nrpParse f.bytes, beAt (nrpPayload f.bytes) 2 2, b)) := by
  refine openReq_spec h1 h2 h3 ?_ h5 (.inl h6)
  rw [frameReq_kind hk, if_pos (by rcases h0 with rfl | rfl <;> simp [TxnKind.code])]
  exact h4

/-- A request that carries records is good where it carries some. -/
theorem openReq_recs {k : Hub} {f : Frame} {b : Bundle} {kd : TxnKind} (hk : frameReq kd f = true) (h0 : kd = .write ∨ kd = .event)
    (h1 : k.ptEnabled = true) (h2 : k.delivers = true)
    (h3 : bundleParse (nrpParse f.bytes).ver ((nrpPayload f.bytes).drop 4) = some b) (h4 : b.count ≠ 0)
    (h5 : k.guardJudge (nrpParse f.bytes) b = .pass) (h6 : (nrpParse f.bytes).group = false ∨ kd = .event) :
    k.openReq f = (k.reqCounted, some (nrpParse f.bytes, beAt (nrpPayload f.bytes) 2 2, b)) := by
  refine openReq_spec h1 h2 h3 ?_ h5 (h6.imp_right fun e => by rw [frameReq_kind hk, e]; rfl)
  rw [frameReq_kind hk, if_neg (by rcases h0 with rfl | rfl <;> simp [TxnKind.code])]
  exact h4

theorem Hub.readReq_open {h k c : Hub} {f : Frame} {n : Nrp} {pts : Nat} {b : Bundle} (ht : h.takeInbox (frameReq .read) = some (f, k))
    (ho : k.openReq f = (c, some (n, pts, b))) : h.readReq =
      if 1 ≤ pts ∧ pts ≤ 122 ∧ c.allDefined (b.start % 65536) pts = true then
        c.respondTxn n 0 0 sOK (c.ring.addr * 65536 + b.start % 65536) (c.slots (b.start % 65536) pts)
      else c.respondTxn n 0 0 sEARG (c.ring.addr * 65536 + b.start % 65536) [c.slot (b.start % 65536)] := by
  unfold Hub.readReq
  simp only [ht, ho]

theorem Hub.subscribeReq_open {h k c : Hub} {f : Frame} {n : Nrp} {pts : Nat} {b : Bundle}
    (ht : h.takeInbox (frameReq .subscribe) = some (f, k)) (ho : k.openReq f = (c, some (n, pts, b)))
    (hd : 1 ≤ pts ∧ pts ≤ 1024 ∧ c.allDefined (b.start % 65536) pts = true) :
    h.subscribeReq = (List.range (ceilDiv pts 122)).foldl (fun h i =>
          h.respondTxn n 2 i sOK (h.ring.addr * 65536 + b.start % 65536 + 122 * i)
            (h.slots (b.start % 65536 + 122 * i) (min 122 (pts - 122 * i)))) c := by
  unfold Hub.subscribeReq
  simp only [ht, ho]
  rw [if_pos hd]

theorem Hub.writeReq_open {h k c : Hub} {f : Frame} {n : Nrp} {pts : Nat} {b : Bundle} (ht : h.takeInbox (frameReq .write) = some (f, k))
    (ho : k.openReq f = (c, some (n, pts, b))) (hj : c.judgeWrite (b.start % 65536) b.recs = sOK) :
    h.writeReq = (c.remoteWrite f (b.start % 65536) b.recs).respondTxn n 1 0 sOK b.start [] := by
  unfold Hub.writeReq
  simp only [ht, ho, hj, if_true]

theorem Hub.eventReq_open {h k c : Hub} {f : Frame} {n : Nrp} {pts : Nat} {b : Bundle} (ht : h.takeInbox (frameReq .event) = some (f, k))
    (ho : k.openReq f = (c, some (n, pts, b))) (h1 : b.count = 1) (h2 : ∀ w ∈ b.recs, w.typ = 7) (h3 : b.start % 65536 < 0xFF00)
    (h4 : (c.slot (b.start % 65536)).defined = true) (h5 : (c.slot (b.start % 65536)).wrRemote = true) (h6 : (c.slot (b.start % 65536)).typ = 7) :
    let e := (c.remoteWrite f (b.start % 65536) (b.recs.take 1)).evt Reg.PTM_EVT F.PTM_EVT_EVENT_RX
    h.eventReq = if n.group then e else e.respondTxn n 3 0 sOK b.start [] := by
  have hone : (decide (b.count = 1) && b.recs.all fun w => w.typ == 7) = true := by
    simp only [h1, decide_true, Bool.true_and, List.all_eq_true, beq_iff_eq]
    exact h2
  have hu : userSlot (b.start % 65536) = true := decide_eq_true h3
  unfold Hub.eventReq
  simp only [ht, ho, hone, hu, h4, h5, h6]
  split
  · rfl
  · simp

/-! ## Responses -/

theorem Hub.rspRx_own {h k : Hub} {f : Frame} {b : Bundle} (ht : h.takeInbox (frameType tRsp) = some (f, k)) (h1 : k.ptEnabled = true)
    (h2 : k.delivers = true) (h3 : bundleParse (nrpParse f.bytes).ver ((nrpPayload f.bytes).drop 4) = some b)
    (h4 : k.guardJudge (nrpParse f.bytes) b = .pass) (h5 : (nrpParse f.bytes).dst = k.ring.addr)
    (h6 : (k.tag ((nrpParse f.bytes).flow % 256)).st = .pending) (h7 : (k.tag ((nrpParse f.bytes).flow % 256)).node = (nrpParse f.bytes).src)
    (h8 : beAt (nrpPayload f.bytes) 0 1 / 16 = (k.tag ((nrpParse f.bytes).flow % 256)).kind.code) (h9 : beAt (nrpPayload f.bytes) 1 1 = sOK)
    (h10 : ¬ (b.count = 0 ∧ ((k.tag ((nrpParse f.bytes).flow % 256)).kind.code = 0 ∨ (k.tag ((nrpParse f.bytes).flow % 256)).kind.code = 2))) :
    let u := (nrpParse f.bytes).flow % 256
    let g := k.tag u
    let c := k.reqCounted
    (g.kind = .read → b.count = g.count → b.start = g.node * 65536 + g.point →
      h.rspRx = ((c.writeRecs f b g.point g.count g.landing).feedSubs f b).txnEnd u sOK) ∧
    (g.kind = .write ∨ g.kind = .event → b.count = 0 → h.rspRx = c.txnEnd u sOK) := by
  intro u g c
  have e1 : (k.count Reg.PTM_CNT_BUNDLE_RX).ptEnabled = true := (ptEnabled_congr (Hub.rd_count_ne _ (by decide))).trans h1
  have e2 : (k.count Reg.PTM_CNT_BUNDLE_RX).delivers = true := h2
  have e3 : (k.count Reg.PTM_CNT_BUNDLE_RX).guardJudge (nrpParse f.bytes) b = .pass :=
    (guardJudge_congr _ _ (Hub.rd_count_ne _ (by decide))).trans h4
  have etag : ∀ t, (k.count Reg.PTM_CNT_BUNDLE_RX).tag t = k.tag t := fun t => Hub.tag_congr rfl t
  have est : statusDefined sOK = true := rfl
  constructor
  · intro hk hc hs
    unfold Hub.rspRx
    simp only [ht, e1, e2, h3, e3, etag, h9, est]
    rw [if_neg (by simp), if_neg (by simpa using h5), if_neg (by rw [h8]; exact h10), if_neg (by simp [h6, h7]), if_neg (by simp [h8]),
      if_neg (by simp)]
    have hk' : (k.tag ((nrpParse f.bytes).flow % 256)).kind = .read := hk
    simp only [hk']
    exact if_pos ⟨hc, hs⟩
  · intro hk hc
    unfold Hub.rspRx
    simp only [ht, e1, e2, h3, e3, etag, h9, est]
    rw [if_neg (by simp), if_neg (by simpa using h5), if_neg (by rw [h8]; exact h10), if_neg (by simp [h6, h7]), if_neg (by simp [h8]),
      if_neg (by simp)]
    rcases hk with hk | hk
    · have hk' : (k.tag ((nrpParse f.bytes).flow % 256)).kind = .write := hk
      simp only [hk']
      exact if_pos hc
    · have hk' : (k.tag ((nrpParse f.bytes).flow % 256)).kind = .event := hk
      simp only [hk']
      exact if_pos hc

theorem Hub.rspRx_other {h k : Hub} {f : Frame} {b : Bundle} (ht : h.takeInbox (frameType tRsp) = some (f, k)) (h1 : k.ptEnabled = true)
    (h2 : k.delivers = true) (h3 : bundleParse (nrpParse f.bytes).ver ((nrpPayload f.bytes).drop 4) = some b)
    (h4 : k.guardJudge (nrpParse f.bytes) b = .pass) (h5 : (nrpParse f.bytes).dst ≠ k.ring.addr) (h6 : b.count ≠ 0)
    (h7 : beAt (nrpPayload f.bytes) 0 1 / 16 = 0 ∨ beAt (nrpPayload f.bytes) 0 1 / 16 = 2) (h8 : beAt (nrpPayload f.bytes) 1 1 = sOK) :
    h.rspRx = k.reqCounted.feedSubs f b := by
  have e1 : (k.count Reg.PTM_CNT_BUNDLE_RX).ptEnabled = true := (ptEnabled_congr (Hub.rd_count_ne _ (by decide))).trans h1
  have e2 : (k.count Reg.PTM_CNT_BUNDLE_RX).delivers = true := h2
  have e3 : (k.count Reg.PTM_CNT_BUNDLE_RX).guardJudge (nrpParse f.bytes) b = .pass :=
    (guardJudge_congr _ _ (Hub.rd_count_ne _ (by decide))).trans h4
  have hother : (k.count Reg.PTM_CNT_BUNDLE_RX).rspOther f = k.reqCounted.feedSubs f b := by
    unfold Hub.rspOther
    simp only [h3, e3]
    rw [if_neg (fun h => h6 h.1), if_pos ⟨h7, h8⟩]
    rfl
  unfold Hub.rspRx
  simp only [ht, e1, e2]
  rw [if_neg (by simp), if_pos (by simpa using h5), hother]

/-- Settles O19, frame by frame. -/
theorem pointPortTakesFrames : Obligations.PointPortTakesFrames := by
  unfold Obligations.PointPortTakesFrames
  refine ⟨fun s f k b => ?_, fun s f k hh ht hf => ?_, fun s f k b => ?_, fun s f k b => ?_, fun s f k b => ?_, fun s f k b => ?_,
    fun s f k b => ?_, fun s f k b => ?_, fun s f k b => ?_⟩
  · intro n c hh ht hp he hd hb hc hg hv
    refine makes_on Hub.bundleRx hh rfl ?_
    rw [Hub.bundleRx_pub ht hp he hd, Hub.publication_pass hb hc ((guardJudge_congr _ _ (Hub.rd_count_ne _ (by decide))).trans hg) hv]
  · exact makes_on Hub.bundleRx hh rfl (Hub.bundleRx_frame ht hf)
  · intro n pts slot c hh ht he hd hb hc hg hn h1 h2 hdef
    refine makes_on Hub.readReq hh rfl ?_
    rw [Hub.readReq_open ht (openReq_head (takeInbox_ok ht) (.inl rfl) he hd hb hc hg hn)]
    exact if_pos ⟨h1, h2, hdef⟩
  · intro n pts slot c hh ht he hd hb hc hg hn hbad
    refine makes_on Hub.readReq hh rfl ?_
    rw [Hub.readReq_open ht (openReq_head (takeInbox_ok ht) (.inl rfl) he hd hb hc hg hn)]
    refine if_neg fun ⟨h1, h2, hdef⟩ => ?_
    rcases hbad with h | h | h
    · omega
    · omega
    · exact Bool.false_ne_true (h.symm.trans hdef)
  · intro n pts slot c hh ht he hd hb hc hg hn h1 h2 hdef
    exact makes_on Hub.subscribeReq hh rfl
      (Hub.subscribeReq_open ht (openReq_head (takeInbox_ok ht) (.inr rfl) he hd hb hc hg hn) ⟨h1, h2, hdef⟩)
  · intro n c hh ht he hd hb hc hg hk hn hj
    exact makes_on Hub.writeReq hh rfl (Hub.writeReq_open ht (openReq_recs (takeInbox_ok ht) (.inl rfl) he hd hb hc hg (.inl hn)) hj)
  · intro n slot c hh ht he hd hb hc hw hg hk h1 h2 h3 h4 e
    exact makes_on Hub.eventReq hh rfl
      (Hub.eventReq_open ht (openReq_recs (takeInbox_ok ht) (.inr rfl) he hd hb (by omega) hg (.inr rfl)) hc hw h1 h2 h3 h4)
  · intro n p u g c hh ht he hd hb hg hdst hst hnode hkind hstat
    refine ⟨fun hk hc h0 hs => makes_on Hub.rspRx hh rfl ?_, fun hk hc => makes_on Hub.rspRx hh rfl ?_⟩
    · exact (Hub.rspRx_own ht he hd hb hg hdst hst hnode hkind hstat fun h => h0 h.1).1 hk hc hs
    · refine (Hub.rspRx_own ht he hd hb hg hdst hst hnode hkind hstat fun h => ?_).2 hk hc
      have h2 := h.2
      rcases hk with e | e <;> simp only [g, u, n] at e <;> simp [e, TxnKind.code] at h2
  · intro n p c hh ht he hd hb hg hdst hc hk hstat
    exact makes_on Hub.rspRx hh rfl (Hub.rspRx_other ht he hd hb hg hdst hc hk hstat)

end Sys2Proof.Machine

/-! Timeouts of transactions and the window W2 (R63, R64, R72, R73). -/

namespace Sys2Proof.Machine

/-! ## Timeouts -/

/-- Sending a tag's request again notes the time of the transmission in the tag, and nothing else of the point port. -/
theorem Hub.sendTag_tag (h : Hub) (t u : Nat) (retry : Bool) :
    (h.sendTag t retry).tag u = if u = t then { h.tag t with lastTx := h.now } else h.tag u := by
  rw [Hub.tag_congr (congrArg PtBlk.tags (Hub.sendTag_pt h t retry))]
  exact Hub.tag_setTag _ _ _ _

/-- The hub that sends a request of tag `t` again. -/
def Hub.txnRetried (h : Hub) (t : Nat) : Hub :=
  ((h.setTag t { h.tag t with tries := (h.tag t).tries + 1 }).count Reg.PTM_CNT_TXN_RETRY).sendTag t true

theorem Hub.txnTimedOut_retry {h : Hub} {t : Nat} (h1 : (h.tag t).st = .pending) (h2 : (h.tag t).lastTx + h.txnTimeout ≤ h.now)
    (h3 : h.acts = true) (h4 : (h.tag t).kind ≠ .event) (h5 : (h.tag t).tries < h.fld Reg.PTM_TXN_CFG F.PTM_TXN_CFG_RETRIES) :
    h.txnTimedOut t = h.txnRetried t := by
  unfold Hub.txnTimedOut
  dsimp only
  rw [if_neg (by simp only [h1, h3, ne_eq, not_true_eq_false, Bool.true_eq_false, or_false, false_or]; omega), if_pos ⟨h4, h5⟩]
  rfl

theorem Hub.txnTimedOut_end {h : Hub} {t : Nat} (h1 : (h.tag t).st = .pending) (h2 : (h.tag t).lastTx + h.txnTimeout ≤ h.now)
    (h3 : h.acts = true) (h4 : (h.tag t).kind = .event ∨ h.fld Reg.PTM_TXN_CFG F.PTM_TXN_CFG_RETRIES ≤ (h.tag t).tries) :
    h.txnTimedOut t = (h.count Reg.PTM_CNT_TXN_TIMEOUT).txnEnd t sETIMEOUT := by
  unfold Hub.txnTimedOut
  dsimp only
  rw [if_neg (by simp only [h1, h3, ne_eq, not_true_eq_false, Bool.true_eq_false, or_false, false_or]; omega),
    if_neg (by rintro ⟨a, b⟩; rcases h4 with e | e; exact a e; omega)]

/-- A SUBSCRIBE that fails takes its entry, while OPENING, to FAILED. -/
def Hub.subFailed (h : Hub) (t : Nat) : Hub :=
  if (h.tag t).kind = .subscribe ∧ h.subSt (h.tag t).landing = .opening then h.setSub (h.tag t).landing .failed else h

theorem Hub.subFailed_but (h : Hub) (t : Nat) : h.subFailed t = { h with pt := { h.pt with sub := (h.subFailed t).pt.sub } } := by
  unfold Hub.subFailed
  split <;> rfl

/-- A transaction that no host command waits for ends badly. -/
theorem Hub.txnEnd_fail {h : Hub} {t st : Nat} (hr : (h.tag t).ref = none) (hs : st ≠ sOK) :
    h.txnEnd t st = ((h.subFailed t).setTag t { h.tag t with st := .quarantine, status := st, ref := none, recs := [] }).evt Reg.PTM_EVT
      F.PTM_EVT_TXN_FAIL := by
  have hsub : (if (h.tag t).kind = .subscribe ∧ st ≠ sOK ∧ h.subSt (h.tag t).landing = .opening then h.setSub (h.tag t).landing .failed
      else h) = h.subFailed t := by
    unfold Hub.subFailed
    exact if_congr (by simp [hs]) rfl rfl
  have htag : (h.subFailed t).tag t = h.tag t := Hub.tag_congr (by rw [Hub.subFailed_but]) t
  unfold Hub.txnEnd Hub.tagComplete
  simp only [hsub, htag, hr]
  rw [if_neg hs]

/-! ## The window W2 -/

theorem Hub.w2Get_latch {h : Hub} {off : Nat} (ho : h.hostOpen = true) (h16 : off % 16 = 0) :
    h.w2Get off 4 = (((h.w2rec (h.fld Reg.PTM_CTL F.PTM_CTL_W2_PAGE) (off / 16 % 65536)).words.take 1),
      { h with pt := { h.pt with w2latch := some (h.fld Reg.PTM_CTL F.PTM_CTL_W2_PAGE, off / 16 % 65536,
        (h.w2rec (h.fld Reg.PTM_CTL F.PTM_CTL_W2_PAGE) (off / 16 % 65536)).words.drop 1) } }) := by
  unfold Hub.w2Get
  dsimp only
  rw [if_neg (by simp [ho]), if_pos (by omega)]

theorem Hub.w2Get_latched {h : Hub} {off : Nat} {ws : List Word} (ho : h.hostOpen = true) (h4 : off % 4 = 0) (h16 : off % 16 ≠ 0)
    (hl : h.pt.w2latch = some (h.fld Reg.PTM_CTL F.PTM_CTL_W2_PAGE, off / 16 % 65536, ws)) :
    h.w2Get off 4 = ((ws.drop (off % 16 / 4 - 1)).take 1, h) := by
  unfold Hub.w2Get
  simp only [hl]
  rw [if_neg (by simp [ho]), if_neg (by omega), if_pos (by simp [h4])]

theorem Hub.w2Read_word {h : Hub} {off : Nat} (h4 : off % 4 = 0) : h.w2Read off 4 = (h.w2Get off 4).2.emit (.words (h.w2Get off 4).1) := by
  unfold Hub.w2Read
  dsimp only
  rw [if_pos (show off % 4 = 0 ∧ 4 % 4 = 0 from ⟨h4, rfl⟩)]

/-- A read that is no single word takes the words as they are, and a latch is given up. -/
theorem Hub.w2Get_plain {h : Hub} {off len : Nat} (ho : h.hostOpen = true) (hl : len ≠ 4 ∨ off % 4 ≠ 0) :
    h.w2Get off len = (h.w2words (h.fld Reg.PTM_CTL F.PTM_CTL_W2_PAGE) (off / 4) (ceilDiv (off % 4 + len) 4),
      { h with pt := { h.pt with w2latch := none } }) := by
  unfold Hub.w2Get
  dsimp only
  rw [if_neg (by simp [ho]), if_neg (by omega)]
  split
  · rw [if_neg (by omega)]
  next hn =>
    have he : h = { h with pt := { h.pt with w2latch := none } } := by
      rw [← hn]
    rw [← he]

/-- Settles O20, clause by clause: what becomes of a tag, and what the window shows. -/
theorem transactionTimeoutsAndWindow : Obligations.TransactionTimeoutsAndWindow := by
  unfold Obligations.TransactionTimeoutsAndWindow
  refine ⟨fun s u => ?_, fun s u => ?_, fun s u => ?_, fun s off hh ho h16 => ?_, fun s off ws hh ho h4 h16 hl => ?_,
    fun s off len hh ho hl => ?_, fun s off w => ?_⟩
  · intro g hh h1 h2 h3 h4 h5
    refine gives_on (fun h => h.txnTimedOut u.toNat) hh rfl ?_
    simp only [Hub.txnTimedOut_retry h1 h2 h3 h4 h5]
    have hpt : (s.hub.txnRetried u.toNat).pt = { s.hub.pt with tags := (s.hub.txnRetried u.toNat).pt.tags } := by
      unfold Hub.txnRetried
      rw [Hub.sendTag_pt]
      rfl
    have htag : ∀ v, (s.hub.txnRetried u.toNat).tag v =
        if v = u.toNat then { g with tries := g.tries + 1, lastTx := s.hub.now } else s.hub.tag v := by
      intro v
      unfold Hub.txnRetried
      rw [Hub.sendTag_tag]
      have hin : ∀ v, (Hub.count (s.hub.setTag u.toNat { s.hub.tag u.toNat with tries := (s.hub.tag u.toNat).tries + 1 })
          Reg.PTM_CNT_TXN_RETRY).tag v = if v = u.toNat then { g with tries := g.tries + 1 } else s.hub.tag v :=
        fun v => Hub.tag_setTag _ _ _ _
      rw [hin, hin, if_pos rfl]
      split <;> rfl
    have hregs : (s.hub.txnRetried u.toNat).regs = (s.hub.count Reg.PTM_CNT_TXN_RETRY).regs := Hub.sendTag_regs _ _ _
    refine ⟨only_hub (Hub.sendTag_now _ _ _) fun p hp => ?_, fun a ha => ?_, hpt, ?_, by rw [htag, if_pos rfl],
      fun v hv => by rw [htag, if_neg hv]⟩
    · unfold Hub.txnRetried
      rw [Hub.sendTag_fields]
      cases p <;> first | rfl | simp at hp
    · exact (Hub.rd_congr hregs a).trans (Hub.rd_count_ne _ (by simpa using ha))
    · exact (Hub.rd_congr hregs _).trans (Hub.rd_count _ _)
  · intro g hh h1 h2 h3 hr h4
    refine gives_on (fun h => h.txnTimedOut u.toNat) hh rfl ?_
    have hc : ∀ v, (s.hub.count Reg.PTM_CNT_TXN_TIMEOUT).tag v = s.hub.tag v := fun v => Hub.tag_congr rfl v
    have hend := Hub.txnEnd_fail (h := s.hub.count Reg.PTM_CNT_TXN_TIMEOUT) (t := u.toNat) (st := sETIMEOUT) (by rw [hc]; exact hr) (by decide)
    rw [hc] at hend
    simp only [Hub.txnTimedOut_end h1 h2 h3 h4, hend]
    have hbut := Hub.subFailed_but (s.hub.count Reg.PTM_CNT_TXN_TIMEOUT) u.toNat
    have hsub : g.kind = .subscribe → s.hub.subSt g.landing = .opening →
        (Hub.subFailed (s.hub.count Reg.PTM_CNT_TXN_TIMEOUT) u.toNat).subSt g.landing = .failed := by
      intro hk hs
      unfold Hub.subFailed
      rw [hc, if_pos ⟨hk, hs⟩]
      exact Hub.subSt_setSub_same _ _ _
    generalize Hub.subFailed (s.hub.count Reg.PTM_CNT_TXN_TIMEOUT) u.toNat = x at hbut hsub
    have hxr : x.regs = (s.hub.count Reg.PTM_CNT_TXN_TIMEOUT).regs := by rw [hbut]
    have hxt : x.pt.tags = s.hub.pt.tags := by rw [hbut]; rfl
    refine ⟨?_, fun a ha => ?_, ?_, Hub.flag_evt _ _ _ (by decide), ?_, fun v hv => ?_, fun hk hs => hsub hk hs⟩
    · rw [hbut]
      exact only_hub rfl fun p hp => by cases p <;> first | rfl | simp at hp
    · simp only [List.mem_cons, List.not_mem_nil, or_false, not_or] at ha
      exact (Hub.rd_evt_ne _ _ ha.2).trans ((Hub.rd_congr hxr a).trans (Hub.rd_count_ne _ ha.1))
    · exact (Hub.rd_evt_ne _ _ (by decide)).trans ((Hub.rd_congr hxr _).trans (Hub.rd_count _ _))
    · refine (Hub.tag_setTag_same x u.toNat _).trans ?_
      simp only [g, hr]
    · exact (Hub.tag_setTag x u.toNat v _).trans ((if_neg hv).trans (Hub.tag_congr hxt v))
  · intro g hh h1 h2
    refine gives_on (fun h => h.quarantineEnd u.toNat) hh rfl ?_
    have he : s.hub.quarantineEnd u.toNat = s.hub.setTag u.toNat { g with st := .free } := if_pos ⟨h1, h2⟩
    simp only [he]
    exact ⟨only_hub rfl fun p hp => by cases p <;> first | rfl | simp at hp, rfl, Hub.tag_setTag_same _ _ _,
      fun v hv => (Hub.tag_setTag _ _ _ _).trans (if_neg hv)⟩
  · intro page ws
    have hi : off.toNat / 16 % 65536 = off.toNat / 16 := by have := off.isLt; omega
    refine gives_on (fun h => h.w2Read off.toNat 4) hh rfl ?_
    have he := Hub.w2Get_latch ho h16
    rw [hi] at he
    rw [Hub.w2Read_word (by omega), he]
    exact ⟨only_hub rfl fun p hp => by cases p <;> first | rfl | simp at hp, rfl, rfl⟩
  · have hi : off.toNat / 16 % 65536 = off.toNat / 16 := by have := off.isLt; omega
    refine gives_on (fun h => h.w2Read off.toNat 4) hh rfl ?_
    rw [Hub.w2Read_word h4, Hub.w2Get_latched ho h4 h16 (by rw [hi]; exact hl)]
    exact ⟨only_hub rfl fun p hp => by cases p <;> first | rfl | simp at hp, rfl⟩
  · intro ws
    refine gives_on (fun h => h.w2Read off.toNat len) hh rfl ?_
    simp only [Hub.w2Read, Hub.w2Get_plain ho hl]
    exact ⟨only_hub rfl fun p hp => by cases p <;> first | rfl | simp at hp, rfl, rfl⟩
  · intro i r hh ho h1 h2 h16 hi hd hw
    have hmod : off.toNat / 16 % 65536 = i := by have := off.isLt; omega
    have hu : userSlot i = true := decide_eq_true hi
    refine gives_on (fun h => h.w2Write off.toNat 4 w) hh rfl ?_
    have he : s.hub.w2Write off.toNat 4 w = s.hub.putSlot rkHost i (r.write w 0 false (s.hub.stampNow r.tb)) := by
      unfold Hub.w2Write
      simp only [hmod, ho, h1, h2, h16, hu, hd, hw, r]
      rfl
    simp only [he]
    generalize r.write w 0 false (s.hub.stampNow r.tb) = x
    have hf := s.hub.putSlot_fields rkHost i x
    refine ⟨?_, (Hub.slot_putSlot_host _ _ _ _).trans (if_pos rfl), fun j hj => (Hub.slot_putSlot_host _ _ _ _).trans (if_neg hj),
      (congrArg Hub.pt hf :)⟩
    rw [hf]
    exact only_hub rfl fun p hp => by cases p <;> first | rfl | simp at hp

end Sys2Proof.Machine

/-! Reception on a lane, its pins and its line driver (R80, R85, R90, R93, R94, R100). -/

namespace Sys2Proof.Machine

/-! ## Characters -/

/-- What a receiver does with the samples of a character whose start, stamp and driver state are known. -/
def Hub.heardChar (h : Hub) (n : Nat) (bs : List (BitVec 3)) (start stamp : Nat) (de : Bool) : Hub :=
  if (h.lane n).st ≠ .running ∨ hearsChars (h.lnMode n) = false ∨ (h.lnMode n = 2 ∧ (h.lane n).deafAt start = true) then h else
  let m := h.lnMode n
  let h := if isAsync m then h.setLane n { h.lane n with seen := none } else h
  match h.charItem n bs with
  | none => h
  | some x =>
    let whileTx := m == 2 && de && h.lnM n F.LN_MCFG_ECHO_SUPPRESS == 0 && !h.lnLoop n
    let h := if whileTx then (h.count (Reg.LN_CNT_RX_WHILE_TX n)).lnEvt n F.LN_EVT_RX_WHILE_TX else h
    let h := h.setLane n { h.lane n with lastChar := h.now }
    if m = 6 then h.targetByte n x stamp else
    let h := h.snoopBytes 1 n 0 [byte x.toNat]
    if isAsync m && h.lnEofIdle n == 0 then
      (if x.toNat / 2 ^ 9 = 0 then h else h.count (Reg.LN_CNT_RX_ERR n)).rxPush n true x
    else
      let h := if (h.lane n).rx.on then h else h.rxOpen n stamp
      h.rxData n x

/-- Start, stamp and driver state of a character are those noted at its start bit, else those of now. -/
theorem Hub.rxChar_eq (h : Hub) (n : Nat) (bs : List (BitVec 3)) (ago : Nat) :
    let l := h.lane n
    let start := if l.seen.isSome then (l.seen.map (·.at_)).getD 0 else h.now - h.charTime n
    let stamp := if l.seen.isSome then (l.seen.map (·.stamp)).getD 0 else h.lnStamp n (3 * n + 1) ago
    let de := if l.seen.isSome then (l.seen.map (·.de)).getD false else l.de && decide (l.deAt ≤ start)
    h.rxChar n bs ago = h.heardChar n bs start stamp de := by
  intro l start stamp de
  unfold Hub.rxChar
  simp only [start, stamp, de, l]
  rcases Option.eq_none_or_eq_some (h.lane n).seen with hs | ⟨x, hs⟩
  · simp only [hs]
    rfl
  · simp only [hs]
    rfl

theorem Hub.heardChar_deaf {h : Hub} {n : Nat} {bs : List (BitVec 3)} {start stamp : Nat} {de : Bool} (h1 : h.lnMode n = 2)
    (h2 : (h.lane n).deafAt start = true) : h.heardChar n bs start stamp de = h := if_pos (.inr (.inr ⟨h1, h2⟩))

/-- The hub whose receiver has left the start bit behind. -/
def Hub.unseen (h : Hub) (n : Nat) : Hub := if isAsync (h.lnMode n) then h.setLane n { h.lane n with seen := none } else h

theorem Hub.unseen_regs (h : Hub) (n : Nat) : (h.unseen n).regs = h.regs := by unfold Hub.unseen; split <;> rfl

/-- The hub that has counted a character received while the lane sends. -/
def Hub.whileTx (h : Hub) (n : Nat) (c : Bool) : Hub :=
  if c then (h.count (Reg.LN_CNT_RX_WHILE_TX n)).lnEvt n F.LN_EVT_RX_WHILE_TX else h

section
variable {h : Hub} {n : Nat} {bs : List (BitVec 3)} {start stamp : Nat} {de : Bool}
variable (hst : (h.lane n).st = .running) (hm : hearsChars (h.lnMode n) = true)
  (hd : h.lnMode n = 2 → (h.lane n).deafAt start = false)
include hst hm hd

theorem Hub.heardChar_none (hx : (h.unseen n).charItem n bs = none) : h.heardChar n bs start stamp de = h.unseen n := by
  unfold Hub.heardChar
  rw [if_neg (by simp only [hst, hm, ne_eq, not_true_eq_false, Bool.true_eq_false, false_or, not_and]; exact fun e => by simp [hd e])]
  simp only [← Hub.unseen.eq_1]
  rw [hx]

/-- A character counts, is shown to the snoop units, and goes its way by the mode. -/
theorem Hub.heardChar_some {h1 : Hub} {x : Word} (hx : (h.unseen n).charItem n bs = some x) (hl : h.lnLoop n = false)
    (hw : h1 = (h.unseen n).whileTx n (h.lnMode n == 2 && de && h.lnM n F.LN_MCFG_ECHO_SUPPRESS == 0)) :
    let k := h1.setLane n { h1.lane n with lastChar := h1.now }
    let y := k.snoopBytes 1 n 0 [byte x.toNat]
    (h.lnMode n = 6 → h.heardChar n bs start stamp de = k.targetByte n x stamp) ∧
    (h.lnMode n ≠ 6 → isAsync (h.lnMode n) = true → y.lnEofIdle n = 0 → h.heardChar n bs start stamp de =
      (if x.toNat / 2 ^ 9 = 0 then y else y.count (Reg.LN_CNT_RX_ERR n)).rxPush n true x) ∧
    (h.lnMode n ≠ 6 → isAsync (h.lnMode n) = false ∨ y.lnEofIdle n ≠ 0 → h.heardChar n bs start stamp de =
      (if (y.lane n).rx.on then y else y.rxOpen n stamp).rxData n x) := by
  intro k y
  have hecho : (h.unseen n).lnM n F.LN_MCFG_ECHO_SUPPRESS = h.lnM n F.LN_MCFG_ECHO_SUPPRESS := Hub.fld_congr (h.unseen_regs n) _ _
  have hloop : (h.unseen n).lnLoop n = false := (Hub.flag_congr (h.unseen_regs n) _ _).trans hl
  have hmain : h.heardChar n bs start stamp de = if h.lnMode n = 6 then k.targetByte n x stamp else
      if isAsync (h.lnMode n) && y.lnEofIdle n == 0 then
        (if x.toNat / 2 ^ 9 = 0 then y else y.count (Reg.LN_CNT_RX_ERR n)).rxPush n true x
      else (if (y.lane n).rx.on then y else y.rxOpen n stamp).rxData n x := by
    unfold Hub.heardChar
    rw [if_neg (by simp only [hst, hm, ne_eq, not_true_eq_false, Bool.true_eq_false, false_or, not_and]; exact fun e => by simp [hd e])]
    simp only [← Hub.unseen.eq_1]
    rw [hx]
    simp only [hecho, hloop, Bool.not_false, Bool.and_true]
    simp only [y, k, hw]
    rfl
  refine ⟨fun h6 => hmain.trans (if_pos h6), fun h6 ha he => hmain.trans ((if_neg h6).trans (if_pos ?_)),
    fun h6 ha => hmain.trans ((if_neg h6).trans (if_neg ?_))⟩
  · simp [ha, he]
  · rcases ha with ha | ha <;> simp [ha]
end

theorem Hub.laneRxChar_line {h : Hub} {n : Nat} (bs : List (BitVec 3)) (ago : Nat) (hl : h.lnLoop n = false) :
    h.laneRxChar n bs ago = h.rxChar n bs ago := if_neg (by simp [hl])

/-- The start of a break, as noted at its start bit or as of now. -/
theorem Hub.laneRxBreak_running {h : Hub} {n : Nat} (h1 : (h.lane n).st = .running) (h2 : isAsync (h.lnMode n) = true)
    (h3 : h.lnLoop n = false)
    (h4 : h.lnMode n = 2 → (h.lane n).deafAt (if (h.lane n).seen.isSome then ((h.lane n).seen.map (·.at_)).getD 0
      else h.now - h.charTime n) = false) :
    h.laneRxBreak n = ((h.setLane n { h.lane n with seen := none }).rxClose n 0).rxPush n false 0x10000000 := by
  unfold Hub.laneRxBreak
  rcases Option.eq_none_or_eq_some (h.lane n).seen with hs | ⟨x, hs⟩
  · simp only [hs] at h4 ⊢
    exact if_pos ⟨h1, h2, h3, by simpa using h4⟩
  · simp only [hs] at h4 ⊢
    exact if_pos ⟨h1, h2, h3, by simpa using h4⟩

theorem Hub.laneFrameEnd_bytes {h : Hub} {n status : Nat} {w : Word} {ps : List (BitVec 2)} {ago : Nat} (h1 : (h.lane n).st = .running)
    (h2 : (h.lane n).rx.on = true) (h3 : [4, 5, 6, 7, 8, 9].contains (h.lnMode n) = true) :
    h.laneFrameEnd n status w ps ago = (if h.lnMode n = 4 ∨ h.lnMode n = 6 then h.snoopFrameEnd 2 n 1 else h).rxClose n status := by
  have hm : h.lnMode n = 4 ∨ h.lnMode n = 5 ∨ h.lnMode n = 6 ∨ h.lnMode n = 7 ∨ h.lnMode n = 8 ∨ h.lnMode n = 9 := by simpa using h3
  have hasync : isAsync (h.lnMode n) = false := by rcases hm with e | e | e | e | e | e <;> rw [e] <;> rfl
  unfold Hub.laneFrameEnd
  simp only [h1, h2, hasync, if_true]
  rw [if_neg (by simp; omega), if_neg (by omega), if_neg (by omega)]

/-! ## Pins -/

/-- The hub in which pin `g` has been accepted at a level. -/
def Hub.pinAt (h : Hub) (g : Nat) (level : Bool) : Hub :=
  { h with ln := { h.ln with pin := tset false h.ln.pin g level, pinAt := tset 0 h.ln.pinAt g h.now } }

theorem Hub.setPin_new {h : Hub} {g : Nat} {level : Bool} (hl : tget false h.ln.pin g ≠ level) : h.setPin g level = h.pinAt g level := if_neg hl

/-- A pin of the troupe takes its level as it comes (R77). -/
theorem Hub.lanePinEdge_owned {h : Hub} {n i : Nat} {level : Bool} (t : Nat) (hl : tget false h.ln.pin (3 * n + i) ≠ level)
    (ho : h.pinOwned (3 * n + i) = true) : h.lanePinEdge n i level t = h.pinAt (3 * n + i) level := by
  unfold Hub.lanePinEdge
  dsimp only
  rw [if_neg (by simp [hl, ho]), Hub.setPin_new hl]
  exact if_pos ho

/-- A level accepted on a pin of a lane goes to the lane's receiver, and is reported where the pin is a discrete one. -/
theorem Hub.lanePinEdge_accepted {h k : Hub} {n i t : Nat} {level : Bool} (hl : tget false h.ln.pin (3 * n + i) ≠ level)
    (ho : h.pinOwned (3 * n + i) = false) (ht : h.filtOf (3 * n + i) ≤ t) (hk : h.pinAt (3 * n + i) level = k)
    (hcs : (k.liveLanes.any fun m => (k.csPin m).contains (3 * n + i)) = false) (hline : k.lineEdge n (3 * n + i) level = k) :
    h.lanePinEdge n i level t =
      if (k.lane n).st = .running ∧ (k.modePins n).contains i = false ∧ k.pinCfg n i 7 = true then
        (k.rxPush n false (word (5 * 2 ^ 28 + bitB level * 4 + i))).rxPushTs n false (k.lnStamp n (3 * n + i) 0)
      else k := by
  have hfilter : (k.liveLanes.filter fun m => (k.csPin m).contains (3 * n + i)) = [] := by
    rw [List.filter_eq_nil_iff]
    exact fun m hm => List.any_eq_false.1 hcs m hm
  have hown : k.pinOwned (3 * n + i) = false := by rw [← hk]; exact ho
  unfold Hub.lanePinEdge
  dsimp only
  rw [if_neg (by simp only [hl, ho, false_or, and_true]; omega), Hub.setPin_new hl, hk, if_neg (by simp [hown])]
  simp only [hfilter, List.foldl_cons, List.foldl_nil, hline, hcs, Bool.not_false, Bool.and_true, Bool.not_eq_true']

/-- A lane that is not running takes nothing from its pins. -/
theorem Hub.lineEdge_idle {h : Hub} {n g : Nat} {level : Bool} (hs : (h.lane n).st ≠ .running) : h.lineEdge n g level = h := if_pos (.inl hs)

/-- A pin that is neither the mode's nor the lane's chip select is nothing to its receiver. -/
theorem Hub.lineEdge_free {h : Hub} {n i : Nat} {level : Bool} (hm : (h.modePins n).contains i = false)
    (hcs : (h.csPin n).contains (3 * n + i) = false) : h.lineEdge n (3 * n + i) level = h := by
  have hdata : ∀ m, h.lnMode n = m → (m = 1 ∨ m = 2 ∨ m = 6 ∨ m = 8 ∨ m = 9) → (3 * n + i == 3 * n + 1) = false := by
    intro m hmode hlist
    have hne : i ≠ 1 := by
      rintro rfl
      rcases hlist with rfl | rfl | rfl | rfl | rfl
      · simp only [Hub.modePins, hmode] at hm
        split at hm <;> simp at hm
      all_goals simp [Hub.modePins, hmode] at hm
    simp [hne]
  have hasync : isAsync (h.lnMode n) = true → h.lnMode n = 1 ∨ h.lnMode n = 2 := by simp [isAsync]
  unfold Hub.lineEdge
  dsimp only
  split
  · rfl
  · rw [if_neg, if_neg, if_neg, if_neg (by rw [hcs]; simp)]
    · rintro ⟨hmode, hd⟩
      rw [hdata _ rfl (by omega)] at hd
      cases hd
    · rintro ⟨hmode, hd⟩
      rw [hdata _ rfl (by omega)] at hd
      cases hd
    · rintro ⟨hmode, hd⟩
      rw [hdata _ rfl (by have := hasync hmode; omega)] at hd
      cases hd

/-- Pin C as CTS is nothing to a UART's receiver. -/
theorem Hub.lineEdge_cts {h : Hub} {n : Nat} {level : Bool} (hm : h.lnMode n = 1) : h.lineEdge n (3 * n + 2) level = h := by
  unfold Hub.lineEdge
  dsimp only
  split
  · rfl
  · rw [if_neg (by simp), if_neg (by simp), if_neg (by simp), if_neg (by simp [hm])]

/-- A change of CTS that no lane takes as its chip select is the level alone. -/
theorem Hub.lanePinEdge_cts {h : Hub} {n : Nat} {level : Bool} (hm : h.lnMode n = 1) (hc : h.lnF Reg.LN_MODE n F.LN_MODE_C_FUNC = 2)
    (hl : tget false h.ln.pin (3 * n + 2) ≠ level)
    (hcs : ((h.pinAt (3 * n + 2) level).liveLanes.any fun m => ((h.pinAt (3 * n + 2) level).csPin m).contains (3 * n + 2)) = false) :
    h.lanePinEdge n 2 level (h.filtOf (3 * n + 2)) = h.pinAt (3 * n + 2) level := by
  have hpins : ((h.pinAt (3 * n + 2) level).modePins n).contains 2 = true := by
    have hm' : (h.pinAt (3 * n + 2) level).lnMode n = 1 := hm
    have hc' : (h.pinAt (3 * n + 2) level).lnF Reg.LN_MODE n F.LN_MODE_C_FUNC = 2 := hc
    unfold Hub.modePins
    simp [hm', hc']
  cases ho : h.pinOwned (3 * n + 2) with
  | true => exact Hub.lanePinEdge_owned _ hl ho
  | false =>
    rw [Hub.lanePinEdge_accepted hl ho (Nat.le_refl _) rfl hcs (Hub.lineEdge_cts hm)]
    exact if_neg (by rw [hpins]; simp)

/-! ## The receive queue in a single node -/

theorem Hub.rxPush_solo {h : Hub} {n : Nat} {own : Bool} {x : Word} (hr : h.twin.role = .solo) : h.rxPush n own x = h.rxqPush n own x :=
  if_pos hr

/-- Settles O21, clause by clause. -/
theorem laneReceptionAndPins : Obligations.LaneReceptionAndPins := by
  unfold Obligations.LaneReceptionAndPins
  refine ⟨fun s n sb db pb tb ago x => ?_, fun s n => ?_, fun s n hh h1 h2 h3 h4 h5 => ?_, fun s n status w ps ago => ?_,
    fun s n i level t => ?_, fun s n => ?_, fun s n => ?_, fun s n t => ?_, fun s n => ?_, fun s kind n hh hq => ?_, fun h n own x hr => ?_⟩
  · intro bs l m start stamp de h0 h1 k y hh hst hl
    have hrun : ∀ h', s.hub.heardChar n bs start stamp de = h' → Makes (.laneRxChar n sb db pb tb ago) s h' := fun h' he =>
      makes_on (fun h => h.laneRxChar n (sb ++ db ++ pb ++ tb) ago) hh rfl
        ((Hub.laneRxChar_line _ _ hl).trans ((Hub.rxChar_eq _ _ _ _).trans he))
    have hwhile : h1 = (s.hub.unseen n).whileTx n (s.hub.lnMode n == 2 && de && s.hub.lnM n F.LN_MCFG_ECHO_SUPPRESS == 0) := by
      unfold Hub.whileTx
      exact if_congr (by simp [m, and_assoc]) rfl rfl
    refine ⟨fun hm hd hx h6 => ⟨fun ha he => hrun _ ?_, fun ha => hrun _ ?_⟩, fun hm hd hx => hrun _ ?_, fun h6 hx => hrun _ ?_, fun h2 hd => hrun _ ?_⟩
    · exact (Hub.heardChar_some (stamp := stamp) (de := de) hst hm hd hx hl hwhile).2.1 h6 ha he
    · exact (Hub.heardChar_some (stamp := stamp) (de := de) hst hm hd hx hl hwhile).2.2 h6 ha
    · exact Hub.heardChar_none hst hm hd hx
    · have hx' : (s.hub.unseen n).charItem n bs = some x := by
        unfold Hub.unseen
        rw [if_neg (by rw [show s.hub.lnMode n = 6 from h6]; decide)]
        exact hx
      have hm : hearsChars (s.hub.lnMode n) = true := by rw [show s.hub.lnMode n = 6 from h6]; rfl
      exact (Hub.heardChar_some (start := start) (stamp := stamp) (de := de) hst hm
        (fun h2 => absurd (h2.symm.trans h6) (by decide)) hx' hl hwhile).1 h6
    · exact Hub.heardChar_deaf h2 hd
  · intro l start hh h1 h2 h3 h4
    exact makes_on (fun h => h.laneRxBreak n) hh rfl (Hub.laneRxBreak_running h1 h2 h3 h4)
  · exact makes_on (fun h => h.laneEofIdle n) hh rfl (if_pos ⟨h1, h2, h3, h4, h5⟩)
  · intro m hh h1 h2 h3
    exact makes_on (fun h => h.laneFrameEnd n status w ps ago) hh rfl (Hub.laneFrameEnd_bytes h1 h2 h3)
  · intro g k hh
    have hrun : ∀ h', s.hub.lanePinEdge n i level t = h' → Makes (.lanePinEdge n i ⟨level, t⟩) s h' := fun h' he =>
      makes_any (fun h => h.pinEdge n i level t) rfl ((if_neg (by simp [hh])).trans he)
    refine ⟨fun h1 h2 => hrun _ (if_pos (.inr ⟨h1, h2⟩)), fun h1 h2 => hrun _ (Hub.lanePinEdge_owned t h1 h2), fun h1 h2 h3 hcs => ?_⟩
    refine ⟨fun hst => hrun _ ?_, fun hst hm => ?_⟩
    · rw [Hub.lanePinEdge_accepted h1 h2 h3 rfl hcs (Hub.lineEdge_idle hst)]
      exact if_neg fun h => hst h.1
    · have hlive : n.val ∈ k.liveLanes := Hub.liveLanes_mem (h := k) (by rw [show (k.lane n).st = .running from hst]; simp)
      have hown : (k.csPin n).contains (3 * n.val + i.val) = false := Bool.eq_false_iff.2 (List.any_eq_false.1 hcs n hlive)
      have hacc := Hub.lanePinEdge_accepted h1 h2 h3 rfl hcs (Hub.lineEdge_free hm hown)
      exact ⟨fun hcfg => hrun _ (hacc.trans (if_neg fun h => Bool.false_ne_true (hcfg.symm.trans h.2.2))),
        fun hcfg => hrun _ (hacc.trans (if_pos ⟨hst, hm, hcfg⟩))⟩
  · intro g k hh hm hc hl hcs
    refine makes_on (fun h => h.laneCts n false) hh rfl ?_
    unfold Hub.laneCts
    rw [Hub.lanePinEdge_cts hm hc (by simp [g] at hl; simp [hl]) hcs]
    rfl
  · intro l hh h1 h2 h3
    exact makes_on (fun h => h.laneDeLead n) hh rfl (if_pos ⟨h1, h2, h3⟩)
  · intro l hh h1 h2
    refine makes_on (fun h => h.laneDeRelease n) hh rfl ?_
    unfold Hub.laneDeRelease
    simp only [show (s.hub.lane n).deOff = some t from h1]
    exact if_pos h2
  · intro l hh h1 h2 h3
    exact makes_on (fun h => h.laneHoldoffEnd n) hh rfl (if_pos ⟨h1, h2, h3⟩)
  · exact makes_on (fun h => if allQueues.contains ⟨kind, n.toNat⟩ then h.crossClear ⟨kind, n.toNat⟩ else h) hh rfl (if_pos hq)
  · intro l
    rw [Hub.rxPush_solo hr]
    exact ⟨Hub.rxqPush_items own x, Hub.rxqPush_lost own x⟩

end Sys2Proof.Machine

/-! Transmission on a lane (R82, R87, R88, R91, R98, R100). -/

namespace Sys2Proof.Machine

/-! ## What the steps of a transmission leave -/

@[simp] theorem Hub.drive_ln (h : Hub) (o : Output) : (h.drive o).ln = h.ln := by
  unfold Hub.drive
  split <;> rfl

@[simp] theorem Hub.lineOut_ln (h : Hub) (n : Nat) (o : LineOut) : (h.lineOut n o).ln = h.ln := by
  unfold Hub.lineOut
  split
  · rfl
  · exact Hub.drive_ln _ _

theorem Hub.lane_of_ln {h k : Hub} (e : k.ln = h.ln) (n : Nat) : k.lane n = h.lane n := Hub.lane_congr (congrArg LaneBlk.lane e) n

theorem Hub.txPop_lane (h : Hub) (n : Nat) : (h.txPop n).lane n = { h.lane n with txq := (h.lane n).txq.drop1 h.now } :=
  Hub.lane_setLane_same _ _ _

theorem Hub.lnDiv_of_rd {h k : Hub} {n : Nat} (e : k.rd (Reg.LN_BAUD n) = h.rd (Reg.LN_BAUD n)) : k.lnDiv n = h.lnDiv n := by
  unfold Hub.lnDiv Hub.lnF
  rw [Hub.fld_of_rd _ e, Hub.fld_of_rd _ e]

theorem Hub.bitTime_of_rd {h k : Hub} {n : Nat} (e1 : k.rd (Reg.LN_BAUD n) = h.rd (Reg.LN_BAUD n))
    (e2 : k.rd (Reg.LN_MODE n) = h.rd (Reg.LN_MODE n)) : k.bitTime n = h.bitTime n := by
  unfold Hub.bitTime Hub.lnOvs Hub.lnF
  rw [Hub.lnDiv_of_rd e1, Hub.lnMode_congr n e2, Hub.fld_of_rd _ e1]

theorem Hub.ctsHigh_of_mode {h : Hub} {n : Nat} (hm : h.lnMode n ≠ 1) : h.ctsHigh n = false := by simp [Hub.ctsHigh, hm]

/-! ## Items of the transmit queue -/

theorem Hub.laneTxData_send {h : Hub} {n : Nat} {x : Word} (inp : Byte) (hr : h.txReady n 0 x) (hc : h.ctsHigh n = false)
    (hm : h.lnMode n ≠ 2 ∨ (h.lane n).tx.on = true ∨
      ((h.lane n).deOff = none ∧ (h.lane n).hears = false ∧ (h.lane n).de = true ∧ (h.lane n).lead = false)) :
    h.laneTxData n inp = h.sendData n x.toNat inp := by
  unfold Hub.laneTxData
  rw [Hub.txHead_ready _ hr]
  dsimp only
  rw [if_neg (by simp [hc])]
  split
  next hnew =>
    obtain ⟨hoff, hhears, hde, hlead⟩ : _ ∧ _ ∧ _ ∧ _ := by
      rcases hm with h2 | hon | hfree
      · exact absurd hnew.1 h2
      · exact absurd (hon.symm.trans hnew.2) (by simp)
      · exact hfree
    rw [if_neg (by simp [hoff, hhears]), if_neg (by simp [hde]), if_neg (by simp [hlead])]
  · rfl

theorem Hub.laneTxData_assert {h : Hub} {n : Nat} {x : Word} (inp : Byte) (hr : h.txReady n 0 x) (hm : h.lnMode n = 2)
    (hon : (h.lane n).tx.on = false) (hoff : (h.lane n).deOff = none) (hh : (h.lane n).hears = false) (hde : (h.lane n).de = false) :
    h.laneTxData n inp = h.assertDe n := by
  unfold Hub.laneTxData
  rw [Hub.txHead_ready _ hr]
  dsimp only
  rw [if_neg (by simp [Hub.ctsHigh_of_mode (h := h) (n := n) (by rw [hm]; decide)]), if_pos ⟨hm, hon⟩, if_neg (by simp [hoff, hh]), if_pos hde]

theorem Hub.laneTxData_waits {h : Hub} {n : Nat} {x : Word} (inp : Byte) (hr : h.txReady n 0 x)
    (hw : h.ctsHigh n = true ∨ (h.lnMode n = 2 ∧ (h.lane n).tx.on = false ∧
      ((h.lane n).deOff.isSome = true ∨ (h.lane n).hears = true ∨ ((h.lane n).de = true ∧ (h.lane n).lead = true)))) :
    h.laneTxData n inp = h := by
  unfold Hub.laneTxData
  rw [Hub.txHead_ready _ hr]
  dsimp only
  split
  · rfl
  next hc =>
    obtain ⟨hm, hon, hwait⟩ := hw.resolve_left hc
    rw [if_pos ⟨hm, hon⟩]
    split
    · rfl
    next hn =>
      obtain ⟨hde, hlead⟩ : _ ∧ _ := by
        rcases hwait with e | e | e
        · exact absurd (.inl e) hn
        · exact absurd (.inr e) hn
        · exact e
      rw [if_neg (by simp [hde]), if_pos hlead]

theorem Hub.laneTxBrk_send {h : Hub} {n : Nat} (hn : n < 96) {x : Word} (hr : h.txReady n 1 x) (hl : h.lnLoop n = false) (hc : h.ctsHigh n = false)
    (hm : h.lnMode n ≠ 2 ∨ (h.lane n).de = true ∨ (h.lane n).hears = false) :
    let k := (h.txPop n).snoopFrameEnd 2 n 1
    h.laneTxBrk n = (k.setLane n { k.lane n with busyUntil := h.now + x.toNat % 2 ^ 16 * h.bitTime n }).drive (.line n (.brk (x.toNat % 2 ^ 16))) := by
  intro k
  have hrd : ∀ a, a < 0x58000 → k.rd a = h.rd a := fun a ha => Hub.snoopFrameEnd_rd (h.txPop n) 2 n 1 ha
  have hbit : k.bitTime n = h.bitTime n :=
    Hub.bitTime_of_rd (hrd _ (by simp only [Reg.LN_BAUD]; omega)) (hrd _ (by simp only [Reg.LN_MODE]; omega))
  have hnow : k.now = h.now := Hub.snoopFrameEnd_now _ _ _ _
  have hloop : ∀ y, (k.setLane n y).lnLoop n = false := fun y =>
    (Hub.flag_of_rd (h := h) _ (hrd (Reg.LN_MODE n) (by simp only [Reg.LN_MODE]; omega))).trans hl
  unfold Hub.laneTxBrk
  rw [Hub.txHead_ready _ hr]
  dsimp only
  rw [if_neg]
  · show Hub.lineOut (k.setLane n { k.lane n with busyUntil := k.now + x.toNat % 2 ^ 16 * k.bitTime n }) n _ = _
    rw [hbit, hnow, Hub.lineOut, if_neg (by simp [hloop])]
  · simp only [hc, Bool.false_eq_true, false_or, not_and]
    intro h2 hde
    rcases hm with e | e | e
    · exact absurd h2 e
    · rw [hde] at e; cases e
    · simp [e]

/-- A START of a controller: the frame before it ends, a new one begins and its address byte is sent. -/
theorem Hub.laneTxI2cStart_send {h : Hub} {n : Nat} {x : Word} (hr : h.txReady n 9 x) :
    let k0 := h.txPop n
    let k1 := if h.lnM2 n F.LN_MCFG2_I2C_SPEED = 3 ∧ (h.lane n).tx.on = false then
      k0.lineOut n (.start (byte (8 + h.lnM2 n F.LN_MCFG2_HS_CODE))) else k0
    let k2 := if (h.lane n).tx.on then k1.snoopFrameEnd 2 n 1 else k1
    let k3 := if (h.lane n).rx.on then k2.rxClose n 0 else k2
    let k := k3.setLane n { k3.lane n with tx := { on := true } }
    (k3.lane n).st = .running →
    h.laneTxI2cStart n = (k.rxOpen n (k.lnStamp n (3 * n + 1) 0)).lineOut n (.start (byte x.toNat)) := by
  intro k0 k1 k2 k3 k hst
  have h0 : k0.lane n = { h.lane n with txq := (h.lane n).txq.drop1 h.now } := h.txPop_lane n
  have hcode : k0.hsCode n = k1 := by
    unfold Hub.hsCode
    rw [h0]
    rfl
  have h1 : k1.lane n = k0.lane n := by
    refine Hub.lane_of_ln ?_ n
    simp only [k1]
    split
    · exact Hub.lineOut_ln _ _ _
    · rfl
  have h2 : k2.lane n = k0.lane n := by
    refine Eq.trans (Hub.lane_of_ln ?_ n) h1
    simp only [k2]
    split
    · exact Hub.snoopFrameEnd_ln _ _ _ _
    · rfl
  unfold Hub.laneTxI2cStart
  rw [Hub.txHead_ready _ hr]
  show Hub.lineOut _ n _ = _
  dsimp only
  rw [show (h.txPop n).hsCode n = k1 from hcode]
  rw [show (k1.lane n).tx.on = (h.lane n).tx.on by rw [h1, h0]]
  rw [show (if (h.lane n).tx.on = true then k1.snoopFrameEnd 2 n 1 else k1) = k2 from rfl]
  rw [show (k2.lane n).rx.on = (h.lane n).rx.on by rw [h2, h0]]
  rw [show (if (h.lane n).rx.on = true then k2.rxClose n 0 else k2) = k3 from rfl]
  rw [if_pos (by rw [Hub.lane_setLane_same]; exact hst)]

/-! ## The end of a sent frame -/

theorem Hub.eofPop_eq (h : Hub) (n : Nat) :
    let k0 := h.txPop n
    h.eofPop n = if (k0.lane n).st = .stopping true then k0.setLane n { k0.lane n with stopEof := true } else k0 := rfl

/-- Taking the `EOF` item leaves the registers, and the frame that is being sent. -/
theorem Hub.eofPop_but (h : Hub) (n : Nat) : (h.eofPop n).regs = h.regs ∧ ((h.eofPop n).lane n).tx = (h.lane n).tx := by
  unfold Hub.eofPop
  dsimp only
  split
  · refine ⟨rfl, ?_⟩
    rw [Hub.lane_setLane_same, Hub.txPop_lane]
  · refine ⟨rfl, ?_⟩
    rw [Hub.txPop_lane]

theorem Hub.polyOf_of_regs {h k : Hub} (er : k.regs = h.regs) (sel : Nat) : k.polyOf sel = h.polyOf sel := by
  have hu : k.userPoly sel = h.userPoly sel := by
    unfold Hub.userPoly
    simp only [Hub.rd_congr er, Hub.fld_congr er, Hub.flag_congr er]
  unfold Hub.polyOf
  rw [hu]

/-- The check value is one of the registers and of the bytes sent. -/
theorem Hub.txCheck_congr {h k : Hub} {n : Nat} (er : k.regs = h.regs) (et : (k.lane n).tx = (h.lane n).tx) :
    k.txCheck n = h.txCheck n := by
  unfold Hub.txCheck Hub.lnPoly Hub.txAppends Hub.lnMode Hub.lnF
  simp only [Hub.polyOf_of_regs er, Hub.fld_congr er, Hub.flag_congr er, et]

theorem Hub.lnMode_of_regs {h k : Hub} (n : Nat) (er : k.regs = h.regs) : k.lnMode n = h.lnMode n := Hub.lnMode_congr n (Hub.rd_congr er _)

/-- What is sent of a frame at its `EOF` item: the check value, if it takes one. -/
def Hub.eofChars (h : Hub) (n : Nat) : Hub :=
  if h.txCheck n = [] then h.eofPop n else (h.eofPop n).sendChars n false ((h.txCheck n).map fun (b : Byte) => b.toNat)

theorem Hub.eofChars_mode (h : Hub) (n : Nat) : (h.eofChars n).lnMode n = h.lnMode n := by
  unfold Hub.eofChars
  split
  · exact Hub.lnMode_of_regs n (h.eofPop_but n).1
  · exact (Hub.sendChars_mode _ _ _ _).trans (Hub.lnMode_of_regs n (h.eofPop_but n).1)

theorem Hub.laneTxEof_ends {h : Hub} {n : Nat} {x : Word} (hr : h.txReady n 4 x) (hon : (h.lane n).tx.on = true)
    (hm : h.lnMode n ≠ 1 ∨ h.lnF Reg.LN_MODE n F.LN_MODE_C_FUNC ≠ 2) : h.laneTxEof n = (h.eofChars n).endFrame n := by
  obtain ⟨er, et⟩ := h.eofPop_but n
  unfold Hub.laneTxEof
  rw [Hub.txHead_ready _ hr]
  dsimp only
  rw [if_neg (by simp [hon]), if_neg (not_and_or.2 hm), Hub.txCheck_congr er et]
  rfl

/-- Under CTS the characters of the check value start one by one, each while pin C is low. -/
theorem Hub.laneTxEof_char {h : Hub} {n : Nat} {x : Word} {b : Byte} {bs : List Byte} (hr : h.txReady n 4 x) (hon : (h.lane n).tx.on = true)
    (hm : h.lnMode n = 1) (hc : h.lnF Reg.LN_MODE n F.LN_MODE_C_FUNC = 2) (ht : (h.lane n).tx.tail.getD (h.txCheck n) = b :: bs) :
    h.laneTxEof n = if h.pinLevel (3 * n + 2) = true then h else
      let k := (h.setLane n { h.lane n with tx := { (h.lane n).tx with tail := some bs } }).sendChars n false [b.toNat]
      if bs = [] then (k.eofPop n).endFrame n else k := by
  have hcts : h.ctsHigh n = h.pinLevel (3 * n + 2) := by simp [Hub.ctsHigh, hm, hc]
  unfold Hub.laneTxEof
  rw [Hub.txHead_ready _ hr]
  dsimp only
  rw [if_neg (by simp [hon]), if_pos ⟨hm, hc⟩]
  simp only [ht, hcts]

theorem Hub.laneUnderrun_waits {h : Hub} {n : Nat} (hf : h.txFree n = true) (hon : (h.lane n).tx.on = true) (hb : (h.lane n).tx.bytes ≠ [])
    (hq : (h.lane n).txq.ready h.now = 0) (hm : isAsync (h.lnMode n) = true) (he : h.lnEofIdle n ≠ 0) :
    h.laneUnderrun n = (if (h.lane n).tx.counted then h else (h.count (Reg.LN_CNT_TX_UNDERRUN n)).lnEvt n F.LN_EVT_TX_UNDERRUN).setLane n
      { h.lane n with tx := { (h.lane n).tx with underrun := some ((h.lane n).tx.underrun.getD h.now), counted := true } } := by
  let k := if (h.lane n).tx.counted then h else (h.count (Reg.LN_CNT_TX_UNDERRUN n)).lnEvt n F.LN_EVT_TX_UNDERRUN
  have hk : k.now = h.now ∧ k.rd (Reg.LN_EOFI n) = h.rd (Reg.LN_EOFI n) := by
    simp only [k]
    split
    · exact ⟨rfl, rfl⟩
    · exact ⟨rfl, (Hub.rd_evt_ne _ _ (by simp [Reg.LN_EOFI, Reg.LN_EVT])).trans (Hub.rd_count_ne _ (by simp [Reg.LN_EOFI, Reg.LN_CNT_TX_UNDERRUN]))⟩
  have hidle : ∀ l, (k.setLane n l).lnEofIdle n ≠ 0 := fun l => by
    rwa [show (k.setLane n l).lnEofIdle n = h.lnEofIdle n from Hub.fld_of_rd _ hk.2]
  unfold Hub.laneUnderrun
  dsimp only
  rw [if_neg (by simp [hf, hon, hb, hq]), if_pos hm]
  refine (if_neg (hidle _)).trans ?_
  show k.setLane n { h.lane n with tx := { (h.lane n).tx with underrun := some ((h.lane n).tx.underrun.getD k.now), counted := true } } = _
  rw [hk.1]

/-- Settles O22: each item by its kind at the head of the queue. -/
theorem laneTransmission : Obligations.LaneTransmission := by
  unfold Obligations.LaneTransmission
  refine ⟨fun s n x inp => ?_, fun s n x inp => ?_, fun s n x inp => ?_, fun s n x => ?_, fun s n x => ?_, fun s n x => ?_, fun s n x => ?_,
    fun s n x bs => ?_, fun s n x => ?_, fun s n t hh h1 h2 h3 h4 h5 h6 => ?_, fun s n x => ?_, fun s n x b bs => ?_, fun h n p hp => ?_,
    fun s n => ?_, fun s n t => ?_, fun s n t => ?_, fun s n => ?_⟩
  · intro l m hh hr hc hm
    exact makes_on (fun h => h.laneTxData n inp) hh rfl (Hub.laneTxData_send inp hr hc hm)
  · intro l hh hr hm hon hoff hhe hde
    exact makes_on (fun h => h.laneTxData n inp) hh rfl (Hub.laneTxData_assert inp hr hm hon hoff hhe hde)
  · intro l hh hr hw
    exact makes_on (fun h => h.laneTxData n inp) hh rfl (Hub.laneTxData_waits inp hr hw)
  · intro l k hh hr hl hc hm
    exact makes_on (fun h => h.laneTxBrk n) hh rfl (Hub.laneTxBrk_send n.isLt hr hl hc hm)
  · intro k hh hr
    exact makes_on (fun h => h.laneTxGap n) hh rfl (Hub.txHead_ready _ hr)
  · intro hh hr
    exact makes_on (fun h => h.laneTxDout n) hh rfl (Hub.txHead_ready _ hr)
  · intro l k0 k1 k2 k3 h hh hr hst
    exact makes_on (fun h => h.laneTxI2cStart n) hh rfl (Hub.laneTxI2cStart_send hr hst)
  · intro k h hh hr hon
    exact makes_on (fun h => h.laneTxI2cRead n bs) hh rfl ((Hub.txHead_ready _ hr).trans (if_pos hon))
  · intro hh hr hssi
    exact makes_on (fun h => h.laneTxSsiRead n) hh rfl ((Hub.txHead_ready _ hr).trans (if_neg (by simp [hssi])))
  · have hrun : s.hub.ssiAuto n (fun g => tget none s.hub.car.edgeAt g) = if t + tuUs ≤ s.hub.now ∧ (s.hub.lane n).ssiEdge ≠ t + 1 then
        (s.hub.setLane n { s.hub.lane n with ssiEdge := t + 1 }).ssiStart n else s.hub := by
      unfold Hub.ssiAuto
      dsimp only
      rw [if_pos ⟨h1, h2, h3, h4⟩]
      simp only [h5]
    exact ⟨fun hne => makes_on (fun h => h.ssiAuto n fun g => tget none h.car.edgeAt g) hh rfl (hrun.trans (if_pos ⟨h6, hne⟩)),
      fun he => makes_on (fun h => h.ssiAuto n fun g => tget none h.car.edgeAt g) hh rfl (hrun.trans (if_neg fun hn => hn.2 he))⟩
  · intro m k0 k c h hh hr hon hc
    have hmode : h.lnMode n = m := s.hub.eofChars_mode n
    have hrun : ∀ {h'}, h.endFrame n = h' → Makes (.laneTxEof n) s h' := fun he =>
      makes_on (fun h => h.laneTxEof n) hh rfl ((Hub.laneTxEof_ends hr hon hc).trans he)
    refine ⟨fun h3 h5 h7 => hrun ?_, fun h3 => hrun ?_, fun h5 => hrun ?_, fun h7 => hrun ?_⟩ <;> unfold Hub.endFrame <;> rw [hmode]
    · simp [h3, h5, h7]
    · simp [h3]
    · simp [h5]
    · simp [h7]
  · intro l hh hr hon hm hc ht
    have hrun : ∀ {h'}, _ → Makes (.laneTxEof n) s h' := fun he =>
      makes_on (fun h => h.laneTxEof n) hh rfl ((Hub.laneTxEof_char hr hon hm hc ht).trans he)
    exact ⟨fun hp => hrun (if_pos hp), fun hp hbs => hrun ((if_neg (by simp [hp])).trans (if_neg hbs))⟩
  · simp only [Hub.txCheck, hp]
  · intro l c hh hf hon hb hq hm he
    exact makes_on (fun h => h.laneUnderrun n) hh rfl (Hub.laneUnderrun_waits hf hon hb hq hm he)
  · intro l hh hu hon hm hi ht
    refine makes_on (fun h => h.laneUnderrunClose n) hh rfl ?_
    unfold Hub.laneUnderrunClose
    simp only [show (s.hub.lane n).tx.underrun = some t from hu]
    exact if_pos ⟨hon, hm, hi, ht⟩
  · intro l lim hh hst hm hon hl hu ht
    refine makes_on (fun h => h.i2cStretch n) hh rfl ?_
    unfold Hub.i2cStretch
    simp only [show (s.hub.lane n).tx.underrun = some t from hu]
    exact if_pos ⟨hst, hm, hon, hl, decide_eq_true ht⟩
  · intro l ns sec hh hst hm
    refine ⟨fun h5 hne => makes_on (fun h => h.laneIrig n) hh rfl (if_pos ⟨hst, hm, h5, hne⟩),
      fun hor => makes_on (fun h => h.laneIrig n) hh rfl (if_neg fun ⟨_, _, h5, hne⟩ => ?_)⟩
    exact hor.elim (fun h => absurd h5 (Nat.not_lt.2 h)) hne

end Sys2Proof.Machine

/-! The lane commands, the end of a stop, and the supply of a bank (R75, R83, R108). -/

namespace Sys2Proof.Machine

theorem mask_3 {mask : Word} (hm : mask.toNat = 3) : testBit mask.toNat 0 = true ∧ testBit mask.toNat 1 = true := by rw [hm]; decide

/-! ## Commands -/

theorem runLaneStart_ok {h : Hub} {src : CmdSrc} {tag : Byte} {w : Word} (hn : w.toNat < 96) (hc : h.laneCfgOk w.toNat = true)
    (hst : (h.lane w.toNat).st = .stopped) (hv : h.fld (Reg.LANE_BANK (w.toNat / 12)) F.LANE_BANK_VIO ≠ 0)
    (hm : h.fld (Reg.LANE_BANK (w.toNat / 12)) F.LANE_BANK_VIO = h.fld (Reg.LANE_BANK (w.toNat / 12)) F.LANE_BANK_VIO_MEAS)
    (hp : ∀ g ∈ h.needPins w.toNat, h.pinOwned g = false ∧ ∀ m ∈ h.liveLanes, m ≠ w.toNat → g / 3 ≠ m ∧ g ∉ h.csPin m) :
    let l := h.lane w.toNat
    runLaneStart h (mkCmd src 0x0601 tag [w]) =
      .done (h.setLane w.toNat { st := .running, rxq := l.rxq, txq := l.txq, priorLoss := l.priorLoss }) [] := by
  have e1 : (mkCmd src 0x0601 tag [w]).arg 1 = w.toNat := rfl
  have howned : (h.needPins w.toNat).any h.pinOwned = false := List.any_eq_false.2 fun g hg => by simp [(hp g hg).1]
  have htaken : (h.needPins w.toNat).any (h.pinTaken w.toNat) = false := by
    refine List.any_eq_false.2 fun g hg => Bool.not_eq_true _ ▸ List.any_eq_false.2 fun m hmem => ?_
    have := (hp g hg).2 m hmem
    simp only [Bool.and_eq_true, bne_iff_ne, Bool.or_eq_true, beq_iff_eq, List.contains_iff_mem, not_and, not_or]
    exact this
  unfold runLaneStart
  simp only [e1]
  rw [if_neg (by rw [zeroFrom_mkCmd _ _ _ _ 2 rfl, hc]; simp; omega), if_neg (by rw [howned, htaken]; simp [hst, hv, hm.symm])]

theorem runLaneStop_running {h : Hub} {src : CmdSrc} {tag : Byte} {w mode : Word} (hn : w.toNat < 96) (hm : mode.toNat ≤ 1)
    (hst : (h.lane w.toNat).st = .running) (hde : (h.lane w.toNat).de = false) :
    runLaneStop h (mkCmd src 0x0602 tag [w, mode]) =
      .later (h.setLane w.toNat { h.lane w.toNat with
        st := .stopping (mode.toNat == 1), stopAt := h.now, stopRefs := [(mkCmd src 0x0602 tag [w, mode]).ref], rx := {}, loop := [], seen := none }) := by
  have e1 : (mkCmd src 0x0602 tag [w, mode]).arg 1 = w.toNat := rfl
  have e2 : (mkCmd src 0x0602 tag [w, mode]).arg 2 = mode.toNat := rfl
  have hkeep : ∀ l : Lane, l.de = false → (h.setLane w.toNat l).releaseDe w.toNat = h.setLane w.toNat l := fun l e => by
    unfold Hub.releaseDe
    dsimp only
    rw [Hub.lane_setLane_same, if_neg (by simp [e])]
  unfold runLaneStop
  simp only [e1, e2, hst]
  rw [if_neg (by rw [zeroFrom_mkCmd _ _ _ _ 3 rfl]; simp; omega)]
  split
  · rw [hkeep _ (by exact hde)]
  · rfl

theorem runLaneFlush_both {h : Hub} {src : CmdSrc} {tag : Byte} {w mask : Word} (hn : w.toNat < 96) (hm : mask.toNat = 3)
    (hst : (h.lane w.toNat).st = .stopped) :
    let n := w.toNat
    let l := h.lane n
    runLaneFlush h (mkCmd src 0x0603 tag [w, mask]) =
      .done ((((h.setLane n { l with rxq := l.rxq.flushed }).setFld (Reg.LN_RXQ_STAT n) F.LN_RXQ_STAT_WM_CROSS 0).setLane n
        { l with rxq := l.rxq.flushed, txq := l.txq.flushed }).setFld (Reg.LN_TXQ_STAT n) F.LN_TXQ_STAT_WM_CROSS 0) [] := by
  have e1 : (mkCmd src 0x0603 tag [w, mask]).arg 1 = w.toNat := rfl
  have e2 : (mkCmd src 0x0603 tag [w, mask]).arg 2 = mask.toNat := rfl
  have hl : ((h.setLane w.toNat { h.lane w.toNat with rxq := (h.lane w.toNat).rxq.flushed }).setFld (Reg.LN_RXQ_STAT w.toNat)
      F.LN_RXQ_STAT_WM_CROSS 0).lane w.toNat = { h.lane w.toNat with rxq := (h.lane w.toNat).rxq.flushed } := Hub.lane_setLane_same _ _ _
  unfold runLaneFlush
  simp only [e1, e2]
  rw [if_neg (by rw [zeroFrom_mkCmd _ _ _ _ 3 rfl]; simp; omega), if_neg (by simp [hst]), if_pos (mask_3 hm).1, if_pos (mask_3 hm).2, hl]

theorem Hub.setDout_levels {h : Hub} {n mask levels : Nat} (hm : mask ≤ 7) (hl : levels ≤ 7) (hk : Nat.land mask (h.outMask n) = mask) :
    let new := Nat.lor (Nat.land (h.fld (Reg.LN_DOUT n) F.LN_DOUT_LEVEL) (7 - mask)) (Nat.land levels mask)
    h.setDout n mask levels = (h.setFld (Reg.LN_DOUT n) F.LN_DOUT_LEVEL new).drive (.line n (.dout mask (Nat.land new mask))) := by
  unfold Hub.setDout
  simp only [Nat.mod_eq_of_lt (show mask < 8 by omega), Nat.mod_eq_of_lt (show levels < 8 by omega), hk]

theorem Hub.drive_acts {h : Hub} (o : Output) (ha : h.acts = true) : h.drive o = h.emit o := by
  unfold Hub.drive
  rw [if_pos (by simp [ha])]

/-! ## Stops -/

theorem Hub.laneStopComplete_quiet {h : Hub} {n : Nat} (hst : (h.lane n).st = .stopping false ∨ ((h.lane n).st = .stopping true ∧ (h.lane n).stopEof = true))
    (hb : (h.lane n).busyUntil ≤ h.now)
    (hd : ((h.lane n).de = false ∧ (h.lane n).deOff = none) ∨ ∃ t, (h.lane n).deOff = some t ∧ t ≤ h.now) :
    h.laneStopComplete n = h.laneStopped n := by
  have hquiet : (decide ((h.lane n).busyUntil ≤ h.now) && (match (h.lane n).deOff with
      | some t => decide (t ≤ h.now)
      | none => !(h.lane n).de)) = true := by
    rcases hd with ⟨e1, e2⟩ | ⟨t, e1, e2⟩
    · simp [hb, e1, e2]
    · simp [hb, e1, e2]
  unfold Hub.laneStopComplete
  rcases hst with e | ⟨e, e2⟩
  · simp only [e]
    exact if_pos hquiet
  · simp only [e, e2, Bool.and_true]
    exact if_pos hquiet

/-- Settles O23, command by command. -/
theorem laneCommandsAndStops : Obligations.LaneCommandsAndStops := by
  unfold Obligations.LaneCommandsAndStops
  refine ⟨fun s src tag w => ?_, fun s src tag w mode => ?_, fun s src tag w mask => ?_, fun s src tag w mask levels => ?_, fun s n => ?_,
    fun s n => ?_, fun s k v => ?_, fun s k v => ?_⟩
  · intro c n l vio ha hn hc hst hv hm hp
    exact gives_done (fun h => h.accept c runLaneStart) [.ln] [] rfl ha (accept_done ha (runLaneStart_ok hn hc hst hv hm hp)) (by simp) rfl
      (fun p hp => by cases p <;> first | rfl | simp at hp) rfl (fun _ _ => rfl) (fun q => by simp)
      fun k hk _ => hk .ln (by decide) (by decide)
  · intro c n l ha hn hm hst hde
    exact gives_later (fun h => h.accept c runLaneStop) [.ln] [] rfl ha (accept_busy ha (runLaneStop_running hn hm hst hde)) rfl
      (fun p hp => by cases p <;> first | rfl | simp at hp) rfl (fun _ _ => rfl) (fun q => by simp)
      fun k hk _ => hk .ln (by decide)
  · intro c n l ha hn hm hst
    have hne : Reg.LN_TXQ_STAT n ≠ Reg.LN_RXQ_STAT n := by simp [Reg.LN_TXQ_STAT, Reg.LN_RXQ_STAT]
    refine gives_done (fun h => h.accept c runLaneFlush) [.ln] [Reg.LN_RXQ_STAT n, Reg.LN_TXQ_STAT n] rfl ha
      (accept_done ha (runLaneFlush_both hn hm hst)) (by simp) rfl (fun p hp => by cases p <;> first | rfl | simp at hp) rfl (fun a hna => ?_)
      (fun q => by simp [Reg.HQ_RSP, Reg.LN_RXQ_STAT, Reg.LN_TXQ_STAT]; omega) fun k hk hkr => ?_
    · simp only [List.mem_cons, List.not_mem_nil, or_false, not_or] at hna
      exact (Hub.rd_setFld_ne _ _ _ hna.2).trans (Hub.rd_setFld_ne _ _ _ hna.1)
    · have hlane : ∀ m, k.lane m = _ := fun m => Hub.lane_congr (congrArg LaneBlk.lane (hk .ln (by decide) (by decide))) m
      refine ⟨?_, ?_, (hlane n).trans (Hub.lane_setLane_same _ _ _), fun m hm => (hlane m).trans ?_⟩
      · rw [Hub.fld_of_rd _ (hkr _ (not_ackRegs c s (by simp only [Reg.LN_RXQ_STAT]; omega))),
          Hub.fld_of_rd _ (Hub.rd_setFld_ne _ _ _ hne.symm)]
        exact Hub.fld_setFld _ _ _ _ (by decide)
      · rw [Hub.fld_of_rd _ (hkr _ (not_ackRegs c s (by simp only [Reg.LN_TXQ_STAT]; omega)))]
        exact Hub.fld_setFld _ _ _ _ (by decide)
      · exact ((Hub.lane_setLane _ n m _).trans (if_neg hm)).trans ((Hub.lane_setLane _ n m _).trans (if_neg hm))
  · intro c n old new ha hn hm hl hk hacts
    have hset : s.hub.setDout n mask.toNat levels.toNat =
        (s.hub.setFld (Reg.LN_DOUT n) F.LN_DOUT_LEVEL new).emit (.line n (.dout mask.toNat (Nat.land new mask.toNat))) :=
      (Hub.setDout_levels hm hl hk).trans (Hub.drive_acts _ hacts)
    have hrun : runLaneDout s.hub c =
        .done ((s.hub.setFld (Reg.LN_DOUT n) F.LN_DOUT_LEVEL new).emit (.line n (.dout mask.toNat (Nat.land new mask.toNat)))) [] := by
      have e1 : c.arg 1 = n := rfl
      have e2 : c.arg 2 = mask.toNat := rfl
      have e3 : c.arg 3 = levels.toNat := rfl
      unfold runLaneDout
      simp only [e1, e2, e3]
      rw [if_neg (by rw [zeroFrom_mkCmd _ _ _ _ 4 rfl]; simp; omega), if_neg (not_not.2 hk), hset]
    refine gives_done (fun h => h.accept c runLaneDout) [.out] [Reg.LN_DOUT n] rfl ha (accept_done ha hrun) (by simp) rfl
      (fun p hp => by cases p <;> first | rfl | simp at hp) rfl (fun a hna => Hub.rd_setFld_ne s.hub F.LN_DOUT_LEVEL new (by simpa using hna))
      (fun q => by simp [Reg.HQ_RSP, Reg.LN_DOUT]; omega) fun k hk hkr => ?_
    have hout : k.out = _ := hk .out (by decide) (by decide)
    refine ⟨?_, hout⟩
    rw [Hub.fld_of_rd _ (hkr _ (not_ackRegs c s (by simp only [Reg.LN_DOUT]; omega)))]
    exact Hub.fld_setFld s.hub (Reg.LN_DOUT n) F.LN_DOUT_LEVEL new (by decide)
  · intro l hh hst hb hd
    exact makes_on (fun h => h.laneStopComplete n) hh rfl (Hub.laneStopComplete_quiet hst hb hd)
  · intro l hh hst ht
    exact makes_on (fun h => h.laneStopTimeout n) hh rfl (if_pos ⟨hst, ht⟩)
  · intro hh hv hb ht h
    refine makes_any (fun h => if h.held then h.setFld (Reg.LANE_BANK k) F.LANE_BANK_VIO_MEAS v.val else h.bankVio k v) rfl ?_
    rw [if_neg (by simp [hh])]
    unfold Hub.bankVio
    rw [if_neg hv]
    simp [hb, ht, h]
  · intro hh hv hb h h1
    refine makes_any (fun h => if h.held then h.setFld (Reg.LANE_BANK k) F.LANE_BANK_VIO_MEAS v.val else h.bankVio k v) rfl ?_
    rw [if_neg (by simp [hh])]
    unfold Hub.bankVio
    rw [if_neg hv]
    simp [hb, h, h1]

end Sys2Proof.Machine

/-! The Fret instructions (R111, R112, R118, R119). -/

namespace Sys2Proof.Machine

theorem bitsN_low (x n : Nat) : bitsN x 0 n = x % 2 ^ n := by simp [bitsN]

/-! ## How an instruction's result is carried out -/

section
variable {h h' : Hub} {e op x a why n : Nat} {saw : Bool} {act : Hub → Nat → FrRes}

theorem Hub.frRun_done (ha : h.frAt e op x) (hr : act h x = .done h') : h.frRun e op act = h.frEnd h' e x (h.frNext e (h.eng e).pc) := by
  rw [Hub.frRun_at act ha, hr, Hub.frFinish_done]

theorem Hub.frRun_jump (ha : h.frAt e op x) (hr : act h x = .jump h' a) : h.frRun e op act = h.frEnd h' e x a := by
  rw [Hub.frRun_at act ha, hr, Hub.frFinish_jump]

theorem Hub.frRun_halt (ha : h.frAt e op x) (hr : act h x = .halt h') :
    h.frRun e op act = (h.frEnd h' e x (h.frNext e (h.eng e).pc)).frStopEng e 2 := by
  rw [Hub.frRun_at act ha, hr, Hub.frFinish_halt]

theorem Hub.frRun_stall (ha : h.frAt e op x) (hr : act h x = .stall why saw) : h.frRun e op act = h.frStall e why saw := by
  rw [Hub.frRun_at act ha, hr, Hub.frFinish_stall]

end

/-! ## The instructions -/

/-- The jump of an engine is taken under a condition. -/
def Hub.frTakes (h : Hub) (e cond levels : Nat) : Bool :=
  match cond with
  | 0 => true
  | 1 => decide ((h.eng e).a ≠ 0)
  | 2 => decide ((h.eng e).b ≠ 0)
  | 3 => pinIn levels (h.frCtl e F.FR_CTL_JPIN)
  | 4 => decide ((h.eng e).txc = 0)
  | 5 => (h.eng e).i
  | 6 => decide ((h.eng e).a ≠ (h.eng e).b)
  | _ => decide ((h.eng e).txq.ready h.now ≠ 0)

/-- The hub once a taken jump has counted down its register. -/
def Hub.frCounted (h : Hub) (e cond : Nat) : Hub :=
  match cond with
  | 1 => h.setEng e { h.eng e with a := (h.eng e).a - 1 }
  | 2 => h.setEng e { h.eng e with b := (h.eng e).b - 1 }
  | _ => h

theorem Hub.frJmp_eq (h : Hub) (e x levels : Nat) :
    h.frJmp e x levels = if h.frTakes e (x / 2 ^ 7 % 2 ^ 3) levels then .jump (h.frCounted e (x / 2 ^ 7 % 2 ^ 3)) (x % 2 ^ 7) else .done h := by
  unfold Hub.frJmp
  rw [bitsN_low, show bitsN x 7 3 = x / 2 ^ 7 % 2 ^ 3 from rfl]
  have hlt : x / 2 ^ 7 % 2 ^ 3 < 8 := Nat.mod_lt _ (by decide)
  generalize x / 2 ^ 7 % 2 ^ 3 = c at hlt
  interval_cases c <;> rfl

theorem Hub.frWaitp_met {h : Hub} {e x levels : Nat} (hl : pinIn levels (x % 2 ^ 6) = testBit x 6)
    (hs : testBit x 7 = false ∨ (h.eng e).saw = true) : h.frWaitp e x levels = .done h := by
  unfold Hub.frWaitp
  rw [bitsN_low]
  exact if_pos ⟨hl, hs⟩

theorem Hub.frWaitp_waits {h : Hub} {e x levels : Nat} (hl : pinIn levels (x % 2 ^ 6) ≠ testBit x 6) : h.frWaitp e x levels = .stall 1 true := by
  unfold Hub.frWaitp
  rw [bitsN_low]
  exact (if_neg fun hc => hl hc.1).trans (congrArg (FrRes.stall 1) (by rw [bne_iff_ne.2 hl, Bool.or_true]))

theorem Hub.frWaitf_eq (h : Hub) (e x : Nat) :
    let b := flagBit (e / 4) (x % 2 ^ 5)
    h.frWaitf e x = if testBit h.flagsNow b = testBit x 5 then
      .done (if testBit x 6 && testBit x 5 then h.flagChange ⟨e, b, 1⟩ else h) else .stall 2 false := by
  unfold Hub.frWaitf
  rw [bitsN_low]

theorem Hub.frSho_shifts {h : Hub} {e x : Nat} (ha : h.frCtlB e F.FR_CTL_AUTOFETCH = false ∨ (h.eng e).txc ≠ 0) :
    let n := x % 2 ^ 3 + 1
    let k := h.each n fun h j => h.frShiftOut e j
    h.frSho e x = .done (k.setEng e { k.eng e with txc := (k.eng e).txc - n }) := by
  unfold Hub.frSho
  rw [bitsN_low]
  exact if_neg (by rcases ha with h1 | h1 <;> simp [h1])

/-- The hub once the bits of a `SHI` are in. -/
def Hub.frShifted (h : Hub) (e x levels : Nat) : Hub :=
  let n := x % 2 ^ 3 + 1
  let k := h.each n fun h j => h.frShiftIn e levels j
  k.setEng e { k.eng e with rxc := min ((h.eng e).rxc + n) 32 }

theorem Hub.frShi_keeps {h : Hub} {e x : Nat} (levels : Nat)
    (hp : h.frCtlB e F.FR_CTL_AUTOPOST = false ∨ min ((h.eng e).rxc + (x % 2 ^ 3 + 1)) 32 < h.postAt e) :
    h.frShi e x levels = .done (h.frShifted e x levels) := by
  have hpost : (h.frCtlB e F.FR_CTL_AUTOPOST && decide (h.postAt e ≤ min ((h.eng e).rxc + (x % 2 ^ 3 + 1)) 32)) = false := by
    rcases hp with h1 | h1
    · simp [h1]
    · simp only [Bool.and_eq_false_imp, decide_eq_false_iff_not]; omega
  unfold Hub.frShi
  simp only [bitsN_low, hpost, Bool.false_and, Bool.false_eq_true, if_false]
  rfl

theorem Hub.frShi_posts {h : Hub} {e x : Nat} (levels : Nat) (ha : h.frCtlB e F.FR_CTL_AUTOPOST = true)
    (hp : h.postAt e ≤ min ((h.eng e).rxc + (x % 2 ^ 3 + 1)) 32) (hq : h.frNoRx e = false) (hc : h.frRxCredit e = true) :
    h.frShi e x levels = .done ((h.frShifted e x levels).frPost e) := by
  unfold Hub.frShi
  simp only [bitsN_low, ha, hp, hq, hc, decide_true, Bool.and_false, Bool.not_true, Bool.and_true, Bool.false_eq_true, if_false, if_true]
  rfl

theorem Hub.frFetchI_item {h : Hub} {e x : Nat} {w : Word} {r : List Word} (hq : h.frNoTx e = false) (hi : (h.eng e).txq.items = w :: r)
    (hr : (h.eng e).txq.ready h.now ≠ 0) :
    let n := h.pullBits e
    let t := w &&& word (2 ^ n - 1)
    let k := (h.setEng e { h.eng e with txq := (h.eng e).txq.drop1 h.now }).count (Reg.FR_CNT_TX_WORDS e)
    h.frFetchI e x = .done (k.setEng e { k.eng e with
      txs := if k.frCtlB e F.FR_CTL_TX_MSB then t <<< (32 - n) else t, txc := n, i := false }) := by
  unfold Hub.frFetchI Hub.frFetch
  simp only [hq, hi, hr, Bool.false_eq_true, if_false]

/-- The operation that a `MOV` does on its source. -/
def movValue (op : Nat) (src : Word) : Word :=
  match op with
  | 1 => ~~~ src
  | 2 => revWord src
  | _ => src

theorem movValue_eq (op : Nat) (src : Word) : movValue op src = if op = 1 then ~~~ src else if op = 2 then revWord src else src := by
  unfold movValue
  split <;> simp_all

/-- The hub once a `MOV` has put a value in its destination. -/
def Hub.frMoved (h : Hub) (e dst : Nat) (v : Word) : Hub :=
  match dst with
  | 0 => h.setEng e { h.eng e with a := v }
  | 1 => h.setEng e { h.eng e with b := v }
  | 2 => h.setEng e { h.eng e with txs := v, txc := h.pullBits e }
  | 3 => h.setEng e { h.eng e with rxs := v }
  | 4 => h.frOut e false v.toNat 32
  | 5 => h.frOut e true v.toNat 32
  | _ => h

theorem Hub.frMov_from {h : Hub} {e x : Nat} (levels : Nat) {src : Word}
    (hs : (x % 2 ^ 3 = 0 ∧ src = 0) ∨ (x % 2 ^ 3 = 1 ∧ src = (h.eng e).a) ∨ (x % 2 ^ 3 = 2 ∧ src = (h.eng e).b) ∨
      (x % 2 ^ 3 = 3 ∧ src = (h.eng e).txs) ∨ (x % 2 ^ 3 = 4 ∧ src = (h.eng e).rxs)) :
    h.frMov e x levels = .done (h.frMoved e (x / 2 ^ 3 % 2 ^ 3) (movValue (x / 2 ^ 6 % 2 ^ 2) src)) := by
  unfold Hub.frMov
  rw [bitsN_low]
  rcases hs with ⟨e1, rfl⟩ | ⟨e1, rfl⟩ | ⟨e1, rfl⟩ | ⟨e1, rfl⟩ | ⟨e1, rfl⟩ <;> rw [e1] <;> rfl

theorem Hub.frWaitMet_waitp {h : Hub} {e x : Nat} (levels : Nat) (hr : (h.eng e).run = true) (hs : (h.eng e).stall ≠ 0)
    (hc : (h.eng e).cyc ≤ h.frCycle e) (hx : h.frWord e (h.eng e).pc = x) (ho : x / 2 ^ 12 = 2) :
    h.frWaitMet e levels = h.frFinish e x (h.frWaitp e x levels) := by
  unfold Hub.frWaitMet
  simp only [hx]
  rw [if_pos ⟨hr, hs, hc⟩]
  simp only [ho]

/-- Settles O24, instruction by instruction. -/
theorem fretInstructions : Obligations.FretInstructions := by
  unfold Obligations.FretInstructions
  refine ⟨fun s e x hh ha => ?_, fun s e x levels => ?_, fun s e x levels hh ha => ?_, fun s e x => ?_, fun s e x => ?_,
    fun s e x levels => ?_, fun s e x w r => ?_, fun s e x hh ha hq => ?_, fun s e x hh ha => ?_, fun s e x hh ha => ?_,
    fun s e x levels src => ?_, fun s e x => ?_, fun s e x hh ha => ?_, fun s e x levels => ?_⟩
  · refine makes_on (fun h => h.frRun e 0 fun _ x => .hold (bitsN x 0 10)) hh rfl ((Hub.frRun_at _ ha).trans ?_)
    rw [bitsN_low]
    rfl
  · intro g cond taken k hh ha
    have hj : s.hub.frJmp e x levels.toNat = if taken then .jump k (x % 2 ^ 7) else .done s.hub := s.hub.frJmp_eq e x levels.toNat
    refine makes_on (fun h => h.frRun e 1 fun h x => h.frJmp e x levels.toNat) hh rfl ?_
    clear_value taken k
    cases taken
    · exact Hub.frRun_done ha hj
    · exact Hub.frRun_jump ha hj
  · have hrun : ∀ {h'}, _ → Makes (.waitp e levels) s h' := makes_on (fun h => h.frRun e 2 fun h x => h.frWaitp e x levels.toNat) hh rfl
    exact ⟨fun hl hs => hrun (Hub.frRun_done ha (Hub.frWaitp_met hl hs)), fun hl => hrun (Hub.frRun_stall ha (Hub.frWaitp_waits hl))⟩
  · intro b hh ha
    have hrun : ∀ {h'}, _ → Makes (.waitf e) s h' := makes_on (fun h => h.frRun e 3 fun h x => h.frWaitf e x) hh rfl
    have hw := s.hub.frWaitf_eq e x
    exact ⟨fun hf => hrun (Hub.frRun_done ha (hw.trans (if_pos hf))), fun hf => hrun (Hub.frRun_stall ha (hw.trans (if_neg hf)))⟩
  · intro n h hh ha hf
    exact makes_on (fun h => h.frRun e 4 fun h x => h.frSho e x) hh rfl (Hub.frRun_done ha (Hub.frSho_shifts hf))
  · intro n c h k hh ha
    have hrun : ∀ {h'}, _ → Makes (.shi e levels) s h' := makes_on (fun h => h.frRun e 5 fun h x => h.frShi e x levels.toNat) hh rfl
    exact ⟨fun hp => hrun (Hub.frRun_done ha (Hub.frShi_keeps _ hp)),
      fun h1 h2 h3 h4 => hrun (Hub.frRun_done ha (Hub.frShi_posts _ h1 h2 h3 h4))⟩
  · intro g n t k hh ha hq hi hr
    exact makes_on (fun h => h.frRun e 6 fun h x => h.frFetchI e x) hh rfl (Hub.frRun_done ha (Hub.frFetchI_item hq hi hr))
  · have hrun : ∀ {h'}, _ → Makes (.post e) s h' := makes_on (fun h => h.frRun e 7 fun h x => h.frPostI e x) hh rfl
    have hpost : s.hub.frPostI e x = if s.hub.frRxCredit e then .done (s.hub.frPost e) else if testBit x 0 then .done (s.hub.frLose e)
        else .stall 4 false := if_neg (by simp [hq])
    exact ⟨fun hc => hrun (Hub.frRun_done ha (hpost.trans (if_pos hc))),
      fun hc hb => hrun (Hub.frRun_done ha (hpost.trans ((if_neg (by simp [hc])).trans (if_pos hb)))),
      fun hc hb => hrun (Hub.frRun_stall ha (hpost.trans ((if_neg (by simp [hc])).trans (if_neg (by simp [hb])))))⟩
  · refine makes_on (fun h => h.frRun e 8 fun h x => h.frSetp e x) hh rfl (Hub.frRun_done ha ?_)
    rw [Hub.frSetp, bitsN_low]
  · refine makes_on (fun h => h.frRun e 9 fun h x => h.frLdi e x) hh rfl (Hub.frRun_done ha ?_)
    rw [Hub.frLdi, bitsN_low]
  · intro g v hh ha hs fin
    have hm := Hub.frMov_from levels.toNat hs
    rw [movValue_eq] at hm
    have hrun : Makes (.mov e levels) s (fin (s.hub.frMoved e (x / 2 ^ 3 % 2 ^ 3) v)) :=
      makes_on (fun h => h.frRun e 10 fun h x => h.frMov e x levels.toNat) hh rfl (Hub.frRun_done ha hm)
    refine ⟨fun hd => ?_, fun hd => ?_, fun hd => ?_, fun hd => ?_, fun hd => ?_, fun hd => ?_⟩ <;> rw [hd] at hrun <;> exact hrun
  · intro k hh ha
    refine makes_on (fun h => h.frRun e 11 fun h x => h.frFlag e x) hh rfl (Hub.frRun_done ha ?_)
    rw [Hub.frFlag, bitsN_low]
    rfl
  · exact makes_on (fun h => h.frRun e 12 fun h _ => .halt h) hh rfl (Hub.frRun_halt ha rfl)
  · intro g hh hr hs hc hx ho
    have hrun : ∀ {h'}, _ → Makes (.fretWaitMet e levels) s h' := fun he =>
      makes_on (fun h => h.frWaitMet e levels.toNat) hh rfl ((Hub.frWaitMet_waitp _ hr hs hc hx ho).trans he)
    refine ⟨fun hl hw => hrun ?_, fun hl => hrun ?_⟩
    · rw [Hub.frWaitp_met hl hw, Hub.frFinish_done]
    · rw [Hub.frWaitp_waits hl, Hub.frFinish_stall]

end Sys2Proof.Machine

/-! The host's accesses to Fret queues, programs and flags, and the Fret commands (R107, R113, R116, R121 to R125). -/

namespace Sys2Proof.Machine

/-! ## Queues, programs and flags -/

theorem Hub.frTxPush_credit {h : Hub} {e : Nat} (x : Word) (hc : 0 < (h.eng e).txq.credit h.now (h.frTxCap e)) :
    (h.frTxPush e x).2 = (h.setEng e { h.eng e with txq := (h.eng e).txq.push h.now x }).snoopBytes 4 e 1 (beBytes 4 x.toNat) := by
  unfold Hub.frTxPush
  dsimp only
  rw [if_pos hc]

theorem Hub.frTxPush_full {h : Hub} {e : Nat} (x : Word) (hc : (h.eng e).txq.credit h.now (h.frTxCap e) = 0) :
    (h.frTxPush e x).2 = h.frEvt e F.FR_EVT_CREDIT_OVERRUN := by
  unfold Hub.frTxPush
  dsimp only
  rw [if_neg (by omega)]

theorem Hub.frHostPop_item {h : Hub} {e : Nat} {x : Word} {r : List Word} (hp : h.fld (Reg.FR_RXQ_CFG e) F.FR_RXQ_CFG_PEER ≠ 0)
    (hi : (h.eng e).rxq.items = x :: r) (hr : (h.eng e).rxq.ready h.now ≠ 0) :
    h.frHostPop e = (x, h.setEng e { h.eng e with rxq := (h.eng e).rxq.drop1 h.now }) := by
  unfold Hub.frHostPop
  dsimp only
  rw [if_neg hp]
  simp only [hi, hr, if_false]

theorem Hub.frHostPop_idle {h : Hub} {e : Nat} (hp : h.fld (Reg.FR_RXQ_CFG e) F.FR_RXQ_CFG_PEER ≠ 0) (hi : (h.eng e).rxq.items = []) :
    h.frHostPop e = (h.rd (Reg.FR_RXQ_IDLE e), h) := by
  unfold Hub.frHostPop
  dsimp only
  rw [if_neg hp]
  simp only [hi]

theorem Hub.frProgWrite_idle {h : Hub} {k i : Nat} (w : Word) (hr : ∀ e ∈ h.frCovering k i, (h.eng e).run = false) :
    h.frProgWrite k i w =
      (h.frCovering k i).foldl (fun h e => h.setFld (Reg.FR_PROG e) F.FR_PROG_VALID 0) (h.wr (Reg.FRET_INSTR k i) (w &&& 0xFFFF)) := by
  have hlive : (h.frCovering k i).filter (fun e => (h.eng e).run) = [] := List.filter_eq_nil_iff.2 fun e he => by simp [hr e he]
  unfold Hub.frProgWrite
  simp only [hlive]

theorem below_pow {i : Nat} (hi : i < 16) : below 16 (testBit (word (2 ^ i)).toNat) = [i] := by
  interval_cases i <;> decide

theorem Hub.flagsWrite_one (h : Hub) (k op : Nat) {i : Nat} (hi : i < 16) : h.flagsWrite k op (word (2 ^ i)) = h.flagChange ⟨32, 16 * k + i, op⟩ := by
  unfold Hub.flagsWrite
  rw [below_pow hi]
  rfl

/-- A flag changed in a cycle is seen changed from the next cycle on. -/
theorem Hub.flagChange_seen {h : Hub} (o : FlagOp) (hc : h.fret.flagCyc ≠ h.fretCyc) :
    (h.flagChange o).flagsNow = h.flagsNow ∧ ({ h.flagChange o with now := h.now + 200 } : Hub).flagsNow = flagDo h.flagsNow o := by
  have hcyc : (h.now + 200) / 200 = h.fretCyc + 1 := Nat.add_div_right _ (by decide)
  refine ⟨if_pos rfl, ?_⟩
  unfold Hub.flagChange
  rw [if_neg hc]
  unfold Hub.flagsNow Hub.fretCyc
  refine (if_neg ?_).trans rfl
  show h.fretCyc ≠ (h.now + 200) / 200
  omega

/-! ## Commands -/

theorem maskEngines_one (k : Nat) {j m : Nat} (hj : j < 4) (hm : m = 2 ^ j) : maskEngines k m = [4 * k + j] := by
  subst hm
  unfold maskEngines
  interval_cases j <;> rfl

theorem runFretLoad_ok {h : Hub} {src : CmdSrc} {tag : Byte} {ew lo hi entry : Word} (he : ew.toNat < 32) (hr : (h.eng ew.toNat).run = false)
    (h1 : lo.toNat ≤ entry.toNat) (h2 : entry.toNat ≤ hi.toNat) (h3 : hi.toNat ≤ 127)
    (hw : ∀ i, lo.toNat ≤ i → i ≤ hi.toNat → frWordOk lo.toNat hi.toNat (h.frWord ew.toNat i) = true) :
    let e := ew.toNat
    runFretLoad h (mkCmd src 0x0501 tag [ew, lo, hi, entry]) =
      .done ((h.wr (Reg.FR_PROG e) (word (lo.toNat + hi.toNat * 2 ^ 8 + entry.toNat * 2 ^ 16 + 2 ^ 31))).setEng e { h.eng e with
        txs := 0, rxs := 0, txc := 0, rxc := 0, a := 0, b := 0, i := false, pc := entry.toNat }) [] := by
  have e1 : (mkCmd src 0x0501 tag [ew, lo, hi, entry]).arg 1 = ew.toNat := rfl
  have e2 : (mkCmd src 0x0501 tag [ew, lo, hi, entry]).arg 2 = lo.toNat := rfl
  have e3 : (mkCmd src 0x0501 tag [ew, lo, hi, entry]).arg 3 = hi.toNat := rfl
  have e4 : (mkCmd src 0x0501 tag [ew, lo, hi, entry]).arg 4 = entry.toNat := rfl
  have hall : ((List.range (hi.toNat + 1 - lo.toNat)).all fun i => frWordOk lo.toNat hi.toNat (h.frWord ew.toNat (lo.toNat + i))) = true :=
    List.all_eq_true.2 fun i hi' => hw _ (by omega) (by have := List.mem_range.1 hi'; omega)
  unfold runFretLoad
  simp only [e1, e2, e3, e4]
  rw [if_neg (by rw [zeroFrom_mkCmd _ _ _ _ 5 rfl]; simp; omega), if_neg (by simp [hr]), if_pos ⟨h1, h2, h3, hall⟩]

theorem Hub.frDrive_same {h old : Hub} (k : Nat) (hl : h.fret.lvl = old.fret.lvl) (hd : h.fret.dir = old.fret.dir) : h.frDrive old k = h :=
  if_pos ⟨by rw [hl], by rw [hd]⟩

theorem runFretStart_one {h : Hub} {src : CmdSrc} {tag : Byte} {kw m : Word} {j : Nat} (hk : kw.toNat < 8) (hj : j < 4) (hm : m.toNat = 2 ^ j)
    (h1 : h.frCfgOk (4 * kw.toNat + j) = true) (h2 : h.frCanStart (4 * kw.toNat + j) = true)
    (h3 : h.frCtlB (4 * kw.toNat + j) F.FR_CTL_STROBE_EN = false) :
    let e := 4 * kw.toNat + j
    runFretStart h (mkCmd src 0x0502 tag [kw, m]) = .done (h.setEng e { h.eng e with
      run := true, startAt := h.fretCyc * 200, cyc := 0, stall := 0, saw := false, holding := false }) [] := by
  have e1 : (mkCmd src 0x0502 tag [kw, m]).arg 1 = kw.toNat := rfl
  have e2 : (mkCmd src 0x0502 tag [kw, m]).arg 2 = m.toNat := rfl
  have hlt : m.toNat < 16 := hm ▸ Nat.pow_lt_pow_right (m := j) (n := 4) (by decide) hj
  have hstrobe : ∀ x, (h.setEng (4 * kw.toNat + j) x).frCtlB (4 * kw.toNat + j) F.FR_CTL_STROBE_EN = false := fun x => h3
  unfold runFretStart
  simp only [e1, e2]
  rw [if_neg (by rw [zeroFrom_mkCmd _ _ _ _ 3 rfl]; simp; omega), maskEngines_one _ hj hm]
  simp only [List.find?_cons, h1, h2, Bool.not_true, List.find?_nil, List.foldl_cons, List.foldl_nil, hstrobe, Bool.false_eq_true, if_false]
  exact congrArg (fun k => Ack.done k []) (Hub.frDrive_same _ rfl rfl)

theorem runFretStop_one {h : Hub} {src : CmdSrc} {tag : Byte} {kw m : Word} {j : Nat} (hk : kw.toNat < 8) (hj : j < 4) (hm : m.toNat = 2 ^ j)
    (hr : (h.eng (4 * kw.toNat + j)).run = true) :
    let e := 4 * kw.toNat + j
    runFretStop h (mkCmd src 0x0503 tag [kw, m]) = .done (h.setEng e { h.eng e with stopping := true, stopCyc := h.fretCyc + 1 }) [] := by
  have e1 : (mkCmd src 0x0503 tag [kw, m]).arg 1 = kw.toNat := rfl
  have e2 : (mkCmd src 0x0503 tag [kw, m]).arg 2 = m.toNat := rfl
  have hlt : m.toNat < 16 := hm ▸ Nat.pow_lt_pow_right (m := j) (n := 4) (by decide) hj
  unfold runFretStop
  simp only [e1, e2]
  rw [if_neg (by rw [zeroFrom_mkCmd _ _ _ _ 3 rfl]; simp; omega), maskEngines_one _ hj hm]
  simp only [List.find?_cons, hr, Bool.not_true, List.find?_nil, List.foldl_cons, List.foldl_nil]

theorem Hub.frSettle_not_holding {h : Hub} {e : Nat} (hh : (h.eng e).holding = false) : h.frSettle e = h := if_neg (by simp [hh])

theorem Hub.frTick_stopping {h : Hub} {e : Nat} (hs : (h.eng e).stopping = true) (hh : (h.eng e).holding = false) :
    h.frTick e = if (h.eng e).stopCyc ≤ h.fretCyc then (h.setEng e { h.eng e with
      run := false, stall := 0, saw := false, holding := false, stopping := false, cause := 1 }).evt (Reg.FR_EVT e) F.FR_EVT_STOPPED else h := by
  unfold Hub.frTick Hub.frStopEng
  simp only [Hub.frSettle_not_holding hh, hs, Bool.true_and, decide_eq_true_eq]
  rfl

theorem runFretFlush_both {h : Hub} {src : CmdSrc} {tag : Byte} {ew m : Word} (he : ew.toNat < 32) (hm : m.toNat = 3)
    (hr : (h.eng ew.toNat).run = false) :
    let e := ew.toNat
    let g := h.eng e
    runFretFlush h (mkCmd src 0x0504 tag [ew, m]) =
      .done ((((h.setEng e { g with rxq := g.rxq.flushed }).setFld (Reg.FR_RXQ_STAT e) F.FR_RXQ_STAT_WM_CROSS 0).setEng e
        { g with rxq := g.rxq.flushed, txq := g.txq.flushed }).setFld (Reg.FR_TXQ_STAT e) F.FR_TXQ_STAT_WM_CROSS 0) [] := by
  have e1 : (mkCmd src 0x0504 tag [ew, m]).arg 1 = ew.toNat := rfl
  have e2 : (mkCmd src 0x0504 tag [ew, m]).arg 2 = m.toNat := rfl
  have hl : ((h.setEng ew.toNat { h.eng ew.toNat with rxq := (h.eng ew.toNat).rxq.flushed }).setFld (Reg.FR_RXQ_STAT ew.toNat)
      F.FR_RXQ_STAT_WM_CROSS 0).eng ew.toNat = { h.eng ew.toNat with rxq := (h.eng ew.toNat).rxq.flushed } := Hub.eng_setEng_same _ _ _
  unfold runFretFlush Hub.frFlush
  simp only [e1, e2]
  rw [if_neg (by rw [zeroFrom_mkCmd _ _ _ _ 3 rfl]; simp; omega), if_neg (by simp [hr]), if_pos (mask_3 hm).1, if_pos (mask_3 hm).2, hl]

/-- What a `FRET_LOAD` gives whose program registers take the word `prog`. -/
theorem fretLoad_gives {s : State} {src : CmdSrc} {tag : Byte} {ew lo hi entry prog : Word} {y : Eng} (he : ew.toNat < 32)
    (ha : Accepts s (mkCmd src 0x0501 tag [ew, lo, hi, entry]))
    (hrun : runFretLoad s.hub (mkCmd src 0x0501 tag [ew, lo, hi, entry]) = .done ((s.hub.wr (Reg.FR_PROG ew.toNat) prog).setEng ew.toNat y) []) :
    let c := mkCmd src 0x0501 tag [ew, lo, hi, entry]
    Gives (.fretLoad src tag ew lo hi entry) s fun t => Answered c sOK [] s t ∧ CmdOnly [.fret] [Reg.FR_PROG ew.toNat] c s t ∧
      t.hub.rd (Reg.FR_PROG ew.toNat) = prog ∧ t.hub.fret = (s.hub.setEng ew.toNat y).fret := by
  intro c
  refine gives_done (fun h => h.accept c runFretLoad) [.fret] [Reg.FR_PROG ew.toNat] rfl ha (accept_done ha hrun)
    (by simp) rfl (fun p hp => by cases p <;> first | rfl | simp at hp) rfl (fun a hna => Hub.rd_wr_ne _ _ (by simpa using hna))
    (fun q => by simp [Reg.HQ_RSP, Reg.FR_PROG]; omega) fun k hk hkr => ⟨?_, hk .fret (by decide) (by decide)⟩
  exact (hkr _ (not_ackRegs c s (by simp only [Reg.FR_PROG]; omega))).trans (Hub.rd_wr_same _ _ _)

/-- Settles O25. -/
theorem fretCommandsAndQueues : Obligations.FretCommandsAndQueues := by
  unfold Obligations.FretCommandsAndQueues
  refine ⟨fun s e x => ?_, fun s e => ?_, fun s e w => ?_, fun s k i w hh hr => ?_, fun s k i hh hi => ?_, fun h o hc => Hub.flagChange_seen o hc,
    fun s src tag ew lo hi entry => ?_, fun s src tag kw m j => ?_, fun s src tag kw m j => ?_, fun h e hs hh => ?_, fun s src tag ew m => ?_⟩
  · intro g hh hp
    have hrun : ∀ {h'}, _ → Makes (.frTxqPush e x) s h' := fun he => makes_on (fun h => h.frHostPush e x) hh rfl ((if_neg hp).trans he)
    exact ⟨fun hc => hrun (Hub.frTxPush_credit x hc), fun hc => hrun (Hub.frTxPush_full x hc)⟩
  · intro g hh hp
    have hrun : ∀ {r : Word × Hub}, s.hub.frHostPop e = r → Makes (.frRxqPop e) s (r.2.emit (.words [r.1])) := fun he =>
      makes_on (fun h => let r := h.frHostPop e; r.2.emit (.words [r.1])) hh rfl (by simp only [he])
    exact ⟨fun x r hi hr => hrun (Hub.frHostPop_item hp hi hr), fun hi => hrun (Hub.frHostPop_idle hp hi)⟩
  · intro k hh hr
    refine makes_on (fun h => h.frCtlWrite e w) hh rfl ?_
    unfold Hub.frCtlWrite
    simp only [hr]
    rfl
  · exact makes_on (fun h => h.frProgWrite k i w) hh rfl (Hub.frProgWrite_idle w hr)
  · exact ⟨makes_on (fun h => h.flagsWrite k 0 (word (2 ^ i))) hh rfl (Hub.flagsWrite_one _ _ _ hi),
      makes_on (fun h => h.flagsWrite k 1 (word (2 ^ i))) hh rfl (Hub.flagsWrite_one _ _ _ hi)⟩
  · intro c e g ha he hr h1 h2 h3 hw
    exact fretLoad_gives he ha (runFretLoad_ok he hr h1 h2 h3 hw)
  · intro c e ha hk hj hm h1 h2 h3
    exact gives_done (fun h => h.accept c runFretStart) [.fret] [] rfl ha (accept_done ha (runFretStart_one hk hj hm h1 h2 h3)) (by simp) rfl
      (fun p hp => by cases p <;> first | rfl | simp at hp) rfl (fun _ _ => rfl) (fun q => by simp)
      fun k hk _ => hk .fret (by decide) (by decide)
  · intro c e ha hk hj hm hr
    exact gives_done (fun h => h.accept c runFretStop) [.fret] [] rfl ha (accept_done ha (runFretStop_one hk hj hm hr)) (by simp) rfl
      (fun p hp => by cases p <;> first | rfl | simp at hp) rfl (fun _ _ => rfl) (fun q => by simp)
      fun k hk _ => hk .fret (by decide) (by decide)
  · rw [Hub.frTick_stopping hs hh]
    exact ⟨fun hlt => if_neg (by omega), fun hle => if_pos hle⟩
  · intro c e g ha he hm hr
    have hne : Reg.FR_TXQ_STAT e ≠ Reg.FR_RXQ_STAT e := by simp [Reg.FR_TXQ_STAT, Reg.FR_RXQ_STAT]
    refine gives_done (fun h => h.accept c runFretFlush) [.fret] [Reg.FR_RXQ_STAT e, Reg.FR_TXQ_STAT e] rfl ha
      (accept_done ha (runFretFlush_both he hm hr)) (by simp) rfl (fun p hp => by cases p <;> first | rfl | simp at hp) rfl (fun a hna => ?_)
      (fun q => by simp [Reg.HQ_RSP, Reg.FR_RXQ_STAT, Reg.FR_TXQ_STAT]; omega) fun k hk hkr => ?_
    · simp only [List.mem_cons, List.not_mem_nil, or_false, not_or] at hna
      exact (Hub.rd_setFld_ne _ _ _ hna.2).trans (Hub.rd_setFld_ne _ _ _ hna.1)
    · have heng : ∀ d, k.eng d = _ := fun d => Hub.eng_congr (congrArg FretBlk.eng (hk .fret (by decide) (by decide))) d
      refine ⟨?_, ?_, (heng e).trans (Hub.eng_setEng_same _ _ _), fun d hd => (heng d).trans ?_⟩
      · rw [Hub.fld_of_rd _ (hkr _ (not_ackRegs c s (by simp only [Reg.FR_RXQ_STAT]; omega))),
          Hub.fld_of_rd _ (Hub.rd_setFld_ne _ _ _ hne.symm)]
        exact Hub.fld_setFld _ _ _ _ (by decide)
      · rw [Hub.fld_of_rd _ (hkr _ (not_ackRegs c s (by simp only [Reg.FR_TXQ_STAT]; omega)))]
        exact Hub.fld_setFld _ _ _ _ (by decide)
      · exact ((Hub.eng_setEng _ e d _).trans (if_neg hd)).trans ((Hub.eng_setEng _ e d _).trans (if_neg hd))

end Sys2Proof.Machine

/-! CAN controllers (R133 to R151). -/

namespace Sys2Proof.Machine

theorem Hub.can1_setCan_ne (h : Hub) {n m : Nat} (x : CanCtl) (hm : m ≠ n) : (h.setCan n x).can1 m = h.can1 m :=
  (Hub.can1_setCan h n m x).trans (if_neg hm)

/-! ## Commands -/

theorem runCanStart_ok {h : Hub} {src : CmdSrc} {tag : Byte} {w : Word} (hn : w.toNat < 16) (hc : h.canCfgOk w.toNat = true)
    (hst : (h.can1 w.toNat).st = .stopped) : runCanStart h (mkCmd src 0x0701 tag [w]) = .done (h.canTo w.toNat .syncing) [] := by
  have e1 : (mkCmd src 0x0701 tag [w]).arg 1 = w.toNat := rfl
  unfold runCanStart
  simp only [e1]
  rw [if_neg (by rw [zeroFrom_mkCmd _ _ _ _ 2 rfl, hc]; simp; omega), if_neg (by simp [hst])]

theorem runCanRecover_ok {h : Hub} {src : CmdSrc} {tag : Byte} {w : Word} (hn : w.toNat < 16) (hst : (h.can1 w.toNat).st = .busOff) :
    runCanRecover h (mkCmd src 0x0704 tag [w]) = .done (h.canTo w.toNat .recovering) [] := by
  have e1 : (mkCmd src 0x0704 tag [w]).arg 1 = w.toNat := rfl
  unfold runCanRecover
  simp only [e1]
  rw [if_neg (by rw [zeroFrom_mkCmd _ _ _ _ 2 rfl]; simp; omega), if_neg (by simp [hst])]

theorem runCanStop_busy {h : Hub} {src : CmdSrc} {tag : Byte} {w : Word} (hn : w.toNat < 16)
    (hst : (h.can1 w.toNat).st = .syncing ∨ (h.can1 w.toNat).st = .active ∨ (h.can1 w.toNat).st = .passive) :
    let c := mkCmd src 0x0702 tag [w]
    runCanStop h c = .later ((h.setCan w.toNat { h.can1 w.toNat with stopRefs := [c.ref] }).canTo w.toNat .stopping) := by
  intro c
  have e1 : c.arg 1 = w.toNat := rfl
  unfold runCanStop
  simp only [e1]
  rw [if_neg (by rw [zeroFrom_mkCmd _ _ _ _ 2 rfl]; simp; omega)]
  rcases hst with e | e | e <;> simp only [e]

theorem runCanFlush_both {h : Hub} {src : CmdSrc} {tag : Byte} {w mask : Word} (hn : w.toNat < 16) (hm : mask.toNat = 3)
    (hst : (h.can1 w.toNat).st = .stopped ∨ (h.can1 w.toNat).st = .busOff) :
    let n := w.toNat
    let x := h.can1 n
    runCanFlush h (mkCmd src 0x0703 tag [w, mask]) =
      .done ((((h.setCan n { x with rxq := [], popped := 0, mark := 0, rxc := { x.rxc with high := false } }).setFld
          (Reg.CAN_RXQ_STAT n) F.CAN_RXQ_STAT_WM_CROSS 0).setCan n
        { x with rxq := [], popped := 0, mark := 0, txq := [], part := none,
                 rxc := { x.rxc with high := false }, txc := { x.txc with high := false } }).setFld (Reg.CAN_TXQ_STAT n) F.CAN_TXQ_STAT_WM_CROSS 0) [] := by
  have e1 : (mkCmd src 0x0703 tag [w, mask]).arg 1 = w.toNat := rfl
  have e2 : (mkCmd src 0x0703 tag [w, mask]).arg 2 = mask.toNat := rfl
  have hx : ∀ y, ((h.setCan w.toNat y).setFld (Reg.CAN_RXQ_STAT w.toNat) F.CAN_RXQ_STAT_WM_CROSS 0).can1 w.toNat = y := fun y =>
    Hub.can1_setCan_same h w.toNat y
  unfold runCanFlush
  simp only [e1, e2]
  rw [if_neg (by rw [zeroFrom_mkCmd _ _ _ _ 3 rfl]; simp; omega), if_neg (by rcases hst with e | e <;> simp [e]), if_pos (mask_3 hm).1,
    if_pos (mask_3 hm).2, hx]

/-! ## Transmission -/

theorem Hub.canSift_head {h : Hub} {n j k : Nat} {y : CanTx} (hh : h.canHead n = some (j, y)) (hr : h.canRefused n y = false) :
    Hub.canSift k n h = h := by
  cases k with
  | zero => rfl
  | succ k =>
    unfold Hub.canSift
    split
    · rfl
    · simp [hh, hr]

theorem Hub.canTxStart_offers {h : Hub} {n i j : Nat} {x y : CanTx} (hst : (h.can1 n).st = .active ∨ (h.can1 n).st = .passive)
    (hc : (h.can1 n).cur = none) (hb : (h.can1 n).rxBusy = false) (hh : h.canHead n = some (j, y)) (hr : h.canRefused n y = false)
    (ho : h.canHeadOf n (h.canReady n) = some (i, x)) :
    let k := h.setCan n { h.can1 n with cur := some i, stamp := h.canShort n 0 0, rxBusy := decide (2 ≤ h.canMode n) }
    h.canTxStart n = if h.canMode n = 2 then k else k.drive (.can n x.words) := by
  have hne : h.canReady n ≠ [] := by
    intro e
    rw [e] at ho
    cases ho
  unfold Hub.canTxStart
  simp only [Hub.canSift_head hh hr, ho]
  rw [if_neg (by rcases hst with e | e <;> simp [e, hc, hb, hne])]
  rfl

section
variable {h : Hub} {n i : Nat} {x : CanTx}

theorem Hub.canTxEnd_arbLost (more : Nat) (hc : (h.can1 n).cur = some i) (hx : (h.can1 n).txq[i]? = some x) (h2 : h.canMode n ≠ 2) :
    let k := h.setRxBusy n false
    h.canTxEnd n .arbLost none more = k.setCan n { k.can1 n with cur := none, rxBusy := true } := by
  have hm : (h.setRxBusy n false).canMode n ≠ 2 := h2
  unfold Hub.canTxEnd
  simp only [hc, hx, hm, if_false]

theorem Hub.canTxEnd_ok (more : Nat) (hc : (h.can1 n).cur = some i) (hx : (h.can1 n).txq[i]? = some x) (h2 : h.canMode n ≠ 2)
    (h3 : h.canMode n ≠ 3) :
    let k := (h.setRxBusy n false).canRemove n i
    let k1 := ((k.setCan n { k.can1 n with tec := (k.can1 n).tec - 1 }).count (Reg.CAN_CNT_TX_OK n)).canEvt n F.CAN_EVT_TX_DONE
    h.canTxEnd n .ok none more = Hub.canSift canTxCap n ((k1.canComplete n x 0 (h.can1 n).stamp).canErrState n) := by
  have hm2 : (h.setRxBusy n false).canMode n ≠ 2 := h2
  have hm3 : (h.setRxBusy n false).canMode n ≠ 3 := h3
  unfold Hub.canTxEnd
  simp only [hc, hx, hm2, hm3, if_false, or_self]

end

/-! ## Reception and queues -/

theorem Hub.canHears_of {h : Hub} {n : Nat} (hst : (h.can1 n).st = .active ∨ (h.can1 n).st = .passive ∨ (h.can1 n).st = .stopping)
    (hm : h.canMode n ≠ 2) : h.canHears n = true := by
  unfold Hub.canHears
  rcases hst with e | e | e <;> simp [e, hm]

theorem Hub.canFrameRx_heard {h : Hub} {n : Nat} (w0 w1 : Word) (data : List Byte) (ago : Nat) (hh : h.canHears n = true) :
    let k := h.setRxBusy n false
    let t : Int := (h.nsAt (h.canF n F.CAN_CTL_TS_TB) (h.now / 750 * 750 - ago * 750) : Int) - (25 + toSigned 16 (h.fld (Reg.CAN_TS n) F.CAN_TS_TS_ADJ))
    h.canFrameRx n w0 w1 data ago = ((k.canRecDown n).canJudge n w0 w1 data (ofSigned 40 t)).canErrState n :=
  if_neg (by simp [hh])

theorem Hub.canPop_entry {h : Hub} {n : Nat} {ws : List Word} {rest : List (List Word)} (hq : (h.can1 n).rxq = ws :: rest)
    (hr : (h.can1 n).rxc.putNow h.now < (h.can1 n).rxq.length) :
    let c := h.can1 n
    h.canPop n = if c.popped + 1 < ws.length then (ws.getD c.popped 0, false, h.setCan n { c with popped := c.popped + 1 })
      else (ws.getD c.popped 0, false, h.setCan n { c with rxq := rest, popped := 0, mark := c.mark - 1, rxc := c.rxc.pop h.now }) := by
  rw [hq] at hr
  unfold Hub.canPop
  simp only [hq]
  exact if_neg (by omega)

/-- Settles O26. -/
theorem canControllers : Obligations.CanControllers := by
  unfold Obligations.CanControllers
  refine ⟨fun s src tag w => ?_, fun s src tag w => ?_, fun s src tag w mask => ?_, fun s src tag w => ?_, fun s n hh hst => ?_,
    fun s n hh hst => ?_, fun s n hh h1 h2 h3 => ?_, fun s n i j x y => ?_, fun s n i x more => ?_, fun s n w0 w1 data ago => ?_,
    fun s n crc dominant more => ?_, fun s n x => ?_, fun s n p => ?_, fun s n ws rest => ?_⟩
  · intro c n ha hn hc hst
    refine gives_done (fun h => h.accept c runCanStart) [.can] [Reg.CAN_EVT n] rfl ha (accept_done ha (runCanStart_ok hn hc hst)) (by simp) rfl
      (fun p hp => by cases p <;> first | rfl | simp at hp) rfl (fun a hna => Hub.rd_evt_ne _ _ (by simpa using hna))
      (fun q => by simp [Reg.HQ_RSP, Reg.CAN_EVT]; omega) fun k hk hkr => ⟨?_, hk .can (by decide) (by decide)⟩
    exact (Hub.flag_of_rd _ (hkr _ (not_ackRegs c s (by simp only [Reg.CAN_EVT]; omega)))).trans (Hub.flag_evt _ _ _ (by decide))
  · intro c n x ha hn hst
    refine gives_later (fun h => h.accept c runCanStop) [.can] [Reg.CAN_EVT n] rfl ha (accept_busy ha (runCanStop_busy hn hst)) rfl
      (fun p hp => by cases p <;> first | rfl | simp at hp) rfl (fun a hna => Hub.rd_evt_ne _ _ (by simpa using hna))
      (fun q => by simp [Reg.HQ_INPROG, Reg.CAN_EVT]; omega) fun k hk hkr => ?_
    have hcan : ∀ m, k.can1 m = _ := fun m => Hub.can1_congr (congrArg CanBlk.ctl (hk .can (by decide))) m
    refine ⟨?_, (hcan n).trans ((Hub.can1_setCan_same _ _ _).trans ?_), fun m hm => (hcan m).trans ?_⟩
    · exact (Hub.flag_of_rd _ (hkr _ fun q => by simp only [Reg.CAN_EVT, Reg.HQ_INPROG]; omega)).trans (Hub.flag_evt _ _ _ (by decide))
    · rw [Hub.can1_setCan_same]
    · exact (Hub.can1_setCan_ne _ _ hm).trans (Hub.can1_setCan_ne _ _ hm)
  · intro c n x ha hn hm hst
    refine gives_done (fun h => h.accept c runCanFlush) [.can] [Reg.CAN_RXQ_STAT n, Reg.CAN_TXQ_STAT n] rfl ha
      (accept_done ha (runCanFlush_both hn hm hst)) (by simp) rfl (fun p hp => by cases p <;> first | rfl | simp at hp) rfl (fun a hna => ?_)
      (fun q => by simp [Reg.HQ_RSP, Reg.CAN_RXQ_STAT, Reg.CAN_TXQ_STAT]; omega) fun k hk hkr => ?_
    · simp only [List.mem_cons, List.not_mem_nil, or_false, not_or] at hna
      exact (Hub.rd_setFld_ne _ _ _ hna.2).trans (Hub.rd_setFld_ne _ _ _ hna.1)
    · have hcan : ∀ m, k.can1 m = _ := fun m => Hub.can1_congr (congrArg CanBlk.ctl (hk .can (by decide) (by decide))) m
      exact ⟨(hcan n).trans (Hub.can1_setCan_same _ _ _),
        fun m hm => (hcan m).trans ((Hub.can1_setCan_ne _ _ hm).trans (Hub.can1_setCan_ne _ _ hm))⟩
  · intro c n ha hn hst
    refine gives_done (fun h => h.accept c runCanRecover) [.can] [Reg.CAN_EVT n] rfl ha (accept_done ha (runCanRecover_ok hn hst)) (by simp) rfl
      (fun p hp => by cases p <;> first | rfl | simp at hp) rfl (fun a hna => Hub.rd_evt_ne _ _ (by simpa using hna))
      (fun q => by simp [Reg.HQ_RSP, Reg.CAN_EVT]; omega) fun k hk hkr => ⟨?_, hk .can (by decide) (by decide)⟩
    exact (Hub.flag_of_rd _ (hkr _ (not_ackRegs c s (by simp only [Reg.CAN_EVT]; omega)))).trans (Hub.flag_evt _ _ _ (by decide))
  · exact makes_on (fun h => h.canIntegrated n) hh rfl (if_pos hst)
  · exact makes_on (fun h => h.canRecovered n) hh rfl (if_pos hst)
  · exact makes_on (fun h => h.canStopComplete n) hh rfl (if_pos ⟨h1, h2, h3⟩)
  · intro c k hh hst hc hb hhd hr ho
    exact makes_on (fun h => h.canTxStart n) hh rfl (Hub.canTxStart_offers hst hc hb hhd hr ho)
  · intro c k hh hc hx h2 h3
    exact ⟨makes_on (fun h => h.canTxEnd n .arbLost none more) hh rfl (Hub.canTxEnd_arbLost more hc hx h2),
      makes_on (fun h => h.canTxEnd n .ok none more) hh rfl (Hub.canTxEnd_ok more hc hx h2 h3)⟩
  · intro st k tb t hh hst hm
    have hears : s.hub.canHears n = true := Hub.canHears_of hst hm
    have hsof : ∀ {h'}, s.hub.canSofRx n = h' → Makes (.canFrameRx n w0 w1 data .start) s h' := makes_on (fun h => h.canSofRx n) hh rfl
    refine ⟨makes_on (fun h => h.canFrameRx n w0 w1 data ago) hh rfl (Hub.canFrameRx_heard w0 w1 data ago hears), fun hc => hsof (if_pos ?_),
      fun hc => hsof (if_neg ?_)⟩
    · simp [hears, hc]
    · simp [hears, hc]
  · intro c h hh
    refine ⟨fun hst hm hc => makes_on (fun h => h.canRxError n crc dominant more) hh rfl (if_neg ?_),
      fun hm => makes_on (fun h => h.canRxError n crc dominant more) hh rfl (if_pos (.inl ?_))⟩
    · rw [Hub.canHears_of hst hm]
      simp [show (s.hub.can1 n).cur = none from hc]
    · simp [Hub.canHears, hm]
  · intro c hh hp hpart hc
    refine makes_on (fun h => h.canHostPush n x) hh rfl ((if_neg hp).trans ?_)
    unfold Hub.canTxPush
    simp only [show (s.hub.can1 n).part = none from hpart, if_pos (show (s.hub.can1 n).txq.length + (s.hub.can1 n).txc.fresh s.hub.now < canTxCap from hc)]
    rfl
  · intro c hh hpart hp ht hd
    refine makes_on (fun h => h.canEntryTimeout n) hh rfl ?_
    unfold Hub.canEntryTimeout Hub.canAbandon
    simp only [show (s.hub.can1 n).part = some p from hpart, if_pos (And.intro hp ht), hd]
    rfl
  · intro c hh hp hq hr
    have hrun : ∀ {r : Word × Bool × Hub}, s.hub.canPop n = r → Makes (.canRxqPop n) s (r.2.2.emit (.words [r.1])) := fun he =>
      makes_on (fun h => let r := h.canHostPop n; r.2.emit (.words [r.1])) hh rfl (by simp only [Hub.canHostPop, if_neg hp, he])
    exact ⟨fun hlt => hrun ((Hub.canPop_entry hq hr).trans (if_pos hlt)), fun hle => hrun ((Hub.canPop_entry hq hr).trans (if_neg (Nat.not_lt.2 hle)))⟩

end Sys2Proof.Machine

/-! The Carousel's arithmetic (R187, R190, R191). -/

namespace Sys2Proof.Machine

/-! ## Values and flags -/

theorem addFlags_val (a b : Word) : (addFlags a b false).val = a + b := BitVec.add_zero (a + b)

theorem addFlags_c (a b : Word) : (addFlags a b false).c = some (decide (2 ^ 32 ≤ a.toNat + b.toNat)) := rfl

theorem subFlags_val (a b : Word) : (subFlags a b true).val = a - b := by
  show a + ~~~ b + 1 = a - b
  rw [BitVec.sub_eq_add_neg, BitVec.neg_eq_not_add, ← BitVec.add_assoc]
  rfl

/-- There is no borrow exactly where the subtrahend is not the larger. -/
theorem subFlags_c (a b : Word) : (subFlags a b true).c = some (decide (b.toNat ≤ a.toNat)) := by
  have hnot : (~~~ b).toNat = 2 ^ 32 - 1 - b.toNat := BitVec.toNat_not
  have hb : b.toNat < 2 ^ 32 := b.isLt
  have ha : a.toNat < 2 ^ 32 := a.isLt
  show some (decide (2 ^ 32 ≤ a.toNat + (~~~ b).toNat + 1)) = _
  rw [hnot]
  exact congrArg some (decide_eq_decide.2 (by omega))

theorem shift_parameter {k : Nat} (hk : k < 32) : testBit (32 + k) 5 = true ∧ (32 + k) % 32 = k := by
  refine ⟨?_, by omega⟩
  interval_cases k <;> rfl

theorem toNat_mulu (a b : Word) : (word (a.toNat % 65536 * (b.toNat % 65536))).toNat = a.toNat % 65536 * (b.toNat % 65536) := by
  have ha : a.toNat % 65536 ≤ 65535 := by omega
  have hb : b.toNat % 65536 ≤ 65535 := by omega
  have := Nat.mul_le_mul ha hb
  exact Nat.mod_eq_of_lt (by omega)

/-! ## The rows of the ALU group and of the immediate forms -/

theorem Hub.isaAlu_at {h : Hub} {c op : Nat} {i : Word} (ha : h.ctxAt c (0, op) i) :
    let x := h.ctxNow c
    let r := aluOp op (x.reg (fRs1 i)) (x.reg (fRs2 i)) x.c (fFn i % 1024)
    h.isaAlu c op = ((h.ctxSees c).setCtx c ((x.flags r).set (fRd i) r.val)).ctxDone c 1 := by
  rw [Hub.isaAlu, Hub.issue_at _ ha, Hub.isaFinish_put]

theorem Hub.isaImm_at {h : Hub} {c op : Nat} {i : Word} {f : Word → Word → AluOut} (ha : h.ctxAt c (op, 0) i) :
    let x := h.ctxNow c
    let r := f (x.reg (fRs1 i)) i
    h.isaImm c op f = ((h.ctxSees c).setCtx c ((x.flags r).set (fRd i) r.val)).ctxDone c 1 := by
  rw [Hub.isaImm, Hub.issue_at _ ha, Hub.isaFinish_put]

/-- The rows of the ALU group with their operations. -/
def aluRows : List ((Byte → Instr) × Nat) :=
  [(Instr.add, 0), (Instr.sub, 1), (Instr.adc, 2), (Instr.sbc, 3), (Instr.and, 4), (Instr.or, 5), (Instr.xor, 6), (Instr.shl, 7),
    (Instr.shr, 8), (Instr.sar, 9), (Instr.mulu, 10), (Instr.muls, 11), (Instr.clz, 12), (Instr.bfx, 13), (Instr.bfxs, 14), (Instr.bfi, 15)]

theorem exec_aluRows (c : Byte) (s : State) : ∀ p ∈ aluRows, exec (p.1 c) s = s.on fun h => h.isaAlu c.toNat p.2 := by
  simp only [aluRows, List.forall_mem_cons]
  exact ⟨rfl, rfl, rfl, rfl, rfl, rfl, rfl, rfl, rfl, rfl, rfl, rfl, rfl, rfl, rfl, rfl, fun _ hp => absurd hp List.not_mem_nil⟩

/-- The rows of the immediate forms with their opcodes and operations. -/
def immRows : List ((Byte → Instr) × Nat × (Word → Word → AluOut)) :=
  [(Instr.addi, 1, fun a i => addFlags a (fSimm i) false), (Instr.andi, 2, fun a i => { val := a &&& word (fImm i) }),
    (Instr.ori, 3, fun a i => { val := a ||| word (fImm i) }), (Instr.xori, 4, fun a i => { val := a ^^^ word (fImm i) }),
    (Instr.lui, 5, fun _ i => { val := word (fImm i * 65536) }), (Instr.cmpi, 6, fun a i => subFlags a (fSimm i) true)]

theorem exec_immRows (c : Byte) (s : State) : ∀ p ∈ immRows, exec (p.1 c) s = s.on fun h => h.isaImm c.toNat p.2.1 p.2.2 := by
  simp only [immRows, List.forall_mem_cons]
  exact ⟨rfl, rfl, rfl, rfl, rfl, rfl, fun _ hp => absurd hp List.not_mem_nil⟩

/-- Settles O27: every row goes through one of the two forms, and the values of the operations are those of the table. -/
theorem carouselArithmetic : Obligations.CarouselArithmetic := by
  unfold Obligations.CarouselArithmetic
  refine ⟨fun s c i p => ?_, fun a b cin k hk => ?_, fun s c i p => ?_⟩
  · intro x r hp hh ha
    exact makes_on (fun h => h.isaAlu c.toNat p.2) hh (exec_aluRows c s p hp) (Hub.isaAlu_at ha)
  · obtain ⟨hbit, hmod⟩ := shift_parameter hk
    have hshl : aluOp 7 a b cin (32 + k) = shlFlags a k := by unfold aluOp; simp only [hbit, hmod, if_true]
    have hshr : aluOp 8 a b cin (32 + k) = shrFlags a k := by unfold aluOp; simp only [hbit, hmod, if_true]
    have hsar : aluOp 9 a b cin (32 + k) = sarFlags a k := by unfold aluOp; simp only [hbit, hmod, if_true]
    exact ⟨addFlags_val a b, addFlags_c a b, subFlags_val a b, subFlags_c a b, rfl, rfl, rfl, rfl, rfl, congrArg AluOut.val hshl,
      congrArg AluOut.val hshr, congrArg AluOut.val hsar, toNat_mulu a b⟩
  · intro x a r hp hh ha
    have hq : ∃ q ∈ immRows, p = (q.1, q.2.1, fun a => q.2.2 a i) := by
      simpa only [immRows, List.mem_cons, List.not_mem_nil, or_false, exists_eq_or_imp, exists_eq_left] using hp
    obtain ⟨q, hmem, rfl⟩ := hq
    exact makes_on (fun h => h.isaImm c.toNat q.2.1 q.2.2) hh (exec_immRows c s q hmem) (Hub.isaImm_at ha)

end Sys2Proof.Machine

/-! The Carousel's loads, stores and queue instructions (R161, R194 to R198), and at most one instruction in a slot (R153, R208, R534). -/

namespace Sys2Proof.Machine

/-! ## Loads and stores -/

section
variable {h : Hub} {c : Nat} {i : Word}

theorem Hub.isaLdl_at (ha : h.ctxAt c (0x10, 0) i) :
    let x := h.ctxNow c
    let k := h.ctxSees c
    let a := memAddr (x.reg (fRs1 i)) i
    let n := 2 ^ fSz i
    h.isaLdl c = if 0x3FF < a then k.useSlot.carFault c 3 else if a % n ≠ 0 then k.useSlot.carFault c 5
      else if h.car.bad.contains (dataMark c a) then k.useSlot.carFault c 10
      else (k.setCtx c (x.set (fRd i) (word (leNat (mread 0 h.car.data (0x400 * c + a) n))))).ctxDone c 1 := by
  intro x k a n
  rw [Hub.isaLdl, Hub.issue_at _ ha]
  simp only [apply_ite ((h.ctxSees c).isaFinish c)]
  rfl

theorem Hub.isaStl_at (ha : h.ctxAt c (0x11, 0) i) :
    let x := h.ctxNow c
    let k := h.ctxSees c
    let a := memAddr (x.reg (fRs1 i)) i
    let n := 2 ^ fSz i
    h.isaStl c = if 0x3FF < a then k.useSlot.carFault c 3 else if a % n ≠ 0 then k.useSlot.carFault c 5
      else Hub.ctxDone { k with car := { k.car with
        data := mwrite 0 h.car.data (0x400 * c + a) (leBytes n (x.reg (fRd i)).toNat) } } c 1 := by
  intro x k a n
  rw [Hub.isaStl, Hub.issue_at _ ha]
  simp only [apply_ite ((h.ctxSees c).isaFinish c)]
  rfl

theorem Hub.isaLds_at (ha : h.ctxAt c (0x12, 0) i) :
    let x := h.ctxNow c
    let k := h.ctxSees c
    let a := memAddr (x.reg (fRs1 i)) i
    let n := 2 ^ fSz i
    h.isaLds c = if 0x20058 ≤ a then k.useSlot.carFault c 4 else if a % n ≠ 0 then k.useSlot.carFault c 5
      else if a < 0x20000 then
        if h.car.bad.contains (scratchMark a) then k.useSlot.carFault c 10
        else (k.setCtx c (x.set (fRd i) (word (leNat (mread 0 h.car.scratch a n))))).ctxDone c 2
      else (k.setCtx c (x.set (fRd i) (word (bitsN (frozenWord x.page ((a - 0x20000) / 4)).toNat (8 * (a % 4)) (8 * n))))).ctxDone c 2 := by
  intro x k a n
  rw [Hub.isaLds, Hub.issue_at _ ha]
  simp only [apply_ite ((h.ctxSees c).isaFinish c)]
  rfl

theorem Hub.isaSts_at (ha : h.ctxAt c (0x13, 0) i) :
    let x := h.ctxNow c
    let k := h.ctxSees c
    let a := memAddr (x.reg (fRs1 i)) i
    let n := 2 ^ fSz i
    h.isaSts c = if 0x20000 ≤ a then k.useSlot.carFault c 4 else if a % n ≠ 0 then k.useSlot.carFault c 5
      else Hub.ctxDone { k with car := { k.car with scratch := mwrite 0 h.car.scratch a (leBytes n (x.reg (fRd i)).toNat) } } c 1 := by
  intro x k a n
  rw [Hub.isaSts, Hub.issue_at _ ha]
  simp only [apply_ite ((h.ctxSees c).isaFinish c)]
  rfl

/-! ## Queue instructions -/

theorem Hub.isaPop_word {op : Nat} {w : Word} (pop : Bool) (ha : h.ctxAt c (op, 0) i) (h0 : ((h.ctxSees c).bind c (fImm i % 16)).kind ≠ 0)
    (ht : ((h.ctxSees c).bind c (fImm i % 16)).tx = false) (hn : (h.ctxSees c).qNext ((h.ctxSees c).bind c (fImm i % 16)) = some w) :
    let k := h.ctxSees c
    h.isaPop c op pop = ((if pop then k.qDrop (k.bind c (fImm i % 16)) else k).setCtx c
      (Ctx.set { h.ctxNow c with i := false } (fRd i) w)).ctxDone c 1 := by
  intro k
  rw [Hub.isaPop, Hub.issue_at _ ha]
  dsimp only
  rw [if_neg (by simp [h0, ht])]
  simp only [hn]
  rfl

theorem Hub.isaPop_idle {op : Nat} (pop : Bool) (ha : h.ctxAt c (op, 0) i) (h0 : ((h.ctxSees c).bind c (fImm i % 16)).kind ≠ 0)
    (ht : ((h.ctxSees c).bind c (fImm i % 16)).tx = false) (hn : (h.ctxSees c).qNext ((h.ctxSees c).bind c (fImm i % 16)) = none) :
    let k := h.ctxSees c
    h.isaPop c op pop = (k.setCtx c (Ctx.set { h.ctxNow c with i := true } (fRd i) (k.qIdle (k.bind c (fImm i % 16))))).ctxDone c 1 := by
  intro k
  rw [Hub.isaPop, Hub.issue_at _ ha]
  dsimp only
  rw [if_neg (by simp [h0, ht])]
  simp only [hn]
  rfl

theorem Hub.isaQpush_at {r : Bool} {h' : Hub} (ha : h.ctxAt c (0x1A, 0) i) (h0 : ((h.ctxSees c).bind c (fImm i % 16)).kind ≠ 0)
    (ht : ((h.ctxSees c).bind c (fImm i % 16)).tx = true)
    (hp : (h.ctxSees c).qPush c ((h.ctxSees c).bind c (fImm i % 16)) ((h.ctxNow c).reg (fRd i)) = (r, h')) :
    h.isaQpush c = if r then (h'.setCtx c { h.ctxNow c with c := false }).ctxDone c 1
      else ((h'.carEvt F.CAR_EVT_CREDIT_OVERRUN).setCtx c { h.ctxNow c with c := true }).ctxDone c 1 := by
  rw [Hub.isaQpush, Hub.issue_at _ ha]
  dsimp only
  rw [if_neg (by simp [h0, ht])]
  simp only [hp]
  cases r <;> rfl

/-- A result that depends on timing is the hub's own, and is journaled, where the hub is no standby. -/
theorem Hub.timed_own {h : Hub} {c op own : Nat} (k : Hub → Nat → IsaRes) (hr : h.twin.role ≠ .standby) :
    h.timed c op own k = k (h.timedRecord c op own) own := if_neg hr

theorem Hub.isaQcred_at (ha : h.ctxAt c (0x1B, 0) i) (h0 : ((h.ctxSees c).bind c (fImm i % 16)).kind ≠ 0) (hr : h.twin.role ≠ .standby) :
    let k := h.ctxSees c
    let b := k.bind c (fImm i % 16)
    let r := if b.tx then k.qCredit b else k.qBefore b
    let h' := k.timedRecord c 0x1B r
    h.isaQcred c = (h'.setCtx c (Ctx.set { h'.ctx c with z := r % 2 ^ 32 == 0 } (fRd i) (word r))).ctxDone c 1 := by
  intro k b r h'
  rw [Hub.isaQcred, Hub.issue_at _ ha]
  dsimp only
  rw [if_neg h0, Hub.timed_own _ (by exact hr)]
  rfl

end

/-- Settles O30. -/
theorem carouselMemoryAndQueues : Obligations.CarouselMemoryAndQueues := by
  unfold Obligations.CarouselMemoryAndQueues
  refine ⟨fun s c i => ?_, fun s c i => ?_, fun s c i => ?_, fun s c i h => ?_, fun s c i => ?_⟩
  · intro x k a n hh hn
    have hldl := fun ha => makes_on (i := .ldl c) (fun h => h.isaLdl c.toNat) hh rfl (Hub.isaLdl_at (i := i) ha)
    have hstl := fun ha => makes_on (i := .stl c) (fun h => h.isaStl c.toNat) hh rfl (Hub.isaStl_at (i := i) ha)
    have hlds := fun ha => makes_on (i := .lds c) (fun h => h.isaLds c.toNat) hh rfl (Hub.isaLds_at (i := i) ha)
    have hsts := fun ha => makes_on (i := .sts c) (fun h => h.isaSts c.toNat) hh rfl (Hub.isaSts_at (i := i) ha)
    refine ⟨fun ha hle hbad => ?_, fun ha hle => ?_, fun ha hlt hbad => ?_, fun ha hge hlt => ?_, fun ha hlt => ?_⟩
    · have := hldl ha
      rwa [if_neg (by exact Nat.not_lt.2 hle), if_neg (by exact not_not.2 hn), if_neg (by rw [hbad]; decide)] at this
    · have := hstl ha
      rwa [if_neg (by exact Nat.not_lt.2 hle), if_neg (by exact not_not.2 hn)] at this
    · have := hlds ha
      have hle : ¬ 0x20058 ≤ a := by omega
      rwa [if_neg (by exact hle), if_neg (by exact not_not.2 hn), if_pos (by exact hlt), if_neg (by rw [hbad]; decide)] at this
    · have := hlds ha
      rwa [if_neg (by exact Nat.not_le.2 hlt), if_neg (by exact not_not.2 hn), if_neg (by exact Nat.not_lt.2 hge)] at this
    · have := hsts ha
      rwa [if_neg (by exact Nat.not_le.2 hlt), if_neg (by exact not_not.2 hn)] at this
  · intro x k a hh
    refine ⟨fun ha hlt => ?_, fun ha hle hn => ?_, fun ha hge => ?_⟩
    · exact makes_on (fun h => h.isaLdl c.toNat) hh rfl ((Hub.isaLdl_at ha).trans (if_pos hlt))
    · exact makes_on (fun h => h.isaStl c.toNat) hh rfl ((Hub.isaStl_at ha).trans ((if_neg (Nat.not_lt.2 hle)).trans (if_pos hn)))
    · exact makes_on (fun h => h.isaSts c.toNat) hh rfl ((Hub.isaSts_at ha).trans (if_pos hge))
  · intro x k b hh h0 ht
    refine ⟨fun w hn => ⟨fun ha => ?_, fun ha => ?_⟩, fun hn => ⟨fun ha => ?_, fun ha => ?_⟩⟩
    · exact makes_on (fun h => h.isaPop c.toNat 0x18 true) hh rfl (Hub.isaPop_word true ha h0 ht hn)
    · exact makes_on (fun h => h.isaPop c.toNat 0x19 false) hh rfl (Hub.isaPop_word false ha h0 ht hn)
    · exact makes_on (fun h => h.isaPop c.toNat 0x18 true) hh rfl (Hub.isaPop_idle true ha h0 ht hn)
    · exact makes_on (fun h => h.isaPop c.toNat 0x19 false) hh rfl (Hub.isaPop_idle false ha h0 ht hn)
  · intro x k b hh ha h0 ht
    exact ⟨fun hp => makes_on (fun h => h.isaQpush c.toNat) hh rfl (Hub.isaQpush_at ha h0 ht hp),
      fun hp => makes_on (fun h => h.isaQpush c.toNat) hh rfl (Hub.isaQpush_at ha h0 ht hp)⟩
  · intro k b r h hh ha h0 hr
    exact makes_on (fun h => h.isaQcred c.toNat) hh rfl (Hub.isaQcred_at ha h0 hr)

/-! ## One instruction in a slot -/

/-- The rows of the Carousel's instructions. -/
def carRows : List (Byte → Instr) :=
  [Instr.add, Instr.sub, Instr.adc, Instr.sbc, Instr.and, Instr.or, Instr.xor, Instr.shl, Instr.shr, Instr.sar, Instr.mulu,
    Instr.muls, Instr.clz, Instr.bfx, Instr.bfxs, Instr.bfi, Instr.addi, Instr.andi, Instr.ori, Instr.xori, Instr.lui, Instr.cmpi] ++
  [Instr.b, Instr.jal, Instr.jr, Instr.ldl, Instr.stl, Instr.lds, Instr.sts, Instr.qpop, Instr.qpeek, Instr.qpush, Instr.qcred,
    Instr.prd, Instr.pwr, Instr.psub, Instr.femit, Instr.crcb, Instr.crcw, Instr.crcr, Instr.tnow, Instr.tcmp, Instr.waitq,
    Instr.waitt, Instr.yield, Instr.done, Instr.trap]

/-- Each of them is an issue of its context. -/
theorem exec_carRows (c : Byte) (s : State) : ∀ r ∈ carRows, ∃ row act, exec (r c) s = s.on fun h => h.issue c.toNat row act := by
  simp only [carRows, List.cons_append, List.nil_append, List.forall_mem_cons]
  refine ⟨?_, ?_, ?_, ?_, ?_, ?_, ?_, ?_, ?_, ?_, ?_, ?_, ?_, ?_, ?_, ?_, ?_, ?_, ?_, ?_, ?_, ?_, ?_, ?_, ?_, ?_, ?_, ?_, ?_, ?_, ?_, ?_, ?_, ?_, ?_,
    ?_, ?_, ?_, ?_, ?_, ?_, ?_, ?_, ?_, ?_, ?_, ?_, fun _ hr => absurd hr List.not_mem_nil⟩ <;> exact ⟨_, _, rfl⟩

/-- Out of its slot, or not running, a context issues nothing. -/
theorem Hub.issue_nothing {h : Hub} {c : Nat} (row : Nat × Nat) (act : Hub → Ctx → Word → IsaRes)
    (hc : h.ownsSlot c = false ∨ (h.ctx c).st ≠ .running ∨ (h.ctx c).skip ≠ 0 ∨ (h.ctx c).wokeAt = some h.now) : h.issue c row act = h := by
  refine if_pos ?_
  rcases hc with h1 | h1 | h1 | h1
  · exact .inr (.inr (.inr (.inr h1)))
  · exact .inl h1
  · exact .inr (.inr (.inl h1))
  · exact .inr (.inr (.inr (.inl h1)))

theorem Hub.useSlot_used (h : Hub) (c : Nat) : h.useSlot.ownsSlot c = false := by
  have hused : (h.useSlot.car.issuedAt != some h.useSlot.coreCyc) = false := bne_self_eq_false (some h.coreCyc)
  unfold Hub.ownsSlot
  rw [hused, Bool.and_false, Bool.false_and]

theorem Hub.slotCtx_of_ownsSlot {h : Hub} {c : Nat} (ho : h.ownsSlot c = true) : h.slotCtx = c := by
  unfold Hub.ownsSlot at ho
  simp only [Bool.and_eq_true, beq_iff_eq] at ho
  exact ho.1.1

/-- Settles O35. -/
theorem oneInstructionPerSlot : Obligations.OneInstructionPerSlot := by
  unfold Obligations.OneInstructionPerSlot
  refine ⟨fun s c r hr hc => ?_, Hub.useSlot_used, fun h c d hc hd => (Hub.slotCtx_of_ownsSlot hc).symm.trans (Hub.slotCtx_of_ownsSlot hd)⟩
  obtain ⟨row, act, he⟩ := exec_carRows c s r hr
  rw [he]
  by_cases hh : s.hub.held = true
  · exact State.on_held hh _
  · rw [State.on_run (by simpa using hh), Hub.issue_nothing row act hc]

end Sys2Proof.Machine

/-! The Carousel's point, frame, check and time instructions (R199 to R206). -/

namespace Sys2Proof.Machine

section
variable {h : Hub} {c : Nat} {i : Word}

/-! ## Points and frames -/

theorem Hub.isaPrd_at (ha : h.ctxAt c (0x20, 0) i) (h1 : ((h.ctxNow c).reg (fRs1 i)).toNat < 2 ^ 24)
    (h2 : ((h.ctxNow c).reg (fRs1 i)).toNat / 65536 ≠ 0xFF)
    (h3 : testBit (fFn i) 0 = true → ((h.ctxNow c).reg (fRs2 i)).toNat ≤ 0x3F0 ∧ ((h.ctxNow c).reg (fRs2 i)).toNat % 16 = 0) :
    let x := h.ctxNow c
    let k := h.ctxSees c
    let r := k.prdRec x.page (x.reg (fRs1 i)).toNat
    h.isaPrd c = ((if testBit (fFn i) 0 then { k with car := { k.car with
        data := mwrite 0 k.car.data (0x400 * c + (x.reg (fRs2 i)).toNat) (r.words.flatMap fun (w : Word) => leBytes 4 w.toNat) } } else k).setCtx c
      (Ctx.set { x with z := r.good } (fRd i) r.value)).ctxDone c 2 := by
  rw [Hub.isaPrd, Hub.issue_at _ ha]
  dsimp only
  rw [if_neg (by simp only [not_or, not_le]; exact ⟨h1, h2⟩), if_neg (fun hn => absurd (h3 hn.1).1 (Nat.not_le.2 hn.2)),
    if_neg (fun hn => hn.2 (h3 hn.1).2)]
  rfl

theorem Hub.stage_put {h k : Hub} {c d : Nat} {x : Ctx} (e : StageEnt) (hl : x.stage.length < 64) :
    h.isaFinish d (k.stage c x e) = h.isaFinish d (k.put c { x with stage := x.stage ++ [e] }) := by
  rw [Hub.stage, if_neg (Nat.not_le.2 hl)]

theorem Hub.isaPwr_plain (ha : h.ctxAt c (0x21, 0) i) (h1 : ((h.ctxNow c).reg (fRs1 i)).toNat < 2 ^ 24)
    (h2 : ((h.ctxNow c).reg (fRs1 i)).toNat / 65536 ≠ 0xFF)
    (h3 : (h.ctxSees c).ownNode (((h.ctxNow c).reg (fRs1 i)).toNat / 65536) = false ∨ ((h.ctxNow c).reg (fRs1 i)).toNat % 65536 < 0xFF00)
    (hl : (h.ctxNow c).stage.length < 64) (ht : testBit (fFn i) 0 = false) :
    let x := h.ctxNow c
    let k := h.ctxSees c
    let a := (x.reg (fRs1 i)).toNat
    h.isaPwr c = (k.setCtx c { x with stage := x.stage ++
      [.pwr (word (if k.ownNode (a / 65536) then a % 65536 else a)) (x.reg (fRs2 i)) (x.reg (fRd i)) none] }).ctxDone c 1 := by
  have hown : ¬ ((h.ctxSees c).ownNode (((h.ctxNow c).reg (fRs1 i)).toNat / 65536) = true ∧
      0xFF00 ≤ ((h.ctxNow c).reg (fRs1 i)).toNat % 65536) := fun hn => h3.elim (fun e => Bool.false_ne_true (e.symm.trans hn.1))
    fun e => absurd hn.2 (Nat.not_le.2 e)
  rw [Hub.isaPwr, Hub.issue_at _ ha]
  dsimp only
  rw [if_neg (by simp only [not_or, not_le]; exact ⟨h1, h2, hown⟩), if_neg (Nat.not_le.2 hl), if_neg (by simp [ht]), Hub.stage_put _ hl,
    Hub.isaFinish_put, ht]
  rfl

theorem Hub.isaPsub_at (ha : h.ctxAt c (0x22, 0) i) (h1 : ((h.ctxNow c).reg (fRs1 i)).toNat ≤ 4095) (hl : (h.ctxNow c).stage.length < 64) :
    let x := h.ctxNow c
    h.isaPsub c = ((h.ctxSees c).setCtx c { x with stage := x.stage ++ [.psub (x.reg (fRs1 i)).toNat] }).ctxDone c 1 := by
  rw [Hub.isaPsub, Hub.issue_at _ ha]
  dsimp only
  rw [if_neg (Nat.not_lt.2 h1), Hub.stage_put _ hl, Hub.isaFinish_put]

theorem Hub.isaFemit_at (ha : h.ctxAt c (0x23, 0) i) (hl : (h.ctxNow c).stage.length < 64)
    (h1 : testBit (fFn i) 8 = false → ((h.ctxNow c).reg (fRs1 i)).toNat < 2 ^ 24 ∧ 1 ≤ ((h.ctxNow c).reg (fRs1 i)).toNat / 65536 ∧
      ((h.ctxNow c).reg (fRs1 i)).toNat / 65536 ≤ 122 ∧
      ((h.ctxNow c).reg (fRs1 i)).toNat % 65536 + ((h.ctxNow c).reg (fRs1 i)).toNat / 65536 ≤ 0xFF00)
    (h2 : testBit (fFn i) 8 = true → 1 ≤ ((h.ctxNow c).reg (fRs2 i)).toNat ∧ ((h.ctxNow c).reg (fRs2 i)).toNat ≤ 1024 ∧
      ((h.ctxNow c).reg (fRs1 i)).toNat + ((h.ctxNow c).reg (fRs2 i)).toNat ≤ 0x20000 ∧ ((h.ctxNow c).reg (fRs1 i)).toNat % 4 = 0) :
    let x := h.ctxNow c
    h.isaFemit c = ((h.ctxSees c).setCtx c { x with stage := x.stage ++
      [.femit (word (x.reg (fRs1 i)).toNat) (word (x.reg (fRs2 i)).toNat) (testBit (fFn i) 8) (fFn i % 256)] }).ctxDone c 1 := by
  rw [Hub.isaFemit, Hub.issue_at _ ha]
  dsimp only
  rw [if_neg (fun hn => by obtain ⟨a1, a2, a3, a4⟩ := h1 hn.1; omega), if_neg (fun hn => by obtain ⟨a1, a2, a3, a4⟩ := h2 hn.1; omega),
    if_neg (fun hn => hn.2 (h2 hn.1).2.2.2), Hub.stage_put _ hl, Hub.isaFinish_put]

/-! ## Check values -/

theorem Hub.isaCrcb_at (ha : h.ctxAt c (0x28, 0) i) (hm : (h.ctxSees c).snoopMine c (fFn i % 16) = true) :
    h.isaCrcb c = ((h.ctxSees c).snoopGive c (fFn i % 16) [byte ((h.ctxNow c).reg (fRs1 i)).toNat]).ctxDone c 1 := by
  rw [Hub.isaCrcb, Hub.issue_at _ ha]
  dsimp only
  rw [if_pos hm, Hub.isaFinish_done]

theorem Hub.isaCrcw_at (ha : h.ctxAt c (0x29, 0) i) (hm : (h.ctxSees c).snoopMine c (fFn i % 16) = true) :
    let v := ((h.ctxNow c).reg (fRs1 i)).toNat
    h.isaCrcw c = ((h.ctxSees c).snoopGive c (fFn i % 16) (if testBit (fFn i) 4 then leBytes 4 v else beBytes 4 v)).ctxDone c 1 := by
  rw [Hub.isaCrcw, Hub.issue_at _ ha]
  dsimp only
  rw [if_pos hm, Hub.isaFinish_done]

theorem Hub.isaCrcr_at (ha : h.ctxAt c (0x2A, 0) i) (hm : testBit (fFn i) 4 = false ∨ (h.ctxSees c).snoopMine c (fFn i % 16) = true) :
    let k := (h.ctxSees c).snoopAsk c (fRd i) (fFn i % 16) (testBit (fFn i) 4)
    let r := word (k.snoopOut (fFn i % 16))
    h.isaCrcr c = (k.setCtx c (Ctx.set { h.ctxNow c with z := r == 0 } (fRd i) r)).ctxDone c 1 := by
  rw [Hub.isaCrcr, Hub.issue_at _ ha]
  dsimp only
  rw [if_neg (by rcases hm with e | e <;> simp [e]), Hub.isaFinish_put]

/-! ## Time -/

theorem Hub.isaTnow_at (ha : h.ctxAt c (0x30, 0) i) (hr : h.twin.role ≠ .standby) :
    let r := (h.ctxSees c).short (fFn i % 4)
    let k := (h.ctxSees c).timedRecord c 0x30 r
    h.isaTnow c = (k.setCtx c (((k.ctx c).set (fRd i) (word r)).set (fRd i + 1) (word (r / 2 ^ 32 % 256)))).ctxDone c 1 := by
  rw [Hub.isaTnow, Hub.issue_at _ ha]
  dsimp only
  rw [Hub.timed_own _ (by exact hr), Hub.isaFinish_put]

theorem Hub.isaTcmp_at (ha : h.ctxAt c (0x31, 0) i) (hr : h.twin.role ≠ .standby) :
    let d := max (-2 ^ 31) (min (2 ^ 31 - 1) ((h.ctxSees c).since (fFn i % 4) ((h.ctxNow c).target i)))
    let r := word (ofSigned 32 d)
    let k := (h.ctxSees c).timedRecord c 0x31 (ofSigned 32 d)
    h.isaTcmp c = (k.setCtx c (Ctx.set { k.ctx c with z := r == 0, n := r.msb, c := !r.msb, v := false } (fRd i) r)).ctxDone c 1 := by
  rw [Hub.isaTcmp, Hub.issue_at _ ha]
  dsimp only
  rw [Hub.timed_own _ (by exact hr), Hub.isaFinish_put]

end

/-- Settles O31. -/
theorem carouselPointsChecksAndTime : Obligations.CarouselPointsChecksAndTime := by
  unfold Obligations.CarouselPointsChecksAndTime
  refine ⟨fun s c i => ?_, fun s c i => ?_, fun s c i => ?_, fun s c i => ?_, fun s c i => ?_, fun h u hu => ?_, fun s c i => ?_, fun s c i => ?_⟩
  · intro x k a p r hh ha h1 h2
    refine ⟨fun ht => ?_, fun ht h3 h4 => ?_⟩
    · have hrun := Hub.isaPrd_at ha h1 h2 (fun e => absurd (e.symm.trans ht) (by decide))
      simp only [ht, Bool.false_eq_true, if_false] at hrun
      exact makes_on (fun h => h.isaPrd c.toNat) hh rfl hrun
    · have hrun := Hub.isaPrd_at ha h1 h2 (fun _ => ⟨h3, h4⟩)
      simp only [ht, if_true] at hrun
      exact makes_on (fun h => h.isaPrd c.toNat) hh rfl hrun
  · intro x k a own hh ha h1 h2 h3 hl ht
    exact makes_on (fun h => h.isaPwr c.toNat) hh rfl (Hub.isaPwr_plain ha h1 h2 h3 hl ht)
  · intro x k e hh ha h1 hl
    exact makes_on (fun h => h.isaPsub c.toNat) hh rfl (Hub.isaPsub_at ha h1 hl)
  · intro x k a b frame hh ha hl h1 h2
    exact makes_on (fun h => h.isaFemit c.toNat) hh rfl (Hub.isaFemit_at ha hl h1 h2)
  · intro x k u v init hh
    exact ⟨fun ha hm => makes_on (fun h => h.isaCrcb c.toNat) hh rfl (Hub.isaCrcb_at ha hm),
      fun ha hm => makes_on (fun h => h.isaCrcw c.toNat) hh rfl (Hub.isaCrcw_at ha hm),
      fun ha hm => makes_on (fun h => h.isaCrcr c.toNat) hh rfl (Hub.isaCrcr_at ha hm)⟩
  · simp only [Hub.snoopOut, Snoop.taken, hu, Hub.snoopResult]
  · intro k r h hh ha hr
    exact makes_on (fun h => h.isaTnow c.toNat) hh rfl (Hub.isaTnow_at ha hr)
  · intro x k d r h hh ha hr
    exact makes_on (fun h => h.isaTcmp c.toNat) hh rfl (Hub.isaTcmp_at ha hr)

end Sys2Proof.Machine

/-! Waits and the course of a job (R164 to R166, R170, R173 to R176, R208 to R213). -/

namespace Sys2Proof.Machine

/-! ## Waits -/

/-- The hub once a context has begun to wait. -/
def Hub.ctxWaits (h : Hub) (c : Nat) (w : Wait) : Hub := (h.setCtx c { h.ctx c with st := .waiting, wait := some w }).useSlot

/-- The hub once a wait has completed at once. -/
def Hub.ctxGoes (h : Hub) (c : Nat) (w : Wait) : Hub := ((h.waitDone c w true).timedRecord c w.op 1).ctxDone c 1

theorem Hub.isaFinish_beginWait {h k : Hub} {c : Nat} (w : Wait) (hr : k.twin.role ≠ .standby) :
    h.isaFinish c (k.beginWait c w) = if k.waitMet c w then k.ctxGoes c w else k.ctxWaits c w := by
  rw [Hub.beginWait, if_neg hr]
  split <;> rfl

section
variable {h : Hub} {c : Nat} {i : Word}

theorem Hub.isaWaitq_at (ha : h.ctxAt c (0x38, 0) i) (hr : h.twin.role ≠ .standby) (hk : ((h.ctxSees c).bind c (fRd i)).kind ≠ 0) :
    let k := h.ctxSees c
    let w : Wait := .queue (fRd i) (if fImm i = 0 then none else some (h.now + fImm i * 100 * tuNs))
    h.isaWaitq c = if k.waitMet c w then k.ctxGoes c w else k.ctxWaits c w := by
  rw [Hub.isaWaitq, Hub.issue_at _ ha]
  dsimp only
  rw [if_neg hk, Hub.isaFinish_beginWait _ (by exact hr)]
  rfl

theorem Hub.isaWaitt_at (ha : h.ctxAt c (0x39, 0) i) (hr : h.twin.role ≠ .standby) :
    let k := h.ctxSees c
    let w : Wait := .until_ (fFn i % 4) ((h.ctxNow c).target i)
    h.isaWaitt c = if k.waitMet c w then k.ctxGoes c w else k.ctxWaits c w := by
  rw [Hub.isaWaitt, Hub.issue_at _ ha, Hub.isaFinish_beginWait _ (by exact hr)]

theorem Hub.isaYield_at (ha : h.ctxAt c (0x3A, 0) i) (hr : h.twin.role ≠ .standby) :
    let k := h.ctxSees c
    h.isaYield c = if fImm i = 0 then k.ctxGoes c (.slots (fImm i)) else k.ctxWaits c (.slots (fImm i)) := by
  rw [Hub.isaYield, Hub.issue_at _ ha, Hub.isaFinish_beginWait _ (by exact hr)]
  exact if_congr beq_iff_eq rfl rfl

theorem Hub.isaDone_at (ha : h.ctxAt c (0x3C, 0) i) (hr : h.twin.role ≠ .standby) :
    h.isaDone c = (h.ctxSees c).useSlot.startCommit c := by
  rw [Hub.isaDone, Hub.issue_at _ ha]
  exact if_neg hr

/-- A wait that has come to its end. -/
theorem Hub.waitEnd_at {w : Wait} (hr : h.twin.role ≠ .standby) (hst : (h.ctx c).st = .waiting) (hw : (h.ctx c).wait = some w)
    (hd : h.pastDeadline c = false) :
    let goes := fun (h : Hub) => (h.setCtx c { h.ctx c with st := .running, wait := none, wokeAt := some h.now }).advance c
    h.waitEnd c = if h.waitMet c w then goes ((h.waitDone c w true).timedRecord c w.op 1)
      else if h.waitLimit w then goes ((h.waitDone c w false).timedRecord c w.op 0) else h := by
  intro goes
  unfold Hub.waitEnd
  simp only [hst, hw, hd, hr, Bool.false_eq_true, if_false]
  rfl

end

/-! ## The course of a job -/

theorem Hub.ctxReady_due {h : Hub} {c : Nat} {p : JobPage} {t : Nat} (hn : (h.ctx c).next = some (p, t)) (ht : t + 256 * tuCore ≤ h.now)
    (hst : (h.ctx c).st = .idle) : h.ctxReady c = h.setCtx c { h.ctx c with st := .ready, page := p, next := none } := by
  unfold Hub.ctxReady
  simp only [hn, if_pos ht]
  exact if_pos (by simp [Hub.takesJob, hst])

/-- The context that a job's entry makes of `x` (R173). -/
def Ctx.entered (x : Ctx) (entry : Nat) : Ctx :=
  { x with st := .running, saved := x.w.filter fun r => decide (8 ≤ r.1), w := x.w.filter fun r => decide (8 ≤ r.1),
           z := false, n := false, c := false, v := false, i := false, l := false, pc := entry, stage := [] }

theorem Ctx.reg_entered (x : Ctx) (entry : Nat) {r : Nat} (hr : r < 8) : (x.entered entry).reg r = 0 := by
  unfold Ctx.reg
  split
  · rfl
  · exact tget_filter_ge x.w 8 r hr

theorem Hub.pastDeadline_of {h : Hub} {c : Nat} (hr : h.twin.role ≠ .standby) (hj : (h.ctx c).inJob = true) (hh : (h.ctx c).held = false)
    (hd : (h.ctx c).page.deadline ≤ h.baseNs (h.ctx c).page.tb) : h.pastDeadline c = true := by
  unfold Hub.pastDeadline
  simp [hj, hh, hr, hd]

/-- Settles O32. -/
theorem carouselWaitsAndJobs : Obligations.CarouselWaitsAndJobs := by
  unfold Obligations.CarouselWaitsAndJobs
  refine ⟨fun s c i => ?_, fun s c i hh => ?_, fun s c w => ?_, fun h c hw p f => ?_, fun s c p t => ?_, fun s c => ?_, fun s c => ?_,
    fun s q r hh hc hd => ?_, fun h c => ?_⟩
  · intro x k q t y waits goes hh hr
    exact ⟨fun ha hk => makes_on (fun h => h.isaWaitq c.toNat) hh rfl (Hub.isaWaitq_at ha hr hk),
      fun ha => makes_on (fun h => h.isaWaitt c.toNat) hh rfl (Hub.isaWaitt_at ha hr),
      fun ha => makes_on (fun h => h.isaYield c.toNat) hh rfl (Hub.isaYield_at ha hr)⟩
  · refine ⟨fun ha hk => makes_on (fun h => h.isaWaitq c.toNat) hh rfl ?_,
      fun ha hr => makes_on (fun h => h.isaDone c.toNat) hh rfl (Hub.isaDone_at ha hr),
      fun ha => makes_on (fun h => h.isaTrap c.toNat) hh rfl ?_⟩
    · rw [Hub.isaWaitq, Hub.issue_at _ ha]
      rw [if_pos hk, Hub.isaFinish_fault, fltQueue]
    · rw [Hub.isaTrap, Hub.issue_at _ ha, Hub.isaFinish_fault]
  · intro x goes hh hr hst hw hd
    have hend := Hub.waitEnd_at hr hst hw hd
    exact ⟨fun hm => makes_on (fun h => h.waitEnd c) hh rfl (hend.trans (if_pos hm)),
      fun hm hl => makes_on (fun h => h.waitEnd c) hh rfl (hend.trans ((if_neg (by simp [hm])).trans (if_pos hl)))⟩
  · exact Hub.issue_nothing p f (.inr (.inr (.inr hw)))
  · intro x hh hn ht hst
    exact makes_on (fun h => h.ctxReady c) hh rfl (Hub.ctxReady_due hn ht hst)
  · intro x hh hst ho hd
    exact ⟨x.entered (s.hub.fld (Reg.CTX_ENTRY c) F.CTX_ENTRY_ENTRY), makes_on (fun h => h.jobEntry c) hh rfl (if_pos ⟨hst, ho, hd⟩), rfl, rfl, rfl,
      rfl, fun r hr => x.reg_entered _ hr, rfl, rfl⟩
  · intro h hh hr hj hheld hd
    exact makes_on (fun h => h.jobDeadline c) hh rfl (if_pos (Hub.pastDeadline_of hr hj hheld hd))
  · refine makes_on (fun h => h.commitApply) hh rfl ?_
    unfold Hub.commitApply
    simp only [hc, if_pos hd]
  · intro x k
    have hfault := h.carFault_ctx c 0x81
    have hlate := h.lateAbort_ctx c
    have hcommit := h.startCommit_ctx c
    exact ⟨congrArg Ctx.st hfault, congrArg Ctx.cause hfault, congrArg Ctx.faultPc hfault, congrArg Ctx.stage hfault, congrArg Ctx.st hlate,
      congrArg Ctx.late hlate, congrArg Ctx.stage hlate, congrArg Ctx.st hcommit, congrArg Ctx.stage hcommit⟩

end Sys2Proof.Machine

/-! The Carousel's host commands (R163 to R165, R172, R181). -/

namespace Sys2Proof.Machine

/-! ## Refusals leave the words of other blocks -/

theorem Hub.logRefusal_rd (h : Hub) (r : CmdRef) (st d o : Nat) {a : Nat} (ha : 0x6000 ≤ a) : (h.logRefusal r st d o).rd a = h.rd a := by
  have hi : h.fld Reg.HOST_RLOG_IDX F.HOST_RLOG_IDX_NEXT < 16 := bits_lt _ F.HOST_RLOG_IDX_NEXT
  unfold Hub.logRefusal
  dsimp only
  rw [Hub.rd_evt_ne _ _ (by simp only [Reg.HOST_EVT]; omega), Hub.rd_count_ne _ (by simp only [Reg.HOST_CNT_REFUSED]; omega),
    Hub.rd_setFld_ne _ _ _ (by simp only [Reg.HOST_RLOG_IDX]; omega), Hub.rd_wr_ne _ _ (by simp only [Reg.HOST_RLOG_EDGE_K]; omega),
    Hub.rd_wr_ne _ _ (by simp only [Reg.HOST_RLOG_RWHERE]; omega), Hub.rd_wr_ne _ _ (by simp only [Reg.HOST_RLOG_RWORD1]; omega),
    Hub.rd_wr_ne _ _ (by simp only [Reg.HOST_RLOG_RWORD0]; omega)]

theorem Hub.refuse_rd (h : Hub) (c : CmdIn) (st d o : Nat) {a : Nat} (ha : 0x6000 ≤ a) : (h.refuse c st d o).rd a = h.rd a := by
  let s : State := ⟨h.logRefusal c.ref st d o, {}, []⟩
  exact (Hub.respond_rd _ c st d o [] s a (fun _ _ => rfl) (not_ackRegs c s (.inr ha))).trans (h.logRefusal_rd _ _ _ _ ha)

theorem Hub.logRefusal_car (h : Hub) (r : CmdRef) (st d o : Nat) : (h.logRefusal r st d o).car = h.car := by
  unfold Hub.logRefusal
  dsimp only
  rw [Hub.evt_car, Hub.count_car, Hub.setFld_car, Hub.wr_car, Hub.wr_car, Hub.wr_car, Hub.wr_car]

theorem Hub.refuse_car (h : Hub) (c : CmdIn) (st d o : Nat) : (h.refuse c st d o).car = h.car := by
  rw [Hub.refuse, Hub.respond_fields]
  exact h.logRefusal_car c.ref st d o

/-- A command is still accepted where only words beyond the host's own blocks have changed. -/
theorem Accepts.of_rd {s : State} {c : CmdIn} {k : Hub} (ha : Accepts s c) (hk : k = { s.hub with regs := k.regs })
    (hr : ∀ a, a < 0x6000 → k.rd a = s.hub.rd a) : Accepts { s with hub := k } c := by
  obtain ⟨hh, hs, hp, hrole⟩ := ha
  have hglb : k.glb = s.hub.glb := by rw [hk]
  have htwin : k.twin = s.hub.twin := by rw [hk]
  have hcfg : ∀ q : Fin 4, k.rd (Reg.HQ_CFG q) = s.hub.rd (Reg.HQ_CFG q) := fun q => hr _ (by simp only [Reg.HQ_CFG]; omega)
  have hver : k.cmdVersion c.src = s.hub.cmdVersion c.src := by
    unfold Hub.cmdVersion
    split <;> simp only [Hub.fld_of_rd _ (hcfg _)]
  have hacts : k.acts = s.hub.acts := by rw [Hub.acts, Hub.acts, htwin]
  have hserved : k.served c = s.hub.served c := by
    unfold Hub.served
    split
    next q _ =>
      unfold Hub.hqOpen Hub.hostOpen Hub.ready Hub.hqUnread
      rw [htwin, Hub.flag_of_rd _ (hr Reg.GLB_BOOT (by decide)), Hub.flag_of_rd _ (hr Reg.GLB_BOOT (by decide)), Hub.flag_of_rd _ (hcfg q),
        Hub.fld_of_rd _ (hr (Reg.HQ_INPROG q) (by simp only [Reg.HQ_INPROG]; omega)),
        Hub.fld_of_rd _ (hr (Reg.HQ_RSP q) (by simp only [Reg.HQ_RSP]; omega)),
        Hub.fld_of_rd _ (hr (Reg.HQ_RSP q) (by simp only [Reg.HQ_RSP]; omega))]
    · rfl
  refine ⟨?_, hserved.trans hs, ?_, ?_⟩
  · show k.held = false
    rw [Hub.held, hglb]
    exact hh
  · show k.precheck c = none
    unfold Hub.precheck at hp ⊢
    rw [hver, hacts, htwin]
    exact hp
  · show match c.src with | .queue _ => k.twin.role ≠ .active | _ => True
    rw [htwin]
    exact hrole

/-! ## Contexts -/

theorem runCtxLoad_ok {h : Hub} {src : CmdSrc} {tag : Byte} {nw lo hi entry : Word} (hn : nw.toNat < 252) (h1 : lo.toNat ≤ entry.toNat)
    (h2 : entry.toNat ≤ hi.toNat) (h3 : hi.toNat ≤ 65535)
    (hw : ∀ i, lo.toNat ≤ i → i ≤ hi.toNat → loadable lo.toNat hi.toNat (h.progWord i) = true) (hst : h.ctxStopped nw.toNat = true) :
    let n := nw.toNat
    runCtxLoad h (mkCmd src 0x0401 tag [nw, lo, hi, entry]) =
      .done (((h.wr (Reg.CTX_PROG n) (word (lo.toNat + hi.toNat * 65536))).wr (Reg.CTX_ENTRY n) (word (entry.toNat + 2 ^ 31))).setCtx n
        { pc := entry.toNat, page := (h.ctx n).page, faultPc := (h.ctx n).faultPc }) [] := by
  have e1 : (mkCmd src 0x0401 tag [nw, lo, hi, entry]).arg 1 = nw.toNat := rfl
  have e2 : (mkCmd src 0x0401 tag [nw, lo, hi, entry]).arg 2 = lo.toNat := rfl
  have e3 : (mkCmd src 0x0401 tag [nw, lo, hi, entry]).arg 3 = hi.toNat := rfl
  have e4 : (mkCmd src 0x0401 tag [nw, lo, hi, entry]).arg 4 = entry.toNat := rfl
  have hall : ((List.range (hi.toNat + 1 - lo.toNat)).all fun i => loadable lo.toNat hi.toNat (h.progWord (lo.toNat + i))) = true :=
    List.all_eq_true.2 fun i hi' => hw _ (by omega) (by have := List.mem_range.1 hi'; omega)
  have hctx : ∀ a b u v m, ((h.wr a u).wr b v).ctx m = h.ctx m := fun _ _ _ _ _ => rfl
  unfold runCtxLoad
  simp only [e1, e2, e3, e4]
  rw [if_neg (by rw [zeroFrom_mkCmd _ _ _ _ 5 rfl, hall]; simp; omega), if_neg (by simp [hst])]
  simp only [hctx]

/-- What a `CTX_LOAD` gives whose two words become `prog` and `start`. -/
theorem ctxLoad_gives {s : State} {src : CmdSrc} {tag : Byte} {nw lo hi entry prog start : Word} {y : Ctx} (hn : nw.toNat < 252)
    (ha : Accepts s (mkCmd src 0x0401 tag [nw, lo, hi, entry]))
    (hrun : runCtxLoad s.hub (mkCmd src 0x0401 tag [nw, lo, hi, entry]) =
      .done (((s.hub.wr (Reg.CTX_PROG nw.toNat) prog).wr (Reg.CTX_ENTRY nw.toNat) start).setCtx nw.toNat y) []) :
    let c := mkCmd src 0x0401 tag [nw, lo, hi, entry]
    Gives (.ctxLoad src tag nw lo hi entry) s fun t => Answered c sOK [] s t ∧
      CmdOnly [.car] [Reg.CTX_PROG nw.toNat, Reg.CTX_ENTRY nw.toNat] c s t ∧
      t.hub.rd (Reg.CTX_PROG nw.toNat) = prog ∧ t.hub.rd (Reg.CTX_ENTRY nw.toNat) = start ∧ t.hub.car = (s.hub.setCtx nw.toNat y).car := by
  intro c
  have hne : Reg.CTX_PROG nw.toNat ≠ Reg.CTX_ENTRY nw.toNat := by simp [Reg.CTX_PROG, Reg.CTX_ENTRY]
  refine gives_done (fun h => h.accept c runCtxLoad) [.car] [Reg.CTX_PROG nw.toNat, Reg.CTX_ENTRY nw.toNat] rfl ha (accept_done ha hrun)
    (by simp) rfl (fun p hp => by cases p <;> first | rfl | simp at hp) rfl (fun a hna => ?_)
    (fun q => by simp [Reg.HQ_RSP, Reg.CTX_PROG, Reg.CTX_ENTRY]; omega) fun k hk hkr => ⟨?_, ?_, hk .car (by decide) (by decide)⟩
  · simp only [List.mem_cons, List.not_mem_nil, or_false, not_or] at hna
    exact (Hub.rd_wr_ne _ _ hna.2).trans (Hub.rd_wr_ne _ _ hna.1)
  · exact (hkr _ (not_ackRegs c s (by simp only [Reg.CTX_PROG]; omega))).trans ((Hub.rd_wr_ne _ _ hne).trans (Hub.rd_wr_same _ _ _))
  · exact (hkr _ (not_ackRegs c s (by simp only [Reg.CTX_ENTRY]; omega))).trans (Hub.rd_wr_same _ _ _)

theorem runCtxStart_ok {h : Hub} {src : CmdSrc} {tag : Byte} {nw : Word} (hn : nw.toNat < 252) (h1 : h.deadline100 nw.toNat ≠ 0)
    (h2 : h.deadline100 nw.toNat * 100 ≤ h.groupPeriod100 (h.ctxGroup nw.toNat))
    (h3 : ∀ b ∈ h.binds nw.toNat, b.bad = false ∧ h.bindPeer b = false) (h4 : hasRepeat (h.binds nw.toNat) = false)
    (h5 : h.ctxStopped nw.toNat = true) (h6 : h.ctxValid nw.toNat = true) (h7 : ∃ i, i < 1024 ∧ h.calEntry h.car.bankB i = nw.toNat)
    (h8 : ∀ m ∈ h.usedCtx, m ≠ nw.toNat → ∀ b ∈ h.binds m, b ∉ h.binds nw.toNat) :
    let c := mkCmd src 0x0402 tag [nw]
    runCtxStart h c = .later { h with car := { h.car with
      reqs := h.car.reqs ++ [{ ctx := nw.toNat, start := true, at_ := h.now, ref := c.ref }] } } := by
  intro c
  have e1 : c.arg 1 = nw.toNat := rfl
  have hbad : (h.binds nw.toNat).any Bind.bad = false := List.any_eq_false.2 fun b hb => by simp [(h3 b hb).1]
  have hpeer : (h.binds nw.toNat).any h.bindPeer = false := List.any_eq_false.2 fun b hb => by simp [(h3 b hb).2]
  have hcal : ((List.range 1024).any fun i => h.calEntry h.car.bankB i == nw.toNat) = true := by
    obtain ⟨i, hi, he⟩ := h7
    exact List.any_eq_true.2 ⟨i, List.mem_range.2 hi, beq_iff_eq.2 he⟩
  have hfree : (h.usedCtx.any fun m => m != nw.toNat && (h.binds m).any (h.binds nw.toNat).contains) = false := by
    refine List.any_eq_false.2 fun m hm => ?_
    simp only [Bool.and_eq_true, bne_iff_ne, List.any_eq_true, List.contains_iff_mem, not_and, not_exists]
    exact fun hne b hb => h8 m hm hne b hb
  unfold runCtxStart
  simp only [e1]
  rw [if_neg (by rw [zeroFrom_mkCmd _ _ _ _ 2 rfl]; simp; omega), if_neg (by rw [hbad, h4]; simp [h1]; omega),
    if_neg (by rw [h5, h6, hcal, hfree, hpeer]; simp)]

theorem runCtxStop_ok {h : Hub} {src : CmdSrc} {tag : Byte} {nw : Word} (hn : nw.toNat < 252)
    (hu : (h.ctx nw.toNat).st ≠ .parked ∨ h.starting nw.toNat = true) :
    let c := mkCmd src 0x0403 tag [nw]
    runCtxStop h c = .later { h with car := { h.car with
      reqs := h.car.reqs ++ [{ ctx := nw.toNat, start := false, at_ := h.now, ref := c.ref }] } } := by
  intro c
  have e1 : c.arg 1 = nw.toNat := rfl
  unfold runCtxStop
  simp only [e1]
  rw [if_neg (by rw [zeroFrom_mkCmd _ _ _ _ 2 rfl]; simp; omega), if_neg (by rcases hu with e | e <;> simp [e])]

theorem Hub.ctxReqDue_iff (h : Hub) (r : CtxReq) : h.ctxReqDue r = true ↔ h.slotCtx = 254 ∧ r.at_ < h.now ∧ (h.ctx r.ctx).skip = 0 := by
  simp only [Hub.ctxReqDue, Bool.and_eq_true, beq_iff_eq, decide_eq_true_eq, and_assoc]

theorem Hub.ctxStopApply_due {h : Hub} {n : Nat} (hd : ∃ r ∈ h.car.reqs.filter fun r => r.ctx == n && h.ctxReqDue r, r.start = false) :
    h.ctxStopApply n = h.useSlot.ctxApply fun r => r.ctx == n := by
  obtain ⟨r, hr, hstop⟩ := hd
  obtain ⟨hmem, hdue⟩ := List.mem_filter.1 hr
  refine if_pos (List.any_eq_true.2 ⟨r, hmem, ?_⟩)
  simp only [Bool.and_eq_true] at hdue
  simp [hdue.1, hdue.2, hstop]

/-! ## The calendar and the Strum -/

theorem runStrumStart_ok {h : Hub} {src : CmdSrc} {tag : Byte} (h1 : 5000 ≤ h.fld Reg.CAR_STRUM_BASE F.CAR_STRUM_BASE_PERIOD)
    (h2 : h.fld Reg.CAR_STRUM_BASE F.CAR_STRUM_BASE_PERIOD ≤ 200000000)
    (h3 : ∀ g, g < 8 → h.fld (Reg.CAR_GRP_N g) F.CAR_GRP_N_N ≠ 0)
    (h4 : ∀ x ∈ h.usedCtx, h.deadline100 x * 100 ≤ h.groupPeriod100 (h.ctxGroup x)) (h5 : h.twin.role = .solo ∨ h.strumTb ≠ 3)
    (h6 : h.car.strum = false) :
    runStrumStart h (mkCmd src 0x0405 tag []) = .done { h with car := { h.car with
      strum := true, kNext := ceilDiv (h.baseNs h.strumTb + 10000) (h.fld Reg.CAR_STRUM_BASE F.CAR_STRUM_BASE_PERIOD * 5), produced := false } } [] := by
  have hgrp : ((List.range 8).any fun g => h.fld (Reg.CAR_GRP_N g) F.CAR_GRP_N_N == 0) = false :=
    List.any_eq_false.2 fun g hg => by simpa using h3 g (List.mem_range.1 hg)
  have hdl : (h.usedCtx.any fun x => decide (h.groupPeriod100 (h.ctxGroup x) < h.deadline100 x * 100)) = false :=
    List.any_eq_false.2 fun x hx => by simpa using h4 x hx
  have htwin : ¬ (h.twin.role ≠ .solo ∧ h.strumTb = 3) := fun hn => h5.elim hn.1 (fun e => e hn.2)
  unfold runStrumStart
  dsimp only
  rw [if_neg (by rw [hgrp, hdl, zeroFrom_mkCmd _ _ _ _ 1 rfl]; simp only [Bool.false_eq_true, Bool.true_eq_false, or_false, htwin]; omega),
    if_neg (by simp [h6])]

/-- What a refused `CAL_SWAP` notes: the failing slot and the reason, and its event. -/
def Hub.calNoted (h : Hub) (i why : Nat) : Hub :=
  ((h.setFld Reg.CAR_CAL_CHECK F.CAR_CAL_CHECK_SLOT i).setFld Reg.CAR_CAL_CHECK F.CAR_CAL_CHECK_REASON why).carEvt F.CAR_EVT_CAL_REFUSED

theorem Hub.calNoted_rd (h : Hub) (i why : Nat) {a : Nat} (h1 : a ≠ Reg.CAR_CAL_CHECK) (h2 : a ≠ Reg.CAR_EVT) :
    (h.calNoted i why).rd a = h.rd a :=
  (Hub.rd_evt_ne _ _ h2).trans ((Hub.rd_setFld_ne _ _ _ h1).trans (Hub.rd_setFld_ne _ _ _ h1))

theorem Hub.calNoted_calEntry (h : Hub) (i why : Nat) (b : Bool) (j : Nat) : (h.calNoted i why).calEntry b j = h.calEntry b j := by
  unfold Hub.calEntry
  rw [Hub.calNoted_rd]
  · split <;> simp only [Reg.CAL_A, Reg.CAL_B, Reg.CAR_CAL_CHECK] <;> omega
  · split <;> simp only [Reg.CAL_A, Reg.CAL_B, Reg.CAR_EVT] <;> omega

theorem Hub.calCheck_of_car {h k : Hub} (e : k.car = h.car) (b : List Nat) : k.calCheck b = h.calCheck b := by
  unfold Hub.calCheck Hub.usedCtx Hub.liveCtx
  rw [e]

theorem calJudge_refused {h : Hub} {src : CmdSrc} {tag : Byte} {i why st : Nat}
    (hc : h.calCheck (h.calBank (!h.car.bankB)) = some (i, why, st)) :
    h.calJudge (mkCmd src 0x0404 tag []) = (some (i, why), .refuse st (if st = sESTATE then (h.ctx i).st.code else 0) (i % 256)) := by
  unfold Hub.calJudge
  rw [if_neg (by rw [zeroFrom_mkCmd _ _ _ _ 1 rfl]; decide)]
  simp only [hc]

theorem calJudge_ok {h : Hub} {src : CmdSrc} {tag : Byte} (hc : h.calCheck (h.calBank (!h.car.bankB)) = none) (hs : h.car.swap = false) :
    h.calJudge (mkCmd src 0x0404 tag []) = (none, .done { h with car := { h.car with swap := true } } []) := by
  unfold Hub.calJudge
  rw [if_neg (by rw [zeroFrom_mkCmd _ _ _ _ 1 rfl]; decide)]
  simp only [hc, hs, Bool.false_eq_true, if_false]

theorem Hub.calNoted_calBank (h : Hub) (i why : Nat) (b : Bool) : (h.calNoted i why).calBank b = h.calBank b :=
  List.map_congr_left fun j _ => h.calNoted_calEntry i why b j

/-- A `CAL_SWAP` whose bank fails its check notes the failure, and is refused. -/
theorem calSwap_refused {s : State} {src : CmdSrc} {tag : Byte} {i why st : Nat} (ha : Accepts s (mkCmd src 0x0404 tag []))
    (hc : s.hub.calCheck (s.hub.calBank (!s.hub.car.bankB)) = some (i, why, st)) :
    ∃ d, s.hub.calSwap (mkCmd src 0x0404 tag []) = (s.hub.calNoted i why).refuse (mkCmd src 0x0404 tag []) st d (i % 256) := by
  have hnoted : (s.hub.calNoted i why).calCheck ((s.hub.calNoted i why).calBank (!(s.hub.calNoted i why).car.bankB)) = some (i, why, st) := by
    have hcar : (s.hub.calNoted i why).car = s.hub.car := rfl
    rw [Hub.calNoted_calBank, hcar, Hub.calCheck_of_car hcar, hc]
  have ha' := ha.of_rd (k := s.hub.calNoted i why) rfl
    fun a hlt => Hub.calNoted_rd _ _ _ (by simp only [Reg.CAR_CAL_CHECK]; omega) (by simp only [Reg.CAR_EVT]; omega)
  have hacc := accept_refuse (run := fun h c => (h.calJudge c).2) ha' (congrArg Prod.snd (calJudge_refused (src := src) (tag := tag) hnoted))
  refine ⟨_, Eq.trans ?_ hacc⟩
  unfold Hub.calSwap
  rw [if_neg (by simp [ha.2.1])]
  simp only [ha.2.2.1, calJudge_refused hc]
  rfl

/-- Settles O33, command by command. -/
theorem carouselCommands : Obligations.CarouselCommands := by
  unfold Obligations.CarouselCommands
  refine ⟨fun s src tag nw lo hi entry => ?_, fun s src tag nw => ?_, fun s src tag nw => ?_, fun s n => ?_, fun h r => h.ctxReqDue_iff r,
    fun h r => ?_, fun s src tag => ?_, fun s src tag i why st => ?_, fun s => ?_, fun s b j w hh => ?_, fun s src tag => ?_, fun s src tag => ?_⟩
  · intro c n ha hn h1 h2 h3 hw hst
    exact ctxLoad_gives hn ha (runCtxLoad_ok hn h1 h2 h3 hw hst)
  · intro c n bs ha hn h1 h2 h3 h4 h5 h6 h7 h8
    exact gives_later (fun h => h.accept c runCtxStart) [.car] [] rfl ha (accept_busy ha (runCtxStart_ok hn h1 h2 h3 h4 h5 h6 h7 h8)) rfl
      (fun p hp => by cases p <;> first | rfl | simp at hp) rfl (fun _ _ => rfl) (fun q => by simp) fun k hk _ => hk .car (by decide)
  · intro c ha hn hu
    exact gives_later (fun h => h.accept c runCtxStop) [.car] [] rfl ha (accept_busy ha (runCtxStop_ok hn hu)) rfl
      (fun p hp => by cases p <;> first | rfl | simp at hp) rfl (fun _ _ => rfl) (fun q => by simp) fun k hk _ => hk .car (by decide)
  · intro mine k h hh hd
    exact makes_on (fun h => h.ctxStopApply n) hh rfl (Hub.ctxStopApply_due hd)
  · intro x k
    refine ⟨fun hs => ?_, fun hs => ?_⟩
    · rw [Hub.ctxReqDo, if_pos hs]
    · rw [Hub.ctxReqDo, if_neg (by simp [hs])]
      rfl
  · intro c ha hc hs
    have hrun : (s.hub.calJudge c).2 = .done { s.hub with car := { s.hub.car with swap := true } } [] := congrArg Prod.snd (calJudge_ok hc hs)
    have hswap : s.hub.calSwap c = s.hub.accept c fun h c => (h.calJudge c).2 := by
      unfold Hub.calSwap
      rw [if_neg (by simp [ha.2.1])]
      simp only [ha.2.2.1, calJudge_ok hc hs, c]
    exact gives_done (fun h => h.calSwap c) [.car] [] rfl ha (hswap.trans (accept_done ha hrun)) (by simp) rfl
      (fun p hp => by cases p <;> first | rfl | simp at hp) rfl (fun _ _ => rfl) (fun q => by simp)
      fun k hk _ => hk .car (by decide) (by decide)
  · intro c ha hc hi hwhy
    obtain ⟨d, hd⟩ := calSwap_refused ha hc
    have hrd : ∀ a, 0x6000 ≤ a → (s.hub.calSwap c).rd a = (s.hub.calNoted i why).rd a := fun a hle => by rw [hd, Hub.refuse_rd _ _ _ _ _ hle]
    have hcheck : (s.hub.calNoted i why).rd Reg.CAR_CAL_CHECK = _ := Hub.rd_evt_ne _ F.CAR_EVT_CAL_REFUSED (by decide)
    refine gives_on (fun h => h.calSwap c) ha.1 rfl ⟨?_, ?_, ?_, ?_⟩
    · show (s.hub.calSwap c).car = _
      rw [hd, Hub.refuse_car]
      rfl
    · exact (Hub.flag_of_rd _ (hrd _ (by decide))).trans (Hub.flag_evt _ _ _ (by decide))
    · refine (Hub.fld_of_rd _ (hrd _ (by decide))).trans ((Hub.fld_of_rd _ hcheck).trans ((Hub.fld_setFld_ne _ _ _ _ _ (by decide)).trans ?_))
      exact (Hub.fld_setFld _ _ _ _ (by decide)).trans (Nat.mod_eq_of_lt hi)
    · refine (Hub.fld_of_rd _ (hrd _ (by decide))).trans ((Hub.fld_of_rd _ hcheck).trans ?_)
      exact (Hub.fld_setFld _ _ _ _ (by decide)).trans (Nat.mod_eq_of_lt hwhy)
  · intro old last hh hs h0
    exact makes_on Hub.calApply hh rfl (if_pos ⟨hs, h0⟩)
  · exact makes_on (fun h => h.calWrite b j w) hh rfl rfl
  · intro c p ha h1 h2 h3 h4 h5 h6
    exact gives_done (fun h => h.accept c runStrumStart) [.car] [] rfl ha (accept_done ha (runStrumStart_ok h1 h2 h3 h4 h5 h6)) (by simp) rfl
      (fun p hp => by cases p <;> first | rfl | simp at hp) rfl (fun _ _ => rfl) (fun q => by simp)
      fun k hk _ => hk .car (by decide) (by decide)
  · intro c ha hs
    have hrun : runStrumStop s.hub c = .done { s.hub with car := { s.hub.car with strum := false } } [] := by
      unfold runStrumStop
      rw [if_neg (by rw [zeroFrom_mkCmd _ _ _ _ 1 rfl]; decide), if_neg (by simp [hs])]
    exact gives_done (fun h => h.accept c runStrumStop) [.car] [] rfl ha (accept_done ha hrun) (by simp) rfl
      (fun p hp => by cases p <;> first | rfl | simp at hp) rfl (fun _ _ => rfl) (fun q => by simp)
      fun k hk _ => hk .car (by decide) (by decide)

end Sys2Proof.Machine

/-! The Carousel's memories, the base edge of the Strum, and the snoop units (R23 to R25, R159, R160, R162, R219 to R221). -/

namespace Sys2Proof.Machine

/-! ## The scratchpad's access register -/

/-- The hub once an access to `CAR_SCR_DATA` has stepped the address. -/
def Hub.scrStepped (h : Hub) : Hub :=
  if h.flag Reg.CAR_SCR_ADDR F.CAR_SCR_ADDR_AUTOINC then
    h.setFld Reg.CAR_SCR_ADDR F.CAR_SCR_ADDR_ADDR (h.fld Reg.CAR_SCR_ADDR F.CAR_SCR_ADDR_ADDR + 1) else h

@[simp] theorem Hub.scrStepped_now (h : Hub) : h.scrStepped.now = h.now := by
  unfold Hub.scrStepped
  split <;> rfl

@[simp] theorem Hub.scrStepped_car (h : Hub) : h.scrStepped.car = h.car := by
  unfold Hub.scrStepped
  split <;> rfl

theorem Hub.scrStepped_rd (h : Hub) {a : Nat} (ha : a ≠ Reg.CAR_SCR_ADDR) : h.scrStepped.rd a = h.rd a := by
  unfold Hub.scrStepped
  split
  · exact Hub.rd_setFld_ne _ _ _ ha
  · rfl

/-- Who owns the slot does not depend on the waiting accesses. -/
theorem Hub.scrStepped_ownsSlot (h : Hub) (l : List ScrReq) (c : Nat) :
    ({ h.scrStepped with car := { h.scrStepped.car with scr := l } } : Hub).ownsSlot c = h.ownsSlot c := by
  have hcal : ∀ b i, h.scrStepped.calEntry b i = h.calEntry b i := fun b i => by
    unfold Hub.calEntry
    rw [Hub.scrStepped_rd]
    split <;> simp only [Reg.CAL_A, Reg.CAL_B, Reg.CAR_SCR_ADDR] <;> omega
  have hslot : ({ h.scrStepped with car := { h.scrStepped.car with scr := l } } : Hub).slotCtx = h.slotCtx := by
    show h.scrStepped.calEntry h.scrStepped.car.bankB (h.scrStepped.now / tuCore % 1024) = _
    rw [hcal, h.scrStepped_car, h.scrStepped_now]
    rfl
  unfold Hub.ownsSlot
  rw [hslot]
  show (h.slotCtx == c && h.scrStepped.car.issuedAt != some (h.scrStepped.now / tuCore) &&
    !h.scrStepped.car.withheld.any fun x => x.1 == c && decide (h.scrStepped.now / tuCore < x.2)) = _
  rw [h.scrStepped_car, h.scrStepped_now]
  rfl

theorem Hub.scrQueue_eq {h : Hub} (val : Option Word) (hs : h.car.scr = []) :
    h.scrQueue val none false = { h.scrStepped with car := { h.scrStepped.car with
      scr := [{ addr := h.fld Reg.CAR_SCR_ADDR F.CAR_SCR_ADDR_ADDR, val := val }] } } := by
  have hcar : h.scrStepped.car.scr = [] := by rw [h.scrStepped_car, hs]
  show ({ h.scrStepped with car := { h.scrStepped.car with scr := h.scrStepped.car.scr ++ [_] } } : Hub) = _
  rw [hcar]
  rfl

/-- An access that waits for nothing else is served in a slot of context 254, and waits otherwise. -/
theorem Hub.scrAsk_eq {h : Hub} (val : Option Word) (hs : h.car.scr = []) :
    let a := h.fld Reg.CAR_SCR_ADDR F.CAR_SCR_ADDR_ADDR
    h.scrAsk val false = if h.ownsSlot 254 then
        (match val with
          | some w => Hub.useSlot { h.scrStepped with car := { h.scrStepped.car with scratch := mwrite 0 h.car.scratch (4 * a) (leBytes 4 w.toNat) } }
          | none => h.scrStepped.useSlot.emit (.words [word (leNat (mread 0 h.car.scratch (4 * a) 4))]))
      else { h.scrStepped with car := { h.scrStepped.car with scr := [{ addr := a, val := val }] } } := by
  have hempty : h.scrStepped.car.scr = [] := by rw [h.scrStepped_car, hs]
  have hclear : ({ h.scrStepped with car := { h.scrStepped.car with scr := [] } } : Hub) = h.scrStepped := by rw [← hempty]
  intro a
  unfold Hub.scrAsk
  rw [Hub.scrQueue_eq val hs]
  unfold Hub.scrServe
  dsimp only
  rw [Hub.scrStepped_ownsSlot, hclear]
  split
  · cases val with
    | none =>
      show h.scrStepped.useSlot.emit (.words [word (leNat (mread 0 h.scrStepped.car.scratch (4 * a) 4))]) = _
      rw [h.scrStepped_car]
    | some w =>
      show Hub.useSlot { h.scrStepped with car := { h.scrStepped.car with
        scratch := mwrite 0 h.scrStepped.car.scratch (4 * a) (leBytes 4 w.toNat) } } = _
      rw [h.scrStepped_car]
  · rfl

/-! ## Jobs of an edge -/

theorem Hub.edgeOf_iff (h : Hub) (k g : Nat) :
    h.edgeOf k g = true ↔ h.fld (Reg.CAR_GRP_N g) F.CAR_GRP_N_N ≠ 0 ∧ h.fld (Reg.CAR_GRP_N g) F.CAR_GRP_N_N ∣ k := by
  simp only [Hub.edgeOf, Bool.and_eq_true, bne_iff_ne, beq_iff_eq, Nat.dvd_iff_mod_eq_zero]

/-- The start of one context's job in step 3 of R25. -/
def Hub.startJob (k ns : Nat) (h : Hub) (c : Nat) : Hub :=
  if h.takesJob c then h.setCtx c { h.ctx c with next := some (h.jobPage c k ns, h.now) } else h

theorem Hub.startJobs_eq (h : Hub) (g k ns : Nat) : h.startJobs g k ns = (h.liveCtx.filter fun c => h.ctxGroup c == g).foldl (Hub.startJob k ns) h := rfl

theorem Hub.startJob_page (h : Hub) (k ns x c : Nat) : (h.startJob k ns x).jobPage c k ns = h.jobPage c k ns ∧ (h.startJob k ns x).now = h.now := by
  unfold Hub.startJob
  split <;> exact ⟨rfl, rfl⟩

/-- A job once started stands, also where the same context is named again. -/
theorem Hub.startJob_keeps {h : Hub} {k ns c : Nat} (x : Nat) (hn : (h.ctx c).next = some (h.jobPage c k ns, h.now)) :
    ((h.startJob k ns x).ctx c).next = some ((h.startJob k ns x).jobPage c k ns, (h.startJob k ns x).now) := by
  rw [(h.startJob_page k ns x c).1, (h.startJob_page k ns x c).2]
  unfold Hub.startJob
  split
  · rw [Hub.ctx_setCtx]
    split
    next e => rw [e]
    · exact hn
  · exact hn

theorem Hub.startJob_idle {h : Hub} {k ns c : Nat} (x : Nat) (hs : (h.ctx c).st = .idle) : ((h.startJob k ns x).ctx c).st = .idle := by
  unfold Hub.startJob
  split
  · rw [Hub.ctx_setCtx]
    split
    next e => exact e ▸ hs
    · exact hs
  · exact hs

theorem Hub.startJob_takes {h : Hub} (k ns : Nat) {c : Nat} (hs : (h.ctx c).st = .idle) :
    ((h.startJob k ns c).ctx c).next = some (h.jobPage c k ns, h.now) := by
  unfold Hub.startJob
  rw [if_pos (by simp [Hub.takesJob, hs]), Hub.ctx_setCtx_same]

theorem Hub.startJob_foldl_keeps {k ns c : Nat} (l : List Nat) {h : Hub} (hn : (h.ctx c).next = some (h.jobPage c k ns, h.now)) :
    ((l.foldl (Hub.startJob k ns) h).ctx c).next = some (h.jobPage c k ns, h.now) := by
  induction l generalizing h with
  | nil => exact hn
  | cons x xs ih =>
    have := ih (Hub.startJob_keeps x hn)
    rwa [(h.startJob_page k ns x c).1, (h.startJob_page k ns x c).2] at this

/-- Every idle context of the list gets the job of its edge. -/
theorem Hub.startJob_foldl {k ns c : Nat} {l : List Nat} (hc : c ∈ l) {h : Hub} (hs : (h.ctx c).st = .idle) :
    ((l.foldl (Hub.startJob k ns) h).ctx c).next = some (h.jobPage c k ns, h.now) := by
  induction l generalizing h with
  | nil => cases hc
  | cons x xs ih =>
    rw [List.foldl_cons, ← (h.startJob_page k ns x c).1, ← (h.startJob_page k ns x c).2]
    rcases List.mem_cons.1 hc with rfl | hmem
    · refine Hub.startJob_foldl_keeps xs ?_
      rw [(h.startJob_page k ns c c).1, (h.startJob_page k ns c c).2]
      exact Hub.startJob_takes k ns hs
    · exact ih hmem (Hub.startJob_idle x hs)

/-! ## Snoop units -/

theorem snoopWord_enables (w : Word) : bits ((w ||| 1) &&& 0x000FFF3F) F.SNP_CFG_EN = 1 := by
  refine (bits_eq_iff (f := ⟨0, 1, .rw⟩) (y := 1)).2 fun i hi => ?_
  obtain rfl : i = 0 := by simpa [RegField.has] using hi
  simp

theorem Hub.snoopCfgWrite_on {h : Hub} {u : Nat} {w : Word} (he : h.flag (Reg.SNP_CFG u) F.SNP_CFG_EN = false)
    (hw : bits (w &&& 0x000FFF3F) F.SNP_CFG_EN = 1) :
    (∀ p, h.snoopCfgOk (w &&& 0x000FFF3F) = true → h.polyOf (bits (w &&& 0x000FFF3F) F.SNP_CFG_POLY) = some p →
      h.snoopCfgWrite u w = (h.wr (Reg.SNP_CFG u) (w &&& 0x000FFF3F)).snoopStart u p) ∧
    (h.snoopCfgOk (w &&& 0x000FFF3F) = false → h.snoopCfgWrite u w = h.evt Reg.CRC_EVT F.CRC_EVT_WRITE_REFUSED) := by
  unfold Hub.snoopCfgWrite
  simp only [he, hw, Bool.false_eq_true, if_false, if_true]
  refine ⟨fun p ho hp => ?_, fun ho => ?_⟩
  · simp only [hp, ho, if_true]
  · simp only [ho, Bool.false_eq_true, if_false]
    split <;> rfl

/-- The result that an `INIT` latches is the one that the unit had. -/
theorem Hub.snoopOut_snoopEnd {h : Hub} {u : Nat} (he : (h.snoop u).ended h.now = none) : (h.snoopEnd u true true).snoopOut u = h.snoopResult u := by
  have hx : (h.snoopEnd u true true).snoop u = _ := Hub.snoop_setSnoop_same _ _ _
  have htaken : ((h.snoopEnd u true true).snoop u).taken h.now = (h.snoop u).reg := by
    rw [hx, he]
    simp [Snoop.taken, Snoop.ended, Option.filter]
  show ((h.snoopEnd u true true).snoop u).result (((h.snoopEnd u true true).snoop u).taken h.now) = _
  rw [htaken, hx]
  rfl

/-- Settles O34. -/
theorem carouselMemoriesStrumAndSnoop : Obligations.CarouselMemoriesStrumAndSnoop := by
  unfold Obligations.CarouselMemoriesStrumAndSnoop
  refine ⟨fun s i w hh => makes_on (fun h => h.carProgWrite i.toNat w) hh rfl rfl, fun s c i w hh hc => ?_, fun s w => ?_,
    fun s temp sig hh h1 h2 h3 => ?_, fun h k g => h.edgeOf_iff k g, fun h g k ns c hm hg hs => ?_, fun s u w => ?_, fun s u hh => ?_⟩
  · exact makes_on (fun h => h.ctxDataWrite c.toNat i.toNat w) hh rfl (if_neg (by omega))
  · intro a h hh hs
    have hread := Hub.scrAsk_eq none hs
    have hwrite := Hub.scrAsk_eq (some w) hs
    refine ⟨fun ho => ⟨?_, ?_⟩, fun ho => ⟨?_, ?_⟩⟩
    · exact makes_on (fun h => h.scrAsk none false) hh rfl (hread.trans (if_pos ho))
    · exact makes_on (fun h => h.scrAsk (some w) false) hh rfl (hwrite.trans (if_pos ho))
    · exact makes_on (fun h => h.scrAsk none false) hh rfl (hread.trans (if_neg (by simp [ho])))
    · exact makes_on (fun h => h.scrAsk (some w) false) hh rfl (hwrite.trans (if_neg (by simp [ho])))
  · exact makes_on (fun h => h.baseEdge temp.toInt sig.toNat) hh rfl (if_pos ⟨h1, h2, h3⟩)
  · exact Hub.startJob_foldl (List.mem_filter.2 ⟨hm, by simpa using hg⟩) hs
  · intro w1 hh he
    obtain ⟨hok, hbad⟩ := Hub.snoopCfgWrite_on he (snoopWord_enables w)
    exact ⟨fun p ho hp => makes_on (fun h => h.snoopCfgWrite u (w ||| 1)) hh rfl (hok p ho hp),
      fun ho => makes_on (fun h => h.snoopCfgWrite u (w ||| 1)) hh rfl (hbad ho)⟩
  · have hne : Reg.SNP_LAST u ≠ Reg.SNP_FRAMES u := by simp [Reg.SNP_LAST, Reg.SNP_FRAMES]
    have hunit : (s.hub.snoopInit u).snoop u = _ := Hub.snoop_setSnoop_same _ _ _
    refine gives_on (fun h => h.snoopInit u) hh rfl ⟨?_, fun a ha => ?_, fun he => ?_, ?_, ?_, fun p hp => ?_⟩
    · exact only_hub rfl fun p hp => by cases p <;> first | rfl | simp at hp
    · simp only [List.mem_cons, List.not_mem_nil, or_false, not_or] at ha
      exact (Hub.rd_setFld_ne _ _ _ ha.2).trans (Hub.rd_wr_ne _ _ ha.1)
    · refine (Hub.rd_setFld_ne _ _ _ hne).trans ((Hub.rd_wr_same _ _ _).trans ?_)
      rw [Hub.snoopOut_snoopEnd he]
    · exact Hub.flag_setFld_bitB _ _ _ true (by decide)
    · exact congrArg Snoop.count hunit
    · refine (congrArg Snoop.reg hunit).trans ?_
      simp only [show (s.hub.snoop u).poly = some p from hp]

end Sys2Proof.Machine

/-! The traffic manager (R240 to R254, R258). -/

namespace Sys2Proof.Machine

/-! ## Enabling a queue and a policer -/

theorem tqWord_enables (w : Word) : bits ((w ||| 1) &&& 0x0003FFFF) F.TM_Q_CFG_EN = 1 := by
  refine (bits_eq_iff (f := ⟨0, 1, .rw⟩) (y := 1)).2 fun i hi => ?_
  obtain rfl : i = 0 := by simpa [RegField.has] using hi
  simp

theorem polWord_enables (w : Word) : bits ((w ||| 0x80000000) &&& 0x80FFFFFF) F.POL_CFG_EN = 1 := by
  refine (bits_eq_iff (f := ⟨31, 1, .rw⟩) (y := 0x80000000)).2 fun i hi => ?_
  obtain rfl : i = 31 := by simp [RegField.has] at hi; omega
  simp

/-- A stopped queue is started where its settings pass the checks, and is left alone where they do not (R241). -/
theorem Hub.tqCfgWrite_stopped {h : Hub} {q : Nat} {w : Word} (hs : h.tqStopped q = true) (hw : bits (w &&& 0x0003FFFF) F.TM_Q_CFG_EN = 1) :
    h.tqCfgWrite q w = if h.tqCfgOk q (w &&& 0x0003FFFF) then
        (h.wr (Reg.TM_Q_CFG q) (w &&& 0x0003FFFF)).setTq q
          { h.tq q with pa := { (h.tq q).pa with e := 0, hold := .none }, pb := { (h.tq q).pb with e := 0, hold := .none } }
      else h.evt Reg.TM_EVT F.TM_EVT_WRITE_REFUSED := by
  unfold Hub.tqCfgWrite
  simp only [hs, hw, if_true]
  rfl

theorem Hub.setBucket_rd (h : Hub) (i : Nat) (x : Bucket) (a : Nat) : (h.setBucket i x).rd a = h.rd a := rfl

theorem Hub.setBucket_cbs_wr (h : Hub) (i : Nat) (x : Bucket) (v : Word) : ((h.setBucket i x).wr (Reg.POL_CFG i) v).cbs i = h.cbs i := by
  unfold Hub.cbs
  rw [Hub.fld_of_rd _ (Hub.rd_wr_ne _ _ (by simp only [Reg.POL_CBS, Reg.POL_CFG]; omega)), Hub.fld_of_rd _ (Hub.setBucket_rd h i _ _)]

theorem Hub.setBucket_baseNs_wr (h : Hub) (i : Nat) (x : Bucket) (a : Nat) (v : Word) :
    ((h.setBucket i x).wr a v).baseNs 3 = h.baseNs 3 := rfl

theorem Hub.setBucket_with_regs (h : Hub) (i : Nat) (x : Bucket) : ({ h.setBucket i x with regs := h.regs } : Hub) = h.setBucket i x := rfl

theorem Hub.setBucket_flag_wr (h : Hub) (i : Nat) (x : Bucket) {v : Word} (hv : bits v F.POL_CFG_EN = 1) :
    ((h.setBucket i x).wr (Reg.POL_CFG i) v).flag (Reg.POL_CFG i) F.POL_CFG_EN = true := by
  rw [Hub.flag, Hub.fld, Hub.rd_wr_same, hv]
  rfl

/-- A policer that is set on has a full bucket (R249). -/
theorem Hub.polCfgWrite_on {h : Hub} {i : Nat} {w v : Word} (hv : w &&& 0x80FFFFFF = v) (hoff : h.flag (Reg.POL_CFG i) F.POL_CFG_EN = false)
    (hw : bits v F.POL_CFG_EN = 1) :
    h.polCfgWrite i w = ((h.setBucket i (h.refill i)).wr (Reg.POL_CFG i) v).setBucket i { tokens := h.cbs i, at_ := h.baseNs 3 } := by
  unfold Hub.polCfgWrite
  dsimp only
  rw [hv, Hub.setBucket_with_regs, hoff, Hub.setBucket_flag_wr _ _ _ hw, Hub.fillBucket, Hub.setBucket_cbs_wr, Hub.setBucket_baseNs_wr]
  exact if_pos rfl

/-- A word and twice a bucket are set. -/
theorem setBucket_wr_spec (s : State) (i a : Nat) (b x : Bucket) (v : Word) :
    let t : State := { s with hub := ((s.hub.setBucket i b).wr a v).setBucket i x }
    Only [.regs, .tm] s t ∧ RegsBut [a] s t ∧ t.hub.rd a = v ∧ t.hub.bucket i = x ∧ ∀ j, j ≠ i → t.hub.bucket j = s.hub.bucket j := by
  intro t
  refine ⟨only_hub rfl fun p hp => by cases p <;> first | rfl | simp at hp, fun m hm => ?_, ?_, ?_, fun j hj => ?_⟩
  · exact (Hub.rd_wr_ne _ _ (by simpa using hm)).trans rfl
  · exact Hub.rd_wr_same _ _ _
  · exact Hub.bucket_setBucket_same _ _ _
  · exact (Hub.bucket_setBucket _ _ _ _).trans ((if_neg hj).trans ((Hub.bucket_setBucket s.hub _ _ _).trans (if_neg hj)))

theorem policerEnable_gives {s : State} {i : Fin 256} {w u v : Word} (hu : w ||| 0x80000000 = u) (hv : u &&& 0x80FFFFFF = v)
    (hh : s.hub.held = false) (hoff : s.hub.flag (Reg.POL_CFG i) F.POL_CFG_EN = false) (hen : bits v F.POL_CFG_EN = 1) :
    Gives (.policerEnable i w) s fun t => Only [.regs, .tm] s t ∧ RegsBut [Reg.POL_CFG i] s t ∧ t.hub.rd (Reg.POL_CFG i) = v ∧
      t.hub.bucket i = { tokens := s.hub.cbs i, at_ := s.hub.baseNs 3 } ∧ ∀ j, j ≠ i.val → t.hub.bucket j = s.hub.bucket j := by
  refine gives_on (fun h => h.polCfgWrite i (w ||| 0x80000000)) hh rfl ?_
  rw [hu, Hub.polCfgWrite_on hv hoff hen]
  exact setBucket_wr_spec s i (Reg.POL_CFG i) (s.hub.refill i) { tokens := s.hub.cbs i, at_ := s.hub.baseNs 3 } v

/-! ## A frame that leaves a queue -/

/-- The hub without the parts that the release of a copy touches. -/
def Hub.offBuffer (h : Hub) : Hub := { h with regs := [], twin := {}, swc := {} }

theorem Hub.eq_of_offBuffer {h k : Hub} (e : k.offBuffer = h.offBuffer) : k = { h with regs := k.regs, twin := k.twin, swc := k.swc } := by
  cases k
  cases h
  simp only [Hub.offBuffer, Hub.mk.injEq, true_and] at e ⊢
  exact e

theorem Hub.moveCells_buffer (h : Hub) (used : Bool) (l : List Nat) : (h.moveCells used l).offBuffer = h.offBuffer := by
  unfold Hub.moveCells
  refine foldl_keeps Hub.offBuffer _ ?_ l h
  exact fun _ _ => rfl

theorem Hub.departed_buffer (h : Hub) (f : Frame) : (h.departed f).offBuffer = h.offBuffer := by
  unfold Hub.departed
  split
  · rw [Hub.jnl_fields]
    rfl
  · rfl

theorem Hub.release_buffer (h : Hub) (id : Nat) : (h.release id).offBuffer = h.offBuffer := by
  unfold Hub.release
  dsimp only
  split
  · rw [Hub.departed_buffer]
    have hcells := Hub.moveCells_buffer { h with swc := { h.swc with buf := tset none h.swc.buf id none } } false (h.frame id).cells
    unfold Hub.giveCells
    generalize Hub.moveCells _ false (h.frame id).cells = k at hcells
    split <;> split <;> exact hcells
  · rfl

theorem Hub.release_but (h : Hub) (id : Nat) :
    h.release id = { h with regs := (h.release id).regs, twin := (h.release id).twin, swc := (h.release id).swc } :=
  Hub.eq_of_offBuffer (h.release_buffer id)

theorem Hub.moveCells_regs (h : Hub) (used : Bool) (l : List Nat) : (h.moveCells used l).regs = h.regs := by
  unfold Hub.moveCells
  refine foldl_keeps Hub.regs _ ?_ l h
  exact fun _ _ => rfl

theorem Hub.departed_rd (h : Hub) (f : Frame) {a : Nat} (h1 : a ≠ Reg.TWIN_CNT_JNL_OVERFLOW) (h2 : a ≠ Reg.TWIN_EVT) :
    (h.departed f).rd a = h.rd a := by
  unfold Hub.departed
  split
  · exact h.jnl_rd _ _ h1 h2
  · rfl

theorem Hub.release_rd (h : Hub) (id : Nat) {a : Nat} (h1 : a ≠ Reg.TWIN_CNT_JNL_OVERFLOW) (h2 : a ≠ Reg.TWIN_EVT) :
    (h.release id).rd a = h.rd a := by
  unfold Hub.release
  dsimp only
  split
  · rw [Hub.departed_rd _ _ h1 h2]
    have hcells := Hub.moveCells_regs { h with swc := { h.swc with buf := tset none h.swc.buf id none } } false (h.frame id).cells
    unfold Hub.giveCells
    generalize Hub.moveCells _ false (h.frame id).cells = k at hcells
    refine Hub.rd_congr ?_ a
    split <;> split <;> exact hcells
  · rfl

/-! ## Flushing a queue -/

/-- A frame is flushed: one that is being sent is not yet released (R258). -/
def Hub.tqDiscard (q : Nat) (h : Hub) (id : Nat) : Hub := if h.onLine q id then h.tqTake q id else h.tqRemove q id

theorem Hub.tqDiscard_but (h : Hub) (q id : Nat) : h.tqDiscard q id =
    { h with regs := (h.tqDiscard q id).regs, twin := (h.tqDiscard q id).twin, swc := (h.tqDiscard q id).swc, tm := (h.tqDiscard q id).tm } := by
  unfold Hub.tqDiscard
  split
  · rfl
  · unfold Hub.tqRemove
    rw [Hub.release_but]
    rfl

theorem Hub.tqDiscard_rd (h : Hub) (q id : Nat) {a : Nat} (h1 : a ≠ Reg.TWIN_CNT_JNL_OVERFLOW) (h2 : a ≠ Reg.TWIN_EVT) :
    (h.tqDiscard q id).rd a = h.rd a := by
  unfold Hub.tqDiscard
  split
  · rfl
  · exact (Hub.release_rd _ _ h1 h2).trans rfl

theorem Hub.tqTake_ents (h : Hub) (q id : Nat) : ((h.tqTake q id).tq q).ents = (h.tq q).ents.filter (fun e => e.id != id) :=
  congrArg TQueue.ents (h.tq_setTq_same q _)

theorem Hub.tqDiscard_ents (h : Hub) (q id : Nat) : ((h.tqDiscard q id).tq q).ents = (h.tq q).ents.filter (fun e => e.id != id) := by
  unfold Hub.tqDiscard
  split
  · exact h.tqTake_ents q id
  · have htm : (h.tqRemove q id).tm = (h.tqTake q id).tm := by rw [Hub.tqRemove, Hub.release_but]
    rw [Hub.tq_congr (congrArg TmBlk.q htm)]
    exact h.tqTake_ents q id

/-- Discarding every frame of a queue leaves it empty. -/
theorem Hub.discardAll_ents (q : Nat) : ∀ (ids : List Nat) (h : Hub), (∀ e ∈ (h.tq q).ents, e.id ∈ ids) →
    ((ids.foldl (Hub.tqDiscard q) h).tq q).ents = [] := by
  intro ids
  induction ids with
  | nil => exact fun h hin => List.eq_nil_iff_forall_not_mem.2 fun e he => List.not_mem_nil (hin e he)
  | cons id ids ih =>
    intro h hin
    refine ih _ fun e he => ?_
    rw [Hub.tqDiscard_ents, List.mem_filter] at he
    have hne : e.id ≠ id := by simpa using he.2
    exact (List.mem_cons.1 (hin e he.1)).resolve_left hne

theorem Hub.discardAll_but (q : Nat) : ∀ (ids : List Nat) (h : Hub), ids.foldl (Hub.tqDiscard q) h =
    { h with regs := (ids.foldl (Hub.tqDiscard q) h).regs, twin := (ids.foldl (Hub.tqDiscard q) h).twin,
             swc := (ids.foldl (Hub.tqDiscard q) h).swc, tm := (ids.foldl (Hub.tqDiscard q) h).tm } := by
  intro ids
  induction ids with
  | nil => exact fun _ => rfl
  | cons id ids ih =>
    intro h
    rw [List.foldl_cons, ih, Hub.tqDiscard_but]

theorem Hub.discardAll_rd (q : Nat) (ids : List Nat) (h : Hub) {a : Nat} (h1 : a ≠ Reg.TWIN_CNT_JNL_OVERFLOW) (h2 : a ≠ Reg.TWIN_EVT) :
    (ids.foldl (Hub.tqDiscard q) h).rd a = h.rd a :=
  foldl_keeps (fun h => h.rd a) _ (fun h id => h.tqDiscard_rd q id h1 h2) ids h

/-- The hub whose queue has had its frames discarded. -/
def Hub.discarded (h : Hub) (q : Nat) : Hub :=
  ((h.tq q).ents.map (·.id)).foldl (Hub.tqDiscard q) (h.countN (Reg.TM_Q_CNT_FLUSHED q) ((h.tq q).ents.map (·.id)).length)

theorem Hub.tqFlush_eq (h : Hub) (q : Nat) : h.tqFlush q = ((h.discarded q).setTq q
    { (h.discarded q).tq q with c := { ((h.discarded q).tq q).c with high := false }, popped := 0, mark := 0 }).setFld
      (Reg.TM_Q_STAT q) F.TM_Q_STAT_WM_CROSS 0 := rfl

theorem Hub.tqFlush_but (h : Hub) (q : Nat) : h.tqFlush q =
    { h with regs := (h.tqFlush q).regs, twin := (h.tqFlush q).twin, swc := (h.tqFlush q).swc, tm := (h.tqFlush q).tm } := by
  rw [Hub.tqFlush_eq, Hub.discarded, Hub.discardAll_but]
  rfl

theorem Hub.tqFlush_empty (h : Hub) (q : Nat) : ((h.tqFlush q).tq q).ents = [] ∧ ((h.tqFlush q).tq q).mark = 0 := by
  have hq := (h.discarded q).tq_setTq_same q
    { (h.discarded q).tq q with c := { ((h.discarded q).tq q).c with high := false }, popped := 0, mark := 0 }
  refine ⟨(congrArg TQueue.ents hq).trans ?_, congrArg TQueue.mark hq⟩
  exact Hub.discardAll_ents q _ _ fun e he => List.mem_map_of_mem he

theorem Hub.tqFlush_rd (h : Hub) (q : Nat) {a : Nat} (h1 : a ≠ Reg.TM_Q_CNT_FLUSHED q) (h2 : a ≠ Reg.TM_Q_STAT q)
    (h3 : a ≠ Reg.TWIN_CNT_JNL_OVERFLOW) (h4 : a ≠ Reg.TWIN_EVT) : (h.tqFlush q).rd a = h.rd a := by
  rw [Hub.tqFlush_eq, Hub.rd_setFld_ne _ _ _ h2]
  exact (Hub.discardAll_rd q _ _ h3 h4).trans (Hub.rd_countN_ne _ _ h1)

theorem Hub.tqFlush_wmCross (h : Hub) (q : Nat) : (h.tqFlush q).fld (Reg.TM_Q_STAT q) F.TM_Q_STAT_WM_CROSS = 0 := by
  rw [Hub.tqFlush_eq]
  exact (Hub.fld_setFld _ _ _ _ (by decide)).trans (Nat.zero_mod _)

/-! ## Heads, placement and policing -/

/-- The head copy of a queue on a port came in an earlier cycle and is still to be sent there. -/
theorem Hub.headOn_spec {h : Hub} {p q id : Nat} {second : Bool} (hh : h.headOn p q = some (id, second)) :
    h.tqOnPort q p = some second ∧ ∃ e ∈ (h.tq q).ents, e.id = id ∧ e.at_ < h.now ∧ (if second then e.b else e.a) = true := by
  unfold Hub.headOn at hh
  split at hh
  next => cases hh
  next b hb =>
    obtain ⟨e, hfind, he⟩ := Option.map_eq_some_iff.1 hh
    cases he
    have hat := List.find?_some hfind
    have hmem := List.mem_of_find?_eq_some hfind
    have hin : e ∈ (h.tq q).ents.filter fun e => if second then e.b else e.a := by
      split at hmem
      · exact List.mem_of_mem_take hmem
      · exact hmem
    obtain ⟨hents, hcopy⟩ := List.mem_filter.1 hin
    simp only [Bool.and_eq_true, decide_eq_true_eq] at hat
    exact ⟨hb, e, hents, rfl, hat.1, hcopy⟩

/-- A frame of the node's own that the default policer of its port drops has only departed (R248). -/
theorem Hub.ownIn_dropped {h : Hub} {x : OwnIn} {i : Nat} (hp : h.defPol x.port = some i)
    (hdrop : (h.police i (frameLen x.frame.bytes)).1 = false) :
    h.ownIn x = (h.police i (frameLen x.frame.bytes)).2.departed x.frame := by
  unfold Hub.ownIn
  rw [hp]
  simp only [Hub.policeBy]
  cases hpol : h.police i (frameLen x.frame.bytes) with
  | mk b k =>
    rw [hpol] at hdrop
    cases hdrop
    rfl

/-- Placement in an enabled normal queue turns on credit alone (R240). -/
theorem Hub.place_normal {h : Hub} {q id : Nat} {need : Option Nat} {lossy : Bool} (hon : h.tqOn q = true) (hl : h.tqLaunch q = false)
    (hneed : need = none ∨ need = some (h.tqOut q)) :
    h.place q id need lossy =
      if h.tqCredit q then h.tqPush q id
      else if lossy then
        (((h.count (Reg.TM_Q_CNT_NOCREDIT q)).count Reg.TM_CNT_NOCREDIT_DROP).evt Reg.TM_EVT F.TM_EVT_NOCREDIT_DROP).release id
      else (h.setTq q { h.tq q with waiting := (h.tq q).waiting ++ [id] }).setFrame id { h.frame id with need := need } := by
  have hj : h.judgePlace q id need lossy = if h.tqCredit q then .placed else if lossy then .noCredit else .waits := by
    unfold Hub.judgePlace
    rw [if_neg (by rcases hneed with rfl | rfl <;> simp [hon]), if_neg (by simp [hl])]
  unfold Hub.place
  rw [hj]
  cases h.tqCredit q
  · cases lossy <;> rfl
  · rfl

theorem Hub.police_on {h : Hub} {i : Nat} (l : Nat) (hon : h.flag (Reg.POL_CFG i) F.POL_CFG_EN = true) :
    h.police i l = if l * 8000000 ≤ (h.refill i).tokens then
        (true, h.setBucket i { h.refill i with tokens := (h.refill i).tokens - l * 8000000 })
      else (false, (((h.setBucket i (h.refill i)).count (Reg.POL_CNT_DROP i)).count Reg.TM_CNT_POL_DROP).evt Reg.TM_EVT F.TM_EVT_POL_DROP) := by
  unfold Hub.police
  rw [if_pos hon]

theorem Hub.bucket_drained (h : Hub) (i : Nat) {b : Bucket} {n : Nat} (hn : n ≤ b.tokens) :
    ((h.setBucket i { b with tokens := b.tokens - n }).bucket i).tokens + n = b.tokens := by
  rw [Hub.bucket_setBucket_same]
  exact Nat.sub_add_cancel hn

/-- A policer that is on passes what its tokens cover, and takes them (R249). -/
theorem Hub.police_spec {h : Hub} {i : Nat} (l : Nat) (hon : h.flag (Reg.POL_CFG i) F.POL_CFG_EN = true) :
    (h.police i l).1 = decide (l * 8000000 ≤ (h.refill i).tokens) ∧
      ((h.police i l).1 = true → ((h.police i l).2.bucket i).tokens + l * 8000000 = (h.refill i).tokens) := by
  rw [Hub.police_on l hon]
  by_cases hle : l * 8000000 ≤ (h.refill i).tokens
  · rw [if_pos hle, decide_eq_true hle]
    exact ⟨rfl, fun _ => h.bucket_drained i hle⟩
  · rw [if_neg hle, decide_eq_false hle]
    exact ⟨rfl, fun hp => by cases hp⟩

/-! ## A port's choice -/

theorem Hub.portChoice_free {h : Hub} {p : Nat} (h3 : p ≠ 3) (h4 : p ≠ 4) (hfree : (h.endTx p).portFree p = true) :
    let k := if p ≤ 2 then (h.endTx p).expireHeads p else h.endTx p
    (∀ q id second t, p ≤ 2 → k.dueHead p = some (q, id, second, t) → h.portChoice p = (k.dueFrom p q t).sendCopy p q id second) ∧
      ∀ q id second, 2 < p ∨ k.dueHead p = none → k.normalHead p = some (q, id, second) →
        h.portChoice p = if k.fitsBefore p q (k.copyWire p q (k.frame id)) then k.sendCopy p q id second else k := by
  intro k
  have hk : k = if p ≤ 2 then (h.endTx p).expireHeads p else h.endTx p := rfl
  clear_value k
  unfold Hub.portChoice
  rw [if_neg (by simp [h3, h4])]
  dsimp only
  rw [if_neg (by simp [hfree]), ← hk]
  refine ⟨fun q id second t hp hd => ?_, fun q id second hd hn => ?_⟩
  · rw [if_pos hp, hd]
  · have hnone : (if p ≤ 2 then k.dueHead p else none) = none := by
      rcases hd with hd | hd
      · rw [if_neg (Nat.not_le.2 hd)]
      · rw [hd, ite_self]
    rw [hnone]
    simp only [hn]

/-- A port's choice of a due launch-time head (R251). -/
def Hub.launchChoice (h : Hub) (p : Nat) : Hub :=
  if (h.endTx p).portFree p then
    match (h.endTx p).dueHead p with
    | some (q, id, second, t) => ((h.endTx p).dueFrom p q t).sendCopy p q id second
    | none => h.endTx p
  else h.endTx p

theorem Hub.expireHeads_one {h : Hub} {p q id t : Nat} {second : Bool} (hl : h.launchHeads p = [(q, id, second, t)]) :
    h.expireHeads p = if h.tooLate p q t then
        (((h.count (Reg.TM_Q_CNT_LATE q)).count Reg.TM_CNT_LATE_DROP).evt Reg.TM_EVT F.TM_EVT_LATE_DROP).dropCopy q id second
      else h := by
  unfold Hub.expireHeads
  rw [hl, List.foldl_cons, List.foldl_nil]

theorem runTmPolFill_ok (h : Hub) (src : CmdSrc) (tag : Byte) {iw : Word} (hi : iw.toNat < 256) :
    runTmPolFill h (mkCmd src 0x0302 tag [iw]) = .done (h.setBucket iw.toNat { tokens := h.cbs iw.toNat, at_ := h.baseNs 3 }) [] := by
  have e1 : (mkCmd src 0x0302 tag [iw]).arg 1 = iw.toNat := rfl
  unfold runTmPolFill
  simp only [e1]
  rw [if_neg (by rw [zeroFrom_mkCmd _ _ _ _ 2 rfl]; simp; omega), Hub.fillBucket]

theorem launchWindowExpiry_makes (p : Fin 3) (s : State) (q id t : Nat) (second : Bool) (hh : s.hub.held = false)
    (hl : s.hub.launchHeads p = [(q, id, second, t)]) :
    Makes (.launchWindowExpiry p) s
      (if s.hub.tooLate p q t then
        (((s.hub.count (Reg.TM_Q_CNT_LATE q)).count Reg.TM_CNT_LATE_DROP).evt Reg.TM_EVT F.TM_EVT_LATE_DROP).dropCopy q id second
       else s.hub) :=
  makes_on (fun h => h.expireHeads p) hh rfl (Hub.expireHeads_one hl)

/-- `TM_POL_FILL` does what its check leaves to be done. -/
theorem tmPolFill_gives {s : State} (src : CmdSrc) (tag : Byte) {iw : Word} {b : Bucket} :
    let c := mkCmd src 0x0302 tag [iw]
    Accepts s c → runTmPolFill s.hub c = .done (s.hub.setBucket iw.toNat b) [] →
    Gives (.tmPolFill src tag iw) s fun t => Answered c sOK [] s t ∧ CmdOnly [.tm] [] c s t ∧
      t.hub.tm = (s.hub.setBucket iw.toNat b).tm := by
  intro c ha hrun
  exact gives_done (fun h => h.accept c runTmPolFill) [.tm] [] rfl ha (accept_done ha hrun) (by simp) rfl
    (fun p hp => by cases p <;> first | rfl | simp at hp) rfl (fun _ _ => rfl) (fun q => by simp)
    fun k hk _ => hk .tm (by decide) (by decide)

/-- Settles O36, clause by clause. -/
theorem trafficManager : Obligations.TrafficManager := by
  unfold Obligations.TrafficManager
  refine ⟨fun s q w => ?_, fun s i w hh hoff => policerEnable_gives rfl rfl hh hoff (polWord_enables w), 
    fun s src tag iw ha hi => tmPolFill_gives src tag ha (runTmPolFill_ok s.hub src tag hi), fun s src tag qw => ?_, fun s p q id second => ?_,
    fun s p q id t second => ?_, fun s p q id t second hh hl => launchWindowExpiry_makes p s q id t second hh hl,
    fun s j => ?_, fun h p q id second hh => Hub.headOn_spec hh,
    fun h x i hp hd => Hub.ownIn_dropped hp hd, fun h q id need lossy hon hl hn => Hub.place_normal hon hl hn,
    fun h i l hon => Hub.police_spec l hon⟩
  · intro w1 k x hh hs
    have hw := Hub.tqCfgWrite_stopped hs (tqWord_enables w)
    refine ⟨fun hok => ?_, fun hok => ?_⟩
    · exact makes_on (fun h => h.tqCfgWrite q (w ||| 1)) hh rfl (hw.trans (if_pos hok))
    · exact makes_on (fun h => h.tqCfgWrite q (w ||| 1)) hh rfl (hw.trans (if_neg (by rw [hok]; decide)))
  · intro c q ha hq hoff
    have hrun : runTmQFlush s.hub c = .done (s.hub.tqFlush q) [] := by
      have e1 : c.arg 1 = q := rfl
      unfold runTmQFlush
      simp only [e1, hoff]
      rw [if_neg (by rw [zeroFrom_mkCmd _ _ _ _ 2 rfl]; simp; omega)]
      rfl
    have hbut := s.hub.tqFlush_but q
    obtain ⟨hents, hmark⟩ := s.hub.tqFlush_empty q
    refine gives_done (fun h => h.accept c runTmQFlush) [.tm, .swc, .twin]
      [Reg.TM_Q_CNT_FLUSHED q, Reg.TM_Q_STAT q, Reg.TWIN_CNT_JNL_OVERFLOW, Reg.TWIN_EVT] rfl ha (accept_done ha hrun) (by simp)
      (by rw [hbut]) (fun p hp => by rw [hbut]; cases p <;> first | rfl | simp at hp) (by rw [hbut]) (fun a hna => ?_) (fun q' => ?_)
      fun k hk hkr => ?_
    · simp only [List.mem_cons, List.not_mem_nil, or_false, not_or] at hna
      obtain ⟨h1, h2, h3, h4⟩ := hna
      exact s.hub.tqFlush_rd q h1 h2 h3 h4
    · simp [Reg.HQ_RSP, Reg.TM_Q_CNT_FLUSHED, Reg.TM_Q_STAT, Reg.TWIN_CNT_JNL_OVERFLOW, Reg.TWIN_EVT]
      omega
    · have htm : k.tm = (s.hub.tqFlush q).tm := hk .tm (by decide) (by decide)
      have htq := Hub.tq_congr (congrArg TmBlk.q htm) q
      refine ⟨htm, hk .swc (by decide) (by decide), (congrArg TQueue.ents htq).trans hents, (congrArg TQueue.mark htq).trans hmark, ?_⟩
      exact (Hub.fld_of_rd _ (hkr _ (not_ackRegs c s (by simp only [Reg.TM_Q_STAT]; omega)))).trans (s.hub.tqFlush_wmCross q)
  · intro h k hh h3 h4 hfree
    obtain ⟨hdue, hnormal⟩ := Hub.portChoice_free (h := s.hub) h3 h4 hfree
    exact ⟨fun t hp hd => makes_on (fun h => h.portChoice p) hh rfl (hdue q id second t hp hd),
      fun hd hn => makes_on (fun h => h.portChoice p) hh rfl (hnormal q id second hd hn)⟩
  · intro k hh hfree hd
    refine makes_on (fun h => h.launchChoice p) hh rfl ?_
    unfold Hub.launchChoice
    rw [if_pos hfree, hd]
  · intro k h hh
    refine ⟨fun h1 h2 => makes_on (fun h => h.wheelSlot j) hh rfl ?_, fun hno => makes_on (fun h => h.wheelSlot j) hh rfl ?_⟩
    · unfold Hub.wheelSlot
      exact if_neg (by simp only [not_or, not_not]; exact ⟨h1, h2⟩)
    · unfold Hub.wheelSlot
      exact if_pos hno

end Sys2Proof.Machine

/-! Midway (R262 to R287). -/

namespace Sys2Proof.Machine

/-! ## Frames that enter Midway -/

theorem Hub.frame_setFrame (h : Hub) (id : Nat) (f : Frame) : (h.setFrame id f).frame id = f := by
  simp [Hub.frame, Hub.setFrame]

theorem Hub.lookFrame_frame (h : Hub) (p id : Nat) : (h.lookFrame p id).frame id =
    { h.frame id with look := some (h.lookup p (h.frame id).bytes), cls := h.classOf p (h.frame id).bytes,
                      gen := some ((h.lookup p (h.frame id).bytes).table, (h.lookup p (h.frame id).bytes).gen) } :=
  h.frame_setFrame id _

theorem Hub.midwayNext_some {h : Hub} {a : Arrival} (ha : (h.swc.arrivals.find? fun a => decide (a.at_ < h.now)) = some a) :
    let k : Hub := { h with swc := { h.swc with arrivals := h.swc.arrivals.erase a } }
    h.midwayNext = if a.whole then k.wholeIn a else k.headIn a.port a.id := by
  unfold Hub.midwayNext
  simp only [ha]

theorem Hub.midwayNext_none {h : Hub} (ha : (h.swc.arrivals.find? fun a => decide (a.at_ < h.now)) = none) : h.midwayNext = h := by
  unfold Hub.midwayNext
  simp only [ha]

/-- A whole frame that is not yet looked up is looked up, policed, and enters its VOQs (R262, R264). -/
theorem Hub.wholeIn_new {h : Hub} {a : Arrival} (hlook : (h.frame a.id).look = none) (hcut : (h.frame a.id).cut = false) :
    let l := h.lookup a.port (h.frame a.id).bytes
    let r := (h.lookFrame a.port a.id).policeBy l.pol (frameLen (h.frame a.id).bytes)
    h.wholeIn a = if r.1 = false then r.2.release a.id else
      (r.2.enterVoqs a.port a.id (l.outs.filter fun o => a.keepLocal || !r.2.localOut (h.frame a.id).bytes o)).release a.id := by
  intro l r
  have hf := h.lookFrame_frame a.port a.id
  unfold Hub.wholeIn
  simp only [hlook, Option.isSome_none, Bool.false_eq_true, if_false, hf, hcut, Option.getD_some, Bool.false_and, Bool.not_false, Bool.and_true]
  rfl

/-- A frame without hops left goes to the node itself at most (R300). -/
theorem Hub.lookNrp_noHops (h : Hub) (p : Nat) {n : Nrp} (hv : 2 ≤ n.ver) (hz : n.hops = 0) : ∀ o ∈ (h.lookNrp p n).outs, o = 5 := by
  have hno : (decide (n.ver = 1) || decide (n.hops ≠ 0)) = false := by simp [hz]; omega
  have hlocal : ∀ (o : Nat) (b : Bool), o ∈ (if b then [5] else []) → o = 5 := fun o b ho => by
    cases b
    · cases ho
    · exact List.mem_singleton.1 ho
  intro o ho
  unfold Hub.lookNrp at ho
  simp only [hno, Bool.and_false, Bool.false_and, Bool.false_eq_true, if_false, List.nil_append] at ho
  exact hlocal o _ ho

/-! ## The crossbar -/

/-- Of two classes the greater, where there are two. -/
def laterClass (m x : Option Nat) : Option Nat :=
  match m, x with
  | none, y => y
  | m, none => m
  | some a, some b => some (max a b)

theorem maxClass_eq (l : List (Option Nat)) : maxClass l = l.foldl laterClass none := rfl

theorem foldl_laterClass (l : List (Option Nat)) : ∀ (m : Option Nat) (c : Nat), l.foldl laterClass m = some c →
    (∀ d, m = some d → d ≤ c) ∧ ∀ d, some d ∈ l → d ≤ c := by
  induction l with
  | nil => exact fun m c hc => ⟨fun d hd => by rw [List.foldl_nil, hd] at hc; cases hc; exact Nat.le_refl _, fun d hd => by cases hd⟩
  | cons x l ih =>
    intro m c hc
    obtain ⟨hm, hl⟩ := ih _ c hc
    refine ⟨fun d hd => ?_, fun d hd => ?_⟩
    · subst hd
      cases x with
      | none => exact hm d rfl
      | some e => exact (Nat.le_max_left d e).trans (hm _ rfl)
    · rcases List.mem_cons.1 hd with rfl | hd
      · cases m with
        | none => exact hm d rfl
        | some e => exact (Nat.le_max_right e d).trans (hm _ rfl)
      · exact hl d hd

/-- A grant goes to a free input whose request is of the highest class (R266). -/
theorem Hub.grant_spec {h : Hub} {free : List Nat} {o i : Nat} (hg : h.grant free o = some i) :
    i ∈ free ∧ ∃ c, h.request i o = some c ∧ ∀ j ∈ free, ∀ d, h.request j o = some d → d ≤ c := by
  unfold Hub.grant at hg
  split at hg
  next => cases hg
  next c hc =>
    have hi := List.find?_some hg
    simp only [Bool.and_eq_true, List.contains_iff_mem, beq_iff_eq] at hi
    obtain ⟨hmem, hreq⟩ := hi
    rw [maxClass_eq] at hc
    have hle := (foldl_laterClass _ none c hc).2
    exact ⟨hmem, c, hreq, fun j hj d hd => hle d (hd ▸ List.mem_map_of_mem hj)⟩

theorem Hub.voqAt_setVoq_same (h : Hub) (i o c : Nat) (l : List VEnt) : (h.setVoq i o c l).voqAt i o c = l := tget_tset_same _ _ _ _

theorem Hub.place_placed {h : Hub} {q id : Nat} {need : Option Nat} {lossy : Bool} (hj : h.judgePlace q id need lossy = .placed) :
    h.place q id need lossy = h.tqPush q id := by
  unfold Hub.place
  rw [hj]

/-- The judgement of a placement looks at words, queues and the buffer's frames alone. -/
theorem Hub.judgePlace_congr {h k : Hub} (hr : k.regs = h.regs) (hn : k.now = h.now) (hq : k.tm.q = h.tm.q) (hb : k.swc.buf = h.swc.buf)
    (q id : Nat) (need : Option Nat) (lossy : Bool) : k.judgePlace q id need lossy = h.judgePlace q id need lossy := by
  have hcfg : ∀ f, k.tqCfg q f = h.tqCfg q f := fun f => Hub.fld_congr hr _ f
  have htq := Hub.tq_congr hq q
  unfold Hub.judgePlace Hub.tqCredit Hub.tqOn Hub.tqOut Hub.tqLaunch Hub.frame
  rw [hcfg, hcfg, hcfg, hcfg, htq, hn, hb]

theorem Hub.tqPush_ents (h : Hub) (q id : Nat) :
    ((h.tqPush q id).tq q).ents = (h.tq q).ents ++ [⟨id, decide (h.tqOut q ≠ 7), h.tqOut q == 2, h.now⟩] :=
  congrArg TQueue.ents (h.tq_setTq_same q _)

/-- The transfer that `x` becomes when the head of its VOQ begins to cross (R263). -/
def Hub.xferCrossing (h : Hub) (x : Xfer) (id : Nat) : Xfer :=
  { x with id := some id, beginAt := h.now,
           endAt := if (h.frame id).arriving then none else some (h.now + ceilDiv (frameLen (h.frame id).bytes) 16 * tuCore) }

/-- A match whose copy finds its place begins to cross (R263, R265). -/
theorem Hub.xferBegin_placed {h : Hub} {x : Xfer} {e : VEnt} {r : List VEnt} (hv : h.voqAt x.inp x.outp x.cls = e :: r)
    (hj : h.judgePlace (h.fwdQueue x.outp x.cls) e.id (some (outCode x.outp)) true = .placed) :
    h.xferBegin x = (({ h with swc := { h.swc with xfers := h.swc.xfers.erase x ++ [h.xferCrossing x e.id] } } : Hub).setVoq
      x.inp x.outp x.cls r).tqPush (h.fwdQueue x.outp x.cls) e.id := by
  have hv' : ({ h with swc := { h.swc with xfers := h.swc.xfers.erase x ++ [h.xferCrossing x e.id] } } : Hub).voqAt x.inp x.outp x.cls = e :: r := hv
  have hplace : Hub.voqPlace { h with swc := { h.swc with xfers := h.swc.xfers.erase x ++ [h.xferCrossing x e.id] } } x.inp x.outp x.cls =
      (({ h with swc := { h.swc with xfers := h.swc.xfers.erase x ++ [h.xferCrossing x e.id] } } : Hub).setVoq
        x.inp x.outp x.cls r).tqPush (h.fwdQueue x.outp x.cls) e.id := by
    unfold Hub.voqPlace
    rw [hv']
    exact Hub.place_placed ((Hub.judgePlace_congr (h := h) rfl rfl rfl rfl _ _ _ _).trans hj)
  unfold Hub.xferBegin
  simp only [hv, hj, beq_self_eq_true, if_true]
  exact hplace

/-! ## Generations and `FENCE` -/

theorem Hub.genAdvance_but (h : Hub) (m : Nat) : h.genAdvance m = { h with swc := (h.genAdvance m).swc } := by
  unfold Hub.genAdvance
  simp only [show List.range 3 = [0, 1, 2] from rfl, List.foldl_cons, List.foldl_nil]
  split <;> split <;> split <;> rfl

theorem runFence_ok {h : Hub} {c : CmdIn} {m : Nat} (h1 : c.arg 1 = m) (hz : c.zeroFrom 3 = true) (hm : m ≠ 0) (hm8 : m < 8)
    (hp : Nat.land m h.fencePend = 0) (hg : ∀ t, t < 3 → testBit m t = true → tget 0 h.swc.genCnt (16 * t + (h.genOf t + 1) % 16) = 0) :
    runFence h c = .later { h.genAdvance m with swc := { (h.genAdvance m).swc with fences := (h.genAdvance m).swc.fences ++
      [⟨m, if c.arg 2 = 0 then none else some (h.now + c.arg 2 * tuUs), c.ref, h.now⟩] } } := by
  have hany : ((List.range 3).any fun t => testBit m t && tget 0 h.swc.genCnt (16 * t + (h.genOf t + 1) % 16) != 0) = false := by
    rw [List.any_eq_false]
    intro t ht
    rw [List.mem_range] at ht
    cases hb : testBit m t
    · simp
    · simp [hg t ht hb]
  have hnow : (h.genAdvance m).now = h.now := by rw [Hub.genAdvance_but]
  unfold runFence
  simp only [h1]
  rw [if_neg (by rw [hz]; simp; omega), if_neg (not_not.2 hp), if_neg (by rw [hany]; simp), hnow]

/-- With one fence pending, `FENCE_DONE` answers it where it was accepted before, its time has not passed, and its tables are clear. -/
theorem Hub.fenceDone_one {h : Hub} {f : Fence} (hf : h.swc.fences = [f]) :
    h.fenceDone = if decide (f.at_ < h.now) && (f.inTime h.now && h.fenceClear f.mask) then
        (({ h with swc := { h.swc with fences := [] } } : Hub).evt Reg.SWC_EVT F.SWC_EVT_FENCE_DONE).answer f.ref sOK [] else h := by
  have hend : (h.evt Reg.SWC_EVT F.SWC_EVT_FENCE_DONE).fenceEnd f sOK =
      (({ h with swc := { h.swc with fences := [] } } : Hub).evt Reg.SWC_EVT F.SWC_EVT_FENCE_DONE).answer f.ref sOK [] := by
    have hfilter : (h.evt Reg.SWC_EVT F.SWC_EVT_FENCE_DONE).swc.fences.filter (· != f) = [] := by simp [hf]
    unfold Hub.fenceEnd
    rw [hfilter]
    rfl
  unfold Hub.fenceDone Hub.fenceClose
  rw [hf, List.foldl_cons, List.foldl_nil, hend, Bool.and_assoc]

theorem Hub.fenceTimeout_done {h : Hub} {f : Fence} (hf : h.swc.fences = [f]) (hd : (f.inTime h.now && h.fenceClear f.mask) = true) :
    h.fenceTimeout = h := by
  unfold Hub.fenceTimeout
  rw [hf, List.foldl_cons, List.foldl_nil]
  split
  · exact if_neg (by simp [hd])
  · rfl

/-- With one fence pending, `FENCE_TIMEOUT` answers it where its time has passed and it is not done. -/
theorem Hub.fenceTimeout_late {h : Hub} {f : Fence} {t : Nat} (hf : h.swc.fences = [f]) (hd : (f.inTime h.now && h.fenceClear f.mask) = false)
    (hdue : f.due = some t) (ht : t ≤ h.now) :
    h.fenceTimeout = ({ h with swc := { h.swc with fences := [] } } : Hub).answer f.ref sETIMEOUT [] := by
  have hfilter : h.swc.fences.filter (· != f) = [] := by simp [hf]
  unfold Hub.fenceTimeout
  rw [hf, List.foldl_cons, List.foldl_nil]
  simp only [hdue]
  rw [if_pos ⟨ht, hd⟩, Hub.fenceEnd, hfilter]

/-! ## The MAC table and the auditor -/

/-- The operation that a write of `SWC_MAC_CMD` starts (R287). -/
def Hub.newMacOp (h : Hub) (op : Nat) : MacOp :=
  { op := op, mac := h.macKey.1, vid := h.macKey.2, data := h.rd Reg.SWC_MAC_DATA, due := h.now + h.freeNow.toNat % 64 * tuCore }

def Hub.macStarted (h : Hub) (op : Nat) : Hub :=
  (Hub.setFld { h.tick with swc := { h.swc with macOp := some (h.newMacOp op) } } Reg.SWC_MAC_CMD F.SWC_MAC_CMD_OP op).setFld
    Reg.SWC_MAC_CMD F.SWC_MAC_CMD_GO 1

theorem Hub.macCmdWrite_go {h : Hub} {w : Word} {op : Nat} (hop : bits w F.SWC_MAC_CMD_OP = op) (hgo : bits w F.SWC_MAC_CMD_GO = 1) (h0 : op ≠ 0) :
    (h.swc.macOp = none → h.macCmdWrite w = h.macStarted op) ∧
      (h.swc.macOp.isSome = true → h.macCmdWrite w = h.evt Reg.SWC_EVT F.SWC_EVT_WRITE_REFUSED) := by
  unfold Hub.macCmdWrite
  refine ⟨fun hn => ?_, fun hs => if_pos hs⟩
  simp only [hn, hop, Option.isSome_none, Bool.false_eq_true, if_false]
  exact if_pos ⟨hgo, h0⟩

theorem Hub.macFinish_due {h : Hub} {x : MacOp} (hx : h.swc.macOp = some x) (hd : x.due ≤ h.now) :
    let k : Hub := { h with swc := { h.swc with macOp := none } }
    h.macFinish = if x.op = 1 then k.macRead x else if x.op = 2 then k.macWrite x else k.macDelete x := by
  unfold Hub.macFinish
  simp only [hx, hd, if_true]

theorem Hub.macFinish_cases {h : Hub} {x : MacOp} (hx : h.swc.macOp = some x) (hd : x.due ≤ h.now) :
    let k : Hub := { h with swc := { h.swc with macOp := none } }
    (x.op = 1 → h.macFinish = k.macRead x) ∧ (x.op = 2 → h.macFinish = k.macWrite x) ∧ (x.op = 3 → h.macFinish = k.macDelete x) := by
  intro k
  have heq := Hub.macFinish_due hx hd
  exact ⟨fun e => by rw [heq, if_pos e], fun e => by rw [heq, if_neg (by omega), if_pos e], fun e => by rw [heq, if_neg (by omega), if_neg (by omega)]⟩

/-- The end of a pass that no command waits for (R282). -/
theorem Hub.auditEnd_alone {h : Hub} (hb : h.swc.auditBusy = true) (hr : h.swc.auditRefs = []) (ha : h.swc.auditAgain = false) :
    let cells := h.swc.cell.foldl (fun t x => tset ({} : Cell) t x.1 (h.cellJudge x.1 x.2)) ([] : Table Cell)
    let lost := h.swc.cell.filter fun x => x.2.used && !(h.cellJudge x.1 x.2).used
    let k : Hub := { h with swc := { h.swc with cell := cells, auditBusy := false } }
    h.auditEnd = if lost = [] then k.count Reg.SWC_CNT_AUDIT_PASSES else
      (((k.countN Reg.SWC_CNT_LEAK_RECLAIM lost.length).giveCells []).evt Reg.SWC_EVT F.SWC_EVT_LEAK).count Reg.SWC_CNT_AUDIT_PASSES := by
  intro cells lost k
  have hk : ({ h with swc := { h.swc with cell := cells, auditBusy := false, auditRefs := [] } } : Hub) = k := by
    simp only [k]
    rw [← hr]
  unfold Hub.auditEnd
  simp only [hb, hr, List.foldl_map, List.length_map, List.foldl_nil, Bool.true_eq_false, if_false]
  simp only [cells] at hk
  rw [hk]
  simp only [lost]
  generalize h.swc.cell.filter (fun x => x.2.used && !(h.cellJudge x.1 x.2).used) = l
  have hagain : ∀ g : Hub, g.swc.auditAgain = h.swc.auditAgain → (if g.swc.auditAgain = true then g.auditStart else g) = g :=
    fun g hg => if_neg (by rw [hg, ha]; decide)
  cases l with
  | nil => exact (hagain (k.count Reg.SWC_CNT_AUDIT_PASSES) rfl).trans (if_pos rfl).symm
  | cons x l =>
    exact (hagain ((((k.countN Reg.SWC_CNT_LEAK_RECLAIM (x :: l).length).giveCells []).evt Reg.SWC_EVT F.SWC_EVT_LEAK).count
      Reg.SWC_CNT_AUDIT_PASSES) rfl).trans (if_neg (List.cons_ne_nil x l)).symm

/-- A used cell that nobody owns and nothing stamped misses a pass, and is reclaimed with the second (R282). -/
theorem Hub.cellJudge_lost {h : Hub} {k : Nat} {c : Cell} (hu : c.used = true) (ho : h.cellOwned k = false) (hs : c.stamp = false) :
    h.cellJudge k c = if 1 ≤ c.miss then {} else { used := true, miss := c.miss + 1 } := by
  unfold Hub.cellJudge
  rw [hu, ho, hs]
  rfl

theorem Hub.macAgeOut_old {h : Hub} {i : Nat} (hv : (h.macEnt i).valid = true) (hs : (h.macEnt i).static = false)
    (ha : h.fld Reg.SWC_MAC_AGE F.SWC_MAC_AGE_AGE_S ≠ 0) :
    h.macAgeOut i = if (h.macEnt i).at_ + h.fld Reg.SWC_MAC_AGE F.SWC_MAC_AGE_AGE_S * tuS ≤ h.now then h.setMac i {} else h := by
  unfold Hub.macAgeOut
  simp only [hv, hs, bne_iff_ne.2 ha, Bool.not_false, Bool.true_and, decide_eq_true_eq]

theorem Hub.auditPeriodic_idle {h : Hub} (he : h.flag Reg.SWC_CTL F.SWC_CTL_AUDIT_EN = true) (hb : h.swc.auditBusy = false) :
    h.auditPeriodic = if h.swc.auditFrom + h.fld Reg.SWC_AUDIT_CFG F.SWC_AUDIT_CFG_PERIOD_MS * tuMs ≤ h.now then h.auditStart else h := by
  unfold Hub.auditPeriodic
  simp only [he, hb, Bool.not_false, Bool.true_and, decide_eq_true_eq]

theorem runMacFlush_ok {h : Hub} (src : CmdSrc) (tag : Byte) {mask : Word} (h0 : mask.toNat ≠ 0) (h1 : mask.toNat < 128) :
    runMacFlush h (mkCmd src 0x0282 tag [mask]) =
      .done { h with swc := { h.swc with mac := h.swc.mac.filter fun x => x.2.static || Nat.land x.2.ports mask.toNat == 0 } } [] := by
  have e1 : (mkCmd src 0x0282 tag [mask]).arg 1 = mask.toNat := rfl
  unfold runMacFlush
  simp only [e1]
  rw [if_neg (by rw [zeroFrom_mkCmd _ _ _ _ 2 rfl]; simp; omega)]

/-- Settles O37, clause by clause. -/
theorem midway : Obligations.Midway := by
  unfold Obligations.Midway
  refine ⟨fun s hh => ⟨fun bs => ?_, fun p bs => ?_, fun a ha => ?_, fun hno => ?_⟩, fun h a => ?_, fun h p n hv hz => h.lookNrp_noHops p hv hz,
    fun h free o i hg => Hub.grant_spec hg, fun s => ?_, fun h x e r => ?_, fun s src tag mask timeout => ?_, fun s f => ?_, fun s => ?_,
    fun h x => ?_, fun s i => ?_, fun s src tag mask => ?_, fun s => ?_, fun s => ?_, fun h k c hu ho hs => Hub.cellJudge_lost hu ho hs,
    fun s src tag => ?_⟩
  · exact makes_on (fun h => h.midwayFrameIn (.p2 bs)) hh rfl rfl
  · exact makes_on (fun h => h.midwayFrameIn (.head p bs)) hh rfl rfl
  · refine makes_on (fun h => h.midwayFrameIn .next) hh rfl ?_
    exact Hub.midwayNext_some ha
  · refine makes_on (fun h => h.midwayFrameIn .next) hh rfl ?_
    exact Hub.midwayNext_none (List.find?_eq_none.2 fun a ha => by simpa using hno a ha)
  · intro f l k r hlook hcut
    have hw := Hub.wholeIn_new hlook hcut
    exact ⟨fun hp => hw.trans (if_neg (by rw [hp]; decide)), fun hp => hw.trans (if_pos hp)⟩
  · intro h ins outs k grants hh
    refine ⟨fun hr => makes_on Hub.crossbarRound hh rfl ?_, fun hr => makes_on Hub.crossbarRound hh rfl (if_pos hr)⟩
    exact if_neg hr
  · intro q f t hv hj
    rw [Hub.xferBegin_placed hv hj]
    refine ⟨rfl, ?_, ?_⟩
    · rw [Hub.tqPush_ents]
      rfl
    · exact Hub.voqAt_setVoq_same _ _ _ _ _
  · intro c m k ha hm hm8 hp hg
    have hrun := runFence_ok (h := s.hub) (c := c) (m := m) rfl (zeroFrom_mkCmd _ _ _ _ 3 rfl) hm hm8 hp hg
    have hbut := s.hub.genAdvance_but m
    refine gives_later (fun h => h.accept c runFence) [.swc] [] rfl ha (accept_busy ha hrun) (by rw [hbut])
      (fun p hp => by rw [hbut]; cases p <;> first | rfl | simp at hp) (by rw [hbut]) (fun a _ => by rw [hbut]; rfl) (fun q => by simp)
      fun g hg _ => hg .swc (by decide)
  · intro k done hh hf
    refine ⟨fun hd => ⟨?_, fun hat => ?_⟩, fun hno => ?_, fun hd t hdue ht => ?_⟩
    · exact makes_on Hub.fenceTimeout hh rfl (Hub.fenceTimeout_done hf hd)
    · refine makes_on Hub.fenceDone hh rfl ((Hub.fenceDone_one hf).trans (if_pos ?_))
      rw [decide_eq_true hat, Bool.true_and]
      exact hd
    · refine makes_on Hub.fenceDone hh rfl ((Hub.fenceDone_one hf).trans (if_neg ?_))
      rcases hno with hno | hno
      · simp only [done] at hno
        rw [hno, Bool.and_false]
        decide
      · rw [decide_eq_false (Nat.not_lt.2 hno), Bool.false_and]
        decide
    · exact makes_on Hub.fenceTimeout hh rfl (Hub.fenceTimeout_late hf hd hdue ht)
  · intro x k refused hh
    have hrd := Hub.macCmdWrite_go (h := s.hub) (w := 5) (op := 1) (by decide) (by decide) (by decide)
    have hwr := Hub.macCmdWrite_go (h := s.hub) (w := 6) (op := 2) (by decide) (by decide) (by decide)
    have hdel := Hub.macCmdWrite_go (h := s.hub) (w := 7) (op := 3) (by decide) (by decide) (by decide)
    exact ⟨fun hn => ⟨makes_on (fun h => h.macCmdWrite 5) hh rfl (hrd.1 hn), makes_on (fun h => h.macCmdWrite 6) hh rfl (hwr.1 hn),
        makes_on (fun h => h.macCmdWrite 7) hh rfl (hdel.1 hn)⟩,
      fun hn => ⟨makes_on (fun h => h.macCmdWrite 5) hh rfl (hrd.2 hn), makes_on (fun h => h.macCmdWrite 6) hh rfl (hwr.2 hn),
        makes_on (fun h => h.macCmdWrite 7) hh rfl (hdel.2 hn)⟩⟩
  · intro k hx hd
    obtain ⟨hread, hwrite, hdelete⟩ := Hub.macFinish_cases hx hd
    refine ⟨fun i hi => ⟨fun e => ?_, fun e => ?_, fun e => ?_⟩, fun hi => ⟨fun e => ?_, fun e i hfree => ?_, fun e hfree => ?_, fun e => ?_⟩⟩
    · rw [hread e, Hub.macRead, hi]
    · rw [hwrite e, Hub.macWrite, hi]
    · rw [hdelete e, Hub.macDelete, hi]
    · rw [hread e, Hub.macRead, hi]
    · rw [hwrite e, Hub.macWrite, hi]
      simp only [k] at hfree
      simp only [hfree]
      rfl
    · rw [hwrite e, Hub.macWrite, hi]
      simp only [k] at hfree
      simp only [hfree]
      rfl
    · rw [hdelete e, Hub.macDelete, hi]
  · intro e age hh hv hs ha
    exact makes_on (fun h => h.macAgeOut i) hh rfl (Hub.macAgeOut_old hv hs ha)
  · intro c ha h0 h1
    exact gives_done (fun h => h.accept c runMacFlush) [.swc] [] rfl ha (accept_done ha (runMacFlush_ok src tag h0 h1)) (by simp) rfl
      (fun p hp => by cases p <;> first | rfl | simp at hp) rfl (fun _ _ => rfl) (fun q => by simp)
      fun k hk _ => hk .swc (by decide) (by decide)
  · intro period hh he hb
    exact makes_on Hub.auditPeriodic hh rfl (Hub.auditPeriodic_idle he hb)
  · intro cells lost k hh hb hr ha
    have hend := Hub.auditEnd_alone hb hr ha
    exact ⟨fun hl => makes_on Hub.auditEnd hh rfl (hend.trans (if_pos hl)), fun hl => makes_on Hub.auditEnd hh rfl (hend.trans (if_neg hl))⟩
  · intro c k ha
    have hrun : runLeakAudit s.hub c = .later (if s.hub.swc.auditBusy then { k with swc := { k.swc with auditAgain := true } } else k.auditStart) := by
      unfold runLeakAudit
      rw [if_neg (by rw [zeroFrom_mkCmd _ _ _ _ 1 rfl]; decide)]
      dsimp only
      split <;> rfl
    refine gives_later (fun h => h.accept c runLeakAudit) [.swc] [] rfl ha (accept_busy ha hrun) (by split <;> rfl)
      (fun p hp => by split <;> cases p <;> first | rfl | simp at hp) (by split <;> rfl) (fun a _ => by split <;> rfl) (fun q => by simp)
      fun g hg _ => ?_
    have hswc : g.swc = _ := hg .swc (by decide)
    refine hswc.trans ?_
    split <;> rfl

end Sys2Proof.Machine

/-! Ring links, ages, state, and the writes that run the ring block (R16, R22, R288 to R292, R305, R308, R311 to R313, R323, R326, R327). -/

namespace Sys2Proof.Machine

/-! ## Links -/

theorem Hub.setLink_change {h : Hub} {p : Nat} {l : Link} (hl : (h.rport p).link ≠ l) :
    h.setLink p l = (h.setRport p { h.rport p with link := l, ver := if l = .up then (h.rport p).ver else 0 }).evt
      Reg.RING_EVT F.RING_EVT_LINK_CHANGE := if_neg hl

theorem Hub.setLink_rport_ne (h : Hub) {p q : Nat} (l : Link) (hq : q ≠ p) : (h.setLink p l).rport q = h.rport q := by
  unfold Hub.setLink
  split
  · rfl
  · exact (Hub.rport_setRport h p q _).trans (if_neg hq)

/-- The port that has changed its link. -/
theorem Hub.setLink_rport {h : Hub} {p : Nat} {l : Link} (hl : (h.rport p).link ≠ l) (hu : l ≠ .up) :
    (h.setLink p l).rport p = { h.rport p with link := l, ver := 0 } := by
  rw [Hub.setLink_change hl, if_neg hu]
  exact Hub.rport_setRport_same h p _

theorem Hub.setLink_event {h : Hub} {p : Nat} {l : Link} (hl : (h.rport p).link ≠ l) :
    (h.setLink p l).flag Reg.RING_EVT F.RING_EVT_LINK_CHANGE = true := by
  rw [Hub.setLink_change hl]
  exact Hub.flag_evt _ Reg.RING_EVT 0 (by decide)

theorem Hub.downed_rport {h : Hub} {p : Nat} (hl : (h.rport p).link ≠ .down) :
    (h.downed p).rport p = { h.rport p with link := .down, ver := 0, pauseRx := false } := by
  have hp : (h.downed p).rport p = { (h.setLink p .down).rport p with pauseRx := false } := Hub.rport_setRport_same _ p _
  rw [hp, Hub.setLink_rport hl (by decide)]

theorem Hub.downed_rport_ne (h : Hub) {p q : Nat} (hq : q ≠ p) : (h.downed p).rport q = h.rport q :=
  ((Hub.rport_setRport _ p q _).trans (if_neg hq)).trans (h.setLink_rport_ne .down hq)

theorem Hub.downed_event {h : Hub} {p : Nat} (hl : (h.rport p).link ≠ .down) :
    (h.downed p).flag Reg.RING_EVT F.RING_EVT_LINK_CHANGE = true := by
  refine (Hub.flag_of_rd _ (Hub.rd_count_ne _ ?_)).trans (Hub.setLink_event hl)
  simp only [Reg.RING_EVT, Reg.RING_P_CNT_LINK_DOWNS]
  omega

/-- A running, powered port that is DOWN locks (R290). -/
theorem Hub.linkLock_locks {h : Hub} {p : Nat} (pause asm_ : Bool) (hon : h.ringOn = true) (hm : h.fld (Reg.RING_P_CFG p) F.RING_P_CFG_MODE ≠ 0)
    (hl : (h.rport p).link = .down) (hloop : (h.rport p).loop = false) (hpow : p = 3 → h.flag Reg.GLB_STRAPS F.GLB_STRAPS_TWIN_EN = true) :
    h.linkLock p pause asm_ = (h.setLink p .locked).setRport p { h.rport p with link := .locked, ver := 0, pauseRx := decide (p = 2) &&
      (h.fld (Reg.RING_P_CFG p) F.RING_P_CFG_MODE == 2 && h.flag (Reg.RING_P_CFG p) F.RING_P_CFG_AN_EN) && (pause || asm_) } := by
  have hpow' : (decide (p ≠ 3) || h.flag Reg.GLB_STRAPS F.GLB_STRAPS_TWIN_EN) = true := by
    by_cases hp : p = 3
    · rw [hpow hp, Bool.or_true]
    · rw [decide_eq_true hp, Bool.true_or]
  unfold Hub.linkLock
  dsimp only
  rw [if_pos (by rw [hon, hpow', hl, hloop, bne_iff_ne.2 hm]; rfl), Hub.setLink_rport (by rw [hl]; decide) (by decide)]

theorem Hub.linkLock_off {h : Hub} {p : Nat} (pause asm_ : Bool) (hno : h.ringOn = false ∨ h.fld (Reg.RING_P_CFG p) F.RING_P_CFG_MODE = 0 ∨
    (p = 3 ∧ h.flag Reg.GLB_STRAPS F.GLB_STRAPS_TWIN_EN = false)) : h.linkLock p pause asm_ = h := by
  unfold Hub.linkLock
  refine if_neg ?_
  rcases hno with e | e | ⟨rfl, e⟩ <;> simp [e]

/-! ## State and times -/

theorem Hub.ringJudge_change {h : Hub} (h1 : h.ring.state ≠ .forming) (h2 : h.ring.state ≠ h.judgedState) :
    h.ringJudge = Hub.evt { h with ring := { h.ring with state := h.judgedState } } Reg.RING_EVT F.RING_EVT_STATE_CHANGE :=
  if_neg (by simp [h1, h2])

theorem Hub.ringCheckTx_send {h : Hub} {q : Nat} (hm : h.mayOriginate = true) (ha : h.acts = true) (hq : h.txnQueue = some q) :
    h.ringCheckTx = h.originate tCheck 0 h.ring.addr false 0 0 0 q none none false fun _ => .inl (List.replicate 8 0) := by
  unfold Hub.ringCheckTx
  simp only [hm, ha, hq, Bool.and_self]

theorem Hub.holdoffEnd_due {h : Hub} {t : Nat} (ht : h.ring.upAt = some t) (hd : t + h.ringMs F.RING_PAR_CFG_SRC_AGE_MS + tuMs ≤ h.now) :
    h.holdoffEnd = { h with ring := { h.ring with holdoff := false } } := by
  unfold Hub.holdoffEnd
  simp only [ht]
  exact if_pos hd

theorem Hub.hsrSupervision_on {h : Hub} (h1 : h.flag Reg.RING_CTL F.RING_CTL_HSR_EN = true) (h2 : h.ringOn = true) (h3 : h.acts = true)
    (h4 : h.originates = true) :
    h.hsrSupervision = (h.ringMac :: ((h.swc.mac.filter fun x => x.2.valid && !x.2.static && testBit x.2.ports 2).take 512).map (·.2.mac)).foldl
      (fun h mac => ({ h with ring := { h.ring with hsrSeq := (h.ring.hsrSeq + 1) % 65536 } } : Hub).corePlace 2
        { bytes := h.superFrame mac, hsr := some h.ring.hsrSeq }) h := by
  unfold Hub.hsrSupervision
  exact if_neg (by simp [h1, h2, h3, h4])

/-! ## The block's enable -/

theorem ringCtl_enables (w : Word) : bits (w ||| 1) F.RING_CTL_EN = 1 := by
  refine (bits_eq_iff (f := ⟨0, 1, .rw⟩) (y := 1)).2 fun i hi => ?_
  obtain rfl : i = 0 := by simpa [RegField.has] using hi
  simp

theorem ringCtl_others (w : Word) : (w ||| 1) &&& 6 = w &&& 6 := by
  refine BitVec.eq_of_getLsbD_eq fun i hi => ?_
  by_cases h0 : i = 0
  · subst h0
    simp
  · simp [h0]

theorem Hub.ringCtlWrite_on {h : Hub} (w : Word) (hon : h.ringOn = true) :
    h.ringCtlWrite (w ||| 1) = if (w &&& 6) = (h.rd Reg.RING_CTL &&& 6) then h else h.evt Reg.RING_EVT F.RING_EVT_WRITE_REFUSED := by
  unfold Hub.ringCtlWrite
  simp only [hon, if_true, ringCtl_enables, ringCtl_others, Hub.when]
  by_cases he : (w &&& 6) = (h.rd Reg.RING_CTL &&& 6)
  · rw [if_pos he, decide_eq_false (not_not.2 he)]
    rfl
  · rw [if_neg he, decide_eq_true he]
    rfl

theorem Hub.ringCtlWrite_off {h : Hub} (w : Word) (hoff : h.ringOn = false) :
    h.ringCtlWrite (w ||| 1) = if h.verMin = 0 ∨ h.verMax = 0 ∨ h.verMax < h.verMin then h.evt Reg.RING_EVT F.RING_EVT_WRITE_REFUSED
      else h.wr Reg.RING_CTL ((w ||| 1) &&& 7) := by
  unfold Hub.ringCtlWrite
  simp only [hoff, Bool.false_eq_true, if_false, ringCtl_enables, true_and]

theorem runRingLinkRestart_ok {h : Hub} (src : CmdSrc) (tag : Byte) {pw : Word} (hp : pw.toNat < 3) (hon : h.ringOn = true)
    (hm : h.fld (Reg.RING_P_CFG pw.toNat) F.RING_P_CFG_MODE ≠ 0) :
    runRingLinkRestart h (mkCmd src 0x0202 tag [pw]) = .done (h.linkDown pw.toNat) [] := by
  have e1 : (mkCmd src 0x0202 tag [pw]).arg 1 = pw.toNat := rfl
  unfold runRingLinkRestart
  simp only [e1]
  rw [if_neg (by rw [zeroFrom_mkCmd _ _ _ _ 2 rfl]; simp; omega), if_neg (by simp [hon, hm])]

/-- Settles O38, clause by clause. -/
theorem ringLinksAndState : Obligations.RingLinksAndState := by
  unfold Obligations.RingLinksAndState
  refine ⟨fun s p pause asm_ => ?_, fun s p pause asm_ hh hno => makes_on (fun h => h.linkLock p pause asm_) hh rfl ?_, fun s p hh hl hc => ?_,
    fun s p hh => makes_on (fun h => h.linkDown p) hh rfl rfl, fun h p hl => ⟨h.downed p, ?_, ?_, ?_, Hub.downed_rport hl⟩,
    fun s n hh hp hl => makes_on (fun h => h.pauseRx 2 n.toNat) hh rfl (if_pos ⟨rfl, hp, hl⟩), fun s hh => makes_on Hub.helloTx hh rfl rfl,
    fun s p hh hl ht => makes_on (fun h => h.helloTimeout p) hh rfl (if_pos ⟨hl, ht⟩), fun s p => ?_,
    fun s n hh hk ht => makes_on (fun h => h.sourceAge n.toNat) hh rfl (if_pos ⟨hk, ht⟩),
    fun s hh h1 h2 => makes_on Hub.ringJudge hh rfl (Hub.ringJudge_change h1 h2),
    fun s q hh hm ha hq => makes_on Hub.ringCheckTx hh rfl (Hub.ringCheckTx_send hm ha hq),
    fun s t hh ht hd => makes_on Hub.holdoffEnd hh rfl (Hub.holdoffEnd_due ht hd),
    fun s hh h1 h2 h3 h4 => makes_on Hub.hsrSupervision hh rfl (Hub.hsrSupervision_on h1 h2 h3 h4),
    fun s hh hno => makes_on Hub.hsrSupervision hh rfl (if_pos (by tauto)),
    fun s w hh hoff => makes_on (fun h => h.ringCtlWrite (w ||| 1)) hh rfl (Hub.ringCtlWrite_off w hoff),
    fun s w hh hon => makes_on (fun h => h.ringCtlWrite (w ||| 1)) hh rfl (Hub.ringCtlWrite_on w hon), fun s src tag pw => ?_⟩
  · intro x mode hh hon hm hl hloop hpow
    have hne : (s.hub.rport p).link ≠ .locked := by rw [show (s.hub.rport p).link = .down from hl]; decide
    refine gives_on (fun h => h.linkLock p pause asm_) hh rfl ?_
    rw [Hub.linkLock_locks pause asm_ hon hm hl hloop (fun e => hpow (Fin.ext e))]
    have hbut := s.hub.setLink_but p .locked
    refine ⟨only_hub (by rw [hbut]; rfl) (fun q hq => by rw [hbut]; cases q <;> first | rfl | simp at hq), fun a ha => ?_, ?_, fun q hq => ?_, ?_⟩
    · exact s.hub.setLink_rd p .locked (by simpa using ha)
    · exact Hub.setLink_event hne
    · exact ((Hub.rport_setRport _ _ _ _).trans (if_neg hq)).trans (s.hub.setLink_rport_ne .locked hq)
    · refine (Hub.rport_setRport_same _ _ _).trans ?_
      rw [show decide (p.val = 2) = decide (p = 2) from decide_eq_decide.2 (Fin.ext_iff (a := p) (b := 2)).symm]
  · exact Hub.linkLock_off pause asm_ (hno.imp_right (Or.imp_right fun h => ⟨by rw [h.1]; rfl, h.2⟩))
  · refine gives_on (fun h => h.linkDown p) hh rfl ?_
    rw [Hub.linkDown_quiet hc, if_neg hl]
    have hbut := s.hub.downed_but p
    refine ⟨only_hub (by rw [hbut]) (fun q hq => by rw [hbut]; cases q <;> first | rfl | simp at hq), fun a ha => ?_, Hub.downed_event hl,
      fun q hq => s.hub.downed_rport_ne hq, Hub.downed_rport hl⟩
    simp only [List.mem_cons, List.not_mem_nil, or_false, not_or] at ha
    exact s.hub.downed_rd ha.1 ha.2
  · rw [Hub.linkDown_eq, if_neg hl]
  · rw [Hub.downed_but]
  · rw [Hub.downed_but]
  · intro keep l hh
    exact makes_on (fun h => h.ddAge p) hh rfl rfl
  · intro c p ha hp hon hm
    have hrun := runRingLinkRestart_ok src tag hp hon hm
    refine ⟨hrun, fun hc => ?_⟩
    rw [Hub.linkDown_quiet hc] at hrun
    have hbut := s.hub.downed_but p
    have hlink := s.hub.downed_link p
    refine gives_done (fun h => h.accept c runRingLinkRestart) [.ring] [Reg.RING_EVT, Reg.RING_P_CNT_LINK_DOWNS p] rfl ha (accept_done ha hrun)
      (by simp) ?_ (fun q hq => ?_) ?_ (fun a hna => ?_) (fun q => ?_) fun k hk _ => ?_
    · split
      · rfl
      · rw [hbut]
    · split
      · cases q <;> rfl
      · rw [hbut]
        cases q <;> first | rfl | simp at hq
    · split
      · rfl
      · rw [hbut]
    · simp only [List.mem_cons, List.not_mem_nil, or_false, not_or] at hna
      split
      · rfl
      · exact s.hub.downed_rd hna.1 hna.2
    · simp [Reg.HQ_RSP, Reg.RING_EVT, Reg.RING_P_CNT_LINK_DOWNS]
      omega
    · have hring : k.ring = _ := hk .ring (by decide) (by decide)
      refine (congrArg RPort.link (congrArg (fun r : RingBlk => tget ({} : RPort) r.port p) hring)).trans ?_
      split
      next he => exact he
      next => exact hlink

end Sys2Proof.Machine

/-! Frames received on the ring ports, and the Parade (R275, R290, R301 to R307, R314 to R320, R326). -/

namespace Sys2Proof.Machine

/-! ## Reception -/

theorem Hub.link_ne_down_of_linkUp {h : Hub} {p : Nat} (hu : h.linkUp p = true) : (h.rport p).link ≠ .down := by
  have hup : (h.rport p).link = .up := beq_iff_eq.1 hu
  rw [hup]
  decide

/-- A frame of proper length with a good FCS is taken as an NRP frame or a standard one. -/
theorem Hub.ringRx_good {h : Hub} {p : Nat} {bs : List Byte} (hon : h.ringOn = true) (hl : (h.rport p).link ≠ .down) (h64 : 64 ≤ bs.length)
    (hlen : bs.length ≤ 2048) (hg : judgeFcs bs = .good) (hn : h.isNrp bs = true) :
    h.ringRx p bs = (h.nrpRx p bs true).cutEnd p (bs.take (bs.length - 4)) := by
  unfold Hub.ringRx
  rw [if_neg (by simp [hon, hl]), if_neg (Nat.not_lt.2 h64)]
  simp only [hg, Hub.fcsCount, hn, if_true, if_neg (Nat.not_lt.2 hlen)]
  rfl

/-- What an NRP frame that is not link-local does, once its header is good and its link UP (R301). -/
theorem Hub.nrpRx_good {h : Hub} {p : Nat} {bs : List Byte} (hu : h.linkUp p = true)
    (hb : badHeader (bs.take (bs.length - 4)) = false) (h1 : (nrpParse (bs.take (bs.length - 4))).typ ≠ tHello)
    (h2 : (nrpParse (bs.take (bs.length - 4))).typ ≠ tParade) (h3 : (nrpParse (bs.take (bs.length - 4))).typ ≠ tLate) :
    let body := bs.take (bs.length - 4)
    let n := nrpParse body
    let g := h.sourceAge n.src
    let seen := g.seen n
    let g := if countedType n.typ then (g.observe n).ringJudge else g
    let keep := (g.deliveryFirst n seen p).1
    let g := (g.deliveryFirst n seen p).2.hopsEnd n
    h.nrpRx p bs true = if h.ownFrame n then h.removeOwn n p true else if badNodes n then h
      else if g.toSelf n && !keep && g.outerPort != some p then g else g.toMidway p body keep (g.rxStamps p bs.length) := by
  intro body n g seen g' keep g''
  unfold Hub.nrpRx
  simp only [hb, hu, Bool.false_eq_true, if_false, Bool.true_eq_false, false_or]
  rw [if_neg h1, if_neg h2, if_neg h3]

theorem Hub.deliveryFirst_alone {h : Hub} {n : Nrp} {k : Seen} {p : Nat} (ho : p ≠ 0 ∨ h.sameCycle (h.twinOf n) = none) :
    h.deliveryFirst n k p = h.deliveryJudge n k p := by
  have hnone : (if p = 0 then h.sameCycle (h.twinOf n) else none) = none := by
    rcases ho with hp | hs
    · exact if_neg hp
    · rw [hs, ite_self]
  unfold Hub.deliveryFirst
  simp only [hnone]
  rcases h.deliveryJudge n k p with ⟨b, g⟩
  cases b <;> rfl

/-- A link-local frame goes to the handler of its type. -/
theorem Hub.nrpRx_local {h : Hub} {p : Nat} {bs : List Byte} (hb : badHeader (bs.take (bs.length - 4)) = false) :
    let body := bs.take (bs.length - 4)
    let n := nrpParse body
    (n.typ = tHello → h.nrpRx p bs true = h.helloRx p (nrpPayload body)) ∧
      (n.typ = tLate → h.linkUp p = true → h.nrpRx p bs true = h.lateRx p n (nrpPayload body)) ∧
      (n.typ = tParade → h.linkUp p = true → h.nrpRx p bs true = h.paradeRx p n (nrpPayload body)) := by
  intro body n
  refine ⟨fun ht => ?_, fun ht hu => ?_, fun ht hu => ?_⟩
  · unfold Hub.nrpRx
    simp only [hb, Bool.false_eq_true, if_false, if_true]
    rw [if_pos ht]
  · unfold Hub.nrpRx
    simp only [hb, hu, Bool.false_eq_true, if_false, if_true, Bool.true_eq_false]
    rw [if_neg (by rw [ht]; decide), if_neg (by rw [ht]; decide), if_pos ht]
  · unfold Hub.nrpRx
    simp only [hb, hu, Bool.false_eq_true, if_false, if_true, Bool.true_eq_false]
    rw [if_neg (by rw [ht]; decide), if_pos ht]

theorem Hub.linkLocalRx_type {h : Hub} {p typ : Nat} {bs : List Byte} (hn : h.isNrp bs = true) (ht : (nrpParse bs).typ = typ) :
    h.linkLocalRx p bs typ none = h.ringRx p bs := by
  unfold Hub.linkLocalRx
  exact if_pos (by simp [hn, ht])

theorem Hub.linkLocalRx_phase {h : Hub} {p typ k : Nat} {bs : List Byte} (hn : h.isNrp bs = true) (ht : (nrpParse bs).typ = typ)
    (hk : beAt bs (14 + nrpHdrLen (nrpParse bs).ver) 1 = k) : h.linkLocalRx p bs typ (some k) = h.ringRx p bs := by
  unfold Hub.linkLocalRx
  exact if_pos (by simp [hn, ht, hk])

/-! ## A link that comes UP -/

theorem Hub.corePlace_but (h : Hub) (out : Nat) (f : Frame) : h.corePlace out f = { h with swc := (h.corePlace out f).swc } := by
  unfold Hub.corePlace
  split <;> rfl

theorem Hub.coreSend_but (h : Hub) (p typ flags dst : Nat) (b : List Byte) :
    h.coreSend p typ flags dst b = { h with swc := (h.coreSend p typ flags dst b).swc } := Hub.corePlace_but _ _ _

theorem foldl_coreSend_but (ps : List Nat) (send : Hub → Nat → Hub) (hsend : ∀ h p, send h p = { h with swc := (send h p).swc }) (h : Hub) :
    ps.foldl send h = { h with swc := (ps.foldl send h).swc } := by
  induction ps generalizing h with
  | nil => rfl
  | cons p ps ih => rw [List.foldl_cons, ih, hsend]

theorem Hub.lateReq_but (h : Hub) : h.lateReq = { h with swc := h.lateReq.swc } := by
  unfold Hub.lateReq
  split
  · rfl
  · exact foldl_coreSend_but _ _ (fun k p => k.coreSend_but _ _ _ _ _) h

theorem Hub.noteUp_port (h : Hub) (p : Nat) : h.noteUp.rport p = h.rport p := by
  unfold Hub.noteUp
  split <;> rfl

theorem Hub.followHello_port (h : Hub) (p : Nat) (b : List Byte) (q : Nat) : (h.followHello p b).rport q = h.rport q := by
  unfold Hub.followHello
  dsimp only
  split
  · rfl
  · split
    · exact Hub.noteUp_port _ q
    · exact Hub.noteUp_port _ q

theorem Hub.linkComesUp_port {h : Hub} {p v : Nat} (gen : Nat) (hl : (h.rport p).link ≠ .up) :
    (h.linkComesUp p v gen).rport p = { h.rport p with link := .up, ver := v } := by
  have hset : ((h.setLink p .up).setRport p { (h.setLink p .up).rport p with ver := v }).rport p = { h.rport p with link := .up, ver := v } := by
    refine (Hub.rport_setRport_same _ p _).trans ?_
    rw [Hub.setLink_change hl]
    exact congrArg (fun x : RPort => { x with ver := v }) (Hub.rport_setRport_same h p _)
  refine Eq.trans ?_ ((Hub.noteUp_port _ p).trans hset)
  unfold Hub.linkComesUp
  dsimp only
  generalize Hub.noteUp _ = k
  split
  · split
    · rw [Hub.lateReq_but]
      rfl
    · rfl
  · rfl

/-- The hub that has noted a neighbour's HELLO, before its link changes. -/
def Hub.helloNoted (h : Hub) (p : Nat) (b : List Byte) : Hub :=
  let info := beAt b 3 1
  let g := h.setRport p { h.rport p with peerAddr := beAt b 2 1, peerMin := beAt b 0 1 % 4, peerMax := beAt b 1 1 % 4,
                                         peerTwin := testBit info 5, helloAt := h.now }
  let lead := if testBit info 4 then beAt b 2 1 else beAt b 11 1
  ({ g with ring := { g.ring with
      leaderAddr := if lead ≠ 0 ∧ g.ring.leader = false then lead else g.ring.leaderAddr
      paradeSeen := g.ring.paradeSeen || info % 16 != 0 } } : Hub).followHello p b

theorem Hub.helloNoted_port (h : Hub) (p : Nat) (b : List Byte) :
    (h.helloNoted p b).rport p = { h.rport p with peerAddr := beAt b 2 1, peerMin := beAt b 0 1 % 4, peerMax := beAt b 1 1 % 4,
                                                  peerTwin := testBit (beAt b 3 1) 5, helloAt := h.now } :=
  (Hub.followHello_port _ p b p).trans (Hub.rport_setRport_same h p _)

/-- A HELLO of a compatible neighbour brings a locked link UP (R290). -/
theorem Hub.helloRx_comesUp {h : Hub} {p : Nat} {b : List Byte} (hl : (h.rport p).link = .locked) (h16 : 16 ≤ b.length)
    (hmin : h.verMin ≤ min h.verMax (beAt b 1 1)) (hpeer : beAt b 0 1 ≤ min h.verMax (beAt b 1 1)) :
    h.helloRx p b = (h.helloNoted p b).linkComesUp p (min h.verMax (beAt b 1 1)) (beAt b 3 1 % 16) := by
  unfold Hub.helloRx
  dsimp only
  rw [if_neg (by simp only [hl, reduceCtorEq, false_or]; omega)]
  split
  next => exact if_pos (by rw [decide_eq_true hmin, decide_eq_true hpeer]; rfl)
  next he => rw [hl] at he; cases he
  next hne _ => exact absurd hl hne

theorem Hub.helloRx_up {h : Hub} {p : Nat} {b : List Byte} (hl : (h.rport p).link = .locked) (h16 : 16 ≤ b.length)
    (hmin : h.verMin ≤ min h.verMax (beAt b 1 1)) (hpeer : beAt b 0 1 ≤ min h.verMax (beAt b 1 1)) :
    ((h.helloRx p b).rport p).link = .up ∧ ((h.helloRx p b).rport p).ver = min h.verMax (beAt b 1 1) ∧
      ((h.helloRx p b).rport p).helloAt = h.now := by
  have hport := h.helloNoted_port p b
  have hup := Hub.linkComesUp_port (v := min h.verMax (beAt b 1 1)) (beAt b 3 1 % 16) (h := h.helloNoted p b) (p := p)
    (by rw [hport]; simp [hl])
  rw [Hub.helloRx_comesUp hl h16 hmin hpeer, hup, hport]
  exact ⟨rfl, rfl, rfl⟩

/-! ## The assignment of addresses (R317) -/

/-- The addresses given so far, none twice. -/
def Distinct (l : List Nat) : Prop := (l.filter (· ≠ 0)).Nodup

/-- One entry's turn in a pass: the entries done and the addresses taken. -/
def assignOne (want : PEntry → List Nat → Nat) (acc : List (PEntry × Nat) × List Nat) (x : PEntry × Nat) : List (PEntry × Nat) × List Nat :=
  if x.2 ≠ 0 then (acc.1 ++ [x], acc.2)
  else if want x.1 acc.2 = 0 ∨ acc.2.contains (want x.1 acc.2) then (acc.1 ++ [x], acc.2)
  else (acc.1 ++ [(x.1, want x.1 acc.2)], want x.1 acc.2 :: acc.2)

theorem assignPass_eq (want : PEntry → List Nat → Nat) (l : List (PEntry × Nat)) :
    assignPass want l = (l.foldl (assignOne want) ([], (l.map (·.2)).filter (· ≠ 0))).1 := rfl

/-- What a pass keeps, with `r` still to come: the addresses of all entries are distinct, are below 256, and are among those taken. -/
structure PassInv (done r : List (PEntry × Nat)) (taken : List Nat) : Prop where
  distinct : Distinct ((done ++ r).map (·.2))
  small : ∀ x ∈ done ++ r, x.2 < 256
  mem : ∀ x ∈ done ++ r, x.2 ≠ 0 → x.2 ∈ taken

/-- An address that is not yet taken is given to an entry that has none. -/
theorem PassInv.give {done r : List (PEntry × Nat)} {taken : List Nat} {x : PEntry × Nat} {w : Nat} (hi : PassInv done (x :: r) taken)
    (hx : x.2 = 0) (h0 : w ≠ 0) (hw : w < 256) (hn : w ∉ taken) : PassInv (done ++ [(x.1, w)]) r (w :: taken) := by
  obtain ⟨hd, hs, hm⟩ := hi
  have hold : ∀ y ∈ done ++ r, y ∈ done ++ x :: r := fun y hy => by
    rcases List.mem_append.1 hy with h | h
    · exact List.mem_append_left _ h
    · exact List.mem_append_right _ (List.mem_cons_of_mem _ h)
  have hcases : ∀ y ∈ done ++ [(x.1, w)] ++ r, y = (x.1, w) ∨ y ∈ done ++ r := fun y hy => by
    simp only [List.append_assoc, List.singleton_append, List.mem_append, List.mem_cons] at hy ⊢
    tauto
  refine ⟨?_, fun y hy => ?_, fun y hy hne => ?_⟩
  · have hperm : ((done ++ [(x.1, w)] ++ r).map (·.2)).Perm (w :: (done ++ r).map (·.2)) := by
      simp only [List.append_assoc, List.singleton_append, List.map_append, List.map_cons]
      exact List.perm_middle
    have hrest : ((done ++ r).map (·.2)).filter (· ≠ 0) = ((done ++ x :: r).map (·.2)).filter (· ≠ 0) := by
      simp [hx]
    refine ((hperm.filter _).nodup_iff).2 ?_
    rw [List.filter_cons_of_pos (by simpa using h0), hrest]
    refine List.nodup_cons.2 ⟨fun hmem => ?_, hd⟩
    obtain ⟨y, hy, rfl⟩ := List.mem_map.1 (List.mem_filter.1 hmem).1
    exact hn (hm y hy h0)
  · rcases hcases y hy with rfl | h
    · exact hw
    · exact hs y (hold y h)
  · rcases hcases y hy with rfl | h
    · exact List.mem_cons_self
    · exact List.mem_cons_of_mem _ (hm y (hold y h) hne)

theorem PassInv.keep {done r : List (PEntry × Nat)} {taken : List Nat} {x : PEntry × Nat} (hi : PassInv done (x :: r) taken) :
    PassInv (done ++ [x]) r taken := by
  have he : done ++ [x] ++ r = done ++ x :: r := by simp
  exact ⟨he ▸ hi.distinct, he ▸ hi.small, he ▸ hi.mem⟩

theorem assignOne_inv {want : PEntry → List Nat → Nat} (hw : ∀ e t, want e t < 256) {done r : List (PEntry × Nat)} {taken : List Nat}
    {x : PEntry × Nat} (hi : PassInv done (x :: r) taken) :
    PassInv (assignOne want (done, taken) x).1 r (assignOne want (done, taken) x).2 := by
  unfold assignOne
  split
  · exact hi.keep
  next hx =>
    split
    · exact hi.keep
    next hn =>
      simp only [List.contains_iff_mem, not_or] at hn
      exact hi.give (not_not.1 hx) hn.1 (hw _ _) hn.2

theorem assignFold_inv {want : PEntry → List Nat → Nat} (hw : ∀ e t, want e t < 256) : ∀ (r done : List (PEntry × Nat)) (taken : List Nat),
    PassInv done r taken → PassInv (r.foldl (assignOne want) (done, taken)).1 [] (r.foldl (assignOne want) (done, taken)).2 ∧
      (r.foldl (assignOne want) (done, taken)).1.length = done.length + r.length := by
  intro r
  induction r with
  | nil => exact fun done taken hi => ⟨hi, rfl⟩
  | cons x r ih =>
    intro done taken hi
    have hone := assignOne_inv hw hi
    have hlen : (assignOne want (done, taken) x).1.length = done.length + 1 := by
      unfold assignOne
      split
      · simp
      · split <;> simp
    obtain ⟨hinv, hl⟩ := ih _ _ hone
    rw [Prod.mk.eta] at hinv hl
    refine ⟨hinv, ?_⟩
    rw [List.foldl_cons, hl, hlen, List.length_cons]
    omega

/-- A pass gives no address twice and leaves the number of entries. -/
theorem assignPass_spec {want : PEntry → List Nat → Nat} (hw : ∀ e t, want e t < 256) {l : List (PEntry × Nat)} (hd : Distinct (l.map (·.2)))
    (hs : ∀ x ∈ l, x.2 < 256) : Distinct ((assignPass want l).map (·.2)) ∧ (∀ x ∈ assignPass want l, x.2 < 256) ∧
      (assignPass want l).length = l.length := by
  have hstart : PassInv [] l ((l.map (·.2)).filter (· ≠ 0)) :=
    ⟨hd, hs, fun x hx hne => List.mem_filter.2 ⟨List.mem_map_of_mem hx, by simpa using hne⟩⟩
  obtain ⟨hinv, hlen⟩ := assignFold_inv hw l [] _ hstart
  have hdist := hinv.distinct
  have hsmall := hinv.small
  rw [List.append_nil] at hdist hsmall
  rw [assignPass_eq]
  exact ⟨hdist, hsmall, hlen.trans (Nat.zero_add _)⟩

theorem byte_toNat {n : Nat} (hn : n < 256) : (byte n).toNat = n := by
  rw [byte, BitVec.toNat_ofNat]
  exact Nat.mod_eq_of_lt hn

theorem byte_ne_zero {n : Nat} (hn : n < 256) : byte n ≠ 0 ↔ n ≠ 0 := by
  refine not_congr ⟨fun h => ?_, fun h => by rw [h]; rfl⟩
  rw [← byte_toNat hn, h]
  rfl

/-- Distinct addresses are distinct bytes. -/
theorem nodup_map_byte {l : List Nat} (hd : Distinct l) (hs : ∀ n ∈ l, n < 256) : ((l.map byte).filter (· ≠ 0)).Nodup := by
  have hfilter : (l.map byte).filter (· ≠ 0) = (l.filter (· ≠ 0)).map byte := by
    rw [List.filter_map]
    refine congrArg _ (List.filter_congr fun n hn => ?_)
    exact decide_eq_decide.2 (byte_ne_zero (hs n hn))
  rw [hfilter]
  refine List.Nodup.map_on (fun a ha b hb hab => ?_) hd
  rw [← byte_toNat (hs a (List.mem_filter.1 ha).1), hab, byte_toNat (hs b (List.mem_filter.1 hb).1)]

/-- The assignment gives no address twice and leaves the number of entries (R317). -/
theorem assignAll_spec (l : List PEntry) :
    (assignAll l).length = l.length ∧ (((assignAll l).map (·.given)).filter (· ≠ 0)).Nodup := by
  have hzero : (l.map fun e => (e, 0)).map (·.2) = List.replicate l.length 0 := by
    rw [List.map_map]
    exact List.map_const' ..
  have hstart : Distinct ((l.map fun e => (e, 0)).map (·.2)) := by
    rw [hzero, Distinct]
    simp
  have hsmall : ∀ x ∈ l.map fun e => (e, 0), x.2 < 256 := fun x hx => by
    obtain ⟨e, _, rfl⟩ := List.mem_map.1 hx
    exact Nat.zero_lt_succ 255
  obtain ⟨d1, s1, l1⟩ := assignPass_spec (want := fun e _ => e.strap.toNat) (fun e _ => e.strap.isLt) hstart hsmall
  obtain ⟨d2, s2, l2⟩ := assignPass_spec (want := fun e _ => if e.strap = 0 then e.held.toNat else 0)
    (fun e _ => by split; exacts [e.held.isLt, by decide]) d1 s1
  obtain ⟨d3, s3, l3⟩ := assignPass_spec
    (want := fun e taken => if e.strap = 0 then ((List.range 255).find? fun n => 1 ≤ n && !taken.contains n).getD 0 else 0)
    (fun e taken => by
      split
      · cases hf : (List.range 255).find? fun n => 1 ≤ n && !taken.contains n with
        | none => decide
        | some n => exact Nat.lt_succ_of_lt (List.mem_range.1 (List.mem_of_find?_eq_some hf))
      · decide) d2 s2
  refine ⟨?_, ?_⟩
  · exact (List.length_map _).trans (l3.trans (l2.trans (l1.trans (List.length_map _))))
  · have hgiven : (assignAll l).map (·.given) = ((assignPass (fun e taken => if e.strap = 0 then
        ((List.range 255).find? fun n => 1 ≤ n && !taken.contains n).getD 0 else 0)
          (assignPass (fun e _ => if e.strap = 0 then e.held.toNat else 0)
            (assignPass (fun e _ => e.strap.toNat) (l.map fun e => (e, 0))))).map (·.2)).map byte := by
      rw [assignAll, List.map_map, List.map_map]
      rfl
    rw [hgiven]
    refine nodup_map_byte d3 fun n hn => ?_
    obtain ⟨x, hx, rfl⟩ := List.mem_map.1 hn
    exact s3 x hx

/-! ## Surveys -/

theorem Hub.sendIf_but (h : Hub) (b : Bool) (p : Nat) (x : Parade) :
    (if b then h.paradeSend p false x else h) = { h with swc := (if b then h.paradeSend p false x else h).swc } := by
  split
  · exact h.coreSend_but _ _ _ _ _
  · rfl

theorem Hub.launchSurvey_but (h : Hub) (tries : Nat) :
    h.launchSurvey tries = { h with ring := (h.launchSurvey tries).ring, swc := (h.launchSurvey tries).swc } := by
  unfold Hub.launchSurvey
  split
  · rfl
  · dsimp only
    rw [Hub.sendIf_but (if h.linkUp 1 then _ else _), Hub.sendIf_but _ (h.linkUp 1)]

/-- A command that launches a Parade waits for it (R326). -/
theorem runRingParade_ok {h : Hub} (src : CmdSrc) (tag : Byte) (hon : h.ringOn = true) (hu : h.upPorts ≠ []) (hb : h.paradeBusy = false) :
    let k := if h.ring.leader then h.launchSurvey 1 else h.lateReq
    runRingParade h (mkCmd src 0x0201 tag []) =
      .later { k with ring := { k.ring with cmds := k.ring.cmds ++ [((mkCmd src 0x0201 tag []).ref, k.now)] } } := by
  intro k
  unfold runRingParade
  rw [if_neg (by rw [zeroFrom_mkCmd _ _ _ _ 1 rfl]; decide), if_neg (by simp [hon, hu, hb])]

theorem Hub.parade_but (h : Hub) : (if h.ring.leader then h.launchSurvey 1 else h.lateReq) =
    { h with ring := (if h.ring.leader then h.launchSurvey 1 else h.lateReq).ring, swc := (if h.ring.leader then h.launchSurvey 1 else h.lateReq).swc } := by
  split
  · exact h.launchSurvey_but 1
  · rw [Hub.lateReq_but]

theorem Hub.paradeRx_phase {h : Hub} {p : Nat} {n : Nrp} {b : List Byte} {d : Parade} (hd : paradeParse b = some d) :
    (d.phase = 1 → h.paradeRx p n b = h.surveyRx p n.turned d) ∧ (d.phase = 2 → h.paradeRx p n b = h.assignmentRx p d) := by
  unfold Hub.paradeRx
  rw [hd]
  exact ⟨fun e => if_pos e, fun e => (if_neg (by omega)).trans (if_pos e)⟩

theorem Hub.paradeWait_again {h : Hub} {t : Nat} (ht : h.ring.relaunchAt = some t) (hd : t ≤ h.now) : h.paradeWait = h.launchSurvey 1 := by
  unfold Hub.paradeWait
  simp only [ht, decide_eq_true hd, if_true]

theorem Hub.paradeWait_first {h : Hub} {t : Nat} (hr : h.ring.relaunchAt = none) (ht : h.ring.firstUp = some t)
    (hd : t + h.ringMs F.RING_PAR_CFG_PARADE_WAIT_MS ≤ h.now) (hf : h.ring.state = .forming) (hb : h.paradeBusy = false) :
    h.paradeWait = if h.ring.paradeSeen then h.lateReq else h.launchSurvey 1 := by
  unfold Hub.paradeWait
  simp only [hr, ht, Bool.false_eq_true, if_false]
  exact if_pos ⟨hd, hf, hb⟩

theorem Hub.paradeTimeout_due {h : Hub} {v : Survey} (hv : h.ring.survey = some v) (hd : v.at_ + h.ringMs F.RING_PAR_CFG_PARADE_TMO_MS ≤ h.now) :
    h.paradeTimeout = if v.tries < 3 then h.launchSurvey (v.tries + 1)
      else Hub.evt { h with ring := { h.ring with survey := none } } Reg.RING_EVT F.RING_EVT_PARADE_FAIL := by
  unfold Hub.paradeTimeout
  simp only [hv]
  exact if_pos hd

/-- Settles O39, clause by clause. -/
theorem ringReceptionAndParade : Obligations.RingReceptionAndParade := by
  unfold Obligations.RingReceptionAndParade
  refine ⟨fun s p b f => ?_, fun s p b f => ?_, fun h n k p ho => Hub.deliveryFirst_alone ho, fun h p bs hc => Hub.cutEnd_none bs hc,
    fun s p bs => ?_, fun h p b => ?_, assignAll_spec,
    fun s t hh ht hd => makes_on Hub.paradeWait hh rfl (Hub.paradeWait_again ht hd),
    fun s t hh hr ht hd hf hb => makes_on Hub.paradeWait hh rfl (Hub.paradeWait_first hr ht hd hf hb),
    fun s v hh hv hd => makes_on Hub.paradeTimeout hh rfl (Hub.paradeTimeout_due hv hd), fun s src tag => ?_, fun s => ?_⟩
  · intro bs hh
    refine ⟨fun hno => makes_on (fun h => h.ringRx p (b ++ f)) hh rfl (if_pos hno), fun hon hl hs => makes_on (fun h => h.ringRx p (b ++ f)) hh rfl ?_⟩
    exact (if_neg (by simp [hon, hl])).trans (if_pos hs)
  · intro bs body n g seen g' keep g1 g2 hh hon hu h64 hlen hg hn hb h1 h2 h3
    have hrx := Hub.ringRx_good hon (Hub.link_ne_down_of_linkUp hu) h64 hlen hg hn
    have hnrp := Hub.nrpRx_good hu hb h1 h2 h3
    refine ⟨fun ho => ?_, fun ho hbad => ?_, fun ho hbad => ?_⟩
    · refine makes_on (fun h => h.ringRx p (b ++ f)) hh rfl (hrx.trans (congrArg (fun k => Hub.cutEnd k p body) (hnrp.trans ?_)))
      exact if_pos ho
    · refine makes_on (fun h => h.ringRx p (b ++ f)) hh rfl (hrx.trans (congrArg (fun k => Hub.cutEnd k p body) (hnrp.trans ?_)))
      exact (if_neg (by rw [ho]; decide)).trans (if_pos hbad)
    · refine makes_on (fun h => h.ringRx p (b ++ f)) hh rfl (hrx.trans (congrArg (fun k => Hub.cutEnd k p body) (hnrp.trans ?_)))
      exact (if_neg (by rw [ho]; decide)).trans (if_neg (by rw [hbad]; decide))
  · intro body n x hh hon hl h64 hlen hg hn hb ht
    have hrx := Hub.ringRx_good hon hl h64 hlen hg hn
    obtain ⟨hhello, hlate, hparade⟩ := Hub.nrpRx_local (h := s.hub) (p := p) hb
    refine ⟨fun e => ?_, fun e hu => ?_, fun d e hu hd hphase => ⟨fun hp => ?_, fun hp => ?_⟩⟩
    · refine makes_on (fun h => h.linkLocalRx p bs tHello none) hh rfl ((Hub.linkLocalRx_type hn (ht.trans e)).trans (hrx.trans ?_))
      exact congrArg (fun k => Hub.cutEnd k p body) (hhello e)
    · refine makes_on (fun h => h.linkLocalRx p bs tLate none) hh rfl ((Hub.linkLocalRx_type hn (ht.trans e)).trans (hrx.trans ?_))
      exact congrArg (fun k => Hub.cutEnd k p body) (hlate e hu)
    · refine makes_on (fun h => h.linkLocalRx p bs tParade (some 1)) hh rfl
        ((Hub.linkLocalRx_phase hn (ht.trans e) (hphase.trans hp)).trans (hrx.trans ?_))
      exact congrArg (fun k => Hub.cutEnd k p body) ((hparade e hu).trans ((Hub.paradeRx_phase hd).1 hp))
    · refine makes_on (fun h => h.linkLocalRx p bs tParade (some 2)) hh rfl
        ((Hub.linkLocalRx_phase hn (ht.trans e) (hphase.trans hp)).trans (hrx.trans ?_))
      exact congrArg (fun k => Hub.cutEnd k p body) ((hparade e hu).trans ((Hub.paradeRx_phase hd).2 hp))
  · intro v hl h16 hmin hpeer
    exact Hub.helloRx_up hl h16 hmin hpeer
  · intro c k ha hon hu hb
    have hrun := runRingParade_ok src tag hon hu hb
    have hbut : k = { s.hub with ring := k.ring, swc := k.swc } := s.hub.parade_but
    have hnow : k.now = s.hub.now := (congrArg Hub.now hbut :)
    refine gives_later (fun h => h.accept c runRingParade) [.ring, .swc] [] rfl ha (accept_busy ha hrun) hnow
      (fun p hp => ?_) (congrArg Hub.glb hbut :) (fun a _ => Hub.rd_congr (congrArg Hub.regs hbut :) a) (fun q => by simp) fun g hg _ => ?_
    · have hsame : ∀ p, p ∉ [Part.regs, .ring, .swc] → s.hub.same k p := fun p hp => by
        rw [hbut]
        cases p <;> first | rfl | simp at hp
      have hkp := hsame p hp
      cases p <;> first | exact hkp | simp at hp
    · have hswc : g.swc = k.swc := hg .swc (by decide)
      have hring : g.ring = { k.ring with cmds := k.ring.cmds ++ [(c.ref, k.now)] } := hg .ring (by decide)
      exact ⟨hswc, by rw [hnow] at hring; exact hring⟩
  · intro timedOut k hh
    exact makes_on Hub.ringParadeTimeout hh rfl rfl

end Sys2Proof.Machine

/-! The time bases and their servos (R331 to R338, R347, R348, R353). -/

namespace Sys2Proof.Machine

/-! ## A step and its judgement -/

/-- An accepted step waits for the next tick (R337). -/
def Hub.stepTaken (h : Hub) (b : Nat) (z : Int) : Hub :=
  if z = 0 then h
  else ((h.setTb b { h.tb b with ops := (h.tb b).ops ++ [.step z] }).evtN Reg.TIME_EVT F.TIME_EVT_STEPPED b).count (Reg.TB_CNT_STEPS b)

/-- A servo whose step was refused goes on acquiring once a step is accepted (R347). -/
def Hub.servoBack (h : Hub) (b : Nat) : Hub := if (h.tb b).servo = .refused then h.servoTo b .acquiring else h

theorem Hub.judgeStep_eq (h : Hub) (b : Nat) (z : Int) : h.judgeStep b z =
    if b = 3 then (false, h)
    else if (h.tb b).servo = .unset then (true, (h.servoTo b (if h.tbSrc b = 0 then .free else .acquiring)).stepTaken b z)
    else if z.natAbs ≤ h.jumpNs b then (true, (h.stepTaken b z).servoBack b)
    else if (h.tb b).permit.isSome then (true, ((h.setTb b { h.tb b with permit := none }).stepTaken b z).servoBack b)
    else (false, ((h.evtN Reg.TIME_EVT F.TIME_EVT_TIME_JUMP_REFUSED b).count (Reg.TB_CNT_REFUSED b)).wr (Reg.TB_REFUSED_OFS b) (sat32 z)) := rfl

theorem Hub.stepTaken_tb {b : Nat} {z : Int} (h : Hub) (hz : z ≠ 0) :
    (h.stepTaken b z).tb b = { h.tb b with ops := (h.tb b).ops ++ [.step z] } := by
  rw [Hub.stepTaken, if_neg hz]
  exact Hub.tb_setTb_same h b _

theorem Hub.servoBack_same {h : Hub} {b : Nat} (hs : (h.tb b).servo ≠ .refused) : h.servoBack b = h := if_neg hs

/-- The three outcomes for a base that is set and not refused (R335, R336). -/
theorem Hub.judgeStep_cases {h : Hub} {b : Nat} {z : Int} (hb : b < 3) (hu : (h.tb b).servo ≠ .unset) (hr : (h.tb b).servo ≠ .refused) (hz : z ≠ 0) :
    (z.natAbs ≤ h.jumpNs b → h.judgeStep b z = (true, h.stepTaken b z)) ∧
      (h.jumpNs b < z.natAbs → (h.tb b).permit.isSome = true →
        h.judgeStep b z = (true, (h.setTb b { h.tb b with permit := none }).stepTaken b z)) ∧
      (h.jumpNs b < z.natAbs → (h.tb b).permit = none → h.judgeStep b z =
        (false, ((h.evtN Reg.TIME_EVT F.TIME_EVT_TIME_JUMP_REFUSED b).count (Reg.TB_CNT_REFUSED b)).wr (Reg.TB_REFUSED_OFS b) (sat32 z))) := by
  have hb3 : b ≠ 3 := by omega
  refine ⟨fun hj => ?_, fun hj hp => ?_, fun hj hp => ?_⟩
  · have hservo : ((h.stepTaken b z).tb b).servo ≠ .refused := by rw [Hub.stepTaken_tb _ hz]; exact hr
    rw [Hub.judgeStep_eq, if_neg hb3, if_neg hu, if_pos hj, Hub.servoBack_same hservo]
  · have hservo : (((h.setTb b { h.tb b with permit := none }).stepTaken b z).tb b).servo ≠ .refused := by
      rw [Hub.stepTaken_tb _ hz, Hub.tb_setTb_same]
      exact hr
    rw [Hub.judgeStep_eq, if_neg hb3, if_neg hu, if_neg (Nat.not_le.2 hj), if_pos hp, Hub.servoBack_same hservo]
  · rw [Hub.judgeStep_eq, if_neg hb3, if_neg hu, if_neg (Nat.not_le.2 hj), if_neg (by rw [hp]; decide)]

/-- From `h` to `k` only the Tuning block and the words in `as` have changed. -/
structure Hub.TimeOnly (as : List Nat) (h k : Hub) : Prop where
  but : k = { h with regs := k.regs, tim := k.tim }
  rd : ∀ a, a ∉ as → k.rd a = h.rd a

theorem Hub.TimeOnly.refl (as : List Nat) (h : Hub) : h.TimeOnly as h := ⟨rfl, fun _ _ => rfl⟩

theorem Hub.TimeOnly.trans {as : List Nat} {h k g : Hub} (h1 : h.TimeOnly as k) (h2 : k.TimeOnly as g) : h.TimeOnly as g := by
  refine ⟨?_, fun a ha => (h2.rd a ha).trans (h1.rd a ha)⟩
  rw [h2.but, h1.but]

theorem Hub.TimeOnly.setTb (as : List Nat) (h : Hub) (b : Nat) (x : TimeBase) : h.TimeOnly as (h.setTb b x) := ⟨rfl, fun _ _ => rfl⟩

theorem Hub.TimeOnly.servoTo {as : List Nat} (h : Hub) (b : Nat) (st : ServoSt) (ha : Reg.TIME_EVT ∈ as) : h.TimeOnly as (h.servoTo b st) := by
  unfold Hub.servoTo
  split
  · exact .refl as h
  · exact ⟨rfl, fun a hna => (Hub.rd_evtN_ne _ _ _ (by rintro rfl; exact hna ha)).trans rfl⟩

theorem Hub.TimeOnly.stepTaken {as : List Nat} (h : Hub) (b : Nat) (z : Int) (ha : Reg.TIME_EVT ∈ as) (hc : Reg.TB_CNT_STEPS b ∈ as) :
    h.TimeOnly as (h.stepTaken b z) := by
  unfold Hub.stepTaken
  split
  · exact .refl as h
  · exact ⟨rfl, fun a hna => (Hub.rd_count_ne _ (by rintro rfl; exact hna hc)).trans
      ((Hub.rd_evtN_ne _ _ _ (by rintro rfl; exact hna ha)).trans rfl)⟩

theorem Hub.TimeOnly.servoBack {as : List Nat} (h : Hub) (b : Nat) (ha : Reg.TIME_EVT ∈ as) : h.TimeOnly as (h.servoBack b) := by
  unfold Hub.servoBack
  split
  · exact .servoTo h b _ ha
  · exact .refl as h

/-- An accepted step changes the Tuning block, its events and the count of steps. -/
theorem Hub.judgeStep_accepted {h : Hub} {b : Nat} {z : Int} (ht : (h.judgeStep b z).1 = true) :
    h.TimeOnly [Reg.TIME_EVT, Reg.TB_CNT_STEPS b] (h.judgeStep b z).2 := by
  have h1 : Reg.TIME_EVT ∈ [Reg.TIME_EVT, Reg.TB_CNT_STEPS b] := List.mem_cons_self
  have h2 : Reg.TB_CNT_STEPS b ∈ [Reg.TIME_EVT, Reg.TB_CNT_STEPS b] := List.mem_cons_of_mem _ List.mem_cons_self
  rw [Hub.judgeStep_eq] at ht ⊢
  split at ht
  next => cases ht
  next hb =>
    rw [if_neg hb]
    split at ht
    next hu => rw [if_pos hu]; exact (Hub.TimeOnly.servoTo h b _ h1).trans (.stepTaken _ b z h1 h2)
    next hu =>
      rw [if_neg hu]
      split at ht
      next hj => rw [if_pos hj]; exact (Hub.TimeOnly.stepTaken h b z h1 h2).trans (.servoBack _ b h1)
      next hj =>
        rw [if_neg hj]
        split at ht
        next hp => rw [if_pos hp]; exact (Hub.TimeOnly.setTb _ h b _).trans ((Hub.TimeOnly.stepTaken _ b z h1 h2).trans (.servoBack _ b h1))
        next => cases ht

/-- A refused step of one of the settable bases leaves the Tuning block, and notes the offset that it asked for (R335). -/
theorem Hub.judgeStep_refused {h : Hub} {b : Nat} {z : Int} (hb : b < 3) (ht : (h.judgeStep b z).1 = false) :
    (h.judgeStep b z).2.tim = h.tim ∧ (h.judgeStep b z).2.rd (Reg.TB_REFUSED_OFS b) = sat32 z := by
  have hb3 : b ≠ 3 := by omega
  rw [Hub.judgeStep_eq, if_neg hb3] at ht ⊢
  split at ht
  next => cases ht
  next hu =>
    rw [if_neg hu]
    split at ht
    next => cases ht
    next hj =>
      rw [if_neg hj]
      split at ht
      next => cases ht
      next hp => rw [if_neg hp]; exact ⟨rfl, Hub.rd_wr_same _ _ _⟩

/-! ## The time commands -/

theorem Hub.stepCmd_done {h : Hub} {c : CmdIn} {b : Nat} {z : Int} (hs : h.tbSrc b = 0) (ht : (h.judgeStep b z).1 = true) :
    h.stepCmd c b z = .inl (.done (h.judgeStep b z).2 []) := by
  unfold Hub.stepCmd
  rw [if_neg (by simp [hs])]
  cases hj : h.judgeStep b z with
  | mk t k =>
    rw [hj] at ht
    cases ht
    rfl

theorem Hub.stepCmd_refused {h : Hub} {c : CmdIn} {b : Nat} {z : Int} (hs : h.tbSrc b = 0) (ht : (h.judgeStep b z).1 = false) :
    h.stepCmd c b z = .inr ((h.judgeStep b z).2.refuse c sESTATE ((h.judgeStep b z).2.servo b).code b) := by
  unfold Hub.stepCmd
  rw [if_neg (by simp [hs])]
  cases hj : h.judgeStep b z with
  | mk t k =>
    rw [hj] at ht
    cases ht
    rfl

/-- A step command that is carried out is accepted as other commands are. -/
theorem acceptStep_done {s : State} {c : CmdIn} {run : Hub → Ack ⊕ Hub} {h : Hub} (ha : Accepts s c) (hr : run s.hub = .inl (.done h [])) :
    s.hub.acceptStep c run = h.respond c.ref sOK 0 0 [] := by
  have hacc := accept_done (run := fun h _ => match run h with
    | .inl a => a
    | .inr _ => .refuse sESTATE 0 0) (h := h) (res := []) ha (by simp only [hr])
  unfold Hub.acceptStep
  rw [if_neg (by rw [ha.2.1]; decide), ha.2.2.1, hr]
  exact hacc

/-- A step command whose step is refused does what the refusal does. -/
theorem acceptStep_refusal {s : State} {c : CmdIn} {run : Hub → Ack ⊕ Hub} {h : Hub} (ha : Accepts s c) (hr : run s.hub = .inr h) :
    s.hub.acceptStep c run = h := by
  obtain ⟨_, hs, hp, hrole⟩ := ha
  unfold Hub.acceptStep
  rw [if_neg (by rw [hs]; decide), hp, hr]
  cases hc : c.src with
  | queue q =>
    rw [hc] at hrole
    simp only [Hub.jnl_idle _ _ hrole, hr]
  | script => simp only [hr]
  | journal q => simp only [hr]

theorem timeSetRun_eq (h : Hub) (src : CmdSrc) (tag : Byte) {bw lo hi ns : Word} (hb : bw.toNat < 3) (h2 : hi.toNat < 65536) (h3 : ns.toNat < 1000000000) :
    Hub.timeSetRun (mkCmd src 0x0801 tag [bw, lo, hi, ns]) h = h.stepCmd (mkCmd src 0x0801 tag [bw, lo, hi, ns]) bw.toNat
      ((((lo.toNat + hi.toNat * 2 ^ 32) * 1000000000 + ns.toNat : Nat) : Int) - (h.baseNs bw.toNat : Int)) := by
  have e1 : (mkCmd src 0x0801 tag [bw, lo, hi, ns]).arg 1 = bw.toNat := rfl
  have e2 : (mkCmd src 0x0801 tag [bw, lo, hi, ns]).arg 2 = lo.toNat := rfl
  have e3 : (mkCmd src 0x0801 tag [bw, lo, hi, ns]).arg 3 = hi.toNat := rfl
  have e4 : (mkCmd src 0x0801 tag [bw, lo, hi, ns]).arg 4 = ns.toNat := rfl
  unfold Hub.timeSetRun
  dsimp only
  rw [e1, e2, e3, e4, if_neg (by rw [zeroFrom_mkCmd _ _ _ _ 5 rfl]; simp; omega)]

theorem timeStepRun_eq (h : Hub) (src : CmdSrc) (tag : Byte) {bw lo hi : Word} (hb : bw.toNat < 3) :
    Hub.timeStepRun (mkCmd src 0x0802 tag [bw, lo, hi]) h = h.stepCmd (mkCmd src 0x0802 tag [bw, lo, hi]) bw.toNat
      (toSigned 64 (lo.toNat + hi.toNat * 2 ^ 32)) := by
  have e1 : (mkCmd src 0x0802 tag [bw, lo, hi]).arg 1 = bw.toNat := rfl
  have e2 : (mkCmd src 0x0802 tag [bw, lo, hi]).arg 2 = lo.toNat := rfl
  have e3 : (mkCmd src 0x0802 tag [bw, lo, hi]).arg 3 = hi.toNat := rfl
  unfold Hub.timeStepRun
  dsimp only
  rw [e1, e2, e3, if_neg (by rw [zeroFrom_mkCmd _ _ _ _ 4 rfl]; simp; omega)]

/-- What a step command gives whose step is accepted. -/
theorem stepCmd_gives {i : Instr} {s : State} {c : CmdIn} {run : Hub → Ack ⊕ Hub} {b : Nat} {z : Int} (he : exec i s = s.on fun h => h.acceptStep c run)
    (ha : Accepts s c) (hb : b < 3) (hrun : run s.hub = s.hub.stepCmd c b z) (hs : s.hub.tbSrc b = 0) (ht : (s.hub.judgeStep b z).1 = true) :
    Gives i s fun t => Answered c sOK [] s t ∧ CmdOnly [.tim] [Reg.TIME_EVT, Reg.TB_CNT_STEPS b] c s t ∧ t.hub.tim = (s.hub.judgeStep b z).2.tim := by
  obtain ⟨hbut, hrd⟩ := Hub.judgeStep_accepted ht
  refine gives_done (fun h => h.acceptStep c run) [.tim] [Reg.TIME_EVT, Reg.TB_CNT_STEPS b] he ha
    (acceptStep_done ha (hrun.trans (Hub.stepCmd_done hs ht))) (by simp) (by rw [hbut]) (fun p hp => ?_) (by rw [hbut]) hrd (fun q => ?_)
    fun k hk _ => hk .tim (by decide) (by decide)
  · rw [hbut]
    cases p <;> first | rfl | simp at hp
  · simp only [Reg.HQ_RSP, Reg.TIME_EVT, Reg.TB_CNT_STEPS, List.mem_cons, List.not_mem_nil, or_false]
    omega

theorem runTimePermit_ok {h : Hub} (src : CmdSrc) (tag : Byte) {bw arm : Word} (hb : bw.toNat < 3) (ha : arm.toNat < 2) :
    runTimePermit h (mkCmd src 0x0803 tag [bw, arm]) =
      .done (h.setTb bw.toNat { h.tb bw.toNat with ops := (h.tb bw.toNat).ops ++ [.permit (arm.toNat == 1)] }) [] := by
  have e1 : (mkCmd src 0x0803 tag [bw, arm]).arg 1 = bw.toNat := rfl
  have e2 : (mkCmd src 0x0803 tag [bw, arm]).arg 2 = arm.toNat := rfl
  unfold runTimePermit
  dsimp only
  rw [e1, e2, if_neg (by rw [zeroFrom_mkCmd _ _ _ _ 3 rfl]; simp; omega)]

theorem runTimeSlew_ok {h : Hub} (src : CmdSrc) (tag : Byte) {bw ofs rate : Word} (hb : bw.toNat < 3) (h0 : rate.toNat ≠ 0)
    (h1 : rate.toNat ≤ 1000) (hs : h.tbSrc bw.toNat = 0) (hl : (h.tb bw.toNat).slewing = false) :
    runTimeSlew h (mkCmd src 0x0804 tag [bw, ofs, rate]) = .done (h.setTb bw.toNat { h.tb bw.toNat with
      ops := (h.tb bw.toNat).ops ++ [.slew (toSigned 32 ofs.toNat) rate.toNat] }) [] := by
  have e1 : (mkCmd src 0x0804 tag [bw, ofs, rate]).arg 1 = bw.toNat := rfl
  have e2 : (mkCmd src 0x0804 tag [bw, ofs, rate]).arg 2 = ofs.toNat := rfl
  have e3 : (mkCmd src 0x0804 tag [bw, ofs, rate]).arg 3 = rate.toNat := rfl
  unfold runTimeSlew
  dsimp only
  rw [e1, e2, e3, if_neg (by rw [zeroFrom_mkCmd _ _ _ _ 4 rfl]; simp; omega), if_neg (by simp [hs, hl])]

theorem Hub.logRefusal_tim (h : Hub) (r : CmdRef) (st d o : Nat) : (h.logRefusal r st d o).tim = h.tim := by
  unfold Hub.logRefusal
  dsimp only
  rw [Hub.evt_tim, Hub.count_tim, Hub.setFld_tim, Hub.wr_tim, Hub.wr_tim, Hub.wr_tim, Hub.wr_tim]

theorem Hub.refuse_tim (h : Hub) (c : CmdIn) (st d o : Nat) : (h.refuse c st d o).tim = h.tim := by
  rw [Hub.refuse, Hub.respond_fields]
  exact h.logRefusal_tim c.ref st d o

/-! ## One tick of `TB3` (R331) -/

theorem TimeBase.keep_ns (t : TimeBase) (now : Nat) (inc : Int) (jump : Bool) : (t.keep now inc jump).ns = t.ns ∧ (t.keep now inc jump).sub = t.sub := by
  unfold TimeBase.keep
  dsimp only
  split <;> split <;> exact ⟨rfl, rfl⟩

theorem ediv_five {n s : Nat} (hs : s < n) : ((s : Int) + 5 * (n : Int)) / (n : Int) = 5 ∧ ((s : Int) + 5 * (n : Int)) % (n : Int) = s := by
  have hn : (n : Int) ≠ 0 := by omega
  rw [Int.add_mul_ediv_right _ _ hn, Int.add_mul_emod_self_right, Int.ediv_eq_zero_of_lt (Int.natCast_nonneg s) (by omega),
    Int.emod_eq_of_lt (Int.natCast_nonneg s) (by omega)]
  exact ⟨rfl, rfl⟩

/-- An increment of 5 ns. -/
theorem TimeBase.run_five {t : TimeBase} {inc : Int} (hs : t.sub < subNs) (hi : inc = 5 * (subNs : Int)) :
    (t.run inc).ns = (t.ns + 5) % nsWrap ∧ (t.run inc).sub = t.sub := by
  obtain ⟨hdiv, hmod⟩ := ediv_five hs
  have hns : (t.run inc).ns = (((t.ns : Int) + ((t.sub : Int) + inc) / (subNs : Int)) % (nsWrap : Int)).toNat := rfl
  have hsub : (t.run inc).sub = (((t.sub : Int) + inc) % (subNs : Int)).toNat := rfl
  rw [hns, hsub, hi, hdiv, hmod]
  exact ⟨congrArg Int.toNat (Int.natCast_mod (t.ns + 5) nsWrap).symm, rfl⟩

/-- `TB3` without changes waiting, and not slewing, advances by 5 ns. -/
theorem Hub.tbTick_free {h : Hub} (ho : (h.tb 3).ops = []) (hsl : (h.tb 3).slew = none) (hs : (h.tb 3).sub < subNs) :
    ((h.tbTick 3).tb 3).ns = ((h.tb 3).ns + 5) % nsWrap ∧ ((h.tbTick 3).tb 3).sub = (h.tb 3).sub := by
  have hk := Hub.tb_setTb_same h 3 { h.tb 3 with ops := [], back := 0 }
  have hinc : (h.setTb 3 { h.tb 3 with ops := [], back := 0 }).tbInc 3 = 5 * (subNs : Int) := by
    unfold Hub.tbInc
    rw [hk]
    simp only [hsl, Hub.freqPpt, if_true, Int.add_zero]
  unfold Hub.tbTick
  dsimp only
  rw [ho, List.foldl_nil, Hub.tb_setTb_same, hk, (TimeBase.keep_ns _ _ _ _).1, (TimeBase.keep_ns _ _ _ _).2]
  exact TimeBase.run_five hs hinc

/-! ## The servos -/

/-- The hub that has noted a servo's offset and frequency (R347). -/
def Hub.servoNoted (h : Hub) (b : Nat) (ofs : Int) : Hub :=
  let g := h.wr (Reg.TB_OFS b) (sat32 ofs)
  g.setTb b { g.tb b with lastIn := g.now, freqs := ((g.freqPpt b) :: (g.tb b).freqs).take 16 }

theorem Hub.servoNoted_tb (h : Hub) (b : Nat) (ofs : Int) : (h.servoNoted b ofs).tb b =
    { h.tb b with lastIn := h.now, freqs := (((h.wr (Reg.TB_OFS b) (sat32 ofs)).freqPpt b) :: (h.tb b).freqs).take 16 } :=
  Hub.tb_setTb_same _ b _

theorem Hub.servoNoted_rd (h : Hub) {b a : Nat} (ofs : Int) (ha : a ≠ Reg.TB_OFS b) : (h.servoNoted b ofs).rd a = h.rd a :=
  Hub.rd_wr_ne _ _ ha

theorem Hub.servoTo_servo (h : Hub) (b : Nat) (st : ServoSt) : ((h.servoTo b st).tb b).servo = st := by
  unfold Hub.servoTo
  split
  next he => exact he
  next => exact congrArg TimeBase.servo (Hub.tb_setTb_same h b _)

/-- What an input does, `g` being the hub that has noted it and whose servo is no longer in holdover. -/
theorem Hub.servoInput_eq {h g : Hub} {b : Nat} {i : ServoIn} {ofs : Int} (ha : h.acts = true) (ho : h.servoOffset b i = some ofs)
    (hg : (if ((h.servoNoted b ofs).tb b).servo = .holdover then (h.servoNoted b ofs).servoTo b .acquiring else h.servoNoted b ofs) = g) :
    h.servoInput b i = if (g.tb b).servo = .refused then
        if g.flag (Reg.TB_SRC b) F.TB_SRC_AUTO_SLEW then
          (if (g.tb b).slewing then g
          else g.setTb b { g.tb b with ops := (g.tb b).ops ++ [.slew (toSigned 32 (g.rd (Reg.TB_REFUSED_OFS b)).toNat) (g.slewMax b)] })
        else if (g.tb b).permit.isSome then g.servoStep b ofs else g
      else if ofs.natAbs ≤ 4 * (g.servoCount b ofs).lockNs b then (g.servoCount b ofs).servoFreq b else (g.servoCount b ofs).servoStep b ofs := by
  rw [← hg]
  unfold Hub.servoInput
  rw [if_neg (by rw [ha]; decide), ho]
  rfl

/-- An input of a servo whose steps are not refused (R347). -/
theorem Hub.servoInput_steers {h : Hub} {b : Nat} {i : ServoIn} {ofs : Int} (ha : h.acts = true) (ho : h.servoOffset b i = some ofs)
    (hr : (h.tb b).servo ≠ .refused) :
    let k := h.servoNoted b ofs
    let g := (if (h.tb b).servo = .holdover then k.servoTo b .acquiring else k).servoCount b ofs
    h.servoInput b i = if ofs.natAbs ≤ 4 * g.lockNs b then g.servoFreq b else g.servoStep b ofs := by
  intro k g
  have hk : (k.tb b).servo = (h.tb b).servo := by rw [Hub.servoNoted_tb]
  have hsame : (if (k.tb b).servo = .holdover then k.servoTo b .acquiring else k) =
      if (h.tb b).servo = .holdover then k.servoTo b .acquiring else k := by rw [hk]
  refine (Hub.servoInput_eq ha ho hsame).trans (if_neg ?_)
  split
  · rw [Hub.servoTo_servo]
    decide
  · rw [hk]
    exact hr

/-- An input of a servo whose last step was refused (R347, R348). -/
theorem Hub.servoInput_refused {h : Hub} {b : Nat} {i : ServoIn} {ofs : Int} (ha : h.acts = true) (ho : h.servoOffset b i = some ofs)
    (hr : (h.tb b).servo = .refused) :
    let k := h.servoNoted b ofs
    (h.flag (Reg.TB_SRC b) F.TB_SRC_AUTO_SLEW = false → h.servoInput b i = if (h.tb b).permit.isSome then k.servoStep b ofs else k) ∧
      (h.flag (Reg.TB_SRC b) F.TB_SRC_AUTO_SLEW = true → h.servoInput b i = if (h.tb b).slewing then k else k.setTb b { k.tb b with
        ops := (k.tb b).ops ++ [.slew (toSigned 32 (h.rd (Reg.TB_REFUSED_OFS b)).toNat) (h.slewMax b)] }) := by
  intro k
  have hk : (k.tb b).servo = .refused := by rw [Hub.servoNoted_tb]; exact hr
  have hperm : (k.tb b).permit = (h.tb b).permit := by rw [Hub.servoNoted_tb]
  have hslew : (k.tb b).slewing = (h.tb b).slewing := by rw [Hub.servoNoted_tb]; rfl
  have hrd : ∀ a, a ≠ Reg.TB_OFS b → k.rd a = h.rd a := fun a hne => h.servoNoted_rd ofs hne
  have hflag : k.flag (Reg.TB_SRC b) F.TB_SRC_AUTO_SLEW = h.flag (Reg.TB_SRC b) F.TB_SRC_AUTO_SLEW :=
    Hub.flag_of_rd _ (hrd _ (by simp only [Reg.TB_SRC, Reg.TB_OFS]; omega))
  have hofs : k.rd (Reg.TB_REFUSED_OFS b) = h.rd (Reg.TB_REFUSED_OFS b) := hrd _ (by simp only [Reg.TB_REFUSED_OFS, Reg.TB_OFS]; omega)
  have hmax : k.slewMax b = h.slewMax b := Hub.fld_of_rd _ (hrd _ (by simp only [Reg.TB_SERVO, Reg.TB_OFS]; omega))
  have hstay : (if (k.tb b).servo = .holdover then k.servoTo b .acquiring else k) = k := if_neg (by rw [hk]; decide)
  have heq := Hub.servoInput_eq ha ho hstay
  rw [hk, hperm, hslew, hflag, hofs, hmax, if_pos rfl] at heq
  exact ⟨fun hf => heq.trans (if_neg (by rw [hf]; decide)), fun hf => heq.trans (if_pos hf)⟩

theorem Hub.servoLost_holds {h : Hub} {b : Nat} (hg : h.tbSrc b = 1 ∨ (2 ≤ h.tbSrc b ∧ (h.tb b).lastIn + 3 * tuS ≤ h.now))
    (hs : (h.tb b).servo = .acquiring ∨ (h.tb b).servo = .locked) (hf : (h.tb b).freqs ≠ []) :
    h.servoLost b = (h.wr (Reg.TB_FREQ b) (word (ofSigned 32 ((h.tb b).freqs.foldl (· + ·) 0 / ((h.tb b).freqs.length : Int))))).servoTo b .holdover := by
  unfold Hub.servoLost
  dsimp only
  rw [if_pos ⟨by simpa only [Bool.or_eq_true, Bool.and_eq_true, decide_eq_true_eq] using hg, hs⟩]
  split
  next he => exact absurd he hf
  next => rfl

theorem Hub.regWrite_quiet (h : Hub) (a : Nat) (w : Word) : h.regWrite a w false id = { h with regs := (h.regWrite a w false id).regs } := by
  unfold Hub.regWrite Hub.when
  dsimp only
  split <;> rfl

theorem Hub.srcWrite_quiet {h : Hub} {b : Nat} {w : Word} (hb : b < 3) (hok : ¬ (5 ≤ bits w F.TB_SRC_SRC ∨ (bits w F.TB_SRC_SRC = 1 ∧ b = 2))) :
    let r := h.regWrite (Reg.TB_SRC b) w false id
    let k := r.setTb b { r.tb b with lastIn := r.now }
    h.srcWrite b w = if bits w F.TB_SRC_SRC = 0 then (if (h.tb b).servo = .unset then k else k.servoTo b .free)
      else if (h.tb b).servo = .free then k.servoTo b .acquiring else k := by
  intro r k
  have hservo : (k.tb b).servo = (h.tb b).servo := by
    have hr : r.tb b = h.tb b := Hub.tb_congr (congrArg (fun g : Hub => g.tim.base) (h.regWrite_quiet (Reg.TB_SRC b) w)) b
    refine (congrArg TimeBase.servo (Hub.tb_setTb_same r b _)).trans ?_
    show (r.tb b).servo = (h.tb b).servo
    rw [hr]
  unfold Hub.srcWrite
  rw [if_neg (by omega)]
  dsimp only
  rw [if_neg hok]
  rw [← hservo]

theorem Hub.ptpAnnounce_new {h : Hub} {b gm : Nat} (ha : h.acts = true) (hs : h.tbSrc b = 1) (hg : (h.tb b).gm ≠ gm)
    (hst : (h.tb b).servo = .acquiring ∨ (h.tb b).servo = .locked ∨ (h.tb b).servo = .holdover) :
    h.ptpAnnounce b gm = ((h.setTb b { h.tb b with gm := gm }).servoTo b .acquiring).evtN Reg.TIME_EVT F.TIME_EVT_GM_CHANGE b := by
  unfold Hub.ptpAnnounce
  dsimp only
  rw [if_neg (by simp [ha, hs, hg]), if_pos hst]

theorem Hub.permitExpiry_armed {h : Hub} {b t : Nat} (hp : (h.tb b).permit = some t) :
    h.permitExpiry b = if t + 60 * tuS ≤ h.now then
      (h.setTb b { h.tb b with permit := none }).evtN Reg.TIME_EVT F.TIME_EVT_PERMIT_EXPIRED b else h := by
  unfold Hub.permitExpiry
  rw [hp]

theorem Hub.slewComplete_done {h : Hub} {b : Nat} {x : Slew} (hx : (h.tb b).slew = some x) (hz : x.rem = 0) :
    h.slewComplete b = if (h.tb b).servo = .refused then (h.setTb b { h.tb b with slew := none }).servoTo b .acquiring
      else h.setTb b { h.tb b with slew := none } := by
  unfold Hub.slewComplete
  rw [hx]
  dsimp only
  rw [if_pos hz, Hub.tb_setTb_same]

/-- Settles O40, clause by clause. -/
theorem timeBasesAndServos : Obligations.TimeBasesAndServos := by
  unfold Obligations.TimeBasesAndServos
  refine ⟨fun h ho hsl hs => Hub.tbTick_free ho hsl hs, fun h b z hb hu hr hz => ?_, fun s src tag bw lo hi ns => ?_, fun s src tag bw lo hi => ?_,
    fun s src tag bw arm => ?_, fun s src tag bw ofs rate => ?_,
    fun s b t hh hp => makes_on (fun h => h.permitExpiry b) hh rfl (Hub.permitExpiry_armed hp),
    fun s b x hh hx hz => makes_on (fun h => h.slewComplete b) hh rfl (Hub.slewComplete_done hx hz), fun s b i ofs => ?_,
    fun s b i hh hno => makes_on (fun h => h.servoInput b i) hh rfl ?_,
    fun s b hh hg hs hf => makes_on (fun h => h.servoLost b) hh rfl (Hub.servoLost_holds hg hs hf), fun s b w => ?_,
    fun s w hh => makes_on (fun h => h.srcWrite 3 w) hh rfl (if_pos rfl), fun s b gm => ?_⟩
  · obtain ⟨hsmall, hpermit, hrefused⟩ := Hub.judgeStep_cases hb hu hr hz
    refine ⟨fun hj => (hsmall hj).trans (by rw [Hub.stepTaken, if_neg hz]), fun hj hp => ?_, hrefused⟩
    rw [hpermit hj hp]
    refine ⟨rfl, ?_⟩
    rw [Hub.stepTaken_tb _ hz, Hub.tb_setTb_same]
  · intro c b z ha hb h2 h3 hs ht
    exact stepCmd_gives rfl ha hb (timeSetRun_eq s.hub src tag hb h2 h3) hs ht
  · intro c b z ha hb hs
    have hrun := timeStepRun_eq s.hub src tag (lo := lo) (hi := hi) hb
    refine ⟨fun ht => stepCmd_gives rfl ha hb hrun hs ht, fun ht _ => ?_⟩
    obtain ⟨htim, hrd⟩ := Hub.judgeStep_refused hb ht
    refine gives_on (fun h => h.acceptStep c (Hub.timeStepRun c)) ha.1 rfl ?_
    rw [acceptStep_refusal ha (hrun.trans (Hub.stepCmd_refused hs ht))]
    exact ⟨(Hub.refuse_tim _ _ _ _ _).trans htim, (Hub.refuse_rd _ _ _ _ _ (by simp only [Reg.TB_REFUSED_OFS]; omega)).trans hrd⟩
  · intro c b ha hb harm
    exact gives_done (fun h => h.accept c runTimePermit) [.tim] [] rfl ha (accept_done ha (runTimePermit_ok src tag hb harm)) (by simp) rfl
      (fun p hp => by cases p <;> first | rfl | simp at hp) rfl (fun _ _ => rfl) (fun q => by simp)
      fun k hk _ => hk .tim (by decide) (by decide)
  · intro c b ha hb h0 h1 hs hl
    exact gives_done (fun h => h.accept c runTimeSlew) [.tim] [] rfl ha (accept_done ha (runTimeSlew_ok src tag hb h0 h1 hs hl)) (by simp) rfl
      (fun p hp => by cases p <;> first | rfl | simp at hp) rfl (fun _ _ => rfl) (fun q => by simp)
      fun k hk _ => hk .tim (by decide) (by decide)
  · intro h k hh ha ho
    refine ⟨fun hr => makes_on (fun h => h.servoInput b i) hh rfl (Hub.servoInput_steers ha ho hr), fun hr hf => ?_, fun hr hf => ?_⟩
    · exact makes_on (fun h => h.servoInput b i) hh rfl ((Hub.servoInput_refused ha ho hr).1 hf)
    · exact makes_on (fun h => h.servoInput b i) hh rfl ((Hub.servoInput_refused ha ho hr).2 hf)
  · unfold Hub.servoInput
    rcases hno with hno | hno
    · exact if_pos hno
    · rw [hno, ite_self]
  · intro v r k st hh
    have hquiet := Hub.srcWrite_quiet (h := s.hub) (b := b) (w := w) b.isLt
    refine ⟨fun hbad => makes_on (fun h => h.srcWrite b w) hh rfl ?_, fun h0 => makes_on (fun h => h.srcWrite b w) hh rfl ?_,
      fun h1 h5 h2 => makes_on (fun h => h.srcWrite b w) hh rfl ?_⟩
    · have hbad' : 5 ≤ bits w F.TB_SRC_SRC ∨ (bits w F.TB_SRC_SRC = 1 ∧ b.val = 2) :=
        hbad.imp_right fun h => ⟨h.1, by rw [h.2]; rfl⟩
      unfold Hub.srcWrite
      rw [if_neg (by omega)]
      exact if_pos hbad'
    · have hv : bits w F.TB_SRC_SRC = 0 := h0
      exact (hquiet (by rw [hv]; omega)).trans (if_pos hv)
    · have hne : ¬ (5 ≤ bits w F.TB_SRC_SRC ∨ (bits w F.TB_SRC_SRC = 1 ∧ b.val = 2)) := by
        rintro (h | ⟨h, hb2⟩)
        · exact absurd h (Nat.not_le.2 h5)
        · exact h2 h (Fin.ext hb2)
      exact (hquiet hne).trans (if_neg (Nat.pos_iff_ne_zero.1 h1))
  · intro k hh ha hs hg hst
    exact makes_on (fun h => h.ptpAnnounce b gm.toNat) hh rfl (Hub.ptpAnnounce_new ha hs hg hst)

end Sys2Proof.Machine

/-! Event capture, pulse outputs and PTP messages (R339 to R343, R346, R350 to R352, R355, R356). -/

namespace Sys2Proof.Machine

/-! ## Event capture -/

/-- An edge that is captured: the first of its pin in its cycle waits for the FIFO, a second one takes it away again (R341, R343). -/
theorem Hub.eventEdge_captured {h : Hub} {i ago : Nat} {level : Bool}
    (he : h.flag (Reg.TIME_ETI i) (if level then F.TIME_ETI_RISE else F.TIME_ETI_FALL) = true)
    (hf : h.fld (Reg.TIME_ETI i) F.TIME_ETI_FILT * 300 ≤ ago) :
    let b := h.fld (Reg.TIME_ETI i) F.TIME_ETI_TB
    let st := h.edgeStamp b ago (toSigned 16 (h.fld (Reg.TIME_ETI i) F.TIME_ETI_ADJ_PS))
    let x := st / 256 % 2 ^ 40
    let w0 := word (x / 2 ^ 32 + st % 256 * 256 + i * 2 ^ 16 + bitB level * 2 ^ 23 + b * 2 ^ 24 + 2 * 2 ^ 28)
    let cyc := (h.now - ago) / 300
    h.eventEdge i level false ago = if h.tim.caught.any fun e => e.pin == i && e.cyc == cyc then
        Hub.count { h with tim := { h.tim with caught := h.tim.caught.filter fun e => !(e.pin == i && e.cyc == cyc) } } Reg.TIME_CNT_ETI_NARROW
      else { h with tim := { h.tim with caught := caughtIn ⟨cyc, i, w0, word x⟩ h.tim.caught } } := by
  intro b st x w0 cyc
  have hen : (if level then h.flag (Reg.TIME_ETI i) F.TIME_ETI_RISE else h.flag (Reg.TIME_ETI i) F.TIME_ETI_FALL) = true := by
    cases level <;> exact he
  unfold Hub.eventEdge
  dsimp only
  rw [if_neg (by decide), if_neg (by rw [hen]; simp only [Bool.true_eq_false, false_or]; omega)]

/-- An edge that is not selected, or has not lasted, is none. -/
theorem Hub.eventEdge_none {h : Hub} {i ago : Nat} {level : Bool}
    (hn : h.flag (Reg.TIME_ETI i) (if level then F.TIME_ETI_RISE else F.TIME_ETI_FALL) = false ∨ ago < h.fld (Reg.TIME_ETI i) F.TIME_ETI_FILT * 300) :
    h.eventEdge i level false ago = h := by
  unfold Hub.eventEdge
  dsimp only
  rw [if_neg (by decide)]
  refine if_pos (hn.imp_left fun he => ?_)
  cases level <;> exact he

theorem Hub.evqIn_room {h : Hub} (w0 w1 : Word) (hn : h.tim.evq.length + h.tim.evc.fresh h.now < evqCap) :
    (h.evqIn w0 w1).tim.evq = h.tim.evq ++ [(if h.tim.evLoss then w0 ||| 0x04000000 else w0, w1)] ∧ (h.evqIn w0 w1).tim.evLoss = false := by
  unfold Hub.evqIn
  rw [if_pos hn]
  exact ⟨rfl, rfl⟩

theorem Hub.evqIn_full {h : Hub} (w0 w1 : Word) (hn : evqCap ≤ h.tim.evq.length + h.tim.evc.fresh h.now) :
    (h.evqIn w0 w1).tim.evq = h.tim.evq ∧ (h.evqIn w0 w1).tim.evLoss = true ∧
      (h.evqIn w0 w1).flag Reg.TIME_EVT F.TIME_EVT_EVQ_LOST = true := by
  unfold Hub.evqIn
  rw [if_neg (Nat.not_lt.2 hn)]
  exact ⟨rfl, rfl, Hub.flag_evt _ Reg.TIME_EVT 19 (by decide)⟩

theorem Hub.evqPop_head {h : Hub} {w0 w1 : Word} {r : List (Word × Word)} (he : h.tim.evq = (w0, w1) :: r)
    (hp : h.tim.evc.putNow h.now ≤ r.length) :
    h.evqPop = if h.tim.evHalf then (w1, { h with tim := { h.tim with evq := r, evHalf := false, evc := h.tim.evc.pop h.now } })
      else (w0, { h with tim := { h.tim with evHalf := true } }) := by
  unfold Hub.evqPop
  rw [if_neg (by rw [he, List.length_cons]; omega), he]

theorem Hub.evqPop_empty {h : Hub} (he : h.tim.evq = []) : h.evqPop = (0xF0000000, h) := by
  unfold Hub.evqPop
  exact if_pos (by rw [he]; exact Nat.zero_le _)

/-! ## Pulse outputs -/

theorem Hub.ppoWrite_enable {h : Hub} {k : Nat} {w : Word} (hoff : h.flag (Reg.PPO_CFG k) F.PPO_CFG_EN = false) (hon : bits w F.PPO_CFG_EN = 1) :
    h.ppoWrite k w = if (h.rd (Reg.PPO_WIDTH k)).toNat < 5 ∨ (bits w F.PPO_CFG_PERIODIC = 1 ∧
        ((h.rd (Reg.PPO_PERIOD k)).toNat < 20 ∨ (h.rd (Reg.PPO_PERIOD k)).toNat ≤ (h.rd (Reg.PPO_WIDTH k)).toNat)) then
        h.timeEvt F.TIME_EVT_WRITE_REFUSED
      else ((h.regWrite (Reg.PPO_CFG k) w false id).setFld (Reg.PPO_STAT k) F.PPO_STAT_ARMED 1).ppoPassed k := by
  unfold Hub.ppoWrite
  dsimp only
  rw [if_pos ⟨hoff, hon⟩]
  rfl

theorem Hub.setStat_cfg (h : Hub) (k : Nat) (f : Nat × Nat) (v : Nat) : (h.setFld (Reg.PPO_STAT k) f v).rd (Reg.PPO_CFG k) = h.rd (Reg.PPO_CFG k) :=
  Hub.rd_setFld_ne _ _ _ (by simp only [Reg.PPO_CFG, Reg.PPO_STAT]; omega)

theorem Hub.setStat_width (h : Hub) (k : Nat) (f : Nat × Nat) (v : Nat) :
    (h.setFld (Reg.PPO_STAT k) f v).rd (Reg.PPO_WIDTH k) = h.rd (Reg.PPO_WIDTH k) :=
  Hub.rd_setFld_ne _ _ _ (by simp only [Reg.PPO_WIDTH, Reg.PPO_STAT]; omega)

/-- The hub whose output has begun a pulse, before the pin is driven. -/
def Hub.ppoBegun (h : Hub) (k : Nat) : Hub :=
  let g := (h.setFld (Reg.PPO_STAT k) F.PPO_STAT_ACTIVE 1).setFld (Reg.PPO_STAT k) F.PPO_STAT_COUNT (h.fld (Reg.PPO_STAT k) F.PPO_STAT_COUNT + 1)
  g.setPulse k (some (h.now + (h.rd (Reg.PPO_WIDTH k)).toNat * tuNs))

/-- A target that this tick reaches fires, or is skipped under `SQUELCH` (R350, R351). -/
theorem Hub.ppoFire_due {h : Hub} {k : Nat} (hen : h.flag (Reg.PPO_CFG k) F.PPO_CFG_EN = true) (harm : h.ppoArmed k = true)
    (hact : h.ppoActive k = false) (h0 : 0 ≤ h.ppoLag k) (h1 : h.ppoLag k < h.tbInc (h.fld (Reg.PPO_CFG k) F.PPO_CFG_TB)) :
    let b := h.fld (Reg.PPO_CFG k) F.PPO_CFG_TB
    let per := h.flag (Reg.PPO_CFG k) F.PPO_CFG_PERIODIC
    h.ppoFire k = if h.squelched (h.flag (Reg.PPO_CFG k) F.PPO_CFG_SQUELCH) b then (if per then h.ppoAdvance k 1 else h.ppoDisarm k)
      else (if per then h.ppoBegun k else (h.ppoBegun k).ppoDisarm k).drive (.pulse k (!h.flag (Reg.PPO_CFG k) F.PPO_CFG_POL)) := by
  intro b per
  have hlevel : ∀ g : Hub, g.rd (Reg.PPO_CFG k) = h.rd (Reg.PPO_CFG k) → g.ppoLevel k true = !h.flag (Reg.PPO_CFG k) F.PPO_CFG_POL := fun g hg => by
    rw [Hub.ppoLevel, Hub.flag_of_rd _ hg, Bool.true_bne]
  have hwidth : ((h.setFld (Reg.PPO_STAT k) F.PPO_STAT_ACTIVE 1).setFld (Reg.PPO_STAT k) F.PPO_STAT_COUNT
      (h.fld (Reg.PPO_STAT k) F.PPO_STAT_COUNT + 1)).rd (Reg.PPO_WIDTH k) = h.rd (Reg.PPO_WIDTH k) := by
    rw [Hub.setStat_width, Hub.setStat_width]
  have hpulse : (h.ppoBegun k).ppoLevel k true = !h.flag (Reg.PPO_CFG k) F.PPO_CFG_POL :=
    hlevel _ ((Hub.setStat_cfg _ _ _ _).trans (Hub.setStat_cfg _ _ _ _))
  unfold Hub.ppoFire
  dsimp only
  rw [if_neg (by simp [hen, harm, hact]; omega), if_neg (by omega), hwidth, Hub.setFld_now, Hub.setFld_now]
  rw [Hub.ppoBegun] at hpulse ⊢
  rw [hpulse]

theorem Hub.ppoOff_cfg (h : Hub) (k : Nat) : (h.ppoOff k).rd (Reg.PPO_CFG k) = h.rd (Reg.PPO_CFG k) := by
  unfold Hub.ppoOff
  split
  · rw [Hub.rd_congr (Hub.drive_regs _ _)]
    exact h.setStat_cfg k _ _
  · rfl

/-- The end of a pulse: a periodic output goes on to its next target (R350, R351). -/
theorem Hub.ppoEnd_due {h : Hub} {k t : Nat} (ht : tget none h.tim.pulse k = some t) (hd : t ≤ h.now) :
    h.ppoEnd k = if h.flag (Reg.PPO_CFG k) F.PPO_CFG_PERIODIC then ((h.ppoOff k).ppoAdvance k 1).ppoPassed k else h.ppoOff k := by
  unfold Hub.ppoEnd
  rw [ht]
  dsimp only
  rw [if_pos hd, Hub.flag_of_rd _ (h.ppoOff_cfg k)]

theorem Hub.ppsoPulse_due {h : Hub} {j : Nat} (he : h.flag (Reg.PPSO_CFG j) F.PPSO_CFG_EN = true)
    (hs : h.squelched (h.flag (Reg.PPSO_CFG j) F.PPSO_CFG_SQUELCH) (h.fld (Reg.PPSO_CFG j) F.PPSO_CFG_TB) = false)
    (hp : tget none h.tim.pulse (16 + j) = none)
    (hd : ((((h.tb (h.fld (Reg.PPSO_CFG j) F.PPSO_CFG_TB)).ns * subNs + (h.tb (h.fld (Reg.PPSO_CFG j) F.PPSO_CFG_TB)).sub : Nat) : Int) +
      toSigned 16 (h.fld (Reg.PPSO_ADJ j) F.PPSO_ADJ_ADJ_PS) * 1000000000) % ((1000000000 * subNs : Nat) : Int) <
        h.tbInc (h.fld (Reg.PPSO_CFG j) F.PPSO_CFG_TB)) :
    h.ppsoPulse j = (h.setPulse (16 + j) (some (h.now + h.fld (Reg.PPSO_CFG j) F.PPSO_CFG_WIDTH_US * tuUs))).drive (.pulse (16 + j) true) := by
  unfold Hub.ppsoPulse
  refine if_neg ?_
  simp only [he, hs, hp, Option.isSome_none, Bool.true_eq_false, Bool.false_eq_true, false_or]
  exact not_le.2 hd

/-! ## PTP messages -/

theorem Hub.pdelayRx_taken {h : Hub} {p : Nat} {bs : List Byte} (ht : h.ptpTaken p bs = true) (he : (stdParse bs).etype = etPtp) :
    let m := stdParse bs
    let st := h.rxStamps p (bs.length + 4)
    (beAt bs m.data 1 % 16 = 2 → h.ptpPort p = true →
      h.pdelayRx p bs = h.ptpSend p (h.pdelayResp p bs) (st.getD (h.ptpBase (beAt bs (m.data + 4) 1)) 0)) ∧
      (beAt bs m.data 1 % 16 = 3 → h.pdelayRx p bs = h.wr (Reg.TIME_P_DELAY p)
        (word (ofSigned 32 ((((st.getD 3 0 : Nat) : Int) - ((tget 0 h.tim.pdReq p : Nat) : Int) -
          toSigned 64 (beAt bs (m.data + 8) 8)) / 2)))) := by
  intro m st
  unfold Hub.pdelayRx
  dsimp only
  rw [if_neg (by simp [ht, he])]
  exact ⟨fun h2 hp => (if_pos h2).trans (if_pos hp), fun h3 => (if_neg (by rw [show beAt bs (stdParse bs).data 1 % 16 = 3 from h3]; decide)).trans (if_pos h3)⟩

/-- Settles O41, clause by clause. -/
theorem eventsPulsesAndPtp : Obligations.EventsPulsesAndPtp := by
  unfold Obligations.EventsPulsesAndPtp
  refine ⟨fun s i level ago => ?_, fun s i level ago hh => ?_, fun h => ?_, fun s i level ago hh hn => ?_, fun h w0 w1 => ?_,
    fun s w0 w1 r hh he hp => ⟨fun hf => ?_, fun hf => ?_⟩, fun s hh he => ?_, fun s hh => makes_on Hub.evqFlush hh rfl rfl, fun s b => ?_,
    fun s k w => ?_, fun s k => ?_, fun s k t hh ht hd hper => ?_, fun s k t hh ht hd hper => ?_, fun s j => ?_, fun s p bs reqAt hh hp he => ?_,
    fun s p bs => ?_, fun s p bs reqAt hh => ⟨fun hno => ?_, fun hno => ?_⟩⟩
  · intro a b st x w0 hh he hf cyc same
    have hcap := Hub.eventEdge_captured (h := s.hub) (i := i) (level := level) he hf
    refine ⟨fun hs => makes_on (fun h => h.eventEdge i level false ago) hh rfl (hcap.trans (if_neg ?_)),
      fun hs => makes_on (fun h => h.eventEdge i level false ago) hh rfl (hcap.trans (if_pos hs))⟩
    rw [show (s.hub.tim.caught.any fun e => e.pin == i.val && e.cyc == (s.hub.now - ago) / 300) = false from hs]
    decide
  · intro a
    exact makes_on (fun h => h.eventEdge i level true ago) hh rfl (by unfold Hub.eventEdge; exact if_pos rfl)
  · rfl
  · exact makes_on (fun h => h.eventEdge i level false ago) hh rfl (Hub.eventEdge_none hn)
  · intro n k
    exact ⟨fun hn => Hub.evqIn_room w0 w1 hn, fun hn => Hub.evqIn_full w0 w1 hn⟩
  · refine makes_on (fun h => h.evqPop.2.emit (.words [h.evqPop.1])) hh rfl ?_
    rw [Hub.evqPop_head he hp, hf]
    rfl
  · refine makes_on (fun h => h.evqPop.2.emit (.words [h.evqPop.1])) hh rfl ?_
    rw [Hub.evqPop_head he hp, hf]
    rfl
  · refine makes_on (fun h => h.evqPop.2.emit (.words [h.evqPop.1])) hh rfl ?_
    rw [Hub.evqPop_empty he]
  · intro t sec hh
    exact makes_on (fun h => (h.nowRead b).2.emit (.words [(h.nowRead b).1])) hh rfl rfl
  · intro width period bad hh hoff hon
    have hw := Hub.ppoWrite_enable hoff hon
    exact ⟨fun hb => makes_on (fun h => h.ppoWrite k w) hh rfl (hw.trans (if_pos hb)),
      fun hb => makes_on (fun h => h.ppoWrite k w) hh rfl (hw.trans (if_neg hb))⟩
  · intro b per n g1 g2 hh hen harm hact h0 h1
    have hfire := Hub.ppoFire_due hen harm hact h0 h1
    exact ⟨fun hs => makes_on (fun h => h.ppoFire k) hh rfl (hfire.trans (if_neg (by rw [hs]; decide))),
      fun hs => makes_on (fun h => h.ppoFire k) hh rfl (hfire.trans (if_pos hs))⟩
  · exact makes_on (fun h => h.ppoEnd k) hh rfl ((Hub.ppoEnd_due ht hd).trans (if_neg (by rw [hper]; decide)))
  · exact makes_on (fun h => h.ppoEnd k) hh rfl ((Hub.ppoEnd_due ht hd).trans (if_pos hper))
  · intro a t adj hh he hs hp hd
    exact makes_on (fun h => h.ppsoPulse j) hh rfl (Hub.ppsoPulse_due he hs hp hd)
  · exact makes_on (fun h => if h.ptpPort p ∧ (stdParse bs).etype = etPtp then h.ptpSend p bs reqAt else h) hh rfl (if_pos ⟨hp, he⟩)
  · intro m st hh ht he
    obtain ⟨hreq, hresp⟩ := Hub.pdelayRx_taken ht he
    exact ⟨fun h2 hp => makes_on (fun h => h.pdelayRx p bs) hh rfl (hreq h2 hp), fun h3 => makes_on (fun h => h.pdelayRx p bs) hh rfl (hresp h3)⟩
  · refine makes_on (fun h => if h.ptpPort p ∧ (stdParse bs).etype = etPtp then h.ptpSend p bs reqAt else h) hh rfl (if_neg ?_)
    rintro ⟨hp, he⟩
    rcases hno with hno | hno
    · rw [hno] at hp
      cases hp
    · exact hno he
  · exact makes_on (fun h => h.pdelayRx p bs) hh rfl (if_pos hno.symm)

end Sys2Proof.Machine

/-! Twin hubs: heartbeats, takeover and revert (R358, R361 to R363, R377, R381 to R384, R471). -/

namespace Sys2Proof.Machine

theorem Hub.hbWord_congr {h k : Hub} (hf : k.failing = h.failing) (hp : k.ownPref = h.ownPref) (hn : k.twin.notInStep = h.twin.notInStep)
    (hr : k.twin.revertReq = h.twin.revertReq) (hq : k.twin.revertPend = h.twin.revertPend) (hi : k.twin.image = h.twin.image) (role cnt : Nat) :
    k.hbWord role cnt = h.hbWord role cnt := by
  unfold Hub.hbWord
  dsimp only
  rw [hf, hp, hn, hr, hq, hi]

/-- A heartbeat is due every microsecond (R361). -/
theorem Hub.hbTx_due {h : Hub} (hr : h.twin.role ≠ .solo) (ht : h.twin.hbAt + tuUs ≤ h.now) :
    let n := (h.twin.hb + 1) % 256
    let k := h.setTwin { h.twin with hb := n, hbAt := h.now }
    h.hbTx = k.emit (.heartbeat ((k.rport 3).link != .down) (k.hbWord k.twin.role.code n) (word k.twin.image) (k.twin.jseqRx.getD 0) k.twin.digestRun) := by
  intro n k
  have hword : k.hbWord k.twin.role.code n = h.hbWord h.twin.role.code n := Hub.hbWord_congr rfl rfl rfl rfl rfl rfl _ _
  rw [hword]
  unfold Hub.hbTx
  rw [if_neg (by simp only [hr, false_or]; omega)]
  rfl

/-- A valid heartbeat of a path is noted and taken (R361). -/
theorem Hub.hbRx_lvds {h : Hub} (nv : NonVol) {w : Word} (hr : h.twin.role ≠ .solo) (hs : hbSeal w.toNat = w)
    (hc : h.twin.lvds.cnt ≠ some (w.toNat / 256 % 256)) :
    h.hbRx nv .lvds w = (h.setTwin { h.twin with lvds := { at_ := h.now, cnt := some (w.toNat / 256 % 256), silent := false, live := true } }).hbGood
      nv true w.toNat none none none := by
  unfold Hub.hbRx
  exact if_neg (by simp [hr, hs, hc])

theorem Hub.hbRx_serial {h : Hub} (nv : NonVol) {w : Word} (mac : BitVec 48) (img : Word) (js : Half) (run : BitVec 2) (hr : h.twin.role ≠ .solo)
    (hs : hbSeal w.toNat = w) (hc : h.twin.ser.cnt ≠ some (w.toNat / 256 % 256)) (hl : (h.rport 3).link ≠ .down) :
    h.hbRx nv (.serial mac img js run) w =
      (h.setTwin { h.twin with ser := { at_ := h.now, cnt := some (w.toNat / 256 % 256), silent := false, live := true } }).hbGood
        nv false w.toNat (some mac.toNat) (some img.toNat) (some run.toNat) := by
  unfold Hub.hbRx
  exact if_neg (by simp [hr, hs, hc, hl])

theorem Hub.hbRx_badSeal {h : Hub} (nv : NonVol) (rx : HbRx) {w : Word} (hs : hbSeal w.toNat ≠ w) : h.hbRx nv rx w = h := by
  unfold Hub.hbRx
  exact if_pos (.inr (.inl hs))

/-- A path falls silent: with the other silent too the peer has failed (R362). -/
theorem Hub.pathSilent_due {h : Hub} (nv : NonVol) (serial : Bool) (hr : h.twin.role ≠ .solo)
    (hs : (if serial then h.twin.ser else h.twin.lvds).silent = false)
    (ht : (if serial then h.twin.ser else h.twin.lvds).at_ + h.fld Reg.TWIN_CFG F.TWIN_CFG_T_MISS_US * tuUs ≤ h.now) :
    let k := if serial then (h.setTwin { h.twin with ser := { h.twin.ser with silent := true } }).count Reg.TWIN_CNT_HB_MISS_SER
      else (h.setTwin { h.twin with lvds := { h.twin.lvds with silent := true } }).count Reg.TWIN_CNT_HB_MISS_LVDS
    h.pathSilent nv serial = if (if serial then h.twin.lvds else h.twin.ser).silent then k.peerFailed nv else k.twinEvt F.TWIN_EVT_DEGRADED := by
  intro k
  unfold Hub.pathSilent
  dsimp only
  rw [if_neg (by simp only [hr, hs, Bool.false_eq_true, false_or]; omega)]
  cases serial <;> rfl

/-- A standby whose peer fails takes over, unless it fails itself (R363, R377). -/
theorem Hub.peerFailed_standby {h : Hub} (nv : NonVol) (hd : h.twin.peerDead = false) (hr : h.twin.role = .standby) (hf : h.failing = false) :
    h.peerFailed nv = (h.setTwin { h.twin with peerDead := true, revertPend := none, revertReq := false, revertSince := none }).takeover := by
  have hf' : (h.setTwin { h.twin with peerDead := true, revertPend := none, revertReq := false, revertSince := none }).failing = false := hf
  have hr' : (h.setTwin { h.twin with peerDead := true, revertPend := none, revertReq := false, revertSince := none }).twin.role = .standby := hr
  unfold Hub.peerFailed
  rw [if_neg (by rw [hd]; decide)]
  dsimp only
  rw [hr']
  dsimp only
  rw [if_neg (by rw [hf']; decide)]

theorem Hub.fatalReset_due {h : Hub} {t : Nat} (ht : h.twin.fatalAt = some t) (hd : t ≤ h.now) :
    h.fatalReset = (h.setTwin { h.twin with fatalAt := none }).askWarm 7 := by
  unfold Hub.fatalReset
  rw [ht]
  exact if_pos hd

/-- The count towards a revert runs on while its conditions hold (R381). -/
theorem Hub.revertRequest_counting {h : Hub} {t : Nat} (hok : h.revertOk = true) (ht : h.twin.revertSince = some t) :
    h.revertRequest = if t + h.fld Reg.TWIN_CFG F.TWIN_CFG_T_REVERT_S * tuS ≤ h.now then h.setTwin { h.twin with revertReq := true } else h := by
  have hw : h.revertWatch = h := by
    unfold Hub.revertWatch
    rw [if_pos hok, ht]
    rfl
  unfold Hub.revertRequest
  rw [hw]
  dsimp only
  rw [ht]

/-- Loss of the PLL's lock holds the hub (R471). -/
theorem Hub.pllUnlock_holds {h : Hub} (hc : h.glb.inCold = false) :
    h.pllUnlock.glb.pllHold = true ∧ h.pllUnlock.glb.pllLock = false ∧ h.pllUnlock.held = true := by
  unfold Hub.pllUnlock
  rw [if_neg (by rw [hc]; decide)]
  exact ⟨rfl, rfl, Bool.or_true _⟩

/-- Settles O42, clause by clause. -/
theorem twinHeartbeatsAndTakeover : Obligations.TwinHeartbeatsAndTakeover := by
  unfold Obligations.TwinHeartbeatsAndTakeover
  refine ⟨fun s hh hr ht => makes_on Hub.hbTx hh rfl (Hub.hbTx_due hr ht), fun s w hh hr hs => ⟨fun hc => ?_, fun mac img js run hc hl => ?_⟩,
    fun s rx w hh hs => makes_on (fun h => h.hbRx s.nv rx w) hh rfl (Hub.hbRx_badSeal s.nv rx hs), fun s => ?_,
    fun h nv hd hr hf => Hub.peerFailed_standby nv hd hr hf, fun s hh hr ht => makes_on Hub.joinTimeout hh rfl (if_pos ⟨hr, ht⟩),
    fun s hh hr hf hp hn => makes_on Hub.fatalHand hh rfl (if_pos ⟨hr, hf, hp, hn⟩),
    fun s t hh ht hd => makes_on Hub.fatalReset hh rfl (Hub.fatalReset_due ht hd),
    fun s t hh hok ht => makes_on Hub.revertRequest hh rfl (Hub.revertRequest_counting hok ht),
    fun s hh ht => makes_on Hub.takeLimit hh rfl (if_pos ht),
    fun s hh => gives_on Hub.pllUnlock hh rfl (Hub.pllUnlock_holds (Hub.held_of hh).1)⟩
  · exact makes_on (fun h => h.hbRx s.nv .lvds w) hh rfl (Hub.hbRx_lvds s.nv hr hs hc)
  · exact makes_on (fun h => h.hbRx s.nv (.serial mac img js run) w) hh rfl (Hub.hbRx_serial s.nv mac img js run hr hs hc hl)
  · intro tw tmo hh hr
    exact ⟨fun hs ht => makes_on (fun h => h.pathSilent s.nv false) hh rfl (Hub.pathSilent_due s.nv false hr hs ht),
      fun hs ht => makes_on (fun h => h.pathSilent s.nv true) hh rfl (Hub.pathSilent_due s.nv true hr hs ht)⟩

end Sys2Proof.Machine

/-! Twin hubs: state transfer, scrubber, the journal's frames, and the twin commands (R366, R375, R376, R381, R384, R387, R388). -/

namespace Sys2Proof.Machine

theorem Hub.syncTimeout_due {h : Hub} {t : Nat} (ht : h.twin.syncAt = some t) (hd : t + h.fld Reg.TWIN_TMO F.TWIN_TMO_SYNC_TMO_MS * tuMs ≤ h.now)
    (hr : h.twin.role = .syncing ∨ (h.twin.role = .active ∧ h.peerPresent = true)) :
    let n := h.twin.syncTries + 1
    let k := (h.setTwin { h.twin with syncAt := some h.now, syncTries := n, sent := [] }).count Reg.TWIN_CNT_SYNC_TMO
    h.syncTimeout = if n < 3 then k else h.twin.syncRefs.foldl (fun h r => h.answer r sETIMEOUT [])
      (k.setTwin { k.twin with syncRefs := [], syncTries := 0 }) := by
  intro n k
  unfold Hub.syncTimeout
  rw [ht]
  exact if_neg (by simp only [hr, not_true_eq_false, or_false]; omega)

/-! ## The scrubber (R384) -/

theorem Hub.answer_car (h : Hub) (r : CmdRef) (status : Nat) (res : List Word) : (h.answer r status res).car = h.car := by
  unfold Hub.answer
  split
  · rw [Hub.respond_fields]
    rfl
  · split
    · rfl
    · rw [Hub.respond_fields]
  · rw [Hub.respond_fields]

/-- The words of the Carousel's memories that a pass finds uncorrectable stay noted. -/
theorem Hub.scrubEnd_bad (h : Hub) (corr : Nat) (bad : List Nat) (other : Nat) : ∀ w ∈ bad, w ∈ (h.scrubEnd corr bad other).car.bad := by
  intro w hw
  have hn : bad.length + other ≠ 0 := by
    have := List.length_pos_of_mem hw
    omega
  have hmem : ∀ k : Hub, w ∈ k.car.bad ++ bad.filter fun w => !k.car.bad.contains w := fun k => by
    by_cases hin : w ∈ k.car.bad
    · exact List.mem_append_left _ hin
    · exact List.mem_append_right _ (List.mem_filter.2 ⟨hw, by simpa using hin⟩)
  have hcar : ∀ (refs : List CmdRef) (k : Hub),
      (refs.foldl (fun h r => (h.answer r sOK []).evt Reg.HOST_EVT F.HOST_EVT_MAINT_DONE) k).car = k.car :=
    fun refs k => foldl_keeps Hub.car _ (fun g r => (Hub.evt_car _ _ _).trans (g.answer_car r sOK [])) refs k
  unfold Hub.scrubEnd
  dsimp only
  rw [hcar, if_neg hn]
  exact hmem _

/-! ## The journal's frames (R366) -/

/-- A frame takes the first records, as many as fit. -/
theorem frameFill_spec : ∀ (l : List JRec) (room : Nat), (frameFill room l).1 ++ (frameFill room l).2 = l ∧
    ((frameFill room l).1.map JRec.size).sum ≤ room := by
  intro l
  induction l with
  | nil => exact fun room => ⟨rfl, Nat.zero_le _⟩
  | cons r rs ih =>
    intro room
    unfold frameFill
    split
    next hle =>
      obtain ⟨hall, hsum⟩ := ih (room - r.size)
      refine ⟨congrArg (r :: ·) hall, ?_⟩
      rw [List.map_cons, List.sum_cons]
      omega
    next => exact ⟨rfl, Nat.zero_le _⟩

theorem Hub.jnlTx_records {h : Hub} {r : JRec} {rs : List JRec} (hl : (h.rport 3).link ≠ .down) (hs : h.twin.store = r :: rs)
    (ht : 1024 ≤ jstoreSize h.twin.store ∨ r.at_ + 200 * tuNs ≤ h.now) :
    let bs := padTo 60 (beBytes 6 (2 ^ 48 - 1) ++ beBytes 6 h.ringMac ++ [0x88, 0xB5] ++ (frameFill 1500 h.twin.store).1.flatMap JRec.encode)
    h.jnlTx = (h.setTwin { h.twin with store := (frameFill 1500 h.twin.store).2 }).emit (.frame 3 bs (word (fcsOf bs))) := by
  intro bs
  have hempty : h.twin.store.isEmpty = false := by rw [hs]; rfl
  unfold Hub.jnlTx
  rw [if_neg (by rw [hempty]; simp)]
  unfold Hub.jnlFrame
  rw [if_neg hl]
  split
  next he => rw [hs] at he; cases he
  next r' _ he =>
    rw [hs] at he
    obtain ⟨rfl, rfl⟩ := List.cons.inj he
    exact if_neg (by omega)

theorem Hub.jnlTx_state {h : Hub} (hl : (h.rport 3).link ≠ .down) (hs : h.twin.store = []) (hr : h.twin.role = .active) (hp : h.twin.peerRole = 2) :
    h.jnlTx = h.stateSend := by
  unfold Hub.jnlTx
  exact if_pos ⟨by rw [hs]; rfl, by rw [Hub.transferring, hr, hp]; rfl, hl⟩

/-! ## Journaled commands -/

/-- What a record leaves of the twin's block. -/
theorem Hub.jnl_twin (h : Hub) (k : Nat) (b : List Word) : (h.jnl k b).twin =
    { h.twin with jseq := (h.jnl k b).twin.jseq, worked := (h.jnl k b).twin.worked, store := (h.jnl k b).twin.store } := by
  unfold Hub.jnl
  dsimp only
  split
  · rfl
  · split <;> rfl

/-- The record of a command leaves its checks (R458). -/
theorem Hub.jnl_precheck (h : Hub) (k : Nat) (b : List Word) (c : CmdIn) : (h.jnl k b).precheck c = h.precheck c := by
  have hrd : ∀ q : Fin 4, (h.jnl k b).rd (Reg.HQ_CFG q) = h.rd (Reg.HQ_CFG q) := fun q =>
    h.jnl_rd k b (by simp only [Reg.HQ_CFG, Reg.TWIN_CNT_JNL_OVERFLOW]; omega) (by simp only [Reg.HQ_CFG, Reg.TWIN_EVT]; omega)
  have hver : (h.jnl k b).cmdVersion c.src = h.cmdVersion c.src := by
    unfold Hub.cmdVersion
    split <;> simp only [Hub.fld_of_rd _ (hrd _)]
  have hrole : (h.jnl k b).twin.role = h.twin.role := by rw [Hub.jnl_twin]
  unfold Hub.precheck Hub.acts
  rw [hver, hrole]

/-- A command of a queue that answers on completion is counted in progress on that queue. -/
theorem gives_queue_later {i : Instr} {s : State} {c : CmdIn} {q : Fin 4} {run : Hub → CmdIn → Ack} {k : Hub} {P : State → Prop}
    (he : exec i s = s.on fun h => h.accept c run) (hq : c.src = .queue q) (hh : s.hub.held = false) (hs : s.hub.served c = true)
    (hp : s.hub.precheck c = none)
    (hrun : run (s.hub.jnl 0x08 (word q.val :: word (c.code + c.tag * 65536 + c.rsv * 2 ^ 24) :: c.args)) c = .later k)
    (hk : k.rd (Reg.HQ_INPROG q) = s.hub.rd (Reg.HQ_INPROG q)) (hP : ∀ v, P { s with hub := k.setFld (Reg.HQ_INPROG q) F.HQ_INPROG v }) :
    Gives i s fun t => InProgress c s t ∧ P t := by
  have hacc := Hub.accept_queue run hq hs
  simp only [Hub.jnl_precheck, hp, hrun] at hacc
  refine gives_on (fun h => h.accept c run) hh he ?_
  rw [hacc]
  refine ⟨?_, hP _⟩
  unfold InProgress
  rw [hq]
  show Hub.fld _ (Reg.HQ_INPROG q) F.HQ_INPROG = min 31 (s.hub.fld (Reg.HQ_INPROG q) F.HQ_INPROG + 1)
  rw [Hub.fld_setFld _ _ _ _ (by decide), Hub.fld_of_rd _ hk]
  exact Nat.mod_eq_of_lt (Nat.lt_succ_of_le (Nat.min_le_left _ _))

theorem Hub.jnl_inprog (h : Hub) (k : Nat) (b : List Word) (q : Fin 4) : (h.jnl k b).rd (Reg.HQ_INPROG q) = h.rd (Reg.HQ_INPROG q) :=
  h.jnl_rd k b (by simp only [Reg.HQ_INPROG, Reg.TWIN_CNT_JNL_OVERFLOW]; omega) (by simp only [Reg.HQ_INPROG, Reg.TWIN_EVT]; omega)

theorem runTwinResync_ok {h : Hub} (q : Fin 4) (tag : Byte) (hr : h.twin.role = .active) (hp : h.twin.peerRole = 3) :
    let c := mkCmd (.queue q) 0x0901 tag []
    runTwinResync h c = .later (h.setTwin { h.twin with syncRefs := h.twin.syncRefs ++ [c.ref], syncTries := 0, syncAt := some h.now }) := by
  intro c
  unfold runTwinResync
  rw [if_neg (by rw [zeroFrom_mkCmd _ _ _ _ 1 rfl]; decide), if_neg (by simp [c, CmdIn.journaled]), if_neg (by simp [hr, hp])]

/-- The record of a command leaves the failure of the hub. -/
theorem Hub.jnl_failing (h : Hub) (k : Nat) (b : List Word) : (h.jnl k b).failing = h.failing := by
  have hsince : (h.jnl k b).twin.since = h.twin.since := by rw [Hub.jnl_twin]
  unfold Hub.failing Hub.hasFatal
  rw [hsince, h.jnl_rd k b (by decide) (by decide), Hub.flag_of_rd _ (h.jnl_rd k b (by decide) (by decide))]

theorem runDrill_ok {h : Hub} (q : Fin 4) (tag : Byte) (h1 : h.twin.peerRole = 3) (h2 : h.twin.notInStep = false) (h3 : h.twin.peerNis = false)
    (h4 : h.twin.ser.ok = true) (h5 : h.twin.lvds.ok = true) (h6 : h.failing = false) (h7 : h.twin.peerFail = false) (h8 : h.maintFree = true) :
    let c := mkCmd (.queue q) 0x0C02 tag []
    runDrill h c = .later { h with host := { h.host with maint := .drill h.now c.ref } } := by
  intro c
  unfold runDrill
  rw [if_neg (by rw [zeroFrom_mkCmd _ _ _ _ 1 rfl]; decide), if_neg (by simp [h1, h2, h3, h4, h5, h6, h7]), if_neg (by simp [h8])]

theorem runRevertHold_ok {h : Hub} (src : CmdSrc) (tag : Byte) {hold : Word} (hh : hold.toNat ≤ 1) (he : h.twinEn = true) :
    runRevertHold h (mkCmd src 0x0902 tag [hold]) = .done (h.setFld Reg.TWIN_CFG F.TWIN_CFG_REVERT_HOLD hold.toNat) [] := by
  have e1 : (mkCmd src 0x0902 tag [hold]).arg 1 = hold.toNat := rfl
  unfold runRevertHold
  rw [e1, if_neg (by rw [zeroFrom_mkCmd _ _ _ _ 2 rfl]; simp; omega), if_neg (by rw [he]; decide)]

/-- The longest lag is cleared (R388). -/
theorem Hub.twinWrite_clear {h : Hub} {w : Word} (hw : bits w F.TWIN_LAG_LAG_CLR = 1) :
    h.twinWrite Reg.TWIN_LAG w = (h.regWrite Reg.TWIN_LAG w false id).setFld Reg.TWIN_LAG F.TWIN_LAG_LAG_MAX 0 := by
  unfold Hub.twinWrite
  dsimp only
  rw [if_neg (by decide), if_neg (by decide), if_pos ⟨rfl, hw⟩]

theorem Hub.regWrite_quiet_rd (h : Hub) {a b : Nat} (w : Word) (hb : b ≠ a) : (h.regWrite a w false id).rd b = h.rd b := by
  unfold Hub.regWrite Hub.when
  dsimp only
  split <;> exact Hub.rd_wr_ne _ _ hb

/-- Settles O43, clause by clause. -/
theorem twinTransferScrubberAndCommands : Obligations.TwinTransferScrubberAndCommands := by
  unfold Obligations.TwinTransferScrubberAndCommands
  refine ⟨fun s t hh ht hd hr => ?_, fun s hh hrefs => ?_, fun s corr bad other hh => ?_, fun s src tag => ?_, fun s q tag => ?_,
    fun s src tag hold => ?_, fun s q tag => ?_, fun s r rs hh hl hs ht => ?_, fun s hh hl hs hr hp => ?_, fun room l => frameFill_spec l room,
    fun s w hh hw => ?_⟩
  · intro n k
    exact makes_on Hub.syncTimeout hh rfl (Hub.syncTimeout_due ht hd hr)
  · refine makes_on (fun h => h.scrubEnd 0 [] 0) hh rfl ?_
    unfold Hub.scrubEnd
    rw [hrefs]
    rfl
  · refine gives_on (fun h => h.scrubEnd corr.toNat (bad.map BitVec.toNat) other.toNat) hh rfl fun w hw => ?_
    exact Hub.scrubEnd_bad _ _ _ _ _ (List.mem_map_of_mem hw)
  · intro c ha
    have hrun : runScrubNow s.hub c = .later (s.hub.setTwin { s.hub.twin with scrubNext := s.hub.twin.scrubNext ++ [c.ref] }) :=
      if_neg (by rw [zeroFrom_mkCmd _ _ _ _ 1 rfl]; decide)
    exact gives_later (fun h => h.accept c runScrubNow) [.twin] [] rfl ha (accept_busy ha hrun) rfl
      (fun p hp => by cases p <;> first | rfl | simp at hp) rfl (fun _ _ => rfl) (fun q => by simp) fun k hk _ => hk .twin (by decide)
  · intro c hh hs hp hr hpeer
    have htwin := s.hub.jnl_twin 0x08 (word q.val :: word (c.code + c.tag * 65536 + c.rsv * 2 ^ 24) :: c.args)
    have hinprog := s.hub.jnl_inprog 0x08 (word q.val :: word (c.code + c.tag * 65536 + c.rsv * 2 ^ 24) :: c.args) q
    have hnow := s.hub.jnl_now 0x08 (word q.val :: word (c.code + c.tag * 65536 + c.rsv * 2 ^ 24) :: c.args)
    have hrun := runTwinResync_ok (h := s.hub.jnl 0x08 (word q.val :: word (c.code + c.tag * 65536 + c.rsv * 2 ^ 24) :: c.args)) q tag
      (by rw [htwin]; exact hr) (by rw [htwin]; exact hpeer)
    refine gives_queue_later rfl rfl hh hs hp hrun hinprog fun v => ⟨?_, rfl, congrArg some hnow⟩
    have hrefs : (s.hub.jnl 0x08 (word q.val :: word (c.code + c.tag * 65536 + c.rsv * 2 ^ 24) :: c.args)).twin.syncRefs = s.hub.twin.syncRefs := by
      rw [htwin]
    exact congrArg (· ++ [c.ref]) hrefs
  · intro c ha hle hen
    refine gives_done (fun h => h.accept c runRevertHold) [] [Reg.TWIN_CFG] rfl ha (accept_done ha (runRevertHold_ok src tag hle hen)) (by simp) rfl
      (fun p hp => by cases p <;> first | rfl | simp at hp) rfl (fun a hna => Hub.rd_setFld_ne _ _ _ (by simpa using hna))
      (fun q => by simp [Reg.HQ_RSP, Reg.TWIN_CFG]; omega) fun k _ hkr => ?_
    rw [Hub.fld_of_rd _ (hkr _ (not_ackRegs c s (by decide))), Hub.fld_setFld _ _ _ _ (by decide)]
    exact Nat.mod_eq_of_lt (Nat.lt_succ_of_le hle)
  · intro c tw hh hs hp h1 h2 h3 h4 h5 h6 h7 h8
    have htwin := s.hub.jnl_twin 0x08 (word q.val :: word (c.code + c.tag * 65536 + c.rsv * 2 ^ 24) :: c.args)
    have hinprog := s.hub.jnl_inprog 0x08 (word q.val :: word (c.code + c.tag * 65536 + c.rsv * 2 ^ 24) :: c.args) q
    have hfail := s.hub.jnl_failing 0x08 (word q.val :: word (c.code + c.tag * 65536 + c.rsv * 2 ^ 24) :: c.args)
    have hhost := s.hub.jnl_host 0x08 (word q.val :: word (c.code + c.tag * 65536 + c.rsv * 2 ^ 24) :: c.args)
    have hnow := s.hub.jnl_now 0x08 (word q.val :: word (c.code + c.tag * 65536 + c.rsv * 2 ^ 24) :: c.args)
    have hrun := runDrill_ok (h := s.hub.jnl 0x08 (word q.val :: word (c.code + c.tag * 65536 + c.rsv * 2 ^ 24) :: c.args)) q tag
      (by rw [htwin]; exact h1) (by rw [htwin]; exact h2) (by rw [htwin]; exact h3) (by rw [htwin]; exact h4) (by rw [htwin]; exact h5)
      (hfail.trans h6) (by rw [htwin]; exact h7) (by rw [Hub.maintFree, hhost]; exact h8)
    refine gives_queue_later rfl rfl hh hs hp hrun hinprog fun v => ?_
    have hmaint : ({ (s.hub.jnl 0x08 (word q.val :: word (c.code + c.tag * 65536 + c.rsv * 2 ^ 24) :: c.args)).host with
        maint := .drill (s.hub.jnl 0x08 (word q.val :: word (c.code + c.tag * 65536 + c.rsv * 2 ^ 24) :: c.args)).now c.ref } : HostBlk) =
        { s.hub.host with maint := .drill s.hub.now c.ref } := by
      rw [hhost, hnow]
    exact hmaint
  · refine makes_on Hub.jnlTx hh rfl ?_
    dsimp only
    exact Hub.jnlTx_records hl hs ht
  · generalize hfind : List.find? _ _ = next
    have htx := Hub.jnlTx_state hl hs hr hp
    cases next with
    | some x =>
      obtain ⟨i, b⟩ := x
      refine makes_on Hub.jnlTx hh rfl (htx.trans ?_)
      have hnext : (s.hub.numberedBlocks.find? fun x => !s.hub.blockSent x) = some (i, b) := hfind
      unfold Hub.stateSend
      rw [hnext]
    | none =>
      refine makes_on Hub.jnlTx hh rfl (htx.trans ?_)
      have hnext : (s.hub.numberedBlocks.find? fun x => !s.hub.blockSent x) = none := hfind
      unfold Hub.stateSend
      rw [hnext]
  · refine gives_on (fun h => h.twinWrite Reg.TWIN_LAG w) hh rfl ?_
    rw [Hub.twinWrite_clear hw]
    have hquiet := s.hub.regWrite_quiet Reg.TWIN_LAG w
    refine ⟨only_hub (by rw [hquiet]; rfl) (fun p hp => by rw [hquiet]; cases p <;> first | rfl | simp at hp), fun a ha => ?_, ?_⟩
    · have hne : a ≠ Reg.TWIN_LAG := by simpa using ha
      exact (Hub.rd_setFld_ne _ _ _ hne).trans (s.hub.regWrite_quiet_rd w hne)
    · rw [Hub.fld_setFld _ _ _ _ (by decide)]
      rfl

end Sys2Proof.Machine

/-! The standby's application of the journal's records (R366 to R376, R382). -/

namespace Sys2Proof.Machine

/-! ## The header of a record (R367) -/

/-- A record in sequence is applied to the hub that has noted its sequence number and lag. -/
theorem Hub.jnlApply_next {h : Hub} {jseq : Nat} (act : Nat) (f : Hub → Hub) (hr : h.twin.role = .standby)
    (hq : h.twin.jseqRx = none ∨ ∃ q, h.twin.jseqRx = some q ∧ jseq = (q + 1) % 65536) :
    h.jnlApply jseq act f = f ((h.setTwin { h.twin with jseqRx := some jseq, worked := true }).jnlLag act) := by
  unfold Hub.jnlApply
  rw [if_neg (by rw [hr]; simp)]
  obtain hn | ⟨q, hsome, hnext⟩ := hq
  · rw [hn]
    exact if_neg (by simp [hr])
  · rw [hsome]
    simp only [hnext, ne_eq, not_true_eq_false, decide_false, Bool.false_eq_true, if_false]
    exact if_neg (by simp [hr])

theorem Hub.jnlApply_idle {h : Hub} (jseq act : Nat) (f : Hub → Hub) (hr : h.twin.role ≠ .standby) : h.jnlApply jseq act f = h := if_pos hr

theorem Hub.setRole_role (h : Hub) (r : Role) : (h.setRole r).twin.role = r := by
  unfold Hub.setRole
  split
  next he => exact he
  next => rfl

theorem Hub.setRole_kept (h : Hub) (r : Role) : (h.setRole r).now = h.now ∧ (h.setRole r).twin.notInStep = h.twin.notInStep := by
  unfold Hub.setRole
  split <;> exact ⟨rfl, rfl⟩

/-- An event leaves the other bits of its word. -/
theorem Hub.fld_evt_ne (h : Hub) (a : Nat) {f : Nat × Nat} {n : Nat} (hn : n < 32) (hd : n < f.1 ∨ f.1 + f.2 ≤ n) :
    (h.evt a (n, 1)).fld a f = h.fld a f := by
  unfold Hub.evt Hub.fld
  rw [Hub.rd_wr_same]
  exact bits_or_ne _ _ _ hn hd

/-- The start of a state transfer leaves the hub's being out of step, as noted and as flagged. -/
theorem Hub.enterSync_takes (h : Hub) : h.enterSync.twin.role = .syncing ∧ h.enterSync.twin.notInStep = h.twin.notInStep ∧
    h.enterSync.flag Reg.TWIN_EVT F.TWIN_EVT_NOT_IN_STEP = h.flag Reg.TWIN_EVT F.TWIN_EVT_NOT_IN_STEP ∧
    h.enterSync.twin.syncAt = some h.now := by
  obtain ⟨hnow, hstep⟩ := h.setRole_kept .syncing
  refine ⟨h.setRole_role .syncing, hstep, ?_, congrArg some hnow⟩
  have hfld : (h.setRole .syncing).fld Reg.TWIN_EVT F.TWIN_EVT_NOT_IN_STEP = h.fld Reg.TWIN_EVT F.TWIN_EVT_NOT_IN_STEP := by
    unfold Hub.setRole
    split
    · rfl
    · exact Hub.fld_evt_ne _ _ (by decide) (by decide)
  exact congrArg (· != 0) hfld

/-- A gap in the sequence puts a standby out of step, and with `AUTO_RESYNC` a state transfer begins (R367, R375). -/
theorem Hub.jnlApply_gap {h : Hub} {jseq q : Nat} (act : Nat) (f : Hub → Hub) (hr : h.twin.role = .standby) (hq : h.twin.jseqRx = some q)
    (hgap : jseq ≠ (q + 1) % 65536) (hauto : h.flag Reg.TWIN_CFG F.TWIN_CFG_AUTO_RESYNC = true) (hstep : h.twin.notInStep = false) :
    h.jnlApply jseq act f = (((h.setTwin { h.twin with jseqRx := some jseq, worked := true, notInStep := true }).twinEvt
      F.TWIN_EVT_NOT_IN_STEP).enterSync) := by
  have hout : (h.setTwin { h.twin with jseqRx := some jseq, worked := true }).outOfStep =
      ((h.setTwin { h.twin with jseqRx := some jseq, worked := true, notInStep := true }).twinEvt F.TWIN_EVT_NOT_IN_STEP).enterSync := by
    unfold Hub.outOfStep
    have hn : (h.setTwin { h.twin with jseqRx := some jseq, worked := true }).twin.notInStep = false := hstep
    rw [hn]
    refine if_pos ⟨hr, ?_⟩
    exact (Hub.flag_of_rd _ (Hub.rd_evt_ne _ _ (by decide))).trans hauto
  unfold Hub.jnlApply
  rw [if_neg (by rw [hr]; simp), hq]
  simp only [ne_eq, hgap, not_false_eq_true, decide_true, if_true]
  rw [hout]
  refine if_pos ?_
  have hsync : ∀ k : Hub, k.enterSync.twin.role = .syncing := fun k => k.setRole_role .syncing
  rw [hsync]
  decide

/-! ## Other records -/

/-- The transfer that completes at an edge leaves a standby that awaits the next record. -/
theorem Hub.syncDone_twin (h : Hub) : h.syncDone.twin.role = .standby ∧ h.syncDone.twin.jseqRx = none := ⟨h.setRole_role .standby, rfl⟩

theorem Hub.ringMiss_due {h : Hub} {x : Named} {r : List Named} (hn : h.twin.named = x :: r) (ht : x.at_ + 4 * tuUs ≤ h.now) :
    h.ringMiss = Hub.deliverNamed r.length (((h.setTwin { h.twin with named := r }).count Reg.TWIN_CNT_RING_MISS).noteBit 17) := by
  unfold Hub.ringMiss
  rw [hn]
  exact if_pos ht

theorem Hub.servoTo_ns (h : Hub) (b : Nat) (st : ServoSt) : ((h.servoTo b st).tb b).ns = (h.tb b).ns := by
  unfold Hub.servoTo
  split
  next => rfl
  next => exact (congrArg TimeBase.ns (Hub.tb_setTb_same h b { h.tb b with servo := st, ok := 0, bad := 0 }) :)

theorem Hub.servoTo_rd (h : Hub) {b a : Nat} (st : ServoSt) (ha : a ≠ Reg.TIME_EVT) : (h.servoTo b st).rd a = h.rd a := by
  unfold Hub.servoTo
  split
  · rfl
  · exact Hub.rd_evtN_ne _ _ _ ha

/-- `TIME` sets a base's time and frequency and its servo's state (R372). -/
theorem Hub.timeRecord_takes (h : Hub) {b : Nat} (sec ns : Nat) (freq : Word) (sv : Nat) (delay : Int) (hb : b < 3) :
    ((h.timeRecord b sec ns freq sv delay).tb b).ns = ((((sec * 1000000000 + ns : Nat) : Int) + delay) % (nsWrap : Int)).toNat ∧
    (h.timeRecord b sec ns freq sv delay).rd (Reg.TB_FREQ b) = freq ∧
    ((h.timeRecord b sec ns freq sv delay).tb b).servo = servoOf sv := by
  unfold Hub.timeRecord
  rw [if_neg (by omega)]
  refine ⟨?_, ?_, Hub.servoTo_servo _ _ _⟩
  · rw [Hub.servoTo_ns]
    refine (congrArg TimeBase.ns (Hub.tb_setTb_same h b _)).trans ?_
    exact (TimeBase.keep_ns _ _ _ _).1
  · rw [Hub.servoTo_rd _ _ (by simp only [Reg.TB_FREQ, Reg.TIME_EVT]; omega)]
    exact Hub.rd_wr_same _ _ _

/-- Settles O44, clause by clause. -/
theorem journalRecords : Obligations.JournalRecords := by
  unfold Obligations.JournalRecords
  refine ⟨fun s jseq act => ?_, fun s jseq act e g t temp sig => ?_, fun s jseq act q g ws hh hr hq hgap hauto hstep => ?_,
    fun s jseq act g ws hh hr => ?_, fun s jseq act b hh hr => ?_, fun s x r hh hn ht => ?_, fun h b sec ns freq sv delay hb =>
      h.timeRecord_takes sec ns freq sv delay hb⟩
  · intro k hh hr hseq
    have takes : ∀ {i : Instr} (f : Hub → Hub), (exec i s = s.on fun h => h.jnlApply jseq.toNat act.toNat f) → Makes i s (f k) :=
      fun f he => makes_on _ hh he (Hub.jnlApply_next act.toNat f hr hseq)
    refine ⟨fun e g t temp sig b => ?_, fun n count items => takes (fun h => h.sourceRecord (srcKey jLane n) count.toNat (items.map fun w => [w])) rfl,
      fun e count ws => takes (fun h => h.sourceRecord (srcKey jFret e) count.toNat (ws.map fun w => [w])) rfl,
      fun n count ws => takes (fun h => h.sourceRecord (srcKey jCan n) count.toNat [ws]) rfl,
      fun count w0 w1 => takes (fun h => h.sourceRecord (srcKey jEvent 0) count.toNat [[w0, w1]]) rfl,
      fun g ws => takes (fun h => h.dsnapRecord g ws) rfl,
      fun port src seq fcs bs => takes (fun h => h.ringRecord port.toNat src.toNat seq.toNat fcs.toNat bs) rfl,
      fun c op v => takes (fun h => h.timedIn c op.toNat v.toNat) rfl, fun c i m => takes (fun h => h.qMark (h.bind c i) m.toNat) rfl,
      fun c o cause => takes (fun h => h.jobOutcome c o.toNat cause.toNat) rfl, fun seq ports => takes (fun h => h.txDone seq.toNat) rfl,
      fun b sec ns freq sv delay => takes (fun h => h.timeRecord b sec.toNat ns.toNat freq sv.toNat delay.toInt) rfl,
      fun g st crc => takes (fun h => h.digestRecord g crc.toNat) rfl, fun e => takes Hub.switchIn rfl⟩
    refine makes_on (fun h => h.jnlEdgeRx jseq.toNat act.toNat e.toNat g.toNat t.toNat temp.toInt sig.toNat b) hh rfl ?_
    unfold Hub.jnlEdgeRx
    rw [if_neg (by simp [hr])]
    exact Hub.jnlApply_next _ _ hr hseq
  · intro k hh hr
    obtain ⟨hrole, hnone⟩ := s.hub.syncDone_twin
    refine makes_on (fun h => h.jnlEdgeRx jseq.toNat act.toNat e.toNat g.toNat t.toNat temp.toInt sig.toNat true) hh rfl ?_
    unfold Hub.jnlEdgeRx
    rw [if_pos ⟨hr, rfl⟩]
    exact Hub.jnlApply_next _ _ hrole (.inl hnone)
  · refine gives_on (fun h => h.jnlApply jseq.toNat act.toNat fun h => h.dsnapRecord g ws) hh rfl ?_
    rw [Hub.jnlApply_gap _ _ hr hq hgap hauto hstep]
    obtain ⟨hrole, hout, hflag, hat⟩ := Hub.enterSync_takes ((s.hub.setTwin { s.hub.twin with
      jseqRx := some jseq.toNat, worked := true, notInStep := true }).twinEvt F.TWIN_EVT_NOT_IN_STEP)
    exact ⟨hrole, hout, hflag.trans (Hub.flag_evt _ _ _ (by decide)), hat⟩
  · exact makes_on (fun h => h.jnlApply jseq.toNat act.toNat fun h => h.dsnapRecord g ws) hh rfl (Hub.jnlApply_idle _ _ _ hr)
  · exact makes_on (fun h => if h.twin.role = .syncing then
      (h.setTwin { h.twin with jseqRx := some jseq.toNat, worked := true }).jnlLag act.toNat |>.stateBlock b else h) hh rfl (if_pos hr)
  · exact makes_on Hub.ringMiss hh rfl (Hub.ringMiss_due hn ht)

end Sys2Proof.Machine

/-! The service port: its frames and requests (R472, R488 to R490). -/

namespace Sys2Proof.Machine

/-! ## Numbers as bytes -/

theorem length_beBytes : ∀ k n : Nat, (beBytes k n).length = k := by
  intro k
  induction k with
  | zero => exact fun _ => rfl
  | succ k ih => exact fun n => congrArg (· + 1) (ih n)

theorem foldl_beBytes : ∀ (k n a : Nat), (beBytes k n).foldl (fun a b => a * 256 + b.toNat) a = a * 2 ^ (8 * k) + n % 2 ^ (8 * k) := by
  intro k
  induction k with
  | zero => intro n a; simp [beBytes, Nat.mod_one]
  | succ k ih =>
    intro n a
    have hpow : 2 ^ (8 * (k + 1)) = 2 ^ (8 * k) * 256 := by rw [Nat.mul_add, Nat.pow_add]
    have hbyte : (byte (n / 2 ^ (8 * k))).toNat = n / 2 ^ (8 * k) % 256 := by rw [byte, BitVec.toNat_ofNat]
    show (beBytes k n).foldl _ (a * 256 + (byte (n / 2 ^ (8 * k))).toNat) = _
    rw [ih, hbyte, hpow, Nat.mod_mul]
    ring

theorem beNat_beBytes {k n : Nat} (hn : n < 2 ^ (8 * k)) : beNat (beBytes k n) = n := by
  unfold beNat
  rw [foldl_beBytes, Nat.mod_eq_of_lt hn]
  omega

/-- The number spelled by a part of a list. -/
theorem beAt_append {as bs cs : List Byte} {k n : Nat} (hb : bs = beBytes k n) (hn : n < 2 ^ (8 * k)) : beAt (as ++ bs ++ cs) as.length k = n := by
  subst hb
  unfold beAt slice
  rw [List.append_assoc, List.drop_left, List.take_left' (length_beBytes k n)]
  exact beNat_beBytes hn

theorem reverseBits_lt : ∀ n x : Nat, reverseBits n x < 2 ^ n := by
  intro n
  induction n with
  | zero => exact fun _ => Nat.zero_lt_one
  | succ n ih =>
    intro x
    have hlow := ih (x / 2)
    have hbit : x % 2 * 2 ^ n ≤ 1 * 2 ^ n := Nat.mul_le_mul_right _ (by omega)
    show x % 2 * 2 ^ n + reverseBits n (x / 2) < 2 ^ (n + 1)
    rw [Nat.pow_succ]
    omega

theorem crc_poly0_lt (bs : List Byte) : crc poly0 bs < 2 ^ 32 := Nat.xor_lt_two_pow (reverseBits_lt 32 _) (by decide)

/-! ## Frames (R489) -/

/-- A good frame is parsed as it was made. -/
theorem svcParse_svcFrame {t q : Nat} {pay : List Byte} (ht : t < 256) (hq : q < 256) (hp : pay.length ≤ 4100) :
    svcParse ((svcFrame t q pay).drop 2) = some (t, q, pay) := by
  have hbody : (svcFrame t q pay).drop 2 = (beBytes 2 pay.length ++ [byte t, byte q] ++ pay) ++
      beBytes 4 (crc poly0 (beBytes 2 pay.length ++ [byte t, byte q] ++ pay)) := rfl
  have hhead : (beBytes 2 pay.length ++ [byte t, byte q]).length = 4 := rfl
  rw [hbody]
  generalize hc : crc poly0 (beBytes 2 pay.length ++ [byte t, byte q] ++ pay) = c
  have hlt : c < 2 ^ (8 * 4) := hc ▸ crc_poly0_lt _
  have hlen : (beBytes 2 pay.length ++ [byte t, byte q] ++ pay).length = pay.length + 4 := by rw [List.length_append, hhead, Nat.add_comm]
  have hL : beAt ((beBytes 2 pay.length ++ [byte t, byte q] ++ pay) ++ beBytes 4 c) 0 2 = pay.length := by
    rw [List.append_assoc, List.append_assoc]
    exact beAt_append (as := []) rfl (by omega)
  have hT : beAt ((beBytes 2 pay.length ++ [byte t, byte q] ++ pay) ++ beBytes 4 c) 2 1 = t := by
    have := beAt_append (as := beBytes 2 pay.length) (bs := [byte t]) (cs := [byte q] ++ (pay ++ beBytes 4 c)) (k := 1) (n := t) (by simp [beBytes]) ht
    simpa [length_beBytes] using this
  have hQ : beAt ((beBytes 2 pay.length ++ [byte t, byte q] ++ pay) ++ beBytes 4 c) 3 1 = q := by
    have := beAt_append (as := beBytes 2 pay.length ++ [byte t]) (bs := [byte q]) (cs := pay ++ beBytes 4 c) (k := 1) (n := q) (by simp [beBytes]) hq
    simpa [length_beBytes] using this
  have hC : beAt ((beBytes 2 pay.length ++ [byte t, byte q] ++ pay) ++ beBytes 4 c) (pay.length + 4) 4 = c := by
    have := beAt_append (as := beBytes 2 pay.length ++ [byte t, byte q] ++ pay) (cs := []) (rfl : beBytes 4 c = beBytes 4 c) hlt
    rwa [List.append_nil, hlen] at this
  have hP : slice ((beBytes 2 pay.length ++ [byte t, byte q] ++ pay) ++ beBytes 4 c) 4 pay.length = pay := by
    unfold slice
    rw [List.append_assoc, List.drop_left' hhead, List.take_left' rfl]
  unfold svcParse
  dsimp only
  rw [hL, hT, hQ, hP, hC, List.take_left' hlen, hc]
  exact if_neg (by rw [List.length_append, hlen, length_beBytes]; omega)

theorem State.svcOther_bad {s : State} {bs : List Byte} (hb : bs.length ≠ beAt bs 0 2 + 8 ∨ 4100 < beAt bs 0 2 ∨
    crc poly0 (bs.take (beAt bs 0 2 + 4)) ≠ beAt bs (beAt bs 0 2 + 4) 4) : s.svcOther bs = s := by
  have hnone : svcParse bs = none := if_pos (by tauto)
  unfold State.svcOther
  rw [hnone]

/-! ## Requests (R490) -/

/-- A repeated request is answered as before. -/
theorem State.serve_again {s : State} {typ seq : Nat} {rsp : List Byte} (hh : s.hub.held = false) (hp : s.hub.glb.svcPrev = some (typ, seq, rsp))
    (run : Hub → NonVol → SvcAck) : s.serve typ seq run = { s with hub := s.hub.svcHeard.emit (.bytes rsp) } := by
  have hagain : (s.hub.glb.svcPrev.filter fun p => p.1 == typ && p.2.1 == seq) = some (typ, seq, rsp) := by
    rw [hp]
    simp
  simp only [State.serve, hh, Bool.false_eq_true, if_false, Hub.setGlb_glb, hagain]
  rfl

/-- A request of its own is executed and answered. -/
theorem exec_fresh {i : Instr} {s : State} {typ seq : Nat} {run : Hub → NonVol → SvcAck} {a : SvcAck} (he : exec i s = .next (s.serve typ seq run))
    (hh : s.hub.held = false) (hf : s.hub.svcFresh typ seq) (ha : run s.hub.svcHeard s.nv = a) :
    exec i s = .next (s.svcDone typ seq a.hub a.nv a.status a.rest) := by
  rw [he, State.serve_fresh hh hf, ha]

theorem svcHello_eq (h : Hub) (nv : NonVol) : svcHello h nv = ⟨h, nv, sOK,
    byte 1 :: ([Reg.GLB_ID, Reg.GLB_BOOT, Reg.GLB_SEQ_A, Reg.GLB_SEQ_B].flatMap fun a => beBytes 4 (h.rd a).toNat)⟩ := by
  simp only [svcHello, regBytes, List.flatMap_cons, List.flatMap_nil, List.append_nil, List.append_assoc]

theorem svcStatus_eq (h : Hub) (nv : NonVol) : svcStatus h nv = ⟨h, nv, sOK,
    [h.rd Reg.GLB_RESET_CAUSE, h.clkStat, h.rd Reg.TWIN_HEALTH_HI, h.rd Reg.TWIN_HEALTH_LO].flatMap fun w => beBytes 4 w.toNat⟩ := by
  simp only [svcStatus, regBytes, List.flatMap_cons, List.flatMap_nil, List.append_nil, List.append_assoc]

theorem Hub.svcResetFire_due {h : Hub} {cold : Bool} {t : Nat} (hr : h.glb.svcReset = some (cold, t)) :
    h.svcResetFire = if t ≤ h.now then (if cold then (h.setGlb { h.glb with svcReset := none }).startCold 4
      else (h.setGlb { h.glb with svcReset := none }).askWarm 5) else h := by
  unfold Hub.svcResetFire
  rw [hr]

/-- Settles O54, clause by clause. -/
theorem servicePortRequests : Obligations.ServicePortRequests := by
  unfold Obligations.ServicePortRequests
  refine ⟨fun s q div addr len n wp sel kind bs out => ?_, fun s q hh => ?_, fun s cold t hh hr => ?_, fun s t q pay hh ht hq hp hu hf => ?_,
    fun s bs hb => ?_, fun s => rfl, fun s hh => makes_on Hub.baudRevert hh rfl rfl⟩
  · intro reqs r hr
    obtain ⟨run, he⟩ : ∃ run, exec r.1 s = .next (s.serve r.2 q.toNat run) := by
      simp only [reqs, List.mem_cons, List.not_mem_nil, or_false] at hr
      obtain rfl | rfl | rfl | rfl | rfl | rfl | rfl | rfl | rfl | rfl | rfl := hr <;> exact ⟨_, rfl⟩
    refine ⟨fun hh => by rw [he, State.serve_held hh], fun rsp hh hp => ?_⟩
    unfold Makes
    rw [he, State.serve_again hh hp]
  · intro g
    refine ⟨fun hf => exec_fresh rfl hh hf (svcHello_eq _ _), fun div hf => ?_, fun a n hf => ?_,
      fun hf => exec_fresh rfl hh hf (svcStatus_eq _ _), fun kind hf => ?_⟩
    · split
      next hd => exact exec_fresh (run := svcBaud div.toNat) rfl hh hf (if_neg (by omega))
      next hd => exact exec_fresh (run := svcBaud div.toNat) rfl hh hf (if_pos (by omega))
    · split
      next hd => exact exec_fresh (run := svcRead a.toNat n.toNat) rfl hh hf (if_neg (by omega))
      next hd => exact exec_fresh (run := svcRead a.toNat n.toNat) rfl hh hf (if_pos (by omega))
    · have hkind : ∀ b : Byte, kind = b ↔ kind.toNat = b.toNat := fun b => BitVec.toNat_inj.symm
      have hcold : (kind == 2) = (kind.toNat == 2) := by rw [Bool.eq_iff_iff, beq_iff_eq, beq_iff_eq]; exact hkind 2
      rw [hcold]
      split
      next hd => exact exec_fresh (run := svcReset kind.toNat) rfl hh hf (if_pos (hd.imp (hkind 1).1 (hkind 2).1))
      next hd => exact exec_fresh (run := svcReset kind.toNat) rfl hh hf (if_neg fun hn => hd (hn.imp (hkind 1).2 (hkind 2).2))
  · exact makes_on Hub.svcResetFire hh rfl (Hub.svcResetFire_due hr)
  · have hother : s.svcOther ((svcFrame t q pay).drop 2) = s.serve t q fun h nv => svcRefuse h nv sENOTSUP := by
      unfold State.svcOther
      rw [svcParse_svcFrame ht hq hp]
      exact if_pos hu
    have he : exec (.svcBadFrame ((svcFrame t q pay).drop 2)) s = .next (s.serve t q fun h nv => svcRefuse h nv sENOTSUP) :=
      congrArg Host.Outcome.next hother
    exact exec_fresh he hh hf rfl
  · exact congrArg Host.Outcome.next (State.svcOther_bad hb)

end Sys2Proof.Machine

/-! Staging an image, the identity block and the key fuses (R476, R478, R483, R490 to R494). -/

namespace Sys2Proof.Machine

/-! ## Staging (R491 to R494) -/

theorem svcStageOpen_ok {h : Hub} {nv : NonVol} {sel len slot : Nat} (hs : h.glb.stage = none) (hmin : 4096 ≤ len) (hmax : len ≤ 0x800000)
    (hsel : sel = 1 ∧ slot = 0 ∨ sel = 2 ∧ slot = 1 ∨ sel = 0 ∧ ((h.glb.booted = none ∧ slot = 1) ∨ ∃ b, h.glb.booted = some b ∧ slot = 1 - b))
    (hb : h.glb.booted ≠ some slot) :
    svcStageOpen sel len h nv =
      ⟨h.setGlb { h.glb with stage := some { slot := slot, len := len, written := 0, manifest := [], at_ := h.now } },
        nv.erase (slotBase slot) 0x10000, sOK, [byte (slot + 1)]⟩ := by
  have hopen : ∀ k : Nat, sel ≤ 2 → k = slot →
      (if 2 < sel ∨ len < 4096 ∨ 0x800000 < len then svcRefuse h nv sEARG
      else if h.glb.stage.isSome ∨ h.glb.booted = some k then svcRefuse h nv sESTATE
      else ⟨h.setGlb { h.glb with stage := some { slot := k, len := len, written := 0, manifest := [], at_ := h.now } },
        nv.erase (slotBase k) 0x10000, sOK, [byte (k + 1)]⟩) =
      (⟨h.setGlb { h.glb with stage := some { slot := slot, len := len, written := 0, manifest := [], at_ := h.now } },
        nv.erase (slotBase slot) 0x10000, sOK, [byte (slot + 1)]⟩ : SvcAck) := by
    rintro k hle rfl
    rw [if_neg (by omega), if_neg (by simp [hs, hb])]
  unfold svcStageOpen
  obtain ⟨rfl, rfl⟩ | ⟨rfl, rfl⟩ | ⟨rfl, ⟨hnone, rfl⟩ | ⟨b, hsome, rfl⟩⟩ := hsel
  · exact hopen 0 (by omega) rfl
  · exact hopen 1 (by omega) rfl
  · rw [hnone] at hopen ⊢
    exact hopen 1 (by omega) rfl
  · rw [hsome] at hopen ⊢
    exact hopen (1 - b) (by omega) rfl

theorem Hub.stageTouch_open {h : Hub} {x : Stage} (hs : h.glb.stage = some x) :
    h.stageTouch = h.setGlb { h.glb with stage := some { x with at_ := h.now } } := by
  unfold Hub.stageTouch
  rw [hs]

/-- The first block of an image, its manifest, waits for the close (R492). -/
theorem svcStageWrite_manifest {h : Hub} {nv : NonVol} {off : Nat} {bs : List Byte} {x : Stage} (out : FlashEnd) (hs : h.glb.stage = some x)
    (h0 : off = 0) (hoff : off = x.written) (hpos : 1 ≤ bs.length) (hlen : off + bs.length ≤ x.len)
    (hblock : bs.length = 4096 ∨ (bs.length < 4096 ∧ off + bs.length = x.len)) :
    svcStageWrite off bs out h nv =
      ⟨h.setGlb { h.glb with stage := some { x with written := bs.length, manifest := bs, at_ := h.now } }, nv, sOK, []⟩ := by
  subst h0
  have hgood : (0 == x.written && decide (0 + bs.length ≤ x.len) && decide (1 ≤ bs.length) &&
      (bs.length == 4096 || (decide (bs.length < 4096) && 0 + bs.length == x.len))) = true := by
    simp only [Bool.and_eq_true, Bool.or_eq_true, beq_iff_eq, decide_eq_true_eq]
    exact ⟨⟨⟨hoff, hlen⟩, hpos⟩, hblock⟩
  unfold svcStageWrite
  rw [hs]
  dsimp only
  rw [Hub.stageTouch_open hs, if_neg (by rw [hgood]; decide), if_pos rfl]
  rfl

/-- What a later block of an image does, by the end of its flash operation (R492). -/
theorem svcStageWrite_block {h : Hub} {nv : NonVol} {off : Nat} {bs : List Byte} {x : Stage} (hs : h.glb.stage = some x) (h0 : off ≠ 0)
    (hoff : off = x.written) (hpos : 1 ≤ bs.length) (hlen : off + bs.length ≤ x.len)
    (hblock : bs.length = 4096 ∨ (bs.length < 4096 ∧ off + bs.length = x.len)) :
    let a := slotBase x.slot + off
    let nv' := if off % 0x10000 = 0 then nv.erase a 0x10000 else nv
    let touched := h.setGlb { h.glb with stage := some { x with at_ := h.now } }
    svcStageWrite off bs .ok h nv =
      ⟨h.setGlb { h.glb with stage := some { x with written := off + bs.length, at_ := h.now } }, nv'.writeFlash a bs, sOK, []⟩ ∧
    svcStageWrite off bs .differs h nv =
      ⟨{ touched with freeCtr := h.freeCtr + bs.length }, nv'.writeFlash a (h.freeBytes bs.length), sENORES, []⟩ ∧
    svcStageWrite off bs .timeout h nv =
      ⟨{ touched with freeCtr := h.freeCtr + bs.length }, nv'.writeFlash a (h.freeBytes bs.length), sETIMEOUT, []⟩ := by
  intro a nv' touched
  have hgood : (off == x.written && decide (off + bs.length ≤ x.len) && decide (1 ≤ bs.length) &&
      (bs.length == 4096 || (decide (bs.length < 4096) && off + bs.length == x.len))) = true := by
    simp only [Bool.and_eq_true, Bool.or_eq_true, beq_iff_eq, decide_eq_true_eq]
    exact ⟨⟨⟨hoff, hlen⟩, hpos⟩, hblock⟩
  have hall : ∀ out, svcStageWrite off bs out h nv = match out with
      | .ok => ⟨h.setGlb { h.glb with stage := some { x with written := off + bs.length, at_ := h.now } }, nv'.writeFlash a bs, sOK, []⟩
      | .differs => ⟨{ touched with freeCtr := h.freeCtr + bs.length }, nv'.writeFlash a (h.freeBytes bs.length), sENORES, []⟩
      | .timeout => ⟨{ touched with freeCtr := h.freeCtr + bs.length }, nv'.writeFlash a (h.freeBytes bs.length), sETIMEOUT, []⟩ := fun out => by
    unfold svcStageWrite
    rw [hs]
    dsimp only
    rw [Hub.stageTouch_open hs, if_neg (by rw [hgood]; decide), if_neg h0]
    cases out <;> rfl
  exact ⟨hall .ok, hall .differs, hall .timeout⟩

theorem svcStageClose_whole {h : Hub} {nv : NonVol} {x : Stage} (hs : h.glb.stage = some x) (hw : x.written = x.len) :
    svcStageClose h nv = ⟨h.stageEnd true, nv.writeFlash (slotBase x.slot) x.manifest, sOK,
      beBytes 4 (crc poly0 ((nv.writeFlash (slotBase x.slot) x.manifest).bytes (slotBase x.slot) x.len)) ++
        beBytes 4 (imgSeq ((nv.writeFlash (slotBase x.slot) x.manifest).manifest x.slot))⟩ := by
  unfold svcStageClose
  rw [hs]
  exact if_neg (by simp [hw])

theorem svcStageAbort_open {h : Hub} {nv : NonVol} {x : Stage} (hs : h.glb.stage = some x) : svcStageAbort h nv = ⟨h.stageEnd false, nv, sOK, []⟩ :=
  if_pos (by rw [hs]; rfl)

theorem Hub.wpDown_open {h : Hub} {x : Stage} (hs : h.glb.stage = some x) : h.wpDown = (h.setWp false).stageEnd false := by
  have hopen : (h.setWp false).glb.stage = some x := hs
  unfold Hub.wpDown
  exact if_pos (by rw [hopen]; rfl)

theorem Hub.stageIdle_open {h : Hub} {x : Stage} (hs : h.glb.stage = some x) :
    h.stageIdle = if x.at_ + 60 * tuS ≤ h.now then h.stageEnd false else h := by
  unfold Hub.stageIdle
  rw [hs]

/-- The end of a session shows in `GLB_BOOT` and two events, and changes no other register word. -/
theorem Hub.stageEnd_takes (h : Hub) (good : Bool) : (h.stageEnd good).flag Reg.GLB_BOOT F.GLB_BOOT_STAGE_OK = good ∧
    (h.stageEnd good).flag Reg.GLB_EVT F.GLB_EVT_STAGED = true ∧ (h.stageEnd good).flag Reg.HOST_EVT F.HOST_EVT_MAINT_DONE = true ∧
    ∀ a, a ∉ [Reg.GLB_BOOT, Reg.GLB_EVT, Reg.HOST_EVT] → (h.stageEnd good).rd a = h.rd a := by
  unfold Hub.stageEnd Hub.glbEvt
  refine ⟨?_, ?_, Hub.flag_evt _ _ _ (by decide), fun a ha => ?_⟩
  · rw [Hub.flag_of_rd _ (Hub.rd_evt_ne _ _ (by decide)), Hub.flag_of_rd _ (Hub.rd_evt_ne _ _ (by decide))]
    exact Hub.flag_setFld_bitB _ _ _ _ (by decide)
  · rw [Hub.flag_of_rd _ (Hub.rd_evt_ne _ _ (by decide))]
    exact Hub.flag_evt _ _ _ (by decide)
  · simp only [List.mem_cons, List.not_mem_nil, or_false, not_or] at ha
    obtain ⟨hboot, hglb, hhost⟩ := ha
    exact (Hub.rd_evt_ne _ _ hhost).trans ((Hub.rd_evt_ne _ _ hglb).trans (Hub.rd_setFld_ne _ _ _ hboot))

/-! ## The identity block and the fuses (R478, R483) -/

theorem svcIdentWrite_ok {h : Hub} {nv : NonVol} {bs : List Byte} (hs : h.glb.stage = none) (hl : bs.length = 256) (hk : identOk bs = true) :
    svcIdentWrite bs h nv = ⟨h, (nv.erase 0 0x10000).writeFlash 0 bs, sOK, []⟩ := by
  unfold svcIdentWrite
  rw [if_neg (by simp [hl, hk]), if_neg (by simp [hs])]

theorem svcFuseKey_programmed {h : Hub} {nv : NonVol} (key : List Byte) (hf : nv.fuse ≠ none) : svcFuseKey key h nv = svcRefuse h nv sEDENIED :=
  if_pos (Option.isSome_iff_ne_none.2 hf)

/-- Settles O55, clause by clause. -/
theorem stagingIdentityAndFuses : Obligations.StagingIdentityAndFuses := by
  unfold Obligations.StagingIdentityAndFuses
  refine ⟨fun s q addr len sel bs out hh r hr hf => ?_, fun s q sel len slot => ?_, fun s q off bs x => ?_, fun s q x hh hs => ?_,
    fun h good => ⟨rfl, h.stageEnd_takes good⟩, fun s q bs hh => ?_, fun nv a x bs => ⟨?_, fun n => ?_⟩⟩
  · simp only [List.mem_cons, List.not_mem_nil, or_false] at hr
    obtain rfl | rfl | rfl | rfl | rfl := hr
    · exact exec_fresh (i := .svcStageOpen q false sel len) (run := needsWp false (svcStageOpen sel.toNat len.toNat)) rfl hh hf rfl
    · exact exec_fresh (i := .svcStageWrite q false addr bs out) (run := needsWp false (svcStageWrite addr.toNat bs out)) rfl hh hf rfl
    · exact exec_fresh (i := .svcStageClose q false) (run := needsWp false svcStageClose) rfl hh hf rfl
    · exact exec_fresh (i := .svcIdentWrite q false bs) (run := needsWp false (svcIdentWrite bs)) rfl hh hf rfl
    · exact exec_fresh (i := .svcFuseKey q false bs) (run := needsWp false (svcFuseKey bs)) rfl hh hf rfl
  · intro g hh hf hs hmin hmax hsel hb
    refine exec_fresh (run := needsWp true (svcStageOpen sel.toNat len.toNat)) rfl hh hf
      (svcStageOpen_ok (h := g) hs hmin hmax ?_ hb)
    have hval : ∀ b : Byte, sel = b → sel.toNat = b.toNat := fun b => congrArg BitVec.toNat
    exact hsel.imp (And.imp_left (hval 1)) (Or.imp (And.imp_left (hval 2)) (And.imp_left (hval 0)))
  · intro g n a nv free touched hh hf hs hoff hpos hlen hblock
    refine ⟨fun h0 out => ?_, fun h0 => ?_⟩
    · exact exec_fresh (run := needsWp true (svcStageWrite off.toNat bs out)) rfl hh hf
        (svcStageWrite_manifest (h := g) out hs h0 hoff hpos hlen hblock)
    · obtain ⟨hok, hdiffers, htimeout⟩ := svcStageWrite_block (h := g) (nv := s.nv) hs h0 hoff hpos hlen hblock
      exact ⟨exec_fresh (run := needsWp true (svcStageWrite off.toNat bs .ok)) rfl hh hf hok,
        exec_fresh (run := needsWp true (svcStageWrite off.toNat bs .differs)) rfl hh hf hdiffers,
        exec_fresh (run := needsWp true (svcStageWrite off.toNat bs .timeout)) rfl hh hf htimeout⟩
  · intro nv
    refine ⟨fun hw hf => ?_, fun hf => ?_, makes_on Hub.wpDown hh rfl (Hub.wpDown_open hs), makes_on Hub.stageIdle hh rfl (Hub.stageIdle_open hs)⟩
    · exact exec_fresh (run := needsWp true svcStageClose) rfl hh hf (svcStageClose_whole (h := s.hub.svcHeard.setWp true) hs hw)
    · exact exec_fresh (run := svcStageAbort) rfl hh hf (svcStageAbort_open (h := s.hub.svcHeard) hs)
  · intro g
    refine ⟨fun hf hs hl hk => ?_, fun hf hb hl => ?_, fun hf hb => ?_⟩
    · exact exec_fresh (run := needsWp true (svcIdentWrite bs)) rfl hh hf (svcIdentWrite_ok (h := g) hs hl hk)
    · exact exec_fresh (run := needsWp true (svcFuseKey bs)) rfl hh hf (svcFuseKey_blank (h := g) hb hl)
    · exact exec_fresh (run := needsWp true (svcFuseKey bs)) rfl hh hf (svcFuseKey_programmed (h := g) bs hb)
  · exact congrArg (fun b => [b]) (mget_mwrite 0xFF bs nv.flash a x)
  · exact congrArg (fun b => [b]) (nv.mget_erase a n x)

end Sys2Proof.Machine

/-! The reference clock and its return (R468 to R470). -/

namespace Sys2Proof.Machine

/-! ## The choice of a recovered clock (R468, R469) -/

/-- The reference chosen when the one in use is left. -/
def Hub.fallSrc (h : Hub) : Nat := if h.rxLocked 0 then 1 else if h.rxLocked 1 then 2 else 3

/-- What the fall-back chooses; holdover that begins is flagged. -/
theorem Hub.fallBack_spec (h : Hub) : h.fallBack.now = h.now ∧ h.fallBack.glb = { h.glb with src := h.fallSrc } ∧
    (∀ a, a ≠ Reg.GLB_EVT → h.fallBack.rd a = h.rd a) ∧
    (h.fallSrc = 3 → h.glb.src ≠ 3 → h.fallBack.flag Reg.GLB_EVT F.GLB_EVT_HOLDOVER = true) := by
  unfold Hub.fallBack Hub.fallSrc
  split
  · exact ⟨rfl, rfl, fun _ _ => rfl, fun h3 => absurd h3 (by decide)⟩
  · split
    · exact ⟨rfl, rfl, fun _ _ => rfl, fun h3 => absurd h3 (by decide)⟩
    · split
      next hsrc => exact ⟨rfl, by rw [← hsrc], fun _ _ => rfl, fun _ hne => absurd hsrc hne⟩
      next => exact ⟨rfl, rfl, fun a ha => Hub.rd_evt_ne _ _ ha, fun _ _ => Hub.flag_evt _ _ _ (by decide)⟩

/-- A lost `REFCLK` is left, flagged and counted (R468). -/
theorem Hub.clkWatch_lost {h : Hub} (hs : h.glb.src = 0) (hr : h.glb.refOk = false) :
    h.clkWatch = (h.fallBack.count Reg.GLB_CNT_REF_LOST).glbEvt F.GLB_EVT_REF_LOST := by
  unfold Hub.clkWatch
  rw [hs]
  exact if_neg (by rw [hr]; decide)

/-- A reference that is not `REFCLK` and is no longer good is left. -/
theorem Hub.clkWatch_falls {h : Hub} (hs : (h.glb.src = 1 ∧ h.rxLocked 0 = false) ∨ (h.glb.src = 2 ∧ h.rxLocked 1 = false) ∨ h.glb.src = 3) :
    h.clkWatch = h.fallBack := by
  unfold Hub.clkWatch
  obtain ⟨hs, hl⟩ | ⟨hs, hl⟩ | hs := hs
  · rw [hs]
    exact if_neg (by rw [hl]; decide)
  · rw [hs]
    exact if_neg (by rw [hl]; decide)
  · rw [hs]
    rfl

/-- A reference that is good stays in use. -/
theorem Hub.clkWatch_stays {h : Hub} (hs : (h.glb.src = 0 ∧ h.glb.refOk = true) ∨ (h.glb.src = 1 ∧ h.rxLocked 0 = true) ∨
    (h.glb.src = 2 ∧ h.rxLocked 1 = true)) : h.clkWatch = h := by
  unfold Hub.clkWatch
  obtain ⟨hs, hl⟩ | ⟨hs, hl⟩ | ⟨hs, hl⟩ := hs
  · rw [hs]
    exact if_pos hl
  · rw [hs]
    exact if_pos hl
  · rw [hs]
    exact if_pos hl

theorem Hub.clkWatch_now (h : Hub) : h.clkWatch.now = h.now := by
  obtain ⟨hnow, -, -, -⟩ := h.fallBack_spec
  unfold Hub.clkWatch
  split
  · split
    · rfl
    · exact hnow
  · split
    · rfl
    · exact hnow
  · split
    · rfl
    · exact hnow
  · exact hnow

/-! ## `GLB_CLK_CTL` (R470) -/

/-- The hub whose `GLB_CLK_CTL` has been written. -/
def Hub.clkCtlSet (h : Hub) (w : Word) : Hub :=
  ((h.regWrite Reg.GLB_CLK_CTL w false id).holdFld Reg.GLB_CLK_CTL F.GLB_CLK_CTL_REF_TOL_PPM 50 1000).holdFld Reg.GLB_CLK_CTL
    F.GLB_CLK_CTL_RETURN_S 1 255

theorem Hub.clkCtlSet_only (h : Hub) (w : Word) : h.clkCtlSet w = { h with regs := (h.clkCtlSet w).regs } := by
  unfold Hub.clkCtlSet
  rw [Hub.regWrite_quiet]
  rfl

theorem Hub.clkCtlSet_rd (h : Hub) {a : Nat} (w : Word) (ha : a ≠ Reg.GLB_CLK_CTL) : (h.clkCtlSet w).rd a = h.rd a :=
  (Hub.rd_setFld_ne _ _ _ ha).trans ((Hub.rd_setFld_ne _ _ _ ha).trans (h.regWrite_quiet_rd w ha))

theorem Hub.clkCtlSet_auto (h : Hub) (w : Word) :
    (h.clkCtlSet w).fld Reg.GLB_CLK_CTL F.GLB_CLK_CTL_AUTO_RETURN = bits w F.GLB_CLK_CTL_AUTO_RETURN := by
  have hmem : (⟨10, 1, .rw⟩ : RegField) ∈ fieldsAt Reg.GLB_CLK_CTL := by decide
  have hwritten : (h.regWrite Reg.GLB_CLK_CTL w false id).rd Reg.GLB_CLK_CTL =
      (applyFields false w (fieldsAt Reg.GLB_CLK_CTL) (h.rd Reg.GLB_CLK_CTL, false)).1 := by
    unfold Hub.regWrite Hub.when
    dsimp only
    split <;> exact Hub.rd_wr_same _ _ _
  refine (Hub.fld_setFld_ne _ _ _ _ _ (by decide)).trans ((Hub.fld_setFld_ne _ _ _ _ _ (by decide)).trans ?_)
  unfold Hub.fld
  rw [hwritten]
  exact bits_eq_of_testBit (f := ⟨10, 1, .rw⟩) fun i hi => bits_applyFields (fieldsAt_apart _) hmem hi

/-- `RETURN_NOW` is refused without a healthy `REFCLK`, and with `AUTO_RETURN`; else the PLL goes back. -/
theorem Hub.clkCtlWrite_return {h : Hub} {w : Word} (hw : bits w F.GLB_CLK_CTL_RETURN_NOW = 1) : h.clkCtlWrite w =
    if h.glb.refOk = false ∨ bits w F.GLB_CLK_CTL_AUTO_RETURN = 1 then (h.clkCtlSet w).glbEvt F.GLB_EVT_WRITE_REFUSED
    else if h.glb.src = 0 then h.clkCtlSet w else (h.clkCtlSet w).refBack := by
  have hglb : (h.clkCtlSet w).glb = h.glb := by rw [Hub.clkCtlSet_only]
  have hauto : (h.clkCtlSet w).flag Reg.GLB_CLK_CTL F.GLB_CLK_CTL_AUTO_RETURN = true ↔ bits w F.GLB_CLK_CTL_AUTO_RETURN = 1 := by
    have hlt : bits w F.GLB_CLK_CTL_AUTO_RETURN < 2 := bits_lt w F.GLB_CLK_CTL_AUTO_RETURN
    unfold Hub.flag
    rw [Hub.clkCtlSet_auto, bne_iff_ne]
    omega
  unfold Hub.clkCtlWrite
  show (if bits w F.GLB_CLK_CTL_RETURN_NOW = 0 then h.clkCtlSet w
    else if (h.clkCtlSet w).glb.refOk = false ∨ (h.clkCtlSet w).flag Reg.GLB_CLK_CTL F.GLB_CLK_CTL_AUTO_RETURN = true then
      (h.clkCtlSet w).glbEvt F.GLB_EVT_WRITE_REFUSED
    else if (h.clkCtlSet w).glb.src = 0 then h.clkCtlSet w else (h.clkCtlSet w).refBack) = _
  rw [if_neg (by omega), hglb]
  simp only [hauto]

theorem Hub.clkCtlWrite_but {h : Hub} {w : Word} (hw : bits w F.GLB_CLK_CTL_RETURN_NOW = 1) :
    h.clkCtlWrite w = { h with regs := (h.clkCtlWrite w).regs, glb := (h.clkCtlWrite w).glb } ∧
    ∀ a, a ≠ Reg.GLB_CLK_CTL → a ≠ Reg.GLB_EVT → (h.clkCtlWrite w).rd a = h.rd a := by
  have honly := h.clkCtlSet_only w
  rw [Hub.clkCtlWrite_return hw]
  split
  · exact ⟨by rw [honly]; rfl, fun a h1 h2 => (Hub.rd_evt_ne _ _ h2).trans (h.clkCtlSet_rd w h1)⟩
  · split
    · exact ⟨by rw [honly], fun a h1 _ => h.clkCtlSet_rd w h1⟩
    · exact ⟨by rw [honly]; rfl, fun a h1 h2 => (Hub.rd_evt_ne _ _ h2).trans (h.clkCtlSet_rd w h1)⟩

/-- Settles O52, clause by clause. -/
theorem referenceClockWatch : Obligations.ReferenceClockWatch := by
  unfold Obligations.ReferenceClockWatch
  refine ⟨fun s edges ppm hc => ?_, fun h => ?_, fun s ms hc => ?_, fun s w hh hw => ?_⟩
  · intro locked lost
    exact ⟨fun hl => makes_powered (fun h => h.refLost edges ppm.toNat) hc rfl (if_pos hl),
      fun hl => makes_powered (fun h => h.refLost edges ppm.toNat) hc rfl (if_neg hl)⟩
  · intro k src
    obtain ⟨-, hglb, hrd, hhold⟩ := h.fallBack_spec
    refine ⟨h.clkWatch_now, fun hs hr => Hub.clkWatch_stays (.inl ⟨hs, hr⟩), fun hs hr => ?_, fun hs hl => Hub.clkWatch_stays (.inr (.inl ⟨hs, hl⟩)),
      fun hs hl => Hub.clkWatch_stays (.inr (.inr ⟨hs, hl⟩)), fun hs => ?_, fun hs h3 => ?_⟩
    · have hk : k = (h.fallBack.count Reg.GLB_CNT_REF_LOST).glbEvt F.GLB_EVT_REF_LOST := Hub.clkWatch_lost hs hr
      rw [hk]
      refine ⟨hglb, Hub.flag_evt _ _ _ (by decide), fun h3 => ?_, ?_⟩
      · have hkeep := Hub.fld_evt_ne (h.fallBack.count Reg.GLB_CNT_REF_LOST) Reg.GLB_EVT (f := F.GLB_EVT_HOLDOVER) (n := F.GLB_EVT_REF_LOST.1)
          (by decide) (by decide)
        refine (congrArg (· != 0) hkeep).trans ?_
        exact (Hub.flag_of_rd _ (Hub.rd_count_ne _ (by decide))).trans (hhold h3 (by rw [hs]; decide))
      · refine (Hub.rd_evt_ne _ _ (by decide)).trans ?_
        rw [Hub.rd_count, hrd _ (by decide)]
    · have hk : k = h.fallBack := Hub.clkWatch_falls hs
      rw [hk]
      exact hglb
    · have hlost : h.rxLocked 0 = false ∧ h.rxLocked 1 = false := by
        have h3' : (if h.rxLocked 0 then 1 else if h.rxLocked 1 then 2 else 3) = 3 := h3
        split at h3'
        · cases h3'
        · split at h3'
          · cases h3'
          · exact ⟨by simpa using ‹¬ h.rxLocked 0 = true›, by simpa using ‹¬ h.rxLocked 1 = true›⟩
      have hk : k = h.fallBack := Hub.clkWatch_falls (hs.imp (⟨·, hlost.1⟩) (.inl ⟨·, hlost.2⟩))
      rw [hk]
      exact hhold h3 (by omega)
  · intro k due
    exact makes_powered (fun h => h.refReturn ms.toNat) hc rfl rfl
  · refine gives_on (fun h => h.clkCtlWrite w) hh rfl ?_
    obtain ⟨hbut, hrd⟩ := s.hub.clkCtlWrite_but hw
    refine ⟨only_hub (by rw [hbut]) fun p hp => by rw [hbut]; cases p <;> first | rfl | simp at hp, fun a ha => ?_, ?_⟩
    · simp only [List.mem_cons, List.not_mem_nil, or_false, not_or] at ha
      exact hrd a ha.1 ha.2
    · have hglb : (s.hub.clkCtlSet w).glb = s.hub.glb := by rw [Hub.clkCtlSet_only]
      have hauto := s.hub.clkCtlSet_auto w
      have hevt : ∀ f, ((s.hub.clkCtlSet w).glbEvt f).fld Reg.GLB_CLK_CTL F.GLB_CLK_CTL_AUTO_RETURN = bits w F.GLB_CLK_CTL_AUTO_RETURN :=
        fun f => (Hub.fld_of_rd _ (Hub.rd_evt_ne _ _ (by decide))).trans hauto
      show (s.hub.clkCtlWrite w).fld _ _ = _ ∧ (_ → (s.hub.clkCtlWrite w).glb = _ ∧ (s.hub.clkCtlWrite w).flag _ _ = true) ∧
        (_ → _ → (s.hub.clkCtlWrite w).glb = _ ∧ (_ → (s.hub.clkCtlWrite w).flag _ _ = true))
      rw [Hub.clkCtlWrite_return hw]
      split
      next href =>
        refine ⟨hevt _, fun _ => ⟨hglb, Hub.flag_evt _ _ _ (by decide)⟩, fun hr hn => ?_⟩
        rw [hr, hn] at href
        simp at href
      next href =>
        split
        next hsrc => exact ⟨hauto, fun hr => absurd hr href, fun _ _ => ⟨by rw [hglb, ← hsrc], fun hne => absurd hsrc hne⟩⟩
        next hsrc =>
          exact ⟨hevt F.GLB_EVT_REF_RESTORED, fun hr => absurd hr href, fun _ _ => ⟨congrArg (fun g : GlbBlk => { g with src := 0 }) hglb,
            fun _ => Hub.flag_evt _ _ _ (by decide)⟩⟩

end Sys2Proof.Machine

/-! The resets, what they keep, and the boot (R333, R434, R471 to R474, R481, R482, R484, R487). -/

namespace Sys2Proof.Machine

/-! ## The levels outside the hub (R473) -/

/-- Bank `k`'s measured supply as `h` shows it. -/
def Hub.measure (h : Hub) (new : Hub) (k : Nat) : Hub :=
  new.setFld (Reg.LANE_BANK k) F.LANE_BANK_VIO_MEAS (h.fld (Reg.LANE_BANK k) F.LANE_BANK_VIO_MEAS)

theorem Hub.measure_foldl (h : Hub) : ∀ (l : List Nat) (new : Hub), (∀ k ∈ l, k < 8) →
    l.foldl h.measure new = { new with regs := (l.foldl h.measure new).regs } ∧
    ∀ a, (a < 0x46000 ∨ 0x46020 ≤ a) → (l.foldl h.measure new).rd a = new.rd a := by
  intro l
  induction l with
  | nil => exact fun new _ => ⟨rfl, fun _ _ => rfl⟩
  | cons k l ih =>
    intro new hl
    obtain ⟨hbut, hrd⟩ := ih (h.measure new k) fun j hj => hl j (List.mem_cons_of_mem _ hj)
    have hk := hl k List.mem_cons_self
    refine ⟨?_, fun a ha => (hrd a ha).trans (Hub.rd_setFld_ne _ _ _ ?_)⟩
    · rw [List.foldl_cons, hbut]
      rfl
    · simp only [Reg.LANE_BANK]
      omega

/-- What stands outside the hub is as before; everything else is the new hub's. -/
theorem Hub.outside_spec (h new : Hub) :
    h.outside new = { new with regs := (h.outside new).regs, now := h.now, freeCtr := h.freeCtr, out := h.out,
                               ln := { new.ln with pin := h.ln.pin, pinAt := h.ln.pinAt }, usb := { new.usb with vbus := h.usb.vbus },
                               glb := { new.glb with svcWp := h.glb.svcWp }, host := { new.host with perst := h.host.perst } } ∧
    ∀ a, (a < 0x46000 ∨ 0x46020 ≤ a) → (h.outside new).rd a = new.rd a := by
  obtain ⟨hbut, hrd⟩ := h.measure_foldl (List.range 8) new fun k hk => List.mem_range.1 hk
  have hout : h.outside new = { (List.range 8).foldl h.measure new with
      now := h.now, freeCtr := h.freeCtr, out := h.out, ln := { ((List.range 8).foldl h.measure new).ln with pin := h.ln.pin, pinAt := h.ln.pinAt },
      usb := { ((List.range 8).foldl h.measure new).usb with vbus := h.usb.vbus },
      glb := { ((List.range 8).foldl h.measure new).glb with svcWp := h.glb.svcWp },
      host := { ((List.range 8).foldl h.measure new).host with perst := h.host.perst } } := rfl
  refine ⟨?_, fun a ha => ?_⟩
  · rw [hout, hbut]
  · rw [hout]
    exact hrd a ha

theorem Hub.stageCut_spec (h : Hub) (was : Option Stage) : h.stageCut was = { h with regs := (h.stageCut was).regs } ∧
    ∀ a, a ≠ Reg.GLB_EVT → (h.stageCut was).rd a = h.rd a := by
  unfold Hub.stageCut
  split
  · exact ⟨rfl, fun a ha => Hub.rd_evt_ne _ _ ha⟩
  · exact ⟨rfl, fun _ _ => rfl⟩

/-- A register word of a hub that keeps those that `p` names. -/
theorem Hub.rd_kept (new : Hub) {t : Table Word} {p : Nat → Bool} (hr : new.regs = t.filter fun r => p r.1) (a : Nat) :
    new.rd a = if p a then tget (resetWord a) t a else resetWord a := by
  unfold Hub.rd
  rw [hr]
  exact tget_filter _ p t a

/-! ## Cold reset (R473) -/

/-- The part of the Net die's state that a cold reset leaves. -/
def Hub.netKept (h : Hub) : Hub := if h.net.hold then h else h.netReset

/-- The hub at the start of a cold reset, before its cause has been noted. -/
def Hub.coldNew (h : Hub) : Hub := h.outside { regs := h.netKept.regs.filter fun r => netPage r.1, net := h.netKept.net }

/-- The cause that a cold reset shows: of two that overlap, the one that stands first in R472's table. -/
def Hub.coldCause (h : Hub) (cause : Nat) : Nat :=
  if h.glb.inCold = true ∧ causeRank (h.fld Reg.GLB_RESET_CAUSE F.GLB_RESET_CAUSE_CAUSE) < causeRank cause then
    h.fld Reg.GLB_RESET_CAUSE F.GLB_RESET_CAUSE_CAUSE
  else cause

theorem Hub.startCold_eq (h : Hub) (cause : Nat) : h.startCold cause =
    ((h.coldNew.setFld Reg.GLB_RESET_CAUSE F.GLB_RESET_CAUSE_CAUSE (h.coldCause cause)).stageCut h.glb.stage).note true true := rfl

/-- A cold reset leaves the levels outside, the Net die's part, and the model's own records. -/
theorem Hub.startCold_but (h : Hub) (cause : Nat) : ∃ regs start, h.startCold cause =
    { now := h.now, freeCtr := h.freeCtr, out := h.out, regs := regs, net := h.netKept.net,
      ln := { pin := h.ln.pin, pinAt := h.ln.pinAt }, usb := { vbus := h.usb.vbus }, glb := { svcWp := h.glb.svcWp },
      host := { perst := h.host.perst }, start := start } := by
  obtain ⟨hout, -⟩ := h.outside_spec { regs := h.netKept.regs.filter fun r => netPage r.1, net := h.netKept.net }
  have hnew : ∃ regs, h.coldNew =
      { now := h.now, freeCtr := h.freeCtr, out := h.out, regs := regs, net := h.netKept.net,
        ln := { pin := h.ln.pin, pinAt := h.ln.pinAt }, usb := { vbus := h.usb.vbus }, glb := { svcWp := h.glb.svcWp },
        host := { perst := h.host.perst } } := ⟨_, hout⟩
  obtain ⟨regs, hnew⟩ := hnew
  rw [Hub.startCold_eq, (Hub.stageCut_spec _ _).1, hnew]
  exact ⟨_, _, rfl⟩

/-- Register words other than the Net die's are at their reset values. -/
theorem Hub.startCold_rd (h : Hub) (cause : Nat) {a : Nat} (hc : a ≠ Reg.GLB_RESET_CAUSE) (he : a ≠ Reg.GLB_EVT) (hb : a < 0x46000 ∨ 0x46020 ≤ a) :
    (h.startCold cause).rd a = if netPage a then h.netKept.rd a else resetWord a := by
  have hnew : h.coldNew.rd a = if netPage a then h.netKept.rd a else resetWord a :=
    ((h.outside_spec _).2 a hb).trans (Hub.rd_kept _ rfl a)
  exact ((Hub.stageCut_spec _ _).2 a he).trans ((Hub.rd_setFld_ne _ _ _ hc).trans hnew)

theorem Hub.netKept_held {h : Hub} (hn : h.net.hold = true) : h.netKept = h := if_pos hn

theorem Hub.netKept_reset {h : Hub} (hn : h.net.hold = false) : h.netKept.net.ch = [] ∧ ∀ a, netPage a = true → h.netKept.rd a = resetWord a := by
  have hk : h.netKept = h.netReset := if_neg (by rw [hn]; decide)
  rw [hk]
  refine ⟨rfl, fun a ha => ?_⟩
  rw [Hub.rd_kept h.netReset (t := h.regs) (p := fun a => !netPage a) rfl, ha]
  rfl

/-- The cause of a cold reset that does not fall into another shows in `GLB_RESET_CAUSE`. -/
theorem Hub.startCold_cause {h : Hub} {cause : Nat} (hc : h.glb.inCold = false) (hlt : cause < 16) :
    (h.startCold cause).fld Reg.GLB_RESET_CAUSE F.GLB_RESET_CAUSE_CAUSE = cause ∧
    (h.startCold cause).fld Reg.GLB_RESET_CAUSE F.GLB_RESET_CAUSE_WARM = 0 := by
  have hcause : h.coldCause cause = cause := if_neg (by rw [hc]; simp)
  have hrd : (h.startCold cause).rd Reg.GLB_RESET_CAUSE = (h.coldNew.setFld Reg.GLB_RESET_CAUSE F.GLB_RESET_CAUSE_CAUSE cause).rd Reg.GLB_RESET_CAUSE := by
    rw [Hub.startCold_eq, hcause]
    exact (Hub.stageCut_spec _ _).2 _ (by decide)
  have hnew : h.coldNew.rd Reg.GLB_RESET_CAUSE = resetWord Reg.GLB_RESET_CAUSE :=
    ((h.outside_spec _).2 _ (by decide)).trans ((Hub.rd_kept _ rfl _).trans (if_neg (by decide)))
  rw [Hub.fld_of_rd _ hrd, Hub.fld_of_rd _ hrd, Hub.fld_setFld _ _ _ _ (by decide), Hub.fld_setFld_ne _ _ _ _ _ (by decide)]
  refine ⟨Nat.mod_eq_of_lt hlt, ?_⟩
  unfold Hub.fld
  rw [hnew]
  decide

/-- Settles the cold resets of O51. -/
theorem coldReset_gives (s : State) (i : Instr) (cause : Nat) (hi : (i, cause) = (.powerFail, 0) ∨ (i, cause) = (.rstNLow, 1)) :
    Gives i s fun t => t.pending = s.pending ∧ t.nv = s.nv ∧ t.hub.now = s.hub.now ∧ t.hub.held = true ∧
      (∀ a, 0x8000 ≤ a → netPage a = false → (a < 0x46000 ∨ 0x46200 ≤ a) → t.hub.rd a = resetWord a) ∧
      (s.hub.net.hold = true → t.hub.net = s.hub.net ∧ ∀ a, netPage a = true → t.hub.rd a = s.hub.rd a) ∧
      (s.hub.net.hold = false → t.hub.net.ch = [] ∧ ∀ a, netPage a = true → t.hub.rd a = resetWord a) ∧
      (s.hub.glb.inCold = false → t.hub.fld Reg.GLB_RESET_CAUSE F.GLB_RESET_CAUSE_CAUSE = cause ∧
        t.hub.fld Reg.GLB_RESET_CAUSE F.GLB_RESET_CAUSE_WARM = 0) ∧
      t.hub.tim = {} ∧ t.hub.twin = {} ∧ t.hub.ring = {} ∧ t.hub.swc = {} ∧ t.hub.tm = {} ∧ t.hub.pt = {} ∧ t.hub.car = {} ∧
      t.hub.fret = {} ∧ t.hub.can = {} ∧ t.hub.chk = {} := by
  obtain ⟨he, hlt⟩ : exec i s = s.onAny (fun h => h.startCold cause) ∧ cause < 16 := by
    obtain hi | hi := hi <;> obtain ⟨rfl, rfl⟩ := Prod.mk.inj hi <;> exact ⟨rfl, by decide⟩
  refine gives_any (fun h => h.startCold cause) he ?_
  obtain ⟨regs, start, hbut⟩ := s.hub.startCold_but cause
  have hnet : (s.hub.startCold cause).net = s.hub.netKept.net := by rw [hbut]
  have hpage : ∀ a, netPage a = true → (s.hub.startCold cause).rd a = s.hub.netKept.rd a := fun a ha => by
    have hin : 0x68000 ≤ a ∧ a < 0x6C000 := by simpa [netPage] using ha
    rw [Hub.startCold_rd _ _ (by simp only [Reg.GLB_RESET_CAUSE]; omega) (by simp only [Reg.GLB_EVT]; omega) (by omega), ha]
    rfl
  refine ⟨rfl, rfl, by rw [hbut], Hub.held_of_inCold (by rw [hbut]), fun a hlo hn hb => ?_, fun hn => ?_, fun hn => ?_,
    fun hc => Hub.startCold_cause hc hlt, by rw [hbut], by rw [hbut], by rw [hbut], by rw [hbut], by rw [hbut], by rw [hbut], by rw [hbut],
    by rw [hbut], by rw [hbut], by rw [hbut]⟩
  · rw [Hub.startCold_rd _ _ (by simp only [Reg.GLB_RESET_CAUSE]; omega) (by simp only [Reg.GLB_EVT]; omega) (by omega), hn]
    rfl
  · rw [Hub.netKept_held hn] at hnet hpage
    exact ⟨hnet, hpage⟩
  · obtain ⟨hch, hreset⟩ := Hub.netKept_reset hn
    exact ⟨(congrArg NetBlk.ch hnet).trans hch, fun a ha => (hpage a ha).trans (hreset a ha)⟩

/-! ## Warm reset (R333, R473) -/

/-- The time bases across a warm reset. -/
def Hub.warmBases (h : Hub) : Table TimeBase := (List.range 4).foldl (fun t b => tset ({} : TimeBase) t b (h.warmBase b)) []

/-- The hub at the start of a warm reset, before its cause has been noted. -/
def Hub.warmNew (h : Hub) : Hub :=
  h.outside { regs := h.regs.filter fun r => h.warmKeeps r.1, net := h.net, tim := { base := h.warmBases }, host := h.host.warm,
              glb := { inCold := false, pllLock := h.glb.pllLock, src := h.glb.src, refOk := h.glb.refOk } }

/-- `WD_RUN` once a warm reset of a cause has begun (R482). -/
def Hub.warmRun (h : Hub) (cause : Nat) : Nat :=
  if (cause == 6 && h.ready && decide (h.now ≤ h.glb.readyAt + 10 * tuS)) = true then
    min 3 (h.fld Reg.GLB_RESET_CAUSE F.GLB_RESET_CAUSE_WD_RUN + 1)
  else h.fld Reg.GLB_RESET_CAUSE F.GLB_RESET_CAUSE_WD_RUN

theorem Hub.startWarm_eq (h : Hub) (cause : Nat) : h.startWarm cause =
    ((h.warmNew.wr Reg.GLB_RESET_CAUSE (word (cause + 16 + h.warmRun cause * 32))).count Reg.GLB_CNT_WARM).stageCut h.glb.stage := rfl

theorem Hub.warmNew_but (h : Hub) : ∃ regs, h.warmNew =
    { now := h.now, freeCtr := h.freeCtr, out := h.out, regs := regs, net := h.net, tim := { base := h.warmBases },
      ln := { pin := h.ln.pin, pinAt := h.ln.pinAt }, usb := { vbus := h.usb.vbus },
      glb := { inCold := false, pllLock := h.glb.pllLock, src := h.glb.src, refOk := h.glb.refOk, svcWp := h.glb.svcWp },
      host := { h.host.warm with perst := h.host.perst } } := ⟨_, (h.outside_spec _).1⟩

/-- A warm reset leaves the levels outside, the Net die, the time bases, and the live PCIe link. -/
theorem Hub.startWarm_but (h : Hub) (cause : Nat) : ∃ regs, h.startWarm cause =
    { now := h.now, freeCtr := h.freeCtr, out := h.out, regs := regs, net := h.net, tim := { base := h.warmBases },
      ln := { pin := h.ln.pin, pinAt := h.ln.pinAt }, usb := { vbus := h.usb.vbus },
      glb := { inCold := false, pllLock := h.glb.pllLock, src := h.glb.src, refOk := h.glb.refOk, svcWp := h.glb.svcWp },
      host := { h.host.warm with perst := h.host.perst } } := by
  obtain ⟨regs, hnew⟩ := h.warmNew_but
  rw [Hub.startWarm_eq, (Hub.stageCut_spec _ _).1, hnew]
  exact ⟨_, rfl⟩

theorem Hub.warmNew_rd (h : Hub) {a : Nat} (hb : a < 0x46000 ∨ 0x46020 ≤ a) : h.warmNew.rd a = if h.warmKeeps a then h.rd a else resetWord a :=
  ((h.outside_spec _).2 a hb).trans (Hub.rd_kept _ rfl a)

theorem Hub.startWarm_rd (h : Hub) (cause : Nat) {a : Nat} (hc : a ≠ Reg.GLB_RESET_CAUSE) (hn : a ≠ Reg.GLB_CNT_WARM) (he : a ≠ Reg.GLB_EVT)
    (hb : a < 0x46000 ∨ 0x46020 ≤ a) : (h.startWarm cause).rd a = if h.warmKeeps a then h.rd a else resetWord a := by
  rw [Hub.startWarm_eq]
  exact ((Hub.stageCut_spec _ _).2 a he).trans ((Hub.rd_count_ne _ hn).trans ((Hub.rd_wr_ne _ _ hc).trans (h.warmNew_rd hb)))

theorem Hub.tb_warmBases {h : Hub} {b : Nat} (hb : b < 4) : tget ({} : TimeBase) h.warmBases b = h.warmBase b := by
  unfold Hub.warmBases
  interval_cases b <;> simp [List.range_succ, tget_tset]

theorem bits_word_cause {c r : Nat} (hc : c < 16) : bits (word (c + 16 + r * 32)) (0, 4) = c ∧ bits (word (c + 16 + r * 32)) (4, 1) = 1 := by
  unfold bits bitsN word
  rw [BitVec.toNat_ofNat]
  show (c + 16 + r * 32) % 4294967296 / 1 % 16 = c ∧ (c + 16 + r * 32) % 4294967296 / 16 % 2 = 1
  omega

/-- Settles the start of a warm reset, of O51. -/
theorem startWarm_keeps (h : Hub) (c : Nat) (hc : c < 16) :
    let k := h.startWarm c
    k.now = h.now ∧ k.net = h.net ∧ k.fld Reg.GLB_RESET_CAUSE F.GLB_RESET_CAUSE_CAUSE = c ∧
    k.fld Reg.GLB_RESET_CAUSE F.GLB_RESET_CAUSE_WARM = 1 ∧
    k.rd Reg.GLB_CNT_WARM = word (min 0xFFFFFFFF ((h.rd Reg.GLB_CNT_WARM).toNat + 1)) ∧
    k.rd Reg.GLB_STRAPS = h.rd Reg.GLB_STRAPS ∧ (∀ a, netPage a = true ∨ timeKept a = true → k.rd a = h.rd a) ∧
    (∀ b, b < 4 → (k.tb b).ns = (h.tb b).ns ∧ ((k.tb b).servo = .unset ↔ (h.tb b).servo = .unset)) ∧
    (∀ a, 0x10000 ≤ a → netPage a = false → (a < 0x46000 ∨ 0x46200 ≤ a) → k.rd a = resetWord a) ∧
    k.ring = {} ∧ k.swc = {} ∧ k.tm = {} ∧ k.pt = {} ∧ k.car = {} ∧ k.fret = {} ∧ k.can = {} := by
  intro k
  obtain ⟨regs, hbut⟩ := h.startWarm_but c
  have hk : k = _ := hbut
  have hcause : k.rd Reg.GLB_RESET_CAUSE = word (c + 16 + h.warmRun c * 32) :=
    ((Hub.stageCut_spec _ _).2 _ (by decide)).trans ((Hub.rd_count_ne _ (by decide)).trans (Hub.rd_wr_same _ _ _))
  obtain ⟨hbits, hwarm⟩ := bits_word_cause (r := h.warmRun c) hc
  refine ⟨by rw [hk], by rw [hk], (congrArg (bits · _) hcause).trans hbits, (congrArg (bits · _) hcause).trans hwarm, ?_, ?_, fun a ha => ?_,
    fun b hb => ?_, fun a hlo hn hb => ?_, by rw [hk], by rw [hk], by rw [hk], by rw [hk], by rw [hk], by rw [hk], by rw [hk]⟩
  · have hcnt : (h.warmNew.wr Reg.GLB_RESET_CAUSE (word (c + 16 + h.warmRun c * 32))).rd Reg.GLB_CNT_WARM = h.rd Reg.GLB_CNT_WARM :=
      (Hub.rd_wr_ne _ _ (by decide)).trans ((h.warmNew_rd (by decide)).trans (if_pos (by simp [Hub.warmKeeps])))
    refine ((Hub.stageCut_spec _ _).2 _ (by decide)).trans
      ((Hub.rd_count (h.warmNew.wr Reg.GLB_RESET_CAUSE (word (c + 16 + h.warmRun c * 32))) _).trans ?_)
    rw [hcnt]
  · refine (h.startWarm_rd c (by decide) (by decide) (by decide) (by decide)).trans (if_pos (by simp [Hub.warmKeeps]))
  · have hin : 0x8100 ≤ a ∧ (a < 0x8200 ∨ 0x68000 ≤ a) := by
      obtain ha | ha := ha
      · have hpage : 0x68000 ≤ a ∧ a < 0x6C000 := by simpa [netPage] using ha
        omega
      · have htime : (0x8100 ≤ a ∧ a < 0x8200) ∧ (a - 0x8100) % 0x40 < 0x10 := by simpa [timeKept] using ha
        omega
    have hkeep : h.warmKeeps a = true := by
      unfold Hub.warmKeeps
      obtain ha | ha := ha <;> simp [ha]
    refine (h.startWarm_rd c ?_ ?_ ?_ (by omega)).trans (if_pos hkeep) <;> simp only [Reg.GLB_RESET_CAUSE, Reg.GLB_CNT_WARM, Reg.GLB_EVT] <;> omega
  · have htb : k.tb b = h.warmBase b := by
      rw [hk]
      exact Hub.tb_warmBases hb
    rw [htb]
    refine ⟨rfl, ?_⟩
    unfold Hub.warmBase
    dsimp only
    split
    next hu => simp [hu]
    next hu => split <;> simp [hu]
  · have hdrop : h.warmKeeps a = false := by
      have h1 : timeKept a = false := by unfold timeKept; simp; omega
      have h2 : msixPage a = false := by unfold msixPage; simp; omega
      unfold Hub.warmKeeps
      simp only [hn, h1, h2, Bool.and_false, Bool.or_false, Bool.false_or, Bool.or_eq_false_iff, beq_eq_false_iff_ne,
        Reg.GLB_STRAPS, Reg.GLB_RESET_CAUSE, Reg.GLB_CNT_WARM]
      omega
    refine (h.startWarm_rd c ?_ ?_ ?_ (by omega)).trans (if_neg (by rw [hdrop]; decide)) <;>
      simp only [Reg.GLB_RESET_CAUSE, Reg.GLB_CNT_WARM, Reg.GLB_EVT] <;> omega

/-! ## The slots of the image (R481, R482, R487) -/

/-- The slot booted is the first in order whose checks all pass. -/
theorem trySlots_snd (nv : NonVol) (stepping : Nat) : ∀ l : List Nat,
    (trySlots nv stepping l).2 = l.find? fun x => decide (slotResult nv stepping x = 0) := by
  intro l
  induction l with
  | nil => rfl
  | cons x xs ih =>
    unfold trySlots
    dsimp only
    split
    next h0 => rw [List.find?_cons_of_pos (by simpa using h0)]
    next h0 =>
      rw [List.find?_cons_of_neg (by simpa using h0)]
      exact ih

theorem Hub.bootOrder_lt (h : Hub) (nv : NonVol) : ∀ x ∈ (h.bootOrder nv).1, x < 2 := by
  unfold Hub.bootOrder
  have hfirst : ∀ p : Prop, [Decidable p] → (if p then 1 else 0) < 2 := fun p _ => by split <;> decide
  split
  · have hf := hfirst (shownSeq nv 0 < shownSeq nv 1)
    dsimp only
    split <;> intro x hx <;> simp only [List.mem_cons, List.not_mem_nil, or_false] at hx <;> omega
  · simp
  · simp
  · simp

/-- The hub that has judged the slots: what it shows of them. -/
def Hub.slotsJudged (h : Hub) (nv : NonVol) : Hub :=
  let o := (h.bootOrder nv).1
  let r := (trySlots nv (h.fld Reg.GLB_ID F.GLB_ID_STEPPING) o).1
  let res := fun s => if o.contains s then tget 0 r s else 0xF
  (((h.wr Reg.GLB_SEQ_A (word (shownSeq nv 0))).wr Reg.GLB_SEQ_B (word (shownSeq nv 1))).setFld Reg.GLB_BOOT F.GLB_BOOT_RESULT_A (res 0)).setFld
    Reg.GLB_BOOT F.GLB_BOOT_RESULT_B (res 1)

theorem Hub.slotsJudged_spec (h : Hub) (nv : NonVol) : (h.slotsJudged nv).glb = h.glb ∧ (h.slotsJudged nv).twin = h.twin ∧
    (h.slotsJudged nv).fld Reg.GLB_BOOT F.GLB_BOOT_BOOT_SLOT = h.fld Reg.GLB_BOOT F.GLB_BOOT_BOOT_SLOT := by
  refine ⟨rfl, rfl, (Hub.fld_setFld_ne _ _ _ _ _ (by decide)).trans ((Hub.fld_setFld_ne _ _ _ _ _ (by decide)).trans ?_)⟩
  exact Hub.fld_of_rd _ ((Hub.rd_wr_ne _ _ (by decide)).trans (Hub.rd_wr_ne _ _ (by decide)))

/-- The fallback that a boot shows (R482). -/
def Hub.showFallback (h : Hub) (two watchdog : Bool) : Hub :=
  let h := if two then (h.setFld Reg.GLB_BOOT F.GLB_BOOT_FALLBACK_WHY 1).glbEvt F.GLB_EVT_FALLBACK else h
  let h := if watchdog then h.setFld Reg.GLB_BOOT F.GLB_BOOT_FALLBACK_WHY 2 else h
  if two = true ∨ watchdog = true then h.setFld Reg.GLB_BOOT F.GLB_BOOT_FALLBACK 1 else h

theorem Hub.showFallback_spec (h : Hub) (two watchdog : Bool) : h.showFallback two watchdog = { h with regs := (h.showFallback two watchdog).regs } ∧
    (h.showFallback two watchdog).fld Reg.GLB_BOOT F.GLB_BOOT_BOOT_SLOT = h.fld Reg.GLB_BOOT F.GLB_BOOT_BOOT_SLOT := by
  have hwhy : ∀ (k : Hub) v, (k.setFld Reg.GLB_BOOT F.GLB_BOOT_FALLBACK_WHY v).fld Reg.GLB_BOOT F.GLB_BOOT_BOOT_SLOT =
      k.fld Reg.GLB_BOOT F.GLB_BOOT_BOOT_SLOT := fun k v => Hub.fld_setFld_ne _ _ _ _ _ (by decide)
  have hfall : ∀ k : Hub, (k.setFld Reg.GLB_BOOT F.GLB_BOOT_FALLBACK 1).fld Reg.GLB_BOOT F.GLB_BOOT_BOOT_SLOT =
      k.fld Reg.GLB_BOOT F.GLB_BOOT_BOOT_SLOT := fun k => Hub.fld_setFld_ne _ _ _ _ _ (by decide)
  have hevt : ∀ k : Hub, (k.glbEvt F.GLB_EVT_FALLBACK).fld Reg.GLB_BOOT F.GLB_BOOT_BOOT_SLOT = k.fld Reg.GLB_BOOT F.GLB_BOOT_BOOT_SLOT :=
    fun k => Hub.fld_of_rd _ (Hub.rd_evt_ne _ _ (by decide))
  unfold Hub.showFallback
  cases two <;> cases watchdog
  · exact ⟨rfl, rfl⟩
  · exact ⟨rfl, (hfall _).trans (hwhy _ _)⟩
  · exact ⟨rfl, (hfall _).trans ((hevt _).trans (hwhy _ _))⟩
  · exact ⟨rfl, (hfall _).trans ((hwhy _ _).trans ((hevt _).trans (hwhy _ _)))⟩

/-- A boot with no valid slot ends in recovery (R487). -/
theorem Hub.bootSlots_none {h : Hub} {nv : NonVol} (hn : (trySlots nv (h.fld Reg.GLB_ID F.GLB_ID_STEPPING) (h.bootOrder nv).1).2 = none) :
    h.bootSlots nv = ((h.slotsJudged nv).setFld Reg.GLB_BOOT F.GLB_BOOT_RECOVERY 1).setReady := by
  unfold Hub.bootSlots
  dsimp only
  rw [hn]
  rfl

/-- A hub that boots from slot `x`. -/
def Hub.booting (h : Hub) (nv : NonVol) (x : Nat) (two watchdog : Bool) : Hub :=
  let k := (h.setFld Reg.GLB_BOOT F.GLB_BOOT_BOOT_SLOT x).showFallback two watchdog
  let g := k.setGlb { k.glb with booted := some x, script := some { secs := slotScripts nv x, off := 0, rec_ := 0, wait := none, cmdAt := none } }
  { g with twin := { g.twin with image := slotCrc nv x } }

/-- A boot from a slot. -/
theorem Hub.bootSlots_some {h : Hub} {nv : NonVol} {x : Nat} (hx : (trySlots nv (h.fld Reg.GLB_ID F.GLB_ID_STEPPING) (h.bootOrder nv).1).2 = some x) :
    ∃ two, h.bootSlots nv = (h.slotsJudged nv).booting nv x two (h.bootOrder nv).2 := by
  refine ⟨decide ((trySlots nv (h.fld Reg.GLB_ID F.GLB_ID_STEPPING) (h.bootOrder nv).1).1.length = 2), ?_⟩
  unfold Hub.bootSlots Hub.booting Hub.showFallback
  dsimp only
  rw [hx]
  simp only [decide_eq_true_eq]
  rfl

theorem Hub.setReady_fld (h : Hub) (a : Nat) (f : Nat × Nat) : h.setReady.fld a f = (h.setFld Reg.GLB_BOOT F.GLB_BOOT_READY 1).fld a f := rfl

/-- A hub in recovery has booted no slot and runs no script. -/
theorem Hub.recovered_takes (h : Hub) :
    let k := (h.setFld Reg.GLB_BOOT F.GLB_BOOT_RECOVERY 1).setReady
    k.glb.booted = h.glb.booted ∧ k.twin = h.twin ∧ k.glb.script = none ∧
    k.fld Reg.GLB_BOOT F.GLB_BOOT_BOOT_SLOT = h.fld Reg.GLB_BOOT F.GLB_BOOT_BOOT_SLOT := by
  intro k
  refine ⟨rfl, rfl, rfl, ?_⟩
  show Hub.fld (Hub.setReady _) _ _ = _
  rw [Hub.setReady_fld, Hub.fld_setFld_ne _ _ _ _ _ (by decide), Hub.fld_setFld_ne _ _ _ _ _ (by decide)]

/-- A hub that boots from a slot names it and starts its scripts. -/
theorem Hub.booting_takes (h : Hub) (nv : NonVol) {x : Nat} (two watchdog : Bool) (hx : x < 2) :
    let k := h.booting nv x two watchdog
    k.glb.booted = some x ∧ k.twin.image = slotCrc nv x ∧
    k.glb.script = some { secs := slotScripts nv x, off := 0, rec_ := 0, wait := none, cmdAt := none } ∧
    k.fld Reg.GLB_BOOT F.GLB_BOOT_BOOT_SLOT = x := by
  intro k
  refine ⟨rfl, rfl, rfl, ?_⟩
  have hfld : k.fld Reg.GLB_BOOT F.GLB_BOOT_BOOT_SLOT =
      ((h.setFld Reg.GLB_BOOT F.GLB_BOOT_BOOT_SLOT x).showFallback two watchdog).fld Reg.GLB_BOOT F.GLB_BOOT_BOOT_SLOT := rfl
  rw [hfld, (Hub.showFallback_spec _ _ _).2, Hub.fld_setFld _ _ _ _ (by decide)]
  exact Nat.mod_eq_of_lt hx

/-- Settles the recovery of O51. -/
theorem bootSlots_recovery (h : Hub) (nv : NonVol) (hn : (trySlots nv (h.fld Reg.GLB_ID F.GLB_ID_STEPPING) (h.bootOrder nv).1).2 = none) :
    (h.bootSlots nv).flag Reg.GLB_BOOT F.GLB_BOOT_RECOVERY = true ∧ (h.bootSlots nv).ready = true ∧ (h.bootSlots nv).hostOpen = false := by
  rw [Hub.bootSlots_none hn]
  have hready : ((h.slotsJudged nv).setFld Reg.GLB_BOOT F.GLB_BOOT_RECOVERY 1).setReady.ready = true := by
    unfold Hub.ready Hub.flag
    rw [Hub.setReady_fld, Hub.fld_setFld _ _ _ _ (by decide)]
    decide
  have hrec : ((h.slotsJudged nv).setFld Reg.GLB_BOOT F.GLB_BOOT_RECOVERY 1).setReady.flag Reg.GLB_BOOT F.GLB_BOOT_RECOVERY = true := by
    unfold Hub.flag
    rw [Hub.setReady_fld, Hub.fld_setFld_ne _ _ _ _ _ (by decide), Hub.fld_setFld _ _ _ _ (by decide)]
    decide
  refine ⟨hrec, hready, ?_⟩
  unfold Hub.hostOpen
  rw [hrec]
  exact Bool.and_false _

/-- What a boot shows of the slot that it has found. -/
theorem Hub.bootSlots_found {h : Hub} {nv : NonVol} {got : Option Nat}
    (hg : (trySlots nv (h.fld Reg.GLB_ID F.GLB_ID_STEPPING) (h.bootOrder nv).1).2 = got) (hlt : ∀ x ∈ got, x < 2) :
    (h.bootSlots nv).glb.booted = got.or h.glb.booted ∧
    (h.bootSlots nv).twin.image = (got.map (slotCrc nv)).getD h.twin.image ∧
    (h.bootSlots nv).fld Reg.GLB_BOOT F.GLB_BOOT_BOOT_SLOT = got.getD (h.fld Reg.GLB_BOOT F.GLB_BOOT_BOOT_SLOT) ∧
    (h.bootSlots nv).glb.script = got.map fun x => { secs := slotScripts nv x, off := 0, rec_ := 0, wait := none, cmdAt := none } := by
  cases got with
  | none =>
    obtain ⟨hglb, htwin, hslot⟩ := h.slotsJudged_spec nv
    obtain ⟨hbooted, himage, hscript, hfld⟩ := (h.slotsJudged nv).recovered_takes
    rw [Hub.bootSlots_none hg]
    exact ⟨hbooted.trans (congrArg GlbBlk.booted hglb), (congrArg TwinBlk.image himage).trans (congrArg TwinBlk.image htwin), hfld.trans hslot, hscript⟩
  | some x =>
    obtain ⟨two, hboot⟩ := Hub.bootSlots_some hg
    obtain ⟨hbooted, himage, hscript, hfld⟩ := (h.slotsJudged nv).booting_takes nv two (h.bootOrder nv).2 (hlt x rfl)
    rw [hboot, Option.map_some, Option.map_some, Option.getD_some, Option.getD_some, Option.some_or]
    exact ⟨hbooted, himage, hfld, hscript⟩

/-- Settles the boot of O51. -/
theorem bootSlots_takes (h : Hub) (nv : NonVol) :
    let got := (h.bootOrder nv).1.find? fun x => decide (slotResult nv (h.fld Reg.GLB_ID F.GLB_ID_STEPPING) x = 0)
    let k := h.bootSlots nv
    (trySlots nv (h.fld Reg.GLB_ID F.GLB_ID_STEPPING) (h.bootOrder nv).1).2 = got ∧ k.glb.booted = got.or h.glb.booted ∧
    k.twin.image = (got.map (slotCrc nv)).getD h.twin.image ∧
    k.fld Reg.GLB_BOOT F.GLB_BOOT_BOOT_SLOT = got.getD (h.fld Reg.GLB_BOOT F.GLB_BOOT_BOOT_SLOT) ∧
    k.glb.script = got.map fun x => { secs := slotScripts nv x, off := 0, rec_ := 0, wait := none, cmdAt := none } :=
  have hgot := trySlots_snd nv (h.fld Reg.GLB_ID F.GLB_ID_STEPPING) (h.bootOrder nv).1
  ⟨hgot, Hub.bootSlots_found hgot fun x hx => h.bootOrder_lt nv x (List.mem_of_find?_eq_some hx)⟩

theorem bits_straps (x : Half) : (bits (word x.toNat) F.GLB_STRAPS_NET_HOLD != 0) = testBit x.toNat 13 := by
  have hlt : x.toNat < 65536 := x.isLt
  have hbits : bits (word x.toNat) F.GLB_STRAPS_NET_HOLD = x.toNat / 8192 % 2 := by
    unfold bits bitsN word
    rw [BitVec.toNat_ofNat]
    show x.toNat % 4294967296 / 8192 % 2 = _
    omega
  have hbit : testBit x.toNat 13 = decide (x.toNat / 8192 % 2 = 1) := rfl
  rw [hbits, hbit, Bool.eq_iff_iff, bne_iff_ne, decide_eq_true_eq]
  omega

/-- Settles O51, clause by clause. -/
theorem resetsAndBoot : Obligations.ResetsAndBoot := by
  unfold Obligations.ResetsAndBoot
  refine ⟨coldReset_gives, fun s straps hc => ?_, fun s straps hc => ?_, fun s c hh hf => ?_, fun s hh => ?_, startWarm_keeps, fun s hp => ?_,
    bootSlots_recovery, bootSlots_takes, fun s hh hr ht => ?_⟩
  · intro g k
    have hhold : k.flag Reg.GLB_STRAPS F.GLB_STRAPS_NET_HOLD = testBit straps.toNat 13 := by
      unfold Hub.flag Hub.fld
      rw [Hub.rd_wr_same]
      exact bits_straps straps
    refine makes_any (fun h => h.coldEnd s.nv straps) rfl ?_
    rw [← hhold]
    exact if_neg (by rw [hc]; decide)
  · exact makes_any (fun h => h.coldEnd s.nv straps) rfl (if_pos hc)
  · refine makes_on (fun h => h.warmDue s.nv) hh rfl ?_
    unfold Hub.warmDue
    rw [hf]
  · refine makes_on (fun h => h.askWarm 6) hh rfl ?_
    exact if_neg (by rw [(Hub.held_of hh).1]; decide)
  · exact makes_any (fun h => h.pllRelock s.nv) rfl (if_pos hp)
  · refine gives_on Hub.wdRunClear hh rfl ?_
    have hdue : s.hub.wdRunClear = s.hub.setFld Reg.GLB_RESET_CAUSE F.GLB_RESET_CAUSE_WD_RUN 0 := if_pos ⟨hr, ht⟩
    rw [hdue]
    refine ⟨only_hub rfl fun p hp => by cases p <;> first | rfl | simp at hp, fun a ha => Hub.rd_setFld_ne _ _ _ (by simpa using ha),
      Hub.fld_setFld _ _ _ _ (by decide), Hub.fld_setFld_ne _ _ _ _ _ (by decide)⟩

end Sys2Proof.Machine

/-! Net channels: how a channel's state changes, the commands on a mask of channels, the die's link, clock and supply, and the gate test
(R419 to R438). -/

namespace Sys2Proof.Machine

/-- Where the Net die sees it, the hub that a happening makes is the one its meaning makes. -/
theorem makes_net {i : Instr} {s : State} {h : Hub} (f : Hub → Hub) (hl : s.hub.glb.inCold = false ∨ s.hub.net.hold = true)
    (he : exec i s = s.onNet f) (hf : f s.hub = h) : Makes i s h := by
  have hseen : (s.hub.glb.inCold && !s.hub.net.hold) = false := by
    obtain hc | hn := hl
    · rw [hc]; rfl
    · rw [hn, Bool.not_true, Bool.and_false]
  rw [Makes, he, State.onNet, hseen, ← hf]
  rfl

/-! ## Changes of a channel's state (R420) -/

theorem Hub.netTo_net1 (h : Hub) (n : Nat) (st : NetSt) (m : Nat) :
    (h.netTo n st).net1 m = if m = n then { h.net1 n with st := st, at_ := h.now } else h.net1 m := by
  have hset := h.net1_setNet n m { h.net1 n with st := st, at_ := h.now }
  unfold Hub.netTo
  dsimp only
  split <;> split <;> exact hset

theorem Hub.netTo_now (h : Hub) (n : Nat) (st : NetSt) : (h.netTo n st).now = h.now := by
  unfold Hub.netTo
  dsimp only
  split <;> split <;> rfl

theorem Hub.netTo_rd (h : Hub) {n a : Nat} (st : NetSt) (ha : a ≠ Reg.NET_N_EVT n) : (h.netTo n st).rd a = h.rd a := by
  have hevt : ∀ (k : Hub) f, (k.netEvt n f).rd a = k.rd a := fun k f => Hub.rd_evt_ne _ _ ha
  unfold Hub.netTo
  dsimp only
  split <;> split
  · exact hevt _ _
  · exact (hevt _ _).trans (hevt _ _)
  · rfl
  · exact hevt _ _

theorem Hub.pgDown_net1 (h : Hub) (n m : Nat) : (h.pgDown n).net1 m = if m = n then { h.net1 n with pg := false } else h.net1 m := by
  unfold Hub.pgDown
  dsimp only
  split
  next => exact h.net1_setNet n m { h.net1 n with pg := false }
  next hp =>
    have hpg : (h.net1 n).pg = false := by simpa using hp
    split
    next he => rw [he, ← hpg]
    next => rfl

theorem Hub.pgDown_rd (h : Hub) {n a : Nat} (ha : a ≠ Reg.NET_N_EVT n) : (h.pgDown n).rd a = h.rd a := by
  unfold Hub.pgDown
  dsimp only
  split
  · exact Hub.rd_evt_ne _ _ ha
  · rfl

theorem Hub.pgDown_now (h : Hub) (n : Nat) : (h.pgDown n).now = h.now := by
  unfold Hub.pgDown
  dsimp only
  split <;> rfl

/-! ## Other channels are left alone -/

theorem Hub.netRamp_net1_ne (h : Hub) {n m : Nat} (hm : m ≠ n) : (h.netRamp n).net1 m = h.net1 m := by
  refine (Hub.net1_setNet _ n m _).trans ((if_neg hm).trans ?_)
  rw [Hub.netTo_net1, if_neg hm]

theorem Hub.netGo_net1_ne (h : Hub) {n m : Nat} (hm : m ≠ n) : (h.netGo n).net1 m = h.net1 m := by
  unfold Hub.netGo
  dsimp only
  split
  · split
    · exact h.netRamp_net1_ne hm
    · rw [Hub.netTo_net1, if_neg hm]
  · rfl

theorem Hub.netWait_net1_ne (h : Hub) {n m : Nat} (again : Bool) (hm : m ≠ n) : (h.netWait n again).net1 m = h.net1 m := by
  unfold Hub.netWait
  dsimp only
  rw [Hub.netGo_net1_ne _ hm, Hub.net1_setNet, if_neg hm, Hub.netTo_net1, if_neg hm]

theorem Hub.netOn_net1_ne (h : Hub) {n m : Nat} (hm : m ≠ n) : (h.netOn n).net1 m = h.net1 m := by
  have hset : (h.setNet n { h.net1 n with retries := 0, cause := 0 }).net1 m = h.net1 m := (h.net1_setNet n m _).trans (if_neg hm)
  unfold Hub.netOn
  dsimp only
  split
  · rw [Hub.netTo_net1, if_neg hm, hset]
  · rw [Hub.netWait_net1_ne _ _ hm, hset]

theorem Hub.netOff_net1_ne (h : Hub) {n m : Nat} (hm : m ≠ n) : (h.netOff n).net1 m = h.net1 m := by
  unfold Hub.netOff
  dsimp only
  split
  · rfl
  · rw [Hub.netTo_net1, if_neg hm, Hub.pgDown_net1, if_neg hm]

theorem Hub.netClear_net1_ne (h : Hub) {n m : Nat} (hm : m ≠ n) : (h.netClear n).net1 m = h.net1 m := by
  unfold Hub.netClear
  split
  · rw [Hub.netTo_net1, if_neg hm, Hub.net1_setNet, if_neg hm]
  · rfl

/-! ## Commands (R433) -/

theorem Hub.netClear_latched {h : Hub} {n : Nat} (hs : (h.net1 n).st = .latched) :
    ((h.netClear n).net1 n).st = .off ∧ ((h.netClear n).net1 n).board = false := by
  unfold Hub.netClear
  rw [if_pos hs, Hub.netTo_net1, if_pos rfl, Hub.net1_setNet_same]
  exact ⟨rfl, rfl⟩

theorem Hub.netOff_running {h : Hub} {n : Nat} (hs : (h.net1 n).st.stopped = false) :
    ((h.netOff n).net1 n).st = .off ∧ ((h.netOff n).net1 n).pg = false := by
  unfold Hub.netOff
  dsimp only
  rw [if_neg (by rw [hs]; decide), Hub.netTo_net1, if_pos rfl, Hub.pgDown_net1, if_pos rfl]
  exact ⟨rfl, rfl⟩

theorem Hub.netHap_cmdOff_running {h : Hub} {n : Nat} (hs : (h.net1 n).st.stopped = false) : h.netHap n .cmdOff = h.netOff n := by
  refine if_neg fun hl => ?_
  rw [hl.1] at hs
  exact absurd hs (by decide)

/-- What the commands of a channel do to it, and that they leave the others. -/
theorem Hub.netHap_commands (h : Hub) (n : Nat) :
    let x := h.net1 n
    let k := h.setNet n { x with retries := 0, cause := 0 }
    (x.canOn = true → h.netHap n .cmdOn =
      (if h.netCfg n F.NET_N_CFG_PRES_EN = true ∧ x.present = false then k.netTo n .removed else k.netWait n false)) ∧
    (x.canOn = false → h.netHap n .cmdOn = h) ∧
    (x.st.stopped = false → ((h.netHap n .cmdOff).net1 n).st = .off ∧ ((h.netHap n .cmdOff).net1 n).pg = false) ∧
    (x.st = .latched → x.board = false → ((h.netHap n .cmdOff).net1 n).st = .off) ∧
    (x.st = .latched → ((h.netHap n .cmdClear).net1 n).st = .off ∧ ((h.netHap n .cmdClear).net1 n).board = false) ∧
    ∀ m y, m ≠ n → y ∈ [NetHap.cmdOn, .cmdOff, .cmdClear] → (h.netHap n y).net1 m = h.net1 m := by
  intro x k
  refine ⟨fun hc => ?_, fun hc => if_neg (by rw [hc]; decide), fun hs => ?_, fun hs hb => ?_, fun hs => Hub.netClear_latched hs, fun m y hm hy => ?_⟩
  · have hon : h.netHap n .cmdOn = h.netOn n := if_pos hc
    have hpres : (k.net1 n).present = x.present := by rw [Hub.net1_setNet_same]
    rw [hon]
    show (if (h.netCfg n F.NET_N_CFG_PRES_EN && !(k.net1 n).present) = true then k.netTo n .removed else k.netWait n false) = _
    rw [hpres]
    simp only [Bool.and_eq_true, Bool.not_eq_true']
  · rw [Hub.netHap_cmdOff_running hs]
    exact Hub.netOff_running hs
  · have hoff : h.netHap n .cmdOff = h.netClear n := if_pos ⟨hs, hb⟩
    rw [hoff]
    exact (Hub.netClear_latched hs).1
  · simp only [List.mem_cons, List.not_mem_nil, or_false] at hy
    obtain rfl | rfl | rfl := hy
    · show (if (h.net1 n).canOn then h.netOn n else h).net1 m = _
      split
      · exact h.netOn_net1_ne hm
      · rfl
    · show (if (h.net1 n).st = .latched ∧ (h.net1 n).board = false then h.netClear n else h.netOff n).net1 m = _
      split
      · exact h.netClear_net1_ne hm
      · exact h.netOff_net1_ne hm
    · exact h.netClear_net1_ne hm

/-! ## Commands on a mask -/

/-- Happenings that come on several channels wait in their order; without `VIN_NET` the die takes none. -/
theorem Hub.netIn_foldl (x : NetHap) : ∀ (l : List Nat) (h : Hub), l.foldl (fun h n => h.netIn n x) h =
    { h with net := { h.net with inbox := h.net.inbox ++ (if h.net.locked then [] else l.map fun n => (n, x)) } } := by
  intro l
  induction l with
  | nil =>
    intro h
    have hnil : (if h.net.locked then [] else ([] : List Nat).map fun n => (n, x)) = [] := by split <;> rfl
    rw [hnil, List.append_nil]
    rfl
  | cons n l ih =>
    intro h
    rw [List.foldl_cons, ih]
    unfold Hub.netIn
    cases hl : h.net.locked with
    | true => simp [hl]
    | false => simp [hl]

theorem netFails_none {m : Nat} {ok : Nat → Bool} (hall : ∀ n, n < 16 → testBit m n = true → ok n = true) : netFails m ok = none := by
  unfold netFails maskBits
  rw [List.find?_eq_none]
  intro n hn
  obtain ⟨hr, hb⟩ := List.mem_filter.1 hn
  simp [hall n (List.mem_range.1 hr) hb]

/-- The hub once the channels of a mask have been sent a command. -/
def Hub.netSent (h : Hub) (m : Nat) (x : NetHap) : Hub :=
  { h with net := { h.net with linkOk := true, silent := false, inbox := h.net.inbox ++ (if h.net.locked then [] else (maskBits m).map fun n => (n, x)) } }

theorem Hub.netLive_foldl (h : Hub) (m : Nat) (x : NetHap) : (maskBits m).foldl (fun h n => h.netIn n x) h.netLive = h.netSent m x :=
  Hub.netIn_foldl x (maskBits m) h.netLive

section
variable {h : Hub} {src : CmdSrc} {tag : Byte} {mask : Word} (hm : mask.toNat < 65536)
include hm

theorem runNetOn_ok (hall : ∀ n, n < 16 → testBit mask.toNat n = true →
    h.netSettingsOk n = true ∧ (h.netSeen n).canOn = true ∧ h.netOwned n = false) :
    runNetOn h (mkCmd src 0x0B01 tag [mask]) = .done (h.netSent mask.toNat .cmdOn) [] := by
  have e1 : (mkCmd src 0x0B01 tag [mask]).arg 1 = mask.toNat := rfl
  unfold runNetOn
  rw [e1, if_neg (by rw [zeroFrom_mkCmd _ _ _ _ 2 rfl]; simp; omega), netFails_none fun n hn hb => (hall n hn hb).1,
    netFails_none (ok := fun n => (h.netSeen n).canOn && !h.netOwned n) fun n hn hb => by
      obtain ⟨-, hc, ho⟩ := hall n hn hb
      rw [hc, ho]
      rfl]
  exact congrArg (Ack.done · []) (h.netLive_foldl _ _)

theorem runNetOff_ok (hall : ∀ n, n < 16 → testBit mask.toNat n = true → (h.netSeen n).st.stopped = false ∧ h.netOwned n = false) :
    runNetOff h (mkCmd src 0x0B02 tag [mask]) = .done (h.netSent mask.toNat .cmdOff) [] := by
  have e1 : (mkCmd src 0x0B02 tag [mask]).arg 1 = mask.toNat := rfl
  unfold runNetOff
  rw [e1, if_neg (by rw [zeroFrom_mkCmd _ _ _ _ 2 rfl]; simp; omega),
    netFails_none (ok := fun n => !(h.netSeen n).st.stopped && !h.netOwned n) fun n hn hb => by
      obtain ⟨hs, ho⟩ := hall n hn hb
      rw [hs, ho]
      rfl]
  exact congrArg (Ack.done · []) (h.netLive_foldl _ _)

theorem runNetClear_ok (hall : ∀ n, n < 16 → testBit mask.toNat n = true → (h.netSeen n).st = .latched) :
    runNetClear h (mkCmd src 0x0B03 tag [mask]) = .done (h.netSent mask.toNat .cmdClear) [] := by
  have e1 : (mkCmd src 0x0B03 tag [mask]).arg 1 = mask.toNat := rfl
  unfold runNetClear
  rw [e1, if_neg (by rw [zeroFrom_mkCmd _ _ _ _ 2 rfl]; simp; omega),
    netFails_none (ok := fun n => (h.netSeen n).st == .latched) fun n hn hb => by rw [hall n hn hb]; rfl]
  exact congrArg (Ack.done · []) (h.netLive_foldl _ _)

end

/-- A command that has been sent to its channels is answered and changes nothing but the Net die's inbox and link. -/
theorem gives_netSent {i : Instr} {s : State} {c : CmdIn} {run : Hub → CmdIn → Ack} {m : Nat} {x : NetHap}
    (he : exec i s = s.on fun h => h.accept c run) (ha : Accepts s c) (hrun : run s.hub c = .done (s.hub.netSent m x) []) :
    Gives i s fun t => Answered c sOK [] s t ∧ CmdOnly [.net] [] c s t ∧ t.hub.net = (s.hub.netSent m x).net :=
  gives_done (fun h => h.accept c run) [.net] [] he ha (accept_done ha hrun) (by simp) rfl
    (fun p hp => by cases p <;> first | rfl | simp at hp) rfl (fun _ _ => rfl) (fun q => by simp) fun k hk _ => hk .net (by decide) (by decide)

/-- A channel to which no happening has come is seen as it is. -/
theorem Hub.netSeen_quiet {h : Hub} {n : Nat} (hq : ∀ x, x ∈ h.net.inbox → x.1 ≠ n) : h.netSeen n = h.net1 n := by
  unfold Hub.netSeen
  have hkeep : ∀ (l : List (Nat × NetHap)) (k : Hub), (∀ x, x ∈ l → x.1 ≠ n) →
      l.foldl (fun h x => if x.1 = n ∧ h.hapRank n x.2 = 10 then h.netHap n x.2 else h) k = k := by
    intro l
    induction l with
    | nil => exact fun _ _ => rfl
    | cons x l ih =>
      intro k hl
      rw [List.foldl_cons, if_neg fun hx => hl x List.mem_cons_self hx.1]
      exact ih k fun y hy => hl y (List.mem_cons_of_mem _ hy)
  rw [hkeep _ _ hq]

/-! ## The gate test (R436) -/

theorem runNetGateTest_ok {h : Hub} {src : CmdSrc} {tag : Byte} {nw w : Word} (hn : nw.toNat < 16) (h0 : w.toNat ≠ 0) (h1 : w.toNat ≤ 100)
    (hs : (h.netSeen nw.toNat).st = .on) (hm : h.host.maint = .idle) :
    runNetGateTest h (mkCmd src 0x0C03 tag [nw, w]) =
      .later { h with host := { h.host with maint := .gate nw.toNat w.toNat h.now (mkCmd src 0x0C03 tag [nw, w]).ref } } := by
  have e1 : (mkCmd src 0x0C03 tag [nw, w]).arg 1 = nw.toNat := rfl
  have e2 : (mkCmd src 0x0C03 tag [nw, w]).arg 2 = w.toNat := rfl
  have hfree : h.maintFree = true := by rw [Hub.maintFree, hm]; rfl
  unfold runNetGateTest
  rw [e1, e2, if_neg (by rw [zeroFrom_mkCmd _ _ _ _ 3 rfl]; simp; omega), if_neg (by simp [hs]), if_neg (by rw [hfree]; decide)]

theorem Hub.gateResult_due {h : Hub} {n w t0 : Nat} {ref : CmdRef} (fall rise : Nat) (hm : h.host.maint = .gate n w t0 ref) (ht : t0 + w * tuUs ≤ h.now) :
    let off := decide (100 < fall)
    let on := decide (h.fld (Reg.NET_N_GATE n) F.NET_N_GATE_GRISE * 100 < rise)
    let k := (h.wr (Reg.NET_N_TEST n) (word (1 + bitB (!off && !on) * 2 + bitB off * 4 + bitB on * 8 + min 255 fall * 256 +
      min 65535 rise * 65536))).netEvt n F.NET_N_EVT_TEST_DONE
    h.gateResult fall rise = Hub.answer (Hub.maintEnd (if off || on then k.netIn n .testFault else k)) ref sOK [] := by
  intro off on k
  unfold Hub.gateResult
  rw [hm]
  dsimp only
  rw [if_neg (by omega)]
  show Hub.answer (Hub.maintEnd (if (!off && !on) = true then k else k.netIn n .testFault)) ref sOK [] = _
  cases off <;> cases on <;> rfl

/-- Settles O49, clause by clause. -/
theorem netCommandsAndDie : Obligations.NetCommandsAndDie := by
  unfold Obligations.NetCommandsAndDie
  refine ⟨fun s src tag mask r op x hr => ?_, fun h n hq => Hub.netSeen_quiet hq, fun h n => h.netHap_commands n, fun s hl => ?_, fun s mv hv => ?_,
    fun s mv hv => ?_, fun s mv => makes_any (fun h => h.netVinUp mv.toNat) rfl rfl, fun s src tag nw w => ?_, fun s fall rise n w t0 ref => ?_,
    fun h n hs => if_pos hs⟩
  · intro c m ha hm hall inbox
    simp only [List.mem_cons, List.not_mem_nil, or_false, Prod.mk.injEq] at hr
    obtain ⟨rfl, rfl, rfl⟩ | ⟨rfl, rfl, rfl⟩ | ⟨rfl, rfl, rfl⟩ := hr
    · exact gives_netSent rfl ha (runNetOn_ok hm fun n hn hb => (hall n hn hb).1 rfl)
    · exact gives_netSent rfl ha (runNetOff_ok hm fun n hn hb => (hall n hn hb).2.1 rfl)
    · exact gives_netSent rfl ha (runNetClear_ok hm fun n hn hb => (hall n hn hb).2.2 rfl)
  · exact ⟨makes_net (fun h => Hub.evt { h with net := { h.net with linkOk := false, silent := true } } Reg.NET_EVT F.NET_EVT_LINK_LOST) hl rfl rfl,
      makes_net (fun h => Hub.evt { h with net := { h.net with osc := true } } Reg.NET_EVT F.NET_EVT_OSC_FALLBACK) hl rfl rfl,
      makes_net (fun h => { h with net := { h.net with osc := false } }) hl rfl rfl⟩
  · refine gives_any (fun h => h.netVinLow mv.toNat) rfl ?_
    have hlow : s.hub.netVinLow mv.toNat = { s.hub.netReset with net := { s.hub.netReset.net with locked := true, vin := mv.toNat, hold := false } } :=
      if_pos hv
    rw [hlow]
    refine ⟨rfl, rfl, rfl, rfl, rfl, fun a hlo hhi => ?_⟩
    have hpage : netPage a = true := by simp [netPage, hlo, hhi]
    refine (Hub.rd_kept s.hub.netReset (t := s.hub.regs) (p := fun a => !netPage a) rfl a).trans ?_
    rw [hpage]
    rfl
  · exact makes_any (fun h => h.netVinLow mv.toNat) rfl (if_neg (by omega))
  · intro c n ha hn h0 h1 hs hm
    exact gives_later (fun h => h.accept c runNetGateTest) [.host] [] rfl ha (accept_busy ha (runNetGateTest_ok hn h0 h1 hs hm)) rfl
      (fun p hp => by cases p <;> first | rfl | simp at hp) rfl (fun _ _ => rfl) (fun q => by simp) fun k hk _ => hk .host (by decide)
  · intro off on k hh hm ht
    exact makes_on (fun h => h.gateResult fall.toNat rise.toNat) hh rfl (Hub.gateResult_due _ _ hm ht)

end Sys2Proof.Machine

/-! A Net channel's course: its trips and faults, and the happenings of a `CLK_NET` cycle (R419 to R432). -/

namespace Sys2Proof.Machine

/-! ## Over-current on the ports that a channel powers (R397) -/

theorem Hub.uportChange_spec (h : Hub) (i bit : Nat) : (h.uportChange i bit).net = h.net ∧ ∀ a, a ≠ Reg.USB_EVT → (h.uportChange i bit).rd a = h.rd a := by
  unfold Hub.uportChange
  dsimp only
  split
  · exact ⟨rfl, fun _ _ => rfl⟩
  · exact ⟨rfl, fun a ha => Hub.rd_evt_ne _ _ ha⟩

theorem Hub.wakeEvent_spec (h : Hub) (fn : Bool) : (h.wakeEvent fn).net = h.net ∧ ∀ a, (h.wakeEvent fn).rd a = h.rd a := by
  unfold Hub.wakeEvent
  split <;> exact ⟨rfl, fun _ => rfl⟩

/-- Over-current of one port. -/
def Hub.portOver (h : Hub) (i : Nat) : Hub :=
  let h := h.setUport i { change := (h.uport i).change, oc := true }
  (((h.uportChange i 3).count Reg.USB_CNT_OVER_CURRENT).usbEvt F.USB_EVT_OVER_CURRENT).wakeEvent false

theorem Hub.portOver_spec (h : Hub) (i : Nat) : (h.portOver i).net = h.net ∧
    ∀ a, a ≠ Reg.USB_EVT → a ≠ Reg.USB_CNT_OVER_CURRENT → (h.portOver i).rd a = h.rd a := by
  obtain ⟨hnet, hrd⟩ := (h.setUport i { change := (h.uport i).change, oc := true }).uportChange_spec i 3
  obtain ⟨hnet', hrd'⟩ := ((((h.setUport i { change := (h.uport i).change, oc := true }).uportChange i 3).count
    Reg.USB_CNT_OVER_CURRENT).usbEvt F.USB_EVT_OVER_CURRENT).wakeEvent_spec false
  exact ⟨hnet'.trans hnet, fun a he hc => (hrd' a).trans ((Hub.rd_evt_ne _ _ he).trans ((Hub.rd_count_ne _ hc).trans (hrd a he)))⟩

/-- The channels and their registers are as before. -/
theorem Hub.overCurrent_spec (h : Hub) (n : Nat) : (h.overCurrent n).net = h.net ∧
    ∀ a, a ≠ Reg.USB_EVT → a ≠ Reg.USB_CNT_OVER_CURRENT → (h.overCurrent n).rd a = h.rd a := by
  unfold Hub.overCurrent
  split
  · exact ⟨rfl, fun _ _ _ => rfl⟩
  · exact ⟨foldl_keeps Hub.net Hub.portOver (fun k i => (k.portOver_spec i).1) _ h,
      fun a he hc => foldl_keeps (Hub.rd · a) Hub.portOver (fun k i => (k.portOver_spec i).2 a he hc) _ h⟩

/-! ## The registers of a channel that a happening leaves alone -/

theorem Hub.netDown_net1 (h : Hub) (n cause m : Nat) :
    (h.netDown n cause).net1 m = if m = n then { h.net1 n with pg := false, cause := cause } else h.net1 m := by
  unfold Hub.netDown
  dsimp only
  rw [Hub.net1_setNet]
  split
  next hm => rw [Hub.pgDown_net1, if_pos rfl]
  next hm => rw [Hub.pgDown_net1, if_neg hm]

theorem Hub.netDown_rd (h : Hub) {n a : Nat} (cause : Nat) (ha : a ≠ Reg.NET_N_EVT n) : (h.netDown n cause).rd a = h.rd a := h.pgDown_rd ha

theorem Hub.netRamp_rd (h : Hub) {n a : Nat} (ha : a ≠ Reg.NET_N_EVT n) : (h.netRamp n).rd a = h.rd a := h.netTo_rd _ ha

theorem Hub.netGo_rd (h : Hub) {n a : Nat} (ha : a ≠ Reg.NET_N_EVT n) : (h.netGo n).rd a = h.rd a := by
  unfold Hub.netGo
  dsimp only
  split
  · split
    · exact h.netRamp_rd ha
    · exact h.netTo_rd _ ha
  · rfl

theorem Hub.netWait_rd (h : Hub) {n a : Nat} (again : Bool) (ha : a ≠ Reg.NET_N_EVT n) : (h.netWait n again).rd a = h.rd a :=
  (Hub.netGo_rd _ ha).trans (h.netTo_rd _ ha)

/-- A channel's bound that a crossing of VS is judged by. -/
theorem Hub.netOv_of_rd {h k : Hub} {n : Nat} (hr : k.rd (Reg.NET_N_VWIN n) = h.rd (Reg.NET_N_VWIN n)) : k.netOv n = h.netOv n := by
  unfold Hub.netOv
  rw [Hub.fld_of_rd _ hr]

/-! ## Trips and board faults (R426, R430) -/

/-- The hub at a trip, before the channel waits or latches. -/
def Hub.netTripped (h : Hub) (n cause : Nat) : Hub := ((h.netDown n cause).netEvt n F.NET_N_EVT_TRIP).count (Reg.NET_N_CNT_TRIPS n)

/-- Retries that a channel has after a trip. -/
def Hub.netMost (h : Hub) (n : Nat) : Nat := if h.netOwned n then 0 else h.fld (Reg.NET_N_CFG n) F.NET_N_CFG_RETRY_MAX

/-- The hub whose tripped channel waits or latches. -/
def Hub.netHeld (h : Hub) (n cause : Nat) : Hub :=
  if (h.net1 n).retries < h.netMost n then (h.netTripped n cause).netTo n .retryWait
  else ((h.netTripped n cause).setNet n { (h.netTripped n cause).net1 n with board := false }).netTo n .latched

theorem Hub.netTripped_net1 (h : Hub) (n cause m : Nat) :
    (h.netTripped n cause).net1 m = if m = n then { h.net1 n with pg := false, cause := cause } else h.net1 m := h.netDown_net1 n cause m

theorem Hub.netTrip_eq (h : Hub) (n cause : Nat) : h.netTrip n cause = (h.netHeld n cause).overCurrent n := by
  have hretries : ((h.netTripped n cause).net1 n).retries = (h.net1 n).retries := by rw [Hub.netTripped_net1, if_pos rfl]
  have htrip : h.netTrip n cause = (if ((h.netTripped n cause).net1 n).retries < h.netMost n then (h.netTripped n cause).netTo n .retryWait
    else ((h.netTripped n cause).setNet n { (h.netTripped n cause).net1 n with board := false }).netTo n .latched).overCurrent n := rfl
  rw [htrip, hretries]
  rfl

theorem Hub.netHeld_rd (h : Hub) {n a : Nat} (cause : Nat) (he : a ≠ Reg.NET_N_EVT n) (hc : a ≠ Reg.NET_N_CNT_TRIPS n) :
    (h.netHeld n cause).rd a = h.rd a := by
  have htripped : (h.netTripped n cause).rd a = h.rd a := (Hub.rd_count_ne _ hc).trans ((Hub.rd_evt_ne _ _ he).trans (h.netDown_rd cause he))
  unfold Hub.netHeld
  split
  · exact (Hub.netTo_rd _ _ he).trans htripped
  · exact (Hub.netTo_rd _ _ he).trans htripped

theorem Hub.netTrip_rd (h : Hub) {n a : Nat} (cause : Nat) (he : a ≠ Reg.NET_N_EVT n) (hc : a ≠ Reg.NET_N_CNT_TRIPS n) (hu : a ≠ Reg.USB_EVT)
    (ho : a ≠ Reg.USB_CNT_OVER_CURRENT) : (h.netTrip n cause).rd a = h.rd a := by
  rw [Hub.netTrip_eq]
  exact ((Hub.overCurrent_spec _ n).2 a hu ho).trans (h.netHeld_rd cause he hc)

theorem Hub.netTrip_net1 (h : Hub) (n cause m : Nat) : (h.netTrip n cause).net1 m = (h.netHeld n cause).net1 m := by
  rw [Hub.netTrip_eq]
  exact Hub.net1_congr (congrArg NetBlk.ch (Hub.overCurrent_spec _ n).1) m

/-- What a trip makes of the channels. -/
theorem Hub.netHeld_net1 (h : Hub) (n cause : Nat) :
    ((h.netHeld n cause).net1 n).st = (if (h.net1 n).retries < h.netMost n then .retryWait else .latched) ∧
    ((h.netHeld n cause).net1 n).pg = false ∧ ((h.netHeld n cause).net1 n).cause = cause ∧
    (¬ (h.net1 n).retries < h.netMost n → ((h.netHeld n cause).net1 n).board = false) ∧ ∀ m, m ≠ n → (h.netHeld n cause).net1 m = h.net1 m := by
  have hown := (h.netTripped_net1 n cause n).trans (if_pos rfl)
  unfold Hub.netHeld
  split
  next hr =>
    rw [Hub.netTo_net1, if_pos rfl, hown]
    refine ⟨rfl, rfl, rfl, fun hn => absurd hr hn, fun m hm => ?_⟩
    rw [Hub.netTo_net1, if_neg hm, Hub.netTripped_net1, if_neg hm]
  next hr =>
    rw [Hub.netTo_net1, if_pos rfl, Hub.net1_setNet_same, hown]
    refine ⟨rfl, rfl, rfl, fun _ => rfl, fun m hm => ?_⟩
    rw [Hub.netTo_net1, if_neg hm, Hub.net1_setNet, if_neg hm, Hub.netTripped_net1, if_neg hm]

/-- A change of state keeps the flags of trips and board faults, and a latch is flagged. -/
theorem Hub.netTo_flag (h : Hub) (n : Nat) (st : NetSt) :
    (h.netTo n st).flag (Reg.NET_N_EVT n) F.NET_N_EVT_TRIP = h.flag (Reg.NET_N_EVT n) F.NET_N_EVT_TRIP ∧
    (st = .latched → (h.netTo n st).flag (Reg.NET_N_EVT n) F.NET_N_EVT_LATCHED = true) := by
  have hstate : ∀ k : Hub, (k.netEvt n F.NET_N_EVT_STATE_CHANGE).flag (Reg.NET_N_EVT n) F.NET_N_EVT_TRIP = k.flag (Reg.NET_N_EVT n) F.NET_N_EVT_TRIP :=
    fun k => congrArg (· != 0) (Hub.fld_evt_ne k _ (by decide) (by decide))
  have hlatch : ∀ k : Hub, (k.netEvt n F.NET_N_EVT_LATCHED).flag (Reg.NET_N_EVT n) F.NET_N_EVT_TRIP = k.flag (Reg.NET_N_EVT n) F.NET_N_EVT_TRIP :=
    fun k => congrArg (· != 0) (Hub.fld_evt_ne k _ (by decide) (by decide))
  unfold Hub.netTo
  dsimp only
  split
  next hst =>
    refine ⟨(hlatch _).trans ?_, fun _ => Hub.flag_evt _ _ _ (by decide)⟩
    split
    · rfl
    · exact hstate _
  next hst =>
    refine ⟨?_, fun h => absurd h hst⟩
    split
    · rfl
    · exact hstate _

theorem Hub.netTrip_flag (h : Hub) (n cause : Nat) (hn : n < 16) : (h.netTrip n cause).flag (Reg.NET_N_EVT n) F.NET_N_EVT_TRIP = true := by
  have htripped : (h.netTripped n cause).flag (Reg.NET_N_EVT n) F.NET_N_EVT_TRIP = true :=
    (Hub.flag_of_rd _ (Hub.rd_count_ne _ (by simp only [Reg.NET_N_EVT, Reg.NET_N_CNT_TRIPS]; omega))).trans (Hub.flag_evt _ _ _ (by decide))
  rw [Hub.netTrip_eq, Hub.flag_of_rd _ ((Hub.overCurrent_spec _ n).2 _ (by simp only [Reg.NET_N_EVT, Reg.USB_EVT]; omega)
    (by simp only [Reg.NET_N_EVT, Reg.USB_CNT_OVER_CURRENT]; omega))]
  unfold Hub.netHeld
  split
  · exact (Hub.netTo_flag _ _ _).1.trans htripped
  · exact (Hub.netTo_flag _ _ _).1.trans htripped

/-- What a board fault does to the channels. -/
theorem Hub.netBoard_takes (h : Hub) (n cause : Nat) (hn : n < 16) :
    let k := h.netBoard n cause
    (k.net1 n).st = .latched ∧ (k.net1 n).board = true ∧ (k.net1 n).pg = false ∧ (k.net1 n).cause = cause ∧
    k.flag (Reg.NET_N_EVT n) F.NET_N_EVT_LATCHED = true ∧ ∀ m, m ≠ n → k.net1 m = h.net1 m := by
  intro k
  let b := ((h.netDown n cause).setNet n { (h.netDown n cause).net1 n with board := true }).netTo n .latched
  obtain ⟨hnet, hrd⟩ := b.overCurrent_spec n
  have hk : ∀ m, k.net1 m = b.net1 m := Hub.net1_congr (congrArg NetBlk.ch hnet)
  have hown : k.net1 n = { h.net1 n with pg := false, cause := cause, board := true, st := .latched, at_ := (h.netDown n cause).now } := by
    rw [hk, Hub.netTo_net1, if_pos rfl, Hub.net1_setNet_same, Hub.netDown_net1, if_pos rfl]
    rfl
  rw [hown]
  refine ⟨rfl, rfl, rfl, rfl, ?_, fun m hm => ?_⟩
  · refine (Hub.flag_of_rd _ (hrd _ (by simp only [Reg.NET_N_EVT, Reg.USB_EVT]; omega) (by simp only [Reg.NET_N_EVT, Reg.USB_CNT_OVER_CURRENT]; omega))).trans ?_
    exact (Hub.netTo_flag _ _ _).2 rfl
  · rw [hk, Hub.netTo_net1, if_neg hm, Hub.net1_setNet, if_neg hm, Hub.netDown_net1, if_neg hm]

theorem Hub.netTrip_takes (h : Hub) (n cause : Nat) (hn : n < 16) :
    let k := h.netTrip n cause
    let most := if h.netOwned n then 0 else h.fld (Reg.NET_N_CFG n) F.NET_N_CFG_RETRY_MAX
    (k.net1 n).st = (if (h.net1 n).retries < most then .retryWait else .latched) ∧ (k.net1 n).pg = false ∧ (k.net1 n).cause = cause ∧
    k.flag (Reg.NET_N_EVT n) F.NET_N_EVT_TRIP = true ∧ ∀ m, m ≠ n → k.net1 m = h.net1 m := by
  intro k most
  obtain ⟨hst, hpg, hcause, -, hother⟩ := h.netHeld_net1 n cause
  have hk := h.netTrip_net1 n cause
  refine ⟨(congrArg NetCh.st (hk n)).trans hst, (congrArg NetCh.pg (hk n)).trans hpg, (congrArg NetCh.cause (hk n)).trans hcause, h.netTrip_flag n cause hn,
    fun m hm => (hk m).trans (hother m hm)⟩

/-! ## One `CLK_NET` cycle (R432) -/

/-- Ranks that a happening does not have pass it by. -/
theorem foldl_rank_other {α : Type} (rank : α → Nat) (f : α → α) {r : Nat} : ∀ (l : List Nat) (k : α), r ∉ l → rank k = r →
    l.foldl (fun k i => if rank k = i then f k else k) k = k := by
  intro l
  induction l with
  | nil => exact fun _ _ _ => rfl
  | cons i l ih =>
    intro k hl hk
    rw [List.foldl_cons, if_neg fun he => hl (by rw [← hk, he]; exact List.mem_cons_self)]
    exact ih k (fun hm => hl (List.mem_cons_of_mem _ hm)) hk

/-- A happening whose rank it leaves takes effect once. -/
theorem foldl_rank_once {α : Type} (rank : α → Nat) (f : α → α) {r : Nat} {k : α} (hk : rank k = r) (hf : rank (f k) = r) :
    ∀ l : List Nat, l.Nodup → r ∈ l → l.foldl (fun k i => if rank k = i then f k else k) k = f k := by
  intro l
  induction l with
  | nil => exact fun _ hm => absurd hm List.not_mem_nil
  | cons i l ih =>
    intro hd hm
    obtain ⟨hi, hd⟩ := List.nodup_cons.1 hd
    rw [List.foldl_cons]
    by_cases he : r = i
    · subst he
      rw [if_pos hk]
      exact foldl_rank_other rank f l (f k) hi hf
    · rw [if_neg (by rw [hk]; exact he)]
      exact ih hd ((List.mem_cons.1 hm).resolve_left he)

/-- A crossing of VS leaves the bounds it is judged by. -/
theorem Hub.netVs_window (h : Hub) (n mv : Nat) : (h.netVs n mv).rd (Reg.NET_N_VWIN n) = h.rd (Reg.NET_N_VWIN n) := by
  have he : Reg.NET_N_VWIN n ≠ Reg.NET_N_EVT n := by simp only [Reg.NET_N_VWIN, Reg.NET_N_EVT]; omega
  unfold Hub.netVs
  dsimp only
  split
  · split
    · exact (Hub.netWait_rd _ _ he).trans (Hub.netDown_rd _ _ he)
    · split
      · exact Hub.netTrip_rd _ _ he (by simp only [Reg.NET_N_VWIN, Reg.NET_N_CNT_TRIPS]; omega) (by simp only [Reg.NET_N_VWIN, Reg.USB_EVT]; omega)
          (by simp only [Reg.NET_N_VWIN, Reg.USB_CNT_OVER_CURRENT]; omega)
      · rfl
  · split
    · exact Hub.netWait_rd _ _ he
    · exact Hub.netGo_rd _ he

/-- A happening leaves its place in the order. -/
theorem Hub.hapRank_netHap (h : Hub) (n : Nat) (x : NetHap) : (h.netHap n x).hapRank n x = h.hapRank n x := by
  cases x with
  | vs mv =>
    show (if (h.netVs n mv).netOv n ≤ mv then 3 else 7) = if h.netOv n ≤ mv then 3 else 7
    rw [Hub.netOv_of_rd (h.netVs_window n mv)]
  | _ => rfl

theorem Hub.hapRank_lt (h : Hub) (n : Nat) (x : NetHap) : h.hapRank n x < 11 := by
  cases x with
  | vs mv =>
    show (if h.netOv n ≤ mv then 3 else 7) < 11
    split <;> decide
  | _ => simp [Hub.hapRank]

theorem Hub.netSettle_one {h : Hub} {n : Nat} {x : NetHap} (hi : h.net.inbox = [(n, x)]) :
    h.netSettle = Hub.netHap { h with net := { h.net with inbox := [] } } n x := by
  unfold Hub.netSettle Hub.each
  rw [hi]
  exact foldl_rank_once (fun k : Hub => k.hapRank n x) (fun k => k.netHap n x) rfl (Hub.hapRank_netHap _ _ _) (List.range 11) List.nodup_range
    (List.mem_range.2 (Hub.hapRank_lt _ _ _))

/-- In one cycle a short of the FETs comes before a hard short, in whatever order they came. -/
theorem Hub.netSettle_ds_first {h : Hub} {n mv vout ms : Nat} (hi : h.net.inbox = [(n, .short mv), (n, .ds vout ms)]) :
    h.netSettle = Hub.netHap (Hub.netHap { h with net := { h.net with inbox := [] } } n (.ds vout ms)) n (.short mv) := by
  unfold Hub.netSettle Hub.each
  rw [hi]
  simp [List.range_succ, Hub.hapRank]

/-- In one cycle a trip comes before a command. -/
theorem Hub.netSettle_command_last {h : Hub} {n mv : Nat} (hi : h.net.inbox = [(n, .cmdOff), (n, .short mv)]) :
    h.netSettle = Hub.netHap (Hub.netHap { h with net := { h.net with inbox := [] } } n (.short mv)) n .cmdOff := by
  unfold Hub.netSettle Hub.each
  rw [hi]
  simp [List.range_succ, Hub.hapRank]

/-- `NET_OFF` after a trip of the same cycle ends in `OFF`, with the trip's cause. -/
theorem Hub.cmdOff_tripped {h : Hub} {n cause : Nat} : (((h.netTrip n cause).netHap n .cmdOff).net1 n).st = .off ∧
    (((h.netTrip n cause).netHap n .cmdOff).net1 n).cause = cause := by
  obtain ⟨hst, hpg, hcause, hboard, -⟩ := h.netHeld_net1 n cause
  rw [← Hub.netTrip_net1] at hst hpg hcause hboard
  generalize h.netTrip n cause = k at hst hpg hcause hboard
  by_cases hr : (h.net1 n).retries < h.netMost n
  · rw [if_pos hr] at hst
    have hs : (k.net1 n).st.stopped = false := by rw [hst]; rfl
    have hoff : k.netOff n = (k.pgDown n).netTo n .off := if_neg (by rw [hs]; decide)
    rw [Hub.netHap_cmdOff_running hs, hoff, Hub.netTo_net1, if_pos rfl, Hub.pgDown_net1, if_pos rfl]
    exact ⟨rfl, hcause⟩
  · rw [if_neg hr] at hst
    have hoff : k.netHap n .cmdOff = (k.setNet n { k.net1 n with board := false }).netTo n .off := by
      refine (if_pos ⟨hst, hboard hr⟩ : k.netHap n .cmdOff = k.netClear n).trans ?_
      exact if_pos hst
    rw [hoff, Hub.netTo_net1, if_pos rfl, Hub.net1_setNet_same]
    exact ⟨rfl, hcause⟩

/-! ## Presence, window and timers (R419, R420, R427, R428) -/

theorem Hub.netHap_present {h : Hub} {n : Nat} (hp : h.netCfg n F.NET_N_CFG_PRES_EN = true) :
    let x := h.net1 n
    (x.present = false →
      let k := (h.setNet n { x with present := true }).netEvt n F.NET_N_EVT_PRES_CHANGE
      h.netHap n .present = (if x.st = .removed then (k.count (Reg.NET_N_CNT_INSERT n)).netWait n false else k)) ∧
    (x.present = true → x.st ≠ .off → x.st ≠ .removed → ¬ (x.st = .latched ∧ x.board = true) →
      let k := (h.netHap n .absent).net1 n
      k.st = .removed ∧ k.present = false ∧ k.pg = false ∧ k.retries = 0) := by
  intro x
  refine ⟨fun hx => if_neg (by simp [hp, x, hx]), fun hx h1 h2 h3 => ?_⟩
  have hset : ((h.setNet n { x with present := false }).netEvt n F.NET_N_EVT_PRES_CHANGE).net1 n = { x with present := false } :=
    h.net1_setNet_same n _
  have habsent : h.netHap n .absent =
      (let g := (((h.setNet n { x with present := false }).netEvt n F.NET_N_EVT_PRES_CHANGE).pgDown n).netTo n .removed
       g.setNet n { g.net1 n with retries := 0 }) := by
    refine (if_neg (by simp [hp, x, hx]) : h.netHap n .absent = _).trans ?_
    exact if_neg (by simp only [x] at h1 h2 h3; simp [h1, h2, h3])
  rw [habsent]
  dsimp only
  rw [Hub.net1_setNet_same, Hub.netTo_net1, if_pos rfl, Hub.pgDown_net1, if_pos rfl, hset]
  exact ⟨rfl, rfl, rfl, rfl⟩

theorem Hub.netHap_vs (h : Hub) (n mv : Nat) :
    let k := h.setNet n { h.net1 n with vs := mv }
    ((h.net1 n).st.driven = true → mv ≤ h.netUv n → h.netHap n (.vs mv) = ((k.netDown n 7).netWait n false)) ∧
    ((h.net1 n).st.driven = true → h.netUv n < mv → h.netOv n ≤ mv → h.netHap n (.vs mv) = (k.netTrip n 6)) ∧
    ((h.net1 n).st = .waitWindow → h.netUv n < mv → mv < h.netOv n →
      h.netHap n (.vs mv) = (if (h.net1 n).again then k.netRamp n else k.netTo n .insertDelay)) := by
  intro k
  have hk : k.net1 n = { h.net1 n with vs := mv } := h.net1_setNet_same n _
  have hvs : h.netHap n (.vs mv) = if (k.net1 n).st.driven then
      if mv ≤ h.netUv n then (k.netDown n 7).netWait n false else if h.netOv n ≤ mv then k.netTrip n 6 else k
    else if (k.net1 n).st = .insertDelay ∧ k.netInWindow n = false then k.netWait n false else k.netGo n := rfl
  rw [hk] at hvs
  refine ⟨fun hd hu => ?_, fun hd hu ho => ?_, fun hs hu ho => ?_⟩
  · rw [hvs, if_pos hd, if_pos hu]
  · rw [hvs, if_pos hd, if_neg (by omega), if_pos ho]
  · have hwin : k.netInWindow n = true := by
      have hw : k.netInWindow n = (decide (h.netUv n < (k.net1 n).vs) && decide ((k.net1 n).vs < h.netOv n)) := rfl
      rw [hw, hk]
      simp [hu, ho]
    have hgo : k.netGo n = if (k.net1 n).again then k.netRamp n else k.netTo n .insertDelay := if_pos ⟨by rw [hk]; exact hs, hwin⟩
    rw [hvs, if_neg (by simp [hs, NetSt.driven]), if_neg (by simp [hs]), hgo, hk]

theorem Hub.netHap_timers (h : Hub) (n : Nat) :
    let x := h.net1 n
    (x.st = .insertDelay → x.at_ + h.netMs (Reg.NET_N_TIME n) F.NET_N_TIME_INSERT_MS ≤ h.now →
      h.netHap n .insertEnd = (h.netRamp n)) ∧
    (x.st = .retryWait → x.at_ + h.netMs (Reg.NET_N_RETRY n) F.NET_N_RETRY_RETRY_MS ≤ h.now →
      h.netHap n .retryEnd = ((h.setNet n { x with retries := x.retries + 1 }).netWait n true)) ∧
    (x.st = .on → x.pg = true → x.pgAt + h.netDur (10 * tuS) ≤ h.now →
      h.netHap n .retriesReset = (h.setNet n { x with retries := 0 })) ∧
    ((x.st = .ramp ∨ x.st = .gateRise) → x.rampAt + h.netMs (Reg.NET_N_TIME n) F.NET_N_TIME_RAMP_TMO_MS ≤ h.now →
      h.netHap n .rampTmo = (if h.netGriseDue n then h.netBoard n 8 else h.netTrip n 3)) :=
  ⟨fun hs ht => if_pos ⟨hs, ht⟩, fun hs ht => if_pos ⟨hs, ht⟩, fun hs hp ht => if_pos ⟨hs, hp, ht⟩, fun hs ht => if_pos ⟨hs, ht⟩⟩

/-! ## Ramp, gate rise, power-good and the gate's faults (R420, R423, R430, R431) -/

theorem Hub.portsPower_net (h : Hub) (n : Nat) : (h.portsPower n).net = h.net := by
  unfold Hub.portsPower
  split
  · rfl
  · exact foldl_keeps Hub.net (fun h i => h.setUport i { h.uport i with st := .disconnected }) (fun _ _ => rfl) _ h

theorem Hub.netHap_levels (h : Hub) (n vout vgs : Nat) :
    let x := h.net1 n
    let k := h.setNet n { x with vout := vout, vgs := vgs }
    (x.st = .ramp → x.vs ≤ vout + 500 →
      (h.netHap n (.rampDone vout)).net1 n = { x with vout := vout, st := .gateRise, at_ := h.now, riseAt := h.now, counts := [] }) ∧
    (x.st = .gateRise → x.vs ≤ vout + 500 → 80 ≤ vgs →
      let y := (h.netHap n (.riseDone vout vgs)).net1 n
      y.st = .on ∧ y.pg = true ∧ y.pgAt = h.now) ∧
    (x.st = .on → vout + 500 < x.vs ∨ (h.inPulse n = false ∧ vgs < 80) → h.netHap n (.pgLoss vout vgs) = (k.pgDown n)) ∧
    (x.st = .gateRise → x.riseAt + h.netGrise n ≤ h.now → vgs < 40 →
      h.netHap n (.grise vgs) = ((h.setNet n { x with vgs := vgs }).netBoard n 8)) ∧
    (∀ us : Nat, x.st = .on → vgs < 40 → 100 ≤ us →
      h.netHap n (.gateLow vgs us) = ((h.setNet n { x with vgs := vgs }).netBoard n 8)) ∧
    (∀ ms : Nat, x.st ≠ .off → x.st.driven = false → h.netInWindow n = true → x.vs ≤ 2 * vout →
      h.fld (Reg.NET_N_GATE n) F.NET_N_GATE_DS_MS ≤ ms → ¬ (x.st = .latched ∧ x.board = true) →
      h.netHap n (.ds vout ms) = ((h.setNet n { x with vout := vout }).netBoard n 9)) := by
  intro x k
  have hk : k.net1 n = { x with vout := vout, vgs := vgs } := h.net1_setNet_same n _
  have hv : (h.setNet n { x with vout := vout }).net1 n = { x with vout := vout } := h.net1_setNet_same n _
  have hg : (h.setNet n { x with vgs := vgs }).net1 n = { x with vgs := vgs } := h.net1_setNet_same n _
  refine ⟨fun hs hu => ?_, fun hs hu hg80 => ?_, fun hs hl => ?_, fun hs ht hlow => ?_, fun us hs hlow hus => ?_, fun ms h1 h2 h3 h4 h5 h6 => ?_⟩
  · have hdone : h.netHap n (.rampDone vout) =
        (let g := (h.setNet n { x with vout := vout }).netTo n .gateRise
         g.setNet n { g.net1 n with riseAt := g.now, counts := [] }) := by
      refine if_pos ⟨?_, ?_⟩
      · exact (congrArg NetCh.st hv).trans hs
      · exact (congrArg NetCh.upTo hv).trans (decide_eq_true hu)
    rw [hdone]
    dsimp only
    rw [Hub.net1_setNet_same, Hub.netTo_net1, if_pos rfl, hv, Hub.netTo_now]
    rfl
  · have hgood : (k.net1 n).good = true := by
      rw [hk]
      simp [NetCh.good, NetCh.upTo, hu, hg80]
    have hst : (k.net1 n).st = .gateRise := (congrArg NetCh.st hk).trans hs
    have hdone : h.netHap n (.riseDone vout vgs) =
        (let g := k.netTo n .on
         ((g.setNet n { g.net1 n with pg := true, pgAt := g.now }).netEvt n F.NET_N_EVT_PG_CHANGE).portsPower n) := by
      refine (if_pos ⟨hgood, .inl hst⟩ : h.netHap n (.riseDone vout vgs) = _).trans ?_
      have hnot : ¬ (k.net1 n).st = .on := by rw [hst]; decide
      show (let g := if (k.net1 n).st = .on then k else k.netTo n .on
        ((g.setNet n { g.net1 n with pg := true, pgAt := g.now }).netEvt n F.NET_N_EVT_PG_CHANGE).portsPower n) = _
      rw [if_neg hnot]
    rw [hdone]
    dsimp only
    rw [Hub.net1_congr (congrArg NetBlk.ch (Hub.portsPower_net _ n)) n]
    have hset : ((((k.netTo n .on).setNet n { (k.netTo n .on).net1 n with pg := true, pgAt := (k.netTo n .on).now }).netEvt n
        F.NET_N_EVT_PG_CHANGE).net1 n) = { (k.netTo n .on).net1 n with pg := true, pgAt := (k.netTo n .on).now } := Hub.net1_setNet_same _ n _
    rw [hset, Hub.netTo_net1, if_pos rfl, Hub.netTo_now]
    exact ⟨rfl, rfl, rfl⟩
  · refine if_pos ⟨(congrArg NetCh.st hk).trans hs, ?_⟩
    show (if h.inPulse n then (k.net1 n).upTo else (k.net1 n).good) = false
    rw [hk]
    obtain hout | ⟨hpulse, hgate⟩ := hl
    · have hup : ({ x with vout := vout, vgs := vgs } : NetCh).upTo = false := decide_eq_false (by dsimp only; omega)
      split
      · exact hup
      · rw [NetCh.good, hup]
        rfl
    · rw [if_neg (by rw [hpulse]; decide), NetCh.good]
      simp [hgate]
  · refine if_pos ?_
    have hdue : (h.setNet n { x with vgs := vgs }).netGriseDue n = true := by
      have he : (h.setNet n { x with vgs := vgs }).netGriseDue n = ((((h.setNet n { x with vgs := vgs }).net1 n).st == .gateRise) &&
          decide (((h.setNet n { x with vgs := vgs }).net1 n).riseAt + h.netGrise n ≤ h.now) &&
          decide (((h.setNet n { x with vgs := vgs }).net1 n).vgs < 40)) := rfl
      rw [he, hg]
      simp [hs, ht, hlow]
    exact hdue
  · exact if_pos ⟨(congrArg NetCh.st hg).trans hs, hlow, hus⟩
  · have hwin : (h.setNet n { x with vout := vout }).netInWindow n = true := by
      have hw : (h.setNet n { x with vout := vout }).netInWindow n = (decide (h.netUv n < ((h.setNet n { x with vout := vout }).net1 n).vs) &&
          decide (((h.setNet n { x with vout := vout }).net1 n).vs < h.netOv n)) := rfl
      rw [hw, hv]
      exact h3
    have hst : ((h.netMeas n vout (h.net1 n).vgs).net1 n).st = x.st := (congrArg NetCh.st hv :)
    have hboard : ((h.netMeas n vout (h.net1 n).vgs).net1 n).board = x.board := (congrArg NetCh.board hv :)
    have hvs : ((h.netMeas n vout (h.net1 n).vgs).net1 n).vs = x.vs := (congrArg NetCh.vs hv :)
    exact if_pos ⟨by rw [← hst] at h1; exact h1, by rw [← hst] at h2; exact h2, hwin, by rw [← hvs] at h4; exact h4, h5,
      by rw [← hst, ← hboard] at h6; exact h6⟩

/-! ## Trips by current (R422, R424, R425) -/

theorem Hub.netHap_short_soa (h : Hub) (n v : Nat) :
    let x := h.net1 n
    (x.st.driven = true → h.netHap n (.short v) = (if h.fld (Reg.NET_N_CFG n) F.NET_N_CFG_SHORT_MV ≤ v then
      (h.count (Reg.NET_N_CNT_SHORT n)).netTrip n (if x.st = .ramp then 1 else 4) else h)) ∧
    (x.st = .ramp → h.netHap n (.soa v) =
      (let k := h.setNet n { x with soa := x.soa + v }
       if h.fld (Reg.NET_N_RETRY n) F.NET_N_RETRY_SOA * 10 ≤ x.soa + v then k.netTrip n 2 else k)) := by
  intro x
  refine ⟨fun hd => ?_, fun hs => if_neg (by simp [x] at hs; simp [hs])⟩
  by_cases hv : h.fld (Reg.NET_N_CFG n) F.NET_N_CFG_SHORT_MV ≤ v
  · rw [if_pos hv]
    exact if_pos ⟨hd, hv⟩
  · rw [if_neg hv]
    exact if_neg fun hc => hv hc.2

theorem terase_terase {α : Type} (k : Nat) : ∀ t : Table α, terase k (terase k t) = terase k t := by
  intro t
  induction t with
  | nil => rfl
  | cons x t ih =>
    obtain ⟨j, v⟩ := x
    by_cases h : j = k
    · simp [terase, h, ih]
    · simp [terase, h, ih]

theorem terase_tins {α : Type} (k : Nat) (v : α) : ∀ t : Table α, terase k (tins k v t) = terase k t := by
  intro t
  induction t with
  | nil => simp [tins, terase]
  | cons x t ih =>
    obtain ⟨j, w⟩ := x
    by_cases h : k < j
    · simp [tins, terase, h]
    · simp [tins, terase, h, ih]

/-- Of two values set at an index the second stands. -/
theorem tset_tset {α : Type} [DecidableEq α] (d : α) (t : Table α) (k : Nat) (v w : α) : tset d (tset d t k v) k w = tset d t k w := by
  have herase : terase k (tset d t k v) = terase k t := by
    unfold tset
    split
    · exact terase_terase k t
    · rw [terase_tins, terase_terase]
  have hset : ∀ u, tset d u k w = if w = d then terase k u else tins k w (terase k u) := fun _ => rfl
  rw [hset, hset, herase]

theorem Hub.setNet_setNet (h : Hub) (n : Nat) (x y : NetCh) : (h.setNet n x).setNet n y = h.setNet n y := by
  unfold Hub.setNet
  dsimp only
  rw [tset_tset]

/-- The counts of the trip curve's points after a sample. -/
def Hub.curveCounts (h : Hub) (n code : Nat) (was : List Nat) : List Nat :=
  (List.range 8).map fun p =>
    if h.curveOn n p = true ∧ h.fld (Reg.NET_N_CURVE n p) F.NET_N_CURVE_LEVEL < code then was.getD p 0 + 1 else 0

/-- The point of the trip curve that counts trip. -/
def Hub.curvePoint (h : Hub) (n : Nat) (counts : List Nat) : Option Nat :=
  (List.range 8).find? fun p => h.curveOn n p && decide (h.curveTime n p < counts.getD p 0)

/-- The trip curve is judged by its own registers. -/
theorem Hub.curve_of_rd {h k : Hub} {n : Nat} (hr : ∀ p, k.rd (Reg.NET_N_CURVE n p) = h.rd (Reg.NET_N_CURVE n p)) (code : Nat) (l : List Nat) :
    k.curveCounts n code l = h.curveCounts n code l ∧ k.curvePoint n l = h.curvePoint n l := by
  have hfld : ∀ p f, k.fld (Reg.NET_N_CURVE n p) f = h.fld (Reg.NET_N_CURVE n p) f := fun p f => Hub.fld_of_rd f (hr p)
  have hon : ∀ p, k.curveOn n p = h.curveOn n p := fun p => Hub.flag_of_rd _ (hr p)
  unfold Hub.curveCounts Hub.curvePoint Hub.curveTime
  simp only [hfld, hon, and_self]

/-- A sample that shows `w` milliamperes, against the trip curve. -/
def Hub.curveSample (h : Hub) (n code : Nat) (w : Word) : Hub :=
  let c := h.net1 n
  let h := h.wr (Reg.NET_N_I_MA n) w
  if (c.st ≠ .gateRise ∧ c.st ≠ .on) ∨ h.inPulse n = true then h else
  let counts := (List.range 8).map fun p =>
    if h.curveOn n p = true ∧ h.fld (Reg.NET_N_CURVE n p) F.NET_N_CURVE_LEVEL < code then c.counts.getD p 0 + 1 else 0
  let h := h.setNet n { c with counts := counts }
  match (List.range 8).find? fun p => h.curveOn n p && decide (h.curveTime n p < counts.getD p 0) with
  | some p => ((h.setNet n { h.net1 n with point := p }).count (Reg.NET_N_CNT_CURVE n)).netTrip n 5
  | none => h

theorem Hub.netSample_eq (h : Hub) (n code : Nat) : h.netSample n code =
    h.curveSample n code (word (code * 100000000 / (1024 * max 1 (h.fld (Reg.NET_N_ILIM n) F.NET_N_ILIM_SHUNT_UOHM)))) := rfl

theorem Hub.curveSample_takes {h : Hub} {n : Nat} (code : Nat) (w : Word) (hs : (h.net1 n).st = .gateRise ∨ (h.net1 n).st = .on)
    (hp : h.inPulse n = false) :
    (∀ p, h.curvePoint n (h.curveCounts n code (h.net1 n).counts) = some p → h.curveSample n code w =
      ((((h.wr (Reg.NET_N_I_MA n) w).setNet n { h.net1 n with counts := h.curveCounts n code (h.net1 n).counts, point := p }).count
        (Reg.NET_N_CNT_CURVE n)).netTrip n 5)) ∧
    (h.curvePoint n (h.curveCounts n code (h.net1 n).counts) = none → h.curveSample n code w =
      (h.wr (Reg.NET_N_I_MA n) w).setNet n { h.net1 n with counts := h.curveCounts n code (h.net1 n).counts }) := by
  have hrd : ∀ p, (h.wr (Reg.NET_N_I_MA n) w).rd (Reg.NET_N_CURVE n p) = h.rd (Reg.NET_N_CURVE n p) :=
    fun p => Hub.rd_wr_ne _ _ (by simp only [Reg.NET_N_CURVE, Reg.NET_N_I_MA]; omega)
  have hcounts := (Hub.curve_of_rd hrd code (h.net1 n).counts).1
  have hpoint : ∀ x l, ((h.wr (Reg.NET_N_I_MA n) w).setNet n x).curvePoint n l = h.curvePoint n l :=
    fun x l => (Hub.curve_of_rd (h := h) (k := (h.wr (Reg.NET_N_I_MA n) w).setNet n x) hrd code l).2
  have hrun : ¬ (((h.net1 n).st ≠ .gateRise ∧ (h.net1 n).st ≠ .on) ∨ (h.wr (Reg.NET_N_I_MA n) w).inPulse n = true) := by
    rintro (⟨h1, h2⟩ | hpulse)
    · exact hs.elim h1 h2
    · exact absurd (hpulse.symm.trans hp) (by decide)
  have hsample : h.curveSample n code w =
      (let k := h.wr (Reg.NET_N_I_MA n) w
       let counts := k.curveCounts n code (h.net1 n).counts
       let g := k.setNet n { h.net1 n with counts := counts }
       match g.curvePoint n counts with
       | some p => ((g.setNet n { g.net1 n with point := p }).count (Reg.NET_N_CNT_CURVE n)).netTrip n 5
       | none => g) := if_neg hrun
  dsimp only at hsample
  rw [hcounts, hpoint] at hsample
  rw [hsample]
  refine ⟨fun p hfind => ?_, fun hfind => ?_⟩
  · rw [hfind]
    dsimp only
    rw [Hub.setNet_setNet, Hub.net1_setNet_same]
  · rw [hfind]

/-- Settles the trip curve of O48. -/
theorem netHap_curve_takes (h : Hub) (n : Nat) (code : BitVec 10) :
    let x := h.net1 n
    let uohm := h.fld (Reg.NET_N_ILIM n) F.NET_N_ILIM_SHUNT_UOHM
    let k := h.wr (Reg.NET_N_I_MA n) (word (code.toNat * 100000000 / (1024 * max 1 uohm)))
    let counts := (List.range 8).map fun p =>
      if h.curveOn n p = true ∧ h.fld (Reg.NET_N_CURVE n p) F.NET_N_CURVE_LEVEL < code.toNat then x.counts.getD p 0 + 1 else 0
    x.st = .gateRise ∨ x.st = .on → h.inPulse n = false →
    (∀ p, ((List.range 8).find? fun p => h.curveOn n p && decide (h.curveTime n p < counts.getD p 0)) = some p →
      h.netHap n (.curve [code]) =
        (((k.setNet n { x with counts := counts, point := p }).count (Reg.NET_N_CNT_CURVE n)).netTrip n 5)) ∧
    (((List.range 8).find? fun p => h.curveOn n p && decide (h.curveTime n p < counts.getD p 0)) = none →
      h.netHap n (.curve [code]) = (k.setNet n { x with counts := counts })) := by
  dsimp only
  generalize hw : word (code.toNat * 100000000 / (1024 * max 1 (h.fld (Reg.NET_N_ILIM n) F.NET_N_ILIM_SHUNT_UOHM))) = w
  intro hs hp
  have hone : h.netHap n (.curve [code]) = h.curveSample n code.toNat w := (h.netSample_eq n code.toNat).trans (by rw [hw])
  rw [hone]
  exact Hub.curveSample_takes code.toNat w hs hp

/-- Settles O48, clause by clause. -/
theorem netChannels : Obligations.NetChannels := by
  unfold Obligations.NetChannels
  refine ⟨Hub.netTrip_takes, Hub.netBoard_takes, fun s n mv us vout ms vgs codes r x hr => ?_, fun h hi => ?_, fun h n x hi => Hub.netSettle_one hi,
    fun h n mv vout ms hi => Hub.netSettle_ds_first hi, fun h n mv hn hi hs hv => ?_, fun h n => ⟨fun hp hx => (Hub.netHap_present hp).1 hx,
      fun hp => (Hub.netHap_present hp).2⟩, Hub.netHap_vs, Hub.netHap_timers, Hub.netHap_levels, Hub.netHap_short_soa, netHap_curve_takes⟩
  · have he : exec r s = s.onNet fun h => h.netIn n x := by
      simp only [List.mem_cons, List.not_mem_nil, or_false, Prod.mk.injEq] at hr
      obtain ⟨rfl, rfl⟩ | ⟨rfl, rfl⟩ | ⟨rfl, rfl⟩ | ⟨rfl, rfl⟩ | ⟨rfl, rfl⟩ | ⟨rfl, rfl⟩ | ⟨rfl, rfl⟩ | ⟨rfl, rfl⟩ | ⟨rfl, rfl⟩ | ⟨rfl, rfl⟩ |
        ⟨rfl, rfl⟩ | ⟨rfl, rfl⟩ | ⟨rfl, rfl⟩ | ⟨rfl, rfl⟩ | ⟨rfl, rfl⟩ | ⟨rfl, rfl⟩ := hr <;> rfl
    refine ⟨fun hc hn => ?_, fun hl => makes_net (fun h => h.netIn n x) hl he rfl⟩
    rw [Makes, he, State.onNet, hc, hn]
    rfl
  · unfold Hub.netSettle Hub.each
    rw [hi]
    have hself : ({ h with net := { h.net with inbox := [] } } : Hub) = h := by rw [← hi]
    rw [hself]
    exact foldl_keeps id _ (fun _ _ => rfl) _ h
  · rw [Hub.netSettle_command_last hi]
    have hshort : Hub.netHap { h with net := { h.net with inbox := [] } } n (.short mv) =
        (Hub.count { h with net := { h.net with inbox := [] } } (Reg.NET_N_CNT_SHORT n)).netTrip n 4 := by
      refine ((Hub.netHap_short_soa { h with net := { h.net with inbox := [] } } n mv).1 ?_).trans ((if_pos hv).trans ?_)
      · exact congrArg NetSt.driven hs
      · exact congrArg (Hub.netTrip _ n) (if_neg (by rw [show (Hub.net1 { h with net := { h.net with inbox := [] } } n) = h.net1 n from rfl, hs]; decide))
    rw [hshort]
    exact Hub.cmdOff_tripped

end Sys2Proof.Machine

/-! The PCIe link and its vectors, and frame DMA on `P4` (R248, R268, R440, R442, R459 to R462, R504). -/

namespace Sys2Proof.Machine

/-! ## Reset and link (R442, R504) -/

theorem resetWord_msixMask : ∀ v < 32, (resetWord (Reg.MSIX_TABLE (4 * v + 3))).toNat % 2 = 1 := by decide

/-- Fundamental reset masks every vector. -/
theorem Hub.pciePerst_masks (h : Hub) {v : Nat} (hv : v < 32) : (h.pciePerst true).msixMasked v = true := by
  have hpage : msixPage (Reg.MSIX_TABLE (4 * v + 3)) = true := by
    unfold msixPage Reg.MSIX_TABLE
    rw [Bool.and_eq_true, decide_eq_true_eq, decide_eq_true_eq]
    omega
  have hrd : (h.pciePerst true).rd (Reg.MSIX_TABLE (4 * v + 3)) = resetWord (Reg.MSIX_TABLE (4 * v + 3)) := by
    refine (Hub.rd_kept (h.pciePerst true) (t := h.regs) (p := fun a => !msixPage a) rfl _).trans ?_
    rw [hpage]
    rfl
  unfold Hub.msixMasked
  rw [hrd, resetWord_msixMask v hv]
  rfl

/-! ## Vectors (R459) -/

theorem Hub.msixSend_foldl : ∀ (vs : List Nat) (h : Hub), vs.foldl (fun h v => h.emit (.msix v)) h = { h with out := h.out ++ vs.map .msix } := by
  intro vs
  induction vs with
  | nil => intro h; simp
  | cons v vs ih =>
    intro h
    rw [List.foldl_cons, ih]
    simp [Hub.emit]

/-- Messages change nothing but what has been sent. -/
theorem Hub.msixSend_but (h : Hub) (vs : List Nat) : ∃ o, h.msixSend vs = { h with out := h.out ++ o } := by
  unfold Hub.msixSend
  split
  · exact ⟨_, Hub.msixSend_foldl vs h⟩
  · exact ⟨[], by rw [List.append_nil]⟩

/-- Following the vectors notes which are asserted. -/
theorem Hub.irqSync_but (h : Hub) : ∃ o, h.irqSync = { h with host := { h.host with asserted := h.vectors }, out := h.out ++ o } :=
  Hub.msixSend_but { h with host := { h.host with asserted := h.vectors } } _

/-- A vector that is unmasked is unmasked, and sends its message where it is asserted. -/
theorem Hub.msixWrite_unmask (h : Hub) (v : Nat) {w : Word} (hbit : w.toNat % 2 = 0) :
    let k := h.msixWrite (4 * v + 3) w
    k.msixMasked v = false ∧ (∀ a, a ≠ Reg.MSIX_TABLE (4 * v + 3) → k.rd a = h.rd a) ∧
    (h.msixMasked v = true → h.host.pcieUp = true → testBit h.vectors v = true → k.out.getLast? = some (.msix v)) ∧
    (h.msixMasked v = false → k = { h with regs := k.regs }) := by
  intro k
  have hdiv : (4 * v + 3) / 4 = v := by omega
  have hmod : (4 * v + 3) % 4 = 3 := by omega
  have hun : ∀ g : Hub, g.rd (Reg.MSIX_TABLE (4 * v + 3)) = w → g.msixMasked v = false := fun g hg => by
    unfold Hub.msixMasked
    rw [hg, hbit]
    rfl
  obtain ⟨o, hsync⟩ := h.irqSync_but
  cases hm : h.msixMasked v with
  | false =>
    have hk : k = h.wr (Reg.MSIX_TABLE (4 * v + 3)) w := by
      refine if_neg fun hc => ?_
      rw [hdiv, hm] at hc
      exact absurd hc.2.1 (by decide)
    rw [hk]
    exact ⟨hun _ (Hub.rd_wr_same _ _ _), fun a ha => Hub.rd_wr_ne _ _ ha, fun h1 => absurd h1 (by decide), fun _ => rfl⟩
  | true =>
    let g := h.irqSync.wr (Reg.MSIX_TABLE (4 * v + 3)) w
    have hk : k = if testBit g.host.asserted v then g.msixSend [v] else g := by
      refine (if_pos ⟨hmod, by rw [hdiv]; exact hm, hbit⟩ : k = _).trans ?_
      rw [hdiv]
    have hasserted : g.host.asserted = h.vectors := (congrArg (fun k : Hub => k.host.asserted) hsync :)
    have hup : g.host.pcieUp = h.host.pcieUp := (congrArg (fun k : Hub => k.host.pcieUp) hsync :)
    have hrd : ∀ a, a ≠ Reg.MSIX_TABLE (4 * v + 3) → g.rd a = h.rd a := fun a ha =>
      (Hub.rd_wr_ne _ _ ha).trans (rd_congr (congrArg Hub.regs hsync) a)
    have hsame : g.rd (Reg.MSIX_TABLE (4 * v + 3)) = w := Hub.rd_wr_same _ _ _
    obtain ⟨o', hsend⟩ := g.msixSend_but [v]
    have hsendrd : ∀ a, (g.msixSend [v]).rd a = g.rd a := fun a => by rw [hsend]; rfl
    rw [hk, hasserted]
    refine ⟨?_, fun a ha => ?_, fun _ hlink hset => ?_, fun hn => absurd hn (by decide)⟩
    · split
      · exact hun _ ((hsendrd _).trans hsame)
      · exact hun _ hsame
    · split
      · exact (hsendrd a).trans (hrd a ha)
      · exact hrd a ha
    · rw [if_pos hset]
      have hone : g.msixSend [v] = { g with out := g.out ++ [.msix v] } :=
        (if_pos (hup.trans hlink) : g.msixSend [v] = _).trans (Hub.msixSend_foldl [v] g)
      rw [hone]
      simp

theorem putBits_even (w : Word) : (putBits w (0, 1) 0).toNat % 2 = 0 := by
  have hbit := bits_putBits_same w (0, 1) 0 (by decide)
  simpa [bits, bitsN] using hbit

/-! ## Frame DMA (R268, R460 to R462) -/

theorem Hub.ownPort_head {h : Hub} {n p : Nat} {x : OwnIn} (hx : (h.swc.own.find? fun y => y.port == p) = some x) :
    Hub.ownPort (n + 1) p h = if x.at_ < h.now ∧ cellsFor x.frame.bytes ≤ h.freeCells then
      Hub.ownPort n p (Hub.ownIn { h with swc := { h.swc with own := h.swc.own.erase x } } x) else h := by
  simp only [Hub.ownPort, hx]

theorem Hub.ownIn_eq (h : Hub) (x : OwnIn) :
    let l := frameLen x.frame.bytes
    let r := h.policeBy (h.defPol x.port) l
    h.ownIn x = if r.1 then (r.2.bufferAs x.id x.frame l).place x.queue x.id x.frame.need x.lossy else r.2.departed x.frame := by
  intro l r
  have hown : h.ownIn x = match r with
      | (true, h) => (h.bufferAs x.id x.frame l).place x.queue x.id x.frame.need x.lossy
      | (false, h) => h.departed x.frame := rfl
  rw [hown]
  obtain ⟨ok, g⟩ := r
  cases ok <;> rfl

theorem Hub.dmaSettle_eq {h : Hub} {q id : Nat} (hd : h.host.dma = some (q, id)) :
    h.dmaSettle = if (h.swc.own.any fun x => x.id == id) || (h.tq q).waiting.contains id then h
      else Hub.dmaTxDone { h with host := { h.host with dma := none } } (if (h.tq q).holds id then 0 else 1) := by
  unfold Hub.dmaSettle
  rw [hd]

/-- The hub that has written a descriptor's status at `a` and moved on. -/
def Hub.dmaTxNext (h : Hub) (a d : Nat) : Hub :=
  ((h.emit (.dma a (leBytes 4 d))).dmaNext Reg.DMA_TX_SIZE Reg.DMA_TX_HEAD).evt Reg.HOST_EVT F.HOST_EVT_DMA_TX_DONE

theorem Hub.dmaTxDone_eq {h : Hub} {a : Nat} (d : Nat)
    (ha : h.dmaAddr Reg.DMA_TX_BASE_LO Reg.DMA_TX_BASE_HI (h.fld Reg.DMA_TX_HEAD F.DMA_TX_HEAD) + 20 = a) :
    h.dmaTxDone d = if d = 0 then (h.dmaTxNext a d).count Reg.HOST_CNT_DMA_TX
      else ((h.dmaTxNext a d).count Reg.HOST_CNT_DMA_DROP).evt Reg.HOST_EVT F.HOST_EVT_DMA_ERR := by
  unfold Hub.dmaTxDone
  rw [ha]
  rfl

theorem Hub.dmaTxNext_spec (h : Hub) (a d : Nat) : (h.dmaTxNext a d).out = h.out ++ [.dma a (leBytes 4 d)] ∧
    (h.dmaTxNext a d).fld Reg.DMA_TX_HEAD F.DMA_TX_HEAD =
      (h.fld Reg.DMA_TX_HEAD F.DMA_TX_HEAD + 1) % 2 ^ max 4 (min 12 (h.fld Reg.DMA_TX_SIZE F.DMA_TX_SIZE_TX_SIZE_LOG2)) ∧
    (h.dmaTxNext a d).flag Reg.HOST_EVT F.HOST_EVT_DMA_TX_DONE = true ∧
    (∀ b, b ≠ Reg.DMA_TX_HEAD → b ≠ Reg.HOST_EVT → (h.dmaTxNext a d).rd b = h.rd b) := by
  refine ⟨rfl, ?_, Hub.flag_evt _ _ _ (by decide), fun b h1 h2 => (Hub.rd_evt_ne _ _ h2).trans (Hub.rd_setFld_ne _ _ _ h1)⟩
  have hle : max 4 (min 12 (h.fld Reg.DMA_TX_SIZE F.DMA_TX_SIZE_TX_SIZE_LOG2)) ≤ 12 := by omega
  have hlt : (h.fld Reg.DMA_TX_HEAD F.DMA_TX_HEAD + 1) % 2 ^ max 4 (min 12 (h.fld Reg.DMA_TX_SIZE F.DMA_TX_SIZE_TX_SIZE_LOG2)) < 2 ^ 12 :=
    lt_of_lt_of_le (Nat.mod_lt _ (Nat.two_pow_pos _)) (Nat.pow_le_pow_right (by decide) hle)
  refine (Hub.fld_of_rd _ (Hub.rd_evt_ne _ _ (by decide))).trans ((Hub.fld_setFld _ _ _ _ (by decide)).trans ?_)
  exact Nat.mod_eq_of_lt hlt

/-- What the end of a transmit descriptor does. -/
theorem Hub.dmaTxDone_takes (h : Hub) (d : Nat) :
    let k := h.dmaTxDone d
    let i := h.fld Reg.DMA_TX_HEAD F.DMA_TX_HEAD
    let a := ((h.rd Reg.DMA_TX_BASE_HI).toNat * 2 ^ 32 + (h.rd Reg.DMA_TX_BASE_LO).toNat + 32 * i) % 2 ^ 64 + 20
    k.out = h.out ++ [.dma a (leBytes 4 d)] ∧
    k.fld Reg.DMA_TX_HEAD F.DMA_TX_HEAD = (i + 1) % 2 ^ max 4 (min 12 (h.fld Reg.DMA_TX_SIZE F.DMA_TX_SIZE_TX_SIZE_LOG2)) ∧
    k.flag Reg.HOST_EVT F.HOST_EVT_DMA_TX_DONE = true ∧ (d ≠ 0 → k.flag Reg.HOST_EVT F.HOST_EVT_DMA_ERR = true) ∧
    (if d = 0 then k.rd Reg.HOST_CNT_DMA_TX = word (min 0xFFFFFFFF ((h.rd Reg.HOST_CNT_DMA_TX).toNat + 1))
     else k.rd Reg.HOST_CNT_DMA_DROP = word (min 0xFFFFFFFF ((h.rd Reg.HOST_CNT_DMA_DROP).toNat + 1))) := by
  intro k i a
  obtain ⟨hout, hhead, hdone, hrd⟩ := h.dmaTxNext_spec a d
  have hk : k = _ := Hub.dmaTxDone_eq (a := a) d rfl
  by_cases h0 : d = 0
  · rw [if_pos h0] at hk
    rw [hk, if_pos h0]
    refine ⟨hout, (Hub.fld_of_rd _ (Hub.rd_count_ne _ (by decide))).trans hhead, (Hub.flag_of_rd _ (Hub.rd_count_ne _ (by decide))).trans hdone,
      fun hd => absurd h0 hd, ?_⟩
    rw [Hub.rd_count, hrd _ (by decide) (by decide)]
  · rw [if_neg h0] at hk
    rw [hk, if_neg h0]
    refine ⟨hout, (Hub.fld_of_rd _ ((Hub.rd_evt_ne _ _ (by decide)).trans (Hub.rd_count_ne _ (by decide)))).trans hhead, ?_,
      fun _ => Hub.flag_evt _ _ _ (by decide), ?_⟩
    · refine (congrArg (· != 0) (Hub.fld_evt_ne _ Reg.HOST_EVT (by decide) (by decide)) : _ = Hub.flag _ _ _).trans ?_
      exact (Hub.flag_of_rd _ (Hub.rd_count_ne _ (by decide))).trans hdone
    · rw [Hub.rd_evt_ne _ _ (by decide), Hub.rd_count, hrd _ (by decide) (by decide)]

theorem Hub.dmaStamp_some {h : Hub} {f : Frame} {t : Nat} (ht : f.stamps[h.fld Reg.DMA_CTL F.DMA_CTL_TS_TB]? = some t) :
    h.dmaStamp f = ([word (t / 65536 % 2 ^ 40), word (t / 65536 % 2 ^ 40 / 2 ^ 32)], h) := by
  unfold Hub.dmaStamp
  rw [ht]

/-- Settles O50, clause by clause. -/
theorem pcieAndFrameDma : Obligations.PcieAndFrameDma := by
  unfold Obligations.PcieAndFrameDma
  refine ⟨fun s => ⟨makes_any (fun h => h.pciePerst true) rfl rfl, makes_any (fun h => h.pciePerst false) rfl rfl,
      gives_any (fun h => h.pciePerst true) rfl fun v hv => s.hub.pciePerst_masks hv⟩,
    fun s gen2 x2 hh hon hperst hid => ?_, fun s gen2 x2 hh hoff => ?_, fun s v hh ho => ?_, fun s p w hh ho => ?_, fun s w2 w3 w4 buf => ?_,
    fun h n p x hx => ?_, Hub.ownIn_eq, fun h q id hd => Hub.dmaSettle_eq hd, Hub.dmaTxDone_takes, fun s addr q id second t => ?_, fun s addr => ?_⟩
  · obtain ⟨hcold, hpll⟩ := Hub.held_of hh
    refine makes_on (fun h => h.pcieTrain gen2 x2) hh rfl ((if_neg (by simp [hon, hperst, hid, hcold, hpll])).trans ?_)
    cases gen2 <;> cases x2 <;> rfl
  · refine makes_on (fun h => h.pcieTrain gen2 x2) hh rfl (if_pos ?_)
    tauto
  · refine gives_on (fun h => if h.pathOpen .pcie then h.msixWrite (4 * v + 3) (putBits (h.rd (Reg.MSIX_TABLE (4 * v + 3))) (0, 1) 0) else h) hh rfl ?_
    rw [if_pos ho]
    obtain ⟨hmask, hrd, hout, honly⟩ := s.hub.msixWrite_unmask v (putBits_even (s.hub.rd (Reg.MSIX_TABLE (4 * v + 3))))
    refine ⟨hmask, fun a ha => hrd a (by simpa using ha), hout, fun hm => ?_⟩
    have hbut := honly hm
    exact only_hub (by rw [hbut]) fun p hp => by rw [hbut]; cases p <;> first | rfl | simp at hp
  · intro tn rn t
    exact ⟨makes_on (fun h => h.dmaTxTail p w) hh rfl (if_neg (by rw [ho]; decide)), makes_on (fun h => h.dmaRxTail p w) hh rfl (if_neg (by rw [ho]; decide))⟩
  · intro len q lt bs n ready hh
    refine ⟨fun hr => makes_on (fun h => h.dmaTx w2 w3 w4 buf) hh rfl (if_pos hr), fun hr hd => ?_⟩
    have hgo : ¬ (ready = false ∨ s.hub.host.dma.isSome = true) := by simp [hr, hd]
    exact ⟨fun hl => makes_on (fun h => h.dmaTx w2 w3 w4 buf) hh rfl ((if_neg hgo).trans (if_pos hl)),
      fun h1 h2 => makes_on (fun h => h.dmaTx w2 w3 w4 buf) hh rfl ((if_neg hgo).trans (if_neg (by omega)))⟩
  · rw [Hub.ownPort_head hx]
    exact ⟨fun hn => if_neg (by omega), fun h1 h2 => if_pos ⟨h1, h2⟩⟩
  · intro k f bs m ns w2 a hh hr hf hn ht
    refine makes_on (fun h => h.dmaRx addr.toNat) hh rfl ((if_neg ?_).trans ?_)
    · rintro (h1 | h1)
      · exact absurd (h1.symm.trans hr) (by decide)
      · exact absurd (h1.symm.trans hf) (by decide)
    · rw [hn]
      dsimp only
      rw [Hub.dmaStamp_some ht]
  · intro k hh hn
    refine makes_on (fun h => h.dmaRx addr.toNat) hh rfl ?_
    unfold Hub.dmaRx
    dsimp only
    split
    next => rfl
    next hgo =>
      obtain hr | hf | hnone := hn
      · exact absurd (.inl hr) hgo
      · exact absurd (.inr hf) hgo
      · rw [hnone]

end Sys2Proof.Machine

/-! The standard requests on endpoint 0 of the USB hub and of its embedded function (R404 to R406, R411). -/

namespace Sys2Proof.Machine

/-! ## A request on endpoint 0 -/

/-- The hub once a SETUP has cleared a protocol STALL. -/
def Hub.setup (h : Hub) (fn : Bool) : Hub := h.setUdev fn { h.udev fn with stall := false }

/-- A request answered with a protocol STALL (R404). -/
def Hub.reqStall (k : Hub) (fn : Bool) : Hub := (k.setUdev fn { k.udev fn with stall := true }).stallEp []

/-- The device is there to answer: it has a state, and the function is reached (R391, R404). -/
def Hub.reqHeard (h : Hub) (fn : Bool) : Prop := (h.udev fn).state ≠ 0 ∧ (fn = true → h.fnReached = true)

@[simp] theorem Hub.udev_setUdev (h : Hub) (fn : Bool) (d : UDev) : (h.setUdev fn d).udev fn = d := by cases fn <;> rfl

@[simp] theorem Hub.setUdev_port (h : Hub) (fn : Bool) (d : UDev) : (h.setUdev fn d).usb.port = h.usb.port := by cases fn <;> rfl
@[simp] theorem Hub.setUdev_ep (h : Hub) (fn : Bool) (d : UDev) : (h.setUdev fn d).usb.ep = h.usb.ep := by cases fn <;> rfl

section
variable {h : Hub} {s : State} {fn : Bool} {i : Instr} {run : Hub → Option (Hub × List Byte)}

theorem Hub.usbReq_ack {k : Hub} {bs : List Byte} (hd : h.reqHeard fn) (hr : run (h.setup fn) = some (k, bs)) :
    h.usbReq fn run = k.ackData bs := by
  obtain ⟨hst, hfn⟩ := hd
  have hr' : run (h.setUdev fn { h.udev fn with stall := false }) = some (k, bs) := hr
  unfold Hub.usbReq
  rw [if_neg (by rintro (h0 | ⟨h1, h2⟩); exacts [hst h0, by rw [hfn h1] at h2; cases h2])]
  dsimp only
  rw [hr']

theorem Hub.usbReq_stall (hd : h.reqHeard fn) (hr : run (h.setup fn) = none) : h.usbReq fn run = (h.setup fn).reqStall fn := by
  obtain ⟨hst, hfn⟩ := hd
  have hr' : run (h.setUdev fn { h.udev fn with stall := false }) = none := hr
  unfold Hub.usbReq
  rw [if_neg (by rintro (h0 | ⟨h1, h2⟩); exacts [hst h0, by rw [hfn h1] at h2; cases h2])]
  dsimp only
  rw [hr']
  rfl

/-- A device that is not there gives no answer. -/
theorem Hub.usbReq_away (hd : (h.udev fn).state = 0 ∨ (fn = true ∧ h.fnReached = false)) : h.usbReq fn run = h := if_pos hd

theorem makes_ack {k : Hub} {bs : List Byte} (run : Hub → Option (Hub × List Byte)) (hh : s.hub.held = false) (hd : s.hub.reqHeard fn)
    (he : exec i s = s.on fun h => h.usbReq fn run) (hr : run (s.hub.setup fn) = some (k, bs)) : Makes i s (k.ackData bs) :=
  makes_on (fun h => h.usbReq fn run) hh he (Hub.usbReq_ack hd hr)

theorem makes_stall (run : Hub → Option (Hub × List Byte)) (hh : s.hub.held = false) (hd : s.hub.reqHeard fn)
    (he : exec i s = s.on fun h => h.usbReq fn run) (hr : run (s.hub.setup fn) = none) : Makes i s ((s.hub.setup fn).reqStall fn) :=
  makes_on (fun h => h.usbReq fn run) hh he (Hub.usbReq_stall hd hr)

/-- A request that is answered under a condition, else refused with a STALL. -/
theorem makes_ite {c : Prop} [Decidable c] {k : Hub} {bs : List Byte} (run : Hub → Option (Hub × List Byte)) (hh : s.hub.held = false)
    (hd : s.hub.reqHeard fn) (he : exec i s = s.on fun h => h.usbReq fn run)
    (hr : run (s.hub.setup fn) = if c then some (k, bs) else none) :
    Makes i s (if c then k.ackData bs else (s.hub.setup fn).reqStall fn) := by
  split
  next hc => exact makes_ack run hh hd he (by rw [hr, if_pos hc])
  next hc => exact makes_stall run hh hd he (by rw [hr, if_neg hc])

end

/-! ## The requests that need more than one case -/

section
variable {s : State} {fn : Bool}

/-- An endpoint that the device has (R404, R411). -/
theorem endpoint_requests (hh : s.hub.held = false) (hd : s.hub.reqHeard fn) (x : Half) (hx : fn = true → x.toNat % 128 ≠ 0) {i : Nat}
    (hi : (s.hub.setup fn).reqEp fn x.toNat = some i) :
    Makes (.getStatus fn 2 x) s ((s.hub.setup fn).ackData [byte (bitB ((s.hub.setup fn).uep i).halted), 0]) ∧
    Makes (.clearFeature fn 2 0 x) s
      (((s.hub.setup fn).setUep i { (s.hub.setup fn).uep i with halted := false, toggle := false }).ackData []) ∧
    Makes (.setFeature fn 2 0 x) s
      (let h := (s.hub.setup fn).setUep i { (s.hub.setup fn).uep i with halted := true }
       (if fn && !((s.hub.setup fn).uep i).halted then (h.count Reg.USB_CNT_EP_HALT).evt Reg.USB_EVT F.USB_EVT_EP_HALT else h).ackData []) := by
  refine ⟨makes_ack _ hh hd rfl ?_, makes_ack _ hh hd rfl ?_, makes_ack _ hh hd rfl ?_⟩
  · refine (if_neg fun ⟨h1, h2⟩ => hx h1 h2).trans ?_
    rw [hi]
    rfl
  · refine (if_neg (by decide)).trans ((if_pos (by decide)).trans ?_)
    rw [hi]
    rfl
  · refine (if_neg (by decide)).trans ((if_neg (by simp)).trans ((if_pos (by decide)).trans ?_))
    rw [hi]
    rfl

/-- An endpoint that the device does not have. -/
theorem endpoint_requests_stall (hh : s.hub.held = false) (hd : s.hub.reqHeard fn) (x : Half) (hx : fn = true → x.toNat % 128 ≠ 0)
    (hi : (s.hub.setup fn).reqEp fn x.toNat = none) :
    Makes (.getStatus fn 2 x) s ((s.hub.setup fn).reqStall fn) ∧ Makes (.clearFeature fn 2 0 x) s ((s.hub.setup fn).reqStall fn) ∧
    Makes (.setFeature fn 2 0 x) s ((s.hub.setup fn).reqStall fn) := by
  refine ⟨makes_stall _ hh hd rfl ?_, makes_stall _ hh hd rfl ?_, makes_stall _ hh hd rfl ?_⟩
  · refine (if_neg fun ⟨h1, h2⟩ => hx h1 h2).trans ?_
    rw [hi]
    rfl
  · refine (if_neg (by decide)).trans ((if_pos (by decide)).trans ?_)
    rw [hi]
    rfl
  · refine (if_neg (by decide)).trans ((if_neg (by simp)).trans ((if_pos (by decide)).trans ?_))
    rw [hi]
    rfl

/-- A test mode is entered by the hub alone, with a selector of 1 to 5 (R392). -/
theorem testMode_requests (hh : s.hub.held = false) (hd : s.hub.reqHeard fn) (x : Half) :
    (fn = false → 1 ≤ x.toNat / 256 → x.toNat / 256 ≤ 5 → Makes (.setFeature fn 0 2 x) s
      (((s.hub.setup fn).setUport 8 { (s.hub.setup fn).uport 8 with st := .testing, test := x.toNat / 256 }).ackData [])) ∧
    (fn = true ∨ x.toNat / 256 = 0 ∨ 5 < x.toNat / 256 → Makes (.setFeature fn 0 2 x) s ((s.hub.setup fn).reqStall fn)) := by
  refine ⟨fun hfn h1 h5 => makes_ack _ hh hd rfl ?_, fun hbad => makes_stall _ hh hd rfl ?_⟩
  · exact (if_neg (by decide)).trans (if_pos ⟨rfl, rfl, hfn, h1, h5⟩)
  · refine (if_neg (by decide)).trans ((if_neg ?_).trans (if_neg (by decide)))
    rintro ⟨-, -, hfn, h1, h5⟩
    obtain h | h | h := hbad
    · rw [hfn] at h
      cases h
    · omega
    · omega

theorem descriptor_request (hh : s.hub.held = false) (hd : s.hub.reqHeard fn) (typ idx : Byte) (n : Half) :
    Makes (.getDescriptor fn typ idx n) s
      (match (s.hub.setup fn).descriptor fn typ.toNat idx.toNat with
        | some x => (s.hub.setup fn).ackData (x.take n.toNat)
        | none => (s.hub.setup fn).reqStall fn) := by
  split
  next x hx => exact makes_ack _ hh hd rfl (by rw [hx]; rfl)
  next hx => exact makes_stall _ hh hd rfl (by rw [hx]; rfl)

/-- The table of endpoints that a `SET_CONFIGURATION` of one device leaves: those of the other (R404). -/
def epKept (fn : Bool) (n : Nat) : Bool := if fn then n == 33 else n != 33

/-- The hub that a `SET_CONFIGURATION` leaves. -/
def Hub.configured (k : Hub) (fn : Bool) (v : Nat) : Hub :=
  let h := k.setUdev fn { k.udev fn with state := 2 + v, alt := 0 }
  { h with usb := { h.usb with ep := k.usb.ep.filter fun x => epKept fn x.1 } }

theorem Hub.configured_udev (k : Hub) (fn : Bool) (v : Nat) :
    (k.configured fn v).udev fn = { k.udev fn with state := 2 + v, alt := 0 } := by cases fn <;> rfl

theorem Hub.configured_uep (k : Hub) (fn : Bool) (v i : Nat) : (k.configured fn v).uep i = if epKept fn i then k.uep i else {} :=
  tget_filter ({} : UEp) (epKept fn) k.usb.ep i

theorem setConfiguration_takes (hh : s.hub.held = false) (hd : s.hub.reqHeard fn) (v : Byte) (hv : v.toNat ≤ 1)
    (hst : 2 ≤ ((s.hub.setup fn).udev fn).state) :
    Makes (.setConfiguration fn v) s (((s.hub.setup fn).configured fn v.toNat).ackData []) :=
  makes_ack _ hh hd rfl ((if_pos ⟨hst, hv⟩).trans (by cases fn <;> rfl))

/-- A hub that differs in its USB state and its output alone. -/
theorem only_usb_out {s : State} (u : UsbBlk) (o : List Output) :
    Only [.usb, .out] s { s with hub := { s.hub with usb := u, out := o } } :=
  only_hub rfl fun p hp => by
    cases p
    case usb => exact absurd List.mem_cons_self hp
    case out => exact absurd (List.mem_cons_of_mem _ List.mem_cons_self) hp
    all_goals rfl

theorem setConfiguration_gives (hh : s.hub.held = false) (hd : s.hub.reqHeard fn) (v : Byte) (hv : v.toNat ≤ 1)
    (hst : 2 ≤ ((s.hub.setup fn).udev fn).state) :
    Gives (.setConfiguration fn v) s fun t => Only [.usb, .out] s t ∧ RegsBut [] s t ∧
      (t.hub.udev fn).state = 2 + v.toNat ∧ (t.hub.udev fn).alt = 0 ∧ t.hub.out = ((s.hub.setup fn).ackData []).out ∧
      (∀ i, (i = 33 ↔ fn = false) → t.hub.uep i = {}) ∧ ∀ i, (i = 33 ↔ fn = true) → t.hub.uep i = s.hub.uep i := by
  have hdev := (s.hub.setup fn).configured_udev fn v.toNat
  refine ⟨_, setConfiguration_takes hh hd v hv hst, only_usb_out _ _, fun _ _ => rfl, ?_, ?_, rfl, fun i hi => ?_, fun i hi => ?_⟩
  · exact congrArg UDev.state hdev
  · exact congrArg UDev.alt hdev
  · refine ((s.hub.setup fn).configured_uep fn v.toNat i).trans (if_neg ?_)
    cases fn <;> simp [epKept] at hi ⊢ <;> exact hi
  · refine ((s.hub.setup fn).configured_uep fn v.toNat i).trans ((if_pos ?_).trans (Hub.uep_congr (Hub.setUdev_ep _ _ _) i))
    cases fn <;> simp [epKept] at hi ⊢ <;> exact hi

end

/-- Settles O45: a request is heard (`makes_ack`, `makes_stall`, `makes_ite`) or comes to a device that is not there (`Hub.usbReq_away`). -/
theorem usbStandardRequests : Obligations.UsbStandardRequests := by
  refine ⟨?_, fun s fn b c x y hh haway r hr => ?_⟩
  · intro s fn k d stalled hh hst hfn
    have hd : s.hub.reqHeard fn := ⟨hst, hfn⟩
    refine ⟨fun x => makes_ack _ hh hd rfl rfl, fun x hx i hi => endpoint_requests hh hd x hx hi,
      fun x hx hi => endpoint_requests_stall hh hd x hx hi, fun x => ⟨makes_ack _ hh hd rfl rfl, makes_ack _ hh hd rfl rfl⟩,
      fun x hf hx => makes_ack _ hh hd rfl (if_pos ⟨hf, hx⟩), ?_, fun x => (testMode_requests hh hd x).1,
      fun x => (testMode_requests hh hd x).2, fun a => makes_ite _ hh hd rfl rfl, fun typ idx n => descriptor_request hh hd typ idx n,
      makes_ack _ hh hd rfl rfl, fun v => setConfiguration_gives hh hd v, fun v hv => ?_, fun x => makes_ite _ hh hd rfl rfl,
      fun alt x => ?_, makes_stall _ hh hd rfl rfl⟩
    · refine makes_ite _ hh hd rfl ?_
      exact if_congr (by simp; rfl) rfl rfl
    · exact makes_stall _ hh hd rfl (if_neg fun ⟨h2, h1⟩ => hv.elim h1.not_gt h2.not_gt)
    · exact makes_ite _ hh hd rfl rfl
  · have haw : ∀ (r : Instr) (run : Hub → Option (Hub × List Byte)), exec r s = s.on (fun h => h.usbReq fn run) → Makes r s s.hub :=
      fun r run he => makes_on (fun h => h.usbReq fn run) hh he (Hub.usbReq_away haway)
    simp only [List.mem_cons, List.not_mem_nil, or_false] at hr
    obtain rfl | rfl | rfl | rfl | rfl | rfl | rfl | rfl | rfl | rfl := hr
    all_goals exact haw _ _ rfl

end Sys2Proof.Machine

/-! The hub-class requests of a configured USB hub (R392 to R396, R400, R405). -/

namespace Sys2Proof.Machine

/-! ## A request about a port -/

section
variable {s : State} {i : Instr} {n : Nat} {bs : List Byte} {k : Hub}

theorem Hub.reqHeard_hub {h : Hub} (hc : h.usb.hub.state = 3) : h.reqHeard false :=
  ⟨fun h0 => absurd (h0.symm.trans hc) (by decide), fun hf => by cases hf⟩

theorem makes_port_ack (run : Hub → Nat → Option (Hub × List Byte)) (hh : s.hub.held = false) (hc : s.hub.usb.hub.state = 3)
    (he : exec i s = s.on fun h => h.portReq n run) (h1 : 1 ≤ n) (h8 : n ≤ 8) (hr : run (s.hub.setup false) (n - 1) = some (k, bs)) :
    Makes i s (k.ackData bs) :=
  makes_ack (fun h => if h.usb.hub.state = 3 ∧ 1 ≤ n ∧ n ≤ 8 then run h (n - 1) else none) hh (Hub.reqHeard_hub hc) he
    ((if_pos ⟨hc, h1, h8⟩).trans hr)

theorem makes_port_stall (run : Hub → Nat → Option (Hub × List Byte)) (hh : s.hub.held = false) (hc : s.hub.usb.hub.state = 3)
    (he : exec i s = s.on fun h => h.portReq n run) (h1 : 1 ≤ n) (h8 : n ≤ 8) (hr : run (s.hub.setup false) (n - 1) = none) :
    Makes i s ((s.hub.setup false).reqStall false) :=
  makes_stall (fun h => if h.usb.hub.state = 3 ∧ 1 ≤ n ∧ n ≤ 8 then run h (n - 1) else none) hh (Hub.reqHeard_hub hc) he
    ((if_pos ⟨hc, h1, h8⟩).trans hr)

/-- A port's number outside 1 to 8 is refused. -/
theorem makes_port_none (run : Hub → Nat → Option (Hub × List Byte)) (hh : s.hub.held = false) (hc : s.hub.usb.hub.state = 3)
    (he : exec i s = s.on fun h => h.portReq n run) (hn : n = 0 ∨ 8 < n) : Makes i s ((s.hub.setup false).reqStall false) :=
  makes_stall (fun h => if h.usb.hub.state = 3 ∧ 1 ≤ n ∧ n ≤ 8 then run h (n - 1) else none) hh (Hub.reqHeard_hub hc) he
    (if_neg fun ⟨_, h1, h8⟩ => hn.elim (Nat.ne_of_gt h1) (Nat.not_lt.mpr h8))

end

/-! ## The requests that need more than one case -/

section
variable {s : State} (hh : s.hub.held = false) (hc : s.hub.usb.hub.state = 3) {n : Byte} (h1 : 1 ≤ n.toNat) (h8 : n.toNat ≤ 8)
include hh hc h1 h8

theorem setPortReset_makes :
    let k := s.hub.setup false
    let i := n.toNat - 1
    let p := k.uport i
    Makes (.setPortReset n) s (Hub.ackData (if p.st = .disabled ∨ p.st = .enabled then
      (let h := k.setUport i { p with st := .resetting, at_ := k.now }
       if i = 7 then h.fnReset else h) else k) []) := by
  refine makes_port_ack _ hh hc rfl h1 h8 ?_
  dsimp only
  split <;> rfl

/-- A port other than 8 is switched off, and its channel with it (R398). -/
theorem clearPortPower_makes (hi : n.toNat - 1 ≠ 7) :
    let k := s.hub.setup false
    let p := k.uport (n.toNat - 1)
    Makes (.clearPortPower n) s (((k.setUport (n.toNat - 1) { change := p.change, oc := p.oc }).portOff (n.toNat - 1)).ackData []) := by
  refine makes_port_ack _ hh hc rfl h1 h8 ?_
  dsimp only
  rw [if_neg hi, if_neg fun h => hi h.1]

omit hh hc h1 h8 in
/-- Port 8 uses no channel. -/
theorem Hub.portOff_seven (h : Hub) : h.portOff 7 = h := by
  have hp : h.portNet 7 = none := if_neg fun hn => absurd hn.1 (by decide)
  have hn : (if h.usbEn then h.portNet 7 else none) = none := by rw [hp]; exact ite_self _
  unfold Hub.portOff
  rw [hn]

/-- The hub in which port 8 has been switched off: the function is logically disconnected (R405). -/
def Hub.functionOff (k : Hub) : Hub :=
  let h := (if (k.uport 7).conn = true then k.fnReset else k).setUport 7 { change := (k.uport 7).change, oc := (k.uport 7).oc }
  { h with usb := { h.usb with fn := {} } }

theorem clearPortPower_eight (hi : n.toNat - 1 = 7) :
    Makes (.clearPortPower n) s ((s.hub.setup false).functionOff.ackData []) := by
  refine makes_port_ack _ hh hc rfl h1 h8 ?_
  dsimp only
  rw [hi, Hub.portOff_seven, if_pos rfl]
  by_cases hp : ((s.hub.setup false).uport 7).conn = true
  · rw [if_pos ⟨rfl, hp⟩, Hub.functionOff, if_pos hp]
  · rw [if_neg fun h => hp h.2, Hub.functionOff, if_neg hp]

/-- The ports once one change bit of port `i` is cleared (R405). -/
def Hub.clearedPort (k : Hub) (i bit : Nat) : Hub :=
  k.setUport i { k.uport i with change := (k.uport i).change - bitB (testBit (k.uport i).change bit) * 2 ^ bit }

omit hh hc h1 h8 in
theorem Hub.clearedPort_uport (k : Hub) (i bit j : Nat) : (k.clearedPort i bit).uport j = if j = i then
    { k.uport i with change := (k.uport i).change - bitB (testBit (k.uport i).change bit) * 2 ^ bit } else k.uport j :=
  Hub.uport_setUport _ _ _ _

/-- A port that has no change left goes from the hub's report. -/
theorem clearPortChange_makes (b : Fin 5) : ∃ r, Makes (.clearPortChange n b) s (Hub.ackData
    { (s.hub.setup false).clearedPort (n.toNat - 1) b with
      usb := { ((s.hub.setup false).clearedPort (n.toNat - 1) b).usb with report := r } } []) := by
  let k := (s.hub.setup false).clearedPort (n.toNat - 1) b
  refine ⟨if (k.uport (n.toNat - 1)).change = 0 then
    k.usb.report - bitB (testBit k.usb.report (n.toNat - 1 + 1)) * 2 ^ (n.toNat - 1 + 1) else k.usb.report,
    makes_port_ack _ hh hc rfl h1 h8 ?_⟩
  split
  next h0 => exact congrArg (fun h => some (h, [])) (if_pos h0)
  next h0 => exact congrArg (fun h => some (h, [])) (if_neg h0)

theorem clearPortChange_gives (b : Fin 5) :
    let p := (s.hub.setup false).uport (n.toNat - 1)
    Gives (.clearPortChange n b) s fun t => Only [.usb, .out] s t ∧ RegsBut [] s t ∧
      (t.hub.uport (n.toNat - 1)).change = p.change - bitB (testBit p.change b) * 2 ^ b.val ∧ (t.hub.uport (n.toNat - 1)).st = p.st ∧
      ∀ j, j ≠ n.toNat - 1 → t.hub.uport j = s.hub.uport j := by
  obtain ⟨r, hm⟩ := clearPortChange_makes hh hc h1 h8 b
  have hport := (s.hub.setup false).clearedPort_uport (n.toNat - 1) b
  refine ⟨_, hm, only_usb_out _ _, fun _ _ => rfl, ?_, ?_, fun j hj => ?_⟩
  · exact (congrArg UPort.change ((hport _).trans (if_pos rfl)) :)
  · exact (congrArg UPort.st ((hport _).trans (if_pos rfl)) :)
  · exact (hport j).trans ((if_neg hj).trans (Hub.uport_congr (Hub.setUdev_port _ _ _) j))

theorem setPortTest_makes (w : Byte) :
    let k := s.hub.setup false
    let i := n.toNat - 1
    let p := k.uport i
    (i = 7 ∨ w.toNat = 0 ∨ 5 < w.toNat → Makes (.setPortTest n w) s (k.reqStall false)) ∧
    (i ≠ 7 → 1 ≤ w.toNat → w.toNat ≤ 5 → Makes (.setPortTest n w) s (Hub.ackData
      (if (p.st = .disconnected ∨ p.st = .disabled ∨ p.st = .suspended) ∧ (List.range 8).all (fun j => (k.uport j).st != .enabled) = true
        then k.setUport i { p with st := .testing, test := w.toNat } else k) [])) := by
  refine ⟨fun hbad => makes_port_stall _ hh hc rfl h1 h8 (if_pos hbad), fun h7 hw1 hw5 => makes_port_ack _ hh hc rfl h1 h8 ?_⟩
  refine (if_neg (by omega)).trans ?_
  split <;> rfl

end

/-- Settles O46: each request runs on the hub whose SETUP has cleared the STALL (`makes_port_ack`, `makes_port_stall`). -/
theorem usbHubClassRequests : Obligations.UsbHubClassRequests := by
  intro s hh hc k stalled
  have hd := Hub.reqHeard_hub hc
  refine ⟨makes_ack _ hh hd rfl (if_pos hc), fun f => makes_ite _ hh hd rfl ?_,
    fun n hn => ⟨makes_port_none _ hh hc rfl hn, makes_port_none _ hh hc rfl hn⟩, ?_⟩
  · exact if_congr (and_iff_right hc) rfl rfl
  intro n h1 h8 i p
  refine ⟨makes_port_ack _ hh hc rfl h1 h8 rfl, makes_port_ack _ hh hc rfl h1 h8 rfl, setPortReset_makes hh hc h1 h8,
    makes_port_ack _ hh hc rfl h1 h8 rfl, makes_port_ack _ hh hc rfl h1 h8 rfl, makes_port_ack _ hh hc rfl h1 h8 rfl,
    clearPortPower_makes hh hc h1 h8, fun hi t ht => ?_, fun hi => ⟨_, clearPortPower_eight hh hc h1 h8 hi⟩,
    clearPortChange_gives hh hc h1 h8, fun w => (setPortTest_makes hh hc h1 h8 w).1, fun w => (setPortTest_makes hh hc h1 h8 w).2,
    fun h7 ht => ?_, fun hbad => ?_⟩
  · have hm : exec (.clearPortPower n) s = _ := clearPortPower_eight hh hc h1 h8 hi
    cases hm.symm.trans ht
    exact ⟨rfl, congrArg UPort.st (Hub.uport_setUport_same _ _ _)⟩
  · have hneg : ¬(i = 7 ∨ k.ttOf i ≠ i) := fun h => h.elim h7 fun h => h ht
    exact ⟨makes_port_ack _ hh hc rfl h1 h8 (if_neg hneg), fun b => makes_port_ack _ hh hc rfl h1 h8 (if_neg hneg)⟩
  · exact ⟨makes_port_stall _ hh hc rfl h1 h8 (if_pos hbad), fun b => makes_port_stall _ hh hc rfl h1 h8 (if_pos hbad)⟩

end Sys2Proof.Machine

/-! The USB hub's upstream events, its ports and the endpoint services of the function (R390 to R402, R408 to R413). -/

namespace Sys2Proof.Machine

/-! ## A reset of the hub (R398, R413) -/

theorem Hub.dropPosted_port (k : Nat) (h : Hub) (q : Nat) : (Hub.dropPosted k h q).usb.port = h.usb.port := by
  induction k generalizing h with
  | zero => rfl
  | succ k ih =>
    unfold Hub.dropPosted
    split
    · rfl
    · exact ih _

theorem Hub.dropQueue_port (h : Hub) (q : Nat) : (h.dropQueue q).usb.port = h.usb.port := by
  unfold Hub.dropQueue
  split
  · exact Hub.dropPosted_port 32 _ q
  · rfl

theorem Hub.fnReset_port (h : Hub) : h.fnReset.usb.port = h.usb.port := by
  unfold Hub.fnReset
  split
  · rfl
  · exact Hub.each_keep (fun h => h.usb.port) Hub.dropQueue Hub.dropQueue_port h 4

theorem Hub.withdraw_usb (h : Hub) : h.withdraw.usb = { h.usb with wakeAt := none, wakeFn := false, kAt := none, kPorts := [] } := by
  unfold Hub.withdraw
  dsimp only
  split <;> rfl

theorem Hub.netIn_usb (h : Hub) (n : Nat) (x : NetHap) : (h.netIn n x).usb = h.usb := by
  unfold Hub.netIn
  split <;> rfl

theorem Hub.portOff_usb (h : Hub) (i : Nat) : (h.portOff i).usb = h.usb := by
  unfold Hub.portOff
  split
  · split
    · rfl
    · exact Hub.netIn_usb _ _ _
  · rfl

/-- A port is as after power-on, but for its over-current, and its channel is switched off. -/
def Hub.portRestart (h : Hub) (i : Nat) : Hub := (h.setUport i { oc := (h.uport i).oc }).portOff i

theorem Hub.portRestart_uport (h : Hub) (i j : Nat) :
    (h.portRestart i).uport j = if j = i then { oc := (h.uport i).oc } else h.uport j :=
  (Hub.uport_congr (congrArg UsbBlk.port (Hub.portOff_usb _ i)) j).trans (Hub.uport_setUport h i j _)

theorem Hub.portRestart_wake (h : Hub) (i : Nat) : (h.portRestart i).usb.wakeAt = h.usb.wakeAt ∧ (h.portRestart i).usb.kAt = h.usb.kAt := by
  unfold Hub.portRestart
  rw [Hub.portOff_usb]
  exact ⟨rfl, rfl⟩

theorem Hub.portRestart_foldl (l : List Nat) (h : Hub) (j : Nat) :
    (l.foldl Hub.portRestart h).uport j = if j ∈ l then { oc := (h.uport j).oc } else h.uport j := by
  induction l generalizing h with
  | nil => rfl
  | cons i l ih =>
    rw [List.foldl_cons, ih, Hub.portRestart_uport]
    by_cases hj : j = i
    · subst hj
      simp
    · simp [hj]

/-- The hub with its ports, its endpoints and its state as after a reset. -/
theorem Hub.usbHubReset_state (h : Hub) (st v : Nat) : (h.usbHubReset st v).usb.hub = { state := st } ∧ (h.usbHubReset st v).usb.speed = v ∧
    (h.usbHubReset st v).usb.ep = [] ∧ (h.usbHubReset st v).usb.tt = [] ∧ (h.usbHubReset st v).usb.suspAt = none ∧
    (h.usbHubReset st v).usb.wakeAt = none ∧ (h.usbHubReset st v).usb.kAt = none ∧ (h.usbHubReset st v).usb.report = 0 := by
  have hw : (h.fnReset.withdraw.each 8 Hub.portRestart).usb.wakeAt = none :=
    (Hub.each_keep (fun h => h.usb.wakeAt) Hub.portRestart (fun h i => (h.portRestart_wake i).1) _ 8).trans (by rw [Hub.withdraw_usb])
  have hk : (h.fnReset.withdraw.each 8 Hub.portRestart).usb.kAt = none :=
    (Hub.each_keep (fun h => h.usb.kAt) Hub.portRestart (fun h i => (h.portRestart_wake i).2) _ 8).trans (by rw [Hub.withdraw_usb])
  exact ⟨rfl, rfl, rfl, rfl, rfl, hw, hk, rfl⟩

theorem Hub.usbHubReset_uport (h : Hub) (st v : Nat) {i : Nat} (hi : i < 8) : (h.usbHubReset st v).uport i = { oc := (h.uport i).oc } := by
  have hport : (h.usbHubReset st v).uport i = (h.fnReset.withdraw.each 8 Hub.portRestart).uport i :=
    (Hub.uport_congr (h' := h.usbHubReset st v) (h := (h.fnReset.withdraw.each 8 Hub.portRestart).setUport 8 {}) rfl i).trans
      ((Hub.uport_setUport _ 8 i _).trans (if_neg (by omega)))
  have hold : h.fnReset.withdraw.uport i = h.uport i :=
    Hub.uport_congr ((congrArg UsbBlk.port (Hub.withdraw_usb _)).trans h.fnReset_port) i
  rw [hport, Hub.each, Hub.portRestart_foldl, if_pos (List.mem_range.mpr hi), hold]

/-! ## VBUS and attachment (R390) -/

/-- The level of VBUS is noted. -/
def Hub.vbusAt (h : Hub) (v : Bool) : Hub := { h with usb := { h.usb with vbus := v } }

/-- VBUS becomes invalid: the hub is reset, and both events are noted. -/
theorem Hub.vbusChange_lost (h : Hub) (hv : h.usb.vbus = true) : (h.vbusChange false).usb.vbus = false ∧ (h.vbusChange false).usb.hub = {} ∧
    (h.vbusChange false).usb.suspAt = none ∧ (h.vbusChange false).flag Reg.USB_EVT F.USB_EVT_VBUS_CHANGE = true ∧
    (h.vbusChange false).flag Reg.USB_EVT F.USB_EVT_BUS_RESET = true := by
  have hc : h.vbusChange false = ((((h.usbHubReset 0 0).usbEvt F.USB_EVT_VBUS_CHANGE).vbusAt false).count Reg.USB_CNT_BUS_RESET).usbEvt
      F.USB_EVT_BUS_RESET := by
    unfold Hub.vbusChange
    rw [if_neg (by rw [hv]; decide)]
    rfl
  obtain ⟨hhub, -, -, -, hsusp, -⟩ := h.usbHubReset_state 0 0
  rw [hc]
  generalize h.usbHubReset 0 0 = k at hhub hsusp
  refine ⟨rfl, hhub, hsusp, ?_, Hub.flag_evt _ _ 0 (by decide)⟩
  have hfld := (Hub.fld_evt_ne (((k.usbEvt F.USB_EVT_VBUS_CHANGE).vbusAt false).count Reg.USB_CNT_BUS_RESET) Reg.USB_EVT (n := 0)
    (f := F.USB_EVT_VBUS_CHANGE) (by decide) (by decide)).trans ((Hub.fld_of_rd _ (Hub.rd_count_ne _ (by decide))).trans
    (Hub.fld_evt k Reg.USB_EVT 10 (by decide)))
  exact congrArg (· != 0) hfld

/-- A write of `USB_CTL` sets `ATTACH` as it says. -/
theorem Hub.regWrite_attach (h : Hub) (w : Word) (live : Bool) :
    (h.regWrite Reg.USB_CTL w live Hub.usbRefuse).fld Reg.USB_CTL F.USB_CTL_ATTACH = bits w F.USB_CTL_ATTACH := by
  have hrd : (h.regWrite Reg.USB_CTL w live Hub.usbRefuse).rd Reg.USB_CTL =
      (applyFields live w (fieldsAt Reg.USB_CTL) (h.rd Reg.USB_CTL, false)).1 := by
    unfold Hub.regWrite Hub.when
    dsimp only
    split
    · exact (Hub.rd_evt_ne _ _ (by decide)).trans (Hub.rd_wr_same _ _ _)
    · exact Hub.rd_wr_same _ _ _
  have hmem : (⟨1, 1, .rw⟩ : RegField) ∈ fieldsAt Reg.USB_CTL := by decide +kernel
  rw [Hub.fld, hrd]
  refine bits_eq_of_testBit (f := ⟨1, 1, .rw⟩) fun i hi => ?_
  rw [bits_applyFields (fieldsAt_apart _) hmem hi]
  rfl

theorem Hub.usbCtlWrite_fails {h : Hub} {w : Word} {e d r : Nat} (ha : h.flag Reg.USB_CTL F.USB_CTL_ATTACH = false)
    (hw : bits w F.USB_CTL_ATTACH = 1) (hc : h.epCheck = some (e, d, r)) :
    h.usbCtlWrite w = (h.wr Reg.USB_EP_CHECK (word (e + d * 16 + r * 32))).usbRefuse := by
  unfold Hub.usbCtlWrite
  dsimp only
  rw [if_pos ⟨ha, hw⟩, hc]

/-- The block runs: no port is started afresh. -/
theorem Hub.usbCtlWrite_takes {h : Hub} {w : Word} (hen : h.usbEn = true)
    (hc : h.flag Reg.USB_CTL F.USB_CTL_ATTACH = false → bits w F.USB_CTL_ATTACH = 1 → h.epCheck = none) :
    h.usbCtlWrite w = (let k := h.regWrite Reg.USB_CTL w (h.flag Reg.USB_CTL F.USB_CTL_ATTACH) Hub.usbRefuse
      if h.attached = true ∧ k.attached = false then k.usbHubReset 0 0 else k) := by
  have hnone : (if h.flag Reg.USB_CTL F.USB_CTL_ATTACH = false ∧ bits w F.USB_CTL_ATTACH = 1 then h.epCheck else none) = none :=
    ite_eq_right_iff.mpr fun hb => hc hb.1 hb.2
  unfold Hub.usbCtlWrite
  dsimp only
  rw [hnone]
  dsimp only
  have hrun : ¬(h.usbEn = false ∧ (h.regWrite Reg.USB_CTL w (h.flag Reg.USB_CTL F.USB_CTL_ATTACH) Hub.usbRefuse).usbEn = true) :=
    fun hb => Bool.noConfusion (hen.symm.trans hb.1)
  rw [if_neg hrun]

/-- `ATTACH` is cleared: the hub is reset. -/
theorem Hub.usbCtlWrite_detach {h : Hub} {w : Word} (ha : h.attached = true) (hen : h.usbEn = true) (hw : bits w F.USB_CTL_ATTACH = 0) :
    h.usbCtlWrite w = (h.regWrite Reg.USB_CTL w true Hub.usbRefuse).usbHubReset 0 0 := by
  have hatt : h.flag Reg.USB_CTL F.USB_CTL_ATTACH = true := (Bool.and_eq_true_iff.mp ha).2
  have hoff : (h.regWrite Reg.USB_CTL w true Hub.usbRefuse).attached = false :=
    Bool.and_eq_false_imp.mpr fun _ => congrArg (· != 0) ((h.regWrite_attach w true).trans hw)
  rw [Hub.usbCtlWrite_takes hen fun hb => Bool.noConfusion (hatt.symm.trans hb), hatt]
  exact if_pos ⟨ha, hoff⟩

/-! ## Suspend and resume (R399 to R402) -/

theorem Hub.portResume_uport (h : Hub) (i j : Nat) : ((h.portResume i).uport j).st =
    if j = i ∧ (h.uport j).st = .suspended then .resuming else (h.uport j).st := by
  unfold Hub.portResume
  by_cases hs : (h.uport i).st = .suspended
  · rw [if_pos hs, Hub.uport_setUport]
    by_cases hj : j = i
    · subst hj
      rw [if_pos rfl, if_pos ⟨rfl, hs⟩]
    · rw [if_neg hj, if_neg fun hb => hj hb.1]
  · rw [if_neg hs, if_neg]
    rintro ⟨rfl, hb⟩
    exact hs hb

/-- A resuming port goes on resuming. -/
theorem Hub.portResume_foldl_resuming (l : List Nat) (h : Hub) {j : Nat} (hj : (h.uport j).st = .resuming) :
    ((l.foldl Hub.portResume h).uport j).st = .resuming := by
  induction l generalizing h with
  | nil => exact hj
  | cons i l ih => exact ih _ (by rw [Hub.portResume_uport, hj]; exact ite_self _)

theorem Hub.portResume_foldl (l : List Nat) (h : Hub) {j : Nat} (hm : j ∈ l) (hj : (h.uport j).st = .suspended) :
    ((l.foldl Hub.portResume h).uport j).st = .resuming := by
  induction l generalizing h with
  | nil => cases hm
  | cons i l ih =>
    by_cases hi : j = i
    · exact Hub.portResume_foldl_resuming l _ (by rw [Hub.portResume_uport, if_pos ⟨hi, hj⟩])
    · refine ih _ ((List.mem_cons.mp hm).resolve_left hi) ?_
      rw [Hub.portResume_uport, if_neg fun hb => hi hb.1, hj]

theorem Hub.usbResume_leaves (h : Hub) : h.usbResume.usb.suspAt = none ∧ h.usbResume.usb.wakeAt = none ∧ h.usbResume.usb.kAt = none ∧
    h.usbResume.flag Reg.USB_EVT F.USB_EVT_RESUME = true ∧
    ∀ i, i ∈ h.usb.kPorts → (h.uport i).st = .suspended → (h.usbResume.uport i).st = .resuming :=
  ⟨rfl, rfl, rfl, Hub.flag_evt _ _ 2 (by decide), fun _ hm hj => Hub.portResume_foldl _ h hm hj⟩

/-! ## Ports (R392, R393, R400) -/

theorem Hub.portDisconnect_takes {h : Hub} {i : Nat} (hst : (h.uport i).st = .disabled ∨ (h.uport i).st = .enabled ∨
    (h.uport i).st = .suspended ∨ (h.uport i).st = .resuming) : h.portDisconnect i =
      ((h.setUport i { h.uport i with st := .disconnected, conn := false, low := false, high := false }).uportChange i 0).wakeEvent false :=
  if_pos hst

/-- K from the device of a port, by the hub's suspend and the port's state. -/
theorem Hub.portK_cases (h : Hub) (i : Nat) :
    ((h.uport i).st = .suspended → h.usb.suspAt = none → h.portK i = h.setUport i { h.uport i with st := .resuming, at_ := h.now }) ∧
    (h.usb.suspAt.isSome = true → (h.uport i).st = .enabled → h.portK i = h.wakeEvent false) ∧
    (h.usb.suspAt.isSome = true → (h.uport i).st = .suspended → h.usb.kPorts.contains i = false →
      h.portK i = Hub.wakeEvent { h with usb := { h.usb with kPorts := h.usb.kPorts ++ [i] } } false) := by
  unfold Hub.portK
  dsimp only
  refine ⟨fun hst hs => ?_, fun hs hst => ?_, fun hs hst hc => ?_⟩
  · rw [hs]
    exact if_pos hst
  · rw [if_pos hs, if_pos hst]
  · rw [if_pos hs, if_neg (by rw [hst]; decide), if_pos hst, hc]
    rfl

/-! ## The endpoint services (R409, R410) -/

section
variable {s : State} {e : Fin 16} {i : Instr} {d svc : Nat}

/-- The function serves `svc` on endpoint `e` in direction `d`, which neither is halted nor has lost its service. -/
structure Serves (h : Hub) (e : Fin 16) (d svc : Nat) : Prop where
  ep : e ≠ 0
  configured : h.usb.fn.state = 3
  reached : h.fnReached = true
  on : h.epOn e d = true
  served : h.epSvc e d = svc
  live : (h.uep (2 * e + d)).halted = false
  up : h.svcUp e d = true

theorem Hub.epTxn_run {h : Hub} (hv : Serves h e d svc) (run : Hub → Hub) : h.epTxn e d svc run = run h := by
  obtain ⟨hep, hst, hre, hon, hsv, hlive, hup⟩ := hv
  have he : (e : Nat) ≠ 0 := fun h0 => hep (Fin.ext h0)
  unfold Hub.epTxn
  rw [if_neg (by simp [he, hst, hre, hon, hsv]), hlive, hup]
  rfl

theorem makes_served {k : Hub} (run : Hub → Hub) (hh : s.hub.held = false) (he : exec i s = s.on fun h => h.epTxn e d svc run)
    (hv : Serves s.hub e d svc) (hr : run s.hub = k) : Makes i s k :=
  makes_on (fun h => h.epTxn e d svc run) hh he ((Hub.epTxn_run hv run).trans hr)

theorem usbCmdOut_makes (bs : List Byte) (hh : s.hub.held = false) (hv : Serves s.hub e 0 1) (hb : bs.length ≤ s.hub.epMps e 0) :
    let q := s.hub.epQueue e 0
    let all := (s.hub.uep (2 * e)).data ++ bs
    let r := Hub.cmdBytes (all.length / 32) s.hub q all
    let short := decide (bs.length < s.hub.epMps e 0)
    let k := if short && !r.2.isEmpty then (r.1.count Reg.USB_CNT_CMD_DISCARDED).evt Reg.USB_EVT F.USB_EVT_CMD_DISCARDED else r.1
    Makes (.usbCmdOut e bs) s (if 16 < s.hub.hqWaiting q + s.hub.epF e 0 F.USB_EP_CFG_MPS / 32 then s.hub.nak else
      ((k.setUep (2 * e) { k.uep (2 * e) with data := if short then [] else r.2 }).flip (2 * e)).ackData []) :=
  makes_served _ hh rfl hv (if_neg (Nat.not_lt.mpr hb))

/-- A point-read request is answered by the records it names, or halts the IN endpoint (R409). -/
theorem usbPointReadReq_makes (bs : List Byte) (hh : s.hub.held = false) (hv : Serves s.hub e 0 4) (hd : (s.hub.uep (2 * e + 1)).data = []) :
    (pointReqOk bs = false → Makes (.usbPointReadReq e bs) s (((s.hub.haltEp e 1).flip (2 * e)).ackData [])) ∧
    (pointReqOk bs = true → Makes (.usbPointReadReq e bs) s (((s.hub.setUep (2 * e + 1) { s.hub.uep (2 * e + 1) with
        data := (List.range (beAt bs 4 2)).flatMap fun j =>
          ((s.hub.w2rec (beAt bs 0 1) (beAt bs 2 2 + j)).words).flatMap fun (w : Word) => leBytes 4 w.toNat }).flip (2 * e)).ackData [])) := by
  refine ⟨fun hok => makes_served _ hh rfl hv ((if_neg (not_not.mpr hd)).trans ?_),
    fun hok => makes_served _ hh rfl hv ((if_neg (not_not.mpr hd)).trans ?_)⟩
  · rw [hok]
    rfl
  · rw [hok]
    rfl

end

/-- Settles O47, clause by clause: upstream events, attachment, suspend and resume, ports, endpoint services. -/
theorem usbEventsPortsAndEndpoints : Obligations.UsbEventsPortsAndEndpoints := by
  unfold Obligations.UsbEventsPortsAndEndpoints
  refine ⟨fun s hh => ⟨fun hv => ?_, fun hv => ?_⟩, fun s v hh => makes_any (fun h => if h.held then { h with usb := { h.usb with vbus := v } } else h.vbusChange v)
      rfl (if_pos hh), fun s high hh ha => ?_, fun s high hh ha => ?_,
    fun h st v => ?_, fun s w e d r hh ha hw hc => makes_on (fun h => h.usbCtlWrite w) hh rfl (Hub.usbCtlWrite_fails ha hw hc),
    fun s w hh ha hen hw hc => makes_on (fun h => h.usbCtlWrite w) hh rfl ?_,
    fun s w hh ha hen hw => makes_on (fun h => h.usbCtlWrite w) hh rfl (Hub.usbCtlWrite_detach ha hen hw),
    fun s hh ha hs => makes_on Hub.usbSuspend hh rfl (if_pos ⟨ha, by rw [hs]; rfl⟩),
    fun s t t0 hh hw hs h1 h5 hk => makes_on Hub.wakeEnd hh rfl ?_, fun h t hk => ?_,
    fun s t hh hs hk => makes_on Hub.hostResume hh rfl ?_, Hub.usbResume_leaves,
    fun s i low hh hst => makes_on (fun h => h.portConnect i low) hh rfl (if_pos hst),
    fun s i hh hst => makes_on (fun h => h.portDisconnect i) hh rfl (Hub.portDisconnect_takes hst), fun s i hh => ?_, ?_⟩
  · refine makes_any (fun h => if h.held then { h with usb := { h.usb with vbus := true } } else h.vbusChange true) rfl
      ((if_neg (by rw [hh]; decide)).trans ?_)
    exact (if_neg (by rw [hv]; decide)).trans (if_pos rfl)
  · refine gives_any (fun h => if h.held then { h with usb := { h.usb with vbus := false } } else h.vbusChange false) rfl ?_
    dsimp only
    rw [if_neg (by rw [hh]; decide)]
    exact s.hub.vbusChange_lost hv
  · exact makes_on (fun h => h.usbBusReset high) hh rfl (if_pos ha)
  · exact makes_on (fun h => h.usbBusReset high) hh rfl (if_neg (by rw [ha]; decide))
  · obtain ⟨h1, h2, h3, h4, h5, h6, h7, h8⟩ := h.usbHubReset_state st v
    exact ⟨h1, h2, h3, h4, h5, h6, h7, h8, fun i hi => h.usbHubReset_uport st v hi⟩
  · rw [Hub.usbCtlWrite_takes hen fun _ _ => hc, ha]
    exact if_neg fun hb => Bool.noConfusion (ha.symm.trans (Bool.and_eq_true_iff.mp hb.1).2)
  · unfold Hub.wakeEnd
    rw [hw, hs]
    exact if_pos ⟨h1, h5, by rw [hk]; rfl⟩
  · unfold Hub.wakeSent
    rw [hk]
    rfl
  · unfold Hub.hostResume
    rw [hs, hk]
    rfl
  · obtain ⟨hres, hwake, hks⟩ := s.hub.portK_cases i
    refine ⟨fun hst ht chirp => makes_on (fun h => h.portResetEnd i chirp) hh rfl (if_pos ⟨hst, ht⟩),
      fun hst => makes_on (fun h => h.portBabble i) hh rfl (if_pos hst),
      fun hst hs => makes_on (fun h => h.portK i) hh rfl (hres hst hs), fun hs hst => makes_on (fun h => h.portK i) hh rfl (hwake hs hst),
      fun hs hst hc => makes_on (fun h => h.portK i) hh rfl (hks hs hst hc),
      fun hst ht => makes_on (fun h => h.portResumeEnd i) hh rfl (if_pos ⟨hst, ht⟩)⟩
  · intro s e bs serves live hh
    have hv : ∀ {d svc}, serves d svc → live d → Serves s.hub e d svc := fun ⟨h1, h2, h3, h4, h5⟩ ⟨h6, h7⟩ => ⟨h1, h2, h3, h4, h5, h6, h7⟩
    exact ⟨fun h1 h2 => usbCmdOut_makes bs hh (hv h1 h2), fun h1 h2 => makes_served _ hh rfl (hv h1 h2) rfl,
      fun h1 h2 => makes_served _ hh rfl (hv h1 h2) rfl, fun h1 h2 hd => (usbPointReadReq_makes bs hh (hv h1 h2) hd).1,
      fun h1 h2 hd => (usbPointReadReq_makes bs hh (hv h1 h2) hd).2, fun h1 h2 => makes_served _ hh rfl (hv h1 h2) rfl⟩

end Sys2Proof.Machine

/-! Commands take no time: whatever a command does, the hub's time is as before (R455). -/

namespace Sys2Proof.Machine

/-! ## Operations that commands are made of -/

theorem Hub.answer_now (h : Hub) (r : CmdRef) (status : Nat) (res : List Word) : (h.answer r status res).now = h.now := by
  unfold Hub.answer
  split
  · rw [Hub.respond_fields]
    rfl
  · split
    · rfl
    · rw [Hub.respond_fields]
  · rw [Hub.respond_fields]

theorem Hub.logRefusal_now (h : Hub) (r : CmdRef) (st d o : Nat) : (h.logRefusal r st d o).now = h.now := by
  unfold Hub.logRefusal
  dsimp only
  rw [Hub.evt_now, Hub.count_now, Hub.setFld_now, Hub.wr_now, Hub.wr_now, Hub.wr_now, Hub.wr_now]

theorem Hub.refuse_now (h : Hub) (c : CmdIn) (st d o : Nat) : (h.refuse c st d o).now = h.now := by
  rw [Hub.refuse, Hub.respond_fields]
  exact h.logRefusal_now c.ref st d o

theorem Hub.jnlCmd_now (h : Hub) (c : CmdIn) : (h.jnlCmd c).now = h.now := by
  unfold Hub.jnlCmd
  split
  · exact h.jnl_now _ _
  · rfl

theorem Hub.drive_now (h : Hub) (o : Output) : (h.drive o).now = h.now := by
  unfold Hub.drive
  split <;> rfl

theorem Hub.setVersion_now (h : Hub) (v : Nat) (src : CmdSrc) : (h.setVersion v src).now = h.now := by cases src <;> rfl

theorem Hub.paradeSend_now (h : Hub) (p : Nat) (turned : Bool) (x : Parade) : (h.paradeSend p turned x).now = h.now := by
  rw [Hub.paradeSend, Hub.coreSend_but]

theorem Hub.launchSurvey_now (h : Hub) (tries : Nat) : (h.launchSurvey tries).now = h.now := by
  unfold Hub.launchSurvey
  split
  · rfl
  · dsimp only
    split <;> split <;> simp only [Hub.paradeSend_now]

theorem Hub.lateReq_now (h : Hub) : h.lateReq.now = h.now := by rw [Hub.lateReq_but]

theorem Hub.genAdvance_now (h : Hub) (mask : Nat) : (h.genAdvance mask).now = h.now := by
  unfold Hub.genAdvance
  exact foldl_keeps Hub.now _ (fun _ _ => by dsimp only; split <;> rfl) _ h

theorem Hub.tqFlush_now (h : Hub) (q : Nat) : (h.tqFlush q).now = h.now := by rw [Hub.tqFlush_but]

theorem Hub.releaseDe_now (h : Hub) (n : Nat) : (h.releaseDe n).now = h.now := by
  unfold Hub.releaseDe
  dsimp only
  split <;> rfl

theorem Hub.canStopped_now (h : Hub) (n : Nat) : (h.canStopped n).now = h.now := by
  unfold Hub.canStopped
  exact foldl_keeps Hub.now (fun h r => h.answer r sOK []) (fun h r => h.answer_now r sOK []) _ _

theorem Hub.enterSync_now (h : Hub) : h.enterSync.now = h.now := (h.setRole_kept .syncing).1

theorem Hub.issueTxn_now {h k : Hub} {kind : TxnKind} {origin node point count landing : Nat} {recs : List Rec} {ref : Option CmdRef}
    (hk : h.issueTxn kind origin node point count landing recs ref = some k) : k.now = h.now := by
  unfold Hub.issueTxn at hk
  split at hk
  · cases hk
  · cases hk
    exact Hub.sendTag_now _ _ _

theorem Hub.subFill_now (h : Hub) (i : Nat) (r : Rec) : (h.subFill i r).now = h.now := by
  unfold Hub.subFill
  refine foldl_keeps Hub.now _ ?_ _ h
  exact fun _ _ => rfl

theorem Hub.openSub_now {h k : Hub} {i origin : Nat} (hk : h.openSub i origin = some k) : k.now = h.now := by
  unfold Hub.openSub at hk
  split at hk
  next g hg =>
    cases hk
    exact (Hub.subFill_now g i _).trans (Hub.issueTxn_now hg)
  next => cases hk

theorem Hub.abandonSub_now (h : Hub) (i : Nat) : (h.abandonSub i).now = h.now := by
  unfold Hub.abandonSub
  exact foldl_keeps Hub.now _ (fun _ _ => by dsimp only; split <;> rfl) _ h

theorem Hub.netIn_now (h : Hub) (n : Nat) (x : NetHap) : (h.netIn n x).now = h.now := by
  unfold Hub.netIn
  split <;> rfl

theorem Hub.servoTo_now (h : Hub) (b : Nat) (st : ServoSt) : (h.servoTo b st).now = h.now := by
  unfold Hub.servoTo
  split <;> rfl

theorem Hub.servoBack_now (h : Hub) (b : Nat) : (h.servoBack b).now = h.now := by
  unfold Hub.servoBack
  split
  · exact h.servoTo_now b _
  · rfl

theorem Hub.stepTaken_now (h : Hub) (b : Nat) (z : Int) : (h.stepTaken b z).now = h.now := by
  unfold Hub.stepTaken
  split <;> rfl

theorem Hub.judgeStep_now (h : Hub) (b : Nat) (z : Int) : (h.judgeStep b z).2.now = h.now := by
  rw [Hub.judgeStep_eq]
  split
  · rfl
  split
  · exact (Hub.stepTaken_now _ b z).trans (h.servoTo_now b _)
  split
  · exact (Hub.servoBack_now _ b).trans (h.stepTaken_now b z)
  split
  · exact (Hub.servoBack_now _ b).trans (Hub.stepTaken_now _ b z)
  · rfl

theorem Hub.putSlot_now (h : Hub) (rk : Fin 4) (i : Nat) (r : Rec) : (h.putSlot rk i r).now = h.now := by rw [Hub.putSlot_fields]

theorem Hub.hostWrite_now (h : Hub) (slot : Nat) (value : Word) (q : Nat) (ts : Option Nat) (event : Bool) :
    (h.hostWrite slot value q ts event).2.now = h.now := by
  unfold Hub.hostWrite
  dsimp only
  split
  · rfl
  split
  · rfl
  split
  · rfl
  split
  · exact h.putSlot_now _ _ _
  · exact h.putSlot_now _ _ _

/-! ## Commands of a Fret Engine -/

theorem Hub.frFlush_now (h : Hub) (e : Nat) (rx tx : Bool) : (h.frFlush e rx tx).now = h.now := by cases rx <;> cases tx <;> rfl

theorem Hub.frPin_now (h : Hub) (e : Nat) (isDir : Bool) (p : Nat) (v : Bool) : (h.frPin e isDir p v).now = h.now := by
  unfold Hub.frPin
  dsimp only
  split
  · rfl
  generalize tget ({} : PinWr) h.fret.wrote (2 * (36 * (e / 4) + p) + bitB isDir) = w
  generalize (if w.cyc = h.fretCyc then w.engs else []) = engs
  obtain _ | ⟨o, _ | ⟨o', l⟩⟩ := engs
  all_goals (split_ifs <;> rfl)

theorem Hub.frStrobeTo_now (h : Hub) (e : Nat) (v : Bool) : (h.frStrobeTo e v).now = h.now := by
  unfold Hub.frStrobeTo
  dsimp only
  split
  · exact h.frPin_now e false _ v
  · exact (Hub.frPin_now _ e true _ true).trans (h.frPin_now e false _ v)

theorem Hub.frDrive_now (h old : Hub) (k : Nat) : (h.frDrive old k).now = h.now := by
  unfold Hub.frDrive
  split
  · rfl
  · exact h.drive_now _

/-! ## What a command's own checks and effect answer -/

/-- An answer whose hub stands at time `t`. -/
def Ack.keeps (t : Nat) : Ack → Prop
  | .refuse _ _ _ => True
  | .done h _ => h.now = t
  | .later h => h.now = t

/-- A check refuses, or the rest answers. -/
theorem keeps_guard {t st d o : Nat} {c : Prop} [Decidable c] {a : Ack} (ha : a.keeps t) : (if c then .refuse st d o else a).keeps t := by
  split
  · trivial
  · exact ha

theorem runNodeHello_keeps (h : Hub) (c : CmdIn) : (runNodeHello h c).keeps h.now := keeps_guard (keeps_guard (h.setVersion_now _ _))
theorem runNodeInfo_keeps (h : Hub) (c : CmdIn) : (runNodeInfo h c).keeps h.now := keeps_guard rfl
theorem runNodeReset_keeps (h : Hub) (c : CmdIn) : (runNodeReset h c).keeps h.now := keeps_guard (keeps_guard rfl)

theorem runRingParade_keeps (h : Hub) (c : CmdIn) : (runRingParade h c).keeps h.now := by
  refine keeps_guard (keeps_guard ?_)
  show (if h.ring.leader then h.launchSurvey 1 else h.lateReq).now = h.now
  split
  · exact h.launchSurvey_now 1
  · exact h.lateReq_now

theorem runRingLinkRestart_keeps (h : Hub) (c : CmdIn) : (runRingLinkRestart h c).keeps h.now := keeps_guard (keeps_guard (h.linkDown_now _))
theorem runFence_keeps (h : Hub) (c : CmdIn) : (runFence h c).keeps h.now := keeps_guard (keeps_guard (keeps_guard (h.genAdvance_now _)))
theorem runMacFlush_keeps (h : Hub) (c : CmdIn) : (runMacFlush h c).keeps h.now := keeps_guard rfl
theorem runTmQFlush_keeps (h : Hub) (c : CmdIn) : (runTmQFlush h c).keeps h.now := keeps_guard (keeps_guard (h.tqFlush_now _))

theorem Hub.fillBucket_now (h : Hub) (i : Nat) : (h.fillBucket i).now = h.now := by rw [Hub.fillBucket, Hub.setBucket_now]

theorem runTmPolFill_keeps (h : Hub) (c : CmdIn) : (runTmPolFill h c).keeps h.now := keeps_guard (h.fillBucket_now _)

theorem runCtxLoad_keeps (h : Hub) (c : CmdIn) : (runCtxLoad h c).keeps h.now := by
  unfold runCtxLoad
  dsimp only
  exact keeps_guard (keeps_guard ((Hub.setCtx_now _ _ _).trans ((Hub.wr_now _ _ _).trans (Hub.wr_now _ _ _))))

theorem runCtxStart_keeps (h : Hub) (c : CmdIn) : (runCtxStart h c).keeps h.now := keeps_guard (keeps_guard (keeps_guard rfl))
theorem runCtxStop_keeps (h : Hub) (c : CmdIn) : (runCtxStop h c).keeps h.now := keeps_guard (keeps_guard rfl)
theorem runStrumStart_keeps (h : Hub) (c : CmdIn) : (runStrumStart h c).keeps h.now := keeps_guard (keeps_guard rfl)
theorem runStrumStop_keeps (h : Hub) (c : CmdIn) : (runStrumStop h c).keeps h.now := keeps_guard (keeps_guard rfl)

theorem runFretLoad_keeps (h : Hub) (c : CmdIn) : (runFretLoad h c).keeps h.now := by
  unfold runFretLoad
  dsimp only
  refine keeps_guard (keeps_guard ?_)
  split
  · exact (Hub.setEng_now _ _ _).trans (Hub.wr_now _ _ _)
  · trivial

theorem runFretStart_keeps (h : Hub) (c : CmdIn) : (runFretStart h c).keeps h.now := by
  unfold runFretStart
  dsimp only
  refine keeps_guard ?_
  split
  · trivial
  split
  · trivial
  refine foldl_keeps Hub.now _ ?_ _ h
  intro k e
  rw [Hub.frDrive_now]
  split
  · exact Hub.frStrobeTo_now _ _ _
  · rfl

theorem runFretStop_keeps (h : Hub) (c : CmdIn) : (runFretStop h c).keeps h.now := by
  unfold runFretStop
  dsimp only
  refine keeps_guard ?_
  split
  · trivial
  · refine foldl_keeps Hub.now _ ?_ _ h
    exact fun _ _ => rfl

theorem runFretFlush_keeps (h : Hub) (c : CmdIn) : (runFretFlush h c).keeps h.now := keeps_guard (keeps_guard (h.frFlush_now _ _ _))
theorem runLaneStart_keeps (h : Hub) (c : CmdIn) : (runLaneStart h c).keeps h.now := keeps_guard (keeps_guard rfl)

theorem runLaneStop_keeps (h : Hub) (c : CmdIn) : (runLaneStop h c).keeps h.now := by
  unfold runLaneStop
  dsimp only
  refine keeps_guard ?_
  split
  · trivial
  · show Hub.now (if _ then _ else _) = _
    split
    · exact Hub.releaseDe_now _ _
    · rfl
  · show Hub.now (if _ then _ else _) = _
    split
    · exact Hub.releaseDe_now _ _
    · rfl

theorem runLaneFlush_keeps (h : Hub) (c : CmdIn) : (runLaneFlush h c).keeps h.now := by
  refine keeps_guard (keeps_guard ?_)
  cases testBit (c.arg 2) 0 <;> cases testBit (c.arg 2) 1 <;> rfl

theorem runLaneDout_keeps (h : Hub) (c : CmdIn) : (runLaneDout h c).keeps h.now := keeps_guard (keeps_guard (Hub.drive_now _ _))
theorem runCanStart_keeps (h : Hub) (c : CmdIn) : (runCanStart h c).keeps h.now := keeps_guard (keeps_guard rfl)

theorem runCanStop_keeps (h : Hub) (c : CmdIn) : (runCanStop h c).keeps h.now := by
  unfold runCanStop
  dsimp only
  refine keeps_guard ?_
  split
  · trivial
  · exact h.canStopped_now _
  · exact h.canStopped_now _
  · rfl
  · rfl

theorem runCanFlush_keeps (h : Hub) (c : CmdIn) : (runCanFlush h c).keeps h.now := by
  refine keeps_guard (keeps_guard ?_)
  cases testBit (c.arg 2) 0 <;> cases testBit (c.arg 2) 1 <;> rfl

theorem runCanRecover_keeps (h : Hub) (c : CmdIn) : (runCanRecover h c).keeps h.now := keeps_guard (keeps_guard rfl)
theorem runTimePermit_keeps (h : Hub) (c : CmdIn) : (runTimePermit h c).keeps h.now := keeps_guard rfl
theorem runTimeSlew_keeps (h : Hub) (c : CmdIn) : (runTimeSlew h c).keeps h.now := keeps_guard (keeps_guard rfl)

theorem runTwinResync_keeps (h : Hub) (c : CmdIn) : (runTwinResync h c).keeps h.now := by
  refine keeps_guard ?_
  split
  · exact h.enterSync_now
  · exact keeps_guard rfl

theorem runRevertHold_keeps (h : Hub) (c : CmdIn) : (runRevertHold h c).keeps h.now := keeps_guard (keeps_guard rfl)

/-- Commands on a mask of channels. -/
theorem netMask_now (x : NetHap) (l : List Nat) (h : Hub) : (l.foldl (fun h n => h.netIn n x) h.netLive).now = h.now :=
  foldl_keeps Hub.now (fun h n => h.netIn n x) (fun h n => h.netIn_now n x) l h.netLive

theorem runNetOn_keeps (h : Hub) (c : CmdIn) : (runNetOn h c).keeps h.now := by
  refine keeps_guard ?_
  split
  · trivial
  split
  · trivial
  · exact netMask_now .cmdOn _ h

theorem runNetOff_keeps (h : Hub) (c : CmdIn) : (runNetOff h c).keeps h.now := by
  refine keeps_guard ?_
  split
  · trivial
  · exact netMask_now .cmdOff _ h

theorem runNetClear_keeps (h : Hub) (c : CmdIn) : (runNetClear h c).keeps h.now := by
  refine keeps_guard ?_
  split
  · trivial
  · exact netMask_now .cmdClear _ h

theorem runRingLoop_keeps (h : Hub) (c : CmdIn) : (runRingLoop h c).keeps h.now :=
  keeps_guard (keeps_guard (keeps_guard (keeps_guard (h.linkDown_now _))))

theorem runDrill_keeps (h : Hub) (c : CmdIn) : (runDrill h c).keeps h.now := keeps_guard (keeps_guard (keeps_guard rfl))
theorem runNetGateTest_keeps (h : Hub) (c : CmdIn) : (runNetGateTest h c).keeps h.now := keeps_guard (keeps_guard (keeps_guard rfl))

theorem runLeakAudit_keeps (h : Hub) (c : CmdIn) : (runLeakAudit h c).keeps h.now := by
  refine keeps_guard ?_
  dsimp only
  split <;> rfl

theorem runScrubNow_keeps (h : Hub) (c : CmdIn) : (runScrubNow h c).keeps h.now := keeps_guard rfl

theorem Hub.loopStop_now (h : Hub) : h.loopStop.now = h.now := by
  unfold Hub.loopStop
  split
  · split
    · rfl
    · exact rfl
  · rfl

theorem runMaintEnd_keeps (h : Hub) (c : CmdIn) : (runMaintEnd h c).keeps h.now := by
  refine keeps_guard ?_
  split
  · exact h.loopStop_now
  · trivial

theorem runPtRead_keeps (h : Hub) (c : CmdIn) : (runPtRead h c).keeps h.now := by
  refine keeps_guard ?_
  split
  next k hk => exact Hub.issueTxn_now hk
  next => trivial

theorem runPtSubOpen_keeps (h : Hub) (c : CmdIn) : (runPtSubOpen h c).keeps h.now := by
  refine keeps_guard (keeps_guard (keeps_guard ?_))
  split
  next k hk => exact Hub.openSub_now hk
  next => trivial

theorem runPtSubClose_keeps (h : Hub) (c : CmdIn) : (runPtSubClose h c).keeps h.now := by
  unfold runPtSubClose
  dsimp only
  exact keeps_guard (keeps_guard ((Hub.setSub_now _ _ _).trans ((Hub.abandonSub_now (h.subFill _ _) _).trans (h.subFill_now _ _))))

theorem runPtMapSet_keeps (h : Hub) (c : CmdIn) : (runPtMapSet h c).keeps h.now := by
  refine keeps_guard ?_
  dsimp only
  split
  · rfl
  · exact (h.mapApply_spec _).2.2.1

/-- The checks and effect of a command leave the time (R465). -/
theorem runOf_keeps (code : Nat) (h : Hub) (c : CmdIn) : (runOf code h c).keeps h.now := by
  unfold runOf
  split
  exacts [runNodeHello_keeps h c, runNodeInfo_keeps h c, runNodeReset_keeps h c, runRingParade_keeps h c, runRingLinkRestart_keeps h c, 
    runFence_keeps h c, runMacFlush_keeps h c, runTmQFlush_keeps h c, runTmPolFill_keeps h c, runCtxLoad_keeps h c, 
    runCtxStart_keeps h c, runCtxStop_keeps h c, runStrumStart_keeps h c, runStrumStop_keeps h c, runFretLoad_keeps h c, 
    runFretStart_keeps h c, runFretStop_keeps h c, runFretFlush_keeps h c, runLaneStart_keeps h c, runLaneStop_keeps h c, 
    runLaneFlush_keeps h c, runLaneDout_keeps h c, runCanStart_keeps h c, runCanStop_keeps h c, runCanFlush_keeps h c, 
    runCanRecover_keeps h c, runTimePermit_keeps h c, runTimeSlew_keeps h c, runTwinResync_keeps h c, runRevertHold_keeps h c, 
    runNetOn_keeps h c, runNetOff_keeps h c, runNetClear_keeps h c, runRingLoop_keeps h c, runDrill_keeps h c, runNetGateTest_keeps h c, 
    runLeakAudit_keeps h c, runScrubNow_keeps h c, trivial, runMaintEnd_keeps h c, runPtRead_keeps h c, runPtSubOpen_keeps h c, 
    runPtSubClose_keeps h c, runPtMapSet_keeps h c, trivial]

/-! ## The acceptance of a command (R455) -/

theorem Hub.accept_now (h : Hub) (c : CmdIn) (run : Hub → CmdIn → Ack) (hr : ∀ k, (run k c).keeps k.now) : (h.accept c run).now = h.now := by
  unfold Hub.accept
  split
  · rfl
  dsimp only
  have hj := h.jnlCmd_now c
  generalize h.jnlCmd c = k at hj
  split
  · exact (k.refuse_now c _ _ _).trans hj
  have hk := hr k
  generalize run k c = a at hk
  cases a with
  | refuse st d o => exact (k.refuse_now c st d o).trans hj
  | done g res => exact (congrArg Hub.now (Hub.respond_fields g c.ref sOK 0 0 res)).trans (hk.trans hj)
  | later g =>
    have hg : g.now = h.now := hk.trans hj
    dsimp only
    split
    · exact hg
    · exact hg

theorem Hub.calJudge_keeps (h : Hub) (c : CmdIn) : (h.calJudge c).2.keeps h.now := by
  unfold Hub.calJudge
  split
  · trivial
  split
  · trivial
  split
  · trivial
  · rfl

theorem Hub.calSwap_now (h : Hub) (c : CmdIn) : (h.calSwap c).now = h.now := by
  unfold Hub.calSwap
  split
  · rfl
  dsimp only
  rw [Hub.accept_now _ c _ fun k => k.calJudge_keeps c]
  split <;> rfl

/-- What a judged step of a base answers leaves the time. -/
def stepKeeps (t : Nat) : Ack ⊕ Hub → Prop
  | .inl a => a.keeps t
  | .inr h => h.now = t

theorem Hub.stepCmd_keeps (h : Hub) (c : CmdIn) (b : Nat) (z : Int) : stepKeeps h.now (h.stepCmd c b z) := by
  unfold Hub.stepCmd
  split
  · trivial
  have hj := h.judgeStep_now b z
  split
  next k hk => rw [hk] at hj; exact hj
  next k hk => rw [hk] at hj; exact (k.refuse_now c _ _ _).trans hj

theorem Hub.timeSetRun_keeps (h : Hub) (c : CmdIn) : stepKeeps h.now (Hub.timeSetRun c h) := by
  unfold Hub.timeSetRun
  dsimp only
  split
  · trivial
  · exact h.stepCmd_keeps c _ _

theorem Hub.timeStepRun_keeps (h : Hub) (c : CmdIn) : stepKeeps h.now (Hub.timeStepRun c h) := by
  unfold Hub.timeStepRun
  dsimp only
  split
  · trivial
  · exact h.stepCmd_keeps c _ _

theorem Hub.acceptStep_now (h : Hub) (c : CmdIn) (run : Hub → Ack ⊕ Hub) (hr : ∀ k, stepKeeps k.now (run k)) :
    (h.acceptStep c run).now = h.now := by
  unfold Hub.acceptStep
  split
  · rfl
  split
  · have hj : (h.jnlCmd c).now = h.now := h.jnlCmd_now c
    show (match run (h.jnlCmd c) with
      | .inr k => k
      | .inl _ => h.jnlCmd c).now = h.now
    have hk := hr (h.jnlCmd c)
    generalize run (h.jnlCmd c) = r at hk
    cases r with
    | inl a => exact hj
    | inr k => exact hk.trans hj
  · refine h.accept_now c _ fun k => ?_
    have hk := hr k
    generalize run k = r at hk
    cases r with
    | inl a => exact hk
    | inr k => trivial

/-- What a write of a point answers leaves the time. -/
theorem Hub.ptWriteCmd_keeps (h : Hub) (c : CmdIn) (event : Bool) : match h.ptWriteCmd c event with
    | .inl a => a.keeps h.now
    | .inr _ => True := by
  unfold Hub.ptWriteCmd
  dsimp only
  by_cases hbad : c.arg 1 ≥ 2 ^ 24 ∨ (c.arg 1 / 65536 % 256 = 0xFF ∧ (event = false ∨ c.arg 1 / 256 % 256 ≠ 0))
  · rw [if_pos hbad]
    trivial
  rw [if_neg hbad]
  by_cases hown : h.ownNode (c.arg 1 / 65536 % 256) = true
  · rw [if_pos hown]
    have hw := h.hostWrite_now (c.arg 1 % 65536) (word (c.arg 2)) (c.arg 3)
      (if testBit (c.arg 4) 0 then some (c.arg 5 + c.arg 6 * 2 ^ 32) else none) event
    generalize h.hostWrite _ _ _ _ _ = r at hw ⊢
    obtain ⟨_ | st, k⟩ := r
    · exact hw
    · trivial
  · rw [if_neg hown]
    generalize hi : h.issueTxn _ _ _ _ _ _ _ _ = r
    cases r with
    | none => trivial
    | some k => exact Hub.issueTxn_now hi

theorem Hub.acceptWrite_now (h : Hub) (c : CmdIn) (event : Bool) : (h.acceptWrite c event).now = h.now := by
  unfold Hub.acceptWrite
  split
  · rfl
  split
  · exact h.accept_now c _ fun _ => trivial
  · refine h.accept_now c _ fun k => ?_
    have hk := k.ptWriteCmd_keeps c event
    generalize k.ptWriteCmd c event = r at hk
    cases r with
    | inl a => exact hk
    | inr x => trivial

theorem Hub.doCmd_now (h : Hub) (c : CmdIn) : (h.doCmd c).now = h.now := by
  unfold Hub.doCmd
  split
  · exact h.calSwap_now c
  · exact h.acceptStep_now c _ fun k => k.timeSetRun_keeps c
  · exact h.acceptStep_now c _ fun k => k.timeStepRun_keeps c
  · exact h.acceptWrite_now c false
  · exact h.acceptWrite_now c true
  · exact h.accept_now c _ fun k => runOf_keeps _ k c

end Sys2Proof.Machine

/-! The setup scripts of the booted image (R435, R480, R484 to R486). -/

namespace Sys2Proof.Machine

/-! ## Records (R480) -/

/-- What a record says, by its type. -/
theorem scriptRec_says (nv : NonVol) (a len off : Nat) :
    let w := beNat (nv.bytes (a + off) 4)
    let n := w % 2 ^ 24
    let addr := beNat (nv.bytes (a + off + 4) 4)
    off + 4 ≤ len →
    (w / 2 ^ 24 = 1 → 1 ≤ n → n ≤ 65535 → off + 8 + 4 * n ≤ len → addr % 4 = 0 → addr + 4 * n ≤ 2 ^ 20 →
      scriptRec nv a len off = (.write addr ((List.range n).map fun i => word (beNat (nv.bytes (a + off + 8 + 4 * i) 4))), 8 + 4 * n)) ∧
    (w / 2 ^ 24 = 2 → n = 8 → off + 36 ≤ len → scriptRec nv a len off =
      (.command ((List.range 8).map fun i => word (beNat (nv.bytes (a + off + 4 + 4 * i) 4))), 36)) ∧
    (w / 2 ^ 24 = 3 → scriptRec nv a len off = (.wait n, 4)) ∧
    (w / 2 ^ 24 = 4 → scriptRec nv a len off = (.end_, 4)) ∧
    (w / 2 ^ 24 = 0 ∨ 4 < w / 2 ^ 24 → (scriptRec nv a len off).1 = .bad) := by
  intro w n addr hlen
  have hrec : scriptRec nv a len off = match w / 2 ^ 24 with
      | 1 => if n = 0 ∨ 65535 < n ∨ decide (off + 4 + 4 * (n + 1) ≤ len) = false ∨ addr % 4 ≠ 0 ∨ 2 ^ 20 < addr + 4 * n then (.bad, 4)
        else (.write addr (nv.words (a + off + 8) n), 8 + 4 * n)
      | 2 => if n ≠ 8 ∨ decide (off + 4 + 4 * 8 ≤ len) = false then (.bad, 4) else (.command (nv.words (a + off + 4) 8), 36)
      | 3 => (.wait n, 4)
      | 4 => (.end_, 4)
      | _ => (.bad, 4) := by
    unfold scriptRec
    exact if_neg (by omega)
  refine ⟨fun hw h1 h2 h3 h4 h5 => ?_, fun hw h1 h2 => ?_, fun hw => ?_, fun hw => ?_, fun hw => ?_⟩
  · rw [hrec, hw]
    exact if_neg (by simp only [decide_eq_false_iff_not]; omega)
  · rw [hrec, hw]
    exact if_neg (by simp only [decide_eq_false_iff_not]; omega)
  · rw [hrec, hw]
    rfl
  · rw [hrec, hw]
    rfl
  · rw [hrec]
    split
    case h_5 => rfl
    all_goals omega

/-! ## Steps of a script -/

section
variable {h : Hub} {nv : NonVol} {x : Script} {i a len n : Nat} {rest : List (Nat × Nat × Nat)}

/-- A well-formed record is applied. -/
theorem Hub.scriptStep_run {r : ScriptRec} (run : Hub → Script → ScriptRec → Nat → Hub) (hh : h.held = false) (hs : h.glb.script = some x)
    (hsec : x.secs = (i, a, len) :: rest) (hr : scriptRec nv a len x.off = (r, n)) (hb : r ≠ .bad) : h.scriptStep nv run = run h x r n := by
  obtain ⟨hcold, hpll⟩ := Hub.held_of hh
  unfold Hub.scriptStep
  rw [if_neg (by simp [hcold, hpll]), hs]
  dsimp only
  rw [hsec]
  dsimp only
  rw [hr]
  cases r with
  | bad => exact absurd rfl hb
  | write | command | wait | end_ => rfl

/-- A malformed record fails. -/
theorem Hub.scriptStep_bad (run : Hub → Script → ScriptRec → Nat → Hub) (hh : h.held = false) (hs : h.glb.script = some x)
    (hsec : x.secs = (i, a, len) :: rest) (hr : scriptRec nv a len x.off = (.bad, n)) : h.scriptStep nv run = h.scriptFail x sEARG := by
  obtain ⟨hcold, hpll⟩ := Hub.held_of hh
  unfold Hub.scriptStep
  rw [if_neg (by simp [hcold, hpll]), hs]
  dsimp only
  rw [hsec]
  dsimp only
  rw [hr]

end

/-- The section of a script's present record. -/
def Script.section (x : Script) : Nat :=
  match x.secs with
  | (i, _, _) :: _ => i
  | [] => 0

/-- The word that a failed record leaves in `GLB_SCRIPT_ERR`. -/
def scriptErr (x : Script) (status : Nat) : Word := word (x.section % 64 + status * 2 ^ 8 + x.rec_ % 65536 * 2 ^ 16)

theorem Hub.setReady_ready (h : Hub) : h.setReady.ready = true := by
  unfold Hub.ready Hub.flag
  rw [Hub.setReady_fld, Hub.fld_setFld _ _ _ _ (by decide)]
  decide

theorem Hub.scriptOver_spec (h : Hub) : h.scriptOver = { h with regs := h.scriptOver.regs, glb := h.scriptOver.glb } ∧ h.scriptOver.ready = true ∧
    h.scriptOver.glb.script = none ∧ (∀ a, a ≠ Reg.GLB_BOOT → h.scriptOver.rd a = h.rd a) ∧
    h.scriptOver.fld Reg.GLB_BOOT F.GLB_BOOT_SCRIPT_FAIL = h.fld Reg.GLB_BOOT F.GLB_BOOT_SCRIPT_FAIL := by
  unfold Hub.scriptOver
  split
  next hr => exact ⟨rfl, hr, rfl, fun _ _ => rfl, rfl⟩
  next =>
    refine ⟨rfl, h.setReady_ready, rfl, fun a ha => Hub.rd_setFld_ne _ _ _ ha, ?_⟩
    rw [Hub.setReady_fld, Hub.fld_setFld_ne _ _ _ _ _ (by decide)]

/-- A record that fails ends the scripts (R486). -/
theorem Hub.scriptFail_spec (h : Hub) (x : Script) (status : Nat) :
    h.scriptFail x status = { h with regs := (h.scriptFail x status).regs, glb := (h.scriptFail x status).glb } ∧
    (∀ a, a ∉ [Reg.GLB_BOOT, Reg.GLB_SCRIPT_ERR, Reg.GLB_EVT] → (h.scriptFail x status).rd a = h.rd a) ∧
    (h.scriptFail x status).ready = true ∧
    (h.scriptFail x status).flag Reg.GLB_BOOT F.GLB_BOOT_SCRIPT_FAIL = true ∧ (h.scriptFail x status).flag Reg.GLB_EVT F.GLB_EVT_SCRIPT_FAIL = true ∧
    (h.scriptFail x status).rd Reg.GLB_SCRIPT_ERR = scriptErr x status ∧ (h.scriptFail x status).glb.script = none := by
  have he : h.scriptFail x status =
      (((h.wr Reg.GLB_SCRIPT_ERR (scriptErr x status)).setFld Reg.GLB_BOOT F.GLB_BOOT_SCRIPT_FAIL 1).glbEvt F.GLB_EVT_SCRIPT_FAIL).scriptOver := rfl
  generalize hk : ((h.wr Reg.GLB_SCRIPT_ERR (scriptErr x status)).setFld Reg.GLB_BOOT F.GLB_BOOT_SCRIPT_FAIL 1).glbEvt F.GLB_EVT_SCRIPT_FAIL = k at he
  have hkbut : k = { h with regs := k.regs } := by rw [← hk]; rfl
  obtain ⟨hbut, hready, hnone, hrd, hfail⟩ := k.scriptOver_spec
  rw [he]
  refine ⟨?_, fun a ha => ?_, hready, ?_, ?_, ?_, hnone⟩
  · rw [hbut, hkbut]
  · simp only [List.mem_cons, List.not_mem_nil, or_false, not_or] at ha
    obtain ⟨hboot, herr, hevt⟩ := ha
    rw [hrd a hboot, ← hk]
    exact (Hub.rd_evt_ne _ _ hevt).trans ((Hub.rd_setFld_ne _ _ _ hboot).trans (Hub.rd_wr_ne _ _ herr))
  · unfold Hub.flag
    rw [hfail, ← hk, Hub.glbEvt, Hub.fld_of_rd _ (Hub.rd_evt_ne _ _ (by decide)), Hub.fld_setFld _ _ _ _ (by decide)]
    decide
  · rw [Hub.flag_of_rd _ (hrd _ (by decide)), ← hk]
    exact Hub.flag_evt _ _ _ (by decide)
  · rw [hrd _ (by decide), ← hk]
    exact (Hub.rd_evt_ne _ _ (by decide)).trans ((Hub.rd_setFld_ne _ _ _ (by decide)).trans (Hub.rd_wr_same _ _ _))

theorem scriptErr_status (x : Script) (st : Nat) : bits (scriptErr x st) F.GLB_SCRIPT_ERR_STATUS = st % 256 := by
  unfold scriptErr
  generalize x.section = s, x.rec_ = r
  unfold bits bitsN word
  rw [BitVec.toNat_ofNat]
  show (s % 64 + st * 256 + r % 65536 * 65536) % 4294967296 / 256 % 256 = st % 256
  omega

theorem Hub.scriptAnswered_fail (h : Hub) (nv : NonVol) (x : Script) (ws : List Word) (n : Nat) {st : Nat} (hs : st ≠ sOK) :
    h.scriptAnswered nv x ws n st = h.scriptFail x st := if_pos hs

theorem Hub.scriptAnswered_ok (h : Hub) (nv : NonVol) (x : Script) (ws : List Word) (n : Nat) : (h.scriptAnswered nv x ws n sOK).glb.script =
    some { x with off := x.off + n, rec_ := x.rec_ + 1, wait := none, cmdAt := none } := by
  unfold Hub.scriptAnswered
  rw [if_neg (fun h => h rfl)]
  split <;> rfl

/-! ## The mask of a script's `NET_ON` (R435) -/

/-- A sum of distinct powers of two holds just those bits. -/
theorem sum_pow_bits (p : Nat → Bool) : ∀ k : Nat, (below k p).foldl (fun x n => x + 2 ^ n) 0 < 2 ^ k ∧
    ∀ n, n < k → ((below k p).foldl (fun x n => x + 2 ^ n) 0).testBit n = p n := by
  intro k
  induction k with
  | zero => exact ⟨Nat.zero_lt_one, fun n hn => absurd hn (Nat.not_lt_zero n)⟩
  | succ k ih =>
    obtain ⟨hlt, hbit⟩ := ih
    have hstep : (below (k + 1) p).foldl (fun x n => x + 2 ^ n) 0 = 2 ^ k * bitB (p k) + (below k p).foldl (fun x n => x + 2 ^ n) 0 := by
      unfold below
      rw [List.range_succ, List.filter_append, List.foldl_append]
      cases hp : p k <;> simp [hp, bitB, Nat.add_comm]
    rw [hstep]
    refine ⟨?_, fun n hn => ?_⟩
    · have hb : bitB (p k) ≤ 1 := by cases p k <;> decide
      have hmul : 2 ^ k * bitB (p k) ≤ 2 ^ k * 1 := Nat.mul_le_mul_left _ hb
      rw [Nat.pow_succ]
      omega
    · rw [Nat.testBit_two_pow_mul_add _ hlt]
      split
      next hk => exact hbit n hk
      next hk =>
        obtain rfl : n = k := by omega
        rw [Nat.sub_self]
        cases p n <;> rfl

/-- The mask keeps the channels that are `OFF`. -/
theorem Hub.scriptCmd_mask {h : Hub} {ws : List Word} (hc : (ws.getD 0 0).toNat % 65536 = 0x0B01) {n : Nat} (hn : n < 16) :
    testBit ((h.scriptCmd ws).arg 1) n = (testBit (ws.getD 1 0).toNat n && decide ((h.netSeen n).st = .off)) := by
  have harg : (cmdOf .script ws).arg 1 = (ws.getD 1 0).toNat := by
    cases ws with
    | nil => rfl
    | cons w0 ws => cases ws <;> rfl
  generalize hm : (ws.getD 1 0).toNat = m at harg
  have hlt : m < 2 ^ 32 := hm ▸ (ws.getD 1 0).isLt
  obtain ⟨hsum, hbit⟩ := sum_pow_bits (fun n => testBit m n && (h.netSeen n).st == .off) 16
  generalize hS : (below 16 fun n => testBit m n && (h.netSeen n).st == .off).foldl (fun x n => x + 2 ^ n) 0 = S at hsum hbit
  have hcmd : (h.scriptCmd ws).arg 1 = (word (m - m % 65536 + S)).toNat := by
    unfold Hub.scriptCmd
    rw [if_pos (show (cmdOf .script ws).code = 0x0B01 from hc)]
    simp only [harg, hS]
    rfl
  have hval : (word (m - m % 65536 + S)).toNat = 2 ^ 16 * (m / 65536) + S := by
    unfold word
    rw [BitVec.toNat_ofNat]
    have hS16 : S < 65536 := hsum
    have hm32 : m < 4294967296 := hlt
    show (m - m % 65536 + S) % 4294967296 = 65536 * (m / 65536) + S
    omega
  rw [hcmd, hval, testBit_eq_nat, Nat.testBit_two_pow_mul_add _ hsum, if_pos hn, hbit n hn]
  rfl

/-- A hub that differs in its register words and its global block alone. -/
theorem only_regs_glb {s : State} {h : Hub} (e : h = { s.hub with regs := h.regs, glb := h.glb }) :
    Only [.regs, .glb] s { s with hub := h } :=
  only_hub (by rw [e]) fun p hp => by
    rw [e]
    cases p
    case regs => exact absurd List.mem_cons_self hp
    case glb => exact absurd (List.mem_cons_of_mem _ List.mem_cons_self) hp
    all_goals rfl

/-- Settles O53, clause by clause; a command's own time is that of its record, for no command takes time (`Hub.doCmd_now`). -/
theorem setupScripts : Obligations.SetupScripts := by
  unfold Obligations.SetupScripts
  refine ⟨scriptRec_says, fun s x i a len rest => ?_, fun h nv x ws n st hs => ?_, fun h nv x ws n => h.scriptAnswered_ok nv x ws n, fun h a w hlo hhi ho => ?_,
    fun h ws hc n hn => Hub.scriptCmd_mask hc hn⟩
  · intro next hh hs hsec
    refine ⟨fun addr ws n hr => ?_, fun us n hr => ?_, fun n hr => ⟨fun hne => ?_, fun hnil hready => ?_⟩, fun ws n hr hc => ?_,
      fun ws n t hr hc hans => ?_, fun ws n t st hr hc hans => ?_, fun n c hr hready hc => ?_⟩
    · exact makes_on (fun h => h.scriptWrite s.nv) hh rfl (Hub.scriptStep_run _ hh hs hsec hr (by simp))
    · exact makes_on (fun h => h.scriptWait s.nv) hh rfl (Hub.scriptStep_run _ hh hs hsec hr (by simp))
    · refine makes_on (fun h => h.scriptEnd s.nv) hh rfl ((Hub.scriptStep_run _ hh hs hsec hr (by simp)).trans ?_)
      dsimp only
      rw [hsec]
      obtain ⟨y, ys, rfl⟩ := List.exists_cons_of_ne_nil hne
      rfl
    · refine gives_on (fun h => h.scriptEnd s.nv) hh rfl ?_
      have hend : s.hub.scriptEnd s.nv = s.hub.setReady := by
        refine (Hub.scriptStep_run _ hh hs hsec hr (by simp)).trans ?_
        dsimp only
        rw [hsec, hnil]
        exact if_neg (by rw [hready]; decide)
      rw [hend]
      exact ⟨only_regs_glb rfl, fun a ha => Hub.rd_setFld_ne _ _ _ (by simpa using ha),
        s.hub.setReady_ready, rfl⟩
    · refine makes_on (fun h => h.scriptCommand s.nv) hh rfl ((Hub.scriptStep_run _ hh hs hsec hr (by simp)).trans ?_)
      dsimp only
      rw [hc]
      dsimp only
      have hnow := Hub.doCmd_now (s.hub.setGlb { s.hub.glb with scriptAns := none })
        (Hub.scriptCmd (s.hub.setGlb { s.hub.glb with scriptAns := none }) ws)
      generalize Hub.doCmd _ _ = k at hnow ⊢
      have hnow' : k.now = s.hub.now := hnow
      cases k.glb.scriptAns with
      | some st => rfl
      | none => rw [← hnow']
    · refine makes_on (fun h => h.scriptCommand s.nv) hh rfl ((Hub.scriptStep_run _ hh hs hsec hr (by simp)).trans ?_)
      dsimp only
      rw [hc]
      dsimp only
      rw [hans]
      rfl
    · refine makes_on (fun h => h.scriptCommand s.nv) hh rfl ((Hub.scriptStep_run _ hh hs hsec hr (by simp)).trans ?_)
      dsimp only
      rw [hc]
      dsimp only
      rw [hans]
    · obtain ⟨run, he⟩ : ∃ run, exec c s = s.on fun h => h.scriptStep s.nv run := by
        simp only [List.mem_cons, List.not_mem_nil, or_false] at hc
        obtain rfl | rfl | rfl | rfl := hc <;> exact ⟨_, rfl⟩
      refine gives_on (fun h => h.scriptStep s.nv run) hh he ?_
      rw [Hub.scriptStep_bad run hh hs hsec hr]
      obtain ⟨hbut, hrd, hover, hfail, hevt, herr, hnone⟩ := s.hub.scriptFail_spec x sEARG
      have hsection : x.section = i := by rw [Script.section, hsec]
      refine ⟨only_regs_glb hbut, hrd, hover, hfail, hevt, ?_, hnone⟩
      rw [herr, scriptErr, hsection]
  · rw [Hub.scriptAnswered_fail _ _ _ _ _ hs]
    obtain ⟨-, -, hready, hfail, -, herr, hnone⟩ := h.scriptFail_spec x st
    exact ⟨hfail, hready, (congrArg (bits · _) herr).trans (scriptErr_status x st), hnone⟩
  · unfold Hub.scriptPut
    dsimp only
    rw [if_pos ⟨hlo, hhi, ho⟩]
    split
    · exact .inl rfl
    · exact .inr rfl

end Sys2Proof.Machine
